-- ==== Sys2Proof/Word.lean ====
section
/-! DEFINITION. The word types of the device: bytes and the 32-bit words of an item or a sample. -/

namespace Sys2Proof

/-- One byte on the wire. -/
abbrev Byte := BitVec 8

end Sys2Proof
end

