-- ==== Sys2Proof/Syntax.lean ====
section
/-! DEFINITION. The commands the block takes, and the operands they carry. A command is what an outside party or one of the
device's own agents does; spec/opcode_table.json lists them. -/

namespace Sys2Proof

/-- Who makes a dictionary request: the roles of R366; `none` is a session with no role yet. -/
inductive Role where
  | host | admin | operator | observer | none
deriving DecidableEq, Repr

/-- The types of R362. -/
inductive Ty where
  | bool | u8 | u16 | u32 | u64 | i32 | gain24 | time | str | blob | enum | descriptor
deriving DecidableEq, Repr

/-- A value as an item carries it: its type code and its bytes in wire order (R362, R363, R373). -/
structure Val where
  ty : Ty
  raw : List Byte
deriving DecidableEq, Repr

/-- The data set an Announce carries (R76, PTP_PARENT): grandmaster identity, priority1, clockClass, clockAccuracy,
offsetScaledLogVariance, priority2, stepsRemoved, UTC offset, flags, timeSource. -/
structure Announce where
  gm : Nat := 0
  prio1 : Nat := 0
  cls : Nat := 0
  acc : Nat := 0
  var : Nat := 0
  prio2 : Nat := 0
  steps : Nat := 0
  utc : Nat := 0
  flags : Nat := 0
  tsrc : Nat := 0
deriving DecidableEq, Repr

/-- A PTP message (R72): messageType code, domainNumber, source port identity (80 bits), sequenceId, correctionField in
units of 2^-16 ns, its timestamp field in units of 2^-16 ns, twoStepFlag, requesting port identity, data set, whether it
goes unicast (hybrid mode), logMessageInterval, the path trace of an Announce, and the IPv4 and MAC address of its far end. -/
structure PtpMsg where
  kind : Nat
  domain : Nat := 0
  src : Nat := 0
  seq : Nat := 0
  corr : Int := 0
  time : Nat := 0
  twoStep : Bool := false
  req : Nat := 0
  ann : Announce := {}
  unicast : Bool := false
  logInt : Int := 0
  path : List Nat := []
  ip : Nat := 0
  mac : Nat := 0
deriving DecidableEq, Repr

/-- An Ethernet frame as a port receives it (R132): its bytes from the destination address without FCS, whether the FCS is right,
whether it ends on an odd nibble, and the timestamp point in quarter counts of RC (R68); and what the line brought with it and
since the frame before: PCS error blocks or error symbols, FEC blocks or codewords corrected, and not correctable (R158). -/
structure FrameIn where
  bytes : List Byte
  fcsOk : Bool := true
  odd : Bool := false
  q : Nat := 0
  codeErr : Nat := 0
  fecFixed : Nat := 0
  fecLost : Nat := 0
deriving DecidableEq, Repr

/-- What the frequency monitor has measured of a candidate in a second (R92, R97): whether its signal is present, its offset over
that second in 0.1 ppb, and a point of quarter counts at which its last edge came. -/
structure RefMeas where
  c : Nat
  present : Bool := true
  off : Int := 0
  edge : Nat := 0
deriving DecidableEq, Repr

/-- What the fabric and a guest bring to the end of a block (R45, R325 to R329): the block's slack in ns and whether it is late;
the same of the shadow's run; whether the guest is a block behind; a difference found, and whether it lies in a copied word;
whether the other guest has found one of its own and no vote has started (R341). -/
structure EndWork where
  slack : Nat := 0
  late : Bool := false
  guestSlack : Nat := 0
  guestLate : Bool := false
  behind : Bool := false
  differ : Option Bool := none
  both : Bool := false
deriving DecidableEq, Repr

/-- Who sends a KDP message (R371, R380): the host port, or a network client: its port, IPv4 address, UDP port and MAC address. -/
inductive Sender where
  | host
  | net (port ip udp mac : Nat)
deriving DecidableEq, Repr


/-- Where damage to a Hall bank shows (R253, R257): tile, bank, byte, the bits inverted. -/
structure HallHit where
  tile : Nat
  bank : Nat
  byte : Nat
  flip : Nat
deriving DecidableEq, Repr

/-- What the fabric brings to a tick beside its slack (R36, R43): the work not done by the deadline: sinks of stages 2 and 4,
the launch, Hall tiles, the scrubber's visit, converters' output samples, delay lines whose sample has not arrived (R354), the recorder; rooms
whose comparison of the position due is not complete (R334); Hall banks that read
damaged; whether the tile under test failed (R452); rooms in whose running block a position that both cores have released differs (R329). -/
structure TickWork where
  fill2 : List Nat := []
  fill4 : List Nat := []
  launch : Bool := false
  hall : List Nat := []
  noScrub : Bool := false
  asrc : List Nat := []
  lines : List Nat := []
  recorder : Bool := false
  unchecked : List Nat := []
  damage : List HallHit := []
  testFail : Bool := false
  differs : List Nat := []
deriving DecidableEq, Repr

/-- The commands of the device, one constructor per row of spec/opcode_table.json. -/
inductive Instr where
  /-- TICK_EDGE. R17: An APLL edge e(n) of a running domain begins tick n and runs its five stages of work for that domain. -/
  | tickEdge (d : Nat) (slack : Nat) (w : TickWork)
  /-- TICK_DEADLINE. R36: At e(n+1) minus 1 us, unfinished work of tick n is abandoned, late work is counted and launch runs on the sink values as they stand. -/
  | tickDeadline (d : Nat)
  /-- DL_HOLDOFF_END. R475: A deadline hold-off window of DL_HOLDOFF ticks ends, posting one event with its count if it is non-zero. -/
  | dlHoldoffEnd (d : Nat) (cause : Nat)
  /-- SINK_SOURCE_SET. R23: A SET of a Hallway sink entry is judged for form and domain and takes effect at the sink's next fill stage. -/
  | sinkSourceSet (who : Role) (o : Nat) (v : Val)
  /-- TONE_CTRL_SET. R29: A SET of TONE_CTRL changes mode or domain, checked against the frequency limit, and may restart the sine at phase 0. -/
  | toneCtrlSet (who : Role) (g : Nat) (v : Val)
  /-- TONE_FREQ_SET. R29: A SET of TONE_FREQ changes the sine frequency with continuous phase, within the domain limit. -/
  | toneFreqSet (who : Role) (g : Nat) (v : Val)
  /-- REGISTER_WRITE. R364: A SET of any entry without behaviour of its own writes the whole entry after the type, range and state checks. -/
  | registerWrite (who : Role) (key : Nat) (v : Val)
  /-- RC_ENTRY_GET. R367: A GET of an entry with read-clear fields returns the value and clears it if the role holds the clear right. -/
  | rcEntryGet (who : Role) (key : Nat)
  /-- HM_WINDOW_END. R46: A headroom window of 2^HM_WINDOW ticks ends; the results are latched and the automatic loop judges them. -/
  | hmWindowEnd (d : Nat)
  /-- VID_IDLE_LOWER. R51: With no domain running and no room active, a 100 ms timer lowers the code by 1. -/
  | vidIdleLower
  /-- VID_SETTLE_END. R49: The VID_SETTLE wait after a move ends, so the next move of a series or a deferred setting may proceed. -/
  | vidSettleEnd
  /-- VID_MODE_SET. R56: A SET of VID_MODE starts the automatic loop from CODE_NOW or moves the code to VID_FIXED. -/
  | vidModeSet (who : Role) (v : Val)
  /-- VID_FIXED_SET. R50: A SET of VID_FIXED moves the code in fixed mode by steps of at most 4. -/
  | vidFixedSet (who : Role) (v : Val)
  /-- VID_BOUNDS_SET. R55: A SET of VID_FLOOR or VID_CEIL is checked and moves the code inside the new bounds. -/
  | vidBoundsSet (who : Role) (ceil : Bool) (v : Val)
  /-- HM_WINDOW_SET. R46: A SET of HM_WINDOW changes the window length and starts every window afresh. -/
  | hmWindowSet (who : Role) (v : Val)
  /-- PWR_GOOD_CHANGE. R54: PWR_GOOD changes level while RESET_N is high. -/
  | pwrGoodChange (high : Bool)
  /-- PWR_GOOD_LOST. R53: PWR_GOOD has stayed low 10 us; the code freezes, the loop stops, PG_LOST is set and event 0xB002 is posted. -/
  | pwrGoodLost
  /-- PWR_GOOD_RESUME. R53: PWR_GOOD has been high for 1 ms and the automatic loop resumes. -/
  | pwrGoodResume
  /-- TV_SCHEDULE_SET. R63: A SET of TV_SCHEDULE with a rate or step replaces any pending schedule of the view. -/
  | tvScheduleSet (who : Role) (v : Nat) (x : Val)
  /-- TV_SCHEDULE_CANCEL. R64: A TV_SCHEDULE with neither rate nor step cancels the pending schedule. -/
  | tvScheduleCancel (who : Role) (v : Nat) (x : Val)
  /-- TV_SCHEDULE_APPLY. R62: RC reaches a schedule's apply point and the view's OFFSET and RATE change with a seamless step. -/
  | tvScheduleApply (v : Nat)
  /-- TV_SOURCE_SET. R66: A SET of TV_SOURCE changes the view's steering owner and cancels its pending schedule. -/
  | tvSourceSet (who : Role) (v : Nat) (x : Val)
  /-- PTP_SYNC_RX. R79: A Sync message is received and timestamped, and the servo computes the offset and writes the view. -/
  | ptpSyncRx (p : Nat) (m : PtpMsg) (q : Nat)
  /-- PTP_FOLLOW_UP_RX. R72: A Follow_Up message is received and completes a two-step Sync. -/
  | ptpFollowUpRx (p : Nat) (m : PtpMsg)
  /-- PTP_DELAY_REQ_RX. R72: A Delay_Req is received and answered with a Delay_Resp. -/
  | ptpDelayReqRx (p : Nat) (m : PtpMsg) (q : Nat)
  /-- PTP_DELAY_RESP_RX. R79: A Delay_Resp is received and the mean path delay is updated. -/
  | ptpDelayRespRx (p : Nat) (m : PtpMsg)
  /-- PTP_PDELAY_REQ_RX. R72: A Pdelay_Req is received and answered with Pdelay_Resp and, in two-step, Pdelay_Resp_Follow_Up. -/
  | ptpPdelayReqRx (p : Nat) (m : PtpMsg) (q : Nat)
  /-- PTP_PDELAY_RESP_RX. R75: A Pdelay_Resp is received and a peer-delay exchange is judged, updating asCapable. -/
  | ptpPdelayRespRx (p : Nat) (m : PtpMsg) (q : Nat)
  /-- PTP_PDELAY_RESP_FOLLOW_UP_RX. R75: A Pdelay_Resp_Follow_Up is received and completes a two-step peer-delay exchange. -/
  | ptpPdelayRespFollowUpRx (p : Nat) (m : PtpMsg)
  /-- PTP_ANNOUNCE_RX. R76: An Announce is received, updating the foreign master table and running BMCA when it qualifies. -/
  | ptpAnnounceRx (p : Nat) (m : PtpMsg)
  /-- PTP_SYNC_INTERVAL. R74: The Sync interval of a master port expires and a Sync, with Follow_Up in two-step, is sent. -/
  | ptpSyncInterval (p : Nat)
  /-- PTP_ANNOUNCE_INTERVAL. R74: The announce interval expires and an Announce is sent. -/
  | ptpAnnounceInterval (p : Nat)
  /-- PTP_DELAY_REQ_INTERVAL. R74: The delay or peer-delay request interval expires and a Delay_Req or Pdelay_Req is sent. -/
  | ptpDelayReqInterval (p : Nat)
  /-- ANNOUNCE_RECEIPT_TIMEOUT. R80: No Announce within the receipt timeout: BMCA runs and the servo goes to FREE. -/
  | announceReceiptTimeout (p : Nat)
  /-- SYNC_RECEIPT_TIMEOUT. R80: No Sync for 3 intervals: the servo goes to FREE and the view runs free. -/
  | syncReceiptTimeout (p : Nat)
  /-- PTP_PORT_CFG_SET. R82: A SET of PTP_PORT_CFG is range-checked by profile and sends the port through INITIALIZING. -/
  | ptpPortCfgSet (who : Role) (p : Nat) (v : Val)
  /-- PTP_CLOCK_ID_SET. R82: A SET of PTP_CLOCK_ID sends the port through INITIALIZING. -/
  | ptpClockIdSet (who : Role) (p : Nat) (v : Val)
  /-- PTP_BC_SET. R81: A SET of BC_ENABLE joins or splits the boundary clock and sends both ports through INITIALIZING. -/
  | ptpBcSet (who : Role) (v : Val)
  /-- TT_CTRL_SET. R83: A SET of TT_CTRL arms or disarms a timed trigger, converting its target to an RC value. -/
  | ttCtrlSet (who : Role) (tt : Nat) (v : Val)
  /-- TRIGGER_FIRE. R85: RC reaches an armed trigger's converted target and the trigger performs its action. -/
  | triggerFire (tt : Nat)
  /-- TRIG_OUT_PULSE_END. R86: A TRIG_OUT pulse of WIDTH x 8 ns ends and the pin returns inactive. -/
  | trigOutPulseEnd (o : Nat)
  /-- EVT_IN_EDGE. R88: A selected edge on EVT_IN is captured on RC, converted through a view and queued. -/
  | evtInEdge (pin : Nat) (rising : Bool) (short : Bool) (q : Nat)
  /-- EVT_CAPTURE_GET. R89: A GET of EVT_CAPTURE returns and removes the oldest capture of the pin. -/
  | evtCaptureGet (who : Role) (pin : Nat)
  /-- EVT_CFG_SET. R88: A SET of EVT_CFG changes edge, view and posting; writing EDGE clears MISSED. -/
  | evtCfgSet (who : Role) (pin : Nat) (v : Val)
  /-- REF_CFG_SET. R93: A SET of REF_CFG enables, disables or reconfigures a Hearth candidate. -/
  | refCfgSet (who : Role) (c : Nat) (v : Val)
  /-- REF_NO_SIGNAL. R92: A candidate's signal test fails and the candidate is FAILED with cause no signal. -/
  | refNoSignal (c : Nat)
  /-- REF_MONITOR_SECOND. R97: Once per second the frequency monitor updates REF_FREQ and applies the soft and hard limits. -/
  | refMonitorSecond (meas : List RefMeas)
  /-- REF_FAST_CHECK. R97: Every 100 ms the fast check fails a candidate whose offset exceeds twice HARD. -/
  | refFastCheck (meas : List (Nat × Int))
  /-- REF_QUAL_EXPIRY. R99: A candidate's qualification timer expires and it enters WTR or AVAILABLE. -/
  | refQualExpiry (c : Nat)
  /-- REF_WTR_EXPIRY. R99: A candidate's wait-to-restore timer expires and it becomes AVAILABLE. -/
  | refWtrExpiry (c : Nat)
  /-- REF_CMD_END_WTR. R99: REF_CMD 1 ends wait-to-restore at once. -/
  | refCmdEndWtr (who : Role) (c : Nat) (v : Val)
  /-- REF_CMD_CLEAR_FAILED. R99: REF_CMD 2 clears HAS_FAILED of the candidate. -/
  | refCmdClearFailed (who : Role) (c : Nat) (v : Val)
  /-- ESMC_PDU_RX. R146: A slow-protocols ESMC PDU is parsed, updating ESMC_STATUS and restarting the ESMC timeout. -/
  | esmcPduRx (p : Nat) (f : FrameIn)
  /-- ESMC_TIMEOUT. R95: No ESMC PDU for 5 s and the SyncE candidate fails with cause ESMC timeout. -/
  | esmcTimeout (p : Nat)
  /-- SEL_MODE_SET. R107: A change of SEL_MODE in HEARTH_CTRL changes the selection policy at once, subject to a switch in progress. -/
  | selModeSet (who : Role) (v : Val)
  /-- MANUAL_REF_SET. R106: A write of MANUAL_REF in mode 2 switches to the named candidate or waits up to MAN_WAIT for it. -/
  | manualRefSet (who : Role) (v : Val)
  /-- MAN_WAIT_EXPIRY. R106: The MAN_WAIT for a manual choice expires, MANUAL_REF returns to 15 and event 0x1004 is posted. -/
  | manWaitExpiry
  /-- DPLL_STAGE_END. R109: The DPLL leaves a bandwidth stage; leaving the last enters LOCKED and takes deferred decisions. -/
  | dpllStageEnd
  /-- HIST_RECORD_SECOND. R110: Once per second while LOCKED, the DPLL frequency is recorded into the holdover history. -/
  | histRecordSecond (freq : Int)
  /-- HO_SPEC_EXPIRY. R111: HO_SPEC seconds after entering HOLDOVER, HO_IN_SPEC falls to 0 and event 0x1005 is posted. -/
  | hoSpecExpiry
  /-- HEARTH_CMD_CLEAR_HISTORY. R110: HEARTH_CMD 1 clears the holdover history. -/
  | hearthCmdClearHistory (who : Role) (v : Val)
  /-- OUT_SLEW_END. R117: A frame or pulse output finishes slewing into alignment after a step. -/
  | outSlewEnd (o : Nat)
  /-- HEARTH_VIEW_UPDATE. R118: The Hearth writes a schedule to the view it steers, at least 8 times per second. -/
  | hearthViewUpdate
  /-- MD_CTRL_SET. R122: A SET of MD_CTRL changes a domain's rate or starts or stops its APLL, setting RUNNING. -/
  | mdCtrlSet (who : Role) (d : Nat) (v : Val)
  /-- PORT_CFG_SET. R127: A SET of PORT_CFG enables or disables a media port or changes its rate and FEC. -/
  | portCfgSet (who : Role) (p : Nat) (v : Val)
  /-- LINK_UP. R128: After 10 ms of block lock without hi_ber, the media port reports link up and posts event 0x3001. -/
  | linkUp (p : Nat)
  /-- LINK_DOWN. R128: Loss of block lock, alignment lock or hi_ber takes the link down, dropping queued frames. -/
  | linkDown (p : Nat) (cause : Nat)
  /-- M_INBAND_STATUS. R147: The PHY's RGMII in-band status changes port M's link, speed or duplex. -/
  | mInbandStatus (up : Bool) (speed : Nat) (full : Bool)
  /-- FRAME_RX. R132: An Ethernet frame is received whole, sorted by length and FCS, and given to one consumer. -/
  | frameRx (p : Nat) (f : FrameIn)
  /-- RING_DROP_WINDOW_END. R156: The 100 ms ring-drop hold-off ends, posting event 0x3002 with its count if non-zero. -/
  | ringDropWindowEnd (p : Nat)
  /-- RXR_RELEASE_SET. R155: A SET of RXR_RELEASE frees the oldest frame of the receive ring. -/
  | rxrReleaseSet (who : Role) (p : Nat) (v : Val)
  /-- TXQ_SEND_SET. R141: The host queues a frame or segmented send on a transmit queue if it fits. -/
  | txqSendSet (who : Role) (p : Nat) (q : Nat) (v : Val)
  /-- FRAME_TX_END. R138: A frame finishes on the wire and the port starts the oldest frame of the lowest unpaused queue. -/
  | frameTxEnd (p : Nat) (q : Nat)
  /-- HD_COLLISION. R149: A collision during a half-duplex transmission sends jam and starts backoff or discards the frame. -/
  | hdCollision (bits : Nat)
  /-- HD_BACKOFF_END. R149: A half-duplex backoff of r slot times ends and the frame is tried again. -/
  | hdBackoffEnd
  /-- HD_CARRIER_IDLE. R149: Carrier has been absent 96 bit times and a deferred half-duplex frame is transmitted. -/
  | hdCarrierIdle (deferred : Bool)
  /-- PAUSE_EXPIRY. R144: A pause time runs out and the paused queues resume. -/
  | pauseExpiry (p : Nat) (c : Nat)
  /-- PAUSE_WD_TRIP. R145: A pause held for WD_TIME trips the watchdog, which ignores that pause for WD_HOLD and posts event 0x3003. -/
  | pauseWdTrip (p : Nat) (c : Nat)
  /-- PAUSE_WD_HOLD_END. R145: WD_HOLD ends and the pause is honoured again. -/
  | pauseWdHoldEnd (p : Nat) (c : Nat)
  /-- STREAM_RX_ENABLE. R189: ENABLE 1 of a receive context starts it, arms it, or cancels a stop. -/
  | streamRxEnable (who : Role) (c : Nat) (v : Val)
  /-- STREAM_RX_DISABLE. R191: ENABLE 0 of a receive context returns it to OFF from ARMED or begins its stop. -/
  | streamRxDisable (who : Role) (c : Nat) (v : Val)
  /-- STREAM_TX_ENABLE. R189: ENABLE 1 of a transmit context starts it, arms it, or cancels a stop. -/
  | streamTxEnable (who : Role) (c : Nat) (v : Val)
  /-- STREAM_TX_DISABLE. R192: ENABLE 0 of a transmit context returns it to OFF from ARMED or begins its stop. -/
  | streamTxDisable (who : Role) (c : Nat) (v : Val)
  /-- STREAM_PATH_TIMEOUT. R183: No valid packet on a path within 4 packet times or 10 ms; the path goes down and event 0x4002 is posted. -/
  | streamPathTimeout (c : Nat) (path : Nat)
  /-- STREAM_HOLD_EXPIRY. R191: STOP_HOLD packet times in HOLD pass and the context goes to OFF. -/
  | streamHoldExpiry (isTx : Bool) (c : Nat)
  /-- NA_HOLD_EXPIRY. R185: A channel pair shows no IEC 61937 preamble for NA_HOLD and its non-audio flags clear. -/
  | naHoldExpiry (c : Nat) (k : Nat)
  /-- STREAM_STATE_WINDOW_END. R198: The 100 ms hold-off on RUN and UNDERRUN changes ends, posting one event with its count. -/
  | streamStateWindowEnd (c : Nat)
  /-- TDM_SIDE_ENABLE. R216: ENABLE 1 of a TDM side starts it, arms it, or cancels a stop in TAIL. -/
  | tdmSideEnable (who : Role) (p : Nat) (b : Nat) (v : Val)
  /-- TDM_SIDE_DISABLE. R216: ENABLE 0 of a TDM side returns it to OFF or begins TAIL. -/
  | tdmSideDisable (who : Role) (p : Nat) (b : Nat) (v : Val)
  /-- MASK_COMMIT. R212: A write of MASK_COMMIT marks the shadow slot mask for transfer at the next frame start edge. -/
  | maskCommit (who : Role) (p : Nat) (b : Nat) (v : Val)
  /-- TDM_FRAME_START. R216: A frame start edge of a running side begins a TDM frame, applying pending masks and pairing data. -/
  | tdmFrameStart (p : Nat) (b : Nat) (count : Nat) (quarter : Nat) (bclks : Nat) (lane0 : List Nat) (lane1 : List Nat) (late : List Nat)
  /-- TDM_SLAVE_LOCK. R209: A slave side has 4 consecutive good frames, locks and enters LEAD with its pairing chosen. -/
  | tdmSlaveLock (p : Nat) (b : Nat)
  /-- TDM_SLAVE_LOCK_LOSS. R209: A slave side has 4 frame errors or no frame start for 4 periods and loses lock. -/
  | tdmSlaveLockLoss (p : Nat) (b : Nat) (silent : Bool)
  /-- TDM_LEAD_END. R216: CLK_LEAD frames have begun in LEAD and the side enters RUN. -/
  | tdmLeadEnd (p : Nat) (b : Nat)
  /-- TDM_TAIL_END. R216: CLK_TAIL frames have begun in TAIL and the side goes to OFF, a master stopping its clocks. -/
  | tdmTailEnd (p : Nat) (b : Nat)
  /-- TDM_SLIP_WINDOW_END. R227: The 100 ms slip hold-off of a side ends, posting event 0x5002 with its count. -/
  | tdmSlipWindowEnd (p : Nat) (b : Nat) (kind : Nat)
  /-- ASRC_ENABLE. R233: ENABLE 1 of a converter starts measurement in ACQUIRE. -/
  | asrcEnable (who : Role) (c : Nat) (v : Val)
  /-- ASRC_DISABLE. R233: ENABLE 0 of a converter sends it to OFF and clears its FIFO. -/
  | asrcDisable (who : Role) (c : Nat) (v : Val)
  /-- ASRC_ACQUIRE_DONE. R233: 256 edges of the slower side are measured; the converter sets D and enters SETTLE. -/
  | asrcAcquireDone (c : Nat) (ratio : Nat) (phi : Nat)
  /-- ASRC_NARROW. R233: 20 / ACQ_BW seconds in SETTLE pass and the loop narrows to TRACK_BW. -/
  | asrcNarrow (c : Nat)
  /-- ASRC_LOCK. R233: The delay error stays below 0.01 period for 4 / TRACK_BW seconds and the converter is LOCKED. -/
  | asrcLock (c : Nat)
  /-- ASRC_EDGE_TIMEOUT. R233: A side has no edge for 4 nominal periods and the converter re-acquires. -/
  | asrcEdgeTimeout (c : Nat) (out : Bool)
  /-- ASRC_EVENT_WINDOW_END. R240: The 100 ms limit on SETTLE and LOCKED postings ends and the latest state is posted. -/
  | asrcEventWindowEnd (c : Nat)
  /-- GAIN_SET. R249: A SET of GAIN writes one crosspoint into the tile's shadow bank and sets DIRTY. -/
  | gainSet (who : Role) (x : Nat) (v : Val)
  /-- TILE_SHADOW_SET. R249: A SET of TILE_SHADOW replaces a tile's whole shadow bank and clears SHADOW_BAD. -/
  | tileShadowSet (who : Role) (t : Nat) (v : Val)
  /-- TILE_COMMIT. R250: TILE_CMD 1 commits one tile, swapping banks at tick c with a crossfade or without one from FAILED. -/
  | tileCommit (who : Role) (t : Nat) (v : Val)
  /-- TILE_REVERT. R249: TILE_CMD 2 copies the active bank back over a dirty shadow bank. -/
  | tileRevert (who : Role) (t : Nat) (v : Val)
  /-- HALL_COMMIT. R250: HALL_COMMIT commits every READY tile with DIRTY 1 at one tick c. -/
  | hallCommit (who : Role) (v : Val)
  /-- HALL_CFG_SET. R258: A SET of HALL_CFG moves the Hall between domains or changes scrubbing. -/
  | hallCfgSet (who : Role) (v : Val)
  /-- TILE_COPY_DONE. R478: A COPY or REPAIR of a tile completes and the tile returns to READY. -/
  | tileCopyDone (t : Nat) (damage : List HallHit)
  /-- HALL_CSUM_WINDOW_END. R260: A tile's 100 ms checksum-failure hold-off ends, posting event 0x9001 with its count. -/
  | hallCsumWindowEnd (t : Nat)
  /-- HALL_SAT_WINDOW_END. R260: The Hall's 100 ms saturation hold-off ends, posting event 0x9003 with its count. -/
  | hallSatWindowEnd
  /-- ROOM_ENABLE. R291: ENABLE 1 of a room starts it, arms it, or cancels a stop. -/
  | roomEnable (who : Role) (r : Nat) (v : Val)
  /-- ROOM_DISABLE. R291: ENABLE 0 of a room stops it or leaves ARMED or FAULT. -/
  | roomDisable (who : Role) (r : Nat) (v : Val)
  /-- ROOM_FAULT. R289: SKIP_LIMIT consecutive triggers are skipped and the room stops in FAULT, posting event 0xA003. -/
  | roomFault (r : Nat)
  /-- ROOM_LOAD_SET. R295: A SET of ROOM_LOAD writes words into a room's P, X or Y memory, at once or between blocks. -/
  | roomLoadSet (who : Role) (r : Nat) (v : Val)
  /-- ROOM_LOAD_DEFERRED_WRITE. R296: A load that waited for a running block's END is written between blocks. -/
  | roomLoadDeferredWrite (r : Nat)
  /-- ROOM_CMD_CLEAR. R298: ROOM_CMD 1 clears every register of both sets of an OFF or FAULT room. -/
  | roomCmdClear (who : Role) (r : Nat) (v : Val)
  /-- ROOM_MBOX_IN_SET. R286: A SET of ROOM_MBOX_IN stores a word and sets MBOX_PEND, making the interrupt pending. -/
  | roomMboxInSet (who : Role) (r : Nat) (v : Val)
  /-- ROOM_MBOX_OUT_GET. R286: A GET of ROOM_MBOX_OUT returns the word and clears MBO_NEW. -/
  | roomMboxOutGet (who : Role) (r : Nat)
  /-- INTERRUPT_ENTRY. R282: A pending interrupt is taken at an allowed point: IPC saved, shadow set switched, execution at IVEC. -/
  | interruptEntry (r : Nat)
  /-- NOP. R311: Instruction NOP does nothing. -/
  | nop (r : Nat)
  /-- BRA. R311: Instruction BRA branches on a condition after two delay slots. -/
  | bra (r : Nat)
  /-- CALL. R313: Instruction CALL pushes a return address and branches on a condition. -/
  | call (r : Nat)
  /-- RET. R313: Instruction RET pops a return address and branches on a condition. -/
  | ret (r : Nat)
  /-- RTI. R282: Instruction RTI returns from the interrupt handler to IPC with the main register set. -/
  | rti (r : Nat)
  /-- DBNZ. R311: Instruction DBNZ decrements a pointer and branches if it is not zero. -/
  | dbnz (r : Nat)
  /-- REP. R279: Instruction REP repeats a body of up to 32 instructions a count of times as one uninterruptible step. -/
  | rep (r : Nat)
  /-- END. R287: Instruction END releases every output position and ends the block. -/
  | endBlock (r : Nat) (w : EndWork)
  /-- SWI. R282: Instruction SWI makes the interrupt pending. -/
  | swi (r : Nat)
  /-- PARALLEL_MOVE. R305: A format P instruction without arithmetic performs its X and Y moves. -/
  | parallelMove (r : Nat)
  /-- LONG_MOVE. R308: A format L instruction without arithmetic performs one move with any pointer or absolute address. -/
  | longMove (r : Nat)
  /-- LDI. R309: Format I writes a 32-bit immediate to a register. -/
  | ldi (r : Nat)
  /-- MOVE. R310: Format R moves one register into another. -/
  | move (r : Nat)
  /-- MPY. R314: Arithmetic MPY writes the product into an accumulator. -/
  | mpy (r : Nat)
  /-- MPYN. R314: Arithmetic MPYN writes the negated product into an accumulator. -/
  | mpyn (r : Nat)
  /-- MAC. R314: Arithmetic MAC adds the product to an accumulator. -/
  | mac (r : Nat)
  /-- MACN. R314: Arithmetic MACN subtracts the product from an accumulator. -/
  | macn (r : Nat)
  /-- MPYI. R314: Arithmetic MPYI writes the integer product into an accumulator. -/
  | mpyi (r : Nat)
  /-- LDA. R314: Arithmetic LDA loads a register as Q1.31 into an accumulator. -/
  | lda (r : Nat)
  /-- CPA. R314: Arithmetic CPA copies the other accumulator. -/
  | cpa (r : Nat)
  /-- ADD. R314: Arithmetic ADD adds a register as Q1.31 to an accumulator. -/
  | add (r : Nat)
  /-- SUB. R314: Arithmetic SUB subtracts a register as Q1.31 from an accumulator. -/
  | sub (r : Nat)
  /-- ADDA. R314: Arithmetic ADDA adds the other accumulator. -/
  | adda (r : Nat)
  /-- SUBA. R314: Arithmetic SUBA subtracts the other accumulator. -/
  | suba (r : Nat)
  /-- CLR. R314: Arithmetic CLR clears an accumulator. -/
  | clr (r : Nat)
  /-- NEG. R314: Arithmetic NEG negates an accumulator. -/
  | neg (r : Nat)
  /-- ABS. R314: Arithmetic ABS takes the magnitude of an accumulator. -/
  | absAcc (r : Nat)
  /-- MAX. R314: Arithmetic MAX writes the greater of ACC0 and ACC1. -/
  | maxAcc (r : Nat)
  /-- MIN. R314: Arithmetic MIN writes the lesser of ACC0 and ACC1. -/
  | minAcc (r : Nat)
  /-- CMP. R314: Arithmetic CMP sets flags of an accumulator minus a register. -/
  | cmp (r : Nat)
  /-- TST. R314: Arithmetic TST sets flags of an accumulator. -/
  | tst (r : Nat)
  /-- SAT. R314: Arithmetic SAT saturates an accumulator to the Q1.31 range. -/
  | sat (r : Nat)
  /-- ASL. R315: Arithmetic ASL shifts an accumulator left by an immediate count. -/
  | asl (r : Nat)
  /-- ASR. R315: Arithmetic ASR shifts an accumulator right arithmetically by an immediate count. -/
  | asr (r : Nat)
  /-- ASH. R315: Arithmetic ASH shifts an accumulator left by a signed register count. -/
  | ash (r : Nat)
  /-- ASHR. R315: Arithmetic ASHR shifts an accumulator right by a signed register count. -/
  | ashr (r : Nat)
  /-- NORM. R316: Arithmetic NORM normalises an accumulator and writes the count. -/
  | norm (r : Nat)
  /-- EXP_ACC. R317: Arithmetic EXP Ad,B writes the normalising count of an accumulator. -/
  | expAcc (r : Nat)
  /-- EXP_REG. R317: Arithmetic EXP A,B writes the normalising count of a data register. -/
  | expReg (r : Nat)
  /-- AND. R314: Arithmetic AND ANDs a register into an accumulator's high word. -/
  | andAcc (r : Nat)
  /-- OR. R314: Arithmetic OR ORs a register into an accumulator's high word. -/
  | orAcc (r : Nat)
  /-- XOR. R314: Arithmetic XOR XORs a register into an accumulator's high word. -/
  | xorAcc (r : Nat)
  /-- ILLEGAL_INSTRUCTION. R277: An illegal instruction executes as NOP, sets ILL, counts and posts event 0xA002. -/
  | illegalInstruction (r : Nat)
  /-- PARITY_ERROR. R333: A core reads a memory word with a parity error, causing a takeover, a restore or a count. -/
  | parityError (c : Nat) (space : Nat) (addr : Nat) (flip : Nat)
  /-- GUEST_WARMUP_DONE. R327: A guest's warm-up copy completes and it is IN_STEP from the next block. -/
  | guestWarmupDone (k : Nat)
  /-- VOTE_DONE. R332: The third core finishes the disputed block, the outcome is applied and event 0xB004 is posted. -/
  | voteDone (r : Nat) (agree : Nat)
  /-- ROTATE_PERIOD_EXPIRY. R339: ROTATE_PERIOD passes and each clean IN_STEP guest swaps with its room at the next trigger. -/
  | rotatePeriodExpiry
  /-- SELFTEST_DONE. R340: A core self-test ends and the core is IN_SERVICE or FENCED, posting event 0xB006. -/
  | selftestDone (c : Nat) (pass : Bool)
  /-- SNAPSHOT_PERIOD. R335: SNAP_PERIOD passes and a snapshot of each COLD room is started. -/
  | snapshotPeriod (r : Nat)
  /-- SNAPSHOT_DONE. R335: A cold room's snapshot completes in the older buffer. -/
  | snapshotDone (r : Nat)
  /-- COLD_RESTORE_DONE. R336: A snapshot is loaded into a core and the cold room restarts at its next trigger. -/
  | coldRestoreDone (r : Nat)
  /-- GUEST_CMD_REJOIN. R344: GUEST_CMD 1 returns a fenced core to service after a passing self-test. -/
  | guestCmdRejoin (who : Role) (v : Val)
  /-- GUEST_CMD_SELFTEST. R344: GUEST_CMD 2 self-tests a core. -/
  | guestCmdSelftest (who : Role) (v : Val)
  /-- ROOM_GUARD_SET. R328: A SET of ROOM_GUARD changes guarding and clears COLD. -/
  | roomGuardSet (who : Role) (r : Nat) (v : Val)
  /-- TEMP_SAMPLE. R342: Every 1 ms the sensors update TEMP_MAX, judging WARN, CRIT and the thermal clamp. -/
  | tempSample (t : List Int)
  /-- MON_CFG_SET. R342: A SET of MON_CFG judges the new levels against the present TEMP_MAX at once. -/
  | monCfgSet (who : Role) (v : Val)
  /-- SUPPLY_SAMPLE. R343: Every 1 us each supply is sampled and an excursion of 10 samples is counted. -/
  | supplySample (c : Nat) (mv : Nat)
  /-- SUPPLY_WINDOW_END. R343: A supply channel's 100 ms excursion hold-off ends with its count. -/
  | supplyWindowEnd (c : Nat)
  /-- CELLAR_PART_SET. R348: A SET of CELLAR_PART repartitions the on-chip SRAM regions. -/
  | cellarPartSet (who : Role) (v : Val)
  /-- DLY_ENABLE. R352: ENABLE 1 of a delay line attaches it to a sink and takes its pages. -/
  | dlyEnable (who : Role) (n : Nat) (v : Val)
  /-- DLY_DISABLE. R352: ENABLE 0 of a delay line frees its pages and the sink is fed directly. -/
  | dlyDisable (who : Role) (n : Nat) (v : Val)
  /-- DLY_TIME_SET. R353: A SET of DELAY changes the line's delay with a hard cut at the next tick. -/
  | dlyTimeSet (who : Role) (n : Nat) (v : Val)
  /-- REC_MODE_RECORD. R355: MODE 1 of REC_CFG takes pages and arms recording from START_TICK. -/
  | recModeRecord (who : Role) (v : Val)
  /-- REC_MODE_HOLD. R356: MODE 2 of REC_CFG stops recording where it stands and holds the data. -/
  | recModeHold (who : Role) (v : Val)
  /-- REC_MODE_OFF. R355: MODE 0 of REC_CFG turns the recorder off and frees its pages. -/
  | recModeOff (who : Role) (v : Val)
  /-- REC_DONE. R356: LENGTH ticks are recorded without RING and the recorder reaches DONE. -/
  | recDone
  /-- DDR_ENABLE. R358: ENABLE 1 of DDR_CFG starts LPDDR4X training. -/
  | ddrEnable (who : Role) (v : Val)
  /-- DDR_DISABLE. R359: ENABLE 0 of DDR_CFG turns the LPDDR4X interface off. -/
  | ddrDisable (who : Role) (v : Val)
  /-- DDR_TRAINING_DONE. R358: Training completes and the interface becomes READY or FAILED, posting event 0xC001. -/
  | ddrTrainingDone (step : Nat)
  /-- DDR_MR4_POLL. R359: Every 16 ms the interface reads MR4 and scales refresh by temperature. -/
  | ddrMr4Poll (mr4 : Nat)
  /-- KDP_HELLO_OPEN. R375: A HELLO with OP 0 opens a session and agrees a version. -/
  | kdpHelloOpen (src : Sender) (msg : List Byte)
  /-- KDP_HELLO_CLOSE. R380: A HELLO with OP 1 closes the session, or resets session 0 over the host port. -/
  | kdpHelloClose (src : Sender) (msg : List Byte)
  /-- KDP_HELLO_KEEPALIVE. R375: A HELLO with OP 2 keeps the session alive. -/
  | kdpHelloKeepalive (src : Sender) (msg : List Byte)
  /-- KDP_AUTH. R377: An AUTH message authenticates the session with a key slot or closes it. -/
  | kdpAuth (src : Sender) (msg : List Byte)
  /-- KDP_GET. R383: A GET returns up to 64 entries or their descriptors. -/
  | kdpGet (src : Sender) (msg : List Byte)
  /-- KDP_GETBULK. R385: A GETBULK returns a run of entries that share a subindex. -/
  | kdpGetbulk (src : Sender) (msg : List Byte)
  /-- KDP_SET. R386: A SET judges and applies each item on its own. -/
  | kdpSet (src : Sender) (msg : List Byte)
  /-- KDP_SETBULK. R387: A SETBULK applies all its items or none. -/
  | kdpSetbulk (src : Sender) (msg : List Byte)
  /-- KDP_SET_STAGE. R388: A SET with GROUP stages its items into the session's open COMMIT group. -/
  | kdpSetStage (src : Sender) (msg : List Byte)
  /-- KDP_COMMIT_BEGIN. R388: COMMIT BEGIN opens the session's group. -/
  | kdpCommitBegin (src : Sender) (msg : List Byte)
  /-- KDP_COMMIT_APPLY. R388: COMMIT APPLY applies the open group as one SETBULK and closes it. -/
  | kdpCommitApply (src : Sender) (msg : List Byte)
  /-- KDP_COMMIT_TIMED_APPLY. R389: COMMIT APPLY with AT makes the group the waiting group until the view reaches AT. -/
  | kdpCommitTimedApply (src : Sender) (msg : List Byte)
  /-- KDP_COMMIT_DISCARD. R388: COMMIT DISCARD discards the open group. -/
  | kdpCommitDiscard (src : Sender) (msg : List Byte)
  /-- KDP_COMMIT_DISCARD_WAITING. R389: COMMIT DISCARD with SELECT 1 cancels the waiting group. -/
  | kdpCommitDiscardWaiting (src : Sender) (msg : List Byte)
  /-- COMMIT_TIMED_APPLY_DUE. R389: The view reaches a waiting group's AT; the group is judged, applied and its reply sent. -/
  | commitTimedApplyDue (ss : Nat)
  /-- COMMIT_GROUP_TIMEOUT. R388: A group neither applied nor waiting within 60 s of BEGIN is discarded. -/
  | commitGroupTimeout (ss : Nat)
  /-- KDP_SUBSCRIBE_LIST. R391: SUBSCRIBE OP 0 adds a subscription to a list of entries. -/
  | kdpSubscribeList (src : Sender) (msg : List Byte)
  /-- KDP_SUBSCRIBE_RANGE. R391: SUBSCRIBE OP 1 adds a subscription to a run of entries. -/
  | kdpSubscribeRange (src : Sender) (msg : List Byte)
  /-- KDP_SUBSCRIBE_REMOVE. R391: SUBSCRIBE OP 2 removes a subscription. -/
  | kdpSubscribeRemove (src : Sender) (msg : List Byte)
  /-- SUBSCRIPTION_PERIOD. R391: A subscription's PERIOD ends; changed entries are read and sent in NOTIFY messages. -/
  | subscriptionPeriod (ss : Nat) (id : Nat)
  /-- SESSION_IDLE_TIMEOUT. R380: A session without an accepted request for IDLE_TIMEOUT seconds is closed. -/
  | sessionIdleTimeout (ss : Nat)
  /-- SESSION_AUTH_TIMEOUT. R377: A session neither authenticated nor observer within 5 s of its HELLO is closed. -/
  | sessionAuthTimeout (ss : Nat)
  /-- AUTH_LOCKOUT_END. R377: The 10 s during which HELLOs from an address with 5 failures are ignored ends. -/
  | authLockoutEnd (ip : Nat)
  /-- KDP_CFG_SET. R398: A SET of KDP_CFG changes listening and versions, closing affected sessions. -/
  | kdpCfgSet (who : Role) (v : Val)
  /-- KEY_SET. R399: A SET of KEY loads a slot's key and closes sessions authenticated with it. -/
  | keySet (who : Role) (k : Nat) (v : Val)
  /-- KEY_CFG_SET. R399: A SET of KEY_CFG changes a slot's role and closes sessions authenticated with it. -/
  | keyCfgSet (who : Role) (k : Nat) (v : Val)
  /-- SESSION_CLOSE. R380: SESSION_CLOSE 1 closes a network session. -/
  | sessionClose (who : Role) (ss : Nat) (v : Val)
  /-- SAVE_CMD. R396: SAVE_CMD 1 writes the saved image to the older flash slot, optionally freezing SETs. -/
  | saveCmd (who : Role) (v : Val)
  /-- SAVE_DONE. R396: A save ends after verification and event 0xD003 is posted. -/
  | saveDone (cause : Nat)
  /-- BOOT_LOAD. R397: At a flash boot the newest valid saved image is applied in four passes before any request is served. -/
  | bootLoad (step : Nat)
  /-- HP_REQUEST. R408: A REQUEST transaction hands one KDP message to session 0. -/
  | hpRequest (flags : Nat) (arg : Nat) (data : List Byte) (crc : Nat)
  /-- HP_REPLY. R408: A REPLY transaction returns the current reply without consuming it. -/
  | hpReply (flags : Nat) (arg : Nat) (data : List Byte) (crc : Nat)
  /-- HP_NOTIFY. R409: A NOTIFY transaction returns the oldest held NOTIFY message. -/
  | hpNotify (flags : Nat) (arg : Nat) (data : List Byte) (crc : Nat)
  /-- HP_NOTIFY_RELEASE. R409: A NOTIFY_RELEASE transaction removes the oldest NOTIFY message. -/
  | hpNotifyRelease (flags : Nat) (arg : Nat) (data : List Byte) (crc : Nat)
  /-- HP_POP. R416: A POP transaction returns Letterbox items from the cursor, optionally setting the mark. -/
  | hpPop (flags : Nat) (arg : Nat) (data : List Byte) (crc : Nat)
  /-- HP_RELEASE. R417: A RELEASE transaction frees popped Letterbox items, possibly swapping the banks. -/
  | hpRelease (flags : Nat) (arg : Nat) (data : List Byte) (crc : Nat)
  /-- HP_MARK. R418: A MARK transaction sets the mark to the cursor. -/
  | hpMark (flags : Nat) (arg : Nat) (data : List Byte) (crc : Nat)
  /-- HP_REWIND. R418: A REWIND transaction moves the cursor back to the mark. -/
  | hpRewind (flags : Nat) (arg : Nat) (data : List Byte) (crc : Nat)
  /-- HP_STATUS. R410: A STATUS transaction returns the host port status bytes. -/
  | hpStatus (flags : Nat) (arg : Nat) (data : List Byte) (crc : Nat)
  /-- HP_ECHO. R406: An ECHO transaction returns its data unchanged. -/
  | hpEcho (flags : Nat) (arg : Nat) (data : List Byte) (crc : Nat)
  /-- HP_TRANSACTION_ABORT. R405: HOST_CS_N rises before the command's last byte; nothing is done and HP_ABORT counts. -/
  | hpTransactionAbort
  /-- LB_FLUSH. R419: LB_CMD 1 discards every Letterbox item and swallows items in assembly. -/
  | lbFlush (who : Role) (v : Val) (mid : List Nat) (last : List Nat)
  /-- LB_CODE_FILTER_SET. R424: A SET of LB_CODE_FILTER changes a code's posting threshold, refusing duplicate codes. -/
  | lbCodeFilterSet (who : Role) (f : Nat) (v : Val)
  /-- RESET_ASSERT. R428: RESET_N low returns every part of the device to its reset state. -/
  | resetAssert
  /-- RESET_RELEASE. R431: RESET_N rises, the straps are sampled and the boot mode begins. -/
  | resetRelease (straps : Nat) (volts : List Nat)
  /-- LO_DETECT. R432: After 100 us watching LO_CLK the device chooses LO_CLK or the crystal. -/
  | loDetect (edges : Nat)
  /-- BOOT_RECORD_READ. R433: The 64-byte boot record is read from flash and judged valid or not. -/
  | bootRecordRead (rec : Option (List Byte))
  /-- LO_CFG_SET. R434: A SET of LO_CFG starts locking the fixed-ratio PLL. -/
  | loCfgSet (who : Role) (v : Val)
  /-- PLL_LOCK. R437: The fixed-ratio PLL locks; RC, views, DPLL time and MD0 start from 0. -/
  | pllLock
  /-- PLL_LOCK_TIMEOUT. R434: The PLL does not lock within 2 ms and CLOCK_STATE becomes FAILED. -/
  | pllLockTimeout
  /-- FABRIC_INIT_DONE. R431: Fabric initialisation completes, enabling CHIP_READY as the boot mode allows. -/
  | fabricInitDone
  /-- LO_LOST. R439: The oscillator stops or the PLL loses lock; RC and derived clocks stop and event 0x0001 is posted. -/
  | loLost
  /-- PRODUCTION_SELFTEST_START. R440: In test mode, once LOCKED, the device starts its production self-tests. -/
  | productionSelftestStart
  /-- PRODUCTION_SELFTEST_DONE. R440: The production self-tests end, set SELFTEST_RESULT and post event 0xE001. -/
  | productionSelftestDone (cellar : Bool) (hallSram : Bool) (hallEngines : Bool) (asrc : Bool) (failed : List Nat)
  /-- TDM_LOOP_SET. R445: A SET of TDM_LOOP selects a TDM loopback depth for a port. -/
  | tdmLoopSet (who : Role) (p : Nat) (v : Val)
  /-- PORT_LOOP_SET. R447: A SET of PORT_LOOP selects a network port loopback. -/
  | portLoopSet (who : Role) (p : Nat) (v : Val)
  /-- HEARTH_LOOP_SET. R448: A SET of HEARTH_LOOP feeds WCLK_OUT back as a word clock candidate. -/
  | hearthLoopSet (who : Role) (v : Val)
  /-- DW_TEST_SET. R449: A SET of DW_TEST runs a room's program on its core and a guest for a self-compare. -/
  | dwTestSet (who : Role) (v : Val)
  /-- DW_TEST_DONE. R449: A dumbwaiter self-compare ends by mismatch, timeout or completion. -/
  | dwTestDone (timeout : Bool)
  /-- DDR_TEST_START. R451: DDR_TEST 1 starts the LPDDR4X March test. -/
  | ddrTestStart (who : Role) (v : Val)
  /-- DDR_TEST_ABORT. R451: DDR_TEST 2 aborts the LPDDR4X test. -/
  | ddrTestAbort (who : Role) (v : Val)
  /-- DDR_TEST_DONE. R451: The LPDDR4X test completes and reports its result. -/
  | ddrTestDone (errors : Nat) (addr : Nat) (dq : Nat)
  /-- HALL_TEST_SET. R452: A SET of HALL_TEST starts testing a range of tiles. -/
  | hallTestSet (who : Role) (v : Val)
  /-- HALL_TEST_DONE. R453: The Hall tile test ends and event 0xE001 is posted. -/
  | hallTestDone
  /-- PPS_OUT_SECOND. R120: The source view reaches a whole second and PPS_OUT asserts for WIDTH x 8 ns. -/
  | ppsOutSecond
  /-- PPS_OUT_PULSE_END. R120: WIDTH x 8 ns after its assertion, PPS_OUT returns inactive. -/
  | ppsOutPulseEnd
  /-- PTP_QUALIFICATION_TIMEOUT. R75: The qualification timeout of a port in PRE_MASTER expires and the port enters MASTER under IEEE 1588-2019 clause 9.2. -/
  | ptpQualificationTimeout (p : Nat)
  /-- AUTH_FAIL_WINDOW_END. R401: The one-second window of event 0xD002 ends and, if failures were counted, one event carries their number. -/
  | authFailWindowEnd
  /-- HP_BAD_OPCODE. R406: A host-port transaction with an opcode, flag, ARG or DLEN not allowed is answered BAD (or CRC) and does nothing. -/
  | hpBadOpcode (op : Nat) (flags : Nat) (arg : Nat) (data : List Byte) (crc : Nat)
  /-- HALL_TEST_TILE_DONE. R452: With the Hall's domain not running, the test of one tile completes and the next tile's test starts back to back. -/
  | hallTestTileDone (fail : Bool)
  /-- VDD_PLL_UP. R429: VDD_PLL reaches 90 % of nominal and the device begins driving VID code 30 while RESET_N is still low. -/
  | vddPllUp
deriving DecidableEq, Repr

end Sys2Proof
end

