-- ==== Sys2Proof/WellFormed.lean ====
section
/-! DEFINITION. Which terms of Instr name a command of the device: its units exist (R1, R6 to R8) and its operands fit the
encodings that carry them. A request (a row that sets or reads an entry) may name any key and any value: the device answers it
(R9, R368), so every such term is well formed. -/

namespace Sys2Proof

/-- The address of a sender fits its encoding: one of the three ports, IPv4, UDP, MAC (R371). -/
def Sender.wf : Sender → Bool
  | .host => true
  | .net p ip udp mac => decide (p < 3 ∧ ip < 2 ^ 32 ∧ udp < 2 ^ 16 ∧ mac < 2 ^ 48)

/-- A PTP message's fields fit its encoding, and its timestamp is a time of the view's range (R60, R72). -/
def PtpMsg.wf (m : PtpMsg) : Bool :=
  decide (m.kind < 16 ∧ m.domain < 256 ∧ m.src < 2 ^ 80 ∧ m.seq < 2 ^ 16 ∧ m.req < 2 ^ 80
    ∧ m.time < 2 ^ 48 * 1000000000 * 65536 ∧ -(2 ^ 63 : Int) ≤ m.corr ∧ m.corr < 2 ^ 63
    ∧ -128 ≤ m.logInt ∧ m.logInt < 128 ∧ m.ip < 2 ^ 32 ∧ m.mac < 2 ^ 48) && m.path.all (· < 2 ^ 64)

/-- Damage lies in a bank of a tile (R247, R248). -/
def HallHit.wf (h : HallHit) : Bool := decide (h.tile < 1024 ∧ h.bank < 2 ∧ h.flip < 256)

/-- What the fabric brings to a tick names units that exist (R8, R36). -/
def TickWork.wf (w : TickWork) : Bool :=
  w.fill2.all (· < 262656) && w.fill4.all (· < 262656) && w.hall.all (· < 1024) && w.asrc.all (· < 64)
    && w.lines.all (· < 1024) && w.unchecked.all (· < 18)
    && w.damage.all HallHit.wf && w.differs.all (· < 18)

/-- The command phase of a host port transaction fits its encoding (R403). -/
def hpWf (flags arg len crc : Nat) : Bool := decide (flags < 256 ∧ arg < 2 ^ 16 ∧ len < 2 ^ 32 ∧ crc < 2 ^ 32)

/-- A command is well formed. -/
def Instr.wf : Instr → Bool
  | .tickEdge d _ w => decide (d < 4) && w.wf
  | .tickDeadline d | .hmWindowEnd d => decide (d < 4)
  | .dlHoldoffEnd d cause => decide (d < 4 ∧ cause < 4)
  | .tvScheduleApply v => decide (v < 4)
  | .ptpSyncRx p m _ | .ptpDelayReqRx p m _ | .ptpPdelayReqRx p m _ | .ptpPdelayRespRx p m _ => decide (p < 3) && m.wf
  | .ptpFollowUpRx p m | .ptpDelayRespRx p m | .ptpPdelayRespFollowUpRx p m | .ptpAnnounceRx p m => decide (p < 3) && m.wf
  | .ptpSyncInterval p | .ptpAnnounceInterval p | .ptpDelayReqInterval p | .announceReceiptTimeout p
  | .syncReceiptTimeout p | .ptpQualificationTimeout p => decide (p < 3)
  | .triggerFire tt => decide (tt < 32)
  | .trigOutPulseEnd o => decide (o < 4)
  | .evtInEdge i _ _ _ => decide (i < 4)
  | .refNoSignal c | .refQualExpiry c | .refWtrExpiry c => decide (c < 10)
  | .refMonitorSecond m => m.all (fun x => decide (x.c < 10))
  | .refFastCheck m => m.all (fun x => decide (x.1 < 10))
  | .esmcPduRx p _ | .frameRx p _ => decide (p < 3)
  | .esmcTimeout p => decide (p < 2)
  | .outSlewEnd o => decide (o < 99)
  | .linkUp p => decide (p < 2)
  | .linkDown p cause => decide (p < 2 ∧ cause < 3)
  | .mInbandStatus _ speed _ => decide (speed < 4)
  | .ringDropWindowEnd p => decide (p < 3)
  | .frameTxEnd p _ => decide (p < 3)
  | .pauseExpiry p c | .pauseWdTrip p c | .pauseWdHoldEnd p c => decide (p < 3 ∧ c < 9)
  | .streamPathTimeout c path => decide (c < 256 ∧ path < 2)
  | .streamHoldExpiry _ c | .streamStateWindowEnd c => decide (c < 256)
  | .naHoldExpiry c k => decide (c < 256 ∧ k < 32)
  | .tdmFrameStart p b _ quarter _ _ _ late => decide (p < 48 ∧ b < 2 ∧ quarter < 4) && late.all (· < 64)
  | .tdmSlaveLock p b | .tdmSlaveLockLoss p b _ | .tdmLeadEnd p b | .tdmTailEnd p b => decide (p < 48 ∧ b < 2)
  | .tdmSlipWindowEnd p b kind => decide (p < 48 ∧ b < 2 ∧ kind < 4)
  | .asrcAcquireDone c _ _ | .asrcNarrow c | .asrcLock c | .asrcEdgeTimeout c _ | .asrcEventWindowEnd c => decide (c < 64)
  | .tileCopyDone t damage => decide (t < 1024) && damage.all HallHit.wf
  | .hallCsumWindowEnd t => decide (t < 1024)
  | .roomFault r | .roomLoadDeferredWrite r | .interruptEntry r | .illegalInstruction r | .snapshotPeriod r
  | .snapshotDone r | .coldRestoreDone r => decide (r < 18)
  | .nop r | .bra r | .call r | .ret r | .rti r | .dbnz r | .rep r | .swi r | .parallelMove r | .longMove r | .ldi r
  | .move r | .mpy r | .mpyn r | .mac r | .macn r | .mpyi r | .lda r | .cpa r | .add r | .sub r | .adda r | .suba r
  | .clr r | .neg r | .absAcc r | .maxAcc r | .minAcc r | .cmp r | .tst r | .sat r | .asl r | .asr r | .ash r | .ashr r | .norm r
  | .expAcc r | .expReg r | .andAcc r | .orAcc r | .xorAcc r => decide (r < 18)
  | .endBlock r _ => decide (r < 18)
  | .parityError c space addr _ => decide (c < 18 ∧ space < 3 ∧ addr < 2 ^ 16)
  | .guestWarmupDone k => decide (k < 2)
  | .voteDone r agree => decide (r < 18 ∧ agree < 3)
  | .selftestDone c _ => decide (c < 18)
  | .tempSample t => decide (t.length = 8)
  | .supplySample c _ | .supplyWindowEnd c => decide (c < 11)
  | .ddrTrainingDone step | .bootLoad step => decide (step < 8)
  | .ddrMr4Poll mr4 => decide (mr4 < 256)
  | .kdpHelloOpen src _ | .kdpHelloClose src _ | .kdpHelloKeepalive src _ | .kdpAuth src _ | .kdpGet src _
  | .kdpGetbulk src _ | .kdpSet src _ | .kdpSetbulk src _ | .kdpSetStage src _ | .kdpCommitBegin src _
  | .kdpCommitApply src _ | .kdpCommitTimedApply src _ | .kdpCommitDiscard src _ | .kdpCommitDiscardWaiting src _
  | .kdpSubscribeList src _ | .kdpSubscribeRange src _ | .kdpSubscribeRemove src _ => src.wf
  | .commitTimedApplyDue ss | .commitGroupTimeout ss => decide (ss ≤ 16)
  | .subscriptionPeriod ss _ | .sessionIdleTimeout ss | .sessionAuthTimeout ss => decide (ss ≤ 16)
  | .authLockoutEnd ip => decide (ip < 2 ^ 32)
  | .hpRequest f a d c | .hpReply f a d c | .hpNotify f a d c | .hpNotifyRelease f a d c | .hpPop f a d c
  | .hpRelease f a d c | .hpMark f a d c | .hpRewind f a d c | .hpStatus f a d c | .hpEcho f a d c =>
    hpWf f a d.length c
  | .hpBadOpcode op f a d c => decide (op < 256) && hpWf f a d.length c
  | .resetRelease straps volts => decide (straps < 4 ∧ volts.length ≤ 4)
  | .bootRecordRead (some l) => decide (l.length = 64)
  | .saveDone cause => decide (cause < 8)
  | .productionSelftestDone _ _ _ _ failed => failed.all (· < 18)
  | .ddrTestDone _ _ dq => decide (dq < 2 ^ 32)
  | .bootRecordRead none | .vidIdleLower | .vidSettleEnd | .pwrGoodChange _ | .pwrGoodLost | .pwrGoodResume
  | .manWaitExpiry | .dpllStageEnd | .histRecordSecond _ | .hoSpecExpiry | .hearthViewUpdate | .hdCollision _
  | .hdBackoffEnd | .hdCarrierIdle _ | .hallSatWindowEnd | .rotatePeriodExpiry | .recDone | .hpTransactionAbort
  | .resetAssert | .loDetect _ | .pllLock | .pllLockTimeout | .fabricInitDone | .loLost | .productionSelftestStart
  | .dwTestDone _ | .hallTestDone | .ppsOutSecond | .ppsOutPulseEnd | .authFailWindowEnd | .hallTestTileDone _
  | .vddPllUp => true
  | .sinkSourceSet _ _ _ | .toneCtrlSet _ _ _ | .toneFreqSet _ _ _ | .registerWrite _ _ _ | .rcEntryGet _ _
  | .vidModeSet _ _ | .vidFixedSet _ _ | .vidBoundsSet _ _ _ | .hmWindowSet _ _ | .tvScheduleSet _ _ _
  | .tvScheduleCancel _ _ _ | .tvSourceSet _ _ _ | .ptpPortCfgSet _ _ _ | .ptpClockIdSet _ _ _ | .ptpBcSet _ _
  | .ttCtrlSet _ _ _ | .evtCaptureGet _ _ | .evtCfgSet _ _ _ | .refCfgSet _ _ _ | .refCmdEndWtr _ _ _
  | .refCmdClearFailed _ _ _ | .selModeSet _ _ | .manualRefSet _ _ | .hearthCmdClearHistory _ _ | .mdCtrlSet _ _ _
  | .portCfgSet _ _ _ | .rxrReleaseSet _ _ _ | .txqSendSet _ _ _ _ | .streamRxEnable _ _ _ | .streamRxDisable _ _ _
  | .streamTxEnable _ _ _ | .streamTxDisable _ _ _ | .tdmSideEnable _ _ _ _ | .tdmSideDisable _ _ _ _ | .maskCommit _ _ _ _
  | .asrcEnable _ _ _ | .asrcDisable _ _ _ | .gainSet _ _ _ | .tileShadowSet _ _ _ | .tileCommit _ _ _ | .tileRevert _ _ _
  | .hallCommit _ _ | .hallCfgSet _ _ | .roomEnable _ _ _ | .roomDisable _ _ _ | .roomLoadSet _ _ _ | .roomCmdClear _ _ _
  | .roomMboxInSet _ _ _ | .roomMboxOutGet _ _ | .guestCmdRejoin _ _
  | .guestCmdSelftest _ _ | .roomGuardSet _ _ _ | .monCfgSet _ _ | .cellarPartSet _ _ | .dlyEnable _ _ _ | .dlyDisable _ _ _
  | .dlyTimeSet _ _ _ | .recModeRecord _ _ | .recModeHold _ _ | .recModeOff _ _ | .ddrEnable _ _ | .ddrDisable _ _
  | .kdpCfgSet _ _ | .keySet _ _ _ | .keyCfgSet _ _ _ | .sessionClose _ _ _ | .saveCmd _ _ | .lbFlush _ _ _ _
  | .lbCodeFilterSet _ _ _ | .loCfgSet _ _ | .tdmLoopSet _ _ _ | .portLoopSet _ _ _ | .hearthLoopSet _ _ | .dwTestSet _ _
  | .ddrTestStart _ _ | .ddrTestAbort _ _ | .hallTestSet _ _ => true

end Sys2Proof
end

