-- ==== Sys2Proof/Decode.lean ====
section
/-! DEFINITION. The command a word spells. spec/opcode_table.json gives none of its rows any bits (every row's fields are empty): the
device takes commands, not instruction words, so no word spells one. -/

namespace Sys2Proof

/-- The command that the table's bits spell: the table gives no row any bits. -/
def decodeTableWord (_nbits _w : Nat) : Option Instr := none

end Sys2Proof
end

