-- ==== Sys2Proof/Config.lean ====
section
/-! DEFINITION. What an implementation fixes and the spec leaves open: the free values. Each is opaque: nothing in Lean can
evaluate it, so a statement about it holds for every value (log entry 3). -/

namespace Sys2Proof.Config

/-- The free values, numbered by the counter State.free: random session identifiers and nonces (R375), random first
sequence numbers (R164), pink noise samples (R29) and every other value the spec leaves open. -/
opaque freeNat : Nat → Nat

/-- Which items are in the middle of assembly when a FLUSH arrives of which no command says so: CODE, and whether more than the last
word is still to come. -/
opaque assembling : Nat → List (Nat × Bool)

/-- The weight, in units of 2^-31, that a converter's filter gives an input sample at a ratio (4.28 fixed point) and a distance from the
instant of its output sample (2^-16 quarter counts): R236 binds the filter's figures and not its taps (log entry 17). -/
opaque asrcTap : Nat → Int → Int

/-- The fixed pattern that the Hall tile test writes to a shadow bank, by place (R452; log entry 3). -/
opaque hallPattern : Nat → Nat

/-- What the LPDDR4X test that runs has read wrong by a value of RC: the words, the first one's address and the lines (R451; log
entry 3). -/
opaque ddrFound : Nat → Nat × Nat × Nat

/-- The bytes of a saved image, by what it holds: R395 gives its contents and not their layout (log entry 27). -/
opaque imageBytes : List Nat → List Byte

/-- What a converter's tracking loop adds to its read position at an output edge, for a bandwidth in mHz and a delay error (2^-16
quarter counts): R233 gives the bandwidth and not the loop (log entry 17). -/
opaque asrcPull : Nat → Int → Int

end Sys2Proof.Config
end

