-- ==== Sys2Proof/Machine/Bits.lean ====
section
/-! DEFINITION. Bit fields, byte orders, two's complement and saturation, as the spec's field tables and number formats use
them (R13, R362, R363, R270). -/

namespace Sys2Proof.Machine

/-- Bits `lo` to `lo + w - 1` of `n` (R13). -/
def field (n lo w : Nat) : Nat := n / 2 ^ lo % 2 ^ w

/-- `n` with bits `lo` to `lo + w - 1` replaced by the low `w` bits of `v`. -/
def setField (n lo w v : Nat) : Nat :=
  n % 2 ^ lo + (v % 2 ^ w + n / 2 ^ (lo + w) * 2 ^ w) * 2 ^ lo

/-- Bit `i` of `n`. -/
def bit (n i : Nat) : Bool := n / 2 ^ i % 2 == 1

/-- 1 for true, 0 for false. -/
def b2n (b : Bool) : Nat := if b then 1 else 0

/-- The two's complement value of the low `w` bits of `n`. -/
def sext (w n : Nat) : Int :=
  if n % 2 ^ w < 2 ^ (w - 1) then (n % 2 ^ w : Nat) else ((n % 2 ^ w : Nat) : Int) - (2 ^ w : Nat)

/-- The `w`-bit two's complement code of `i`. -/
def ofInt (w : Nat) (i : Int) : Nat := (i % (2 ^ w : Nat)).toNat

/-- `i` limited to `lo` to `hi`. -/
def clampInt (lo hi i : Int) : Int := if i < lo then lo else if hi < i then hi else i

/-- Saturation to 32 bits two's complement, as a 32-bit code. -/
def sat32 (i : Int) : Nat := ofInt 32 (clampInt (-2147483648) 2147483647 i)

/-- The number a list of bytes spells, most significant byte first. -/
def beNat : List Byte → Nat
  | l => l.foldl (fun n b => n * 256 + b.toNat) 0

/-- `v` in `n` bytes, most significant byte first. -/
def natBe : Nat → Nat → List Byte
  | 0, _ => []
  | n + 1, v => BitVec.ofNat 8 (v / 256 ^ n) :: natBe n v

/-- The number a BLOB spells: word j is bits [32j+31:32j], each word most significant byte first (R363). -/
def blobNat : List Byte → Nat
  | a :: b :: c :: d :: r => beNat [a, b, c, d] + blobNat r * 2 ^ 32
  | l => beNat l

/-- A BLOB of `n` whole words with value `v` (R363). -/
def blobBytes : Nat → Nat → List Byte
  | 0, _ => []
  | n + 1, v => natBe 4 (v % 2 ^ 32) ++ blobBytes n (v / 2 ^ 32)

/-- The bytes of an ASCII text. -/
def ascii (s : String) : List Byte := s.toList.map (fun c => BitVec.ofNat 8 c.toNat)

/-- A list with its element `i` replaced (unchanged where there is none). -/
def listSet {α : Type} : List α → Nat → α → List α
  | [], _, _ => []
  | _ :: r, 0, v => v :: r
  | a :: r, n + 1, v => a :: listSet r n v

/-- The least `m` with `n ≤ m * d`. -/
def ceilDiv (n d : Nat) : Nat := (n + d - 1) / d

/-- The population count of the low `n` bits. -/
def popcount : Nat → Nat → Nat
  | 0, _ => 0
  | n + 1, m => m % 2 + popcount n (m / 2)

end Sys2Proof.Machine
end

