-- ==== Sys2Proof/Machine/Store.lean ====
section
/-! DEFINITION. The canonical sparse store: (key, value) pairs with strictly rising keys and no pair equal to what an unlisted
key reads as. It holds the object dictionary, the room memories, the sample memories and every table of units. -/

namespace Sys2Proof.Machine

/-- A sparse store over natural keys. -/
abbrev Sparse (α : Type) := List (Nat × α)

/-- The value at key `k`; an unlisted key reads as `d k`. -/
def Sparse.get {α : Type} (d : Nat → α) : Sparse α → Nat → α
  | [], k => d k
  | (a, v) :: r, k => if a = k then v else if k < a then d k else Sparse.get d r k

/-- The store with `v` at key `k`; writing what an unlisted key reads as removes the pair. -/
def Sparse.put {α : Type} [DecidableEq α] (d : Nat → α) : Sparse α → Nat → α → Sparse α
  | [], k, v => if v = d k then [] else [(k, v)]
  | (a, w) :: r, k, v =>
    if k < a then (if v = d k then (a, w) :: r else (k, v) :: (a, w) :: r)
    else if a = k then
      (if v = d k then r.dropWhile (fun p => decide (p.1 ≤ k)) else (k, v) :: r.dropWhile (fun p => decide (p.1 ≤ k)))
    else (a, w) :: Sparse.put d r k v

/-- The keys of `m` rise strictly, and all lie above `lo` where it is given. -/
def Sparse.sorted {α : Type} : Option Nat → Sparse α → Bool
  | _, [] => true
  | none, (a, _) :: r => Sparse.sorted (some a) r
  | some b, (a, _) :: r => decide (b < a) && Sparse.sorted (some a) r

/-- The canonical form: strictly rising keys, and no pair that says what an unlisted key reads as. -/
def Sparse.wf {α : Type} [DecidableEq α] (d : Nat → α) (m : Sparse α) : Bool :=
  Sparse.sorted none m && m.all (fun p => decide (p.2 ≠ d p.1))

/-- The listed keys from `lo` to `hi - 1`. -/
def Sparse.keysIn {α : Type} (m : Sparse α) (lo hi : Nat) : List Nat :=
  (m.map (·.1)).filter (fun k => lo ≤ k && k < hi)

/-- The place of a dictionary field: its entry's key (index × 256 + subindex), its lowest bit and its width. -/
structure Fld where
  key : Nat
  lo : Nat
  w : Nat
deriving DecidableEq, Repr

end Sys2Proof.Machine
end

