-- ==== Sys2Proof/Machine/Fields.lean ====
section
/-! DEFINITION. The place of every field of the object dictionary: key (index × 256 + subindex), lowest bit, width. The
arguments are the unit numbers that stand for the letters of the spec's index (gg, d, rr, ...). -/

namespace Sys2Proof.Machine.Reg

/-- SILICON_REV.SILICON_REV, 0x000002.01 (00 R3). -/
abbrev siliconRev : Fld := ⟨0x201, 0, 8⟩
/-- CAP_GRADE.CAP_GRADE, 0x000010.01 (00 R10). -/
abbrev capGrade : Fld := ⟨0x1001, 0, 8⟩
/-- CAP_UNITS.LPDDR4X_EN, 0x000010.02 (00 R10). -/
abbrev capUnitsLpddr4xEn : Fld := ⟨0x1002, 0, 1⟩
/-- CAP_UNITS.RATE_25G_EN, 0x000010.02 (00 R10). -/
abbrev capUnitsRate25gEn : Fld := ⟨0x1002, 1, 1⟩
/-- CAP_UNITS.PORT_A_EN, 0x000010.02 (00 R10). -/
abbrev capUnitsPortAEn : Fld := ⟨0x1002, 2, 1⟩
/-- CAP_UNITS.PORT_B_EN, 0x000010.02 (00 R10). -/
abbrev capUnitsPortBEn : Fld := ⟨0x1002, 3, 1⟩
/-- CAP_UNITS.ROOMS, 0x000010.02 (00 R10). -/
abbrev capUnitsRooms : Fld := ⟨0x1002, 8, 5⟩
/-- CAP_UNITS.ASRC_COUNT, 0x000010.02 (00 R10). -/
abbrev capUnitsAsrcCount : Fld := ⟨0x1002, 16, 7⟩
/-- CAP_UNITS.TDM_PORTS, 0x000010.02 (00 R10). -/
abbrev capUnitsTdmPorts : Fld := ⟨0x1002, 24, 6⟩
/-- CAP_TDM_MASK.PORT_EN, 0x000010.03 (00 R10). -/
abbrev capTdmMaskPortEn : Fld := ⟨0x1003, 0, 48⟩
/-- CAP_ROOM_MASK.ROOM_EN, 0x000010.04 (00 R10). -/
abbrev capRoomMaskRoomEn : Fld := ⟨0x1004, 0, 18⟩
/-- CAP_ASRC_MASK.ASRC_EN, 0x000010.05 (00 R10). -/
abbrev capAsrcMaskAsrcEn : Fld := ⟨0x1005, 0, 64⟩
/-- SINK_SOURCE.SOURCE, 0x7xxxxx.01 (01 R22). -/
abbrev sinkSourceSource (a : Nat) : Fld := ⟨0x70000001 + a * 0x100, 0, 32⟩
/-- SINK_STATUS.DOMAIN, 0x7xxxxx.02 (01 R22). -/
abbrev sinkStatusDomain (a : Nat) : Fld := ⟨0x70000002 + a * 0x100, 0, 2⟩
/-- SINK_STATUS.DOMAIN_VALID, 0x7xxxxx.02 (01 R22). -/
abbrev sinkStatusDomainValid (a : Nat) : Fld := ⟨0x70000002 + a * 0x100, 2, 1⟩
/-- SINK_STATUS.COPYING, 0x7xxxxx.02 (01 R22). -/
abbrev sinkStatusCopying (a : Nat) : Fld := ⟨0x70000002 + a * 0x100, 3, 1⟩
/-- TONE_CTRL.MODE, 0x75000g.01 (01 R28). -/
abbrev toneCtrlMode (a : Nat) : Fld := ⟨0x75000001 + a * 0x100, 0, 2⟩
/-- TONE_CTRL.DOMAIN_VALID, 0x75000g.01 (01 R28). -/
abbrev toneCtrlDomainValid (a : Nat) : Fld := ⟨0x75000001 + a * 0x100, 2, 1⟩
/-- TONE_CTRL.DOMAIN, 0x75000g.01 (01 R28). -/
abbrev toneCtrlDomain (a : Nat) : Fld := ⟨0x75000001 + a * 0x100, 3, 2⟩
/-- TONE_FREQ.FREQ, 0x75000g.02 (01 R28). -/
abbrev toneFreqFreq (a : Nat) : Fld := ⟨0x75000002 + a * 0x100, 0, 24⟩
/-- TONE_LEVEL.LEVEL, 0x75000g.03 (01 R28). -/
abbrev toneLevelLevel (a : Nat) : Fld := ⟨0x75000003 + a * 0x100, 0, 24⟩
/-- TICK_COUNT.TICK_COUNT, 0x7F000d.01 (01 R39). -/
abbrev tickCount (a : Nat) : Fld := ⟨0x7F000001 + a * 0x100, 0, 64⟩
/-- DL_MISS.DL_MISS, 0x7F000d.02 (01 R39). -/
abbrev dlMiss (a : Nat) : Fld := ⟨0x7F000002 + a * 0x100, 0, 32⟩
/-- DL_LAST.DL_LAST, 0x7F000d.03 (01 R39). -/
abbrev dlLast (a : Nat) : Fld := ⟨0x7F000003 + a * 0x100, 0, 64⟩
/-- DL_HOLDOFF.DL_HOLDOFF, 0x7F000d.04 (01 R39). -/
abbrev dlHoldoff (a : Nat) : Fld := ⟨0x7F000004 + a * 0x100, 0, 16⟩
/-- ROOM_LATE.ROOM_LATE, 0x7F000d.05 (01 R39). -/
abbrev roomLate (a : Nat) : Fld := ⟨0x7F000005 + a * 0x100, 0, 32⟩
/-- DOMAIN_RUN.RUNNING, 0x7F000d.06 (01 R39). -/
abbrev domainRunRunning (a : Nat) : Fld := ⟨0x7F000006 + a * 0x100, 0, 1⟩
/-- DOMAIN_HM_RESULT.MIN_SLACK, 0xB2000d.01 (02 R46). -/
abbrev domainHmResultMinSlack (a : Nat) : Fld := ⟨0xB2000001 + a * 0x100, 0, 24⟩
/-- DOMAIN_HM_RESULT.MEAN_SLACK, 0xB2000d.01 (02 R46). -/
abbrev domainHmResultMeanSlack (a : Nat) : Fld := ⟨0xB2000001 + a * 0x100, 24, 24⟩
/-- DOMAIN_HM_RESULT.LATE, 0xB2000d.01 (02 R46). -/
abbrev domainHmResultLate (a : Nat) : Fld := ⟨0xB2000001 + a * 0x100, 48, 8⟩
/-- DOMAIN_HM_RESULT.WINDOW_SEQ, 0xB2000d.01 (02 R46). -/
abbrev domainHmResultWindowSeq (a : Nat) : Fld := ⟨0xB2000001 + a * 0x100, 56, 8⟩
/-- ROOM_HM_RESULT.MIN_SLACK, 0xB200rr.01 (02 R46). -/
abbrev roomHmResultMinSlack (a : Nat) : Fld := ⟨0xB2001001 + a * 0x100, 0, 24⟩
/-- ROOM_HM_RESULT.MEAN_SLACK, 0xB200rr.01 (02 R46). -/
abbrev roomHmResultMeanSlack (a : Nat) : Fld := ⟨0xB2001001 + a * 0x100, 24, 24⟩
/-- ROOM_HM_RESULT.LATE, 0xB200rr.01 (02 R46). -/
abbrev roomHmResultLate (a : Nat) : Fld := ⟨0xB2001001 + a * 0x100, 48, 8⟩
/-- ROOM_HM_RESULT.WINDOW_SEQ, 0xB200rr.01 (02 R46). -/
abbrev roomHmResultWindowSeq (a : Nat) : Fld := ⟨0xB2001001 + a * 0x100, 56, 8⟩
/-- HM_WINDOW.HM_WINDOW, 0xB20030.01 (02 R46). -/
abbrev hmWindow : Fld := ⟨0xB2003001, 0, 5⟩
/-- VID_MODE.VID_MODE, 0xB30000.01 (02 R54). -/
abbrev vidMode : Fld := ⟨0xB3000001, 0, 8⟩
/-- VID_FIXED.CODE, 0xB30000.02 (02 R54). -/
abbrev vidFixedCode : Fld := ⟨0xB3000002, 0, 6⟩
/-- VID_FLOOR.CODE, 0xB30000.03 (02 R54). -/
abbrev vidFloorCode : Fld := ⟨0xB3000003, 0, 6⟩
/-- VID_CEIL.CODE, 0xB30000.04 (02 R54). -/
abbrev vidCeilCode : Fld := ⟨0xB3000004, 0, 6⟩
/-- SLACK_TARGET.SLACK_LO, 0xB30000.05 (02 R54). -/
abbrev slackTargetSlackLo : Fld := ⟨0xB3000005, 0, 8⟩
/-- SLACK_TARGET.SLACK_HI, 0xB30000.05 (02 R54). -/
abbrev slackTargetSlackHi : Fld := ⟨0xB3000005, 8, 8⟩
/-- SLACK_TARGET.DOWN_WINDOWS, 0xB30000.05 (02 R54). -/
abbrev slackTargetDownWindows : Fld := ⟨0xB3000005, 16, 4⟩
/-- VID_SETTLE.VID_SETTLE, 0xB30000.06 (02 R54). -/
abbrev vidSettle : Fld := ⟨0xB3000006, 0, 16⟩
/-- VID_STATUS.CODE_NOW, 0xB30000.07 (02 R54). -/
abbrev vidStatusCodeNow : Fld := ⟨0xB3000007, 0, 6⟩
/-- VID_STATUS.AT_CEIL, 0xB30000.07 (02 R54). -/
abbrev vidStatusAtCeil : Fld := ⟨0xB3000007, 6, 1⟩
/-- VID_STATUS.THERMAL_CLAMP, 0xB30000.07 (02 R54). -/
abbrev vidStatusThermalClamp : Fld := ⟨0xB3000007, 7, 1⟩
/-- VID_STATUS.SETTLING, 0xB30000.07 (02 R54). -/
abbrev vidStatusSettling : Fld := ⟨0xB3000007, 8, 1⟩
/-- VID_STATUS.PG_LOST, 0xB30000.07 (02 R54). -/
abbrev vidStatusPgLost : Fld := ⟨0xB3000007, 9, 1⟩
/-- VID_MOVES.VID_MOVES, 0xB30000.08 (02 R54). -/
abbrev vidMoves : Fld := ⟨0xB3000008, 0, 32⟩
/-- RC_NOW.RC, 0x200000.01 (03 R58). -/
abbrev rcNowRc : Fld := ⟨0x20000001, 0, 64⟩
/-- LO_FREQ.LO_FREQ, 0x200000.02 (03 R58). -/
abbrev loFreq : Fld := ⟨0x20000002, 0, 8⟩
/-- TV_NOW.T, 0x21000v.01 (03 R67). -/
abbrev tvNowT (a : Nat) : Fld := ⟨0x21000001 + a * 0x100, 0, 96⟩
/-- TV_SNAP.T, 0x21000v.02 (03 R67). -/
abbrev tvSnapT (a : Nat) : Fld := ⟨0x21000002 + a * 0x100, 0, 96⟩
/-- TV_SNAP.RC, 0x21000v.02 (03 R67). -/
abbrev tvSnapRc (a : Nat) : Fld := ⟨0x21000002 + a * 0x100, 96, 64⟩
/-- TV_OFFSET.OFFSET, 0x21000v.03 (03 R67). -/
abbrev tvOffsetOffset (a : Nat) : Fld := ⟨0x21000003 + a * 0x100, 0, 96⟩
/-- TV_RATE.RATE, 0x21000v.04 (03 R67). -/
abbrev tvRateRate (a : Nat) : Fld := ⟨0x21000004 + a * 0x100, 0, 48⟩
/-- TV_SOURCE.TV_SOURCE, 0x21000v.05 (03 R67). -/
abbrev tvSource (a : Nat) : Fld := ⟨0x21000005 + a * 0x100, 0, 8⟩
/-- TV_SCHEDULE.RC_APPLY, 0x21000v.06 (03 R67). -/
abbrev tvScheduleRcApply (a : Nat) : Fld := ⟨0x21000006 + a * 0x100, 0, 64⟩
/-- TV_SCHEDULE.RATE_NEW, 0x21000v.06 (03 R67). -/
abbrev tvScheduleRateNew (a : Nat) : Fld := ⟨0x21000006 + a * 0x100, 64, 48⟩
/-- TV_SCHEDULE.RATE_VALID, 0x21000v.06 (03 R67). -/
abbrev tvScheduleRateValid (a : Nat) : Fld := ⟨0x21000006 + a * 0x100, 112, 1⟩
/-- TV_SCHEDULE.STEP_VALID, 0x21000v.06 (03 R67). -/
abbrev tvScheduleStepValid (a : Nat) : Fld := ⟨0x21000006 + a * 0x100, 113, 1⟩
/-- TV_SCHEDULE.ASAP, 0x21000v.06 (03 R67). -/
abbrev tvScheduleAsap (a : Nat) : Fld := ⟨0x21000006 + a * 0x100, 114, 1⟩
/-- TV_SCHEDULE.STEP, 0x21000v.06 (03 R67). -/
abbrev tvScheduleStep (a : Nat) : Fld := ⟨0x21000006 + a * 0x100, 128, 96⟩
/-- TV_STATUS.PENDING, 0x21000v.07 (03 R67). -/
abbrev tvStatusPending (a : Nat) : Fld := ⟨0x21000007 + a * 0x100, 0, 1⟩
/-- TV_STATUS.FREE_RUN, 0x21000v.07 (03 R67). -/
abbrev tvStatusFreeRun (a : Nat) : Fld := ⟨0x21000007 + a * 0x100, 1, 1⟩
/-- TV_STATUS.APPLIED_LATE, 0x21000v.07 (03 R67). -/
abbrev tvStatusAppliedLate (a : Nat) : Fld := ⟨0x21000007 + a * 0x100, 2, 1⟩
/-- TV_LAST_APPLY.A, 0x21000v.08 (03 R67). -/
abbrev tvLastApplyA (a : Nat) : Fld := ⟨0x21000008 + a * 0x100, 0, 64⟩
/-- PTP_PORT_CFG.ENABLE, 0x22000p.01 (03 R81). -/
abbrev ptpPortCfgEnable (a : Nat) : Fld := ⟨0x22000001 + a * 0x100, 0, 1⟩
/-- PTP_PORT_CFG.PROFILE, 0x22000p.01 (03 R81). -/
abbrev ptpPortCfgProfile (a : Nat) : Fld := ⟨0x22000001 + a * 0x100, 1, 3⟩
/-- PTP_PORT_CFG.DOMAIN, 0x22000p.01 (03 R81). -/
abbrev ptpPortCfgDomain (a : Nat) : Fld := ⟨0x22000001 + a * 0x100, 4, 8⟩
/-- PTP_PORT_CFG.SLAVE_ONLY, 0x22000p.01 (03 R81). -/
abbrev ptpPortCfgSlaveOnly (a : Nat) : Fld := ⟨0x22000001 + a * 0x100, 12, 1⟩
/-- PTP_PORT_CFG.MASTER_ONLY, 0x22000p.01 (03 R81). -/
abbrev ptpPortCfgMasterOnly (a : Nat) : Fld := ⟨0x22000001 + a * 0x100, 13, 1⟩
/-- PTP_PORT_CFG.TWO_STEP, 0x22000p.01 (03 R81). -/
abbrev ptpPortCfgTwoStep (a : Nat) : Fld := ⟨0x22000001 + a * 0x100, 14, 1⟩
/-- PTP_PORT_CFG.HYBRID, 0x22000p.01 (03 R81). -/
abbrev ptpPortCfgHybrid (a : Nat) : Fld := ⟨0x22000001 + a * 0x100, 15, 1⟩
/-- PTP_PORT_CFG.LOG_ANNOUNCE, 0x22000p.01 (03 R81). -/
abbrev ptpPortCfgLogAnnounce (a : Nat) : Fld := ⟨0x22000001 + a * 0x100, 16, 4⟩
/-- PTP_PORT_CFG.LOG_SYNC, 0x22000p.01 (03 R81). -/
abbrev ptpPortCfgLogSync (a : Nat) : Fld := ⟨0x22000001 + a * 0x100, 20, 4⟩
/-- PTP_PORT_CFG.LOG_DELAY_REQ, 0x22000p.01 (03 R81). -/
abbrev ptpPortCfgLogDelayReq (a : Nat) : Fld := ⟨0x22000001 + a * 0x100, 24, 4⟩
/-- PTP_PORT_CFG.ANNOUNCE_TIMEOUT, 0x22000p.01 (03 R81). -/
abbrev ptpPortCfgAnnounceTimeout (a : Nat) : Fld := ⟨0x22000001 + a * 0x100, 28, 4⟩
/-- PTP_PORT_CFG.PRIORITY1, 0x22000p.01 (03 R81). -/
abbrev ptpPortCfgPriority1 (a : Nat) : Fld := ⟨0x22000001 + a * 0x100, 32, 8⟩
/-- PTP_PORT_CFG.PRIORITY2, 0x22000p.01 (03 R81). -/
abbrev ptpPortCfgPriority2 (a : Nat) : Fld := ⟨0x22000001 + a * 0x100, 40, 8⟩
/-- PTP_PORT_CFG.VIEW, 0x22000p.01 (03 R81). -/
abbrev ptpPortCfgView (a : Nat) : Fld := ⟨0x22000001 + a * 0x100, 48, 2⟩
/-- PTP_EXT_DELAY.TX_EXT, 0x22000p.02 (03 R81). -/
abbrev ptpExtDelayTxExt (a : Nat) : Fld := ⟨0x22000002 + a * 0x100, 0, 32⟩
/-- PTP_EXT_DELAY.RX_EXT, 0x22000p.02 (03 R81). -/
abbrev ptpExtDelayRxExt (a : Nat) : Fld := ⟨0x22000002 + a * 0x100, 32, 32⟩
/-- PTP_SERVO_CFG.BW, 0x22000p.03 (03 R81). -/
abbrev ptpServoCfgBw (a : Nat) : Fld := ⟨0x22000003 + a * 0x100, 0, 16⟩
/-- PTP_SERVO_CFG.DAMPING, 0x22000p.03 (03 R81). -/
abbrev ptpServoCfgDamping (a : Nat) : Fld := ⟨0x22000003 + a * 0x100, 16, 12⟩
/-- PTP_SERVO_CFG.STEP_MODE, 0x22000p.03 (03 R81). -/
abbrev ptpServoCfgStepMode (a : Nat) : Fld := ⟨0x22000003 + a * 0x100, 28, 2⟩
/-- PTP_SERVO_CFG.STEP_THRESH, 0x22000p.03 (03 R81). -/
abbrev ptpServoCfgStepThresh (a : Nat) : Fld := ⟨0x22000003 + a * 0x100, 32, 16⟩
/-- PTP_SERVO_CFG.MAX_PPM, 0x22000p.03 (03 R81). -/
abbrev ptpServoCfgMaxPpm (a : Nat) : Fld := ⟨0x22000003 + a * 0x100, 48, 10⟩
/-- PTP_SERVO_CFG.DELAY_AVG, 0x22000p.03 (03 R81). -/
abbrev ptpServoCfgDelayAvg (a : Nat) : Fld := ⟨0x22000003 + a * 0x100, 58, 3⟩
/-- PTP_PORT_STATUS.PORT_STATE, 0x22000p.04 (03 R81). -/
abbrev ptpPortStatusPortState (a : Nat) : Fld := ⟨0x22000004 + a * 0x100, 0, 4⟩
/-- PTP_PORT_STATUS.SERVO_STATE, 0x22000p.04 (03 R81). -/
abbrev ptpPortStatusServoState (a : Nat) : Fld := ⟨0x22000004 + a * 0x100, 4, 3⟩
/-- PTP_PORT_STATUS.AS_CAPABLE, 0x22000p.04 (03 R81). -/
abbrev ptpPortStatusAsCapable (a : Nat) : Fld := ⟨0x22000004 + a * 0x100, 7, 1⟩
/-- PTP_PORT_STATUS.BW_CLAMPED, 0x22000p.04 (03 R81). -/
abbrev ptpPortStatusBwClamped (a : Nat) : Fld := ⟨0x22000004 + a * 0x100, 8, 1⟩
/-- PTP_OFFSET.THETA, 0x22000p.05 (03 R81). -/
abbrev ptpOffsetTheta (a : Nat) : Fld := ⟨0x22000005 + a * 0x100, 0, 32⟩
/-- PTP_PATH_DELAY.MPD, 0x22000p.06 (03 R81). -/
abbrev ptpPathDelayMpd (a : Nat) : Fld := ⟨0x22000006 + a * 0x100, 0, 32⟩
/-- PTP_PARENT.GM_IDENTITY, 0x22000p.07 (03 R81). -/
abbrev ptpParentGmIdentity (a : Nat) : Fld := ⟨0x22000007 + a * 0x100, 0, 64⟩
/-- PTP_PARENT.GM_PRIORITY1, 0x22000p.07 (03 R81). -/
abbrev ptpParentGmPriority1 (a : Nat) : Fld := ⟨0x22000007 + a * 0x100, 64, 8⟩
/-- PTP_PARENT.GM_CLASS, 0x22000p.07 (03 R81). -/
abbrev ptpParentGmClass (a : Nat) : Fld := ⟨0x22000007 + a * 0x100, 72, 8⟩
/-- PTP_PARENT.GM_ACCURACY, 0x22000p.07 (03 R81). -/
abbrev ptpParentGmAccuracy (a : Nat) : Fld := ⟨0x22000007 + a * 0x100, 80, 8⟩
/-- PTP_PARENT.GM_VARIANCE, 0x22000p.07 (03 R81). -/
abbrev ptpParentGmVariance (a : Nat) : Fld := ⟨0x22000007 + a * 0x100, 88, 16⟩
/-- PTP_PARENT.GM_PRIORITY2, 0x22000p.07 (03 R81). -/
abbrev ptpParentGmPriority2 (a : Nat) : Fld := ⟨0x22000007 + a * 0x100, 104, 8⟩
/-- PTP_PARENT.STEPS_REMOVED, 0x22000p.07 (03 R81). -/
abbrev ptpParentStepsRemoved (a : Nat) : Fld := ⟨0x22000007 + a * 0x100, 112, 16⟩
/-- PTP_PARENT.UTC_OFFSET, 0x22000p.07 (03 R81). -/
abbrev ptpParentUtcOffset (a : Nat) : Fld := ⟨0x22000007 + a * 0x100, 128, 16⟩
/-- PTP_PARENT.FLAGS, 0x22000p.07 (03 R81). -/
abbrev ptpParentFlags (a : Nat) : Fld := ⟨0x22000007 + a * 0x100, 144, 8⟩
/-- PTP_PARENT.TIME_SOURCE, 0x22000p.07 (03 R81). -/
abbrev ptpParentTimeSource (a : Nat) : Fld := ⟨0x22000007 + a * 0x100, 152, 8⟩
/-- PTP_PARENT.PARENT_PORT, 0x22000p.07 (03 R81). -/
abbrev ptpParentParentPort (a : Nat) : Fld := ⟨0x22000007 + a * 0x100, 160, 80⟩
/-- PTP_LOCAL_QUALITY.CLASS, 0x22000p.08 (03 R81). -/
abbrev ptpLocalQualityClass (a : Nat) : Fld := ⟨0x22000008 + a * 0x100, 0, 8⟩
/-- PTP_LOCAL_QUALITY.ACCURACY, 0x22000p.08 (03 R81). -/
abbrev ptpLocalQualityAccuracy (a : Nat) : Fld := ⟨0x22000008 + a * 0x100, 8, 8⟩
/-- PTP_LOCAL_QUALITY.VARIANCE, 0x22000p.08 (03 R81). -/
abbrev ptpLocalQualityVariance (a : Nat) : Fld := ⟨0x22000008 + a * 0x100, 16, 16⟩
/-- PTP_LOCAL_QUALITY.TIME_SOURCE, 0x22000p.08 (03 R81). -/
abbrev ptpLocalQualityTimeSource (a : Nat) : Fld := ⟨0x22000008 + a * 0x100, 32, 8⟩
/-- PTP_LOCAL_QUALITY.UTC_OFFSET, 0x22000p.08 (03 R81). -/
abbrev ptpLocalQualityUtcOffset (a : Nat) : Fld := ⟨0x22000008 + a * 0x100, 40, 16⟩
/-- PTP_LOCAL_QUALITY.FLAGS, 0x22000p.08 (03 R81). -/
abbrev ptpLocalQualityFlags (a : Nat) : Fld := ⟨0x22000008 + a * 0x100, 56, 6⟩
/-- PTP_CLOCK_ID.CLOCK_ID, 0x22000p.09 (03 R81). -/
abbrev ptpClockIdClockId (a : Nat) : Fld := ⟨0x22000009 + a * 0x100, 0, 64⟩
/-- PTP_BC.BC_ENABLE, 0x230000.01 (03 R81). -/
abbrev ptpBcBcEnable : Fld := ⟨0x23000001, 0, 1⟩
/-- TT_CTRL.ARM, 0x2400tt.01 (03 R86). -/
abbrev ttCtrlArm (a : Nat) : Fld := ⟨0x24000001 + a * 0x100, 0, 1⟩
/-- TT_CTRL.VIEW, 0x2400tt.01 (03 R86). -/
abbrev ttCtrlView (a : Nat) : Fld := ⟨0x24000001 + a * 0x100, 1, 2⟩
/-- TT_CTRL.ACTION, 0x2400tt.01 (03 R86). -/
abbrev ttCtrlAction (a : Nat) : Fld := ⟨0x24000001 + a * 0x100, 3, 5⟩
/-- TT_CTRL.TARGET, 0x2400tt.01 (03 R86). -/
abbrev ttCtrlTarget (a : Nat) : Fld := ⟨0x24000001 + a * 0x100, 8, 16⟩
/-- TT_TARGET.T, 0x2400tt.02 (03 R86). -/
abbrev ttTargetT (a : Nat) : Fld := ⟨0x24000002 + a * 0x100, 0, 96⟩
/-- TT_PERIOD.PERIOD, 0x2400tt.03 (03 R86). -/
abbrev ttPeriodPeriod (a : Nat) : Fld := ⟨0x24000003 + a * 0x100, 0, 64⟩
/-- TT_STATUS.ARMED, 0x2400tt.04 (03 R86). -/
abbrev ttStatusArmed (a : Nat) : Fld := ⟨0x24000004 + a * 0x100, 0, 1⟩
/-- TT_STATUS.LATE, 0x2400tt.04 (03 R86). -/
abbrev ttStatusLate (a : Nat) : Fld := ⟨0x24000004 + a * 0x100, 1, 1⟩
/-- TT_STATUS.MISSED, 0x2400tt.04 (03 R86). -/
abbrev ttStatusMissed (a : Nat) : Fld := ⟨0x24000004 + a * 0x100, 16, 16⟩
/-- TT_LAST.RC, 0x2400tt.05 (03 R86). -/
abbrev ttLastRc (a : Nat) : Fld := ⟨0x24000005 + a * 0x100, 0, 64⟩
/-- TRIG_OUT_CFG.MODE, 0x2600oo.01 (03 R87). -/
abbrev trigOutCfgMode (a : Nat) : Fld := ⟨0x26000001 + a * 0x100, 0, 2⟩
/-- TRIG_OUT_CFG.POLARITY, 0x2600oo.01 (03 R87). -/
abbrev trigOutCfgPolarity (a : Nat) : Fld := ⟨0x26000001 + a * 0x100, 2, 1⟩
/-- TRIG_OUT_CFG.WIDTH, 0x2600oo.01 (03 R87). -/
abbrev trigOutCfgWidth (a : Nat) : Fld := ⟨0x26000001 + a * 0x100, 8, 24⟩
/-- EVT_CFG.EDGE, 0x2500ii.01 (03 R89). -/
abbrev evtCfgEdge (a : Nat) : Fld := ⟨0x25000001 + a * 0x100, 0, 2⟩
/-- EVT_CFG.VIEW, 0x2500ii.01 (03 R89). -/
abbrev evtCfgView (a : Nat) : Fld := ⟨0x25000001 + a * 0x100, 2, 2⟩
/-- EVT_CFG.POST, 0x2500ii.01 (03 R89). -/
abbrev evtCfgPost (a : Nat) : Fld := ⟨0x25000001 + a * 0x100, 4, 1⟩
/-- EVT_CFG.PRIORITY, 0x2500ii.01 (03 R89). -/
abbrev evtCfgPriority (a : Nat) : Fld := ⟨0x25000001 + a * 0x100, 5, 3⟩
/-- EVT_CFG.MISSED, 0x2500ii.01 (03 R89). -/
abbrev evtCfgMissed (a : Nat) : Fld := ⟨0x25000001 + a * 0x100, 16, 16⟩
/-- EVT_CAPTURE.T, 0x2500ii.02 (03 R89). -/
abbrev evtCaptureT (a : Nat) : Fld := ⟨0x25000002 + a * 0x100, 0, 96⟩
/-- EVT_CAPTURE.RC_QUARTER, 0x2500ii.02 (03 R89). -/
abbrev evtCaptureRcQuarter (a : Nat) : Fld := ⟨0x25000002 + a * 0x100, 96, 66⟩
/-- EVT_CAPTURE.RISING, 0x2500ii.02 (03 R89). -/
abbrev evtCaptureRising (a : Nat) : Fld := ⟨0x25000002 + a * 0x100, 162, 1⟩
/-- EVT_CAPTURE.VALID, 0x2500ii.02 (03 R89). -/
abbrev evtCaptureValid (a : Nat) : Fld := ⟨0x25000002 + a * 0x100, 163, 1⟩
/-- EVT_CAPTURE.SEQ, 0x2500ii.02 (03 R89). -/
abbrev evtCaptureSeq (a : Nat) : Fld := ⟨0x25000002 + a * 0x100, 176, 8⟩
/-- REF_CFG.ENABLE, 0x1100cc.01 (04 R92). -/
abbrev refCfgEnable (a : Nat) : Fld := ⟨0x11000001 + a * 0x100, 0, 1⟩
/-- REF_CFG.PRIORITY, 0x1100cc.01 (04 R92). -/
abbrev refCfgPriority (a : Nat) : Fld := ⟨0x11000001 + a * 0x100, 1, 4⟩
/-- REF_CFG.QL_SRC, 0x1100cc.01 (04 R92). -/
abbrev refCfgQlSrc (a : Nat) : Fld := ⟨0x11000001 + a * 0x100, 5, 2⟩
/-- REF_CFG.QL_CFG, 0x1100cc.01 (04 R92). -/
abbrev refCfgQlCfg (a : Nat) : Fld := ⟨0x11000001 + a * 0x100, 7, 3⟩
/-- REF_CFG.MODE, 0x1100cc.01 (04 R92). -/
abbrev refCfgMode (a : Nat) : Fld := ⟨0x11000001 + a * 0x100, 10, 4⟩
/-- REF_CFG.SUB, 0x1100cc.01 (04 R92). -/
abbrev refCfgSub (a : Nat) : Fld := ⟨0x11000001 + a * 0x100, 14, 4⟩
/-- REF_CFG.EDGE, 0x1100cc.01 (04 R92). -/
abbrev refCfgEdge (a : Nat) : Fld := ⟨0x11000001 + a * 0x100, 18, 1⟩
/-- REF_CFG.TDM_PORT, 0x1100cc.01 (04 R92). -/
abbrev refCfgTdmPort (a : Nat) : Fld := ⟨0x11000001 + a * 0x100, 19, 6⟩
/-- REF_MON_CFG.WINDOW, 0x1100cc.02 (04 R99). -/
abbrev refMonCfgWindow (a : Nat) : Fld := ⟨0x11000002 + a * 0x100, 0, 7⟩
/-- REF_MON_CFG.SOFT, 0x1100cc.02 (04 R99). -/
abbrev refMonCfgSoft (a : Nat) : Fld := ⟨0x11000002 + a * 0x100, 7, 17⟩
/-- REF_MON_CFG.HARD, 0x1100cc.02 (04 R99). -/
abbrev refMonCfgHard (a : Nat) : Fld := ⟨0x11000002 + a * 0x100, 24, 17⟩
/-- REF_MON_CFG.QUAL_TIME, 0x1100cc.02 (04 R99). -/
abbrev refMonCfgQualTime (a : Nat) : Fld := ⟨0x11000002 + a * 0x100, 41, 6⟩
/-- REF_MON_CFG.WTR, 0x1100cc.02 (04 R99). -/
abbrev refMonCfgWtr (a : Nat) : Fld := ⟨0x11000002 + a * 0x100, 47, 10⟩
/-- REF_STATUS.STATE, 0x1100cc.03 (04 R100). -/
abbrev refStatusState (a : Nat) : Fld := ⟨0x11000003 + a * 0x100, 0, 3⟩
/-- REF_STATUS.DEGRADED, 0x1100cc.03 (04 R100). -/
abbrev refStatusDegraded (a : Nat) : Fld := ⟨0x11000003 + a * 0x100, 3, 1⟩
/-- REF_STATUS.HAS_FAILED, 0x1100cc.03 (04 R100). -/
abbrev refStatusHasFailed (a : Nat) : Fld := ⟨0x11000003 + a * 0x100, 4, 1⟩
/-- REF_STATUS.SELECTED, 0x1100cc.03 (04 R100). -/
abbrev refStatusSelected (a : Nat) : Fld := ⟨0x11000003 + a * 0x100, 5, 1⟩
/-- REF_STATUS.ELIGIBLE, 0x1100cc.03 (04 R100). -/
abbrev refStatusEligible (a : Nat) : Fld := ⟨0x11000003 + a * 0x100, 6, 1⟩
/-- REF_STATUS.RANK, 0x1100cc.03 (04 R100). -/
abbrev refStatusRank (a : Nat) : Fld := ⟨0x11000003 + a * 0x100, 7, 3⟩
/-- REF_STATUS.CAUSE, 0x1100cc.03 (04 R100). -/
abbrev refStatusCause (a : Nat) : Fld := ⟨0x11000003 + a * 0x100, 10, 4⟩
/-- REF_STATUS.QL_RAW, 0x1100cc.03 (04 R100). -/
abbrev refStatusQlRaw (a : Nat) : Fld := ⟨0x11000003 + a * 0x100, 14, 8⟩
/-- REF_STATUS.TIMER, 0x1100cc.03 (04 R100). -/
abbrev refStatusTimer (a : Nat) : Fld := ⟨0x11000003 + a * 0x100, 22, 10⟩
/-- REF_FREQ.OFFSET, 0x1100cc.04 (04 R100). -/
abbrev refFreqOffset (a : Nat) : Fld := ⟨0x11000004 + a * 0x100, 0, 32⟩
/-- REF_CMD.CMD, 0x1100cc.05 (04 R100). -/
abbrev refCmdCmd (a : Nat) : Fld := ⟨0x11000005 + a * 0x100, 0, 8⟩
/-- HEARTH_CTRL.SEL_MODE, 0x100000.01 (04 R107). -/
abbrev hearthCtrlSelMode : Fld := ⟨0x10000001, 0, 3⟩
/-- HEARTH_CTRL.QL_ENABLE, 0x100000.01 (04 R107). -/
abbrev hearthCtrlQlEnable : Fld := ⟨0x10000001, 3, 1⟩
/-- HEARTH_CTRL.MANUAL_REF, 0x100000.01 (04 R107). -/
abbrev hearthCtrlManualRef : Fld := ⟨0x10000001, 4, 4⟩
/-- HEARTH_CTRL.QL_MIN, 0x100000.01 (04 R107). -/
abbrev hearthCtrlQlMin : Fld := ⟨0x10000001, 8, 3⟩
/-- HEARTH_CTRL.MAN_WAIT, 0x100000.01 (04 R107). -/
abbrev hearthCtrlManWait : Fld := ⟨0x10000001, 12, 12⟩
/-- HEARTH_STATUS.STATE, 0x100000.02 (04 R112). -/
abbrev hearthStatusState : Fld := ⟨0x10000002, 0, 2⟩
/-- HEARTH_STATUS.SELECTED, 0x100000.02 (04 R112). -/
abbrev hearthStatusSelected : Fld := ⟨0x10000002, 2, 4⟩
/-- HEARTH_STATUS.STAGE, 0x100000.02 (04 R112). -/
abbrev hearthStatusStage : Fld := ⟨0x10000002, 6, 3⟩
/-- HEARTH_STATUS.HIST_VALID, 0x100000.02 (04 R112). -/
abbrev hearthStatusHistValid : Fld := ⟨0x10000002, 9, 1⟩
/-- HEARTH_STATUS.HO_IN_SPEC, 0x100000.02 (04 R112). -/
abbrev hearthStatusHoInSpec : Fld := ⟨0x10000002, 10, 1⟩
/-- HEARTH_STATUS.SWITCH_PENDING, 0x100000.02 (04 R112). -/
abbrev hearthStatusSwitchPending : Fld := ⟨0x10000002, 11, 1⟩
/-- HEARTH_STATUS.BW_CLAMPED, 0x100000.02 (04 R112). -/
abbrev hearthStatusBwClamped : Fld := ⟨0x10000002, 12, 1⟩
/-- HEARTH_STATUS.SSM_OUT, 0x100000.02 (04 R112). -/
abbrev hearthStatusSsmOut : Fld := ⟨0x10000002, 13, 4⟩
/-- HEARTH_STATUS.CLASS_OUT, 0x100000.02 (04 R112). -/
abbrev hearthStatusClassOut : Fld := ⟨0x10000002, 17, 8⟩
/-- DPLL_CFG.TRACK_BW, 0x100000.03 (04 R112). -/
abbrev dpllCfgTrackBw : Fld := ⟨0x10000003, 0, 14⟩
/-- DPLL_CFG.SLEW_MAX, 0x100000.03 (04 R112). -/
abbrev dpllCfgSlewMax : Fld := ⟨0x10000003, 14, 10⟩
/-- HOLDOVER_CFG.HIST_LEN, 0x100000.04 (04 R112). -/
abbrev holdoverCfgHistLen : Fld := ⟨0x10000004, 0, 12⟩
/-- HOLDOVER_CFG.GUARD, 0x100000.04 (04 R112). -/
abbrev holdoverCfgGuard : Fld := ⟨0x10000004, 12, 10⟩
/-- HOLDOVER_CFG.HO_SPEC, 0x100000.04 (04 R112). -/
abbrev holdoverCfgHoSpec : Fld := ⟨0x10000004, 22, 17⟩
/-- HOLDOVER_CFG.FREE_TRIM, 0x100000.04 (04 R112). -/
abbrev holdoverCfgFreeTrim : Fld := ⟨0x10000004, 40, 24⟩
/-- DPLL_FREQ.FREQ, 0x100000.05 (04 R112). -/
abbrev dpllFreqFreq : Fld := ⟨0x10000005, 0, 32⟩
/-- HIST_FREQ.FREQ, 0x100000.06 (04 R112). -/
abbrev histFreqFreq : Fld := ⟨0x10000006, 0, 32⟩
/-- HEARTH_CMD.CMD, 0x100000.07 (04 R112). -/
abbrev hearthCmdCmd : Fld := ⟨0x10000007, 0, 8⟩
/-- SWITCH_COUNT.SWITCHES, 0x100000.08 (04 R112). -/
abbrev switchCountSwitches : Fld := ⟨0x10000008, 0, 32⟩
/-- WCLK_OUT_CFG.MODE, 0x13000w.01 (04 R121). -/
abbrev wclkOutCfgMode (a : Nat) : Fld := ⟨0x13000001 + a * 0x100, 0, 2⟩
/-- WCLK_OUT_CFG.DOMAIN, 0x13000w.01 (04 R121). -/
abbrev wclkOutCfgDomain (a : Nat) : Fld := ⟨0x13000001 + a * 0x100, 2, 2⟩
/-- PPS_OUT_CFG.ENABLE, 0x130002.01 (04 R121). -/
abbrev ppsOutCfgEnable : Fld := ⟨0x13000201, 0, 1⟩
/-- PPS_OUT_CFG.VIEW, 0x130002.01 (04 R121). -/
abbrev ppsOutCfgView : Fld := ⟨0x13000201, 1, 2⟩
/-- PPS_OUT_CFG.POLARITY, 0x130002.01 (04 R121). -/
abbrev ppsOutCfgPolarity : Fld := ⟨0x13000201, 3, 1⟩
/-- PPS_OUT_CFG.WIDTH, 0x130002.01 (04 R121). -/
abbrev ppsOutCfgWidth : Fld := ⟨0x13000201, 4, 26⟩
/-- SYNCE_OUT_CFG.FREQ, 0x130003.01 (04 R121). -/
abbrev synceOutCfgFreq : Fld := ⟨0x13000301, 0, 2⟩
/-- OUT_SLEW_STATUS.WCLK0, 0x130004.01 (04 R121). -/
abbrev outSlewStatusWclk0 : Fld := ⟨0x13000401, 0, 1⟩
/-- OUT_SLEW_STATUS.WCLK1, 0x130004.01 (04 R121). -/
abbrev outSlewStatusWclk1 : Fld := ⟨0x13000401, 1, 1⟩
/-- OUT_SLEW_STATUS.PPS, 0x130004.01 (04 R121). -/
abbrev outSlewStatusPps : Fld := ⟨0x13000401, 2, 1⟩
/-- OUT_SLEW_STATUS.TDM, 0x130004.01 (04 R121). -/
abbrev outSlewStatusTdm : Fld := ⟨0x13000401, 3, 1⟩
/-- MD_CTRL.ENABLE, 0x1200dd.01 (04 R122). -/
abbrev mdCtrlEnable (a : Nat) : Fld := ⟨0x12000001 + a * 0x100, 0, 1⟩
/-- MD_CTRL.RATE, 0x1200dd.01 (04 R122). -/
abbrev mdCtrlRate (a : Nat) : Fld := ⟨0x12000001 + a * 0x100, 1, 3⟩
/-- PORT_CFG.ENABLE, 0x30p000.01 (05 R128). -/
abbrev portCfgEnable (a : Nat) : Fld := ⟨0x30000001 + a * 0x100000, 0, 1⟩
/-- PORT_CFG.RATE, 0x30p000.01 (05 R128). -/
abbrev portCfgRate (a : Nat) : Fld := ⟨0x30000001 + a * 0x100000, 1, 1⟩
/-- PORT_CFG.FEC, 0x30p000.01 (05 R128). -/
abbrev portCfgFec (a : Nat) : Fld := ⟨0x30000001 + a * 0x100000, 2, 2⟩
/-- PORT_CFG.TX_POL, 0x30p000.01 (05 R128). -/
abbrev portCfgTxPol (a : Nat) : Fld := ⟨0x30000001 + a * 0x100000, 4, 1⟩
/-- PORT_CFG.RX_POL, 0x30p000.01 (05 R128). -/
abbrev portCfgRxPol (a : Nat) : Fld := ⟨0x30000001 + a * 0x100000, 5, 1⟩
/-- PORT_SERDES_TX.PRE, 0x30p000.02 (05 R128). -/
abbrev portSerdesTxPre (a : Nat) : Fld := ⟨0x30000002 + a * 0x100000, 0, 5⟩
/-- PORT_SERDES_TX.POST, 0x30p000.02 (05 R128). -/
abbrev portSerdesTxPost (a : Nat) : Fld := ⟨0x30000002 + a * 0x100000, 5, 5⟩
/-- PORT_SERDES_TX.SWING, 0x30p000.02 (05 R128). -/
abbrev portSerdesTxSwing (a : Nat) : Fld := ⟨0x30000002 + a * 0x100000, 10, 6⟩
/-- PORT_STATUS.LINK, 0x30p000.03 (05 R128). -/
abbrev portStatusLink (a : Nat) : Fld := ⟨0x30000003 + a * 0x100000, 0, 1⟩
/-- PORT_STATUS.SPEED, 0x30p000.03 (05 R128). -/
abbrev portStatusSpeed (a : Nat) : Fld := ⟨0x30000003 + a * 0x100000, 1, 2⟩
/-- PORT_STATUS.FULL_DUPLEX, 0x30p000.03 (05 R128). -/
abbrev portStatusFullDuplex (a : Nat) : Fld := ⟨0x30000003 + a * 0x100000, 3, 1⟩
/-- PORT_STATUS.BLOCK_LOCK, 0x30p000.03 (05 R128). -/
abbrev portStatusBlockLock (a : Nat) : Fld := ⟨0x30000003 + a * 0x100000, 4, 1⟩
/-- PORT_STATUS.HI_BER, 0x30p000.03 (05 R128). -/
abbrev portStatusHiBer (a : Nat) : Fld := ⟨0x30000003 + a * 0x100000, 5, 1⟩
/-- PORT_STATUS.AM_LOCK, 0x30p000.03 (05 R128). -/
abbrev portStatusAmLock (a : Nat) : Fld := ⟨0x30000003 + a * 0x100000, 6, 1⟩
/-- PORT_STATUS.PAUSED, 0x30p000.03 (05 R128). -/
abbrev portStatusPaused (a : Nat) : Fld := ⟨0x30000003 + a * 0x100000, 7, 1⟩
/-- PORT_STATUS.WD_ACTIVE, 0x30p000.03 (05 R128). -/
abbrev portStatusWdActive (a : Nat) : Fld := ⟨0x30000003 + a * 0x100000, 8, 1⟩
/-- PORT_MAC.MAC, 0x30p000.04 (05 R130). -/
abbrev portMacMac (a : Nat) : Fld := ⟨0x30000004 + a * 0x100000, 0, 48⟩
/-- PORT_IPV4.ADDR, 0x30p000.05 (05 R130). -/
abbrev portIpv4Addr (a : Nat) : Fld := ⟨0x30000005 + a * 0x100000, 0, 32⟩
/-- FRAME_CFG.VLAN_AWARE, 0x30p000.06 (05 R134). -/
abbrev frameCfgVlanAware (a : Nat) : Fld := ⟨0x30000006 + a * 0x100000, 0, 1⟩
/-- FRAME_CFG.JUMBO_EN, 0x30p000.06 (05 R134). -/
abbrev frameCfgJumboEn (a : Nat) : Fld := ⟨0x30000006 + a * 0x100000, 1, 1⟩
/-- FRAME_CFG.ARP_REPLY, 0x30p000.06 (05 R134). -/
abbrev frameCfgArpReply (a : Nat) : Fld := ⟨0x30000006 + a * 0x100000, 2, 1⟩
/-- FRAME_CFG.BCAST, 0x30p000.06 (05 R134). -/
abbrev frameCfgBcast (a : Nat) : Fld := ⟨0x30000006 + a * 0x100000, 3, 1⟩
/-- FRAME_CFG.PROMISC, 0x30p000.06 (05 R134). -/
abbrev frameCfgPromisc (a : Nat) : Fld := ⟨0x30000006 + a * 0x100000, 4, 1⟩
/-- FRAME_CFG.ESMC_TO_HOST, 0x30p000.06 (05 R134). -/
abbrev frameCfgEsmcToHost (a : Nat) : Fld := ⟨0x30000006 + a * 0x100000, 5, 1⟩
/-- FRAME_CFG.JUMBO_LEN, 0x30p000.06 (05 R134). -/
abbrev frameCfgJumboLen (a : Nat) : Fld := ⟨0x30000006 + a * 0x100000, 16, 14⟩
/-- MC_FILTER.ADDR, 0x30p3ff.01 (05 R136). -/
abbrev mcFilterAddr (a b : Nat) : Fld := ⟨0x30030001 + a * 0x100000 + b * 0x100, 0, 48⟩
/-- MC_FILTER.VALID, 0x30p3ff.01 (05 R136). -/
abbrev mcFilterValid (a b : Nat) : Fld := ⟨0x30030001 + a * 0x100000 + b * 0x100, 48, 1⟩
/-- TXQ_SEND.SEG_SIZE, 0x30p1qq.01 (05 R142). -/
abbrev txqSendSegSize (a b : Nat) : Fld := ⟨0x30010001 + a * 0x100000 + b * 0x100, 0, 14⟩
/-- TXQ_SEND.L4, 0x30p1qq.01 (05 R142). -/
abbrev txqSendL4 (a b : Nat) : Fld := ⟨0x30010001 + a * 0x100000 + b * 0x100, 29, 1⟩
/-- TXQ_SEND.SEG, 0x30p1qq.01 (05 R142). -/
abbrev txqSendSeg (a b : Nat) : Fld := ⟨0x30010001 + a * 0x100000 + b * 0x100, 30, 1⟩
/-- TXQ_STATUS.FRAMES, 0x30p1qq.02 (05 R142). -/
abbrev txqStatusFrames (a b : Nat) : Fld := ⟨0x30010002 + a * 0x100000 + b * 0x100, 0, 6⟩
/-- TXQ_STATUS.FREE, 0x30p1qq.02 (05 R142). -/
abbrev txqStatusFree (a b : Nat) : Fld := ⟨0x30010002 + a * 0x100000 + b * 0x100, 6, 17⟩
/-- TXQ_STATUS.PAUSED, 0x30p1qq.02 (05 R142). -/
abbrev txqStatusPaused (a b : Nat) : Fld := ⟨0x30010002 + a * 0x100000 + b * 0x100, 23, 1⟩
/-- TXQ_PFC_CLASS.CLASS, 0x30p1qq.03 (05 R142). -/
abbrev txqPfcClassClass (a b : Nat) : Fld := ⟨0x30010003 + a * 0x100000 + b * 0x100, 0, 3⟩
/-- PAUSE_CFG.PAUSE_MODE, 0x30p000.07 (05 R145). -/
abbrev pauseCfgPauseMode (a : Nat) : Fld := ⟨0x30000007 + a * 0x100000, 0, 2⟩
/-- PAUSE_CFG.WD_EN, 0x30p000.07 (05 R145). -/
abbrev pauseCfgWdEn (a : Nat) : Fld := ⟨0x30000007 + a * 0x100000, 2, 1⟩
/-- PAUSE_CFG.WD_TIME, 0x30p000.07 (05 R145). -/
abbrev pauseCfgWdTime (a : Nat) : Fld := ⟨0x30000007 + a * 0x100000, 8, 10⟩
/-- PAUSE_CFG.WD_HOLD, 0x30p000.07 (05 R145). -/
abbrev pauseCfgWdHold (a : Nat) : Fld := ⟨0x30000007 + a * 0x100000, 18, 14⟩
/-- ESMC_STATUS.SSM, 0x30p000.08 (05 R146). -/
abbrev esmcStatusSsm (a : Nat) : Fld := ⟨0x30000008 + a * 0x100000, 0, 4⟩
/-- ESMC_STATUS.ENHANCED, 0x30p000.08 (05 R146). -/
abbrev esmcStatusEnhanced (a : Nat) : Fld := ⟨0x30000008 + a * 0x100000, 4, 8⟩
/-- ESMC_STATUS.EXT, 0x30p000.08 (05 R146). -/
abbrev esmcStatusExt (a : Nat) : Fld := ⟨0x30000008 + a * 0x100000, 12, 1⟩
/-- ESMC_STATUS.SEEN, 0x30p000.08 (05 R146). -/
abbrev esmcStatusSeen (a : Nat) : Fld := ⟨0x30000008 + a * 0x100000, 13, 1⟩
/-- ESMC_STATUS.AGE, 0x30p000.08 (05 R146). -/
abbrev esmcStatusAge (a : Nat) : Fld := ⟨0x30000008 + a * 0x100000, 16, 8⟩
/-- M_CFG.ENABLE, 0x302000.01 (05 R148). -/
abbrev mCfgEnable : Fld := ⟨0x30200001, 0, 1⟩
/-- M_CFG.IN_BAND, 0x302000.01 (05 R148). -/
abbrev mCfgInBand : Fld := ⟨0x30200001, 1, 1⟩
/-- M_CFG.SPEED, 0x302000.01 (05 R148). -/
abbrev mCfgSpeed : Fld := ⟨0x30200001, 2, 2⟩
/-- M_CFG.DUPLEX, 0x302000.01 (05 R148). -/
abbrev mCfgDuplex : Fld := ⟨0x30200001, 4, 1⟩
/-- M_CFG.TX_ID, 0x302000.01 (05 R148). -/
abbrev mCfgTxId : Fld := ⟨0x30200001, 5, 1⟩
/-- M_CFG.RX_ID, 0x302000.01 (05 R148). -/
abbrev mCfgRxId : Fld := ⟨0x30200001, 6, 1⟩
/-- RXR_FRAME.SEQ, 0x30p200.01 (05 R156). -/
abbrev rxrFrameSeq (a : Nat) : Fld := ⟨0x30020001 + a * 0x100000, 0, 16⟩
/-- RXR_FRAME.LENGTH, 0x30p200.01 (05 R156). -/
abbrev rxrFrameLength (a : Nat) : Fld := ⟨0x30020001 + a * 0x100000, 16, 14⟩
/-- RXR_FRAME.TRUNC_HOST, 0x30p200.01 (05 R156). -/
abbrev rxrFrameTruncHost (a : Nat) : Fld := ⟨0x30020001 + a * 0x100000, 30, 1⟩
/-- RXR_RELEASE.SEQ, 0x30p200.02 (05 R156). -/
abbrev rxrReleaseSeq (a : Nat) : Fld := ⟨0x30020002 + a * 0x100000, 0, 16⟩
/-- RXR_STATUS.FREE, 0x30p200.03 (05 R156). -/
abbrev rxrStatusFree (a : Nat) : Fld := ⟨0x30020003 + a * 0x100000, 0, 7⟩
/-- RXR_STATUS.FRAMES, 0x30p200.03 (05 R156). -/
abbrev rxrStatusFrames (a : Nat) : Fld := ⟨0x30020003 + a * 0x100000, 7, 7⟩
/-- RX_CTRL.ENABLE, 0x4000ss.01 (06 R195). -/
abbrev rxCtrlEnable (a : Nat) : Fld := ⟨0x40000001 + a * 0x100, 0, 1⟩
/-- RX_CTRL.START_MODE, 0x4000ss.01 (06 R195). -/
abbrev rxCtrlStartMode (a : Nat) : Fld := ⟨0x40000001 + a * 0x100, 1, 1⟩
/-- RX_CTRL.PORTS, 0x4000ss.01 (06 R195). -/
abbrev rxCtrlPorts (a : Nat) : Fld := ⟨0x40000001 + a * 0x100, 2, 2⟩
/-- RX_CTRL.DOMAIN_VALID, 0x4000ss.01 (06 R195). -/
abbrev rxCtrlDomainValid (a : Nat) : Fld := ⟨0x40000001 + a * 0x100, 4, 1⟩
/-- RX_CTRL.DOMAIN, 0x4000ss.01 (06 R195). -/
abbrev rxCtrlDomain (a : Nat) : Fld := ⟨0x40000001 + a * 0x100, 5, 2⟩
/-- RX_CTRL.VIEW, 0x4000ss.01 (06 R195). -/
abbrev rxCtrlView (a : Nat) : Fld := ⟨0x40000001 + a * 0x100, 7, 2⟩
/-- RX_CTRL.FORMAT, 0x4000ss.01 (06 R195). -/
abbrev rxCtrlFormat (a : Nat) : Fld := ⟨0x40000001 + a * 0x100, 9, 2⟩
/-- RX_CTRL.PTIME, 0x4000ss.01 (06 R195). -/
abbrev rxCtrlPtime (a : Nat) : Fld := ⟨0x40000001 + a * 0x100, 11, 3⟩
/-- RX_CTRL.CHANNELS, 0x4000ss.01 (06 R195). -/
abbrev rxCtrlChannels (a : Nat) : Fld := ⟨0x40000001 + a * 0x100, 14, 7⟩
/-- RX_CTRL.NA_MODE, 0x4000ss.01 (06 R195). -/
abbrev rxCtrlNaMode (a : Nat) : Fld := ⟨0x40000001 + a * 0x100, 21, 2⟩
/-- RX_CTRL.SSRC_FILT, 0x4000ss.01 (06 R195). -/
abbrev rxCtrlSsrcFilt (a : Nat) : Fld := ⟨0x40000001 + a * 0x100, 23, 1⟩
/-- RX_CTRL.STOP_HOLD, 0x4000ss.01 (06 R195). -/
abbrev rxCtrlStopHold (a : Nat) : Fld := ⟨0x40000001 + a * 0x100, 24, 8⟩
/-- RX_PT_SSRC.PT, 0x4000ss.02 (06 R195). -/
abbrev rxPtSsrcPt (a : Nat) : Fld := ⟨0x40000002 + a * 0x100, 0, 7⟩
/-- RX_PT_SSRC.SSRC, 0x4000ss.02 (06 R195). -/
abbrev rxPtSsrcSsrc (a : Nat) : Fld := ⟨0x40000002 + a * 0x100, 32, 32⟩
/-- RX_ADDR_A.DST_IP, 0x4000ss.03 (06 R195). -/
abbrev rxAddrADstIp (a : Nat) : Fld := ⟨0x40000003 + a * 0x100, 0, 32⟩
/-- RX_ADDR_A.DST_PORT, 0x4000ss.03 (06 R195). -/
abbrev rxAddrADstPort (a : Nat) : Fld := ⟨0x40000003 + a * 0x100, 32, 16⟩
/-- RX_ADDR_A.SRC_IP, 0x4000ss.03 (06 R195). -/
abbrev rxAddrASrcIp (a : Nat) : Fld := ⟨0x40000003 + a * 0x100, 48, 32⟩
/-- RX_ADDR_B.DST_IP, 0x4000ss.04 (06 R195). -/
abbrev rxAddrBDstIp (a : Nat) : Fld := ⟨0x40000004 + a * 0x100, 0, 32⟩
/-- RX_ADDR_B.DST_PORT, 0x4000ss.04 (06 R195). -/
abbrev rxAddrBDstPort (a : Nat) : Fld := ⟨0x40000004 + a * 0x100, 32, 16⟩
/-- RX_ADDR_B.SRC_IP, 0x4000ss.04 (06 R195). -/
abbrev rxAddrBSrcIp (a : Nat) : Fld := ⟨0x40000004 + a * 0x100, 48, 32⟩
/-- RX_TIMING.P, 0x4000ss.05 (06 R195). -/
abbrev rxTimingP (a : Nat) : Fld := ⟨0x40000005 + a * 0x100, 0, 13⟩
/-- RX_TS_OFFSET.TS_OFFSET, 0x4000ss.06 (06 R195). -/
abbrev rxTsOffsetTsOffset (a : Nat) : Fld := ⟨0x40000006 + a * 0x100, 0, 32⟩
/-- RX_STATUS.STATE, 0x4000ss.07 (06 R195). -/
abbrev rxStatusState (a : Nat) : Fld := ⟨0x40000007 + a * 0x100, 0, 3⟩
/-- RX_STATUS.PATH_A, 0x4000ss.07 (06 R195). -/
abbrev rxStatusPathA (a : Nat) : Fld := ⟨0x40000007 + a * 0x100, 3, 1⟩
/-- RX_STATUS.PATH_B, 0x4000ss.07 (06 R195). -/
abbrev rxStatusPathB (a : Nat) : Fld := ⟨0x40000007 + a * 0x100, 4, 1⟩
/-- RX_CURSOR.CURSOR_TS, 0x4000ss.08 (06 R195). -/
abbrev rxCursorCursorTs (a : Nat) : Fld := ⟨0x40000008 + a * 0x100, 0, 32⟩
/-- RX_CURSOR.DEPTH_MIN, 0x4000ss.08 (06 R195). -/
abbrev rxCursorDepthMin (a : Nat) : Fld := ⟨0x40000008 + a * 0x100, 32, 16⟩
/-- RX_NA.NA, 0x4000ss.09 (06 R195). -/
abbrev rxNaNa (a : Nat) : Fld := ⟨0x40000009 + a * 0x100, 0, 64⟩
/-- TX_CTRL.ENABLE, 0x4100ss.01 (06 R195). -/
abbrev txCtrlEnable (a : Nat) : Fld := ⟨0x41000001 + a * 0x100, 0, 1⟩
/-- TX_CTRL.START_MODE, 0x4100ss.01 (06 R195). -/
abbrev txCtrlStartMode (a : Nat) : Fld := ⟨0x41000001 + a * 0x100, 1, 1⟩
/-- TX_CTRL.PORTS, 0x4100ss.01 (06 R195). -/
abbrev txCtrlPorts (a : Nat) : Fld := ⟨0x41000001 + a * 0x100, 2, 2⟩
/-- TX_CTRL.DOMAIN_VALID, 0x4100ss.01 (06 R195). -/
abbrev txCtrlDomainValid (a : Nat) : Fld := ⟨0x41000001 + a * 0x100, 4, 1⟩
/-- TX_CTRL.DOMAIN, 0x4100ss.01 (06 R195). -/
abbrev txCtrlDomain (a : Nat) : Fld := ⟨0x41000001 + a * 0x100, 5, 2⟩
/-- TX_CTRL.VIEW, 0x4100ss.01 (06 R195). -/
abbrev txCtrlView (a : Nat) : Fld := ⟨0x41000001 + a * 0x100, 7, 2⟩
/-- TX_CTRL.FORMAT, 0x4100ss.01 (06 R195). -/
abbrev txCtrlFormat (a : Nat) : Fld := ⟨0x41000001 + a * 0x100, 9, 2⟩
/-- TX_CTRL.PTIME, 0x4100ss.01 (06 R195). -/
abbrev txCtrlPtime (a : Nat) : Fld := ⟨0x41000001 + a * 0x100, 11, 3⟩
/-- TX_CTRL.CHANNELS, 0x4100ss.01 (06 R195). -/
abbrev txCtrlChannels (a : Nat) : Fld := ⟨0x41000001 + a * 0x100, 14, 7⟩
/-- TX_CTRL.VLAN_EN, 0x4100ss.01 (06 R195). -/
abbrev txCtrlVlanEn (a : Nat) : Fld := ⟨0x41000001 + a * 0x100, 21, 1⟩
/-- TX_CTRL.STOP_HOLD, 0x4100ss.01 (06 R195). -/
abbrev txCtrlStopHold (a : Nat) : Fld := ⟨0x41000001 + a * 0x100, 24, 8⟩
/-- TX_RTP.PT, 0x4100ss.02 (06 R195). -/
abbrev txRtpPt (a : Nat) : Fld := ⟨0x41000002 + a * 0x100, 0, 7⟩
/-- TX_RTP.START_SILENT, 0x4100ss.02 (06 R195). -/
abbrev txRtpStartSilent (a : Nat) : Fld := ⟨0x41000002 + a * 0x100, 8, 4⟩
/-- TX_RTP.SSRC, 0x4100ss.02 (06 R195). -/
abbrev txRtpSsrc (a : Nat) : Fld := ⟨0x41000002 + a * 0x100, 32, 32⟩
/-- TX_ADDR_A.DST_IP, 0x4100ss.03 (06 R195). -/
abbrev txAddrADstIp (a : Nat) : Fld := ⟨0x41000003 + a * 0x100, 0, 32⟩
/-- TX_ADDR_A.DST_PORT, 0x4100ss.03 (06 R195). -/
abbrev txAddrADstPort (a : Nat) : Fld := ⟨0x41000003 + a * 0x100, 32, 16⟩
/-- TX_ADDR_A.SRC_PORT, 0x4100ss.03 (06 R195). -/
abbrev txAddrASrcPort (a : Nat) : Fld := ⟨0x41000003 + a * 0x100, 48, 16⟩
/-- TX_ADDR_A.DST_MAC, 0x4100ss.03 (06 R195). -/
abbrev txAddrADstMac (a : Nat) : Fld := ⟨0x41000003 + a * 0x100, 64, 48⟩
/-- TX_ADDR_B.DST_IP, 0x4100ss.04 (06 R195). -/
abbrev txAddrBDstIp (a : Nat) : Fld := ⟨0x41000004 + a * 0x100, 0, 32⟩
/-- TX_ADDR_B.DST_PORT, 0x4100ss.04 (06 R195). -/
abbrev txAddrBDstPort (a : Nat) : Fld := ⟨0x41000004 + a * 0x100, 32, 16⟩
/-- TX_ADDR_B.SRC_PORT, 0x4100ss.04 (06 R195). -/
abbrev txAddrBSrcPort (a : Nat) : Fld := ⟨0x41000004 + a * 0x100, 48, 16⟩
/-- TX_ADDR_B.DST_MAC, 0x4100ss.04 (06 R195). -/
abbrev txAddrBDstMac (a : Nat) : Fld := ⟨0x41000004 + a * 0x100, 64, 48⟩
/-- TX_QOS.DSCP, 0x4100ss.05 (06 R195). -/
abbrev txQosDscp (a : Nat) : Fld := ⟨0x41000005 + a * 0x100, 0, 6⟩
/-- TX_QOS.TTL, 0x4100ss.05 (06 R195). -/
abbrev txQosTtl (a : Nat) : Fld := ⟨0x41000005 + a * 0x100, 8, 8⟩
/-- TX_QOS.VID, 0x4100ss.05 (06 R195). -/
abbrev txQosVid (a : Nat) : Fld := ⟨0x41000005 + a * 0x100, 16, 12⟩
/-- TX_QOS.PCP, 0x4100ss.05 (06 R195). -/
abbrev txQosPcp (a : Nat) : Fld := ⟨0x41000005 + a * 0x100, 28, 3⟩
/-- TX_TS_OFFSET.TS_OFFSET, 0x4100ss.06 (06 R195). -/
abbrev txTsOffsetTsOffset (a : Nat) : Fld := ⟨0x41000006 + a * 0x100, 0, 32⟩
/-- TX_STATUS.STATE, 0x4100ss.07 (06 R195). -/
abbrev txStatusState (a : Nat) : Fld := ⟨0x41000007 + a * 0x100, 0, 3⟩
/-- TX_STATUS.SEQ_NEXT, 0x4100ss.07 (06 R195). -/
abbrev txStatusSeqNext (a : Nat) : Fld := ⟨0x41000007 + a * 0x100, 16, 16⟩
/-- SE_CFG.NA_HOLD, 0x440000.01 (06 R195). -/
abbrev seCfgNaHold : Fld := ⟨0x44000001, 0, 11⟩
/-- SE_LOAD.RX_UNITS, 0x440000.02 (06 R195). -/
abbrev seLoadRxUnits : Fld := ⟨0x44000002, 0, 12⟩
/-- SE_LOAD.TX_UNITS, 0x440000.02 (06 R195). -/
abbrev seLoadTxUnits : Fld := ⟨0x44000002, 12, 12⟩
/-- JB_FREE.BYTES, 0x440000.03 (06 R195). -/
abbrev jbFreeBytes : Fld := ⟨0x44000003, 0, 32⟩
/-- TDM_PORT_CFG.DOMAIN_VALID, 0x5000pp.01 (07 R201). -/
abbrev tdmPortCfgDomainValid (a : Nat) : Fld := ⟨0x50000001 + a * 0x100, 0, 1⟩
/-- TDM_PORT_CFG.DOMAIN, 0x5000pp.01 (07 R201). -/
abbrev tdmPortCfgDomain (a : Nat) : Fld := ⟨0x50000001 + a * 0x100, 1, 2⟩
/-- TDM_PORT_CFG.ASYNC, 0x5000pp.01 (07 R201). -/
abbrev tdmPortCfgAsync (a : Nat) : Fld := ⟨0x50000001 + a * 0x100, 3, 1⟩
/-- TDM_PORT_CFG.ASYNC_RATE, 0x5000pp.01 (07 R201). -/
abbrev tdmPortCfgAsyncRate (a : Nat) : Fld := ⟨0x50000001 + a * 0x100, 4, 3⟩
/-- BANK_CFG.DRIVE, 0x5300bb.01 (07 R225). -/
abbrev bankCfgDrive (a : Nat) : Fld := ⟨0x53000001 + a * 0x100, 0, 2⟩
/-- BANK_CFG.HYST, 0x5300bb.01 (07 R225). -/
abbrev bankCfgHyst (a : Nat) : Fld := ⟨0x53000001 + a * 0x100, 2, 1⟩
/-- BANK_STATUS.VOLT, 0x5300bb.02 (07 R225). -/
abbrev bankStatusVolt (a : Nat) : Fld := ⟨0x53000002 + a * 0x100, 0, 2⟩
/-- SIDE_CTRL.ENABLE, 0x51pp0s.01 (07 R225). -/
abbrev sideCtrlEnable (a b : Nat) : Fld := ⟨0x51000001 + a * 0x10000 + b * 0x100, 0, 1⟩
/-- SIDE_CTRL.START_MODE, 0x51pp0s.01 (07 R225). -/
abbrev sideCtrlStartMode (a b : Nat) : Fld := ⟨0x51000001 + a * 0x10000 + b * 0x100, 1, 1⟩
/-- SIDE_CTRL.MASTER, 0x51pp0s.01 (07 R225). -/
abbrev sideCtrlMaster (a b : Nat) : Fld := ⟨0x51000001 + a * 0x10000 + b * 0x100, 2, 1⟩
/-- SIDE_CTRL.FORMAT, 0x51pp0s.01 (07 R225). -/
abbrev sideCtrlFormat (a b : Nat) : Fld := ⟨0x51000001 + a * 0x10000 + b * 0x100, 3, 2⟩
/-- SIDE_CTRL.BCLK_POL, 0x51pp0s.01 (07 R225). -/
abbrev sideCtrlBclkPol (a b : Nat) : Fld := ⟨0x51000001 + a * 0x10000 + b * 0x100, 5, 1⟩
/-- SIDE_CTRL.FS_POL, 0x51pp0s.01 (07 R225). -/
abbrev sideCtrlFsPol (a b : Nat) : Fld := ⟨0x51000001 + a * 0x10000 + b * 0x100, 6, 1⟩
/-- SIDE_CTRL.FRAME_CODE, 0x51pp0s.01 (07 R225). -/
abbrev sideCtrlFrameCode (a b : Nat) : Fld := ⟨0x51000001 + a * 0x10000 + b * 0x100, 7, 4⟩
/-- SIDE_CTRL.WIDTH, 0x51pp0s.01 (07 R225). -/
abbrev sideCtrlWidth (a b : Nat) : Fld := ⟨0x51000001 + a * 0x10000 + b * 0x100, 11, 6⟩
/-- SIDE_CTRL.SLOTS, 0x51pp0s.01 (07 R225). -/
abbrev sideCtrlSlots (a b : Nat) : Fld := ⟨0x51000001 + a * 0x10000 + b * 0x100, 17, 6⟩
/-- SIDE_CTRL.OFFSET, 0x51pp0s.01 (07 R225). -/
abbrev sideCtrlOffset (a b : Nat) : Fld := ⟨0x51000001 + a * 0x10000 + b * 0x100, 23, 6⟩
/-- SIDE_TIMING.FS_DELAY, 0x51pp0s.02 (07 R225). -/
abbrev sideTimingFsDelay (a b : Nat) : Fld := ⟨0x51000002 + a * 0x10000 + b * 0x100, 0, 10⟩
/-- SIDE_TIMING.CLK_LEAD, 0x51pp0s.02 (07 R225). -/
abbrev sideTimingClkLead (a b : Nat) : Fld := ⟨0x51000002 + a * 0x10000 + b * 0x100, 10, 8⟩
/-- SIDE_TIMING.CLK_TAIL, 0x51pp0s.02 (07 R225). -/
abbrev sideTimingClkTail (a b : Nat) : Fld := ⟨0x51000002 + a * 0x10000 + b * 0x100, 18, 8⟩
/-- SLOT_MASK.LANE0, 0x51pp0s.03 (07 R225). -/
abbrev slotMaskLane0 (a b : Nat) : Fld := ⟨0x51000003 + a * 0x10000 + b * 0x100, 0, 32⟩
/-- SLOT_MASK.LANE1, 0x51pp0s.03 (07 R225). -/
abbrev slotMaskLane1 (a b : Nat) : Fld := ⟨0x51000003 + a * 0x10000 + b * 0x100, 32, 32⟩
/-- MASK_COMMIT.CMD, 0x51pp0s.04 (07 R225). -/
abbrev maskCommitCmd (a b : Nat) : Fld := ⟨0x51000004 + a * 0x10000 + b * 0x100, 0, 8⟩
/-- MASK_ACTIVE.MASK, 0x51pp0s.05 (07 R225). -/
abbrev maskActiveMask (a b : Nat) : Fld := ⟨0x51000005 + a * 0x10000 + b * 0x100, 0, 64⟩
/-- SIDE_STATUS.STATE, 0x51pp0s.06 (07 R225). -/
abbrev sideStatusState (a b : Nat) : Fld := ⟨0x51000006 + a * 0x10000 + b * 0x100, 0, 3⟩
/-- SIDE_STATUS.LOCKED, 0x51pp0s.06 (07 R225). -/
abbrev sideStatusLocked (a b : Nat) : Fld := ⟨0x51000006 + a * 0x10000 + b * 0x100, 3, 1⟩
/-- SIDE_STATUS.SLEWING, 0x51pp0s.06 (07 R225). -/
abbrev sideStatusSlewing (a b : Nat) : Fld := ⟨0x51000006 + a * 0x10000 + b * 0x100, 4, 1⟩
/-- SIDE_STATUS.COMMIT_PENDING, 0x51pp0s.06 (07 R225). -/
abbrev sideStatusCommitPending (a b : Nat) : Fld := ⟨0x51000006 + a * 0x10000 + b * 0x100, 5, 1⟩
/-- SIDE_STATUS.PHASE_VALID, 0x51pp0s.06 (07 R225). -/
abbrev sideStatusPhaseValid (a b : Nat) : Fld := ⟨0x51000006 + a * 0x10000 + b * 0x100, 6, 1⟩
/-- SIDE_STATUS.MEASURED, 0x51pp0s.06 (07 R225). -/
abbrev sideStatusMeasured (a b : Nat) : Fld := ⟨0x51000006 + a * 0x10000 + b * 0x100, 8, 11⟩
/-- SIDE_PHASE.PHASE, 0x51pp0s.07 (07 R225). -/
abbrev sidePhasePhase (a b : Nat) : Fld := ⟨0x51000007 + a * 0x10000 + b * 0x100, 0, 24⟩
/-- ASRC_CFG.ENABLE, 0x6000cc.01 (08 R238). -/
abbrev asrcCfgEnable (a : Nat) : Fld := ⟨0x60000001 + a * 0x100, 0, 1⟩
/-- ASRC_CFG.IN_KIND, 0x6000cc.01 (08 R238). -/
abbrev asrcCfgInKind (a : Nat) : Fld := ⟨0x60000001 + a * 0x100, 1, 1⟩
/-- ASRC_CFG.IN_DOMAIN, 0x6000cc.01 (08 R238). -/
abbrev asrcCfgInDomain (a : Nat) : Fld := ⟨0x60000001 + a * 0x100, 2, 2⟩
/-- ASRC_CFG.OUT_KIND, 0x6000cc.01 (08 R238). -/
abbrev asrcCfgOutKind (a : Nat) : Fld := ⟨0x60000001 + a * 0x100, 4, 1⟩
/-- ASRC_CFG.OUT_DOMAIN, 0x6000cc.01 (08 R238). -/
abbrev asrcCfgOutDomain (a : Nat) : Fld := ⟨0x60000001 + a * 0x100, 5, 2⟩
/-- ASRC_CFG.IN_PORT, 0x6000cc.01 (08 R238). -/
abbrev asrcCfgInPort (a : Nat) : Fld := ⟨0x60000001 + a * 0x100, 7, 6⟩
/-- ASRC_CFG.IN_LANE, 0x6000cc.01 (08 R238). -/
abbrev asrcCfgInLane (a : Nat) : Fld := ⟨0x60000001 + a * 0x100, 13, 1⟩
/-- ASRC_CFG.IN_SLOT, 0x6000cc.01 (08 R238). -/
abbrev asrcCfgInSlot (a : Nat) : Fld := ⟨0x60000001 + a * 0x100, 14, 5⟩
/-- ASRC_CFG.OUT_PORT, 0x6000cc.01 (08 R238). -/
abbrev asrcCfgOutPort (a : Nat) : Fld := ⟨0x60000001 + a * 0x100, 19, 6⟩
/-- ASRC_CFG.OUT_LANE, 0x6000cc.01 (08 R238). -/
abbrev asrcCfgOutLane (a : Nat) : Fld := ⟨0x60000001 + a * 0x100, 25, 1⟩
/-- ASRC_CFG.OUT_SLOT, 0x6000cc.01 (08 R238). -/
abbrev asrcCfgOutSlot (a : Nat) : Fld := ⟨0x60000001 + a * 0x100, 26, 5⟩
/-- ASRC_CFG.DOMAIN_VALID, 0x6000cc.01 (08 R238). -/
abbrev asrcCfgDomainValid (a : Nat) : Fld := ⟨0x60000001 + a * 0x100, 31, 1⟩
/-- ASRC_TRACK.TRACK_BW, 0x6000cc.02 (08 R238). -/
abbrev asrcTrackTrackBw (a : Nat) : Fld := ⟨0x60000002 + a * 0x100, 0, 15⟩
/-- ASRC_STATUS.STATE, 0x6000cc.03 (08 R238). -/
abbrev asrcStatusState (a : Nat) : Fld := ⟨0x60000003 + a * 0x100, 0, 2⟩
/-- ASRC_STATUS.NARROW, 0x6000cc.03 (08 R238). -/
abbrev asrcStatusNarrow (a : Nat) : Fld := ⟨0x60000003 + a * 0x100, 2, 1⟩
/-- ASRC_STATUS.CAUSE, 0x6000cc.03 (08 R238). -/
abbrev asrcStatusCause (a : Nat) : Fld := ⟨0x60000003 + a * 0x100, 3, 3⟩
/-- ASRC_RATIO.RATIO, 0x6000cc.04 (08 R238). -/
abbrev asrcRatioRatio (a : Nat) : Fld := ⟨0x60000004 + a * 0x100, 0, 32⟩
/-- ASRC_RATIO.DEV, 0x6000cc.04 (08 R238). -/
abbrev asrcRatioDev (a : Nat) : Fld := ⟨0x60000004 + a * 0x100, 32, 32⟩
/-- ASRC_DELAY.D, 0x6000cc.05 (08 R238). -/
abbrev asrcDelayD (a : Nat) : Fld := ⟨0x60000005 + a * 0x100, 0, 32⟩
/-- GAIN.G, 0x8xxxxx.01 (09 R248). -/
abbrev gainG (a : Nat) : Fld := ⟨0x80000001 + a * 0x100, 0, 24⟩
/-- GAIN_ACTIVE.G, 0x8xxxxx.02 (09 R248). -/
abbrev gainActiveG (a : Nat) : Fld := ⟨0x80000002 + a * 0x100, 0, 24⟩
/-- HALL_CFG.DOMAIN_VALID, 0x900000.01 (09 R258). -/
abbrev hallCfgDomainValid : Fld := ⟨0x90000001, 0, 1⟩
/-- HALL_CFG.DOMAIN, 0x900000.01 (09 R258). -/
abbrev hallCfgDomain : Fld := ⟨0x90000001, 1, 2⟩
/-- HALL_CFG.SCRUB_EN, 0x900000.01 (09 R258). -/
abbrev hallCfgScrubEn : Fld := ⟨0x90000001, 3, 1⟩
/-- HALL_COMMIT.FADE, 0x900000.02 (09 R258). -/
abbrev hallCommitFade : Fld := ⟨0x90000002, 0, 2⟩
/-- HALL_STATUS.DIRTY, 0x900000.03 (09 R258). -/
abbrev hallStatusDirty : Fld := ⟨0x90000003, 0, 11⟩
/-- HALL_STATUS.BUSY, 0x900000.03 (09 R258). -/
abbrev hallStatusBusy : Fld := ⟨0x90000003, 11, 11⟩
/-- HALL_STATUS.FAILED, 0x900000.03 (09 R258). -/
abbrev hallStatusFailed : Fld := ⟨0x90000003, 22, 11⟩
/-- HALL_STATUS.SKIPPED, 0x900000.03 (09 R258). -/
abbrev hallStatusSkipped : Fld := ⟨0x90000003, 33, 11⟩
/-- HALL_STATUS.RUNNING, 0x900000.03 (09 R258). -/
abbrev hallStatusRunning : Fld := ⟨0x90000003, 44, 1⟩
/-- HALL_STATUS.SHADOW_BAD, 0x900000.03 (09 R258). -/
abbrev hallStatusShadowBad : Fld := ⟨0x90000003, 45, 11⟩
/-- TILE_CMD.OP, 0x91tttt.01 (09 R258). -/
abbrev tileCmdOp (a : Nat) : Fld := ⟨0x91000001 + a * 0x100, 0, 2⟩
/-- TILE_CMD.FADE, 0x91tttt.01 (09 R258). -/
abbrev tileCmdFade (a : Nat) : Fld := ⟨0x91000001 + a * 0x100, 2, 2⟩
/-- TILE_STATUS.STATE, 0x91tttt.02 (09 R258). -/
abbrev tileStatusState (a : Nat) : Fld := ⟨0x91000002 + a * 0x100, 0, 3⟩
/-- TILE_STATUS.ACTIVE_BANK, 0x91tttt.02 (09 R258). -/
abbrev tileStatusActiveBank (a : Nat) : Fld := ⟨0x91000002 + a * 0x100, 3, 1⟩
/-- TILE_STATUS.DIRTY, 0x91tttt.02 (09 R258). -/
abbrev tileStatusDirty (a : Nat) : Fld := ⟨0x91000002 + a * 0x100, 4, 1⟩
/-- TILE_STATUS.SHADOW_BAD, 0x91tttt.02 (09 R258). -/
abbrev tileStatusShadowBad (a : Nat) : Fld := ⟨0x91000002 + a * 0x100, 5, 1⟩
/-- TILE_STATUS.EMPTY_ACTIVE, 0x91tttt.02 (09 R258). -/
abbrev tileStatusEmptyActive (a : Nat) : Fld := ⟨0x91000002 + a * 0x100, 6, 1⟩
/-- TILE_STATUS.EMPTY_SHADOW, 0x91tttt.02 (09 R258). -/
abbrev tileStatusEmptyShadow (a : Nat) : Fld := ⟨0x91000002 + a * 0x100, 7, 1⟩
/-- TILE_STATUS.FADE_LEFT, 0x91tttt.02 (09 R258). -/
abbrev tileStatusFadeLeft (a : Nat) : Fld := ⟨0x91000002 + a * 0x100, 8, 8⟩
/-- TILE_STATUS.LAST_CHECK_FAIL, 0x91tttt.02 (09 R258). -/
abbrev tileStatusLastCheckFail (a : Nat) : Fld := ⟨0x91000002 + a * 0x100, 16, 1⟩
/-- TILE_CSUM.BANK0, 0x91tttt.03 (09 R258). -/
abbrev tileCsumBank0 (a : Nat) : Fld := ⟨0x91000003 + a * 0x100, 0, 32⟩
/-- TILE_CSUM.BANK1, 0x91tttt.03 (09 R258). -/
abbrev tileCsumBank1 (a : Nat) : Fld := ⟨0x91000003 + a * 0x100, 32, 32⟩
/-- TILE_SHADOW.IMAGE, 0x91tttt.04 (09 R258). -/
abbrev tileShadowImage (a : Nat) : Fld := ⟨0x91000004 + a * 0x100, 0, 24576⟩
/-- OUT_SAT.TICKS, 0x93oooo.01 (09 R259). -/
abbrev outSatTicks (a : Nat) : Fld := ⟨0x93000001 + a * 0x100, 0, 32⟩
/-- ROOM_CTRL.ENABLE, 0xA0rr00.01 (10 R298). -/
abbrev roomCtrlEnable (a : Nat) : Fld := ⟨0xA0000001 + a * 0x10000, 0, 1⟩
/-- ROOM_CTRL.START_MODE, 0xA0rr00.01 (10 R298). -/
abbrev roomCtrlStartMode (a : Nat) : Fld := ⟨0xA0000001 + a * 0x10000, 1, 1⟩
/-- ROOM_CTRL.DOMAIN_VALID, 0xA0rr00.01 (10 R298). -/
abbrev roomCtrlDomainValid (a : Nat) : Fld := ⟨0xA0000001 + a * 0x10000, 2, 1⟩
/-- ROOM_CTRL.DOMAIN, 0xA0rr00.01 (10 R298). -/
abbrev roomCtrlDomain (a : Nat) : Fld := ⟨0xA0000001 + a * 0x10000, 3, 2⟩
/-- ROOM_CTRL.BLOCK, 0xA0rr00.01 (10 R298). -/
abbrev roomCtrlBlock (a : Nat) : Fld := ⟨0xA0000001 + a * 0x10000, 5, 3⟩
/-- ROOM_CTRL.OUT_LAG, 0xA0rr00.01 (10 R298). -/
abbrev roomCtrlOutLag (a : Nat) : Fld := ⟨0xA0000001 + a * 0x10000, 8, 5⟩
/-- ROOM_CTRL.PHASE, 0xA0rr00.01 (10 R298). -/
abbrev roomCtrlPhase (a : Nat) : Fld := ⟨0xA0000001 + a * 0x10000, 13, 5⟩
/-- ROOM_CTRL.START_MUTE, 0xA0rr00.01 (10 R298). -/
abbrev roomCtrlStartMute (a : Nat) : Fld := ⟨0xA0000001 + a * 0x10000, 18, 4⟩
/-- ROOM_CTRL.SKIP_LIMIT, 0xA0rr00.01 (10 R298). -/
abbrev roomCtrlSkipLimit (a : Nat) : Fld := ⟨0xA0000001 + a * 0x10000, 22, 4⟩
/-- ROOM_CTRL.MBO_POST, 0xA0rr00.01 (10 R298). -/
abbrev roomCtrlMboPost (a : Nat) : Fld := ⟨0xA0000001 + a * 0x10000, 26, 1⟩
/-- ROOM_ENTRY.ENTRY, 0xA0rr00.02 (10 R298). -/
abbrev roomEntryEntry (a : Nat) : Fld := ⟨0xA0000002 + a * 0x10000, 0, 13⟩
/-- ROOM_ENTRY.IVEC, 0xA0rr00.02 (10 R298). -/
abbrev roomEntryIvec (a : Nat) : Fld := ⟨0xA0000002 + a * 0x10000, 16, 13⟩
/-- ROOM_STATUS.STATE, 0xA0rr00.03 (10 R298). -/
abbrev roomStatusState (a : Nat) : Fld := ⟨0xA0000003 + a * 0x10000, 0, 3⟩
/-- ROOM_STATUS.BUSY, 0xA0rr00.03 (10 R298). -/
abbrev roomStatusBusy (a : Nat) : Fld := ⟨0xA0000003 + a * 0x10000, 3, 1⟩
/-- ROOM_STATUS.IN_IRQ, 0xA0rr00.03 (10 R298). -/
abbrev roomStatusInIrq (a : Nat) : Fld := ⟨0xA0000003 + a * 0x10000, 4, 1⟩
/-- ROOM_STATUS.ILL, 0xA0rr00.03 (10 R298). -/
abbrev roomStatusIll (a : Nat) : Fld := ⟨0xA0000003 + a * 0x10000, 5, 1⟩
/-- ROOM_STATUS.MBOX_PEND, 0xA0rr00.03 (10 R298). -/
abbrev roomStatusMboxPend (a : Nat) : Fld := ⟨0xA0000003 + a * 0x10000, 6, 1⟩
/-- ROOM_STATUS.MBO_NEW, 0xA0rr00.03 (10 R298). -/
abbrev roomStatusMboNew (a : Nat) : Fld := ⟨0xA0000003 + a * 0x10000, 7, 1⟩
/-- ROOM_STATUS.PC_LAST, 0xA0rr00.03 (10 R298). -/
abbrev roomStatusPcLast (a : Nat) : Fld := ⟨0xA0000003 + a * 0x10000, 8, 13⟩
/-- ROOM_STATUS.GUEST, 0xA0rr00.03 (10 R298). -/
abbrev roomStatusGuest (a : Nat) : Fld := ⟨0xA0000003 + a * 0x10000, 21, 1⟩
/-- ROOM_LAST.INSTR, 0xA0rr00.04 (10 R298). -/
abbrev roomLastInstr (a : Nat) : Fld := ⟨0xA0000004 + a * 0x10000, 0, 32⟩
/-- ROOM_LAST.BCNT, 0xA0rr00.04 (10 R298). -/
abbrev roomLastBcnt (a : Nat) : Fld := ⟨0xA0000004 + a * 0x10000, 32, 32⟩
/-- ROOM_MBOX_IN.WORD, 0xA0rr00.05 (10 R298). -/
abbrev roomMboxInWord (a : Nat) : Fld := ⟨0xA0000005 + a * 0x10000, 0, 32⟩
/-- ROOM_MBOX_OUT.WORD, 0xA0rr00.06 (10 R298). -/
abbrev roomMboxOutWord (a : Nat) : Fld := ⟨0xA0000006 + a * 0x10000, 0, 32⟩
/-- ROOM_CMD.CMD, 0xA0rr00.07 (10 R298). -/
abbrev roomCmdCmd (a : Nat) : Fld := ⟨0xA0000007 + a * 0x10000, 0, 8⟩
/-- ROOM_LOAD.SPACE, 0xA0rr01.01 (10 R298). -/
abbrev roomLoadSpace (a : Nat) : Fld := ⟨0xA0000101 + a * 0x10000, 0, 2⟩
/-- ROOM_LOAD.FORMAT, 0xA0rr01.01 (10 R298). -/
abbrev roomLoadFormat (a : Nat) : Fld := ⟨0xA0000101 + a * 0x10000, 8, 8⟩
/-- ROOM_LOAD.ADDR, 0xA0rr01.01 (10 R298). -/
abbrev roomLoadAddr (a : Nat) : Fld := ⟨0xA0000101 + a * 0x10000, 16, 14⟩
/-- ROOM_LOAD.COUNT, 0xA0rr01.01 (10 R298). -/
abbrev roomLoadCount (a : Nat) : Fld := ⟨0xA0000101 + a * 0x10000, 32, 11⟩
/-- ROOM_FETCH_ADDR.SPACE, 0xA0rr02.01 (10 R298). -/
abbrev roomFetchAddrSpace (a : Nat) : Fld := ⟨0xA0000201 + a * 0x10000, 0, 2⟩
/-- ROOM_FETCH_ADDR.ADDR, 0xA0rr02.01 (10 R298). -/
abbrev roomFetchAddrAddr (a : Nat) : Fld := ⟨0xA0000201 + a * 0x10000, 8, 14⟩
/-- ROOM_FETCH_ADDR.COUNT, 0xA0rr02.01 (10 R298). -/
abbrev roomFetchAddrCount (a : Nat) : Fld := ⟨0xA0000201 + a * 0x10000, 22, 9⟩
/-- ROOM_ISA.ISA_VERSION, 0xA20000.01 (11 R319). -/
abbrev roomIsaIsaVersion : Fld := ⟨0xA2000001, 0, 8⟩
/-- ROOM_ISA.STACK_DEPTH, 0xA20000.01 (11 R319). -/
abbrev roomIsaStackDepth : Fld := ⟨0xA2000001, 8, 8⟩
/-- ROOM_ISA.IMAGE_FORMAT, 0xA20000.01 (11 R319). -/
abbrev roomIsaImageFormat : Fld := ⟨0xA2000001, 16, 8⟩
/-- GUEST_CFG.ROTATE_EN, 0xB00000.01 (12 R343). -/
abbrev guestCfgRotateEn : Fld := ⟨0xB0000001, 0, 1⟩
/-- GUEST_CFG.AUTO_REJOIN, 0xB00000.01 (12 R343). -/
abbrev guestCfgAutoRejoin : Fld := ⟨0xB0000001, 1, 1⟩
/-- GUEST_CFG.ROTATE_PERIOD, 0xB00000.01 (12 R343). -/
abbrev guestCfgRotatePeriod : Fld := ⟨0xB0000001, 8, 10⟩
/-- GUEST_STATUS.G0_ROOM, 0xB00000.02 (12 R343). -/
abbrev guestStatusG0Room : Fld := ⟨0xB0000002, 0, 5⟩
/-- GUEST_STATUS.G0_SHADOW, 0xB00000.02 (12 R343). -/
abbrev guestStatusG0Shadow : Fld := ⟨0xB0000002, 5, 5⟩
/-- GUEST_STATUS.G0_STATE, 0xB00000.02 (12 R343). -/
abbrev guestStatusG0State : Fld := ⟨0xB0000002, 10, 3⟩
/-- GUEST_STATUS.G1_ROOM, 0xB00000.02 (12 R343). -/
abbrev guestStatusG1Room : Fld := ⟨0xB0000002, 13, 5⟩
/-- GUEST_STATUS.G1_SHADOW, 0xB00000.02 (12 R343). -/
abbrev guestStatusG1Shadow : Fld := ⟨0xB0000002, 18, 5⟩
/-- GUEST_STATUS.G1_STATE, 0xB00000.02 (12 R343). -/
abbrev guestStatusG1State : Fld := ⟨0xB0000002, 23, 3⟩
/-- CORE_STATUS.CORE, 0xB00000.03 (12 R343). -/
abbrev coreStatusCore : Fld := ⟨0xB0000003, 0, 36⟩
/-- GUEST_CMD.CMD, 0xB00000.04 (12 R343). -/
abbrev guestCmdCmd : Fld := ⟨0xB0000004, 0, 4⟩
/-- GUEST_CMD.ARG, 0xB00000.04 (12 R343). -/
abbrev guestCmdArg : Fld := ⟨0xB0000004, 8, 5⟩
/-- ROOM_GUARD.GUARD, 0xB100rr.01 (12 R344). -/
abbrev roomGuardGuard (a : Nat) : Fld := ⟨0xB1000001 + a * 0x100, 0, 2⟩
/-- ROOM_GUARD.CBR, 0xB100rr.01 (12 R344). -/
abbrev roomGuardCbr (a : Nat) : Fld := ⟨0xB1000001 + a * 0x100, 2, 1⟩
/-- ROOM_GUARD.SNAP_PERIOD, 0xB100rr.01 (12 R344). -/
abbrev roomGuardSnapPeriod (a : Nat) : Fld := ⟨0xB1000001 + a * 0x100, 3, 10⟩
/-- ROOM_GUARD_STATUS.CORE, 0xB100rr.02 (12 R344). -/
abbrev roomGuardStatusCore (a : Nat) : Fld := ⟨0xB1000002 + a * 0x100, 0, 5⟩
/-- ROOM_GUARD_STATUS.COLD, 0xB100rr.02 (12 R344). -/
abbrev roomGuardStatusCold (a : Nat) : Fld := ⟨0xB1000002 + a * 0x100, 5, 1⟩
/-- ROOM_GUARD_STATUS.SHADOWED, 0xB100rr.02 (12 R344). -/
abbrev roomGuardStatusShadowed (a : Nat) : Fld := ⟨0xB1000002 + a * 0x100, 6, 1⟩
/-- ROOM_GUARD_STATUS.SNAP_OK, 0xB100rr.02 (12 R344). -/
abbrev roomGuardStatusSnapOk (a : Nat) : Fld := ⟨0xB1000002 + a * 0x100, 7, 1⟩
/-- ROOM_GUARD_STATUS.CLEAN, 0xB100rr.02 (12 R344). -/
abbrev roomGuardStatusClean (a : Nat) : Fld := ⟨0xB1000002 + a * 0x100, 8, 16⟩
/-- ROOM_GUARD_STATUS.WORDS_MAX, 0xB100rr.02 (12 R344). -/
abbrev roomGuardStatusWordsMax (a : Nat) : Fld := ⟨0xB1000002 + a * 0x100, 24, 17⟩
/-- TEMP_STATUS.TEMP_MAX, 0xB40000.01 (12 R344). -/
abbrev tempStatusTempMax : Fld := ⟨0xB4000001, 0, 12⟩
/-- TEMP_STATUS.SENSOR, 0xB40000.01 (12 R344). -/
abbrev tempStatusSensor : Fld := ⟨0xB4000001, 12, 3⟩
/-- MON_CFG.WARN, 0xB40000.02 (12 R344). -/
abbrev monCfgWarn : Fld := ⟨0xB4000002, 0, 8⟩
/-- MON_CFG.CRIT, 0xB40000.02 (12 R344). -/
abbrev monCfgCrit : Fld := ⟨0xB4000002, 8, 8⟩
/-- MON_CFG.SUP_WIN, 0xB40000.02 (12 R344). -/
abbrev monCfgSupWin : Fld := ⟨0xB4000002, 16, 4⟩
/-- SUPPLY_MV.MV, 0xB410cc.01 (12 R344). -/
abbrev supplyMvMv (a : Nat) : Fld := ⟨0xB4100001 + a * 0x100, 0, 16⟩
/-- CELLAR_PART.JB, 0xC00000.01 (13 R349). -/
abbrev cellarPartJb : Fld := ⟨0xC0000001, 0, 9⟩
/-- CELLAR_PART.SNAP, 0xC00000.01 (13 R349). -/
abbrev cellarPartSnap : Fld := ⟨0xC0000001, 9, 9⟩
/-- CELLAR_PART.DLY, 0xC00000.01 (13 R349). -/
abbrev cellarPartDly : Fld := ⟨0xC0000001, 18, 9⟩
/-- CELLAR_PART.SNAP_DDR, 0xC00000.01 (13 R349). -/
abbrev cellarPartSnapDdr : Fld := ⟨0xC0000001, 27, 1⟩
/-- CELLAR_FREE.SNAP_FREE, 0xC00000.02 (13 R349). -/
abbrev cellarFreeSnapFree : Fld := ⟨0xC0000002, 0, 16⟩
/-- CELLAR_FREE.DLY_FREE, 0xC00000.02 (13 R349). -/
abbrev cellarFreeDlyFree : Fld := ⟨0xC0000002, 16, 16⟩
/-- CELLAR_FREE.REC_FREE, 0xC00000.02 (13 R349). -/
abbrev cellarFreeRecFree : Fld := ⟨0xC0000002, 32, 16⟩
/-- DLY_CFG.ENABLE, 0xC2nnnn.01 (13 R354). -/
abbrev dlyCfgEnable (a : Nat) : Fld := ⟨0xC2000001 + a * 0x100, 0, 1⟩
/-- DLY_CFG.MEM, 0xC2nnnn.01 (13 R354). -/
abbrev dlyCfgMem (a : Nat) : Fld := ⟨0xC2000001 + a * 0x100, 1, 1⟩
/-- DLY_CFG.SINK, 0xC2nnnn.01 (13 R354). -/
abbrev dlyCfgSink (a : Nat) : Fld := ⟨0xC2000001 + a * 0x100, 8, 24⟩
/-- DLY_CFG.MAXDELAY, 0xC2nnnn.01 (13 R354). -/
abbrev dlyCfgMaxdelay (a : Nat) : Fld := ⟨0xC2000001 + a * 0x100, 32, 21⟩
/-- DLY_TIME.DELAY, 0xC2nnnn.02 (13 R354). -/
abbrev dlyTimeDelay (a : Nat) : Fld := ⟨0xC2000002 + a * 0x100, 0, 21⟩
/-- REC_CFG.MODE, 0xC30000.01 (13 R357). -/
abbrev recCfgMode : Fld := ⟨0xC3000001, 0, 2⟩
/-- REC_CFG.MEM, 0xC30000.01 (13 R357). -/
abbrev recCfgMem : Fld := ⟨0xC3000001, 2, 1⟩
/-- REC_CFG.RING, 0xC30000.01 (13 R357). -/
abbrev recCfgRing : Fld := ⟨0xC3000001, 3, 1⟩
/-- REC_CFG.DOMAIN, 0xC30000.01 (13 R357). -/
abbrev recCfgDomain : Fld := ⟨0xC3000001, 4, 2⟩
/-- REC_CFG.CHANNELS, 0xC30000.01 (13 R357). -/
abbrev recCfgChannels : Fld := ⟨0xC3000001, 6, 7⟩
/-- REC_CFG.LENGTH, 0xC30000.01 (13 R357). -/
abbrev recCfgLength : Fld := ⟨0xC3000001, 16, 24⟩
/-- REC_START.START_TICK, 0xC30000.02 (13 R357). -/
abbrev recStartStartTick : Fld := ⟨0xC3000002, 0, 64⟩
/-- REC_STATUS.STATE, 0xC30000.03 (13 R357). -/
abbrev recStatusState : Fld := ⟨0xC3000003, 0, 2⟩
/-- REC_STATUS.HELD, 0xC30000.03 (13 R357). -/
abbrev recStatusHeld : Fld := ⟨0xC3000003, 2, 24⟩
/-- REC_FIRST.TICK, 0xC30000.04 (13 R357). -/
abbrev recFirstTick : Fld := ⟨0xC3000004, 0, 64⟩
/-- REC_READ_ADDR.OFFSET, 0xC30000.05 (13 R357). -/
abbrev recReadAddrOffset : Fld := ⟨0xC3000005, 0, 24⟩
/-- REC_READ_ADDR.COUNT, 0xC30000.05 (13 R357). -/
abbrev recReadAddrCount : Fld := ⟨0xC3000005, 24, 6⟩
/-- REC_SRC.SOURCE, 0xC301cc.01 (13 R357). -/
abbrev recSrcSource (a : Nat) : Fld := ⟨0xC3010001 + a * 0x100, 0, 32⟩
/-- DDR_CFG.ENABLE, 0xC10000.01 (13 R359). -/
abbrev ddrCfgEnable : Fld := ⟨0xC1000001, 0, 1⟩
/-- DDR_CFG.RATE, 0xC10000.01 (13 R359). -/
abbrev ddrCfgRate : Fld := ⟨0xC1000001, 1, 3⟩
/-- DDR_CFG.SIZE, 0xC10000.01 (13 R359). -/
abbrev ddrCfgSize : Fld := ⟨0xC1000001, 4, 2⟩
/-- DDR_STATUS.STATE, 0xC10000.02 (13 R359). -/
abbrev ddrStatusState : Fld := ⟨0xC1000002, 0, 2⟩
/-- DDR_STATUS.FAIL_STEP, 0xC10000.02 (13 R359). -/
abbrev ddrStatusFailStep : Fld := ⟨0xC1000002, 2, 3⟩
/-- DDR_STATUS.FREE_PAGES, 0xC10000.02 (13 R359). -/
abbrev ddrStatusFreePages : Fld := ⟨0xC1000002, 16, 17⟩
/-- SERIAL.SERIAL, 0x000000.03 (14 R370). -/
abbrev serial : Fld := ⟨0x3, 0, 64⟩
/-- KDP_CFG.LISTEN_M, 0xD00000.01 (14 R397). -/
abbrev kdpCfgListenM : Fld := ⟨0xD0000001, 0, 1⟩
/-- KDP_CFG.LISTEN_A, 0xD00000.01 (14 R397). -/
abbrev kdpCfgListenA : Fld := ⟨0xD0000001, 1, 1⟩
/-- KDP_CFG.LISTEN_B, 0xD00000.01 (14 R397). -/
abbrev kdpCfgListenB : Fld := ⟨0xD0000001, 2, 1⟩
/-- KDP_CFG.ANON_OBSERVER, 0xD00000.01 (14 R397). -/
abbrev kdpCfgAnonObserver : Fld := ⟨0xD0000001, 3, 1⟩
/-- KDP_CFG.VMIN, 0xD00000.01 (14 R397). -/
abbrev kdpCfgVmin : Fld := ⟨0xD0000001, 8, 8⟩
/-- KDP_CFG.VMAX, 0xD00000.01 (14 R397). -/
abbrev kdpCfgVmax : Fld := ⟨0xD0000001, 16, 8⟩
/-- KDP_CFG.IDLE_TIMEOUT, 0xD00000.01 (14 R397). -/
abbrev kdpCfgIdleTimeout : Fld := ⟨0xD0000001, 24, 8⟩
/-- KDP_STATUS.SESSIONS, 0xD00000.02 (14 R398). -/
abbrev kdpStatusSessions : Fld := ⟨0xD0000002, 0, 5⟩
/-- KDP_STATUS.V_LOW, 0xD00000.02 (14 R398). -/
abbrev kdpStatusVLow : Fld := ⟨0xD0000002, 8, 8⟩
/-- KDP_STATUS.V_HIGH, 0xD00000.02 (14 R398). -/
abbrev kdpStatusVHigh : Fld := ⟨0xD0000002, 16, 8⟩
/-- KEY.KEY, 0xD1000k.01 (14 R398). -/
abbrev key (a : Nat) : Fld := ⟨0xD1000001 + a * 0x100, 0, 256⟩
/-- KEY_CFG.ROLE, 0xD1000k.02 (14 R398). -/
abbrev keyCfgRole (a : Nat) : Fld := ⟨0xD1000002 + a * 0x100, 0, 2⟩
/-- KEY_STATUS.LOADED, 0xD1000k.03 (14 R398). -/
abbrev keyStatusLoaded (a : Nat) : Fld := ⟨0xD1000003 + a * 0x100, 0, 1⟩
/-- SESSION.SESSION_ID, 0xD200ss.01 (14 R399). -/
abbrev sessionSessionId (a : Nat) : Fld := ⟨0xD2000001 + a * 0x100, 0, 32⟩
/-- SESSION.ROLE, 0xD200ss.01 (14 R399). -/
abbrev sessionRole (a : Nat) : Fld := ⟨0xD2000001 + a * 0x100, 32, 3⟩
/-- SESSION.OPEN, 0xD200ss.01 (14 R399). -/
abbrev sessionOpen (a : Nat) : Fld := ⟨0xD2000001 + a * 0x100, 35, 1⟩
/-- SESSION.AUTHENTICATED, 0xD200ss.01 (14 R399). -/
abbrev sessionAuthenticated (a : Nat) : Fld := ⟨0xD2000001 + a * 0x100, 36, 1⟩
/-- SESSION.PORT, 0xD200ss.01 (14 R399). -/
abbrev sessionPort (a : Nat) : Fld := ⟨0xD2000001 + a * 0x100, 37, 2⟩
/-- SESSION.GROUP_OPEN, 0xD200ss.01 (14 R399). -/
abbrev sessionGroupOpen (a : Nat) : Fld := ⟨0xD2000001 + a * 0x100, 39, 1⟩
/-- SESSION.VERSION, 0xD200ss.01 (14 R399). -/
abbrev sessionVersion (a : Nat) : Fld := ⟨0xD2000001 + a * 0x100, 40, 8⟩
/-- SESSION.IDLE, 0xD200ss.01 (14 R399). -/
abbrev sessionIdle (a : Nat) : Fld := ⟨0xD2000001 + a * 0x100, 48, 16⟩
/-- SESSION.PEER_IP, 0xD200ss.01 (14 R399). -/
abbrev sessionPeerIp (a : Nat) : Fld := ⟨0xD2000001 + a * 0x100, 64, 32⟩
/-- SESSION.PEER_PORT, 0xD200ss.01 (14 R399). -/
abbrev sessionPeerPort (a : Nat) : Fld := ⟨0xD2000001 + a * 0x100, 96, 16⟩
/-- SESSION.SLOT, 0xD200ss.01 (14 R399). -/
abbrev sessionSlot (a : Nat) : Fld := ⟨0xD2000001 + a * 0x100, 112, 3⟩
/-- SESSION_CLOSE.CMD, 0xD200ss.02 (14 R399). -/
abbrev sessionCloseCmd (a : Nat) : Fld := ⟨0xD2000002 + a * 0x100, 0, 8⟩
/-- SAVE_CMD.OP, 0xD30000.01 (14 R399). -/
abbrev saveCmdOp : Fld := ⟨0xD3000001, 0, 2⟩
/-- SAVE_CMD.FREEZE, 0xD30000.01 (14 R399). -/
abbrev saveCmdFreeze : Fld := ⟨0xD3000001, 2, 1⟩
/-- SAVE_STATUS.STATE, 0xD30000.02 (14 R399). -/
abbrev saveStatusState : Fld := ⟨0xD3000002, 0, 2⟩
/-- SAVE_STATUS.SLOT, 0xD30000.02 (14 R399). -/
abbrev saveStatusSlot : Fld := ⟨0xD3000002, 2, 1⟩
/-- SAVE_STATUS.LOADED, 0xD30000.02 (14 R399). -/
abbrev saveStatusLoaded : Fld := ⟨0xD3000002, 3, 1⟩
/-- SAVE_STATUS.CAUSE, 0xD30000.02 (14 R399). -/
abbrev saveStatusCause : Fld := ⟨0xD3000002, 4, 3⟩
/-- SAVE_STATUS.GENERATION, 0xD30000.02 (14 R399). -/
abbrev saveStatusGeneration : Fld := ⟨0xD3000002, 32, 32⟩
/-- HOST_IRQ_CFG.IRQ_LB, 0xD50000.01 (15 R423). -/
abbrev hostIrqCfgIrqLb : Fld := ⟨0xD5000001, 0, 1⟩
/-- HOST_IRQ_CFG.IRQ_REPLY, 0xD50000.01 (15 R423). -/
abbrev hostIrqCfgIrqReply : Fld := ⟨0xD5000001, 1, 1⟩
/-- HOST_IRQ_CFG.IRQ_NOTIFY, 0xD50000.01 (15 R423). -/
abbrev hostIrqCfgIrqNotify : Fld := ⟨0xD5000001, 2, 1⟩
/-- HOST_IRQ_CFG.IRQ_OD, 0xD50000.01 (15 R423). -/
abbrev hostIrqCfgIrqOd : Fld := ⟨0xD5000001, 3, 1⟩
/-- HOST_IRQ_CFG.IRQ_PRIO, 0xD50000.01 (15 R423). -/
abbrev hostIrqCfgIrqPrio : Fld := ⟨0xD5000001, 4, 3⟩
/-- LB_STATUS.BANK, 0xD51000.01 (15 R423). -/
abbrev lbStatusBank : Fld := ⟨0xD5100001, 0, 1⟩
/-- LB_STATUS.MARK_VALID, 0xD51000.01 (15 R423). -/
abbrev lbStatusMarkValid : Fld := ⟨0xD5100001, 1, 1⟩
/-- LB_STATUS.DEPTH, 0xD51000.01 (15 R423). -/
abbrev lbStatusDepth : Fld := ⟨0xD5100001, 2, 10⟩
/-- LB_STATUS.UNRELEASED, 0xD51000.01 (15 R423). -/
abbrev lbStatusUnreleased : Fld := ⟨0xD5100001, 12, 10⟩
/-- LB_STATUS.FILL_ITEMS, 0xD51000.01 (15 R423). -/
abbrev lbStatusFillItems : Fld := ⟨0xD5100001, 22, 10⟩
/-- LB_STATUS.FILL_WORDS, 0xD51000.01 (15 R423). -/
abbrev lbStatusFillWords : Fld := ⟨0xD5100001, 32, 10⟩
/-- LB_STATUS.SEQ_NEXT, 0xD51000.01 (15 R423). -/
abbrev lbStatusSeqNext : Fld := ⟨0xD5100001, 42, 8⟩
/-- LB_CMD.CMD, 0xD51000.02 (15 R423). -/
abbrev lbCmdCmd : Fld := ⟨0xD5100002, 0, 8⟩
/-- LB_SUB_MIN.MIN_PRIO, 0xD5200d.01 (15 R423). -/
abbrev lbSubMinMinPrio (a : Nat) : Fld := ⟨0xD5200001 + a * 0x100, 0, 3⟩
/-- LB_CODE_FILTER.CODE, 0xD530ff.01 (15 R423). -/
abbrev lbCodeFilterCode (a : Nat) : Fld := ⟨0xD5300001 + a * 0x100, 0, 16⟩
/-- LB_CODE_FILTER.MIN_PRIO, 0xD530ff.01 (15 R423). -/
abbrev lbCodeFilterMinPrio (a : Nat) : Fld := ⟨0xD5300001 + a * 0x100, 16, 3⟩
/-- LB_CODE_FILTER.VALID, 0xD530ff.01 (15 R423). -/
abbrev lbCodeFilterValid (a : Nat) : Fld := ⟨0xD5300001 + a * 0x100, 19, 1⟩
/-- DEVICE_STATUS.CHIP_READY, 0x000003.01 (16 R435). -/
abbrev deviceStatusChipReady : Fld := ⟨0x301, 0, 1⟩
/-- DEVICE_STATUS.BOOT_MODE, 0x000003.01 (16 R435). -/
abbrev deviceStatusBootMode : Fld := ⟨0x301, 1, 2⟩
/-- DEVICE_STATUS.CLOCK_STATE, 0x000003.01 (16 R435). -/
abbrev deviceStatusClockState : Fld := ⟨0x301, 3, 2⟩
/-- DEVICE_STATUS.LO_INPUT, 0x000003.01 (16 R435). -/
abbrev deviceStatusLoInput : Fld := ⟨0x301, 5, 1⟩
/-- DEVICE_STATUS.CFG_INVALID, 0x000003.01 (16 R435). -/
abbrev deviceStatusCfgInvalid : Fld := ⟨0x301, 6, 1⟩
/-- DEVICE_STATUS.LO_LOST, 0x000003.01 (16 R435). -/
abbrev deviceStatusLoLost : Fld := ⟨0x301, 7, 1⟩
/-- DEVICE_STATUS.JTAG_LOCKED, 0x000003.01 (16 R435). -/
abbrev deviceStatusJtagLocked : Fld := ⟨0x301, 8, 1⟩
/-- LO_CFG.LO_FREQ, 0x000003.02 (16 R435). -/
abbrev loCfgLoFreq : Fld := ⟨0x302, 0, 4⟩
/-- LO_CFG.FLASH_DIV, 0x000003.02 (16 R435). -/
abbrev loCfgFlashDiv : Fld := ⟨0x302, 4, 8⟩
/-- LO_CFG.QUAD, 0x000003.02 (16 R435). -/
abbrev loCfgQuad : Fld := ⟨0x302, 12, 1⟩
/-- SELFTEST_RESULT.DONE, 0xE00000.01 (16 R440). -/
abbrev selftestResultDone : Fld := ⟨0xE0000001, 0, 1⟩
/-- SELFTEST_RESULT.CELLAR, 0xE00000.01 (16 R440). -/
abbrev selftestResultCellar : Fld := ⟨0xE0000001, 1, 1⟩
/-- SELFTEST_RESULT.HALL_SRAM, 0xE00000.01 (16 R440). -/
abbrev selftestResultHallSram : Fld := ⟨0xE0000001, 2, 1⟩
/-- SELFTEST_RESULT.HALL_ENGINES, 0xE00000.01 (16 R440). -/
abbrev selftestResultHallEngines : Fld := ⟨0xE0000001, 3, 1⟩
/-- SELFTEST_RESULT.ROOMS, 0xE00000.01 (16 R440). -/
abbrev selftestResultRooms : Fld := ⟨0xE0000001, 4, 1⟩
/-- SELFTEST_RESULT.ASRC, 0xE00000.01 (16 R440). -/
abbrev selftestResultAsrc : Fld := ⟨0xE0000001, 5, 1⟩
/-- TDM_LOOP.MODE, 0xE5pp00.01 (16 R445). -/
abbrev tdmLoopMode (a : Nat) : Fld := ⟨0xE5000001 + a * 0x10000, 0, 2⟩
/-- PORT_LOOP.MODE, 0xE3p000.01 (16 R447). -/
abbrev portLoopMode (a : Nat) : Fld := ⟨0xE3000001 + a * 0x100000, 0, 3⟩
/-- HEARTH_LOOP.LOOP0, 0xE10000.01 (16 R448). -/
abbrev hearthLoopLoop0 : Fld := ⟨0xE1000001, 0, 1⟩
/-- HEARTH_LOOP.LOOP1, 0xE10000.01 (16 R448). -/
abbrev hearthLoopLoop1 : Fld := ⟨0xE1000001, 1, 1⟩
/-- DW_TEST.ROOM, 0xEA0000.01 (16 R450). -/
abbrev dwTestRoom : Fld := ⟨0xEA000001, 0, 5⟩
/-- DW_TEST.BLOCKS, 0xEA0000.01 (16 R450). -/
abbrev dwTestBlocks : Fld := ⟨0xEA000001, 8, 24⟩
/-- DW_TEST.SEED, 0xEA0000.01 (16 R450). -/
abbrev dwTestSeed : Fld := ⟨0xEA000001, 32, 32⟩
/-- DW_TEST_STATUS.STATE, 0xEA0000.02 (16 R450). -/
abbrev dwTestStatusState : Fld := ⟨0xEA000002, 0, 2⟩
/-- DW_TEST_STATUS.TIMEOUT, 0xEA0000.02 (16 R450). -/
abbrev dwTestStatusTimeout : Fld := ⟨0xEA000002, 2, 1⟩
/-- DW_TEST_STATUS.BLOCKS_DONE, 0xEA0000.02 (16 R450). -/
abbrev dwTestStatusBlocksDone : Fld := ⟨0xEA000002, 8, 24⟩
/-- DW_TEST_STATUS.FIRST_FAIL, 0xEA0000.02 (16 R450). -/
abbrev dwTestStatusFirstFail : Fld := ⟨0xEA000002, 32, 32⟩
/-- DDR_TEST.CMD, 0xEC0000.01 (16 R451). -/
abbrev ddrTestCmd : Fld := ⟨0xEC000001, 0, 8⟩
/-- DDR_TEST_STATUS.STATE, 0xEC0000.02 (16 R451). -/
abbrev ddrTestStatusState : Fld := ⟨0xEC000002, 0, 3⟩
/-- DDR_TEST_STATUS.ERRORS, 0xEC0000.02 (16 R451). -/
abbrev ddrTestStatusErrors : Fld := ⟨0xEC000002, 8, 24⟩
/-- DDR_TEST_STATUS.FIRST_ADDR, 0xEC0000.02 (16 R451). -/
abbrev ddrTestStatusFirstAddr : Fld := ⟨0xEC000002, 32, 32⟩
/-- DDR_TEST_DQ.DQ, 0xEC0000.03 (16 R451). -/
abbrev ddrTestDqDq : Fld := ⟨0xEC000003, 0, 32⟩
/-- HALL_TEST.FIRST, 0xE90000.01 (16 R452). -/
abbrev hallTestFirst : Fld := ⟨0xE9000001, 0, 10⟩
/-- HALL_TEST.COUNT, 0xE90000.01 (16 R452). -/
abbrev hallTestCount : Fld := ⟨0xE9000001, 10, 11⟩
/-- HALL_TEST_STATUS.STATE, 0xE90000.02 (16 R452). -/
abbrev hallTestStatusState : Fld := ⟨0xE9000002, 0, 2⟩
/-- HALL_TEST_STATUS.TESTED, 0xE90000.02 (16 R452). -/
abbrev hallTestStatusTested : Fld := ⟨0xE9000002, 2, 11⟩
/-- HALL_TEST_STATUS.FAILED, 0xE90000.02 (16 R452). -/
abbrev hallTestStatusFailed : Fld := ⟨0xE9000002, 13, 11⟩
/-- HALL_TEST_STATUS.FIRST_FAIL, 0xE90000.02 (16 R452). -/
abbrev hallTestStatusFirstFail : Fld := ⟨0xE9000002, 24, 10⟩
/-- HALL_TEST_STATUS.ENGINE, 0xE90000.02 (16 R452). -/
abbrev hallTestStatusEngine : Fld := ⟨0xE9000002, 34, 6⟩
/-- HALL_TEST_STATUS.SKIPPED, 0xE90000.02 (16 R452). -/
abbrev hallTestStatusSkipped : Fld := ⟨0xE9000002, 40, 11⟩
/-- Counter RX_FRAMES of PORT_COUNTER (05 R158). -/
abbrev portRxFrames (a : Nat) : Fld := ⟨0x30040001 + a * 0x100000, 0, 64⟩
/-- Counter RX_OCTETS of PORT_COUNTER (05 R158). -/
abbrev portRxOctets (a : Nat) : Fld := ⟨0x30040101 + a * 0x100000, 0, 64⟩
/-- Counter RX_RUNT of PORT_COUNTER (05 R158). -/
abbrev portRxRunt (a : Nat) : Fld := ⟨0x30040201 + a * 0x100000, 0, 64⟩
/-- Counter RX_OVERSIZE of PORT_COUNTER (05 R158). -/
abbrev portRxOversize (a : Nat) : Fld := ⟨0x30040301 + a * 0x100000, 0, 64⟩
/-- Counter RX_FCS_ERR of PORT_COUNTER (05 R158). -/
abbrev portRxFcsErr (a : Nat) : Fld := ⟨0x30040401 + a * 0x100000, 0, 64⟩
/-- Counter RX_ALIGN_ERR of PORT_COUNTER (05 R158). -/
abbrev portRxAlignErr (a : Nat) : Fld := ⟨0x30040501 + a * 0x100000, 0, 64⟩
/-- Counter RX_FILTERED of PORT_COUNTER (05 R158). -/
abbrev portRxFiltered (a : Nat) : Fld := ⟨0x30040601 + a * 0x100000, 0, 64⟩
/-- Counter RX_RING_DROP of PORT_COUNTER (05 R158). -/
abbrev portRxRingDrop (a : Nat) : Fld := ⟨0x30040701 + a * 0x100000, 0, 64⟩
/-- Counter RX_PAUSE of PORT_COUNTER (05 R158). -/
abbrev portRxPause (a : Nat) : Fld := ⟨0x30040801 + a * 0x100000, 0, 64⟩
/-- Counter RX_CODE_ERR of PORT_COUNTER (05 R158). -/
abbrev portRxCodeErr (a : Nat) : Fld := ⟨0x30040901 + a * 0x100000, 0, 64⟩
/-- Counter TX_FRAMES of PORT_COUNTER (05 R158). -/
abbrev portTxFrames (a : Nat) : Fld := ⟨0x30040A01 + a * 0x100000, 0, 64⟩
/-- Counter TX_OCTETS of PORT_COUNTER (05 R158). -/
abbrev portTxOctets (a : Nat) : Fld := ⟨0x30040B01 + a * 0x100000, 0, 64⟩
/-- Counter TX_REFUSED of PORT_COUNTER (05 R158). -/
abbrev portTxRefused (a : Nat) : Fld := ⟨0x30040C01 + a * 0x100000, 0, 64⟩
/-- Counter TX_MEDIA_STALE of PORT_COUNTER (05 R158). -/
abbrev portTxMediaStale (a : Nat) : Fld := ⟨0x30040D01 + a * 0x100000, 0, 64⟩
/-- Counter TX_LINK_DROP of PORT_COUNTER (05 R158). -/
abbrev portTxLinkDrop (a : Nat) : Fld := ⟨0x30040E01 + a * 0x100000, 0, 64⟩
/-- Counter TX_PAUSE_TIME of PORT_COUNTER (05 R158). -/
abbrev portTxPauseTime (a : Nat) : Fld := ⟨0x30040F01 + a * 0x100000, 0, 64⟩
/-- Counter PAUSE_WD_TRIPS of PORT_COUNTER (05 R158). -/
abbrev portPauseWdTrips (a : Nat) : Fld := ⟨0x30041001 + a * 0x100000, 0, 64⟩
/-- Counter TX_SINGLE_COLL of PORT_COUNTER (05 R158). -/
abbrev portTxSingleColl (a : Nat) : Fld := ⟨0x30041101 + a * 0x100000, 0, 64⟩
/-- Counter TX_MULTI_COLL of PORT_COUNTER (05 R158). -/
abbrev portTxMultiColl (a : Nat) : Fld := ⟨0x30041201 + a * 0x100000, 0, 64⟩
/-- Counter TX_LATE_COLL of PORT_COUNTER (05 R158). -/
abbrev portTxLateColl (a : Nat) : Fld := ⟨0x30041301 + a * 0x100000, 0, 64⟩
/-- Counter TX_EXCESS_COLL of PORT_COUNTER (05 R158). -/
abbrev portTxExcessColl (a : Nat) : Fld := ⟨0x30041401 + a * 0x100000, 0, 64⟩
/-- Counter TX_DEFERRED of PORT_COUNTER (05 R158). -/
abbrev portTxDeferred (a : Nat) : Fld := ⟨0x30041501 + a * 0x100000, 0, 64⟩
/-- Counter ESMC_RX of PORT_COUNTER (05 R158). -/
abbrev portEsmcRx (a : Nat) : Fld := ⟨0x30041601 + a * 0x100000, 0, 64⟩
/-- Counter ESMC_BAD of PORT_COUNTER (05 R158). -/
abbrev portEsmcBad (a : Nat) : Fld := ⟨0x30041701 + a * 0x100000, 0, 64⟩
/-- Counter FEC_CORRECTED of PORT_COUNTER (05 R158). -/
abbrev portFecCorrected (a : Nat) : Fld := ⟨0x30041801 + a * 0x100000, 0, 64⟩
/-- Counter FEC_UNCORRECTED of PORT_COUNTER (05 R158). -/
abbrev portFecUncorrected (a : Nat) : Fld := ⟨0x30041901 + a * 0x100000, 0, 64⟩
/-- Counter LINK_DOWNS of PORT_COUNTER (05 R158). -/
abbrev portLinkDowns (a : Nat) : Fld := ⟨0x30041A01 + a * 0x100000, 0, 64⟩
/-- Counter RX_PKTS of RX_COUNTER (06 R196). -/
abbrev rxRxPkts (a : Nat) : Fld := ⟨0x42000001 + a * 0x10000, 0, 64⟩
/-- Counter RX_PKTS_A of RX_COUNTER (06 R196). -/
abbrev rxRxPktsA (a : Nat) : Fld := ⟨0x42000101 + a * 0x10000, 0, 64⟩
/-- Counter RX_PKTS_B of RX_COUNTER (06 R196). -/
abbrev rxRxPktsB (a : Nat) : Fld := ⟨0x42000201 + a * 0x10000, 0, 64⟩
/-- Counter RX_DUP of RX_COUNTER (06 R196). -/
abbrev rxRxDup (a : Nat) : Fld := ⟨0x42000301 + a * 0x10000, 0, 64⟩
/-- Counter RX_MISMATCH of RX_COUNTER (06 R196). -/
abbrev rxRxMismatch (a : Nat) : Fld := ⟨0x42000401 + a * 0x10000, 0, 64⟩
/-- Counter RX_LATE of RX_COUNTER (06 R196). -/
abbrev rxRxLate (a : Nat) : Fld := ⟨0x42000501 + a * 0x10000, 0, 64⟩
/-- Counter RX_EARLY of RX_COUNTER (06 R196). -/
abbrev rxRxEarly (a : Nat) : Fld := ⟨0x42000601 + a * 0x10000, 0, 64⟩
/-- Counter RX_BAD of RX_COUNTER (06 R196). -/
abbrev rxRxBad (a : Nat) : Fld := ⟨0x42000701 + a * 0x10000, 0, 64⟩
/-- Counter RX_SEQ_GAP_A of RX_COUNTER (06 R196). -/
abbrev rxRxSeqGapA (a : Nat) : Fld := ⟨0x42000801 + a * 0x10000, 0, 64⟩
/-- Counter RX_SEQ_GAP_B of RX_COUNTER (06 R196). -/
abbrev rxRxSeqGapB (a : Nat) : Fld := ⟨0x42000901 + a * 0x10000, 0, 64⟩
/-- Counter RX_LOST of RX_COUNTER (06 R196). -/
abbrev rxRxLost (a : Nat) : Fld := ⟨0x42000A01 + a * 0x10000, 0, 64⟩
/-- Counter RX_UNDERRUN_TICKS of RX_COUNTER (06 R196). -/
abbrev rxRxUnderrunTicks (a : Nat) : Fld := ⟨0x42000B01 + a * 0x10000, 0, 64⟩
/-- Counter RX_UNDERRUNS of RX_COUNTER (06 R196). -/
abbrev rxRxUnderruns (a : Nat) : Fld := ⟨0x42000C01 + a * 0x10000, 0, 64⟩
/-- Counter RX_RETIMES of RX_COUNTER (06 R196). -/
abbrev rxRxRetimes (a : Nat) : Fld := ⟨0x42000D01 + a * 0x10000, 0, 64⟩
/-- Counter RX_NA_DETECT of RX_COUNTER (06 R196). -/
abbrev rxRxNaDetect (a : Nat) : Fld := ⟨0x42000E01 + a * 0x10000, 0, 64⟩
/-- Counter RX_SSRC_REJECT of RX_COUNTER (06 R196). -/
abbrev rxRxSsrcReject (a : Nat) : Fld := ⟨0x42000F01 + a * 0x10000, 0, 64⟩
/-- Counter TX_PKTS of TX_COUNTER (06 R196). -/
abbrev txTxPkts (a : Nat) : Fld := ⟨0x43000001 + a * 0x10000, 0, 64⟩
/-- Counter TX_STALE of TX_COUNTER (06 R196). -/
abbrev txTxStale (a : Nat) : Fld := ⟨0x43000101 + a * 0x10000, 0, 64⟩
/-- Counter TX_RETIMES of TX_COUNTER (06 R196). -/
abbrev txTxRetimes (a : Nat) : Fld := ⟨0x43000201 + a * 0x10000, 0, 64⟩
/-- Counter TX_SKIPPED_TICKS of TX_COUNTER (06 R196). -/
abbrev txTxSkippedTicks (a : Nat) : Fld := ⟨0x43000301 + a * 0x10000, 0, 64⟩
/-- Counter TX_NO_LINK of TX_COUNTER (06 R196). -/
abbrev txTxNoLink (a : Nat) : Fld := ⟨0x43000401 + a * 0x10000, 0, 64⟩
/-- Counter FRAMES of SIDE_COUNTER (07 R226). -/
abbrev sideFrames (a b : Nat) : Fld := ⟨0x52000001 + a * 0x10000 + b * 0x1000, 0, 64⟩
/-- Counter UNDERRUNS of SIDE_COUNTER (07 R226). -/
abbrev sideUnderruns (a b : Nat) : Fld := ⟨0x52000101 + a * 0x10000 + b * 0x1000, 0, 64⟩
/-- Counter OVERRUNS of SIDE_COUNTER (07 R226). -/
abbrev sideOverruns (a b : Nat) : Fld := ⟨0x52000201 + a * 0x10000 + b * 0x1000, 0, 64⟩
/-- Counter FRAME_ERR of SIDE_COUNTER (07 R226). -/
abbrev sideFrameErr (a b : Nat) : Fld := ⟨0x52000301 + a * 0x10000 + b * 0x1000, 0, 64⟩
/-- Counter LOCK_LOSS of SIDE_COUNTER (07 R226). -/
abbrev sideLockLoss (a b : Nat) : Fld := ⟨0x52000401 + a * 0x10000 + b * 0x1000, 0, 64⟩
/-- Counter CLK_FAST of SIDE_COUNTER (07 R226). -/
abbrev sideClkFast (a b : Nat) : Fld := ⟨0x52000501 + a * 0x10000 + b * 0x1000, 0, 64⟩
/-- Counter SLEW_SLIPS of SIDE_COUNTER (07 R226). -/
abbrev sideSlewSlips (a b : Nat) : Fld := ⟨0x52000601 + a * 0x10000 + b * 0x1000, 0, 64⟩
/-- Counter MASK_COMMITS of SIDE_COUNTER (07 R226). -/
abbrev sideMaskCommits (a b : Nat) : Fld := ⟨0x52000701 + a * 0x10000 + b * 0x1000, 0, 64⟩
/-- Counter RESYNCS of ASRC_COUNTER (08 R239). -/
abbrev asrcResyncs (a : Nat) : Fld := ⟨0x61000001 + a * 0x10000, 0, 64⟩
/-- Counter LATE of ASRC_COUNTER (08 R239). -/
abbrev asrcLate (a : Nat) : Fld := ⟨0x61000101 + a * 0x10000, 0, 64⟩
/-- Counter STEPS of ASRC_COUNTER (08 R239). -/
abbrev asrcSteps (a : Nat) : Fld := ⟨0x61000201 + a * 0x10000, 0, 64⟩
/-- Counter ACQUIRES of ASRC_COUNTER (08 R239). -/
abbrev asrcAcquires (a : Nat) : Fld := ⟨0x61000301 + a * 0x10000, 0, 64⟩
/-- Counter TILE_DROPS of HALL_COUNTER (09 R259). -/
abbrev hallTileDrops : Fld := ⟨0x92000001, 0, 64⟩
/-- Counter CSUM_FAILS of HALL_COUNTER (09 R259). -/
abbrev hallCsumFails : Fld := ⟨0x92000101, 0, 64⟩
/-- Counter REPAIRS of HALL_COUNTER (09 R259). -/
abbrev hallRepairs : Fld := ⟨0x92000201, 0, 64⟩
/-- Counter SCRUB_REFRESH of HALL_COUNTER (09 R259). -/
abbrev hallScrubRefresh : Fld := ⟨0x92000301, 0, 64⟩
/-- Counter EMPTY_PARITY of HALL_COUNTER (09 R259). -/
abbrev hallEmptyParity : Fld := ⟨0x92000401, 0, 64⟩
/-- Counter COMMITS of HALL_COUNTER (09 R259). -/
abbrev hallCommits : Fld := ⟨0x92000501, 0, 64⟩
/-- Counter SAT_TICKS of HALL_COUNTER (09 R259). -/
abbrev hallSatTicks : Fld := ⟨0x92000601, 0, 64⟩
/-- Counter SCRUB_PASSES of HALL_COUNTER (09 R259). -/
abbrev hallScrubPasses : Fld := ⟨0x92000701, 0, 64⟩
/-- Counter BLOCKS_RUN of ROOM_COUNTER (10 R299). -/
abbrev roomBlocksRun (a : Nat) : Fld := ⟨0xA1000001 + a * 0x10000, 0, 64⟩
/-- Counter BLOCKS_SKIPPED of ROOM_COUNTER (10 R299). -/
abbrev roomBlocksSkipped (a : Nat) : Fld := ⟨0xA1000101 + a * 0x10000, 0, 64⟩
/-- Counter POS_UNRELEASED of ROOM_COUNTER (10 R299). -/
abbrev roomPosUnreleased (a : Nat) : Fld := ⟨0xA1000201 + a * 0x10000, 0, 64⟩
/-- Counter ILL_COUNT of ROOM_COUNTER (10 R299). -/
abbrev roomIllCount (a : Nat) : Fld := ⟨0xA1000301 + a * 0x10000, 0, 64⟩
/-- Counter IRQS of ROOM_COUNTER (10 R299). -/
abbrev roomIrqs (a : Nat) : Fld := ⟨0xA1000401 + a * 0x10000, 0, 64⟩
/-- Counter MBOX_OVERWRITE of ROOM_COUNTER (10 R299). -/
abbrev roomMboxOverwrite (a : Nat) : Fld := ⟨0xA1000501 + a * 0x10000, 0, 64⟩
/-- Counter FAULTS of ROOM_COUNTER (10 R299). -/
abbrev roomFaults (a : Nat) : Fld := ⟨0xA1000601 + a * 0x10000, 0, 64⟩
/-- Counter HOST_DEFERRED of ROOM_COUNTER (10 R299). -/
abbrev roomHostDeferred (a : Nat) : Fld := ⟨0xA1000701 + a * 0x10000, 0, 64⟩
/-- Counter MISMATCHES of SUP_COUNTER (12 R345). -/
abbrev supMismatches : Fld := ⟨0xB5000001, 0, 64⟩
/-- Counter VOTES of SUP_COUNTER (12 R345). -/
abbrev supVotes : Fld := ⟨0xB5000101, 0, 64⟩
/-- Counter TAKEOVERS of SUP_COUNTER (12 R345). -/
abbrev supTakeovers : Fld := ⟨0xB5000201, 0, 64⟩
/-- Counter NO_MAJORITY of SUP_COUNTER (12 R345). -/
abbrev supNoMajority : Fld := ⟨0xB5000301, 0, 64⟩
/-- Counter NO_VOTE of SUP_COUNTER (12 R345). -/
abbrev supNoVote : Fld := ⟨0xB5000401, 0, 64⟩
/-- Counter FENCES of SUP_COUNTER (12 R345). -/
abbrev supFences : Fld := ⟨0xB5000501, 0, 64⟩
/-- Counter ROTATIONS of SUP_COUNTER (12 R345). -/
abbrev supRotations : Fld := ⟨0xB5000601, 0, 64⟩
/-- Counter SELFTESTS_PASSED of SUP_COUNTER (12 R345). -/
abbrev supSelftestsPassed : Fld := ⟨0xB5000701, 0, 64⟩
/-- Counter SELFTESTS_FAILED of SUP_COUNTER (12 R345). -/
abbrev supSelftestsFailed : Fld := ⟨0xB5000801, 0, 64⟩
/-- Counter OUT_OF_STEP of SUP_COUNTER (12 R345). -/
abbrev supOutOfStep : Fld := ⟨0xB5000901, 0, 64⟩
/-- Counter BUDGET_OVERRUNS of SUP_COUNTER (12 R345). -/
abbrev supBudgetOverruns : Fld := ⟨0xB5000A01, 0, 64⟩
/-- Counter SNAPSHOTS of SUP_COUNTER (12 R345). -/
abbrev supSnapshots : Fld := ⟨0xB5000B01, 0, 64⟩
/-- Counter RESTORES of SUP_COUNTER (12 R345). -/
abbrev supRestores : Fld := ⟨0xB5000C01, 0, 64⟩
/-- Counter PARITY_ERRORS of SUP_COUNTER (12 R345). -/
abbrev supParityErrors : Fld := ⟨0xB5000D01, 0, 64⟩
/-- Counter HELD_POSITIONS of SUP_COUNTER (12 R345). -/
abbrev supHeldPositions : Fld := ⟨0xB5000E01, 0, 64⟩
/-- Counter SUPPLY_EXCURSIONS of SUP_COUNTER (12 R345). -/
abbrev supSupplyExcursions : Fld := ⟨0xB5000F01, 0, 64⟩
/-- Counter DLY_LATE of CELLAR_COUNTER (13 R360). -/
abbrev cellarDlyLate : Fld := ⟨0xC4000001, 0, 64⟩
/-- Counter RX_MSGS of KDP_COUNTER (14 R400). -/
abbrev kdpRxMsgs : Fld := ⟨0xD4000001, 0, 64⟩
/-- Counter MALFORMED of KDP_COUNTER (14 R400). -/
abbrev kdpMalformed : Fld := ⟨0xD4000101, 0, 64⟩
/-- Counter NO_SESSION of KDP_COUNTER (14 R400). -/
abbrev kdpNoSession : Fld := ⟨0xD4000201, 0, 64⟩
/-- Counter MAC_FAIL of KDP_COUNTER (14 R400). -/
abbrev kdpMacFail : Fld := ⟨0xD4000301, 0, 64⟩
/-- Counter REPLAY of KDP_COUNTER (14 R400). -/
abbrev kdpReplay : Fld := ⟨0xD4000401, 0, 64⟩
/-- Counter AUTH_FAILS of KDP_COUNTER (14 R400). -/
abbrev kdpAuthFails : Fld := ⟨0xD4000501, 0, 64⟩
/-- Counter SESSIONS_OPENED of KDP_COUNTER (14 R400). -/
abbrev kdpSessionsOpened : Fld := ⟨0xD4000601, 0, 64⟩
/-- Counter SESSION_TIMEOUTS of KDP_COUNTER (14 R400). -/
abbrev kdpSessionTimeouts : Fld := ⟨0xD4000701, 0, 64⟩
/-- Counter GROUPS_DISCARDED of KDP_COUNTER (14 R400). -/
abbrev kdpGroupsDiscarded : Fld := ⟨0xD4000801, 0, 64⟩
/-- Counter NOTIFY_SENT of KDP_COUNTER (14 R400). -/
abbrev kdpNotifySent : Fld := ⟨0xD4000901, 0, 64⟩
/-- Counter LOAD_SKIPPED of KDP_COUNTER (14 R400). -/
abbrev kdpLoadSkipped : Fld := ⟨0xD4000A01, 0, 64⟩
/-- Counter REPLY_PARTS of KDP_COUNTER (14 R400). -/
abbrev kdpReplyParts : Fld := ⟨0xD4000B01, 0, 64⟩
/-- Counter TX_DROPPED of KDP_COUNTER (14 R400). -/
abbrev kdpTxDropped : Fld := ⟨0xD4000C01, 0, 64⟩
/-- Counter HP_CRC_ERR of HP_COUNTER (15 R425). -/
abbrev hpHpCrcErr : Fld := ⟨0xD5400001, 0, 64⟩
/-- Counter HP_ABORT of HP_COUNTER (15 R425). -/
abbrev hpHpAbort : Fld := ⟨0xD5400101, 0, 64⟩
/-- Counter HP_BUSY of HP_COUNTER (15 R425). -/
abbrev hpHpBusy : Fld := ⟨0xD5400201, 0, 64⟩
/-- Counter HP_BAD of HP_COUNTER (15 R425). -/
abbrev hpHpBad : Fld := ⟨0xD5400301, 0, 64⟩
/-- Counter LB_POSTED of HP_COUNTER (15 R425). -/
abbrev hpLbPosted : Fld := ⟨0xD5400401, 0, 64⟩
/-- Counter LB_DROPPED of HP_COUNTER (15 R425). -/
abbrev hpLbDropped : Fld := ⟨0xD5400501, 0, 64⟩
/-- Counter LB_DISPLACED of HP_COUNTER (15 R425). -/
abbrev hpLbDisplaced : Fld := ⟨0xD5400601, 0, 64⟩
/-- Counter LB_FILTERED of HP_COUNTER (15 R425). -/
abbrev hpLbFiltered : Fld := ⟨0xD5400701, 0, 64⟩
/-- Counter LB_FLUSHED of HP_COUNTER (15 R425). -/
abbrev hpLbFlushed : Fld := ⟨0xD5400801, 0, 64⟩
/-- Counter LB_SWALLOWED of HP_COUNTER (15 R425). -/
abbrev hpLbSwallowed : Fld := ⟨0xD5400901, 0, 64⟩
/-- Counter LB_SWAPS of HP_COUNTER (15 R425). -/
abbrev hpLbSwaps : Fld := ⟨0xD5400A01, 0, 64⟩
/-- Counter NOTIFY_DROPPED of HP_COUNTER (15 R425). -/
abbrev hpNotifyDropped : Fld := ⟨0xD5400B01, 0, 64⟩

end Sys2Proof.Machine.Reg
end

