-- ==== Sys2Proof/Machine/Entries.lean ====
section
/-! DEFINITION. The names of the dictionary's entries, and the form of an entry's descriptor (R361, R362, R365, R366). -/

namespace Sys2Proof.Machine

/-- The entries of the dictionary, one constructor per entry name of the spec. -/
inductive Ent where
  | siliconRev
  | capGrade
  | capUnits
  | capTdmMask
  | capRoomMask
  | capAsrcMask
  | sinkSource
  | sinkStatus
  | toneCtrl
  | toneFreq
  | toneLevel
  | tickCount
  | dlMiss
  | dlLast
  | dlHoldoff
  | roomLate
  | domainRun
  | domainHmResult
  | roomHmResult
  | hmWindow
  | vidMode
  | vidFixed
  | vidFloor
  | vidCeil
  | slackTarget
  | vidSettle
  | vidStatus
  | vidMoves
  | rcNow
  | loFreq
  | tvNow
  | tvSnap
  | tvOffset
  | tvRate
  | tvSource
  | tvSchedule
  | tvStatus
  | tvLastApply
  | ptpPortCfg
  | ptpExtDelay
  | ptpServoCfg
  | ptpPortStatus
  | ptpOffset
  | ptpPathDelay
  | ptpParent
  | ptpLocalQuality
  | ptpClockId
  | ptpBc
  | ttCtrl
  | ttTarget
  | ttPeriod
  | ttStatus
  | ttLast
  | trigOutCfg
  | evtCfg
  | evtCapture
  | refCfg
  | refMonCfg
  | refStatus
  | refFreq
  | refCmd
  | hearthCtrl
  | hearthStatus
  | dpllCfg
  | holdoverCfg
  | dpllFreq
  | histFreq
  | hearthCmd
  | switchCount
  | wclkOutCfg
  | ppsOutCfg
  | synceOutCfg
  | outSlewStatus
  | mdCtrl
  | portCfg
  | portSerdesTx
  | portStatus
  | portMac
  | portIpv4
  | frameCfg
  | mcFilter
  | txqSend
  | txqStatus
  | txqPfcClass
  | pauseCfg
  | esmcStatus
  | mCfg
  | rxrFrame
  | rxrRelease
  | rxrStatus
  | rxCtrl
  | rxPtSsrc
  | rxAddrA
  | rxAddrB
  | rxTiming
  | rxTsOffset
  | rxStatus
  | rxCursor
  | rxNa
  | txCtrl
  | txRtp
  | txAddrA
  | txAddrB
  | txQos
  | txTsOffset
  | txStatus
  | seCfg
  | seLoad
  | jbFree
  | tdmPortCfg
  | bankCfg
  | bankStatus
  | sideCtrl
  | sideTiming
  | slotMask
  | maskCommit
  | maskActive
  | sideStatus
  | sidePhase
  | asrcCfg
  | asrcTrack
  | asrcStatus
  | asrcRatio
  | asrcDelay
  | gain
  | gainActive
  | hallCfg
  | hallCommit
  | hallStatus
  | tileCmd
  | tileStatus
  | tileCsum
  | tileShadow
  | outSat
  | roomCtrl
  | roomEntry
  | roomStatus
  | roomLast
  | roomMboxIn
  | roomMboxOut
  | roomCmd
  | roomLoad
  | roomFetchAddr
  | roomFetch
  | roomIsa
  | guestCfg
  | guestStatus
  | coreStatus
  | guestCmd
  | roomGuard
  | roomGuardStatus
  | tempStatus
  | monCfg
  | supplyMv
  | cellarPart
  | cellarFree
  | dlyCfg
  | dlyTime
  | recCfg
  | recStart
  | recStatus
  | recFirst
  | recReadAddr
  | recData
  | recSrc
  | ddrCfg
  | ddrStatus
  | vendorName
  | partName
  | serial
  | kdpCfg
  | kdpStatus
  | key
  | keyCfg
  | keyStatus
  | session
  | sessionClose
  | saveCmd
  | saveStatus
  | hostIrqCfg
  | lbStatus
  | lbCmd
  | lbSubMin
  | lbCodeFilter
  | deviceStatus
  | loCfg
  | selftestResult
  | tdmLoop
  | portLoop
  | hearthLoop
  | dwTest
  | dwTestStatus
  | ddrTest
  | ddrTestStatus
  | ddrTestDq
  | hallTest
  | hallTestStatus
  | portRxFrames
  | portRxOctets
  | portRxRunt
  | portRxOversize
  | portRxFcsErr
  | portRxAlignErr
  | portRxFiltered
  | portRxRingDrop
  | portRxPause
  | portRxCodeErr
  | portTxFrames
  | portTxOctets
  | portTxRefused
  | portTxMediaStale
  | portTxLinkDrop
  | portTxPauseTime
  | portPauseWdTrips
  | portTxSingleColl
  | portTxMultiColl
  | portTxLateColl
  | portTxExcessColl
  | portTxDeferred
  | portEsmcRx
  | portEsmcBad
  | portFecCorrected
  | portFecUncorrected
  | portLinkDowns
  | rxRxPkts
  | rxRxPktsA
  | rxRxPktsB
  | rxRxDup
  | rxRxMismatch
  | rxRxLate
  | rxRxEarly
  | rxRxBad
  | rxRxSeqGapA
  | rxRxSeqGapB
  | rxRxLost
  | rxRxUnderrunTicks
  | rxRxUnderruns
  | rxRxRetimes
  | rxRxNaDetect
  | rxRxSsrcReject
  | txTxPkts
  | txTxStale
  | txTxRetimes
  | txTxSkippedTicks
  | txTxNoLink
  | sideFrames
  | sideUnderruns
  | sideOverruns
  | sideFrameErr
  | sideLockLoss
  | sideClkFast
  | sideSlewSlips
  | sideMaskCommits
  | asrcResyncs
  | asrcLate
  | asrcSteps
  | asrcAcquires
  | hallTileDrops
  | hallCsumFails
  | hallRepairs
  | hallScrubRefresh
  | hallEmptyParity
  | hallCommits
  | hallSatTicks
  | hallScrubPasses
  | roomBlocksRun
  | roomBlocksSkipped
  | roomPosUnreleased
  | roomIllCount
  | roomIrqs
  | roomMboxOverwrite
  | roomFaults
  | roomHostDeferred
  | supMismatches
  | supVotes
  | supTakeovers
  | supNoMajority
  | supNoVote
  | supFences
  | supRotations
  | supSelftestsPassed
  | supSelftestsFailed
  | supOutOfStep
  | supBudgetOverruns
  | supSnapshots
  | supRestores
  | supParityErrors
  | supHeldPositions
  | supSupplyExcursions
  | cellarDlyLate
  | kdpRxMsgs
  | kdpMalformed
  | kdpNoSession
  | kdpMacFail
  | kdpReplay
  | kdpAuthFails
  | kdpSessionsOpened
  | kdpSessionTimeouts
  | kdpGroupsDiscarded
  | kdpNotifySent
  | kdpLoadSkipped
  | kdpReplyParts
  | kdpTxDropped
  | hpHpCrcErr
  | hpHpAbort
  | hpHpBusy
  | hpHpBad
  | hpLbPosted
  | hpLbDropped
  | hpLbDisplaced
  | hpLbFiltered
  | hpLbFlushed
  | hpLbSwallowed
  | hpLbSwaps
  | hpNotifyDropped
deriving DecidableEq, Repr

/-- Access mode of a field (R365); `rsv` is a reserved field. -/
inductive Acc where
  | ro | rw | wo | rc | cmd | rsv
deriving DecidableEq, Repr

/-- A field of an entry: lowest bit, width (0: to the end of the entry), access, reset value, and the range a SET may
write (0 to all ones where the spec states no narrower one). -/
structure FieldD where
  lo : Nat
  w : Nat
  acc : Acc
  reset : Nat
  min : Nat
  max : Nat
deriving DecidableEq, Repr

/-- A field with no range of its own. -/
def FieldD.any (lo w : Nat) (acc : Acc) (reset : Nat) : FieldD := ⟨lo, w, acc, reset, 0, 2 ^ w - 1⟩

/-- A field with the range `mn` to `mx`. -/
def FieldD.rng (lo w : Nat) (acc : Acc) (reset mn mx : Nat) : FieldD := ⟨lo, w, acc, reset, mn, mx⟩

/-- An entry's descriptor: name, key of its first unit, (index stride, count) per unit letter, type, smallest and largest
length in bytes, and its read, write and clear rights as how many of host, admin, operator, observer hold them (R366). -/
structure EntDesc where
  ent : Ent
  key : Nat
  dims : List (Nat × Nat)
  ty : Ty
  minLen : Nat
  maxLen : Nat
  rd : Nat
  wr : Nat
  clr : Nat
  fields : List FieldD
deriving DecidableEq, Repr

end Sys2Proof.Machine
end

