-- ==== Sys2Proof/Machine/Registers.lean ====
section
/-! DEFINITION. The object dictionary of the spec as data: one descriptor for every `Entry` line and field table of
spec/ (and every counter of the counter tables), in the spec's own order, and a named accessor for every field. -/

namespace Sys2Proof.Machine

/-- Dictionary descriptors, part 0. -/
def entTable0 : List EntDesc := [
  ⟨.siliconRev, 0x201, [], .u8, 1, 1, 4, 0, 0, [.any 0 8 .ro 1]⟩,
  ⟨.capGrade, 0x1001, [], .u8, 1, 1, 4, 0, 0, [.any 0 8 .ro 70]⟩,
  ⟨.capUnits, 0x1002, [], .u32, 4, 4, 4, 0, 0, [.any 0 1 .ro 1, .any 1 1 .ro 1, .any 2 1 .ro 1, .any 3 1 .ro 1, .any 4 4 .rsv 0, .any 8 5 .ro 18, .any 13 3 .rsv 0, .any 16 7 .ro 64, .any 23 1 .rsv 0, .any 24 6 .ro 48, .any 30 2 .rsv 0]⟩,
  ⟨.capTdmMask, 0x1003, [], .u64, 8, 8, 4, 0, 0, [.any 0 48 .ro 281474976710655, .any 48 16 .rsv 0]⟩,
  ⟨.capRoomMask, 0x1004, [], .u32, 4, 4, 4, 0, 0, [.any 0 18 .ro 262143, .any 18 14 .rsv 0]⟩,
  ⟨.capAsrcMask, 0x1005, [], .u64, 8, 8, 4, 0, 0, [.any 0 64 .ro 0]⟩,
  ⟨.sinkSource, 0x70000001, [(1, 262656)], .u32, 4, 4, 4, 3, 0, [.any 0 32 .rw 0]⟩,
  ⟨.sinkStatus, 0x70000002, [(1, 262656)], .u8, 1, 1, 4, 0, 0, [.any 0 2 .ro 0, .any 2 1 .ro 0, .any 3 1 .ro 0, .any 4 4 .rsv 0]⟩,
  ⟨.toneCtrl, 0x75000001, [(1, 16)], .u8, 1, 1, 4, 3, 0, [.any 0 2 .rw 0, .any 2 1 .rw 0, .any 3 2 .rw 0, .any 5 3 .rsv 0]⟩,
  ⟨.toneFreq, 0x75000002, [(1, 16)], .u32, 4, 4, 4, 3, 0, [.rng 0 24 .rw 100000 1 16777215, .any 24 8 .rsv 0]⟩,
  ⟨.toneLevel, 0x75000003, [(1, 16)], .gain24, 3, 3, 4, 3, 0, [.rng 0 24 .rw 104857 0 1048576]⟩,
  ⟨.tickCount, 0x7F000001, [(1, 4)], .u64, 8, 8, 4, 0, 0, [.any 0 64 .ro 0]⟩,
  ⟨.dlMiss, 0x7F000002, [(1, 4)], .u32, 4, 4, 4, 0, 2, [.any 0 32 .rc 0]⟩,
  ⟨.dlLast, 0x7F000003, [(1, 4)], .u64, 8, 8, 4, 0, 0, [.any 0 64 .ro 0]⟩,
  ⟨.dlHoldoff, 0x7F000004, [(1, 4)], .u16, 2, 2, 4, 2, 0, [.rng 0 16 .rw 1000 1 65535]⟩,
  ⟨.roomLate, 0x7F000005, [(1, 4)], .u32, 4, 4, 4, 0, 2, [.any 0 32 .rc 0]⟩,
  ⟨.domainRun, 0x7F000006, [(1, 4)], .bool, 1, 1, 4, 0, 0, [.any 0 1 .ro 0]⟩,
  ⟨.domainHmResult, 0xB2000001, [(1, 4)], .u64, 8, 8, 4, 0, 0, [.any 0 24 .ro 0, .any 24 24 .ro 0, .any 48 8 .ro 0, .any 56 8 .ro 0]⟩,
  ⟨.roomHmResult, 0xB2001001, [(1, 18)], .u64, 8, 8, 4, 0, 0, [.any 0 24 .ro 0, .any 24 24 .ro 0, .any 48 8 .ro 0, .any 56 8 .ro 0]⟩,
  ⟨.hmWindow, 0xB2003001, [], .u8, 1, 1, 4, 2, 0, [.rng 0 5 .rw 12 10 16, .any 5 3 .rsv 0]⟩]

/-- Dictionary descriptors, part 1. -/
def entTable1 : List EntDesc := [
  ⟨.vidMode, 0xB3000001, [], .enum, 1, 1, 4, 2, 0, [.rng 0 8 .rw 0 0 1]⟩,
  ⟨.vidFixed, 0xB3000002, [], .u8, 1, 1, 4, 2, 0, [.any 0 6 .rw 30, .any 6 2 .rsv 0]⟩,
  ⟨.vidFloor, 0xB3000003, [], .u8, 1, 1, 4, 2, 0, [.any 0 6 .rw 20, .any 6 2 .rsv 0]⟩,
  ⟨.vidCeil, 0xB3000004, [], .u8, 1, 1, 4, 2, 0, [.any 0 6 .rw 63, .any 6 2 .rsv 0]⟩,
  ⟨.slackTarget, 0xB3000005, [], .u32, 4, 4, 4, 2, 0, [.rng 0 8 .rw 10 1 50, .rng 8 8 .rw 25 0 80, .rng 16 4 .rw 8 1 15, .any 20 12 .rsv 0]⟩,
  ⟨.vidSettle, 0xB3000006, [], .u16, 2, 2, 4, 2, 0, [.rng 0 16 .rw 100 10 1000]⟩,
  ⟨.vidStatus, 0xB3000007, [], .u16, 2, 2, 4, 0, 0, [.any 0 6 .ro 30, .any 6 1 .ro 0, .any 7 1 .ro 0, .any 8 1 .ro 0, .any 9 1 .rc 0, .any 10 6 .rsv 0]⟩,
  ⟨.vidMoves, 0xB3000008, [], .u32, 4, 4, 4, 0, 2, [.any 0 32 .rc 0]⟩,
  ⟨.rcNow, 0x20000001, [], .u64, 8, 8, 4, 0, 0, [.any 0 64 .ro 0]⟩,
  ⟨.loFreq, 0x20000002, [], .enum, 1, 1, 4, 0, 0, [.any 0 8 .ro 0]⟩,
  ⟨.tvNow, 0x21000001, [(1, 4)], .time, 12, 12, 4, 0, 0, [.any 0 96 .ro 0]⟩,
  ⟨.tvSnap, 0x21000002, [(1, 4)], .blob, 20, 20, 4, 0, 0, [.any 0 96 .ro 0, .any 96 64 .ro 0]⟩,
  ⟨.tvOffset, 0x21000003, [(1, 4)], .blob, 12, 12, 4, 0, 0, [.any 0 96 .ro 0]⟩,
  ⟨.tvRate, 0x21000004, [(1, 4)], .u64, 8, 8, 4, 0, 0, [.any 0 48 .ro 140737488355328, .any 48 16 .rsv 0]⟩,
  ⟨.tvSource, 0x21000005, [(1, 4)], .enum, 1, 1, 4, 2, 0, [.rng 0 8 .rw 0 0 2]⟩,
  ⟨.tvSchedule, 0x21000006, [(1, 4)], .blob, 32, 32, 0, 2, 0, [.any 0 64 .cmd 0, .any 64 48 .cmd 0, .any 112 1 .cmd 0, .any 113 1 .cmd 0, .any 114 1 .cmd 0, .any 115 13 .rsv 0, .any 128 96 .cmd 0, .any 224 32 .rsv 0]⟩,
  ⟨.tvStatus, 0x21000007, [(1, 4)], .u16, 2, 2, 4, 0, 0, [.any 0 1 .ro 0, .any 1 1 .ro 0, .any 2 1 .rc 0, .any 3 13 .rsv 0]⟩,
  ⟨.tvLastApply, 0x21000008, [(1, 4)], .u64, 8, 8, 4, 0, 0, [.any 0 64 .ro 0]⟩,
  ⟨.ptpPortCfg, 0x22000001, [(1, 2)], .u64, 8, 8, 4, 2, 0, [.any 0 1 .rw 0, .rng 1 3 .rw 3 0 4, .rng 4 8 .rw 0 0 127, .any 12 1 .rw 0, .any 13 1 .rw 0, .any 14 1 .rw 0, .any 15 1 .rw 0, .any 16 4 .rw 1, .any 20 4 .rw 13, .any 24 4 .rw 0, .any 28 4 .rw 3, .any 32 8 .rw 128, .any 40 8 .rw 128, .any 48 2 .rw 0, .any 50 14 .rsv 0]⟩,
  ⟨.ptpExtDelay, 0x22000002, [(1, 2)], .blob, 8, 8, 4, 2, 0, [.any 0 32 .rw 0, .any 32 32 .rw 0]⟩]

/-- Dictionary descriptors, part 2. -/
def entTable2 : List EntDesc := [
  ⟨.ptpServoCfg, 0x22000003, [(1, 2)], .u64, 8, 8, 4, 2, 0, [.rng 0 16 .rw 1000 10 4000, .rng 16 12 .rw 707 500 2000, .rng 28 2 .rw 1 0 2, .any 30 2 .rsv 0, .rng 32 16 .rw 20 1 65535, .rng 48 10 .rw 200 1 1000, .rng 58 3 .rw 4 0 6, .any 61 3 .rsv 0]⟩,
  ⟨.ptpPortStatus, 0x22000004, [(1, 2)], .u32, 4, 4, 4, 0, 0, [.any 0 4 .ro 3, .any 4 3 .ro 0, .any 7 1 .ro 0, .any 8 1 .ro 0, .any 9 23 .rsv 0]⟩,
  ⟨.ptpOffset, 0x22000005, [(1, 2)], .i32, 4, 4, 4, 0, 0, [.any 0 32 .ro 0]⟩,
  ⟨.ptpPathDelay, 0x22000006, [(1, 2)], .u32, 4, 4, 4, 0, 0, [.any 0 32 .ro 0]⟩,
  ⟨.ptpParent, 0x22000007, [(1, 2)], .blob, 32, 32, 4, 0, 0, [.any 0 64 .ro 0, .any 64 8 .ro 0, .any 72 8 .ro 0, .any 80 8 .ro 0, .any 88 16 .ro 0, .any 104 8 .ro 0, .any 112 16 .ro 0, .any 128 16 .ro 0, .any 144 8 .ro 0, .any 152 8 .ro 0, .any 160 80 .ro 0, .any 240 16 .rsv 0]⟩,
  ⟨.ptpLocalQuality, 0x22000008, [(1, 2)], .u64, 8, 8, 4, 2, 0, [.any 0 8 .rw 248, .any 8 8 .rw 254, .any 16 16 .rw 65535, .any 32 8 .rw 160, .any 40 16 .rw 37, .any 56 6 .rw 8, .any 62 2 .rsv 0]⟩,
  ⟨.ptpClockId, 0x22000009, [(1, 2)], .u64, 8, 8, 4, 1, 0, [.any 0 64 .rw 0]⟩,
  ⟨.ptpBc, 0x23000001, [], .bool, 1, 1, 4, 2, 0, [.any 0 1 .rw 0]⟩,
  ⟨.ttCtrl, 0x24000001, [(1, 32)], .u32, 4, 4, 4, 3, 0, [.any 0 1 .rw 0, .any 1 2 .rw 0, .rng 3 5 .rw 0 0 6, .any 8 16 .rw 0, .any 24 8 .rsv 0]⟩,
  ⟨.ttTarget, 0x24000002, [(1, 32)], .time, 12, 12, 4, 3, 0, [.any 0 96 .rw 0]⟩,
  ⟨.ttPeriod, 0x24000003, [(1, 32)], .u64, 8, 8, 4, 3, 0, [.any 0 64 .rw 0]⟩,
  ⟨.ttStatus, 0x24000004, [(1, 32)], .u32, 4, 4, 4, 0, 0, [.any 0 1 .ro 0, .any 1 1 .rc 0, .any 2 14 .rsv 0, .any 16 16 .ro 0]⟩,
  ⟨.ttLast, 0x24000005, [(1, 32)], .u64, 8, 8, 4, 0, 0, [.any 0 64 .ro 0]⟩,
  ⟨.trigOutCfg, 0x26000001, [(1, 4)], .u32, 4, 4, 4, 3, 0, [.any 0 2 .rw 0, .any 2 1 .rw 0, .any 3 5 .rsv 0, .rng 8 24 .rw 1 1 16777215]⟩,
  ⟨.evtCfg, 0x25000001, [(1, 4)], .u32, 4, 4, 4, 3, 0, [.any 0 2 .rw 0, .any 2 2 .rw 0, .any 4 1 .rw 0, .any 5 3 .rw 3, .any 8 8 .rsv 0, .any 16 16 .ro 0]⟩,
  ⟨.evtCapture, 0x25000002, [(1, 4)], .blob, 24, 24, 3, 0, 0, [.any 0 96 .rc 0, .any 96 66 .rc 0, .any 162 1 .rc 0, .any 163 1 .rc 0, .any 164 12 .rsv 0, .any 176 8 .rc 0, .any 184 8 .rsv 0]⟩,
  ⟨.refCfg, 0x11000001, [(1, 10)], .u32, 4, 4, 4, 2, 0, [.any 0 1 .rw 0, .any 1 4 .rw 0, .any 5 2 .rw 2, .rng 7 3 .rw 5 1 6, .any 10 4 .rw 0, .any 14 4 .rw 1, .any 18 1 .rw 0, .any 19 6 .rw 0, .any 25 7 .rsv 0]⟩,
  ⟨.refMonCfg, 0x11000002, [(1, 10)], .u64, 8, 8, 4, 2, 0, [.rng 0 7 .rw 8 1 64, .rng 7 17 .rw 4000 100 49900, .rng 24 17 .rw 9500 0 50000, .rng 41 6 .rw 10 1 60, .rng 47 10 .rw 300 0 720, .any 57 7 .rsv 0]⟩,
  ⟨.refStatus, 0x11000003, [(1, 10)], .u32, 4, 4, 4, 0, 0, [.any 0 3 .ro 0, .any 3 1 .ro 0, .any 4 1 .ro 0, .any 5 1 .ro 0, .any 6 1 .ro 0, .any 7 3 .ro 0, .any 10 4 .ro 0, .any 14 8 .ro 0, .any 22 10 .ro 0]⟩,
  ⟨.refFreq, 0x11000004, [(1, 10)], .i32, 4, 4, 4, 0, 0, [.any 0 32 .ro 0]⟩]

/-- Dictionary descriptors, part 3. -/
def entTable3 : List EntDesc := [
  ⟨.refCmd, 0x11000005, [(1, 10)], .u8, 1, 1, 0, 2, 0, [.rng 0 8 .cmd 0 1 2]⟩,
  ⟨.hearthCtrl, 0x10000001, [], .u32, 4, 4, 4, 2, 0, [.rng 0 3 .rw 2 0 4, .any 3 1 .rw 0, .any 4 4 .rw 15, .rng 8 3 .rw 5 1 5, .any 11 1 .rsv 0, .rng 12 12 .rw 60 1 3600, .any 24 8 .rsv 0]⟩,
  ⟨.hearthStatus, 0x10000002, [], .u32, 4, 4, 4, 0, 0, [.any 0 2 .ro 0, .any 2 4 .ro 15, .any 6 3 .ro 0, .any 9 1 .ro 0, .any 10 1 .ro 0, .any 11 1 .ro 0, .any 12 1 .ro 0, .any 13 4 .ro 11, .any 17 8 .ro 248, .any 25 7 .rsv 0]⟩,
  ⟨.dpllCfg, 0x10000003, [], .u32, 4, 4, 4, 2, 0, [.rng 0 14 .rw 100 10 10000, .rng 14 10 .rw 100 1 500, .any 24 8 .rsv 0]⟩,
  ⟨.holdoverCfg, 0x10000004, [], .u64, 8, 8, 4, 2, 0, [.rng 0 12 .rw 300 10 3600, .rng 12 10 .rw 60 0 600, .rng 22 17 .rw 600 0 86400, .any 39 1 .rsv 0, .any 40 24 .rw 0]⟩,
  ⟨.dpllFreq, 0x10000005, [], .i32, 4, 4, 4, 0, 0, [.any 0 32 .ro 0]⟩,
  ⟨.histFreq, 0x10000006, [], .i32, 4, 4, 4, 0, 0, [.any 0 32 .ro 0]⟩,
  ⟨.hearthCmd, 0x10000007, [], .u8, 1, 1, 0, 2, 0, [.rng 0 8 .cmd 0 1 1]⟩,
  ⟨.switchCount, 0x10000008, [], .u32, 4, 4, 4, 0, 2, [.any 0 32 .rc 0]⟩,
  ⟨.wclkOutCfg, 0x13000001, [(1, 2)], .u16, 2, 2, 4, 2, 0, [.rng 0 2 .rw 0 0 2, .any 2 2 .rw 0, .any 4 12 .rsv 0]⟩,
  ⟨.ppsOutCfg, 0x13000201, [], .u32, 4, 4, 4, 2, 0, [.any 0 1 .rw 0, .any 1 2 .rw 0, .any 3 1 .rw 0, .rng 4 26 .rw 12500000 1 62500000, .any 30 2 .rsv 0]⟩,
  ⟨.synceOutCfg, 0x13000301, [], .u8, 1, 1, 4, 2, 0, [.any 0 2 .rw 0, .any 2 6 .rsv 0]⟩,
  ⟨.outSlewStatus, 0x13000401, [], .u8, 1, 1, 4, 0, 0, [.any 0 1 .ro 0, .any 1 1 .ro 0, .any 2 1 .ro 0, .any 3 1 .ro 0, .any 4 4 .rsv 0]⟩,
  ⟨.mdCtrl, 0x12000001, [(1, 4)], .u8, 1, 1, 4, 2, 0, [.any 0 1 .rw 1, .rng 1 3 .rw 1 0 5, .any 4 4 .rsv 0]⟩,
  ⟨.portCfg, 0x30000001, [(4096, 2)], .u16, 2, 2, 4, 2, 0, [.any 0 1 .rw 0, .any 1 1 .rw 0, .any 2 2 .rw 0, .any 4 1 .rw 0, .any 5 1 .rw 0, .any 6 10 .rsv 0]⟩,
  ⟨.portSerdesTx, 0x30000002, [(4096, 2)], .u32, 4, 4, 4, 2, 0, [.rng 0 5 .rw 4 0 24, .rng 5 5 .rw 8 0 24, .rng 10 6 .rw 40 20 50, .any 16 16 .rsv 0]⟩,
  ⟨.portStatus, 0x30000003, [(4096, 3)], .u16, 2, 2, 4, 0, 0, [.any 0 1 .ro 0, .any 1 2 .ro 0, .any 3 1 .ro 0, .any 4 1 .ro 0, .any 5 1 .ro 0, .any 6 1 .ro 0, .any 7 1 .ro 0, .any 8 1 .ro 0, .any 9 7 .rsv 0]⟩,
  ⟨.portMac, 0x30000004, [(4096, 3)], .u64, 8, 8, 4, 1, 0, [.any 0 48 .rw 0, .any 48 16 .rsv 0]⟩,
  ⟨.portIpv4, 0x30000005, [(4096, 3)], .u32, 4, 4, 4, 2, 0, [.any 0 32 .rw 0]⟩,
  ⟨.frameCfg, 0x30000006, [(4096, 3)], .u32, 4, 4, 4, 2, 0, [.any 0 1 .rw 1, .any 1 1 .rw 0, .any 2 1 .rw 1, .any 3 1 .rw 1, .any 4 1 .rw 0, .any 5 1 .rw 0, .any 6 10 .rsv 0, .rng 16 14 .rw 9216 1519 9216, .any 30 2 .rsv 0]⟩]

/-- Dictionary descriptors, part 4. -/
def entTable4 : List EntDesc := [
  ⟨.mcFilter, 0x30030001, [(4096, 3), (1, 32)], .u64, 8, 8, 4, 2, 0, [.any 0 48 .rw 0, .any 48 1 .rw 0, .any 49 15 .rsv 0]⟩,
  ⟨.txqSend, 0x30010001, [(4096, 3), (1, 8)], .blob, 18, 65540, 0, 3, 0, [.any 0 14 .cmd 0, .any 14 15 .rsv 0, .any 29 1 .cmd 0, .any 30 1 .cmd 0, .any 31 1 .rsv 0, .any 32 0 .cmd 0]⟩,
  ⟨.txqStatus, 0x30010002, [(4096, 3), (1, 8)], .u32, 4, 4, 4, 0, 0, [.any 0 6 .ro 0, .any 6 17 .ro 0, .any 23 1 .ro 0, .any 24 8 .rsv 0]⟩,
  ⟨.txqPfcClass, 0x30010003, [(4096, 2), (1, 8)], .u8, 1, 1, 4, 2, 0, [.any 0 3 .rw 7, .any 3 5 .rsv 0]⟩,
  ⟨.pauseCfg, 0x30000007, [(4096, 3)], .u32, 4, 4, 4, 2, 0, [.rng 0 2 .rw 1 0 2, .any 2 1 .rw 1, .any 3 5 .rsv 0, .rng 8 10 .rw 10 1 1000, .rng 18 14 .rw 1000 10 10000]⟩,
  ⟨.esmcStatus, 0x30000008, [(4096, 2)], .u32, 4, 4, 4, 0, 0, [.any 0 4 .ro 0, .any 4 8 .ro 0, .any 12 1 .ro 0, .any 13 1 .ro 0, .any 14 2 .rsv 0, .any 16 8 .ro 0, .any 24 8 .rsv 0]⟩,
  ⟨.mCfg, 0x30200001, [], .u16, 2, 2, 4, 2, 0, [.any 0 1 .rw 1, .any 1 1 .rw 1, .rng 2 2 .rw 2 0 2, .any 4 1 .rw 1, .any 5 1 .rw 0, .any 6 1 .rw 0, .any 7 9 .rsv 0]⟩,
  ⟨.rxrFrame, 0x30020001, [(4096, 3)], .blob, 4, 9216, 3, 0, 0, [.any 0 16 .ro 0, .any 16 14 .ro 0, .any 30 1 .ro 0, .any 31 1 .rsv 0, .any 32 0 .ro 0]⟩,
  ⟨.rxrRelease, 0x30020002, [(4096, 3)], .u16, 2, 2, 0, 3, 0, [.any 0 16 .cmd 0]⟩,
  ⟨.rxrStatus, 0x30020003, [(4096, 3)], .u16, 2, 2, 4, 0, 0, [.any 0 7 .ro 64, .any 7 7 .ro 0, .any 14 2 .rsv 0]⟩,
  ⟨.rxCtrl, 0x40000001, [(1, 256)], .u32, 4, 4, 4, 3, 0, [.any 0 1 .rw 0, .any 1 1 .rw 0, .rng 2 2 .rw 1 1 3, .any 4 1 .rw 0, .any 5 2 .rw 0, .any 7 2 .rw 0, .any 9 2 .rw 1, .rng 11 3 .rw 3 0 4, .rng 14 7 .rw 2 1 64, .rng 21 2 .rw 2 0 2, .any 23 1 .rw 0, .rng 24 8 .rw 8 0 255]⟩,
  ⟨.rxPtSsrc, 0x40000002, [(1, 256)], .u64, 8, 8, 4, 3, 0, [.any 0 7 .rw 96, .any 7 25 .rsv 0, .any 32 32 .rw 0]⟩,
  ⟨.rxAddrA, 0x40000003, [(1, 256)], .blob, 12, 12, 4, 3, 0, [.any 0 32 .rw 0, .any 32 16 .rw 5004, .any 48 32 .rw 0, .any 80 16 .rsv 0]⟩,
  ⟨.rxAddrB, 0x40000004, [(1, 256)], .blob, 12, 12, 4, 3, 0, [.any 0 32 .rw 0, .any 32 16 .rw 5004, .any 48 32 .rw 0, .any 80 16 .rsv 0]⟩,
  ⟨.rxTiming, 0x40000005, [(1, 256)], .u32, 4, 4, 4, 3, 0, [.rng 0 13 .rw 48 1 6144, .any 13 19 .rsv 0]⟩,
  ⟨.rxTsOffset, 0x40000006, [(1, 256)], .u32, 4, 4, 4, 3, 0, [.any 0 32 .rw 0]⟩,
  ⟨.rxStatus, 0x40000007, [(1, 256)], .u32, 4, 4, 4, 0, 0, [.any 0 3 .ro 0, .any 3 1 .ro 0, .any 4 1 .ro 0, .any 5 27 .rsv 0]⟩,
  ⟨.rxCursor, 0x40000008, [(1, 256)], .u64, 8, 8, 4, 0, 0, [.any 0 32 .ro 0, .any 32 16 .ro 0, .any 48 16 .rsv 0]⟩,
  ⟨.rxNa, 0x40000009, [(1, 256)], .u64, 8, 8, 4, 0, 0, [.any 0 64 .ro 0]⟩,
  ⟨.txCtrl, 0x41000001, [(1, 256)], .u32, 4, 4, 4, 3, 0, [.any 0 1 .rw 0, .any 1 1 .rw 0, .rng 2 2 .rw 1 1 3, .any 4 1 .rw 0, .any 5 2 .rw 0, .any 7 2 .rw 0, .any 9 2 .rw 1, .rng 11 3 .rw 3 0 4, .rng 14 7 .rw 2 1 64, .any 21 1 .rw 0, .any 22 2 .rsv 0, .any 24 8 .rw 8]⟩]

/-- Dictionary descriptors, part 5. -/
def entTable5 : List EntDesc := [
  ⟨.txRtp, 0x41000002, [(1, 256)], .u64, 8, 8, 4, 3, 0, [.any 0 7 .rw 96, .any 7 1 .rsv 0, .rng 8 4 .rw 1 0 15, .any 12 20 .rsv 0, .any 32 32 .rw 0]⟩,
  ⟨.txAddrA, 0x41000003, [(1, 256)], .blob, 16, 16, 4, 3, 0, [.any 0 32 .rw 0, .any 32 16 .rw 5004, .any 48 16 .rw 5004, .any 64 48 .rw 0, .any 112 16 .rsv 0]⟩,
  ⟨.txAddrB, 0x41000004, [(1, 256)], .blob, 16, 16, 4, 3, 0, [.any 0 32 .rw 0, .any 32 16 .rw 5004, .any 48 16 .rw 5004, .any 64 48 .rw 0, .any 112 16 .rsv 0]⟩,
  ⟨.txQos, 0x41000005, [(1, 256)], .u32, 4, 4, 4, 3, 0, [.any 0 6 .rw 34, .any 6 2 .rsv 0, .rng 8 8 .rw 32 1 255, .any 16 12 .rw 0, .any 28 3 .rw 4, .any 31 1 .rsv 0]⟩,
  ⟨.txTsOffset, 0x41000006, [(1, 256)], .u32, 4, 4, 4, 3, 0, [.any 0 32 .rw 0]⟩,
  ⟨.txStatus, 0x41000007, [(1, 256)], .u32, 4, 4, 4, 0, 0, [.any 0 3 .ro 0, .any 3 13 .rsv 0, .any 16 16 .ro 0]⟩,
  ⟨.seCfg, 0x44000001, [], .u16, 2, 2, 4, 2, 0, [.rng 0 11 .rw 250 20 2000, .any 11 5 .rsv 0]⟩,
  ⟨.seLoad, 0x44000002, [], .u32, 4, 4, 4, 0, 0, [.any 0 12 .ro 0, .any 12 12 .ro 0, .any 24 8 .rsv 0]⟩,
  ⟨.jbFree, 0x44000003, [], .u32, 4, 4, 4, 0, 0, [.any 0 32 .ro 0]⟩,
  ⟨.tdmPortCfg, 0x50000001, [(1, 48)], .u8, 1, 1, 4, 2, 0, [.any 0 1 .rw 0, .any 1 2 .rw 0, .any 3 1 .rw 0, .rng 4 3 .rw 1 0 5, .any 7 1 .rsv 0]⟩,
  ⟨.bankCfg, 0x53000001, [(1, 4)], .u8, 1, 1, 4, 2, 0, [.any 0 2 .rw 1, .any 2 1 .rw 1, .any 3 5 .rsv 0]⟩,
  ⟨.bankStatus, 0x53000002, [(1, 4)], .u8, 1, 1, 4, 0, 0, [.any 0 2 .ro 0, .any 2 6 .rsv 0]⟩,
  ⟨.sideCtrl, 0x51000001, [(256, 48), (1, 2)], .u32, 4, 4, 4, 3, 0, [.any 0 1 .rw 0, .any 1 1 .rw 0, .any 2 1 .rw 0, .rng 3 2 .rw 2 0 2, .any 5 1 .rw 0, .any 6 1 .rw 0, .rng 7 4 .rw 7 0 11, .rng 11 6 .rw 32 8 32, .rng 17 6 .rw 8 1 32, .any 23 6 .rw 1, .any 29 3 .rsv 0]⟩,
  ⟨.sideTiming, 0x51000002, [(256, 48), (1, 2)], .u32, 4, 4, 4, 3, 0, [.rng 0 10 .rw 0 0 1023, .rng 10 8 .rw 16 0 255, .rng 18 8 .rw 16 0 255, .any 26 6 .rsv 0]⟩,
  ⟨.slotMask, 0x51000003, [(256, 48), (1, 2)], .u64, 8, 8, 4, 3, 0, [.any 0 32 .rw 0, .any 32 32 .rw 0]⟩,
  ⟨.maskCommit, 0x51000004, [(256, 48), (1, 2)], .u8, 1, 1, 0, 3, 0, [.rng 0 8 .cmd 0 1 1]⟩,
  ⟨.maskActive, 0x51000005, [(256, 48), (1, 2)], .u64, 8, 8, 4, 0, 0, [.any 0 64 .ro 0]⟩,
  ⟨.sideStatus, 0x51000006, [(256, 48), (1, 2)], .u32, 4, 4, 4, 0, 0, [.any 0 3 .ro 0, .any 3 1 .ro 0, .any 4 1 .ro 0, .any 5 1 .ro 0, .any 6 1 .ro 0, .any 7 1 .rsv 0, .any 8 11 .ro 0, .any 19 13 .rsv 0]⟩,
  ⟨.sidePhase, 0x51000007, [(256, 48), (1, 2)], .u32, 4, 4, 4, 0, 0, [.any 0 24 .ro 0, .any 24 8 .rsv 0]⟩,
  ⟨.asrcCfg, 0x60000001, [(1, 64)], .u32, 4, 4, 4, 3, 0, [.any 0 1 .rw 0, .any 1 1 .rw 0, .any 2 2 .rw 0, .any 4 1 .rw 0, .any 5 2 .rw 1, .rng 7 6 .rw 0 0 47, .any 13 1 .rw 0, .rng 14 5 .rw 0 0 24, .rng 19 6 .rw 0 0 47, .any 25 1 .rw 0, .rng 26 5 .rw 0 0 24, .any 31 1 .rw 0]⟩]

/-- Dictionary descriptors, part 6. -/
def entTable6 : List EntDesc := [
  ⟨.asrcTrack, 0x60000002, [(1, 64)], .u16, 2, 2, 4, 3, 0, [.rng 0 15 .rw 1000 100 20000, .any 15 1 .rsv 0]⟩,
  ⟨.asrcStatus, 0x60000003, [(1, 64)], .u16, 2, 2, 4, 0, 0, [.any 0 2 .ro 0, .any 2 1 .ro 0, .any 3 3 .ro 0, .any 6 10 .rsv 0]⟩,
  ⟨.asrcRatio, 0x60000004, [(1, 64)], .u64, 8, 8, 4, 0, 0, [.any 0 32 .ro 0, .any 32 32 .ro 0]⟩,
  ⟨.asrcDelay, 0x60000005, [(1, 64)], .u32, 4, 4, 4, 0, 0, [.any 0 32 .ro 0]⟩,
  ⟨.gain, 0x80000001, [(1, 1048576)], .gain24, 3, 3, 4, 3, 0, [.any 0 24 .rw 0]⟩,
  ⟨.gainActive, 0x80000002, [(1, 1048576)], .gain24, 3, 3, 4, 0, 0, [.any 0 24 .ro 0]⟩,
  ⟨.hallCfg, 0x90000001, [], .u8, 1, 1, 4, 2, 0, [.any 0 1 .rw 0, .any 1 2 .rw 0, .any 3 1 .rw 1, .any 4 4 .rsv 0]⟩,
  ⟨.hallCommit, 0x90000002, [], .u8, 1, 1, 0, 3, 0, [.any 0 2 .cmd 0, .any 2 6 .rsv 0]⟩,
  ⟨.hallStatus, 0x90000003, [], .u64, 8, 8, 4, 0, 0, [.any 0 11 .ro 0, .any 11 11 .ro 0, .any 22 11 .ro 0, .any 33 11 .ro 1024, .any 44 1 .ro 0, .any 45 11 .ro 0, .any 56 8 .rsv 0]⟩,
  ⟨.tileCmd, 0x91000001, [(1, 1024)], .u8, 1, 1, 0, 3, 0, [.rng 0 2 .cmd 0 1 2, .any 2 2 .cmd 0, .any 4 4 .rsv 0]⟩,
  ⟨.tileStatus, 0x91000002, [(1, 1024)], .u32, 4, 4, 4, 0, 0, [.any 0 3 .ro 0, .any 3 1 .ro 0, .any 4 1 .ro 0, .any 5 1 .ro 0, .any 6 1 .ro 1, .any 7 1 .ro 1, .any 8 8 .ro 0, .any 16 1 .ro 0, .any 17 15 .rsv 0]⟩,
  ⟨.tileCsum, 0x91000003, [(1, 1024)], .u64, 8, 8, 4, 0, 0, [.any 0 32 .ro 0, .any 32 32 .ro 0]⟩,
  ⟨.tileShadow, 0x91000004, [(1, 1024)], .blob, 3072, 3072, 4, 3, 0, [.any 0 24576 .rw 0]⟩,
  ⟨.outSat, 0x93000001, [(1, 1024)], .u32, 4, 4, 4, 0, 2, [.any 0 32 .rc 0]⟩,
  ⟨.roomCtrl, 0xA0000001, [(256, 18)], .u32, 4, 4, 4, 2, 0, [.any 0 1 .rw 0, .any 1 1 .rw 0, .any 2 1 .rw 0, .any 3 2 .rw 0, .rng 5 3 .rw 0 0 5, .any 8 5 .rw 0, .any 13 5 .rw 0, .any 18 4 .rw 1, .rng 22 4 .rw 4 1 15, .any 26 1 .rw 0, .any 27 5 .rsv 0]⟩,
  ⟨.roomEntry, 0xA0000002, [(256, 18)], .u32, 4, 4, 4, 2, 0, [.any 0 13 .rw 0, .any 13 3 .rsv 0, .any 16 13 .rw 64, .any 29 3 .rsv 0]⟩,
  ⟨.roomStatus, 0xA0000003, [(256, 18)], .u32, 4, 4, 4, 0, 0, [.any 0 3 .ro 0, .any 3 1 .ro 0, .any 4 1 .ro 0, .any 5 1 .rc 0, .any 6 1 .ro 0, .any 7 1 .ro 0, .any 8 13 .ro 0, .any 21 1 .ro 0, .any 22 10 .rsv 0]⟩,
  ⟨.roomLast, 0xA0000004, [(256, 18)], .u64, 8, 8, 4, 0, 0, [.any 0 32 .ro 0, .any 32 32 .ro 0]⟩,
  ⟨.roomMboxIn, 0xA0000005, [(256, 18)], .u32, 4, 4, 0, 3, 0, [.any 0 32 .wo 0]⟩,
  ⟨.roomMboxOut, 0xA0000006, [(256, 18)], .u32, 4, 4, 4, 0, 0, [.any 0 32 .ro 0]⟩]

/-- Dictionary descriptors, part 7. -/
def entTable7 : List EntDesc := [
  ⟨.roomCmd, 0xA0000007, [(256, 18)], .u8, 1, 1, 0, 2, 0, [.rng 0 8 .cmd 0 1 1]⟩,
  ⟨.roomLoad, 0xA0000101, [(256, 18)], .blob, 12, 6152, 0, 2, 0, [.rng 0 2 .cmd 0 0 2, .any 2 6 .rsv 0, .rng 8 8 .cmd 0 1 1, .any 16 14 .cmd 0, .any 30 2 .rsv 0, .rng 32 11 .cmd 0 1 1024, .any 43 21 .rsv 0, .any 64 0 .cmd 0]⟩,
  ⟨.roomFetchAddr, 0xA0000201, [(256, 18)], .u32, 4, 4, 4, 2, 0, [.rng 0 2 .rw 1 0 2, .any 2 6 .rsv 0, .any 8 14 .rw 0, .rng 22 9 .rw 1 1 256, .any 31 1 .rsv 0]⟩,
  ⟨.roomFetch, 0xA0000202, [(256, 18)], .blob, 4, 1536, 2, 0, 0, [.any 0 0 .ro 0]⟩,
  ⟨.roomIsa, 0xA2000001, [], .u32, 4, 4, 4, 0, 0, [.any 0 8 .ro 1, .any 8 8 .ro 8, .any 16 8 .ro 1, .any 24 8 .rsv 0]⟩,
  ⟨.guestCfg, 0xB0000001, [], .u32, 4, 4, 4, 2, 0, [.any 0 1 .rw 1, .any 1 1 .rw 0, .any 2 6 .rsv 0, .rng 8 10 .rw 64 8 1023, .any 18 14 .rsv 0]⟩,
  ⟨.guestStatus, 0xB0000002, [], .u32, 4, 4, 4, 0, 0, [.any 0 5 .ro 16, .any 5 5 .ro 31, .any 10 3 .ro 1, .any 13 5 .ro 17, .any 18 5 .ro 31, .any 23 3 .ro 1, .any 26 6 .rsv 0]⟩,
  ⟨.coreStatus, 0xB0000003, [], .u64, 8, 8, 4, 0, 0, [.any 0 36 .ro 1, .any 36 28 .rsv 0]⟩,
  ⟨.guestCmd, 0xB0000004, [], .u16, 2, 2, 0, 2, 0, [.rng 0 4 .cmd 0 1 2, .any 4 4 .rsv 0, .any 8 5 .cmd 0, .any 13 3 .rsv 0]⟩,
  ⟨.roomGuard, 0xB1000001, [(1, 18)], .u16, 2, 2, 4, 2, 0, [.rng 0 2 .rw 1 0 2, .any 2 1 .rw 0, .rng 3 10 .rw 10 1 1000, .any 13 3 .rsv 0]⟩,
  ⟨.roomGuardStatus, 0xB1000002, [(1, 18)], .u64, 8, 8, 4, 0, 0, [.any 0 5 .ro 0, .any 5 1 .ro 0, .any 6 1 .ro 0, .any 7 1 .ro 0, .any 8 16 .ro 0, .any 24 17 .ro 0, .any 41 23 .rsv 0]⟩,
  ⟨.tempStatus, 0xB4000001, [], .u16, 2, 2, 4, 0, 0, [.any 0 12 .ro 0, .any 12 3 .ro 0, .any 15 1 .rsv 0]⟩,
  ⟨.monCfg, 0xB4000002, [], .u32, 4, 4, 4, 2, 0, [.rng 0 8 .rw 100 60 105, .rng 8 8 .rw 110 0 125, .rng 16 4 .rw 5 2 10, .any 20 12 .rsv 0]⟩,
  ⟨.supplyMv, 0xB4100001, [(1, 11)], .u16, 2, 2, 4, 0, 0, [.any 0 16 .ro 0]⟩,
  ⟨.cellarPart, 0xC0000001, [], .u32, 4, 4, 4, 2, 0, [.any 0 9 .rw 208, .any 9 9 .rw 32, .any 18 9 .rw 16, .any 27 1 .rw 0, .any 28 4 .rsv 0]⟩,
  ⟨.cellarFree, 0xC0000002, [], .u64, 8, 8, 4, 0, 0, [.any 0 16 .ro 2048, .any 16 16 .ro 1024, .any 32 16 .ro 0, .any 48 16 .rsv 0]⟩,
  ⟨.dlyCfg, 0xC2000001, [(1, 1024)], .u64, 8, 8, 4, 3, 0, [.any 0 1 .rw 0, .any 1 1 .rw 0, .any 2 6 .rsv 0, .any 8 24 .rw 7340032, .rng 32 21 .rw 48 1 2097151, .any 53 11 .rsv 0]⟩,
  ⟨.dlyTime, 0xC2000002, [(1, 1024)], .u32, 4, 4, 4, 3, 0, [.rng 0 21 .rw 1 1 2097151, .any 21 11 .rsv 0]⟩,
  ⟨.recCfg, 0xC3000001, [], .u64, 8, 8, 4, 3, 0, [.rng 0 2 .rw 0 0 2, .any 2 1 .rw 0, .any 3 1 .rw 0, .any 4 2 .rw 0, .rng 6 7 .rw 1 1 64, .any 13 3 .rsv 0, .rng 16 24 .rw 48000 1 16777215, .any 40 24 .rsv 0]⟩,
  ⟨.recStart, 0xC3000002, [], .u64, 8, 8, 4, 3, 0, [.any 0 64 .rw 0]⟩]

/-- Dictionary descriptors, part 8. -/
def entTable8 : List EntDesc := [
  ⟨.recStatus, 0xC3000003, [], .u64, 8, 8, 4, 0, 0, [.any 0 2 .ro 0, .any 2 24 .ro 0, .any 26 38 .rsv 0]⟩,
  ⟨.recFirst, 0xC3000004, [], .u64, 8, 8, 4, 0, 0, [.any 0 64 .ro 0]⟩,
  ⟨.recReadAddr, 0xC3000005, [], .u32, 4, 4, 4, 3, 0, [.any 0 24 .rw 0, .rng 24 6 .rw 1 1 32, .any 30 2 .rsv 0]⟩,
  ⟨.recData, 0xC3000006, [], .blob, 4, 8192, 3, 0, 0, [.any 0 0 .ro 0]⟩,
  ⟨.recSrc, 0xC3010001, [(1, 64)], .u32, 4, 4, 4, 3, 0, [.any 0 32 .rw 0]⟩,
  ⟨.ddrCfg, 0xC1000001, [], .u16, 2, 2, 4, 2, 0, [.any 0 1 .rw 0, .rng 1 3 .rw 4 0 4, .rng 4 2 .rw 1 0 2, .any 6 10 .rsv 0]⟩,
  ⟨.ddrStatus, 0xC1000002, [], .u64, 8, 8, 4, 0, 0, [.any 0 2 .ro 0, .any 2 3 .ro 0, .any 5 11 .rsv 0, .any 16 17 .ro 0, .any 33 31 .rsv 0]⟩,
  ⟨.vendorName, 0x1, [], .str, 0, 255, 4, 0, 0, [.any 0 0 .ro 0]⟩,
  ⟨.partName, 0x2, [], .str, 0, 255, 4, 0, 0, [.any 0 0 .ro 0]⟩,
  ⟨.serial, 0x3, [], .u64, 8, 8, 4, 0, 0, [.any 0 64 .ro 0]⟩,
  ⟨.kdpCfg, 0xD0000001, [], .u32, 4, 4, 4, 2, 0, [.any 0 1 .rw 1, .any 1 1 .rw 0, .any 2 1 .rw 0, .any 3 1 .rw 1, .any 4 4 .rsv 0, .rng 8 8 .rw 16 16 17, .rng 16 8 .rw 17 16 17, .rng 24 8 .rw 60 5 255]⟩,
  ⟨.kdpStatus, 0xD0000002, [], .u32, 4, 4, 4, 0, 0, [.any 0 5 .ro 0, .any 5 3 .rsv 0, .any 8 8 .ro 16, .any 16 8 .ro 17, .any 24 8 .rsv 0]⟩,
  ⟨.key, 0xD1000001, [(1, 8)], .blob, 32, 32, 0, 1, 0, [.any 0 256 .wo 0]⟩,
  ⟨.keyCfg, 0xD1000002, [(1, 8)], .u8, 1, 1, 4, 1, 0, [.any 0 2 .rw 0, .any 2 6 .rsv 0]⟩,
  ⟨.keyStatus, 0xD1000003, [(1, 8)], .bool, 1, 1, 4, 0, 0, [.any 0 1 .ro 0]⟩,
  ⟨.session, 0xD2000001, [(1, 17)], .blob, 16, 16, 2, 0, 0, [.any 0 32 .ro 0, .any 32 3 .ro 0, .any 35 1 .ro 0, .any 36 1 .ro 0, .any 37 2 .ro 0, .any 39 1 .ro 0, .any 40 8 .ro 0, .any 48 16 .ro 0, .any 64 32 .ro 0, .any 96 16 .ro 0, .any 112 3 .ro 0, .any 115 13 .rsv 0]⟩,
  ⟨.sessionClose, 0xD2000002, [(1, 17)], .u8, 1, 1, 0, 2, 0, [.rng 0 8 .cmd 0 1 1]⟩,
  ⟨.saveCmd, 0xD3000001, [], .u8, 1, 1, 0, 2, 0, [.rng 0 2 .cmd 0 1 1, .any 2 1 .cmd 0, .any 3 5 .rsv 0]⟩,
  ⟨.saveStatus, 0xD3000002, [], .u64, 8, 8, 4, 0, 0, [.any 0 2 .ro 0, .any 2 1 .ro 0, .any 3 1 .ro 0, .any 4 3 .ro 0, .any 7 25 .rsv 0, .any 32 32 .ro 0]⟩,
  ⟨.hostIrqCfg, 0xD5000001, [], .u8, 1, 1, 4, 1, 0, [.any 0 1 .rw 1, .any 1 1 .rw 0, .any 2 1 .rw 1, .any 3 1 .rw 1, .any 4 3 .rw 4, .any 7 1 .rsv 0]⟩]

/-- Dictionary descriptors, part 9. -/
def entTable9 : List EntDesc := [
  ⟨.lbStatus, 0xD5100001, [], .u64, 8, 8, 4, 0, 0, [.any 0 1 .ro 0, .any 1 1 .ro 0, .any 2 10 .ro 0, .any 12 10 .ro 0, .any 22 10 .ro 0, .any 32 10 .ro 0, .any 42 8 .ro 0, .any 50 14 .rsv 0]⟩,
  ⟨.lbCmd, 0xD5100002, [], .u8, 1, 1, 0, 1, 0, [.rng 0 8 .cmd 0 1 1]⟩,
  ⟨.lbSubMin, 0xD5200001, [(1, 16)], .u8, 1, 1, 4, 2, 0, [.any 0 3 .rw 0, .any 3 5 .rsv 0]⟩,
  ⟨.lbCodeFilter, 0xD5300001, [(1, 16)], .u32, 4, 4, 4, 2, 0, [.any 0 16 .rw 0, .any 16 3 .rw 0, .any 19 1 .rw 0, .any 20 12 .rsv 0]⟩,
  ⟨.deviceStatus, 0x301, [], .u32, 4, 4, 4, 0, 0, [.any 0 1 .ro 0, .any 1 2 .ro 0, .any 3 2 .ro 0, .any 5 1 .ro 0, .any 6 1 .ro 0, .any 7 1 .ro 0, .any 8 1 .ro 0, .any 9 23 .rsv 0]⟩,
  ⟨.loCfg, 0x302, [], .u16, 2, 2, 4, 1, 0, [.rng 0 4 .rw 0 0 9, .rng 4 8 .rw 0 7 50, .any 12 1 .rw 0, .any 13 3 .rsv 0]⟩,
  ⟨.selftestResult, 0xE0000001, [], .u8, 1, 1, 4, 0, 0, [.any 0 1 .ro 0, .any 1 1 .ro 0, .any 2 1 .ro 0, .any 3 1 .ro 0, .any 4 1 .ro 0, .any 5 1 .ro 0, .any 6 2 .rsv 0]⟩,
  ⟨.tdmLoop, 0xE5000001, [(256, 48)], .u8, 1, 1, 4, 2, 0, [.any 0 2 .rw 0, .any 2 6 .rsv 0]⟩,
  ⟨.portLoop, 0xE3000001, [(4096, 3)], .u8, 1, 1, 4, 2, 0, [.rng 0 3 .rw 0 0 4, .any 3 5 .rsv 0]⟩,
  ⟨.hearthLoop, 0xE1000001, [], .u8, 1, 1, 4, 2, 0, [.any 0 1 .rw 0, .any 1 1 .rw 0, .any 2 6 .rsv 0]⟩,
  ⟨.dwTest, 0xEA000001, [], .blob, 8, 8, 0, 2, 0, [.any 0 5 .cmd 0, .any 5 3 .rsv 0, .rng 8 24 .cmd 0 1 16777215, .rng 32 32 .cmd 0 1 4294967295]⟩,
  ⟨.dwTestStatus, 0xEA000002, [], .u64, 8, 8, 4, 0, 0, [.any 0 2 .ro 0, .any 2 1 .ro 0, .any 3 5 .rsv 0, .any 8 24 .ro 0, .any 32 32 .ro 0]⟩,
  ⟨.ddrTest, 0xEC000001, [], .u8, 1, 1, 0, 2, 0, [.rng 0 8 .cmd 0 1 2]⟩,
  ⟨.ddrTestStatus, 0xEC000002, [], .u64, 8, 8, 4, 0, 0, [.any 0 3 .ro 0, .any 3 5 .rsv 0, .any 8 24 .ro 0, .any 32 32 .ro 0]⟩,
  ⟨.ddrTestDq, 0xEC000003, [], .u32, 4, 4, 4, 0, 0, [.any 0 32 .ro 0]⟩,
  ⟨.hallTest, 0xE9000001, [], .u32, 4, 4, 0, 2, 0, [.any 0 10 .cmd 0, .rng 10 11 .cmd 0 1 1024, .any 21 11 .rsv 0]⟩,
  ⟨.hallTestStatus, 0xE9000002, [], .u64, 8, 8, 4, 0, 0, [.any 0 2 .ro 0, .any 2 11 .ro 0, .any 13 11 .ro 0, .any 24 10 .ro 0, .any 34 6 .ro 0, .any 40 11 .ro 0, .any 51 13 .rsv 0]⟩,
  ⟨.portRxFrames, 0x30040001, [(4096, 3)], .u64, 8, 8, 4, 0, 2, [.any 0 64 .rc 0]⟩,
  ⟨.portRxOctets, 0x30040101, [(4096, 3)], .u64, 8, 8, 4, 0, 2, [.any 0 64 .rc 0]⟩,
  ⟨.portRxRunt, 0x30040201, [(4096, 3)], .u64, 8, 8, 4, 0, 2, [.any 0 64 .rc 0]⟩]

/-- Dictionary descriptors, part 10. -/
def entTable10 : List EntDesc := [
  ⟨.portRxOversize, 0x30040301, [(4096, 3)], .u64, 8, 8, 4, 0, 2, [.any 0 64 .rc 0]⟩,
  ⟨.portRxFcsErr, 0x30040401, [(4096, 3)], .u64, 8, 8, 4, 0, 2, [.any 0 64 .rc 0]⟩,
  ⟨.portRxAlignErr, 0x30040501, [(4096, 3)], .u64, 8, 8, 4, 0, 2, [.any 0 64 .rc 0]⟩,
  ⟨.portRxFiltered, 0x30040601, [(4096, 3)], .u64, 8, 8, 4, 0, 2, [.any 0 64 .rc 0]⟩,
  ⟨.portRxRingDrop, 0x30040701, [(4096, 3)], .u64, 8, 8, 4, 0, 2, [.any 0 64 .rc 0]⟩,
  ⟨.portRxPause, 0x30040801, [(4096, 3)], .u64, 8, 8, 4, 0, 2, [.any 0 64 .rc 0]⟩,
  ⟨.portRxCodeErr, 0x30040901, [(4096, 3)], .u64, 8, 8, 4, 0, 2, [.any 0 64 .rc 0]⟩,
  ⟨.portTxFrames, 0x30040A01, [(4096, 3)], .u64, 8, 8, 4, 0, 2, [.any 0 64 .rc 0]⟩,
  ⟨.portTxOctets, 0x30040B01, [(4096, 3)], .u64, 8, 8, 4, 0, 2, [.any 0 64 .rc 0]⟩,
  ⟨.portTxRefused, 0x30040C01, [(4096, 3)], .u64, 8, 8, 4, 0, 2, [.any 0 64 .rc 0]⟩,
  ⟨.portTxMediaStale, 0x30040D01, [(4096, 3)], .u64, 8, 8, 4, 0, 2, [.any 0 64 .rc 0]⟩,
  ⟨.portTxLinkDrop, 0x30040E01, [(4096, 3)], .u64, 8, 8, 4, 0, 2, [.any 0 64 .rc 0]⟩,
  ⟨.portTxPauseTime, 0x30040F01, [(4096, 3)], .u64, 8, 8, 4, 0, 2, [.any 0 64 .rc 0]⟩,
  ⟨.portPauseWdTrips, 0x30041001, [(4096, 3)], .u64, 8, 8, 4, 0, 2, [.any 0 64 .rc 0]⟩,
  ⟨.portTxSingleColl, 0x30041101, [(4096, 3)], .u64, 8, 8, 4, 0, 2, [.any 0 64 .rc 0]⟩,
  ⟨.portTxMultiColl, 0x30041201, [(4096, 3)], .u64, 8, 8, 4, 0, 2, [.any 0 64 .rc 0]⟩,
  ⟨.portTxLateColl, 0x30041301, [(4096, 3)], .u64, 8, 8, 4, 0, 2, [.any 0 64 .rc 0]⟩,
  ⟨.portTxExcessColl, 0x30041401, [(4096, 3)], .u64, 8, 8, 4, 0, 2, [.any 0 64 .rc 0]⟩,
  ⟨.portTxDeferred, 0x30041501, [(4096, 3)], .u64, 8, 8, 4, 0, 2, [.any 0 64 .rc 0]⟩,
  ⟨.portEsmcRx, 0x30041601, [(4096, 3)], .u64, 8, 8, 4, 0, 2, [.any 0 64 .rc 0]⟩]

/-- Dictionary descriptors, part 11. -/
def entTable11 : List EntDesc := [
  ⟨.portEsmcBad, 0x30041701, [(4096, 3)], .u64, 8, 8, 4, 0, 2, [.any 0 64 .rc 0]⟩,
  ⟨.portFecCorrected, 0x30041801, [(4096, 3)], .u64, 8, 8, 4, 0, 2, [.any 0 64 .rc 0]⟩,
  ⟨.portFecUncorrected, 0x30041901, [(4096, 3)], .u64, 8, 8, 4, 0, 2, [.any 0 64 .rc 0]⟩,
  ⟨.portLinkDowns, 0x30041A01, [(4096, 3)], .u64, 8, 8, 4, 0, 2, [.any 0 64 .rc 0]⟩,
  ⟨.rxRxPkts, 0x42000001, [(256, 256)], .u64, 8, 8, 4, 0, 2, [.any 0 64 .rc 0]⟩,
  ⟨.rxRxPktsA, 0x42000101, [(256, 256)], .u64, 8, 8, 4, 0, 2, [.any 0 64 .rc 0]⟩,
  ⟨.rxRxPktsB, 0x42000201, [(256, 256)], .u64, 8, 8, 4, 0, 2, [.any 0 64 .rc 0]⟩,
  ⟨.rxRxDup, 0x42000301, [(256, 256)], .u64, 8, 8, 4, 0, 2, [.any 0 64 .rc 0]⟩,
  ⟨.rxRxMismatch, 0x42000401, [(256, 256)], .u64, 8, 8, 4, 0, 2, [.any 0 64 .rc 0]⟩,
  ⟨.rxRxLate, 0x42000501, [(256, 256)], .u64, 8, 8, 4, 0, 2, [.any 0 64 .rc 0]⟩,
  ⟨.rxRxEarly, 0x42000601, [(256, 256)], .u64, 8, 8, 4, 0, 2, [.any 0 64 .rc 0]⟩,
  ⟨.rxRxBad, 0x42000701, [(256, 256)], .u64, 8, 8, 4, 0, 2, [.any 0 64 .rc 0]⟩,
  ⟨.rxRxSeqGapA, 0x42000801, [(256, 256)], .u64, 8, 8, 4, 0, 2, [.any 0 64 .rc 0]⟩,
  ⟨.rxRxSeqGapB, 0x42000901, [(256, 256)], .u64, 8, 8, 4, 0, 2, [.any 0 64 .rc 0]⟩,
  ⟨.rxRxLost, 0x42000A01, [(256, 256)], .u64, 8, 8, 4, 0, 2, [.any 0 64 .rc 0]⟩,
  ⟨.rxRxUnderrunTicks, 0x42000B01, [(256, 256)], .u64, 8, 8, 4, 0, 2, [.any 0 64 .rc 0]⟩,
  ⟨.rxRxUnderruns, 0x42000C01, [(256, 256)], .u64, 8, 8, 4, 0, 2, [.any 0 64 .rc 0]⟩,
  ⟨.rxRxRetimes, 0x42000D01, [(256, 256)], .u64, 8, 8, 4, 0, 2, [.any 0 64 .rc 0]⟩,
  ⟨.rxRxNaDetect, 0x42000E01, [(256, 256)], .u64, 8, 8, 4, 0, 2, [.any 0 64 .rc 0]⟩,
  ⟨.rxRxSsrcReject, 0x42000F01, [(256, 256)], .u64, 8, 8, 4, 0, 2, [.any 0 64 .rc 0]⟩]

/-- Dictionary descriptors, part 12. -/
def entTable12 : List EntDesc := [
  ⟨.txTxPkts, 0x43000001, [(256, 256)], .u64, 8, 8, 4, 0, 2, [.any 0 64 .rc 0]⟩,
  ⟨.txTxStale, 0x43000101, [(256, 256)], .u64, 8, 8, 4, 0, 2, [.any 0 64 .rc 0]⟩,
  ⟨.txTxRetimes, 0x43000201, [(256, 256)], .u64, 8, 8, 4, 0, 2, [.any 0 64 .rc 0]⟩,
  ⟨.txTxSkippedTicks, 0x43000301, [(256, 256)], .u64, 8, 8, 4, 0, 2, [.any 0 64 .rc 0]⟩,
  ⟨.txTxNoLink, 0x43000401, [(256, 256)], .u64, 8, 8, 4, 0, 2, [.any 0 64 .rc 0]⟩,
  ⟨.sideFrames, 0x52000001, [(256, 48), (16, 2)], .u64, 8, 8, 4, 0, 2, [.any 0 64 .rc 0]⟩,
  ⟨.sideUnderruns, 0x52000101, [(256, 48), (16, 2)], .u64, 8, 8, 4, 0, 2, [.any 0 64 .rc 0]⟩,
  ⟨.sideOverruns, 0x52000201, [(256, 48), (16, 2)], .u64, 8, 8, 4, 0, 2, [.any 0 64 .rc 0]⟩,
  ⟨.sideFrameErr, 0x52000301, [(256, 48), (16, 2)], .u64, 8, 8, 4, 0, 2, [.any 0 64 .rc 0]⟩,
  ⟨.sideLockLoss, 0x52000401, [(256, 48), (16, 2)], .u64, 8, 8, 4, 0, 2, [.any 0 64 .rc 0]⟩,
  ⟨.sideClkFast, 0x52000501, [(256, 48), (16, 2)], .u64, 8, 8, 4, 0, 2, [.any 0 64 .rc 0]⟩,
  ⟨.sideSlewSlips, 0x52000601, [(256, 48), (16, 2)], .u64, 8, 8, 4, 0, 2, [.any 0 64 .rc 0]⟩,
  ⟨.sideMaskCommits, 0x52000701, [(256, 48), (16, 2)], .u64, 8, 8, 4, 0, 2, [.any 0 64 .rc 0]⟩,
  ⟨.asrcResyncs, 0x61000001, [(256, 64)], .u64, 8, 8, 4, 0, 2, [.any 0 64 .rc 0]⟩,
  ⟨.asrcLate, 0x61000101, [(256, 64)], .u64, 8, 8, 4, 0, 2, [.any 0 64 .rc 0]⟩,
  ⟨.asrcSteps, 0x61000201, [(256, 64)], .u64, 8, 8, 4, 0, 2, [.any 0 64 .rc 0]⟩,
  ⟨.asrcAcquires, 0x61000301, [(256, 64)], .u64, 8, 8, 4, 0, 2, [.any 0 64 .rc 0]⟩,
  ⟨.hallTileDrops, 0x92000001, [], .u64, 8, 8, 4, 0, 2, [.any 0 64 .rc 0]⟩,
  ⟨.hallCsumFails, 0x92000101, [], .u64, 8, 8, 4, 0, 2, [.any 0 64 .rc 0]⟩,
  ⟨.hallRepairs, 0x92000201, [], .u64, 8, 8, 4, 0, 2, [.any 0 64 .rc 0]⟩]

/-- Dictionary descriptors, part 13. -/
def entTable13 : List EntDesc := [
  ⟨.hallScrubRefresh, 0x92000301, [], .u64, 8, 8, 4, 0, 2, [.any 0 64 .rc 0]⟩,
  ⟨.hallEmptyParity, 0x92000401, [], .u64, 8, 8, 4, 0, 2, [.any 0 64 .rc 0]⟩,
  ⟨.hallCommits, 0x92000501, [], .u64, 8, 8, 4, 0, 2, [.any 0 64 .rc 0]⟩,
  ⟨.hallSatTicks, 0x92000601, [], .u64, 8, 8, 4, 0, 2, [.any 0 64 .rc 0]⟩,
  ⟨.hallScrubPasses, 0x92000701, [], .u64, 8, 8, 4, 0, 2, [.any 0 64 .rc 0]⟩,
  ⟨.roomBlocksRun, 0xA1000001, [(256, 18)], .u64, 8, 8, 4, 0, 2, [.any 0 64 .rc 0]⟩,
  ⟨.roomBlocksSkipped, 0xA1000101, [(256, 18)], .u64, 8, 8, 4, 0, 2, [.any 0 64 .rc 0]⟩,
  ⟨.roomPosUnreleased, 0xA1000201, [(256, 18)], .u64, 8, 8, 4, 0, 2, [.any 0 64 .rc 0]⟩,
  ⟨.roomIllCount, 0xA1000301, [(256, 18)], .u64, 8, 8, 4, 0, 2, [.any 0 64 .rc 0]⟩,
  ⟨.roomIrqs, 0xA1000401, [(256, 18)], .u64, 8, 8, 4, 0, 2, [.any 0 64 .rc 0]⟩,
  ⟨.roomMboxOverwrite, 0xA1000501, [(256, 18)], .u64, 8, 8, 4, 0, 2, [.any 0 64 .rc 0]⟩,
  ⟨.roomFaults, 0xA1000601, [(256, 18)], .u64, 8, 8, 4, 0, 2, [.any 0 64 .rc 0]⟩,
  ⟨.roomHostDeferred, 0xA1000701, [(256, 18)], .u64, 8, 8, 4, 0, 2, [.any 0 64 .rc 0]⟩,
  ⟨.supMismatches, 0xB5000001, [], .u64, 8, 8, 4, 0, 2, [.any 0 64 .rc 0]⟩,
  ⟨.supVotes, 0xB5000101, [], .u64, 8, 8, 4, 0, 2, [.any 0 64 .rc 0]⟩,
  ⟨.supTakeovers, 0xB5000201, [], .u64, 8, 8, 4, 0, 2, [.any 0 64 .rc 0]⟩,
  ⟨.supNoMajority, 0xB5000301, [], .u64, 8, 8, 4, 0, 2, [.any 0 64 .rc 0]⟩,
  ⟨.supNoVote, 0xB5000401, [], .u64, 8, 8, 4, 0, 2, [.any 0 64 .rc 0]⟩,
  ⟨.supFences, 0xB5000501, [], .u64, 8, 8, 4, 0, 2, [.any 0 64 .rc 0]⟩,
  ⟨.supRotations, 0xB5000601, [], .u64, 8, 8, 4, 0, 2, [.any 0 64 .rc 0]⟩]

/-- Dictionary descriptors, part 14. -/
def entTable14 : List EntDesc := [
  ⟨.supSelftestsPassed, 0xB5000701, [], .u64, 8, 8, 4, 0, 2, [.any 0 64 .rc 0]⟩,
  ⟨.supSelftestsFailed, 0xB5000801, [], .u64, 8, 8, 4, 0, 2, [.any 0 64 .rc 0]⟩,
  ⟨.supOutOfStep, 0xB5000901, [], .u64, 8, 8, 4, 0, 2, [.any 0 64 .rc 0]⟩,
  ⟨.supBudgetOverruns, 0xB5000A01, [], .u64, 8, 8, 4, 0, 2, [.any 0 64 .rc 0]⟩,
  ⟨.supSnapshots, 0xB5000B01, [], .u64, 8, 8, 4, 0, 2, [.any 0 64 .rc 0]⟩,
  ⟨.supRestores, 0xB5000C01, [], .u64, 8, 8, 4, 0, 2, [.any 0 64 .rc 0]⟩,
  ⟨.supParityErrors, 0xB5000D01, [], .u64, 8, 8, 4, 0, 2, [.any 0 64 .rc 0]⟩,
  ⟨.supHeldPositions, 0xB5000E01, [], .u64, 8, 8, 4, 0, 2, [.any 0 64 .rc 0]⟩,
  ⟨.supSupplyExcursions, 0xB5000F01, [], .u64, 8, 8, 4, 0, 2, [.any 0 64 .rc 0]⟩,
  ⟨.cellarDlyLate, 0xC4000001, [], .u64, 8, 8, 4, 0, 2, [.any 0 64 .rc 0]⟩,
  ⟨.kdpRxMsgs, 0xD4000001, [], .u64, 8, 8, 4, 0, 2, [.any 0 64 .rc 0]⟩,
  ⟨.kdpMalformed, 0xD4000101, [], .u64, 8, 8, 4, 0, 2, [.any 0 64 .rc 0]⟩,
  ⟨.kdpNoSession, 0xD4000201, [], .u64, 8, 8, 4, 0, 2, [.any 0 64 .rc 0]⟩,
  ⟨.kdpMacFail, 0xD4000301, [], .u64, 8, 8, 4, 0, 2, [.any 0 64 .rc 0]⟩,
  ⟨.kdpReplay, 0xD4000401, [], .u64, 8, 8, 4, 0, 2, [.any 0 64 .rc 0]⟩,
  ⟨.kdpAuthFails, 0xD4000501, [], .u64, 8, 8, 4, 0, 2, [.any 0 64 .rc 0]⟩,
  ⟨.kdpSessionsOpened, 0xD4000601, [], .u64, 8, 8, 4, 0, 2, [.any 0 64 .rc 0]⟩,
  ⟨.kdpSessionTimeouts, 0xD4000701, [], .u64, 8, 8, 4, 0, 2, [.any 0 64 .rc 0]⟩,
  ⟨.kdpGroupsDiscarded, 0xD4000801, [], .u64, 8, 8, 4, 0, 2, [.any 0 64 .rc 0]⟩,
  ⟨.kdpNotifySent, 0xD4000901, [], .u64, 8, 8, 4, 0, 2, [.any 0 64 .rc 0]⟩]

/-- Dictionary descriptors, part 15. -/
def entTable15 : List EntDesc := [
  ⟨.kdpLoadSkipped, 0xD4000A01, [], .u64, 8, 8, 4, 0, 2, [.any 0 64 .rc 0]⟩,
  ⟨.kdpReplyParts, 0xD4000B01, [], .u64, 8, 8, 4, 0, 2, [.any 0 64 .rc 0]⟩,
  ⟨.kdpTxDropped, 0xD4000C01, [], .u64, 8, 8, 4, 0, 2, [.any 0 64 .rc 0]⟩,
  ⟨.hpHpCrcErr, 0xD5400001, [], .u64, 8, 8, 4, 0, 2, [.any 0 64 .rc 0]⟩,
  ⟨.hpHpAbort, 0xD5400101, [], .u64, 8, 8, 4, 0, 2, [.any 0 64 .rc 0]⟩,
  ⟨.hpHpBusy, 0xD5400201, [], .u64, 8, 8, 4, 0, 2, [.any 0 64 .rc 0]⟩,
  ⟨.hpHpBad, 0xD5400301, [], .u64, 8, 8, 4, 0, 2, [.any 0 64 .rc 0]⟩,
  ⟨.hpLbPosted, 0xD5400401, [], .u64, 8, 8, 4, 0, 2, [.any 0 64 .rc 0]⟩,
  ⟨.hpLbDropped, 0xD5400501, [], .u64, 8, 8, 4, 0, 2, [.any 0 64 .rc 0]⟩,
  ⟨.hpLbDisplaced, 0xD5400601, [], .u64, 8, 8, 4, 0, 2, [.any 0 64 .rc 0]⟩,
  ⟨.hpLbFiltered, 0xD5400701, [], .u64, 8, 8, 4, 0, 2, [.any 0 64 .rc 0]⟩,
  ⟨.hpLbFlushed, 0xD5400801, [], .u64, 8, 8, 4, 0, 2, [.any 0 64 .rc 0]⟩,
  ⟨.hpLbSwallowed, 0xD5400901, [], .u64, 8, 8, 4, 0, 2, [.any 0 64 .rc 0]⟩,
  ⟨.hpLbSwaps, 0xD5400A01, [], .u64, 8, 8, 4, 0, 2, [.any 0 64 .rc 0]⟩,
  ⟨.hpNotifyDropped, 0xD5400B01, [], .u64, 8, 8, 4, 0, 2, [.any 0 64 .rc 0]⟩]

/-- Every entry of the dictionary: its base key, unit strides, type, sizes, rights and fields (R361). -/
def entTable : List EntDesc :=
  entTable0 ++ entTable1 ++ entTable2 ++ entTable3 ++ entTable4 ++ entTable5 ++ entTable6 ++ entTable7 ++ entTable8 ++ entTable9 ++ entTable10 ++ entTable11 ++ entTable12 ++ entTable13 ++ entTable14 ++ entTable15

end Sys2Proof.Machine
end

