-- ==== Sys2Proof/Machine/State.lean ====
section
/-! DEFINITION. The state of the device as plain data: the object dictionary's register store, and what the rules give each
subsystem beside its dictionary entries. -/

namespace Sys2Proof.Machine

/-- Why a command stops. No rule of the spec stops the device on a command, so no meaning raises it; it is kept for the
interface. Safe: nothing can be proved of a run that stops. -/
inductive Fault where
  /-- Raised by nobody. Safe. -/
  | none
deriving DecidableEq, Repr

/-- Why a command has no meaning in the model. -/
inductive Refusal where
  /-- Raised by the dispatcher for a command with no meaning yet. Safe: nothing is proved of it. -/
  | notModelled (mnemonic : String)
deriving DecidableEq, Repr

/-- The status codes of R368. -/
inductive Status where
  | ok | absent | outOfRange | conflict | busy | denied | badType | notApplied | tooLarge | noSession | version | authFail
  | staged
deriving DecidableEq, Repr

/-- The grades of R6. -/
inductive Grade where
  | f | h | q
deriving DecidableEq, Repr

/-- What production fixes for the life of a part (R6, R8, R10, R129, R435), its key for the saved image among it (R395): not affected
by reset (R428). -/
structure Fuses where
  grade : Grade := .f
  roomMask : Nat := 0x3FFFF
  asrcMask : Nat := 0xFFFFFFFFFFFFFFFF
  serial : Nat := 0
  macBase : Nat := 0
  jtagLocked : Bool := true
  dieKey : Nat := 0
deriving DecidableEq, Repr

/-- What the last command answered: its status and its data bytes. -/
structure Answer where
  status : Status := .ok
  bytes : List Byte := []
deriving DecidableEq, Repr

/-- A hold-off window under R475: open or not, the occurrences counted in it, the details of the latest, and, where it is measured in
ticks, the tick that opened it. -/
structure Hold where
  active : Bool := false
  count : Nat := 0
  info : Nat := 0
  at_ : Nat := 0
  since : Int := 0
deriving DecidableEq, Repr

/-- A Hallway copy not done when its tick began (R36, R37, R354): the sink, the value its source presents in the tick and the label
that comes with it, and whether it waits only for a delay line's sample out of LPDDR4X. -/
structure LateCopy where
  sink : Nat
  val : Nat
  label : Option Nat
  wait : Bool
deriving DecidableEq, Repr

/-- A domain's tick in progress: whether a tick has begun since the APLL started; whether its deadline has passed, and stage 5
with it; whether some of its work is late (R36), and which: the copies of stages 2 and 4, converters' outputs, and what the recorder
is to store (R37); its slack in ns (R44); the instant of e(n) in quarters of RC; the number of the next edge on the grid of DPLL time
(R113). -/
structure DomTick where
  open_ : Bool := false
  launched : Bool := false
  late : Bool := false
  fill2 : List LateCopy := []
  fill4 : List LateCopy := []
  asrc : List Nat := []
  recorder : Option (List Nat) := none
  slack : Nat := 0
  edge : Nat := 0
  next : Int := 0
deriving DecidableEq, Repr

/-- A tone generator: its phase in units of 1 / (100 × 28,224,000) turn, whether the next sine sample restarts at phase 0,
and the sample it presents (R29). -/
structure Tone where
  phase : Nat := 0
  restart : Bool := true
  out : Nat := 0
deriving DecidableEq, Repr

/-- The sample path (R15 to R40): per domain the tick in progress; per (domain × 4 + cause) the deadline hold-off (R39); the
values the sinks hold (R36), by sink number, and the AM824 labels that came with them (R188); the tone generators. -/
structure PathState where
  ticks : Sparse DomTick := []
  holds : Sparse Hold := []
  sink : Sparse Nat := []
  labels : Sparse (Option Nat) := []
  tones : Sparse Tone := []
deriving DecidableEq, Repr

/-- A headroom window being collected (R46): the domain whose window it is, ticks gone, results taken, least, sum, late results. -/
structure HmWin where
  dom : Nat := 0
  ticks : Nat := 0
  n : Nat := 0
  least : Nat := 0xFFFFFF
  sum : Nat := 0
  late : Nat := 0
deriving DecidableEq, Repr

/-- The settings of the VID request beside its mode (R50, R51): VID_FIXED, VID_FLOOR, VID_CEIL and SLACK_TARGET. -/
structure VidSettings where
  fixed : Nat
  floor : Nat
  ceil : Nat
  target : Nat
deriving DecidableEq, Repr

/-- The headroom monitor and the VID request (R44 to R56): windows of the domains (0 to 3) and rooms (16 + room); domains'
counts of consecutive windows above SLACK_HI; the code the loop aims at; the mode in force, and the settings in force where a SET waits
for the end of a settle interval (R55); PWR_GOOD's level, the freeze of R53 and the hold of R54; why AT_CEIL stands and when its event
was last posted; whether the idle timer of R51 runs; the RC of the last raise for late work, and the RC of the last move at a window's
end with the code before it (R51). -/
structure VoltState where
  wins : Sparse HmWin := []
  down : Sparse Nat := []
  goal : Nat := 30
  auto : Bool := false
  kept : Option VidSettings := none
  pgHigh : Bool := true
  frozen : Bool := false
  pgHold : Bool := false
  ceilThermal : Bool := false
  ceilPosted : Option Nat := none
  idleArmed : Bool := false
  raisedAt : Option Nat := none
  movedAt : Option (Nat × Nat) := none
  driven : Bool := false
deriving DecidableEq, Repr

/-- An item of the Letterbox (R411): code, priority, item number, payload words. -/
structure LbItem where
  code : Nat
  prio : Nat
  seq : Nat
  words : List Nat
deriving DecidableEq, Repr

/-- An event whose last word, with the end marker, has arrived in its producer's assembly register: CODE, PRIORITY and payload words;
its SEQ comes with the push (R411, R412). -/
structure LbEvent where
  code : Nat
  prio : Nat
  words : List Nat
deriving DecidableEq, Repr

/-- The Letterbox (R412 to R421): the complete items in the assembly registers that reach the arbiter at one moment, in the order they
came, while that moment lasts; the codes of the items whose assembly has begun and not ended, each with whether more than its last
word is still to come, where a command names them; the items a FLUSH cut in assembly, whose later words are swallowed up to the end
marker, each with whether LB_SWALLOWED counts it; physical bank draining; its unreleased items in read order; how many of them are popped
(the cursor); the mark; the filling bank in order of arrival; the next SEQ; losses since the last swap. -/
structure Letterbox where
  asm : Option (List LbEvent) := none
  begun : Option (List (Nat × Bool)) := none
  cut : List (Nat × Bool) := []
  bank : Nat := 0
  drain : List LbItem := []
  cursor : Nat := 0
  mark : Option Nat := none
  fill : List LbItem := []
  seqNext : Nat := 0
  dropped : Nat := 0
  displaced : Nat := 0
  firstLost : Option Nat := none
deriving DecidableEq, Repr

/-- The host port (R408, R409): the request handed to the engine and not yet served, the current reply, whether a REPLY has
returned it, the NOTIFY messages held (SEQ and bytes), and the bytes of the last response. -/
structure HostPort where
  request : Option (List Byte) := none
  reply : Option (List Byte) := none
  replyRead : Bool := false
  notify : List (Nat × List Byte) := []
  status : Nat := 0
  response : List Byte := []
deriving DecidableEq, Repr

/-- A schedule of a view (R62, R63): apply point, new rate, step in 96-bit code, and whether the view's owner wrote it. -/
structure Sched where
  at_ : Nat
  rate : Option Nat := none
  step : Option Nat := none
  owner : Bool := true
deriving DecidableEq, Repr

/-- A line that a view ran by: the apply point that ended it, and the OFFSET and RATE in force up to there (R62, R71). -/
structure PastLine where
  upTo : Nat
  offset : Nat
  rate : Nat
deriving DecidableEq, Repr

/-- A time view beside its entries (R59 to R67): the pending schedule, and the lines it ran by before, the latest first, through
which earlier timestamps are still read (R71). -/
structure View where
  sched : Option Sched := none
  past : List PastLine := []
deriving DecidableEq, Repr

/-- A timed trigger beside its entries (R83, R84): its present target in units of 2^-16 ns, and the RC value it converts to,
and whether it was armed with a target already reached. -/
structure Trig where
  target : Nat := 0
  conv : Nat := 0
  late : Bool := false
deriving DecidableEq, Repr

/-- A TRIG_OUT pin (R86): whether it is asserted, whether by a pulse that is running, and the point of quarter counts of the last
edge that a firing or a pulse's end placed. -/
structure OutPin where
  active : Bool := false
  pulse : Bool := false
  edge : Nat := 0
deriving DecidableEq, Repr

/-- A capture in an EVT_IN FIFO (R88): view time, quarter counts, edge, number. -/
structure Capture where
  t : Nat
  q : Nat
  rising : Bool
  seq : Nat
deriving DecidableEq, Repr

/-- An EVT_IN pin (R88): its FIFO of at most 16, the next number, the last captured edge in quarter counts. The first capture of
a pin takes number 0 (DESIGN CHOICE, log entry 45). -/
structure EvtPin where
  fifo : List Capture := []
  seq : Nat := 0
  last : Option Nat := none
deriving DecidableEq, Repr

/-- The time engine beside PTP (R57 to R89). `stepped` holds, per (domain × 4 + view), whether the pair's next edge follows a
step of the view or of the Hearth (R168). -/
structure TimeState where
  stepped : Sparse Bool := []
  views : Sparse View := []
  trigs : Sparse Trig := []
  outs : Sparse OutPin := []
  evts : Sparse EvtPin := []
deriving DecidableEq, Repr

/-- A frame in a transmit queue or on the wire: its bytes without FCS; the PTP message it carries; a media packet's queue
instant, longest wait in counts of RC, and stream context (R139). -/
structure TxFrame where
  bytes : List Byte := []
  ptp : Option PtpMsg := none
  media : Option (Nat × Nat × Nat) := none
deriving DecidableEq, Repr

/-- One send of a queue (R141, R150): the frames still to leave, and the queue space it holds. -/
structure Send where
  frames : List TxFrame
  space : Nat
deriving DecidableEq, Repr

/-- The pause of a PFC class (0 to 7) or of 802.3x (8): running, its last time in quanta, ignored by the watchdog (R144, R145). -/
structure Pause where
  on : Bool := false
  quanta : Nat := 0
  ignored : Bool := false
deriving DecidableEq, Repr

/-- What a half-duplex transmitter does (R149). -/
inductive HdPhase where
  | idle | carrier | sending | backoff
deriving DecidableEq, Repr

/-- A network port beside its entries (R131 to R157): transmit queues, the frame on the wire, the bytes of the last frame that left,
pauses, since when a queue is paused, counts of RC of pause that do not make up a microsecond yet (TX_PAUSE_TIME), the receive
ring with its next SEQ and drop hold-off, when the last valid ESMC PDU came, half-duplex attempts; the values FRAME_CFG held
before its last SETs, each with the RC of the SET, newest first (R134). -/
structure Port where
  queues : Sparse (List Send) := []
  wire : Option TxFrame := none
  sent : List Byte := []
  pauses : Sparse Pause := []
  pausedSince : Option Nat := none
  pausedRest : Nat := 0
  ring : List (Nat × List Byte) := []
  ringSeq : Nat := 0
  ringHold : Hold := {}
  esmcAt : Option Nat := none
  frameCfgs : List (Nat × Nat) := []
  hd : HdPhase := .idle
  hdAttempts : Nat := 0
  hdSlots : Nat := 0
deriving DecidableEq, Repr

/-- A slewed output's error: what it still has to slew, in units of 2^-16 ns of its aligned position ahead of it, at a point of
quarter counts (R117). -/
structure Slew where
  err : Int := 0
  at_ : Nat := 0
deriving DecidableEq, Repr

/-- A line of time over the quarter counts of RC, as a view's: OFFSET in units of 2^-16 ns and RATE in 2.46 fixed point (R59). -/
structure Line where
  offset : Int := 0
  rate : Nat := 0x800000000000
deriving DecidableEq, Repr

/-- A candidate beside its entries (R91 to R97): its signal is present; its ESMC has timed out; its offsets of the last seconds,
newest first, in 0.1 ppb; a point of quarter counts at which its last edge came. -/
structure Cand where
  signal : Bool := false
  esmcOut : Bool := false
  offs : List Int := []
  edge : Nat := 0
deriving DecidableEq, Repr

/-- The Hearth beside its entries (R91 to R121): DPLL time as a line; candidates; the history of LOCKED seconds, newest first, in
units of 0.1 ppb; a manual choice waited for (R106), or deferred by a switch (R103); the last candidate tracked and its rank; the
slewed outputs (0 and 1 the word clocks, 2 PPS_OUT); the last rising edge of each word clock output in quarter counts (R119); since
when PPS_OUT is asserted, in quarter counts (R120). -/
structure HearthState where
  dpll : Line := {}
  cands : Sparse Cand := []
  history : List Int := []
  waiting : Bool := false
  deferred : Bool := false
  lastCand : Nat := 15
  lastRank : Nat := 0
  slews : Sparse Slew := []
  wclk : Sparse (Option Nat) := []
  pps : Option Nat := none
deriving DecidableEq, Repr

/-- An entry of a foreign master table (R76): sender, its last data set, the instants of its last two Announces, its announce
interval (log2 of seconds), the addresses it sends from, and its path trace. -/
structure Foreign where
  src : Nat
  ann : Announce
  last : Nat
  prev : Option Nat
  logInt : Int := 0
  ip : Nat := 0
  mac : Nat := 0
  path : List Nat := []
deriving DecidableEq, Repr

/-- A PTP port beside its entries (R75 to R81). Times are in units of 2^-16 ns; `integ` is I(k) in units of 2^-96; `steers` is the
view the port's servo steers or last steered, `avg` the DELAY_AVG in use since the last Sync. -/
structure PtpPort where
  foreign : List Foreign := []
  parent : Nat := 0
  parentIp : Nat := 0
  parentMac : Nat := 0
  path : List Nat := []
  steers : Nat := 0
  avg : Nat := 4
  twoStep : Option (Nat × Int × Int) := none
  syncs : Nat := 0
  keepI : Bool := false
  first : Int × Int := (0, 0)
  last : Int × Int × Int := (0, 0, 0)
  reqSeq : Nat := 0
  reqSent : Option Int := none
  resp : Option (Nat × Int × Int × Int) := none
  answered : Bool := true
  delays : List Int := []
  integ : Int := 0
  below : Nat := 0
  above : Nat := 0
  aboveStep : Nat := 0
  okRun : Nat := 0
  failRun : Nat := 0
  seqSync : Nat := 0
  seqAnn : Nat := 0
deriving DecidableEq, Repr

/-- The AM824 channel status of a receive channel (R186): where its latest complete block starts, bit 1 of byte 0 in it, and whether
there has been one. -/
structure ChanStatus where
  start : Option Int := none
  bit1 : Bool := false
  whole : Bool := false
deriving DecidableEq, Repr

/-- A receive stream context beside its entries (R170 to R187): the count the next capture stage delivers, the one the last stage was
at, and whether its sample was there; whether P has changed since, or E been set by rounding (R178); the jitter buffer, by count, a
sample being its channels' values × 256 + label; the labels received over the last two channel status blocks, by count; samples
without a preamble, per flagged pair of channels (R185); bytes of the buffer region held; the highest sequence number accepted, the
numbers seen behind it (bit k: H − k), how many of them follow the first packet, and the timestamps taken with them; the highest
sequence number per path; the values and labels presented, per channel; channel status per channel; the RUN and UNDERRUN
hold-off; the least depth of this second and its ticks. -/
structure RxCtx where
  next : Int := 0
  last : Int := 0
  here : Bool := false
  retime : Bool := false
  labs : Sparse (List Nat) := []
  naRun : Sparse Nat := []
  span : Nat := 0
  jb : Sparse (List Nat) := []
  bytes : Nat := 0
  seqH : Option Nat := none
  seen : Nat := 0
  stamps : Sparse Nat := []
  pathSeq : Sparse (Option Nat) := []
  vals : List Nat := []
  status : Sparse ChanStatus := []
  hold : Hold := {}
  depth : Nat := 0xFFFF
  depthTicks : Nat := 0
deriving DecidableEq, Repr

/-- A transmit stream context beside its entries (R169, R179, R192): the packet being built (media count of its first sample,
its samples in order), silent packets left, whether a packet has begun since START. -/
structure TxCtx where
  pkt : Option (Nat × List (List Nat)) := none
  silent : Nat := 0
  begun : Bool := false
deriving DecidableEq, Repr

/-- A pair of a domain and a view (R168): whether its edge position has been set since it came into use, and that position. -/
structure Pair where
  used : Bool := false
  e : Nat := 0
deriving DecidableEq, Repr

/-- The stream engine beside its entries: contexts by number, pairs by domain × 4 + view. -/
structure StreamState where
  rx : Sparse RxCtx := []
  tx : Sparse TxCtx := []
  pairs : Sparse Pair := []
deriving DecidableEq, Repr

/-- The edges of a converter's side as its tracker takes them (R232), in units of 2^-16 quarter count: how many, the first and the
last since a measurement began, and the share of a Hearth step that falls at the next (R237). -/
structure Meter where
  n : Nat := 0
  first : Int := 0
  last : Int := 0
  share : Int := 0
deriving DecidableEq, Repr

/-- A converter beside its entries (R228 to R240): the edges of its sides; Hearth steps not yet counted (R237); the input samples
held with their instants, newest first; the instant in the audio of the last output sample, the output period and D, in units of
2^-16 quarter count (R235); the delay error, and since when it has stayed small; when ACQUIRE or SETTLE was entered, in quarter counts; the
eight output samples presented; the limit on SETTLE and LOCKED postings. -/
structure Asrc where
  inSide : Meter := {}
  outSide : Meter := {}
  steps : Nat := 0
  fifo : List (Int × List Nat) := []
  pos : Int := 0
  period : Nat := 0
  delay : Int := 0
  err : Int := 0
  calm : Option Nat := none
  settled : Nat := 0
  out : List Nat := []
  hold : Hold := {}
deriving DecidableEq, Repr

/-- A receive TDM frame begun and not yet captured (R31, R214, R216): its start in quarter counts, whether data flows in it,
the active mask at its start, its words by lane × 32 + slot, and whether it was found to be a frame error. -/
structure TdmFrame where
  start : Nat
  live : Bool
  mask : Nat
  words : List Nat
  bad : Bool := false
deriving DecidableEq, Repr

/-- A side of a TDM port beside its entries (R199 to R227): the mask of a pending commit; the start of the frame in progress;
runs of good and bad frames; frames begun since the state was entered; ENABLE written 1 in TAIL; whether data flows in the
frame in progress; the pairing (R210's exact case, the last bit period it waits for, made or not, changed by a slip, the
frame sync slewed, and what it still has to slew); frames not captured (receive) or launches not sent (transmit); the values presented
(receive) or sent (transmit), by lane × 32 + slot, and those sent in the frames before, the latest first; a master's next frame: the tick of its domain
it follows (R208), or of an asynchronous port its number since the instant its clocks started. -/
structure TdmSide where
  commit : Option Nat := none
  last : Option Nat := none
  good : Nat := 0
  badRun : Nat := 0
  begun : Nat := 0
  resume : Bool := false
  data : Bool := false
  exact : Bool := false
  lastBit : Nat := 0
  paired : Bool := false
  moved : Bool := false
  slewed : Bool := false
  frames : List TdmFrame := []
  launches : List (Nat × List Nat) := []
  vals : List Nat := []
  slew : Slew := {}
  prev : List (List Nat) := []
  nextFrame : Int := 0
  origin : Nat := 0
deriving DecidableEq, Repr

/-- The TDM ports beside their entries: sides by port × 2 + side (0 transmit, 1 receive); slip hold-offs by side × 4 + kind. -/
structure TdmState where
  sides : Sparse TdmSide := []
  holds : Sparse Hold := []
deriving DecidableEq, Repr

/-- A bank of a Hall tile (R248, R253, R257): the gains written, by 32 × row + column; what damage flips in the image as read,
by byte; the EMPTY flag and whether its parity is wrong. The stored checksum is that of the gains written. -/
structure HallBank where
  img : Sparse Nat := []
  dmg : Sparse Nat := []
  empty : Bool := true
  parBad : Bool := false
deriving DecidableEq, Repr

/-- A Hall tile (R249, R250, R252): its two banks; STATE; the active bank; DIRTY and SHADOW_BAD; the length of its crossfade
and the ticks of it gone; whether a commit waits for tick c; LAST_CHECK_FAIL; whether its COPY came from the scrubber. -/
structure Tile where
  b0 : HallBank := {}
  b1 : HallBank := {}
  state : Nat := 0
  active : Nat := 0
  dirty : Bool := false
  shadowBad : Bool := false
  fade : Nat := 0
  gone : Nat := 0
  swap : Bool := false
  lastFail : Bool := false
  refresh : Bool := false
deriving DecidableEq, Repr

/-- A Hall tick whose work is not all done (R36, R37): the tiles that were in FADING, those read, and whether the scrubber's visit is not
made. -/
structure HallTick where
  fading : List Nat
  read : List Nat
  noScrub : Bool
deriving DecidableEq, Repr

/-- The Hall beside its entries (R241 to R260): tiles; outputs presented in the tick in progress and computed in it; the sums
of that tick, the tiles not yet reached in it, and the rest of its work; the scrubber's next tile; tiles skipped in the last tick;
hold-offs. -/
structure HallState where
  tiles : Sparse Tile := []
  out : Sparse Nat := []
  next : Sparse Nat := []
  acc : Sparse Int := []
  left : List Nat := []
  rest : Option HallTick := none
  scrub : Nat := 0
  skipped : Nat := 1024
  holds : Sparse Hold := []
  satHold : Hold := {}
deriving DecidableEq, Repr

/-- How a register was written, for the distances of R275 and R307. `limited`: SR.L by a limited move, which no table names. -/
inductive Wrote where
  | arith | load | regMove | postUpdate | ptrMove | ctl | limited
deriving DecidableEq, Repr

/-- A register write still within reach of a distance: the register, the instruction's number, the value before it, how. -/
structure RegWrite where
  key : Nat
  at_ : Nat
  before : Nat
  how : Wrote
deriving DecidableEq, Repr

/-- A store, or a write of the output window, still within reach of a distance. -/
structure MemWrite where
  key : Nat
  at_ : Nat
  before : Nat
deriving DecidableEq, Repr

/-- A REP in progress (R279): where its body starts, its length, the repetitions left, the place in the body. -/
structure Rep where
  start : Nat
  body : Nat
  left : Nat
  pos : Nat
deriving DecidableEq, Repr

/-- A room's core (R261, R266, R275 to R285, R313): the memories; the registers as newest written, by E code, the handler's
set of shadowed ones 64 above; writes still in the pipeline; PC; instructions executed; delay slots left and what follows
them; REP; return stack; the interrupt. `hold`: one main instruction runs before the next interrupt (R285). -/
structure Core where
  p : Sparse Nat := []
  x : Sparse Nat := []
  y : Sparse Nat := []
  regs : Sparse Nat := []
  hist : List RegWrite := []
  mem : List MemWrite := []
  win : List MemWrite := []
  pc : Nat := 0
  count : Nat := 0
  slots : Nat := 0
  target : Option Nat := none
  rti : Bool := false
  rep : Option Rep := none
  stack : List Nat := []
  inIrq : Bool := false
  mboxPend : Bool := false
  mbi : Nat := 0
  swi : Bool := false
  hold : Bool := false
deriving DecidableEq, Repr

/-- A block's output positions (R32, R263 to R265, R292): the tick of its trigger, whether it ran or was skipped, whether it is
muted, the positions released, and the values by position × 128 + channel. -/
structure Block where
  t0 : Nat
  ran : Bool
  muted : Bool := false
  released : Nat := 0
  vals : Sparse Nat := []
deriving DecidableEq, Repr

/-- A load accepted and not yet written (R296): space, first address, words. -/
structure RoomLoad where
  space : Nat
  addr : Nat
  words : List Nat
deriving DecidableEq, Repr

/-- A room beside its entries (R263 to R300): its core; the inputs of the last 32 ticks, newest first, and those of the block,
by position; whether a block runs, waits for RTI, or has started since OFF; recent blocks, newest first; the values last
delivered; blocks still muted; skips in a row; INSTR and BCNT; the tick before whose edge the running block is due, and whether it has
been judged late; loads that wait; addresses written since the last END; when 0xA002 was last posted; a cold restore in progress; the
core as it stood at the start of the block, which an IN_STEP guest keeps for a vote (R331). -/
structure Room where
  core : Core := {}
  ins : List (Sparse Nat) := []
  cur : List (Sparse Nat) := []
  block : Bool := false
  waiting : Bool := false
  started : Bool := false
  blocks : List Block := []
  outs : Sparse Nat := []
  mute : Nat := 0
  skips : Nat := 0
  instr : Nat := 0
  bcnt : Nat := 0
  due : Nat := 0
  judged : Bool := false
  loads : List RoomLoad := []
  written : List Nat := []
  illAt : Option Nat := none
  restoring : Bool := false
  begun : Core := {}
deriving DecidableEq, Repr

/-- A guest slot (R322 to R332): the core that backs it, its state code (G_STATE), the room it shadows, link words its warm-up
has left, whether it is IN_STEP from the next block, ticks compared clean, a rotation swap due, its core's own memories while
it shadows nothing; after a self-test their words are free values, numbered from `junk` (log entry 3). -/
structure Guest where
  core : Option Nat := none
  state : Nat := 1
  shadow : Option Nat := none
  left : Nat := 0
  ready : Bool := false
  clean : Nat := 0
  swap : Bool := false
  own : Core := {}
  junk : Option Nat := none
deriving DecidableEq, Repr

/-- What the Supervisor keeps of a core (R324, R340, R344): its service code (1 IN_SERVICE, 2 SELFTEST, 3 FENCED), whether it
lost a vote or met a parity error, whether GUEST_CMD 1 asked for it, whether its fencing has been counted. -/
structure CoreHealth where
  service : Nat := 1
  lost : Bool := false
  rejoin : Bool := false
  counted : Bool := false
deriving DecidableEq, Repr

/-- What the Supervisor keeps of a room (R328, R330, R335, R336): its core where it is not the one of its own number; COLD;
outputs held by a mismatch; the core that takes over at the next trigger; ticks of the last budget overruns; when its last
shadowing ended; the blocks that may set WORDS_MAX (RC,
link words); a snapshot wanted; where its two buffers lie (older first, true: in
LPDDR4X), and whether the region had no room for them; a snapshot being taken, held (with its instant), and the one before; when 0xB007 was last posted; a restore: the core
that is loaded, or 31 while it waits for one. -/
structure Guarded where
  core : Option Nat := none
  cold : Bool := false
  held : Bool := false
  next : Option Nat := none
  overruns : List Int := []
  lastShadow : Nat := 0
  words : List (Nat × Nat) := []
  snapWant : Bool := false
  bufs : List Bool := []
  noRoom : Bool := false
  snapTaking : Option (Core × Nat) := none
  snap : Option (Core × Nat) := none
  snapOld : Option (Core × Nat) := none
  postedAt : Option Nat := none
  restore : Option Nat := none
deriving DecidableEq, Repr

/-- A vote in progress (R331): the room, the guest slot whose shadow differed, BCNT of the block. -/
structure Vote where
  room : Nat
  slot : Nat
  bcnt : Nat
deriving DecidableEq, Repr

/-- A supply channel (R343): the last samples in mV, newest first; samples in a row out of the window; its hold-off; the extreme
value and side of the excursions it reports. -/
structure Supply where
  samples : List Nat := []
  run : Nat := 0
  hold : Hold := {}
  extreme : Nat := 0
  high : Bool := false
deriving DecidableEq, Repr

/-- The Supervisor beside its entries (R321 to R346): guest slots 0 and 1, cores, rooms, the vote, shadowings ended so far,
the states above or below of WARN and CRIT, supply channels. -/
structure GuardState where
  slots : Sparse Guest := []
  cores : Sparse CoreHealth := []
  rooms : Sparse Guarded := []
  vote : Option Vote := none
  ended : Nat := 0
  warn : Bool := false
  crit : Bool := false
  supply : Sparse Supply := []
deriving DecidableEq, Repr

/-- The Cellar beside its entries (R347 to R360): the values held by each delay line, newest first, each with the label that came with
it; whether the recorder holds pages; what it has recorded, newest first, each tick with its count; the refresh code last read from MR4. -/
structure Cellar where
  lines : Sparse (List (Nat × Option Nat)) := []
  recPages : Bool := false
  taken : List (Nat × List Nat) := []
  mr4 : Nat := 0
deriving DecidableEq, Repr

/-- A dumbwaiter self-compare that runs (R449): the room, the guest slot, the blocks wanted, the state of the LFSR, whether the
last block to be compared has been. -/
structure DwTest where
  room : Nat
  slot : Nat
  blocks : Nat
  lfsr : Nat
  ended : Bool := false
deriving DecidableEq, Repr

/-- An item of a request: key (index × 256 + subindex), type code, value bytes (R373). -/
structure Item where
  key : Nat
  ty : Nat
  raw : List Byte
deriving DecidableEq, Repr

/-- A COMMIT group (R388): the staged items in order, whether it is FAILED, and the instant of its BEGIN. -/
structure Group where
  items : List Item := []
  failed : Bool := false
  since : Nat := 0
deriving DecidableEq, Repr

/-- A waiting group (R389): its items, the view and the time it waits for, and SEQ of its APPLY. -/
structure Waiting where
  items : List Item
  view : Nat
  at_ : Nat
  seq : Nat
deriving DecidableEq, Repr

/-- A session (R375 to R381): its identifier, agreed version, role (0 none, 1 observer, 2 operator, 3 admin, 4 host), the key slot that
authenticated it, its binding (port 3: host) and the address it is answered at, its session key and nonces, H and which of H
down to H − 63 were accepted (bit k: H − k), when it was last active and when it was opened, its idle
timeout in seconds, its groups, and the number of its last
NOTIFY. -/
structure Session where
  id : Nat := 0
  version : Nat := 0x10
  role : Nat := 0
  authed : Bool := false
  slot : Nat := 0
  port : Nat := 3
  ip : Nat := 0
  udp : Nat := 0
  mac : Nat := 0
  nonceC : List Byte := []
  nonceD : List Byte := []
  sk : List Byte := []
  high : Nat := 0
  seen : Nat := 0
  at_ : Nat := 0
  born : Nat := 0
  idle : Nat := 60
  group : Option Group := none
  waiting : Option Waiting := none
  notifySeq : Nat := 0
deriving DecidableEq, Repr

/-- A subscription (R391): its session and SUB_ID, the entries watched, its PERIOD in ms and the instant at which its present period
ends, and the answers last sent (type code, status code, value bytes), in the entries' order; none before the first NOTIFY. -/
structure Sub where
  ss : Nat
  id : Nat
  keys : List Nat
  period : Nat
  due : Nat := 0
  last : Option (List (Nat × Nat × List Byte)) := none
deriving DecidableEq, Repr

/-- A saved image (R395): format version; generation; the part's revision; its grade and which units it has; the RW entries by their
dictionary keys (an entry not listed holds its reset value); the gains of the shadow banks; the memories P, X, Y of the rooms; the
wrapped keys by slot; the CRC-32C over the rest. -/
structure Image where
  version : Nat := 1
  gen : Nat
  rev : Nat
  fuse : Fuses
  regs : Sparse Nat := []
  gains : Sparse Nat := []
  mems : Sparse (Sparse Nat × Sparse Nat × Sparse Nat) := []
  wraps : Sparse (List Byte) := []
  crc : Nat := 0
deriving DecidableEq, Repr

/-- Boot flash as the device knows it (R396): its two image slots, each an image or none. Reset does not change it. -/
structure Flash where
  slot0 : Option Image := none
  slot1 : Option Image := none
deriving DecidableEq, Repr

/-- A save that runs (R396): the slot it writes, and FREEZE. -/
structure Save where
  slot : Nat
  freeze : Bool
deriving DecidableEq, Repr

/-- The dictionary engine beside its entries (R375 to R399): sessions by number, 0 the host port's; subscriptions; the
AUTH failures of the last 10 s (address, instant) and the addresses locked out with the instant of the lock; the hold of event 0xD002; the session whose
request is served and the cause for which it closes after its reply; a save. -/
structure Kdp where
  host : Session := { role := 4 }
  net : Sparse (Option Session) := []
  subs : List Sub := []
  fails : List (Nat × Nat) := []
  locked : List (Nat × Nat) := []
  hold : Hold := {}
  serving : Option Nat := none
  closing : Option Nat := none
  save : Option Save := none
deriving DecidableEq, Repr

/-- Start-up beside DEVICE_STATUS (R428 to R440): RESET_N low; LO_CLK being watched; the boot record awaited; fabric
initialisation complete; the load of saved state awaited; the production self-tests wanted, running, ended (the fabric initialised again after them). -/
structure Boot where
  low : Bool := true
  detect : Bool := false
  record : Bool := false
  fabric : Bool := false
  load : Bool := false
  testWant : Bool := false
  testing : Bool := false
  tested : Bool := false
deriving DecidableEq, Repr

/-- A Hall tile test that runs (R452): its first tile, how many, how many have had their turn, and the tile under test. -/
structure HallTest where
  first : Nat
  count : Nat
  turn : Nat := 0
  cur : Option Nat := none
deriving DecidableEq, Repr

/-- The state of the device. `regs` holds every dictionary entry's value under its key; `rc` is the raw counter (R57);
`free` is the model's own counter of free values drawn (log entry 3); `pending` the queue of commands (log entry 1). -/
structure State where
  fuse : Fuses
  regs : Sparse Nat
  rc : Nat
  path : PathState
  volt : VoltState
  time : TimeState
  ports : Sparse Port
  hearth : HearthState
  ptp : Sparse PtpPort
  stream : StreamState
  asrc : Sparse Asrc
  tdm : TdmState
  hall : HallState
  rooms : Sparse Room
  guard : GuardState
  cellar : Cellar
  dw : Option DwTest
  kdp : Kdp
  flash : Flash
  boot : Boot
  hallTest : Option HallTest
  ddrTest : Bool
  lb : Letterbox
  host : HostPort
  answer : Answer
  free : Nat
  pending : List Instr
deriving DecidableEq, Repr

/-- The device right after reset: every entry at its reset value (nothing listed), every unit off, every queue empty. -/
def State.reset : State where
  fuse := {}
  regs := []
  rc := 0
  path := {}
  volt := {}
  time := {}
  ports := []
  hearth := {}
  ptp := []
  stream := {}
  asrc := []
  tdm := {}
  hall := {}
  rooms := []
  guard := {}
  cellar := {}
  dw := none
  kdp := {}
  flash := {}
  boot := {}
  hallTest := none
  ddrTest := false
  lb := {}
  host := {}
  answer := {}
  free := 0
  pending := []

end Sys2Proof.Machine
end

