-- ==== Sys2Proof/Machine/Reset.lean ====
section
/-! DEFINITION. Where an entry of the dictionary stands (R361, R370), and what it reads as while nothing has written it: the
reset value of its fields, and the values that depend on the unit's number or on the part's production data. -/

namespace Sys2Proof.Machine

/-- The unit numbers of offset `off` from an entry's base, for (stride, count) letters from the widest, if it is one. -/
def splitDims : List (Nat × Nat) → Nat → Option (List Nat)
  | [], off => if off = 0 then some [] else none
  | (st, n) :: r, off =>
    if off / st < n then (splitDims r (off % st)).map (fun l => off / st :: l) else none

/-- The descriptor and unit numbers of a key among `l`. -/
def locateIn : List EntDesc → Nat → Option (EntDesc × Nat × Nat)
  | [], _ => none
  | d :: r, key =>
    if d.key ≤ key && (key - d.key) % 256 == 0 then
      match splitDims d.dims ((key - d.key) / 256) with
      | some l => some (d, l.getD 0 0, l.getD 1 0)
      | none => locateIn r key
    else locateIn r key

/-- The entry that stands at a key (index × 256 + subindex), with its unit numbers. -/
def locate (key : Nat) : Option (EntDesc × Nat × Nat) := locateIn entTable key

/-- The descriptor of an entry name. -/
def descOf (e : Ent) : Option EntDesc := entTable.find? (fun d => d.ent == e)

/-- The key of unit (`a`, `b`) of an entry. -/
def EntDesc.keyOf (d : EntDesc) (a b : Nat) : Nat :=
  match d.dims with
  | [] => d.key
  | [(s, _)] => d.key + a * s * 256
  | (s, _) :: (t, _) :: _ => d.key + (a * s + b * t) * 256

/-- The reset value of an entry's fields, each at its place. -/
def resetFields : List FieldD → Nat
  | [] => 0
  | f :: r => f.reset * 2 ^ f.lo + resetFields r

/-- The first `n` set bits of `raw` below `total`, topped up from the highest places: a mask of exactly `n` of `total` bits
(R11). -/
def pickMask : Nat → Nat → Nat → Nat
  | 0, _, _ => 0
  | _, 0, _ => 0
  | total + 1, n + 1, raw =>
    if raw % 2 == 1 || total < n + 1 then 1 + 2 * pickMask total n (raw / 2) else 2 * pickMask total (n + 1) (raw / 2)

/-- The enabled rooms (R6, R8, R11). -/
def Fuses.rooms (f : Fuses) : Nat := if f.grade = .q then pickMask 18 12 f.roomMask else 0x3FFFF

/-- The highest set bits of a mask of `n` bits, highest first. -/
def highBits : Nat → Nat → List Nat
  | 0, _ => []
  | n + 1, m => if m / 2 ^ n % 2 = 1 then n :: highBits n m else highBits n m

/-- The room number of guest slot `k`: the two highest enabled rooms, slot 0 the lower (R322). -/
def Fuses.guestRoom (f : Fuses) (k : Nat) : Nat := (highBits 18 f.rooms).getD (1 - k) 31

/-- Two bits per core: 1 for an enabled core (CORE_STATUS). -/
def Fuses.coresInService (f : Fuses) : Nat := ((List.range 18).map (fun c => f.rooms / 2 ^ c % 2 * 4 ^ c)).sum

/-- The enabled converters (R6, R8, R11). -/
def Fuses.asrcs (f : Fuses) : Nat := if f.grade = .q then pickMask 64 32 f.asrcMask else 0xFFFFFFFFFFFFFFFF

/-- The number of TDM ports enabled (R6, R8). -/
def Fuses.tdmPorts (f : Fuses) : Nat := if f.grade = .q then 24 else 48

/-- A MAC address of the part: three consecutive ones from production (R129). -/
def Fuses.mac (f : Fuses) (p : Nat) : Nat := f.macBase + p

/-- The clock identity made from a MAC address (0xFFFE in its middle, as IEEE 1588 has it; PRESUMED, log entry 9). -/
def clockIdOf (mac : Nat) : Nat := mac / 2 ^ 24 * 2 ^ 40 + 0xFFFE * 2 ^ 24 + mac % 2 ^ 24

/-- Reset values that the field tables give by rule rather than by number. -/
def resetRule (f : Fuses) (e : Ent) (a b base : Nat) : Nat :=
  match e with
  | .capGrade => match f.grade with | .f => 0x46 | .h => 0x48 | .q => 0x51
  | .capUnits =>
    match f.grade with
    | .f => base
    | .h => setField (setField base 0 1 0) 1 1 0
    | .q => setField (setField (setField (setField (setField base 0 1 0) 1 1 0) 8 5 12) 16 7 32) 24 6 24
  | .capTdmMask => 2 ^ f.tdmPorts - 1
  | .capRoomMask => f.rooms
  | .capAsrcMask => f.asrcs
  | .serial => f.serial
  | .portMac => f.mac a % 2 ^ 48
  | .ptpClockId => clockIdOf (f.mac a % 2 ^ 48)
  | .ptpPortCfg => setField base 48 2 a
  | .refCfg => setField (setField base 1 4 (a + 1)) 5 2 (if a < 2 then 2 else if a < 4 then 1 else 0)
  | .txqPfcClass => 7 - b
  | .mdCtrl => setField base 0 1 (if a = 0 then 1 else 0)
  | .roomGuardStatus => setField base 0 5 a
  | .deviceStatus => setField base 8 1 (b2n f.jtagLocked)
  | .loCfg => setField base 4 8 20
  | .vendorName => beNat (ascii "Dunvik Audio Silicon")
  | .partName => beNat (ascii "RVT1024")
  | _ => base

/-- What the entry at a key reads as while nothing has written it. -/
def resetOf (f : Fuses) (key : Nat) : Nat :=
  match locate key with
  | some (d, a, b) => resetRule f d.ent a b (resetFields d.fields)
  | none => 0

end Sys2Proof.Machine
end

