-- ==== Sys2Proof/Machine/Ops.lean ====
section
/-! DEFINITION. The named operations over the state that every command uses: reading and writing a dictionary field, a
counter's increment, drawing a free value, and posting an event to the Letterbox (R411 to R415, R422). -/

namespace Sys2Proof.Machine

/-- The value of the entry at a key. -/
def State.get (s : State) (key : Nat) : Nat := Sparse.get (resetOf s.fuse) s.regs key

/-- The state with the entry at a key holding `v`. -/
def State.put (s : State) (key v : Nat) : State := { s with regs := Sparse.put (resetOf s.fuse) s.regs key v }

/-- The value of a field. -/
def State.rd (s : State) (f : Fld) : Nat := field (s.get f.key) f.lo f.w

/-- Whether a field is not 0. -/
def State.on (s : State) (f : Fld) : Bool := s.rd f != 0

/-- The state with a field holding `v`. -/
def State.wr (s : State) (f : Fld) (v : Nat) : State := s.put f.key (setField (s.get f.key) f.lo f.w v)

/-- A counter's increment by `n`, saturating at all ones. -/
def State.bump (s : State) (f : Fld) (n : Nat) : State := s.wr f (min (s.rd f + n) (2 ^ f.w - 1))

/-- A flag field set to `b`. -/
def State.flag (s : State) (f : Fld) (b : Bool) : State := s.wr f (b2n b)

/-- A counter's increment by one where `c` holds. -/
def State.bumpIf (s : State) (c : Bool) (f : Fld) : State := if c then s.bump f 1 else s

/-- The next free value (log entry 3), and the state that has drawn it. -/
def State.draw (s : State) : Nat × State := (Config.freeNat s.free, { s with free := s.free + 1 })

/-- The state that answers `st` and no data. -/
def State.say (s : State) (st : Status) : State := { s with answer := { status := st } }

/-- The outcome of a command that completes. -/
abbrev Done := Host.Outcome State Fault Refusal

/-- Whether CLOCK_STATE is LOCKED. -/
def State.locked (s : State) : Bool := s.rd Reg.deviceStatusClockState == 2

/-- The instant of the raw counter that a command names moves it forward, never back; RC runs while the fixed-ratio PLL is locked
(R57, R437, R439). -/
def State.reach (s : State) (rc : Nat) : State := if s.locked then { s with rc := max s.rc rc } else s

/-- Words an item takes in a bank: the header and the payload (R411). -/
def LbItem.size (i : LbItem) : Nat := 1 + i.words.length

/-- Words used by a list of items. -/
def lbWords (l : List LbItem) : Nat := (l.map LbItem.size).sum

/-- An item placed into an ordered bank: after every item of its priority or higher (R413). -/
def lbInsert (i : LbItem) : List LbItem → List LbItem
  | [] => [i]
  | a :: r => if i.prio ≤ a.prio then a :: lbInsert i r else i :: a :: r

/-- The read order fixed at a swap: PRIORITY, highest first, then arrival (R413). -/
def lbOrder (l : List LbItem) : List LbItem := l.foldl (fun acc i => lbInsert i acc) []

/-- The overflow item of R415. -/
def lbOverflow (b : Letterbox) : LbItem :=
  { code := 0xD501, prio := 7, seq := b.seqNext % 256
    words := [min b.dropped 0xFFFF + min b.displaced 0xFFFF * 65536, b.firstLost.getD 0] }

/-- Whether an item has been lost since the last swap. -/
def Letterbox.lossy (b : Letterbox) : Bool := b.dropped != 0 || b.displaced != 0

/-- The bank swap of R413: the filling bank becomes the draining one in its read order, and the mark is discarded (revision
A1); after a loss the overflow item goes first into the new filling bank (R415). -/
def Letterbox.swap (b : Letterbox) : Letterbox :=
  { b with
    bank := 1 - b.bank, drain := lbOrder b.fill, cursor := 0, mark := none
    fill := if b.lossy then [lbOverflow b] else []
    seqNext := if b.lossy then (b.seqNext + 1) % 256 else b.seqNext
    dropped := 0, displaced := 0, firstLost := none }

/-- The swap where R413 calls for it: nothing unreleased in the draining bank and an item in the filling one. -/
def State.lbSwapIfDue (s : State) : State :=
  if s.lb.drain.isEmpty && !s.lb.fill.isEmpty then
    let s := (s.bump Reg.hpLbSwaps 1).bumpIf s.lb.lossy Reg.hpLbPosted
    { s with lb := s.lb.swap }
  else s

/-- The index of the item to remove first: lowest priority, latest arrival (R414). -/
def lbVictim : List LbItem → Nat → Option (Nat × Nat) → Option (Nat × Nat)
  | [], _, best => best
  | a :: r, i, best =>
    match best with
    | none => lbVictim r (i + 1) (some (i, a.prio))
    | some (j, p) => lbVictim r (i + 1) (if a.prio ≤ p then some (i, a.prio) else some (j, p))

/-- Items removed until `need` words fit, lowest priority and latest first, all of lower priority than `prio`; none where
that cannot make room (R414). Answers the bank left and the removed items. -/
def lbMakeRoom : Nat → Nat → Nat → List LbItem → List LbItem → Option (List LbItem × List LbItem)
  | 0, need, _, l, gone => if lbWords l + need ≤ 512 then some (l, gone) else none
  | n + 1, need, prio, l, gone =>
    if lbWords l + need ≤ 512 then some (l, gone)
    else
      match lbVictim l 0 none with
      | some (i, p) => if p < prio then lbMakeRoom n need prio (l.eraseIdx i) (gone ++ (l[i]?).toList) else none
      | none => none

/-- The first SEQ lost since the last swap, with `l` lost now. -/
def lbFirstLost (b : Letterbox) (l : List LbItem) : Option Nat :=
  match b.firstLost, l with
  | some n, _ => some n
  | none, a :: _ => some a.seq
  | none, [] => none

/-- A push of a complete item (R413, R414). -/
def State.lbPush (s : State) (i : LbItem) : State :=
  let s := if lbWords s.lb.fill + i.size ≤ 512 then s else s.lbSwapIfDue
  match lbMakeRoom s.lb.fill.length i.size i.prio s.lb.fill [] with
  | some (l, gone) =>
    let s := (s.bump Reg.hpLbPosted 1).bump Reg.hpLbDisplaced gone.length
    let b := { s.lb with fill := l ++ [i], displaced := s.lb.displaced + gone.length, firstLost := lbFirstLost s.lb gone }
    ({ s with lb := b }).lbSwapIfDue
  | none =>
    let s := s.bump Reg.hpLbDropped 1
    { s with lb := { s.lb with dropped := s.lb.dropped + 1, firstLost := lbFirstLost s.lb [i] } }

/-- The threshold of an event's code (R422). -/
def State.threshold (s : State) (code : Nat) : Nat :=
  match (List.range 16).find? (fun f => s.on (Reg.lbCodeFilterValid f) && s.rd (Reg.lbCodeFilterCode f) == code) with
  | some f => s.rd (Reg.lbCodeFilterMinPrio f)
  | none => s.rd (Reg.lbSubMinMinPrio (code / 4096 % 16))

/-- Whether an event of a code and priority is posted (R422). -/
def State.passes (s : State) (code prio : Nat) : Bool := s.threshold code ≤ prio

/-- A complete item reaches the arbiter: it takes the next SEQ and is pushed (R411, R413); one that a FLUSH cut in assembly is
swallowed up to its end marker, and takes no SEQ (R419, R421). -/
def State.lbSend (s : State) (e : LbEvent) : State :=
  match s.lb.cut.find? (fun p => p.1 == e.code) with
  | some p => State.bumpIf { s with lb := { s.lb with cut := s.lb.cut.erase p } } p.2 Reg.hpLbSwallowed
  | none =>
    let i : LbItem := { code := e.code, prio := e.prio, seq := s.lb.seqNext % 256, words := e.words }
    ({ s with lb := { s.lb with seqNext := (s.lb.seqNext + 1) % 256 } }).lbPush i

/-- An event with its payload words: where its priority reaches its threshold it is sent, or stands in its producer's assembly register
while a moment lasts (State.together); else it is counted in LB_FILTERED and reaches no assembly register (R412, R422). -/
def State.post (s : State) (code prio : Nat) (words : List Nat) : State :=
  if s.threshold code ≤ prio then
    let e : LbEvent := { code := code, prio := prio, words := words.map (· % 2 ^ 32) }
    match s.lb.asm with
    | some l => { s with lb := { s.lb with asm := some (l ++ [e]) } }
    | none => s.lbSend e
  else s.bump Reg.hpLbFiltered 1

/-- An event put among others in ascending order of CODE, behind those of its own code (R421). -/
def lbByCode (e : LbEvent) : List LbEvent → List LbEvent
  | [] => [e]
  | a :: r => if a.code ≤ e.code then a :: lbByCode e r else e :: a :: r

/-- The arbiter takes what stands in the assembly registers, in ascending order of CODE (R421). -/
def State.lbDeliver (s : State) : State :=
  match s.lb.asm with
  | none => s
  | some l => (l.foldl (fun acc e => lbByCode e acc) []).foldl State.lbSend { s with lb := { s.lb with asm := some [] } }

/-- A moment begins, unless one lasts already: items completed from here on reach the arbiter together. -/
def State.gather (s : State) : State := { s with lb := { s.lb with asm := some (s.lb.asm.getD []) } }

/-- The moment that began in `s` ends at `t`, unless it began before `s`. -/
def State.scatter (s t : State) : State :=
  if s.lb.asm.isSome then t else { t.lbDeliver with lb := { t.lbDeliver.lb with asm := none } }

/-- What `f` does, it does at one moment: the items it completes reach the arbiter together (R421). -/
def State.together (s : State) (f : State → State) : State := s.scatter (f s.gather)

/-- What `f` does, it does at a moment of its own, before what lasts on. -/
def State.apart (s : State) (f : State → State) : State :=
  match s.lb.asm with
  | none => s.together f
  | some _ => (f s.lbDeliver).lbDeliver

/-- Fields packed into one payload word: (lowest bit, value) pairs. -/
def pack (l : List (Nat × Nat)) : Nat := (l.map (fun p => p.2 * 2 ^ p.1)).sum

/-- A count as a 16-bit field, saturating. -/
def sat16 (n : Nat) : Nat := min n 0xFFFF

/-- The unit entries of a list taken in order. -/
def State.each {α : Type} (s : State) (l : List α) (f : State → α → State) : State := l.foldl f s

/-- The units below `n`, in order. -/
def State.units (s : State) (n : Nat) (f : State → Nat → State) : State := s.each (List.range n) f

/-- An occurrence under a hold-off: the window after it, and whether it is posted by itself (R475). -/
def Hold.hit (h : Hold) : Hold × Bool :=
  if h.active then ({ h with count := h.count + 1 }, false) else ({ active := true }, true)

/-- A hold-off window ends: the window after it, and the count to report (0: no event) (R475). -/
def Hold.lapse (h : Hold) : Hold × Nat :=
  if h.active && h.count != 0 then ({ active := true }, h.count) else ({}, 0)

/-- The nearest integer of a fraction; halves go up (DEDUCED, log entry 16). -/
def nearest (x : Nat × Nat) : Nat := (2 * x.1 + x.2) / (2 * x.2)

/-- The rates of R15 by RATE code, in hertz. -/
def rateHz (code : Nat) : Nat := [44100, 48000, 88200, 96000, 176400, 192000].getD code 48000

/-- Whether a domain is running (R40). -/
def State.running (s : State) (d : Nat) : Bool := s.on (Reg.domainRunRunning d)

/-- The rate of a domain in hertz (R122). -/
def State.domRate (s : State) (d : Nat) : Nat := rateHz (s.rd (Reg.mdCtrlRate d))

end Sys2Proof.Machine
end

