-- ==== Sys2Proof/Machine/Hallway.lean ====
section
/-! DEFINITION. The Hallway's codes, sinks and domains: which unit a code or a sink names, which domain it belongs to, and
what a SET of a sink or a change of a domain must keep (R16, R21 to R24, R245). -/

namespace Sys2Proof.Machine

/-- A source code taken apart (R21): class, unit, lane, channel. -/
structure Src where
  cls : Nat
  unit : Nat
  lane : Nat
  ch : Nat
deriving DecidableEq, Repr

/-- The source a well-formed code names; `none` for a fault of form (R21, R23). -/
def decodeSrc (n : Nat) : Option Src :=
  let cls := field n 28 4
  let only (l : List (Nat × Nat)) : Bool := n == pack ((28, cls) :: l.map (fun p => (p.1, field n p.1 p.2)))
  let mk (u l c : Nat) (fields : List (Nat × Nat)) (ok : Bool) : Option Src :=
    if only fields && ok then some ⟨cls, u, l, c⟩ else none
  match cls with
  | 0 => if n = 0 then some ⟨0, 0, 0, 0⟩ else none
  | 1 => mk (field n 16 8) 0 (field n 0 6) [(16, 8), (0, 6)] true
  | 2 => mk (field n 16 6) (field n 8 1) (field n 0 5) [(16, 6), (8, 1), (0, 5)] (field n 16 6 < 48)
  | 3 => mk (field n 16 5) 0 (field n 0 7) [(16, 5), (0, 7)] (field n 16 5 < 18)
  | 4 => mk 0 0 (field n 0 10) [(0, 10)] true
  | 5 => mk (field n 16 6) 0 (field n 0 3) [(16, 6), (0, 3)] true
  | 6 => mk (field n 0 4) 0 0 [(0, 4)] true
  | _ => none

/-- The units that belong to domains, as sinks and sources name them (R16). -/
inductive Owner where
  | txStream (ss : Nat) | rxStream (ss : Nat) | tdm (p : Nat) | room (r : Nat) | hall | asrcIn (c : Nat) | asrcOut (c : Nat)
  | tone (g : Nat)
deriving DecidableEq, Repr

/-- The unit a source belongs to; class 0 has none. -/
def Src.owner (x : Src) : Option Owner :=
  match x.cls with
  | 1 => some (.rxStream x.unit) | 2 => some (.tdm x.unit) | 3 => some (.room x.unit) | 4 => some .hall
  | 5 => some (.asrcOut x.unit) | 6 => some (.tone x.unit) | _ => none

/-- Whether a sink number (index − 0x700000) is that of a sink entry (R22). -/
def sinkExists (o : Nat) : Bool :=
  o < 0x4000 || (0x10000 ≤ o && o < 0x10C00) || (0x20000 ≤ o && o < 0x20900) || (0x30000 ≤ o && o < 0x30400)
    || (0x40000 ≤ o && o < 0x40200)

/-- The unit a sink belongs to (R22). -/
def sinkOwner (o : Nat) : Owner :=
  match o / 0x10000 with
  | 0 => .txStream (o / 64)
  | 1 => .tdm (o % 0x10000 / 64)
  | 2 => .room (o % 0x10000 / 128)
  | 3 => .hall
  | _ => .asrcIn (o % 0x10000 / 8)

/-- A sink that feeds a window, filled in stage 2; the others are filled in stage 4 (R17). -/
def sinkStage2 (o : Nat) : Bool := 0x20000 ≤ o

/-- A domain given by a valid bit and a number. -/
def domIf (v : Bool) (d : Nat) : Option Nat := if v then some d else none

/-- The domain a unit belongs to (R16, R200, R229). -/
def State.domainOf (s : State) : Owner → Option Nat
  | .txStream c => domIf (s.on (Reg.txCtrlDomainValid c)) (s.rd (Reg.txCtrlDomain c))
  | .rxStream c => domIf (s.on (Reg.rxCtrlDomainValid c)) (s.rd (Reg.rxCtrlDomain c))
  | .tdm p => domIf (s.on (Reg.tdmPortCfgDomainValid p) && !s.on (Reg.tdmPortCfgAsync p)) (s.rd (Reg.tdmPortCfgDomain p))
  | .room r => domIf (s.on (Reg.roomCtrlDomainValid r)) (s.rd (Reg.roomCtrlDomain r))
  | .hall => domIf (s.on Reg.hallCfgDomainValid) (s.rd Reg.hallCfgDomain)
  | .asrcIn c => domIf (s.on (Reg.asrcCfgDomainValid c) && !s.on (Reg.asrcCfgInKind c)) (s.rd (Reg.asrcCfgInDomain c))
  | .asrcOut c => domIf (s.on (Reg.asrcCfgDomainValid c) && !s.on (Reg.asrcCfgOutKind c)) (s.rd (Reg.asrcCfgOutDomain c))
  | .tone g => domIf (s.on (Reg.toneCtrlDomainValid g)) (s.rd (Reg.toneCtrlDomain g))

/-- Whether a unit is enabled in the part (R6, R9). -/
def Fuses.hasRoom (f : Fuses) (r : Nat) : Bool := r < 18 && bit f.rooms r

/-- Whether a converter is enabled in the part (R6, R9). -/
def Fuses.hasAsrc (f : Fuses) (c : Nat) : Bool := c < 64 && bit f.asrcs c

/-- Whether a unit that a code or sink names is enabled in the part (R9). -/
def Fuses.hasOwner (f : Fuses) : Owner → Bool
  | .tdm p => p < f.tdmPorts
  | .room r => f.hasRoom r
  | .asrcIn c => f.hasAsrc c
  | .asrcOut c => f.hasAsrc c
  | _ => true

/-- The sinks with a source that is not 0x00000000, by number. -/
def State.patched (s : State) : List Nat :=
  ((s.regs.keysIn 0x70000000 0x74020000).filter (fun k => k % 256 == 1)).map (fun k => (k - 0x70000000) / 256)

/-- The source code of a sink. -/
def State.source (s : State) (o : Nat) : Nat := s.rd (Reg.sinkSourceSource o)

/-- Whether a change of unit `u` to domain `nd` would leave a sink entry that crosses domains (R24); an entry within the unit
itself moves with it (R27). -/
def State.crosses (s : State) (u : Owner) (nd : Option Nat) : Bool :=
  s.patched.any fun o =>
    match (decodeSrc (s.source o)).bind Src.owner with
    | none => false
    | some src =>
      let snk := sinkOwner o
      if snk != u && src != u then false
      else
        let ds := if snk = u then nd else s.domainOf snk
        let dr := if src = u then nd else s.domainOf src
        ds.isNone || ds != dr

/-- The enabled delay lines (R350). -/
def State.lines (s : State) : List Nat :=
  ((s.regs.keysIn 0xC2000000 0xC2040000).filter (fun k => k % 256 == 1)).map (fun k => (k - 0xC2000000) / 256)
    |>.filter (fun n => s.on (Reg.dlyCfgEnable n))

/-- The sink number of a delay line. -/
def State.lineSink (s : State) (n : Nat) : Nat := s.rd (Reg.dlyCfgSink n) - 0x700000

/-- A change of domain that R24 refuses, or R352 for a unit whose sink has a delay line. -/
def State.moveBlocked (s : State) (u : Owner) (nd : Option Nat) : Bool :=
  s.domainOf u != nd && (s.crosses u nd || s.lines.any (fun n => sinkOwner (s.lineSink n) == u))

/-- Whether a sink entry names a Hall output from 512 upward (R245). -/
def State.namesHighHall (s : State) : Bool :=
  s.patched.any (fun o => match decodeSrc (s.source o) with | some x => x.cls == 4 && 512 ≤ x.ch | none => false)

/-- The state checks of a SET of SINK_SOURCE (R9, R23, R245). -/
def scSinkSource (s : State) (o n : Nat) : Status :=
  match decodeSrc n with
  | none => .outOfRange
  | some x =>
    match x.owner with
    | none => .ok
    | some u =>
      if !s.fuse.hasOwner u then .absent
      else if x.cls = 4 && 512 ≤ x.ch && (match s.domainOf .hall with | some d => 176400 ≤ s.domRate d | none => false)
      then .outOfRange
      else if (s.domainOf u).isSome && s.domainOf u == s.domainOf (sinkOwner o) then .ok
      else .conflict

/-- SINK_STATUS of a sink: its unit's domain, and whether the copy runs (R22). -/
def State.sinkStatus (s : State) (o : Nat) : Nat :=
  let d := s.domainOf (sinkOwner o)
  let inRange := match sinkOwner o with | .txStream c => o % 64 < s.rd (Reg.txCtrlChannels c) | _ => true
  let copying := s.source o != 0 && (match d with | some k => s.running k | none => false) && inRange
  pack [(0, d.getD 0), (2, b2n d.isSome), (3, b2n copying)]

/-- Whether any unit belongs to domain `d` (R16, R122). -/
def State.domainUsed (s : State) (d : Nat) : Bool :=
  let is (u : Owner) : Bool := s.domainOf u == some d
  (List.range 256).any (fun c => is (.txStream c) || is (.rxStream c)) || (List.range 48).any (fun p => is (.tdm p))
    || (List.range 18).any (fun r => is (.room r)) || is .hall || (List.range 64).any (fun c => is (.asrcIn c) || is (.asrcOut c))
    || (List.range 16).any (fun g => is (.tone g))

/-- Whether a rate belongs to the 44.1 kHz family. -/
def family441 (rate : Nat) : Bool := rate % 44100 == 0

/-- The multiple of the base rate: 1, 2 or 4. -/
def rateMult (rate : Nat) : Nat := if rate < 88200 then 1 else if rate < 176400 then 2 else 4

end Sys2Proof.Machine
end

