-- ==== Sys2Proof/Machine/Ports.lean ====
section
/-! DEFINITION. The network ports: frame lengths, transmit queues, segmentation, pause, ESMC, half duplex, the receive ring
(R126 to R157). Port 0 is A, 1 is B, 2 is M. -/

namespace Sys2Proof.Machine

/-- Port `p` beside its entries. -/
def State.port (s : State) (p : Nat) : Port := Sparse.get (fun _ => {}) s.ports p

/-- The state with port `p` replaced. -/
def State.setPort (s : State) (p : Nat) (x : Port) : State :=
  { s with ports := Sparse.put (fun _ => {}) s.ports p x }

/-- Whether a port is enabled. -/
def State.portEnabled (s : State) (p : Nat) : Bool :=
  if p = 2 then s.on Reg.mCfgEnable else s.on (Reg.portCfgEnable p)

/-- Whether a port's link is up. -/
def State.linkUp (s : State) (p : Nat) : Bool := s.on (Reg.portStatusLink p)

/-- The big-endian number in bytes `i` to `i + n - 1` of a frame. -/
def at_ (l : List Byte) (i n : Nat) : Nat := beNat ((l.drop i).take n)

/-- FRAME_CFG of port `p`. -/
def State.frameCfg (s : State) (p : Nat) : Nat := s.get (Reg.frameCfgVlanAware p).key

/-- FRAME_CFG of port `p` as it stood at a point of quarter counts: what stood before the earliest SET after it (R134). -/
def State.frameCfgAt (s : State) (p q : Nat) : Nat :=
  ((s.port p).frameCfgs.foldl (fun v x => if q < 4 * x.2 then some x.1 else v) none).getD (s.frameCfg p)

/-- A SET of FRAME_CFG: frames under way on the line go by the value before it; the longest takes less than 10 ms (R134). -/
def applyFrameCfg (s : State) (p old : Nat) : State :=
  let x := s.port p
  s.setPort p { x with frameCfgs := (old, s.rc) :: x.frameCfgs.filter (fun y => s.rc ≤ y.2 + 5000000) }

/-- Whether a frame carries a VLAN tag under a FRAME_CFG (VLAN_AWARE and EtherType 0x8100). -/
def tagged (cfg : Nat) (l : List Byte) : Bool := bit cfg 0 && at_ l 12 2 == 0x8100

/-- The receive limit L under a FRAME_CFG (R131). -/
def limit (cfg : Nat) (tag : Bool) : Nat :=
  if bit cfg 1 then field cfg 16 14 else if tag && bit cfg 0 then 1522 else 1518

/-- The length with FCS of a frame given without it, after padding to 60 bytes (R133). -/
def wireLen (l : List Byte) : Nat := max l.length 60 + 4

/-- The number of transmit queues of a port (R137). -/
def queueCount (p : Nat) : Nat := if p = 2 then 4 else 8

/-- The queue of the device's own traffic (R140). -/
def ownQueue (p : Nat) : Nat := if p = 2 then 0 else 2

/-- Queue `q` of port `p`. -/
def State.queue (s : State) (p q : Nat) : List Send := Sparse.get (fun _ => []) (s.port p).queues q

/-- The state with a queue replaced. -/
def State.setQueue (s : State) (p q : Nat) (l : List Send) : State :=
  s.setPort p { s.port p with queues := Sparse.put (fun _ => []) (s.port p).queues q l }

/-- Bytes of queue space in use by queue `q` (A, B) or by the four queues together (M) (R141). -/
def State.queueUsed (s : State) (p q : Nat) : Nat :=
  if p = 2 then ((List.range 4).map (fun k => ((s.queue p k).map Send.space).sum)).sum
  else ((s.queue p q).map Send.space).sum

/-- Bytes free to a queue; TQ0 and TQ1, which R141 gives no space, take every frame, and 24 KiB less what they hold is shown of them
(R141; DESIGN CHOICE, log entry 50). -/
def State.queueFree (s : State) (p q : Nat) : Nat := (if p = 2 then 98304 else 24576) - s.queueUsed p q

/-- Whether a send of `n` bytes fits a queue (R141). -/
def State.queueFits (s : State) (p q n : Nat) : Bool :=
  (s.queue p q).length < (if p = 2 then 32 else 16) && n ≤ s.queueFree p q

/-- A pause of port `p`. -/
def State.pause (s : State) (p c : Nat) : Pause := Sparse.get (fun _ => {}) (s.port p).pauses c

/-- The state with a pause replaced. -/
def State.setPause (s : State) (p c : Nat) (x : Pause) : State :=
  s.setPort p { s.port p with pauses := Sparse.put (fun _ => {}) (s.port p).pauses c x }

/-- Whether a pause holds: running and not ignored (R145). -/
def State.pauseHolds (s : State) (p c : Nat) : Bool := (s.pause p c).on && !(s.pause p c).ignored

/-- Whether a queue is paused (R143). -/
def State.queuePaused (s : State) (p q : Nat) : Bool :=
  s.pauseHolds p 8 || (p != 2 && s.pauseHolds p (s.rd (Reg.txqPfcClassClass p q)))

/-- The counts of RC for which a queue has been paused and that TX_PAUSE_TIME does not show yet. -/
def State.pauseDue (s : State) (p : Nat) : Nat :=
  let x := s.port p
  x.pausedRest + (match x.pausedSince with | some t => s.rc - t | none => 0)

/-- TX_PAUSE_TIME counts the microseconds of pause up to now (R158). -/
def State.pauseSettle (s : State) (p : Nat) : State :=
  let n := s.pauseDue p
  let x := s.port p
  (s.bump (Reg.portTxPauseTime p) (n / 500)).setPort p
    { x with pausedRest := n % 500, pausedSince := x.pausedSince.map (fun _ => s.rc) }

/-- PAUSED and WD_ACTIVE of PORT_STATUS follow the pauses, and TX_PAUSE_TIME the time for which a queue is paused (R158). -/
def State.pauseStatus (s : State) (p : Nat) : State :=
  let s := s.pauseSettle p
  let now := (List.range (queueCount p)).any (s.queuePaused p)
  let s := (s.flag (Reg.portStatusPaused p) now).flag (Reg.portStatusWdActive p)
    ((List.range 9).any (fun c => (s.pause p c).ignored))
  s.setPort p { s.port p with pausedSince := if now then some s.rc else none }

/-- Whether port M runs half duplex. -/
def State.halfDuplex (s : State) (p : Nat) : Bool := p == 2 && s.linkUp 2 && !s.on (Reg.portStatusFullDuplex 2)

/-- The first frame of a queue, and the queue without it. -/
def popFrame : List Send → Option (TxFrame × List Send)
  | [] => none
  | x :: r =>
    match x.frames with
    | [] => popFrame r
    | [f] => some (f, r)
    | f :: fs => some (f, { x with frames := fs } :: r)

/-- A media packet that has waited longer than its packet time (R139). -/
def TxFrame.stale (f : TxFrame) (rc : Nat) : Bool :=
  match f.media with | some (t, w, _) => t + w < rc | none => false

/-- The media packets gone stale leave TQ1 and are counted, by port and by context (R139, R195). -/
def State.dropStale (s : State) (p : Nat) : State :=
  if p = 2 then s
  else
    let l := s.queue p 1
    let keep := l.filter (fun x => !x.frames.any (fun f => f.stale s.rc))
    if keep.length = l.length then s
    else
      let gone := (l.flatMap (fun x => x.frames)).filter (fun f => f.stale s.rc)
      let s := s.each gone fun s f => match f.media with | some (_, _, c) => s.bump (Reg.txTxStale c) 1 | none => s
      (s.bump (Reg.portTxMediaStale p) (l.length - keep.length)).setQueue p 1 keep

/-- The oldest frame of the lowest-numbered queue that holds one and is not paused goes onto a free wire (R138). In half
duplex it waits for the carrier to be absent (R149). Nothing starts without the clock (R435, R439). -/
def State.txStart (s : State) (p : Nat) : State :=
  if (s.port p).wire.isSome || !s.linkUp p || !s.locked then s
  else
    let s := s.dropStale p
    let q := (List.range (queueCount p)).find? (fun q => !(s.queue p q).isEmpty && !s.queuePaused p q)
    match q.bind (fun q => (popFrame (s.queue p q)).map (fun x => (q, x))) with
    | some (q, f, r) =>
      let s := s.setQueue p q r
      s.setPort p { s.port p with wire := some f, hd := if s.halfDuplex p then .carrier else .sending, hdAttempts := 0 }
    | none => s

/-- A send joins a queue (R140, R141). -/
def State.enqueue (s : State) (p q : Nat) (frames : List TxFrame) (space : Nat) : State :=
  (s.setQueue p q (s.queue p q ++ [{ frames := frames, space := space }])).txStart p

/-- A frame of the device's own joins its queue, or is dropped and counted in `lost` where it does not fit; an ARP reply, which has no
counter, is dropped uncounted (R140, R394; DESIGN CHOICE, log entry 50). -/
def State.sendOwn (s : State) (p : Nat) (bytes : List Byte) (lost : Option Fld) : State :=
  if s.linkUp p && s.queueFits p (ownQueue p) bytes.length then
    s.enqueue p (ownQueue p) [{ bytes := bytes }] bytes.length
  else match lost with | some f => s.bump f 1 | none => s

/-- Every queued frame of a port is discarded and counted in TX_LINK_DROP, the frame that waits for the carrier or a backoff among
them (R142, R149). A pause in force goes on (DESIGN CHOICE, log entry 50). -/
def State.dropQueues (s : State) (p : Nat) : State :=
  let n := ((List.range (queueCount p)).map (fun q => ((s.queue p q).map (fun x => x.frames.length)).sum)).sum
  let w := b2n ((s.port p).wire.isSome && ((s.port p).hd == .carrier || (s.port p).hd == .backoff))
  (s.bump (Reg.portTxLinkDrop p) (n + w)).setPort p { s.port p with queues := [], wire := none, hd := .idle }

/-- LINK changes: the status fields, LINK_DOWNS, the queues of a link lost, SEEN of a link that comes up, and event 0x3001
(R128, R142, R146, R159). A frame that waits for the carrier or a backoff while the duplex turns full waits on (DESIGN CHOICE, log
entry 50). -/
def State.setLink (s : State) (p : Nat) (up : Bool) (speed : Nat) (full : Bool) : State :=
  if s.linkUp p = up && s.rd (Reg.portStatusSpeed p) = speed && s.on (Reg.portStatusFullDuplex p) = full then s
  else
    let changed := s.linkUp p != up
    let s := ((s.flag (Reg.portStatusLink p) up).wr (Reg.portStatusSpeed p) speed).flag (Reg.portStatusFullDuplex p) full
    if !changed then s
    else
      let s := if up then (if p = 2 then s else s.wr (Reg.esmcStatusSeen p) 0)
        else (s.bump (Reg.portLinkDowns p) 1).dropQueues p
      s.post 0x3001 5 [pack [(0, p), (2, b2n up), (3, speed), (5, b2n full)]]

/-- The ones' complement sum of 16-bit words. -/
def onesSum : List Byte → Nat
  | a :: b :: r => a.toNat * 256 + b.toNat + onesSum r
  | [a] => a.toNat * 256
  | [] => 0

/-- The Internet checksum of a byte string. -/
def inetCsum (l : List Byte) : Nat :=
  let f (n : Nat) : Nat := n % 65536 + n / 65536
  65535 - f (f (f (onesSum l)))

/-- The bytes `v` written over a list from place `i`. -/
def overlay (l : List Byte) (i : Nat) (v : List Byte) : List Byte := l.take i ++ v ++ l.drop (i + v.length)

/-- A UDP datagram in a frame from port `p` (R130, R371), with a checksum or without; DSCP, TTL and identification, which no rule
states, are free values (log entry 3). -/
def State.udpFrame (s : State) (p mac ip sport dport : Nat) (sum : Bool) (data : List Byte) : List Byte × State :=
  let (v, s) := s.draw
  let h := natBe 1 0x45 ++ natBe 1 (field v 0 6 * 4) ++ natBe 2 (28 + data.length) ++ natBe 2 (field v 8 16) ++ natBe 2 0
    ++ natBe 1 (field v 24 8) ++ natBe 1 17 ++ natBe 2 0 ++ natBe 4 (s.rd (Reg.portIpv4Addr p)) ++ natBe 4 ip
  let h := overlay h 10 (natBe 2 (inetCsum h))
  let u := natBe 2 sport ++ natBe 2 dport ++ natBe 2 (8 + data.length) ++ natBe 2 0 ++ data
  let k := inetCsum ((h.drop 12).take 8 ++ [0, 17] ++ natBe 2 u.length ++ u)
  (natBe 6 mac ++ natBe 6 (s.rd (Reg.portMacMac p)) ++ natBe 2 0x0800 ++ h
    ++ (if sum then overlay u 6 (natBe 2 (if k = 0 then 65535 else k)) else u), s)

/-- Where the IPv4 header of a frame begins: after at most one tag (R150). -/
def ipOff (l : List Byte) : Nat := if at_ l 12 2 = 0x8100 then 18 else 14

/-- Whether a send may be segmented (R150). -/
def segOk (l : List Byte) (tcp : Bool) (size limitU limitT : Nat) : Bool :=
  let o := ipOff l
  let ihl := at_ l o 1 % 16 * 4
  let t := o + ihl
  let l4 := if tcp then at_ l (t + 12) 1 / 16 * 4 else 8
  let h := t + l4
  let full := h + size + 4
  1 ≤ size && at_ l (o - 2) 2 == 0x0800 && at_ l o 1 / 16 == 4 && 20 ≤ ihl && ihl ≤ 60
    && at_ l (o + 6) 2 % 0x4000 == 0 && at_ l (o + 9) 1 == (if tcp then 6 else 17)
    && 8 ≤ l4 && (!tcp || 20 ≤ l4) && h ≤ l.length
    && (!tcp || at_ l (t + 13) 1 / 32 % 2 == 0)
    && full ≤ (if o = 18 then limitT else limitU)

/-- Segment `k` of a segmented send (R151). -/
def segment (l : List Byte) (tcp : Bool) (size k : Nat) : List Byte :=
  let o := ipOff l
  let ihl := at_ l o 1 % 16 * 4
  let t := o + ihl
  let l4 := if tcp then at_ l (t + 12) 1 / 16 * 4 else 8
  let pay := (l.drop (t + l4)).drop (k * size)
  let last := pay.length ≤ size
  let pay := pay.take size
  let ip := (l.drop o).take ihl
  let ip := overlay ip 2 (natBe 2 (ihl + l4 + pay.length))
  let ip := overlay ip 4 (natBe 2 (at_ l (o + 4) 2 + k))
  let ip := overlay ip 10 [0, 0]
  let ip := overlay ip 10 (natBe 2 (inetCsum ip))
  let h := (l.drop t).take l4
  let fl := at_ l (t + 13) 1
  let fl := setField fl 0 1 (if last then fl else 0)
  let fl := setField fl 3 1 (if last then fl / 8 else 0)
  let fl := setField fl 7 1 (if k = 0 then fl / 128 else 0)
  let h := if tcp then
      overlay (overlay (overlay h 4 (natBe 4 (at_ l (t + 4) 4 + k * size))) 13 (natBe 1 fl)) 16 [0, 0]
    else overlay (overlay h 4 (natBe 2 (8 + pay.length))) 6 [0, 0]
  let pseudo := (ip.drop 12).take 8 ++ [0, if tcp then 6 else 17] ++ natBe 2 (l4 + pay.length)
  let c := inetCsum (pseudo ++ h ++ pay)
  let h := overlay h (if tcp then 16 else 6) (natBe 2 (if c = 0 && !tcp then 65535 else c))
  l.take o ++ ip ++ h ++ pay

/-- The frames a segmented send leaves as (R150, R151). -/
def segments (l : List Byte) (tcp : Bool) (size : Nat) : List TxFrame :=
  let o := ipOff l
  let t := o + at_ l o 1 % 16 * 4
  let h := t + (if tcp then at_ l (t + 12) 1 / 16 * 4 else 8)
  let n := max 1 ((l.length - h + size - 1) / size)
  (List.range n).map (fun k => { bytes := segment l tcp size k })

/-- The frame of a TXQ_SEND value: its bytes after the 4-byte header word. -/
def txqFrame (raw : List Byte) : List Byte := raw.drop 4

/-- What of the range of a TXQ_SEND the value alone shows: segmentation on port M only, of a send that R150 allows, and 14 bytes at
least of a frame (R133, R150, R388). -/
def txqShape (p : Nat) (raw : List Byte) : Bool :=
  let n := blobNat (raw.take 4)
  let l := txqFrame raw
  if field n 30 1 = 1 then p == 2 && l.length ≤ 65536 && segOk l (field n 29 1 == 1) (field n 0 14) 65536 65536 else 14 ≤ l.length

/-- A TXQ_SEND in range (R133, R150). -/
def State.txqInRange (s : State) (p : Nat) (raw : List Byte) : Bool :=
  let n := blobNat (raw.take 4)
  let l := txqFrame raw
  if field n 30 1 = 1 then
    p == 2 && l.length ≤ 65536 && segOk l (field n 29 1 == 1) (field n 0 14) (limit (s.frameCfg p) false) (limit (s.frameCfg p) true)
  else 14 ≤ l.length && wireLen l ≤ limit (s.frameCfg p) (tagged (s.frameCfg p) l)

/-- The state checks of a TXQ_SEND (R141, R142). -/
def State.txqCheck (s : State) (p q : Nat) (raw : List Byte) : Status :=
  if p ≠ 2 ∧ q < 2 then .conflict
  else if !s.linkUp p || !s.portEnabled p then .conflict
  else if !s.queueFits p q (txqFrame raw).length then .busy
  else .ok

/-- A TXQ_SEND queues its frame or its segments (R141, R150 to R152). -/
def State.txqSend (s : State) (p q : Nat) (raw : List Byte) : State :=
  let n := blobNat (raw.take 4)
  let l := txqFrame raw
  if field n 30 1 = 1 then s.enqueue p q (segments l (field n 29 1 == 1) (field n 0 14)) l.length
  else s.enqueue p q [{ bytes := l ++ List.replicate (60 - l.length) 0 }] l.length

/-- Buffers of 256 bytes in use in a receive ring (R153). -/
def Port.ringUsed (x : Port) : Nat := (x.ring.map (fun f => (f.2.length + 255) / 256)).sum

/-- An accepted frame for the host goes into the ring under the next SEQ, or is dropped and reported (R153, R154, R156). -/
def State.toRing (s : State) (p : Nat) (l : List Byte) : State :=
  let x := s.port p
  if x.ringUsed + (l.length + 255) / 256 ≤ 64 then
    s.setPort p { x with ring := x.ring ++ [(x.ringSeq, l)], ringSeq := (x.ringSeq + 1) % 65536 }
  else
    let s := s.bump (Reg.portRxRingDrop p) 1
    if x.ringHold.active then s.setPort p { x with ringHold := { x.ringHold with count := x.ringHold.count + 1 } }
    else (s.setPort p { x with ringHold := { active := true } }).post 0x3002 3 [pack [(0, p), (16, 1)]]

/-- RING_DROP_WINDOW_END: the 100 ms hold-off of a port's ring drops ends (R156, R475). -/
def execRingDropWindowEnd (p : Nat) (s : State) : Done :=
  .next (let h := (s.port p).ringHold
    if !h.active then s
    else if h.count = 0 then s.setPort p { s.port p with ringHold := {} }
    else (s.setPort p { s.port p with ringHold := { active := true } }).post 0x3002 3 [pack [(0, p), (16, sat16 h.count)]])

/-- RXR_FRAME's value as bytes: SEQ and LENGTH, then the oldest frame (R155). -/
def State.ringFrame (s : State) (p : Nat) : List Byte :=
  match (s.port p).ring with
  | (q, l) :: _ => natBe 4 (pack [(0, q), (16, l.length)]) ++ l
  | [] => natBe 4 (s.port p).ringSeq

/-- RXR_RELEASE must name the SEQ of the oldest frame (R155). -/
def scRxrRelease (s : State) (p n : Nat) : Status :=
  match (s.port p).ring with
  | (q, _) :: _ => if n % 65536 = q then .ok else .conflict
  | [] => .conflict

/-- The oldest frame of the ring is freed (R155). -/
def applyRxrRelease (s : State) (p : Nat) : State := s.setPort p { s.port p with ring := (s.port p).ring.drop 1 }

/-- A received MAC control frame acts on the pauses (R143 to R145). -/
def State.macControl (s : State) (p : Nat) (l : List Byte) : State :=
  let s := s.bump (Reg.portRxPause p) 1
  let mode := s.rd (Reg.pauseCfgPauseMode p)
  let op := at_ l 14 2
  let load (s : State) (c t : Nat) : State :=
    if (s.pause p c).ignored then s
    else s.setPause p c { s.pause p c with on := t != 0, quanta := t }
  let s :=
    if s.halfDuplex p then s
    else if mode = 1 ∧ op = 1 then load s 8 (at_ l 16 2)
    else if mode = 2 ∧ op = 0x0101 then
      s.units 8 fun s c => if bit (at_ l 16 2) c then load s c (at_ l (18 + 2 * c) 2) else s
    else s
  (s.pauseStatus p).txStart p

/-- A SET of TXQ_PFC_CLASS: a queue that leaves a paused class is free to send (R138, R143). -/
def applyTxqPfcClass (s : State) (p : Nat) : State := (s.pauseStatus p).txStart p

/-- PAUSE_EXPIRY: a pause of port `p` (class 0 to 7, or 8 for 802.3x) runs out (R144). -/
def execPauseExpiry (p c : Nat) (s : State) : Done :=
  .next (((s.setPause p c { s.pause p c with on := false, quanta := 0 }).pauseStatus p).txStart p)

/-- PAUSE_WD_TRIP: a pause has held for WD_TIME; it is ignored for WD_HOLD, while its time runs on, counted and reported (R145). -/
def execPauseWdTrip (p c : Nat) (s : State) : Done :=
  .next (if s.on (Reg.pauseCfgWdEn p) && s.pauseHolds p c then
    let s := s.setPause p c { s.pause p c with ignored := true }
    let s := (s.bump (Reg.portPauseWdTrips p) 1).post 0x3003 5
      [pack [(0, p), (2, if c < 8 then 1 else 0), (8, if c < 8 then c else 0)]]
    (s.pauseStatus p).txStart p
  else s)

/-- PAUSE_WD_HOLD_END: WD_HOLD ends and the pause is honoured again (R145). -/
def execPauseWdHoldEnd (p c : Nat) (s : State) : Done :=
  .next ((s.setPause p c { s.pause p c with ignored := false }).pauseStatus p)

/-- HD_COLLISION: a collision `bits` bit times after the start of the preamble; a late one or the sixteenth discards the
frame, otherwise the port backs off `r` slot times, `r` a free value from 0 to 2^k − 1 (R149). -/
def execHdCollision (bits : Nat) (s : State) : Done :=
  .next (let x := s.port 2
    if x.hd ≠ .sending ∨ x.wire.isNone ∨ !s.halfDuplex 2 ∨ !s.locked then s
    else if 512 ≤ bits then
      ((s.bump (Reg.portTxLateColl 2) 1).setPort 2 { x with wire := none, hd := .idle }).txStart 2
    else if x.hdAttempts + 1 = 16 then
      ((s.bump (Reg.portTxExcessColl 2) 1).setPort 2 { x with wire := none, hd := .idle }).txStart 2
    else
      let (v, s) := s.draw
      s.setPort 2 { x with hd := .backoff, hdAttempts := x.hdAttempts + 1, hdSlots := v % 2 ^ min (x.hdAttempts + 1) 10 })

/-- HD_BACKOFF_END: the backoff ends and the frame is tried again once the carrier is absent (R149). -/
def execHdBackoffEnd (s : State) : Done :=
  .next (if (s.port 2).hd = .backoff && s.locked then s.setPort 2 { s.port 2 with hd := .carrier } else s)

/-- HD_CARRIER_IDLE: the carrier has been absent for 96 bit times and the frame that waits is transmitted; `deferred` says
that carrier was present when it became ready (R149). -/
def execHdCarrierIdle (deferred : Bool) (s : State) : Done :=
  .next (let x := s.port 2
    if x.hd = .carrier && s.locked then
      (s.bumpIf (deferred && x.hdAttempts == 0) (Reg.portTxDeferred 2)).setPort 2 { x with hd := .sending }
    else s)

/-- A valid ESMC PDU as R146 defines it: ITU-T OUI, subtype 1, version 1, a QL TLV of length 4 first. -/
def esmcValid (l : List Byte) : Bool :=
  at_ l 15 3 == 0x0019A7 && at_ l 18 2 == 1 && at_ l 20 1 / 16 == 1 && at_ l 24 1 == 1 && at_ l 25 2 == 4 && 28 ≤ l.length

/-- The enhanced SSM code of an ESMC PDU: of the first extended QL TLV, type 2 and length 20, among the TLVs from place `i` on; the
list of at most `n` TLVs ends where a TLV does not fit (R146). -/
def esmcEnhanced (l : List Byte) : Nat → Nat → Option Nat
  | 0, _ => none
  | n + 1, i =>
    let k := at_ l (i + 1) 2
    if k < 3 || l.length < i + k then none
    else if at_ l i 1 = 2 && k = 20 then some (at_ l (i + 3) 1)
    else esmcEnhanced l n (i + k)

/-- ESMC_STATUS after a valid PDU (R146); the counters follow R158. -/
def State.esmc (s : State) (p : Nat) (l : List Byte) : State :=
  if esmcValid l then
    let ext := esmcEnhanced l l.length 28
    let s := (s.bump (Reg.portEsmcRx p) 1).wr (Reg.esmcStatusSsm p) (at_ l 27 1 % 16)
    let s := match ext with | some k => s.wr (Reg.esmcStatusEnhanced p) k | none => s
    let s := (s.flag (Reg.esmcStatusExt p) ext.isSome).wr (Reg.esmcStatusSeen p) 1
    s.setPort p { s.port p with esmcAt := some s.rc }
  else s.bump (Reg.portEsmcBad p) 1

/-- AGE of ESMC_STATUS: seconds since the last valid PDU, saturating at 255; 0 before the first (R146). -/
def State.esmcAge (s : State) (p : Nat) : Nat :=
  match (s.port p).esmcAt with | some t => min 255 ((s.rc - t) / 500000000) | none => 0

/-- The FEC modes of R126. -/
def fecOk (rate fec : Nat) : Bool := fec ≤ 1 || (fec == 2 && rate == 1)

/-- A PORT_CFG in range: R126, and R127's part without 25G. -/
def vcPortCfg (f : Fuses) (n : Nat) : Bool := fecOk (field n 1 1) (field n 2 2) && (field n 1 1 == 0 || f.grade == .f)

/-- A change of RATE or FEC with ENABLE 1 is refused (R127). -/
def scPortCfg (s : State) (p n : Nat) : Status :=
  if s.on (Reg.portCfgEnable p)
      && (s.rd (Reg.portCfgRate p) != field n 1 1 || s.rd (Reg.portCfgFec p) != field n 2 2) then .conflict else .ok

/-- The speed code of a media port's RATE (PORT_STATUS). -/
def mediaSpeed (rate : Nat) : Nat := if rate = 1 then 3 else 2

end Sys2Proof.Machine
end

