-- ==== Sys2Proof/Machine/Time.lean ====
section
/-! DEFINITION. Local time: the time views and their schedules, target conversion, event capture (R57 to R67, R71, R83, R88). -/

namespace Sys2Proof.Machine

/-- The modulus of a view time: 2^48 s in units of 2^-16 ns (R60). -/
def timeMod : Nat := 2 ^ 48 * 1000000000 * 65536

/-- A time in units of 2^-16 ns, in the TIME representation (R60). -/
def toTime (t : Int) : Nat :=
  let u := (t % (timeMod : Int)).toNat
  let ns := u / 65536
  ns / 1000000000 * 2 ^ 48 + ns % 1000000000 * 2 ^ 16 + u % 65536

/-- The time in units of 2^-16 ns that a TIME value spells (R60). -/
def ofTime (n : Nat) : Nat :=
  (n / 2 ^ 48 % 2 ^ 48 * 1000000000 + n / 2 ^ 16 % 2 ^ 32) * 65536 + n % 65536

/-- A TIME value is well formed: its nanoseconds are below 10⁹ (R60). -/
def timeOk (n : Nat) : Bool := n / 2 ^ 16 % 2 ^ 32 < 1000000000

/-- The signed difference of two times, the nearer way round (R60). -/
def timeDiff (a b : Int) : Int :=
  let d := (a - b) % (timeMod : Int)
  if d < timeMod / 2 then d else d - timeMod

/-- The view `v` beside its entries. -/
def State.view (s : State) (v : Nat) : View := Sparse.get (fun _ => {}) s.time.views v

/-- The state with view `v` replaced. -/
def State.setView (s : State) (v : Nat) (w : View) : State :=
  { s with time := { s.time with views := Sparse.put (fun _ => {}) s.time.views v w } }

/-- The line OFFSET + trunc(RATE × x / 2^32) at a point of quarter counts (R59). -/
def lineAt (offset rate x : Nat) : Int := sext 96 offset + (rate * x / 2 ^ 32 : Nat)

/-- OFFSET after a schedule applies at A (R62). -/
def newOffset (offset r0 r1 a : Nat) (step : Nat) : Nat :=
  ofInt 96 (sext 96 offset + (r0 * a / 2 ^ 30 : Nat) - (r1 * a / 2 ^ 30 : Nat) + sext 96 step)

/-- The line in force at a point of quarter counts: the earliest of those that ended behind it, else the present one (R71). -/
def lineInForce : List PastLine → Nat → Nat × Nat → Nat × Nat
  | [], _, now => now
  | e :: l, x, now => if x < 4 * e.upTo then lineInForce l x (e.offset, e.rate) else now

/-- OFFSET and RATE of view `v` in force at a point of quarter counts: those a pending schedule brings from its apply point,
those of before an apply point up to it (R62, R71). -/
def State.viewParams (s : State) (v x : Nat) : Nat × Nat :=
  let o := s.rd (Reg.tvOffsetOffset v)
  let r := s.rd (Reg.tvRateRate v)
  let now := lineInForce (s.view v).past x (o, r)
  match (s.view v).sched with
  | some c =>
    if 4 * c.at_ ≤ x then (newOffset o r (c.rate.getD r) c.at_ (c.step.getD 0), c.rate.getD r) else now
  | none => now

/-- View `v`'s time at a point of quarter counts, in units of 2^-16 ns (R59). -/
def State.viewAt (s : State) (v x : Nat) : Int :=
  let p := s.viewParams v x
  lineAt p.1 p.2 x

/-- The least point of quarter counts at which a line of OFFSET `o` and RATE `r` reaches `t` (R59). -/
def lineReaches (o : Int) (r : Nat) (t : Int) : Nat := ((t - o).toNat * 2 ^ 32 + r - 1) / r

/-- View `v`'s time now. -/
def State.viewNow (s : State) (v : Nat) : Int := s.viewAt v (4 * s.rc)

/-- Whether view `v` has reached a target (in units of 2^-16 ns) at RC (R83). -/
def State.viewReached (s : State) (v target : Nat) : Bool := target ≤ (s.viewNow v % (timeMod : Int)).toNat

/-- The first RC value from `from_` on at which a line reaches or passes a target, modulo R60's range (R83). -/
def lineFirst (p : Nat × Nat) (target from_ : Nat) : Nat :=
  let now := lineAt p.1 p.2 (4 * from_)
  max from_ ((lineReaches (sext 96 p.1) p.2 ((target : Int) + (now - now % (timeMod : Int))) + 3) / 4)

/-- The first RC value from `from_` on at which view `v` reaches or passes a target, by the lines in force at each point (R83). -/
def State.viewReaches (s : State) (v target from_ : Nat) : Nat :=
  let a := s.rd (Reg.tvLastApplyA v)
  let c := lineFirst (s.viewParams v (4 * from_)) target from_
  if from_ < a && a ≤ c then lineFirst (s.viewParams v (4 * a)) target a else c

/-- The trigger unit `tt` beside its entries. -/
def State.trig (s : State) (tt : Nat) : Trig := Sparse.get (fun _ => {}) s.time.trigs tt

/-- The state with a trigger unit replaced. -/
def State.setTrig (s : State) (tt : Nat) (t : Trig) : State :=
  { s with time := { s.time with trigs := Sparse.put (fun _ => {}) s.time.trigs tt t } }

/-- Every armed trigger of view `v` is converted again from the apply point `a` on; one whose value came before it has been
reached already (R83). -/
def State.reconvert (s : State) (v a : Nat) : State :=
  s.units 32 fun s tt =>
    if s.on (Reg.ttStatusArmed tt) && s.rd (Reg.ttCtrlView tt) == v && a ≤ (s.trig tt).conv then
      s.setTrig tt { s.trig tt with conv := s.viewReaches v (s.trig tt).target a }
    else s

/-- A schedule accepted for view `v`: at its point, or ASAP at the first RC after acceptance; a point already reached counts
as ASAP and sets APPLIED_LATE; it replaces a pending one, whose point RC has not reached (R63, R64; State.advance). -/
def State.schedule (s : State) (v : Nat) (at_ : Option Nat) (rate step : Option Nat) (owner : Bool) : State :=
  let late := match at_ with | some a => decide (a ≤ s.rc) | none => false
  let a := match at_ with | some a => if a ≤ s.rc then s.rc + 1 else a | none => s.rc + 1
  let s := if late then s.wr (Reg.tvStatusAppliedLate v) 1 else s
  let s := s.setView v { s.view v with sched := some { at_ := a, rate := rate, step := step, owner := owner } }
  s.wr (Reg.tvStatusPending v) 1

/-- The pending schedule of view `v` is cancelled (R64, R66). -/
def State.unschedule (s : State) (v : Nat) : State :=
  (s.setView v { s.view v with sched := none }).wr (Reg.tvStatusPending v) 0

/-- The pair of domain `d` and view `v` takes its next edge after a step (R168). -/
def State.markStep (s : State) (d v : Nat) : State :=
  { s with time := { s.time with stepped := Sparse.put (fun _ => false) s.time.stepped (d * 4 + v) true } }

/-- The view's line up to A joins those it ran by before; of two changes at one A the line before the first stands (R62, R71). -/
def View.ended (w : View) (a o r : Nat) : View :=
  if (w.past.head?.map PastLine.upTo) = some a then w else { w with past := { upTo := a, offset := o, rate := r } :: w.past }

/-- View `v` changes at A: OFFSET and RATE by R62, A is recorded, FREE_RUN clears where its owner changes it, and triggers convert
again (R62, R63, R67, R83). -/
def State.changeView (s : State) (v : Nat) (c : Sched) : State :=
  let o := s.rd (Reg.tvOffsetOffset v)
  let r := s.rd (Reg.tvRateRate v)
  let r1 := c.rate.getD r
  let s := s.setView v ((s.view v).ended c.at_ o r)
  let s := (s.wr (Reg.tvOffsetOffset v) (newOffset o r r1 c.at_ (c.step.getD 0))).wr (Reg.tvRateRate v) r1
  let s := s.wr (Reg.tvLastApplyA v) c.at_
  let s := if c.owner then s.wr (Reg.tvStatusFreeRun v) 0 else s
  let s := if c.step.getD 0 = 0 then s else s.units 4 fun s d => s.markStep d v
  s.reconvert v c.at_

/-- RC reaches the apply point of view `v`'s schedule and it applies (R62, R63). -/
def State.applySchedule (s : State) (v : Nat) (c : Sched) : State := ((s.reach c.at_).unschedule v).changeView v c

/-- A TV_SCHEDULE in range: a rate it carries lies within R61's bounds. -/
def vcTvSchedule (n : Nat) : Bool :=
  field n 112 1 == 0 || (0x7FDF3B645A1C ≤ field n 64 48 && field n 64 48 ≤ 0x8020C49BA5E3)

/-- Who may write TV_SCHEDULE (R65). -/
def scTvSchedule (s : State) (v n : Nat) : Status :=
  let src := s.rd (Reg.tvSource v)
  if src = 1 ∨ (src = 2 ∧ field n 112 1 = 1) then .conflict else .ok

/-- A TV_SCHEDULE acts: schedules, or cancels the pending schedule (R63, R64). -/
def applyTvSchedule (s : State) (v n : Nat) : State :=
  let rate := if field n 112 1 = 1 then some (field n 64 48) else none
  let step := if field n 113 1 = 1 then some (field n 128 96) else none
  if rate.isNone && step.isNone then s.unschedule v
  else s.schedule v (if field n 114 1 = 1 then none else some (field n 0 64)) rate step (s.rd (Reg.tvSource v) == 0)

/-- The EVT_IN pin `i` beside its entries. -/
def State.evt (s : State) (i : Nat) : EvtPin := Sparse.get (fun _ => {}) s.time.evts i

/-- The state with an EVT_IN pin replaced. -/
def State.setEvt (s : State) (i : Nat) (p : EvtPin) : State :=
  { s with time := { s.time with evts := Sparse.put (fun _ => {}) s.time.evts i p } }

/-- Whether EDGE selects an edge (R88). -/
def edgeSelected (edge : Nat) (rising : Bool) : Bool :=
  edge == 3 || (edge == 1 && rising) || (edge == 2 && !rising)

/-- The value of EVT_CAPTURE: the oldest capture, or VALID 0 (R89). -/
def State.captureWord (s : State) (i : Nat) : Nat :=
  match (s.evt i).fifo with
  | c :: _ => pack [(0, c.t), (96, c.q), (162, b2n c.rising), (163, 1), (176, c.seq)]
  | [] => 0

/-- A GET of EVT_CAPTURE removes the oldest capture (R89). -/
def State.captureTake (s : State) (i : Nat) : State := s.setEvt i { s.evt i with fifo := (s.evt i).fifo.drop 1 }

/-- The TRIG_OUT pin `o`. -/
def State.out (s : State) (o : Nat) : OutPin := Sparse.get (fun _ => {}) s.time.outs o

/-- The state with a TRIG_OUT pin replaced. -/
def State.setOut (s : State) (o : Nat) (p : OutPin) : State :=
  { s with time := { s.time with outs := Sparse.put (fun _ => {}) s.time.outs o p } }

/-- A firing on TRIG_OUT pin `o`, its edge at point `q` of quarter counts: a pulse begins or begins again, or the pin inverts (R86). -/
def State.trigOut (s : State) (o q : Nat) : State :=
  match s.rd (Reg.trigOutCfgMode o) with
  | 1 => s.setOut o { active := true, pulse := true, edge := q }
  | 2 => s.setOut o { active := !(s.out o).active, edge := q }
  | _ => s

/-- A SET of TRIG_OUT_CFG: modes 0 and 3 hold the pin inactive or active; in mode 1 a running pulse goes on and the pin is else
inactive; in mode 2 it keeps its level (R86; DEDUCED, log entry 45). -/
def applyTrigOutCfg (s : State) (o : Nat) : State :=
  match s.rd (Reg.trigOutCfgMode o) with
  | 0 => s.setOut o {}
  | 1 => if (s.out o).pulse then s else s.setOut o {}
  | 3 => s.setOut o { active := true }
  | _ => s.setOut o { s.out o with pulse := false }

/-- The level driven on TRIG_OUT pin `o` (R86, POLARITY). -/
def State.trigOutLevel (s : State) (o : Nat) : Bool := (s.out o).active != s.on (Reg.trigOutCfgPolarity o)

end Sys2Proof.Machine
end

