-- ==== Sys2Proof/Machine/Hearth.lean ====
section
/-! DEFINITION. The Hearth: candidates, qualification, selection, the DPLL's states, holdover, the phase step and the slewed
outputs (R91 to R122). -/

namespace Sys2Proof.Machine

/-- A second in units of 2^-16 ns. -/
def secondU : Nat := 65536000000000

/-- A line's time at a point of quarter counts (R59). -/
def Line.time (l : Line) (x : Nat) : Int := l.offset + (l.rate * x / 2 ^ 32 : Nat)

/-- A line that takes another rate at a point of quarter counts, and goes on from the time it has there (R62). -/
def Line.turn (l : Line) (rate x : Nat) : Line := { rate := rate, offset := l.time x - (rate * x / 2 ^ 32 : Nat) }

/-- A difference reduced into (−p/2, p/2] (R114, R115). -/
def reduceHalf (d : Int) (p : Nat) : Int := if 2 * (d % p) ≤ p then d % p else d % p - p

/-- A difference of times reduced to the nearest edge of a grid of `hz` per second; of the fraction of a unit the floor. -/
def reduceTo (d : Int) (hz : Nat) : Int := reduceHalf (d * hz) secondU / hz

/-- DPLL time now, in units of 2^-16 ns (R113). -/
def State.dpllNow (s : State) : Int := s.hearth.dpll.time (4 * s.rc)

/-- The state with another line of DPLL time. -/
def State.setDpll (s : State) (l : Line) : State := { s with hearth := { s.hearth with dpll := l } }

/-- The point of quarter counts at which DPLL time reaches `k` / `n` tick periods of domain `d` (R113). -/
def State.gridAt (s : State) (d : Nat) (k : Int) (n : Nat) : Nat :=
  lineReaches s.hearth.dpll.offset s.hearth.dpll.rate (-(-(k * secondU) / ((n * s.domRate d : Nat) : Int)))

/-- The point of quarter counts at which edge `k` of the grid of domain `d` comes (R113). -/
def State.edgeAt (s : State) (d : Nat) (k : Int) : Nat := s.gridAt d k 1

/-- The first edge of the grid of domain `d` from now on (R113, R122). -/
def State.gridNow (s : State) (d : Nat) : Int := -(-(s.dpllNow * s.domRate d) / secondU)

/-- The tick of a domain in progress. -/
def State.tick (s : State) (d : Nat) : DomTick := Sparse.get (fun _ => {}) s.path.ticks d

/-- The state with it replaced. -/
def State.setTick (s : State) (d : Nat) (t : DomTick) : State :=
  { s with path := { s.path with ticks := Sparse.put (fun _ => {}) s.path.ticks d t } }

/-- The edges by which a step δ moves the count of the grid of domain `d`: what is left of δ lies in (−T/2, T/2] (R115). -/
def State.gridShift (s : State) (d : Nat) (x : Int) : Int :=
  (x * s.domRate d - reduceHalf (x * s.domRate d) secondU) / secondU

/-- Candidate `c` beside its entries. -/
def State.cand (s : State) (c : Nat) : Cand := Sparse.get (fun _ => {}) s.hearth.cands c

/-- The state with a candidate replaced. -/
def State.setCand (s : State) (c : Nat) (x : Cand) : State :=
  { s with hearth := { s.hearth with cands := Sparse.put (fun _ => {}) s.hearth.cands c x } }

/-- What an output still has to slew at a point of quarter counts, at most SLEW_MAX × 0.1 ppm since the slew began (R117). -/
def Slew.left (e : Slew) (max_ x : Nat) : Int :=
  let gone := (x - e.at_) * 32768 * max_ / 10000000
  if 0 ≤ e.err then (e.err.toNat - gone : Nat) else -(e.err.natAbs - gone : Nat)

/-- The point of quarter counts at which a slew ends. -/
def Slew.ends (e : Slew) (max_ : Nat) : Nat := e.at_ + (e.err.natAbs * 10000000 + 32768 * max_ - 1) / (32768 * max_)

/-- A slew whose aligned position moves by `d` at a point of quarter counts, on a grid of `hz` per second: the short way (R117). -/
def Slew.moved (e : Slew) (d : Int) (hz max_ x : Nat) : Slew :=
  let r := reduceTo (e.left max_ x + d) hz
  if r = 0 then {} else { err := r, at_ := x }

/-- SLEW_MAX. -/
def State.slewMax (s : State) : Nat := s.rd Reg.dpllCfgSlewMax

/-- The slew of output `o`: 0 and 1 the word clocks, 2 PPS_OUT. -/
def State.outSlew (s : State) (o : Nat) : Slew := Sparse.get (fun _ => {}) s.hearth.slews o

/-- The slewing flag of output `o`. -/
def slewFlag (o : Nat) : Fld :=
  match o with | 0 => Reg.outSlewStatusWclk0 | 1 => Reg.outSlewStatusWclk1 | _ => Reg.outSlewStatusPps

/-- The slew of an output replaced, its flag with it. -/
def State.setOutSlew (s : State) (o : Nat) (e : Slew) : State :=
  { s with hearth := { s.hearth with slews := Sparse.put (fun _ => {}) s.hearth.slews o e } }.flag (slewFlag o) (e.err != 0)

/-- Output `o`'s aligned position moves by `d` on a grid of `hz` per second (R117). -/
def State.slewOut (s : State) (o : Nat) (d : Int) (hz : Nat) : State :=
  s.setOutSlew o ((s.outSlew o).moved d hz s.slewMax (4 * s.rc))

/-- The slew of a TDM side replaced: its SLEWING, and TDM of OUT_SLEW_STATUS (R117). -/
def State.setSideSlew (s : State) (k : Nat) (e : Slew) : State :=
  let x := Sparse.get (fun _ => ({} : TdmSide)) s.tdm.sides k
  let s := { s with tdm := { s.tdm with sides := Sparse.put (fun _ => {}) s.tdm.sides k { x with slew := e } } }
  let s := s.flag (Reg.sideStatusSlewing (k / 2) (k % 2)) (e.err != 0)
  s.flag Reg.outSlewStatusTdm ((List.range 96).any (fun k => s.on (Reg.sideStatusSlewing (k / 2) (k % 2))))

/-- The frequency in hertz at which WCLK_OUT `w` has rising edges, and how many ticks apart (R119). -/
def State.wclkHz (s : State) (w : Nat) : Nat × Nat :=
  let rate := s.domRate (s.rd (Reg.wclkOutCfgDomain w))
  let n := if s.rd (Reg.wclkOutCfgMode w) = 2 then (if rate < 88200 then 1 else if rate < 176400 then 2 else 4) else 1
  (rate / n, n)

/-- Whether WCLK_OUT `w` has edges (WCLK_OUT_CFG). -/
def State.wclkRuns (s : State) (w : Nat) : Bool := s.on (Reg.wclkOutCfgMode w) && s.running (s.rd (Reg.wclkOutCfgDomain w))

/-- The quality rank of an SSM code (R94). -/
def ssmRank (c : Nat) : Nat :=
  match c with | 2 => 1 | 4 => 2 | 8 => 3 | 0xB => 4 | 0xF => 6 | _ => 5

/-- The quality rank of an enhanced SSM code (R94). -/
def enhancedRank (c : Nat) : Nat :=
  match c with | 0x20 => 1 | 0x21 => 1 | 0x23 => 1 | 0x22 => 4 | 0xF => 6 | _ => 5

/-- The quality rank of a PTP clockClass (R94). -/
def classRank (c : Nat) : Nat :=
  match c with
  | 6 => 1 | 13 => 1 | 7 => 2 | 14 => 2 | 52 => 3 | 187 => 3 | 58 => 4 | 193 => 4 | 255 => 6 | _ => 5

/-- The code QL_RAW reports: the last SSM or enhanced code, or clockClass (R94). -/
def State.qlRaw (s : State) (c : Nat) : Nat :=
  match s.rd (Reg.refCfgQlSrc c) with
  | 1 => if s.on (Reg.esmcStatusExt (c - 2)) then s.rd (Reg.esmcStatusEnhanced (c - 2)) else s.rd (Reg.esmcStatusSsm (c - 2))
  | 2 => s.rd (Reg.ptpParentGmClass c)
  | _ => 0

/-- The present quality rank of candidate `c`; 0 while OFF (R94). -/
def State.rank (s : State) (c : Nat) : Nat :=
  if s.rd (Reg.refStatusState c) = 0 then 0
  else match s.rd (Reg.refCfgQlSrc c) with
    | 1 => if s.on (Reg.esmcStatusExt (c - 2)) then enhancedRank (s.rd (Reg.esmcStatusEnhanced (c - 2)))
           else ssmRank (s.rd (Reg.esmcStatusSsm (c - 2)))
    | 2 => classRank (s.rd (Reg.ptpParentGmClass c))
    | _ => s.rd (Reg.refCfgQlCfg c)

/-- Whether a candidate takes the Hearth's own output under HEARTH_LOOP (R448). -/
def State.looped (s : State) (c : Nat) : Bool :=
  (c == 4 && s.on Reg.hearthLoopLoop0) || (c == 5 && s.on Reg.hearthLoopLoop1)

/-- Whether candidate `c` is eligible (R101, R448). -/
def State.eligible (s : State) (c : Nat) : Bool :=
  s.rd (Reg.refStatusState c) == 4 && s.rd (Reg.refCfgPriority c) != 0 && s.rank c ≤ s.rd Reg.hearthCtrlQlMin && !s.looped c

/-- The order of eligible candidates as one number: rank (where QL_ENABLE), PRIORITY, number; the least is the best (R101). -/
def State.order (s : State) (c : Nat) : Nat :=
  (if s.on Reg.hearthCtrlQlEnable then s.rank c * 256 else 0) + s.rd (Reg.refCfgPriority c) * 16 + c

/-- The best eligible candidate (R101). -/
def State.best (s : State) : Option Nat :=
  ((List.range 10).filter s.eligible).foldl
    (fun b c => match b with | none => some c | some a => if s.order c < s.order a then some c else some a) none

/-- The candidate acquired or tracked; 15 is none. -/
def State.selected (s : State) : Nat := s.rd Reg.hearthStatusSelected

/-- Whether a candidate is a phase candidate (R91). -/
def State.phaseCand (s : State) (c : Nat) : Bool :=
  c < 2 || c == 8 || c == 9 || (4 ≤ c && c ≤ 7 && s.rd (Reg.refCfgMode c) < 2)

/-- A phase candidate's phase periods per second; `none` for PTP (R91, R114). -/
def State.phaseHz (s : State) (c : Nat) : Option Nat :=
  if c < 2 then none
  else if c = 8 ∨ c = 9 then
    let p := s.rd (Reg.refCfgTdmPort c)
    some (if s.on (Reg.tdmPortCfgAsync p) then rateHz (s.rd (Reg.tdmPortCfgAsyncRate p))
      else s.domRate (s.rd (Reg.tdmPortCfgDomain p)))
  else if s.rd (Reg.refCfgMode c) = 1 then some 1
  else some (rateHz (s.rd (Reg.refCfgSub c)))

/-- The Hearth's own schedule for a view it steers: a rate, and a step in units of 2^-16 ns, ASAP; it replaces one that is pending,
and what the Hearth itself wrote at this RC goes with it as one schedule (R63 to R65, R118; DEDUCED, log entry 46). -/
def State.hearthWrite (s : State) (v : Nat) (rate : Option Nat) (d : Int) : State :=
  let old := match (s.view v).sched with
    | some c => if c.owner && c.at_ == s.rc + 1 then (c.rate, sext 96 (c.step.getD 0)) else (none, 0)
    | none => (none, 0)
  let d := d + old.2
  s.schedule v none (rate <|> old.1) (if d = 0 then none else some (ofInt 96 d)) true

/-- A step δ reaches converter `c`: each of its sides on the grid takes its share, what δ leaves of the side's ticks, at its next edge;
the step is counted there (R237). -/
def State.convStep (s : State) (c : Nat) (d : Int) : State :=
  let x : Asrc := Sparse.get (fun _ => {}) s.asrc c
  let side (kind dom : Fld) (m : Meter) : Option Meter :=
    if s.rd kind = 0 && s.running (s.rd dom) then
      some { m with share := m.share + 2 * reduceTo d (s.domRate (s.rd dom)) }
    else none
  let i := side (Reg.asrcCfgInKind c) (Reg.asrcCfgInDomain c) x.inSide
  let o := side (Reg.asrcCfgOutKind c) (Reg.asrcCfgOutDomain c) x.outSide
  if s.on (Reg.asrcCfgEnable c) && (i.isSome || o.isSome) then
    let x := { x with inSide := i.getD x.inSide, outSide := o.getD x.outSide, steps := x.steps + 1 }
    { s with asrc := Sparse.put (fun _ => {}) s.asrc c x }
  else s

/-- A step δ acts: the tick that contains it ends early or late, the pairs of the running domains step at their next edge, the
converters absorb it (R237), the view the Hearth steers steps with it, and the frame and pulse outputs slew into alignment (R114 to
R118). -/
def State.hearthStep (s : State) (d : Int) (moveView : Bool) : State :=
  if d = 0 then s
  else
    let s := s.units 4 fun s k =>
      if s.running k then
        (s.setTick k { s.tick k with next := (s.tick k).next + s.gridShift k d }).units 4 fun s v => s.markStep k v
      else s
    let s := s.units 4 fun s v =>
      if moveView && s.rd (Reg.tvSource v) == 2 then s.hearthWrite v none d else s
    let s := s.units 64 fun s c => s.convStep c d
    let s := s.units 2 fun s w => if s.wclkRuns w then s.slewOut w d (s.wclkHz w).1 else s
    s.units 96 fun s k =>
      if s.on (Reg.sideCtrlMaster (k / 2) (k % 2)) && s.on (Reg.tdmPortCfgDomainValid (k / 2)) && !s.on (Reg.tdmPortCfgAsync (k / 2))
          && 3 ≤ s.rd (Reg.sideStatusState (k / 2) (k % 2)) then
        let x := Sparse.get (fun _ => ({} : TdmSide)) s.tdm.sides k
        let dom := s.rd (Reg.tdmPortCfgDomain (k / 2))
        let n := x.nextFrame + s.gridShift dom (x.slew.left s.slewMax (4 * s.rc) + d)
        let s := { s with tdm := { s.tdm with sides := Sparse.put (fun _ => {}) s.tdm.sides k { x with nextFrame := n } } }
        s.setSideSlew k (x.slew.moved d (s.domRate dom) s.slewMax (4 * s.rc))
      else s

/-- The quality the Hearth advertises: clockClass, clockAccuracy, offsetScaledLogVariance, timeSource, SSM code (R96). -/
def State.quality (s : State) : Nat × Nat × Nat × Nat × Nat :=
  let c := s.selected
  let src := if c < 2 then 0x40 else if 4 ≤ c ∧ c ≤ 7 ∧ s.rd (Reg.refCfgMode c) = 1 then 0x20 else 0x90
  match s.rd Reg.hearthStatusState with
  | 2 =>
    match s.rank c with
    | 1 => (13, 0x21, 0x4E5D, src, 0x2)
    | 2 => (14, 0x23, 0x4E5D, src, 0x4)
    | 3 => (187, 0x25, 0x6400, src, 0x8)
    | 4 => (193, 0x25, 0x6400, src, 0xB)
    | _ => (248, 0xFE, 0xFFFF, src, 0x0)
  | 3 =>
    if s.on Reg.hearthStatusHoInSpec && (s.hearth.lastRank == 1 || s.hearth.lastRank == 2) then (14, 0x25, 0x6400, 0xA0, 0x4)
    else if s.on Reg.hearthStatusHoInSpec && (s.hearth.lastRank == 3 || s.hearth.lastRank == 4) then
      (193, 0xFE, 0xFFFF, 0xA0, 0xB)
    else (248, 0xFE, 0xFFFF, 0xA0, 0xB)
  | _ => (248, 0xFE, 0xFFFF, 0xA0, 0xB)

/-- The bandwidth stages from `f` mHz down to `last`, each a tenth of the one before (R109). -/
def stagesFrom : Nat → Nat → Nat → List Nat
  | 0, _, last => [last]
  | n + 1, f, last => if f ≤ last then [last] else f :: stagesFrom n (f / 10) last

/-- The bandwidth stages of candidate `c` in mHz, and whether TRACK_BW is clamped (R109). -/
def State.stages (s : State) (c : Nat) : List Nat × Bool :=
  let pps := 4 ≤ c && c ≤ 7 && s.rd (Reg.refCfgMode c) == 1
  let t := s.rd Reg.dpllCfgTrackBw
  if pps then (stagesFrom 8 50 (min t 50), decide (50 < t)) else (stagesFrom 8 100000 t, false)

/-- A truncated, saturated count of ns of a step in units of 2^-16 ns (R124). -/
def stepNs (d : Int) : Nat := ofInt 32 (clampInt (-2147483647) 2147483647 (Int.tdiv d 65536))

/-- The history's span: HIST_LEN seconds that end GUARD seconds before the present (R110). -/
def State.histSpan (s : State) : List Int :=
  (s.hearth.history.drop (s.rd Reg.holdoverCfgGuard)).take (s.rd Reg.holdoverCfgHistLen)

/-- HIST_VALID and HIST_FREQ follow the history and its settings; HIST_FREQ stays in HOLDOVER (R110). -/
def State.histRefresh (s : State) : State :=
  let l := s.histSpan
  let s := s.flag Reg.hearthStatusHistValid (decide (10 ≤ l.length))
  if s.rd Reg.hearthStatusState = 3 || l.isEmpty then s
  else s.wr Reg.histFreqFreq (ofInt 32 (l.sum / (l.length : Int)))

/-- A decision of the automatic modes: candidate to be on, if it differs from the present one (R102). -/
def State.autoTarget (s : State) : Option (Option Nat) :=
  let c := s.selected
  match s.rd Reg.hearthCtrlSelMode with
  | 0 => if s.best = (if c < 10 then some c else none) && c < 10 then none else some s.best
  | 1 => if c < 10 && s.eligible c then none else some s.best
  | _ => none

/-- The status fields that follow from the rest: RANK, QL_RAW, ELIGIBLE, SELECTED of every candidate; SSM_OUT, CLASS_OUT,
BW_CLAMPED, and SWITCH_PENDING, which tells of a decision that waits for LOCKED; and the rank of the candidate tracked, which a
later holdover is entered from (R94, R96, R101, R103, R109). -/
def State.refRefresh (s : State) : State :=
  let s := s.units 10 fun s c =>
    let s := (s.wr (Reg.refStatusRank c) (s.rank c)).wr (Reg.refStatusQlRaw c) (s.qlRaw c)
    (s.flag (Reg.refStatusEligible c) (s.eligible c)).flag (Reg.refStatusSelected c) (s.selected == c)
  let c := s.selected
  let s := if c < 10 && s.rd (Reg.refStatusState c) == 4 then { s with hearth := { s.hearth with lastRank := s.rank c } } else s
  let q := s.quality
  let s := (s.wr Reg.hearthStatusClassOut q.1).wr Reg.hearthStatusSsmOut q.2.2.2.2
  let s := s.flag Reg.hearthStatusBwClamped (c < 10 && (s.stages c).2)
  s.flag Reg.hearthStatusSwitchPending (s.rd Reg.hearthStatusState == 1 && (s.hearth.deferred ||
    (match s.autoTarget with | some t => t != some c | none => false)))

/-- The Hearth's state or selected candidate changes: counted, and event 0x1002 posted; a HOLDOVER left releases HIST_FREQ (R108,
R110, R124). -/
def State.hearthGo (s : State) (state cand : Nat) (step : Int) : State :=
  let old := s.rd Reg.hearthStatusState
  let oldC := s.selected
  if old = state && oldC = cand && step = 0 then s
  else
    let s := (s.wr Reg.hearthStatusState state).wr Reg.hearthStatusSelected cand
    let s := if cand < 10 then { s with hearth := { s.hearth with lastCand := cand } } else s
    let s := if old = 3 && state != 3 then s.histRefresh else s
    (s.bump Reg.switchCountSwitches 1).post 0x1002 6
      [pack [(0, state), (2, cand), (8, old), (10, oldC), (14, if step = 0 then 0 else 1)], stepNs step]

/-- The view that feeds PTP candidate `c`: that of the port's settings, port A's with BC_ENABLE (R81, R91). -/
def State.candView (s : State) (c : Nat) : Nat := s.rd (Reg.ptpPortCfgView (if s.on Reg.ptpBcBcEnable then 0 else c))

/-- The RATE of a line that runs `f` × 0.1 ppb off the local oscillator (R59, R118). -/
def rateOf (f : Int) : Nat := ((2 ^ 47 : Nat) * (10000000000 + f) / 10000000000).toNat

/-- The offset of a RATE from 2.0 in 0.1 ppb, truncated downward (R97). -/
def offsetOf (rate : Nat) : Int := ((rate : Int) - (2 ^ 47 : Nat)) * 10000000000 / (2 ^ 47 : Nat)

/-- The DPLL takes a rate now; DPLL time goes on without a step, and the view the Hearth steers takes the rate with it (R111, R113,
R118). -/
def State.dpllTurn (s : State) (rate : Nat) : State :=
  let s := s.setDpll (s.hearth.dpll.turn rate (4 * s.rc))
  s.units 4 fun s v => if s.rd (Reg.tvSource v) == 2 then s.hearthWrite v (some rate) 0 else s

/-- The DPLL takes a frequency, in 0.1 ppb (DPLL_FREQ). -/
def State.dpllTune (s : State) (f : Int) : State := (s.wr Reg.dpllFreqFreq (ofInt 32 f)).dpllTurn (rateOf f)

/-- While a PTP candidate is tracked DPLL time is its view's time (R113; DEDUCED, log entry 46). -/
def State.dpllFollow (s : State) : State :=
  let c := s.selected
  let st := s.rd Reg.hearthStatusState
  if c < 2 && (st == 1 || st == 2) then
    let v := s.candView c
    let r := s.rd (Reg.tvRateRate v)
    let s := (s.wr Reg.dpllFreqFreq (ofInt 32 (offsetOf r))).dpllTurn r
    s.setDpll { offset := sext 96 (s.rd (Reg.tvOffsetOffset v)), rate := r }
  else s

/-- The time of a phase candidate now, modulo its phase period: PTP's is its view's; of the others time runs from the last edge at
the offset last measured (R91, R113; DEDUCED, log entry 46). Of a TDM-FS candidate that edge is the side's frame start edge,
whatever EDGE says (R92, R224; DEDUCED, log entry 46). -/
def State.candTime (s : State) (c : Nat) : Int :=
  if c < 2 then s.viewNow (s.candView c)
  else
    let x := s.cand c
    let p := s.rd (Reg.refCfgTdmPort c)
    let e := if c < 8 then x.edge else ((Sparse.get (fun _ => ({} : TdmSide)) s.tdm.sides (p * 2 + 1)).last).getD x.edge
    (rateOf (x.offs.headD 0) * (4 * s.rc - e) / 2 ^ 32 : Nat)

/-- The step δ that makes candidate `c`'s phase hold at once (R114). -/
def State.stepTo (s : State) (c : Nat) : Int :=
  if !s.phaseCand c then 0
  else
    match s.phaseHz c with
    | none => s.candTime c - s.dpllNow
    | some hz => reduceTo (s.candTime c - s.dpllNow) hz

/-- ACQUIRING on candidate `c`: bandwidth staging starts, and on a phase candidate DPLL time steps by δ (R108, R109, R114). -/
def State.acquire (s : State) (c : Nat) : State :=
  let s := s.wr Reg.hearthStatusStage 0
  let d := s.stepTo c
  let s := s.hearthGo 1 c d
  ((s.setDpll { s.hearth.dpll with offset := s.hearth.dpll.offset + d }).hearthStep d true).dpllFollow

/-- HOLDOVER is entered: HO_IN_SPEC is set for HO_SPEC seconds, and the rank it was entered from kept; with HO_SPEC 0 it falls where
it still stood from an earlier HOLDOVER, which event 0x1005 tells (R96, R111, R124). -/
def State.holdover (s : State) : State :=
  if s.rd Reg.hearthStatusState = 3 then s
  else
    let inSpec := s.rd Reg.holdoverCfgHoSpec != 0
    let fell := s.on Reg.hearthStatusHoInSpec && !inSpec
    let s := (s.flag Reg.hearthStatusHoInSpec inSpec).hearthGo 3 15 0
    if fell then s.post 0x1005 5 [s.hearth.lastCand] else s

/-- FREE_RUN is entered (R112). -/
def State.freeRun (s : State) : State :=
  if s.rd Reg.hearthStatusState = 0 then s
  else { s with hearth := { s.hearth with lastRank := 0 } }.hearthGo 0 15 0

/-- No candidate is selectable: from ACQUIRING and LOCKED to HOLDOVER with a valid history, otherwise to FREE_RUN; a Hearth in
HOLDOVER or FREE_RUN stays there, for R108 has no row for it (R102, R108; DEDUCED, log entry 46). -/
def State.noRef (s : State) : State :=
  if s.rd Reg.hearthStatusState = 0 || s.rd Reg.hearthStatusState = 3 then s
  else if s.on Reg.hearthStatusHistValid then s.holdover else s.freeRun

/-- The best eligible candidate, or none (R102). -/
def State.fallBack (s : State) : State :=
  match s.best with
  | some c => s.acquire c
  | none => s.noRef

/-- What stands of a manual choice: a wait of R106, and a decision deferred by a switch (R103). -/
def State.setChoice (s : State) (waiting deferred : Bool) : State :=
  { s with hearth := { s.hearth with waiting := waiting, deferred := deferred } }

/-- The candidate that manual mode has chosen and not come to yet (R106). -/
def State.manualTarget (s : State) : Option Nat :=
  let m := s.rd Reg.hearthCtrlManualRef
  if s.rd Reg.hearthCtrlSelMode = 2 && m < 10 && (s.hearth.waiting || s.hearth.deferred) then some m else none

/-- A choice of manual mode is decided: the candidate is taken where it is AVAILABLE, and else waited for; otherwise `other` (R106). -/
def State.decideManual (s : State) (other : State → State) : State :=
  match s.manualTarget with
  | some m =>
    if s.rd (Reg.refStatusState m) = 4 then
      (if m = s.selected then s.setChoice false false else (s.setChoice false false).acquire m)
    else other (s.setChoice true false)
  | none => other s

/-- One selection decision on the candidate states of this moment; while a switch is in progress it is deferred, and with it the
wait for a choice that is not AVAILABLE, which begins at LOCKED (R102, R103, R105, R106; DEDUCED, log entry 46). -/
def State.select (s : State) : State :=
  if s.rd Reg.hearthStatusState = 1 then
    match s.manualTarget with
    | some m => if s.rd (Reg.refStatusState m) = 4 then s.setChoice false (m != s.selected) else s
    | none => s
  else
    s.decideManual fun s =>
      match s.autoTarget with
      | some (some c) => if c = s.selected then s else s.acquire c
      | some none => s.noRef
      | none => s

/-- The manual choice is abandoned (R106); the bit says that it failed, also where it was set OFF (DESIGN CHOICE, log entry 46). -/
def State.abandon (s : State) (failed : Bool) : State :=
  let m := s.rd Reg.hearthCtrlManualRef
  ((s.wr Reg.hearthCtrlManualRef 15).setChoice false false).post 0x1004 5 [pack [(0, m), (4, b2n failed)]]

/-- The selected candidate has failed: the Hearth selects again at once, also during a switch (R103, R108). -/
def State.selectedFailed (s : State) : State :=
  match s.rd Reg.hearthCtrlSelMode with
  | 3 => s
  | 4 => s
  | _ => s.decideManual State.fallBack

/-- Candidate `c` takes a state, with a cause of failure where it has one, and event 0x1001 (R99, R124). -/
def State.refGo (s : State) (c new : Nat) (cause : Option Nat) (timer : Nat) : State :=
  let old := s.rd (Reg.refStatusState c)
  let s := (s.wr (Reg.refStatusState c) new).wr (Reg.refStatusTimer c) timer
  let s := match cause with | some k => s.wr (Reg.refStatusCause c) k | none => s
  if old = new then s
  else s.post 0x1001 4 [pack [(0, c), (4, new), (7, old), (10, s.rd (Reg.refStatusCause c))]]

/-- The monitor has no signal of candidate `c`: REF_FREQ is 0, and the mean starts afresh (R97, REF_FREQ). -/
def State.noSignal (s : State) (c : Nat) : State :=
  (s.setCand c { s.cand c with signal := false, offs := [] }).wr (Reg.refFreqOffset c) 0

/-- A failure of candidate `c` (R99); a waited-for choice that fails is abandoned (R106). -/
def State.refFail (s : State) (c cause : Nat) : State :=
  let st := s.rd (Reg.refStatusState c)
  if st < 2 then s
  else
    let s := if st = 2 then s else s.wr (Reg.refStatusHasFailed c) 1
    let s := s.refGo c 1 (some cause) 0
    if s.hearth.waiting && s.rd Reg.hearthCtrlManualRef == c then s.abandon true else s

/-- After candidates have changed: a failed selected candidate is left, or one decision is made (R103, R105). -/
def State.settleRefs (s : State) : State :=
  let s := s.refRefresh
  let c := s.selected
  let s := if c < 10 && s.rd (Reg.refStatusState c) < 4 then s.selectedFailed else s.select
  s.refRefresh

/-- Candidates whose rank is 6 fail with cause DNU (R95). -/
def State.dnuFail (s : State) : State := s.units 10 fun s c => if s.rank c = 6 then s.refFail c 3 else s

/-- Candidates whose rank has become 6 fail, and one decision follows (R95, R105). -/
def State.dnuCheck (s : State) : State := s.dnuFail.settleRefs

/-- A line rate in mHz by its code (R92). -/
def lineMhz (c : Nat) : Nat :=
  match c with | 0 => 15625000 | 1 => 15734266 | 2 => 28125000 | 3 => 33716284 | 4 => 37500000 | _ => 44955045

/-- The nominal frequency of a WCLK candidate in mHz, by its MODE and SUB (R92). -/
def State.candMhz (s : State) (c : Nat) : Nat :=
  match s.rd (Reg.refCfgMode c) with
  | 0 => 1000 * rateHz (s.rd (Reg.refCfgSub c))
  | 1 => 1000
  | 2 => 10000000000
  | 3 => 25000000000
  | _ => lineMhz (s.rd (Reg.refCfgSub c))

/-- The offset in 0.1 ppb that a looped candidate shows: its WCLK_OUT's edges follow DPLL time, against the nominal frequency of MODE
and SUB (R92, R119, R448). -/
def State.loopOff (s : State) (c : Nat) : Int :=
  let hz : Int := 1000 * (s.wclkHz (c - 4)).1
  let nom : Int := s.candMhz c
  (hz - nom) * 10000000000 / nom + sext 32 (s.rd Reg.dpllFreqFreq)

/-- Whether candidate `c` may have a signal at all: the conditions of R92, R224 and R448 that State shows. -/
def State.signalOk (s : State) (c : Nat) : Bool :=
  let locked (p : Nat) : Bool := s.rd (Reg.ptpPortStatusServoState p) == 2
  match c with
  | 0 => if s.on Reg.ptpBcBcEnable then locked 0 || locked 1 else locked 0
  | 1 => !s.on Reg.ptpBcBcEnable && locked 1
  | 2 => s.linkUp 0
  | 3 => s.linkUp 1
  | 8 | 9 =>
    let p := s.rd (Reg.refCfgTdmPort c)
    !s.on (Reg.sideCtrlMaster p 1) && 2 ≤ s.rd (Reg.sideStatusState p 1)
  | _ => !s.looped c || s.wclkRuns (c - 4)

/-- Candidates of the ports, servos and TDM sides that have lost their signal fail; the command that this belongs to decides once all
its changes are in (R92, R105). -/
def State.signalFail (s : State) : State :=
  s.units 10 fun s c => if s.signalOk c || s.rd (Reg.refStatusState c) = 0 then s else (s.noSignal c).refFail c 1

/-- REF_NO_SIGNAL: candidate `c`'s signal test fails (R92). -/
def execRefNoSignal (c : Nat) (s : State) : Done := .next (s.together fun s => ((s.noSignal c).refFail c 1).settleRefs)

/-- One candidate's second of the frequency monitor, its offset over that second measured: REF_FREQ, the mean over the last WINDOW
seconds that have been measured; the limits, the soft flag, the start of qualification, and the timer's countdown (R97 to R99). -/
def State.monitor (s : State) (c : Nat) (present : Bool) (off : Int) (edge : Nat) : State :=
  if s.rd (Reg.refStatusState c) = 0 then s
  else
    let timer := s.rd (Reg.refStatusTimer c)
    let s := if 1 < timer then s.wr (Reg.refStatusTimer c) (timer - 1) else s
    if !(present && s.signalOk c) then (s.noSignal c).refFail c 1
    else
      let offs := (off :: (s.cand c).offs).take 64
      let s := s.setCand c { s.cand c with signal := true, offs := offs, edge := edge }
      let l := offs.take (s.rd (Reg.refMonCfgWindow c))
      let mean := clampInt (-2147483648) 2147483647 (l.sum / (l.length : Int))
      let s := s.wr (Reg.refFreqOffset c) (ofInt 32 mean)
      let soft : Int := s.rd (Reg.refMonCfgSoft c) * 10
      let hard : Int := s.rd (Reg.refMonCfgHard c) * 10
      let deg := s.on (Reg.refStatusDegraded c)
      let newDeg := if soft < mean.natAbs then true else if (mean.natAbs : Int) * 10 ≤ soft * 9 then false else deg
      let s := if newDeg != deg then
          (s.flag (Reg.refStatusDegraded c) newDeg).post 0x1003 4 [pack [(0, c), (4, b2n newDeg)], ofInt 32 mean]
        else s
      if hard < mean.natAbs then s.refFail c 2
      else if s.rd (Reg.refStatusState c) = 1 && s.rank c < 6 && !((s.cand c).esmcOut && s.rd (Reg.refCfgQlSrc c) == 1)
          && (mean.natAbs : Int) * 10 ≤ hard * 9 then
        s.refGo c 2 none (s.rd (Reg.refMonCfgQualTime c))
      else s

/-- The DPLL's frequency after a second: in HOLDOVER and FREE_RUN it moves by at most 1 ppm toward HIST_FREQ or FREE_TRIM; in
ACQUIRING it is the candidate's last offset; where a phase candidate is tracked by its edges it takes what leads DPLL time to them
within the next second (R111 to R113; DEDUCED, log entry 46). -/
def State.dpllSecond (s : State) : State :=
  let f := sext 32 (s.rd Reg.dpllFreqFreq)
  let toward (g : Int) : State :=
    if f = g && s.hearth.dpll.rate = rateOf g then s else s.dpllTune (clampInt (f - 10000) (f + 10000) g)
  let c := s.selected
  match s.rd Reg.hearthStatusState with
  | 3 => toward (sext 32 (s.rd Reg.histFreqFreq))
  | 0 => toward (sext 24 (s.rd Reg.holdoverCfgFreeTrim) * 10)
  | st =>
    if c < 2 then s
    else
      let g := if st = 1 then (s.cand c).offs.headD f else f
      let s := if st = 1 then s.wr Reg.dpllFreqFreq (ofInt 32 g) else s
      let pull := s.stepTo c * (2 ^ 47 : Nat) / secondU
      s.dpllTurn ((rateOf g : Int) + pull).toNat

/-- The offset of PTP candidate `c`: its view's RATE relative to 2.0 (R97). -/
def State.ptpOff (s : State) (c : Nat) : Int := offsetOf (s.rd (Reg.tvRateRate (s.candView c)))

/-- REF_MONITOR_SECOND: the monitor's second. A PTP candidate's offset is its view's, that of a looped candidate and its last edge its
output's; of the others come their signal, their offset over the second in 0.1 ppb and their last edge, as measured. All changes are applied before one
decision (R97, R98, R105, R448). -/
def execRefMonitorSecond (meas : List RefMeas) (s : State) : Done :=
  .next (s.together fun s => ((s.units 10 fun s c =>
    if c < 2 then s.monitor c true (s.ptpOff c) 0
    else if s.looped c then
      s.monitor c true (s.loopOff c) ((Sparse.get (fun _ => none) s.hearth.wclk (c - 4)).getD (s.cand c).edge)
    else match meas.find? (fun m => m.c == c) with
      | some m => s.monitor c m.present m.off m.edge
      | none => s).settleRefs).dpllSecond)

/-- REF_FAST_CHECK: the 100 ms check fails each candidate whose offset (in 0.1 ppb) exceeds twice HARD (R97). -/
def execRefFastCheck (meas : List (Nat × Int)) (s : State) : Done :=
  .next (s.together fun s => (s.units 10 fun s c =>
    let off := if c < 2 then some (s.ptpOff c)
      else if s.looped c then some (s.loopOff c) else (meas.find? (fun m => m.1 == c)).map (fun m => m.2)
    match off with
    | some x => if s.rd (Reg.refMonCfgHard c) * 20 < x.natAbs then s.refFail c 2 else s
    | none => s).settleRefs)

/-- REF_QUAL_EXPIRY: the qualification timer of candidate `c` expires (R99). -/
def execRefQualExpiry (c : Nat) (s : State) : Done :=
  .next (s.together fun s => if s.rd (Reg.refStatusState c) = 2 then
    (if s.on (Reg.refStatusHasFailed c) then s.refGo c 3 none (s.rd (Reg.refMonCfgWtr c)) else s.refGo c 4 none 0).settleRefs
  else s)

/-- REF_WTR_EXPIRY: the wait-to-restore timer of candidate `c` expires (R99). -/
def execRefWtrExpiry (c : Nat) (s : State) : Done :=
  .next (s.together fun s => if s.rd (Reg.refStatusState c) = 3 then (s.refGo c 4 none 0).settleRefs else s)

/-- REF_CMD acts: 1 ends wait-to-restore, 2 clears HAS_FAILED (R99, REF_CMD); the decision follows (State.change). -/
def applyRefCmd (s : State) (c n : Nat) : State :=
  if n = 1 then (if s.rd (Reg.refStatusState c) = 3 then s.refGo c 4 none 0 else s)
  else s.wr (Reg.refStatusHasFailed c) 0

/-- A REF_CFG in range: QL_SRC and MODE allowed for the candidate, codes within their tables (R92, R93). -/
def vcRefCfg (c n : Nat) : Bool :=
  let src := field n 5 2
  let mode := field n 10 4
  let sub := field n 14 4
  (src == 0 || (src == 1 && (c == 2 || c == 3)) || (src == 2 && c < 2))
    && 1 ≤ field n 7 3 && field n 7 3 ≤ 6
    && (if 4 ≤ c && c ≤ 7 then mode ≤ 4 else mode == 0)
    && sub ≤ 5 && field n 19 6 < 48 && field n 1 4 < 16

/-- A SET of REF_CFG acts: OFF and its clearing, the start of monitoring, or a fresh qualification; a rank of 6 fails (R93, R95, R99,
R106, R124). The decision follows once the whole change has been made (R105, State.change). -/
def applyRefCfg (s : State) (c old n : Nat) : State :=
  let was := field old 0 1 == 1
  let now := field n 0 1 == 1
  let chosen := s.hearth.waiting && s.rd Reg.hearthCtrlManualRef == c
  let s :=
    if was && !now then
      let s := s.wr (Reg.refStatusHasFailed c) 0
      let s := if s.on (Reg.refStatusDegraded c) then
          (s.wr (Reg.refStatusDegraded c) 0).post 0x1003 4 [c, s.get (Reg.refFreqOffset c).key] else s
      let s := (s.refGo c 0 none 0).noSignal c
      if chosen then s.abandon true else s
    else if !was && now then (s.noSignal c).refGo c 1 (some 1) 0
    else if now && (field old 10 9 != field n 10 9 || field old 19 6 != field n 19 6 || field old 5 2 != field n 5 2) then
      let s := if 2 ≤ s.rd (Reg.refStatusState c) && chosen then s.abandon true else s
      (s.noSignal c).refGo c 1 (some 1) 0
    else s
  s.dnuFail

/-- ESMC_TIMEOUT: no ESMC PDU for 5 s on media port `p`; its SyncE candidate fails while QL_SRC is 1 (R95). -/
def execEsmcTimeout (p : Nat) (s : State) : Done :=
  .next (s.together fun s => let s := s.setCand (p + 2) { s.cand (p + 2) with esmcOut := true }
    if s.rd (Reg.refCfgQlSrc (p + 2)) = 1 then (s.refFail (p + 2) 4).settleRefs else s)

/-- A valid ESMC PDU has restarted the timeout of port `p`; its rank acts (R95, R146). -/
def State.esmcFresh (s : State) (p : Nat) : State := (s.setCand (p + 2) { s.cand (p + 2) with esmcOut := false }).dnuCheck

/-- A HEARTH_CTRL in range. -/
def vcHearthCtrl (n : Nat) : Bool := field n 0 3 ≤ 4 && (field n 4 4 < 10 || field n 4 4 == 15)

/-- The state checks of HEARTH_CTRL: forced holdover needs a valid history; a looped candidate may not be named (R102, R448). -/
def scHearthCtrl (s : State) (n : Nat) : Status :=
  if field n 0 3 = 3 && !s.on Reg.hearthStatusHistValid then .conflict
  else if s.looped (field n 4 4) then .conflict
  else .ok

/-- A SET of HEARTH_CTRL acts: a change of mode, and in mode 2 the write of MANUAL_REF, which is a choice to decide or to defer (R102,
R103, R106, R107). The decision follows once the whole change has been made (State.change). -/
def applyHearthCtrl (s : State) (old n : Nat) : State :=
  let mode := field n 0 3
  let m := field n 4 4
  if mode != field old 0 3 then
    let s := s.setChoice false false
    match mode with
    | 2 => s.wr Reg.hearthCtrlManualRef s.selected
    | 3 => s.holdover
    | 4 => s.freeRun
    | _ => s
  else if mode = 2 then s.setChoice false (decide (m < 10) && m != s.selected)
  else s

/-- MAN_WAIT_EXPIRY: the wait for a manual choice expires and it is abandoned (R106). -/
def execManWaitExpiry (s : State) : Done := .next (if s.hearth.waiting then s.abandon false else s)

/-- DPLL_STAGE_END: the DPLL leaves a stage; leaving the last enters LOCKED, and decisions deferred are taken (R103, R109). -/
def execDpllStageEnd (s : State) : Done :=
  .next (s.together fun s => if s.rd Reg.hearthStatusState = 1 then
    let n := (s.stages s.selected).1.length
    let k := s.rd Reg.hearthStatusStage
    if k + 1 < n then s.wr Reg.hearthStatusStage (k + 1)
    else ((s.hearthGo 2 s.selected 0).refRefresh.select).refRefresh
  else s)

/-- HIST_RECORD_SECOND: once per second while LOCKED the DPLL's frequency is reported and recorded into the history: a PTP
candidate's is its view's, of the others it comes as measured, in 0.1 ppb (R110, R113). -/
def execHistRecordSecond (freq : Int) (s : State) : Done :=
  .next (if s.rd Reg.hearthStatusState = 2 then
    let f := if s.selected < 2 then s.ptpOff s.selected else freq
    let s := if s.selected < 2 then s else s.wr Reg.dpllFreqFreq (ofInt 32 freq)
    let keep := s.rd Reg.holdoverCfgHistLen + s.rd Reg.holdoverCfgGuard
    State.histRefresh { s with hearth := { s.hearth with history := (f :: s.hearth.history).take keep } }
  else s)

/-- HEARTH_CMD 1 clears the history (R110). -/
def applyHearthCmd (s : State) : State := State.histRefresh { s with hearth := { s.hearth with history := [] } }

/-- HO_SPEC_EXPIRY: HO_SPEC seconds after entering HOLDOVER, HO_IN_SPEC falls to 0 and event 0x1005 is posted, whatever the state is
by then (R111; DEDUCED, log entry 46). -/
def execHoSpecExpiry (s : State) : Done :=
  .next (if s.on Reg.hearthStatusHoInSpec then
    ((s.wr Reg.hearthStatusHoInSpec 0).post 0x1005 5 [s.hearth.lastCand]).refRefresh
  else s)

/-- A change of view `v` by a schedule, with a step `d`, passes on: PPS_OUT of the view slews; DPLL time follows the view of the
selected PTP candidate, its steps as steps; software's step of the Hearth's own view by other than whole seconds is a step of
DPLL time (R113, R114, R117, R118, R120). -/
def State.viewChanged (s : State) (v : Nat) (d : Int) (owner : Bool) : State :=
  let s := if d != 0 && s.on Reg.ppsOutCfgEnable && s.rd Reg.ppsOutCfgView == v then s.slewOut 2 d 1 else s
  let c := s.selected
  if s.rd (Reg.tvSource v) == 2 then
    (if !owner && d % secondU != 0 then
      (s.setDpll { s.hearth.dpll with offset := s.hearth.dpll.offset + d }).hearthStep d false
    else s)
  else if c < 2 && s.candView c == v && (s.rd Reg.hearthStatusState == 1 || s.rd Reg.hearthStatusState == 2) then
    s.dpllFollow.hearthStep d true
  else s

/-- The view whose pending schedule comes first, up to RC `rc`, with the schedule. -/
def State.nextDue (s : State) (rc : Nat) : Option (Nat × Sched) :=
  (List.range 4).foldl (fun b v =>
    match (s.view v).sched, b with
    | some c, none => if c.at_ ≤ rc then some (v, c) else none
    | some c, some (w, e) => if c.at_ < e.at_ then some (v, c) else some (w, e)
    | none, b => b) none

/-- The schedules due up to RC `rc` apply, each as RC reaches its point, in the order of the points; of one view there is at most
one, and a change of another view may make the Hearth write its own (R62 to R64, R118). What happens before RC is `rc` happens at a
moment of its own (R421). -/
def State.applyDue : Nat → Nat → State → State
  | 0, _, s => s
  | n + 1, rc, s =>
    match s.nextDue rc with
    | some (v, c) =>
      let go (s : State) : State := (s.applySchedule v c).viewChanged v (sext 96 (c.step.getD 0)) c.owner
      State.applyDue n rc (if c.at_ < rc then s.apart go else s.together go)
    | none => s

/-- RC moves on to the instant a command names, and the schedules due on the way apply; RC stands while no PLL is locked (R57, R62). -/
def State.advance (s : State) (rc : Nat) : State :=
  (s.applyDue 8 (if s.locked then max s.rc rc else s.rc)).reach rc

/-- Schedules whose apply point RC has reached have applied (R62, R64). -/
def State.catchUp (s : State) : State := s.advance s.rc

/-- TV_SCHEDULE_APPLY: RC reaches the apply point of view `v`'s pending schedule; a step it carries passes on (R62, R114). -/
def execTvScheduleApply (v : Nat) (s : State) : Done :=
  .next (s.together fun s => match (s.view v).sched with
    | some c => s.advance c.at_
    | none => s)

/-- HEARTH_VIEW_UPDATE: the Hearth writes the view it steers: the DPLL's rate, and a step where the view is more than 2 ns off DPLL
time modulo whole seconds. An ASAP schedule accepted before it has been applied; one that waits for a later point is replaced
(R63 to R65, R118; DEDUCED, log entry 46). -/
def execHearthViewUpdate (s : State) : Done :=
  .next (s.together fun s => (s.advance (s.rc + 1)).units 4 fun s v =>
    if s.rd (Reg.tvSource v) = 2 then
      let s := s.hearthWrite v (some s.hearth.dpll.rate) 0
      let x := 4 * (s.rc + 1)
      let d := reduceHalf (s.hearth.dpll.time x - s.viewAt v x) secondU
      if d.natAbs ≤ 131072 then s else s.hearthWrite v none d
    else s)

/-- OUT_SLEW_END: output `o` (0, 1 the word clocks, 2 PPS_OUT, from 3 on the TDM sides) finishes slewing; RC has reached that instant
(R117). -/
def execOutSlewEnd (o : Nat) (s : State) : Done :=
  .next (
    let e := if o < 3 then s.outSlew o else (Sparse.get (fun _ => ({} : TdmSide)) s.tdm.sides (o - 3)).slew
    if e.err = 0 then s
    else
      let s := s.advance ((e.ends s.slewMax + 3) / 4)
      if o < 3 then s.setOutSlew o {} else s.setSideSlew (o - 3) {})

/-- SLEW_MAX changes: a slew in progress goes on from where it stands (R117). -/
def applyDpllCfg (s : State) (old : Nat) : State :=
  let m := field old 14 10
  let on (e : Slew) : Slew := if e.err = 0 then e else { err := e.left m (4 * s.rc), at_ := 4 * s.rc }
  let s := s.units 3 fun s o => if (s.outSlew o).err = 0 then s else s.setOutSlew o (on (s.outSlew o))
  let s := s.units 96 fun s k =>
    let x := Sparse.get (fun _ => ({} : TdmSide)) s.tdm.sides k
    if x.slew.err = 0 then s else s.setSideSlew k (on x.slew)
  s.refRefresh

/-- A word clock output that has no edges any more is low and slews no more (R117, WCLK_OUT_CFG). -/
def State.wclkStop (s : State) (w : Nat) : State :=
  State.setOutSlew { s with hearth := { s.hearth with wclk := Sparse.put (fun _ => none) s.hearth.wclk w none } } w {}

/-- A SET of WCLK_OUT_CFG: an output switched off, or to another source, starts afresh with the next edge it has (R119). -/
def applyWclkOutCfg (s : State) (w old n : Nat) : State := if old = n then s else s.wclkStop w

/-- Tick edge `k` of domain `d` at point `q` of quarter counts: the word clock outputs of the domain rise with it, those in base-rate
mode at every second or fourth edge, the one at each whole second of DPLL time among them; one that slews rises off by what it
still has to slew (R117, R119). -/
def State.wclkEdges (s : State) (d : Nat) (k : Int) (q : Nat) : State :=
  s.units 2 fun s w =>
    if s.wclkRuns w && s.rd (Reg.wclkOutCfgDomain w) == d && k % (s.wclkHz w).2 == 0 then
      let x := ((q : Int) + (s.outSlew w).left s.slewMax q / 32768).toNat
      { s with hearth := { s.hearth with wclk := Sparse.put (fun _ => none) s.hearth.wclk w (some x) } }
    else s

/-- The level of WCLK_OUT `w` at a point of quarter counts: high for half its period from each rising edge (R119). -/
def State.wclkLevel (s : State) (w x : Nat) : Bool :=
  match Sparse.get (fun _ => none) s.hearth.wclk w with
  | some r => s.wclkRuns w && r ≤ x && x < r + 1000000000 / (s.wclkHz w).1
  | none => false

/-- What SYNCE_OUT carries: its nominal frequency in hertz, and the DPLL's offset from it in 0.1 ppb; nothing while off (R121). -/
def State.synceOut (s : State) : Option (Nat × Int) :=
  match s.rd Reg.synceOutCfgFreq with
  | 1 => some (10000000, sext 32 (s.rd Reg.dpllFreqFreq))
  | 2 => some (25000000, sext 32 (s.rd Reg.dpllFreqFreq))
  | 3 => some (156250000, sext 32 (s.rd Reg.dpllFreqFreq))
  | _ => none

/-- The level of the PPS_OUT ball (PPS_OUT_CFG). -/
def State.ppsLevel (s : State) : Bool := s.hearth.pps.isSome != s.on Reg.ppsOutCfgPolarity

/-- PPS_OUT_SECOND: RC has reached the next whole second of the source view, later by what the output still has to slew, and
PPS_OUT asserts at the nearest point of its 8 ns grid (R117, R120); a schedule on the way that moves the view leaves the second to
come. -/
def execPpsOutSecond (s : State) : Done :=
  .next (if !s.on Reg.ppsOutCfgEnable then s
    else
      let v := s.rd Reg.ppsOutCfgView
      let e := (s.outSlew 2).left s.slewMax (4 * s.rc)
      let t := ((s.viewNow v - e) / secondU + 1) * secondU + e
      let p := s.viewParams v (4 * s.rc)
      let x := lineReaches (sext 96 p.1) p.2 t
      let g := (x + 8) / 16 * 16
      let s := s.advance ((max g x + 3) / 4)
      if t ≤ s.viewAt v x then { s with hearth := { s.hearth with pps := some g } } else s)

/-- PPS_OUT_PULSE_END: WIDTH × 8 ns after its assertion PPS_OUT returns inactive; RC has reached that instant (R120). -/
def execPpsOutPulseEnd (s : State) : Done :=
  .next (match s.hearth.pps with
    | some x =>
      let s := s.advance (x / 4 + 4 * s.rd Reg.ppsOutCfgWidth)
      { s with hearth := { s.hearth with pps := none } }
    | none => s)

/-- A SET of PPS_OUT_CFG: disabled, the pin is inactive and slews no more (PPS_OUT_CFG). -/
def applyPpsOutCfg (s : State) : State :=
  if s.on Reg.ppsOutCfgEnable then s else State.setOutSlew { s with hearth := { s.hearth with pps := none } } 2 {}

/-- TV_SOURCE may be 2 for one view only (R118). -/
def scTvSource (s : State) (v n : Nat) : Status :=
  if n = 2 && (List.range 4).any (fun k => k != v && s.rd (Reg.tvSource k) == 2) then .conflict else .ok

/-- A SET of TV_SOURCE cancels the pending schedule (R66). -/
def applyTvSource (s : State) (v : Nat) : State := s.unschedule v

/-- LOOPn may not be written while its candidate is selected (R448). -/
def scHearthLoop (s : State) : Status := if s.selected = 4 ∨ s.selected = 5 then .conflict else .ok

end Sys2Proof.Machine
end

