-- ==== Sys2Proof/Machine/Ptp.lean ====
section
/-! DEFINITION. The PTP clocks of ports A and B: port states, BMCA, the servo, delay measurement, the messages sent and
answered (R68 to R82). What the rules take from IEEE 1588-2019 and IEEE 802.1AS-2020 is PRESUMED from those standards (log
entry 9). -/

namespace Sys2Proof.Machine

/-- PTP port `p` beside its entries. -/
def State.ptpPort (s : State) (p : Nat) : PtpPort := Sparse.get (fun _ => {}) s.ptp p

/-- The state with a PTP port replaced. -/
def State.setPtp (s : State) (p : Nat) (x : PtpPort) : State := { s with ptp := Sparse.put (fun _ => {}) s.ptp p x }

/-- BC_ENABLE (R81). -/
def State.bc (s : State) : Bool := s.on Reg.ptpBcBcEnable

/-- The port whose profile, domain, priorities and view apply to port `p` (R81). -/
def State.cfgPort (s : State) (p : Nat) : Nat := if s.bc then 0 else p

/-- The view a port's clock steers or serves. -/
def State.ptpView (s : State) (p : Nat) : Nat := s.rd (Reg.ptpPortCfgView (s.cfgPort p))

/-- The port's profile (R74). -/
def State.profile (s : State) (p : Nat) : Nat := s.rd (Reg.ptpPortCfgProfile (s.cfgPort p))

/-- Whether the delay mechanism is peer-to-peer (R74). -/
def State.p2p (s : State) (p : Nat) : Bool := s.profile p == 1 || s.profile p == 4

/-- The clock identity a port speaks with (R81). -/
def State.clockId (s : State) (p : Nat) : Nat := s.rd (Reg.ptpClockIdClockId (s.cfgPort p))

/-- The port identity: clock identity and port number (R81). -/
def State.portId (s : State) (p : Nat) : Nat := s.clockId p * 65536 + (if s.bc then p + 1 else 1)

/-- PORT_STATE. -/
def State.ptpState (s : State) (p : Nat) : Nat := s.rd (Reg.ptpPortStatusPortState p)

/-- A delay in ps, signed 32 bits, in units of 2^-16 ns, rounded down (DESIGN CHOICE, log entry 45). -/
def psUnits (n : Nat) : Int := sext 32 n * 65536 / 1000

/-- The time of an ingress timestamp in the port's view, calibrated (R69, R71). -/
def State.ingress (s : State) (p q : Nat) : Int := s.viewAt (s.ptpView p) q - psUnits (s.rd (Reg.ptpExtDelayRxExt p))

/-- The time of an egress timestamp in the port's view, calibrated (R69, R71). -/
def State.egress (s : State) (p q : Nat) : Int := s.viewAt (s.ptpView p) q + psUnits (s.rd (Reg.ptpExtDelayTxExt p))

/-- SERVO_STATE changes, with event 0x2004; a servo that leaves LOCKED ends the candidate's signal (R80, R90, R92). -/
def State.servoGo (s : State) (p new : Nat) : State :=
  let old := s.rd (Reg.ptpPortStatusServoState p)
  if old = new then s
  else ((s.wr (Reg.ptpPortStatusServoState p) new).post 0x2004 5 [pack [(0, p), (4, new)]]).signalFail

/-- The owner of the view that port `p` steers, or last steered, stops steering it (R67). -/
def State.viewFree (s : State) (p : Nat) : State :=
  let v := (s.ptpPort p).steers
  if s.rd (Reg.tvSource v) = 1 then s.wr (Reg.tvStatusFreeRun v) 1 else s

/-- Whether the port follows a master: UNCALIBRATED or SLAVE. -/
def State.slaving (s : State) (p : Nat) : Bool := s.ptpState p == 8 || s.ptpState p == 9

/-- The servo acquires from the next Sync on, with I kept or not (R80). -/
def State.servoStart (s : State) (p : Nat) (keepI : Bool) : State :=
  (s.setPtp p { s.ptpPort p with
    steers := s.ptpView p, syncs := 0, keepI := keepI, below := 0, above := 0, aboveStep := 0, twoStep := none }).servoGo p 1

/-- PORT_STATE changes, with event 0x2001. A port that leaves SLAVE leaves its view to run free; entering UNCALIBRATED starts the
servo; one that follows no master idles it, unless the master's loss has set it FREE (R67, R80, R90). -/
def State.ptpGo (s : State) (p new : Nat) (keepI : Bool := false) : State :=
  let old := s.ptpState p
  if old = new then s
  else
    let was := s.slaving p
    let s := (s.wr (Reg.ptpPortStatusPortState p) new).post 0x2001 4 [pack [(0, p), (4, new), (8, old)]]
    let s := if old = 9 || (was && !s.slaving p) then s.viewFree p else s
    if new = 8 then s.servoStart p keepI
    else if was && !s.slaving p && s.rd (Reg.ptpPortStatusServoState p) != 3 then s.servoGo p 0
    else s

/-- A port goes through INITIALIZING: to DISABLED, FAULTY or LISTENING as its settings and link stand (R75, R82). -/
def State.ptpInit (s : State) (p : Nat) : State :=
  let on := s.on (Reg.ptpPortCfgEnable p)
  let s := (s.ptpGo p (if on then 1 else 3)).servoGo p 0
  let s := (s.setPtp p {}).wr (Reg.ptpPortStatusAsCapable p) 0
  if on then s.ptpGo p (if s.linkUp p then 4 else 2) else s

/-- A log interval field, signed 4 bits. -/
def logOf (n : Nat) : Int := sext 4 n

/-- `n` × 2^l seconds in counts of RC. -/
def logCounts (n : Nat) (l : Int) : Nat := if 0 ≤ l then n * 500000000 * 2 ^ l.toNat else n * 500000000 / 2 ^ l.natAbs

/-- The local data set of a port: PTP_LOCAL_QUALITY, or the Hearth's quality where it steers the view (R78); all flags stay those of
PTP_LOCAL_QUALITY, and port A's serves both ports of a boundary clock (DESIGN CHOICE, log entry 47). -/
def State.localAnn (s : State) (p : Nat) : Announce :=
  let c := s.cfgPort p
  let q := s.quality
  let h := s.rd (Reg.tvSource (s.ptpView p)) = 2
  { gm := s.clockId p, prio1 := s.rd (Reg.ptpPortCfgPriority1 c), prio2 := s.rd (Reg.ptpPortCfgPriority2 c)
    cls := if h then q.1 else s.rd (Reg.ptpLocalQualityClass c)
    acc := if h then q.2.1 else s.rd (Reg.ptpLocalQualityAccuracy c)
    var := if h then q.2.2.1 else s.rd (Reg.ptpLocalQualityVariance c)
    tsrc := if h then q.2.2.2.1 else s.rd (Reg.ptpLocalQualityTimeSource c)
    utc := s.rd (Reg.ptpLocalQualityUtcOffset c), flags := s.rd (Reg.ptpLocalQualityFlags c), steps := 0 }

/-- What orders the grandmasters of data sets: priority1, class, accuracy, variance, priority2, identity; less is better (IEEE
1588-2019 clause 9.3, and systemIdentity of IEEE 802.1AS-2020). -/
def annKey (a : Announce) : Nat :=
  ((((a.prio1 * 256 + a.cls) * 256 + a.acc) * 65536 + a.var) * 256 + a.prio2) * 2 ^ 64 + a.gm

/-- A data set with the port identities of its sender and its receiver. -/
structure DataSet where
  ann : Announce
  from_ : Nat
  to_ : Nat

/-- How data set `a` compares with `b` by IEEE 1588-2019 clause 9.3: 2 better, 1 better by topology, 0 the same, −1 and −2 the other
way round (R76). -/
def cmp1588 (a b : DataSet) : Int :=
  let below (x y : Nat) : Int := if x < y then 1 else if y < x then -1 else 0
  if a.ann.gm ≠ b.ann.gm then 2 * below (annKey a.ann) (annKey b.ann)
  else if a.ann.steps + 1 < b.ann.steps then 2
  else if b.ann.steps + 1 < a.ann.steps then -2
  else if a.ann.steps < b.ann.steps then (if b.to_ < b.from_ then 2 else if b.from_ < b.to_ then 1 else 0)
  else if b.ann.steps < a.ann.steps then (if a.to_ < a.from_ then -2 else if a.from_ < a.to_ then -1 else 0)
  else if a.from_ ≠ b.from_ then below a.from_ b.from_
  else below (a.to_ % 65536) (b.to_ % 65536)

/-- How data set `a` compares with `b` as a priority vector of IEEE 802.1AS-2020: systemIdentity, steps removed, sender, the
receiver's port number (R76). -/
def cmpAs (a b : DataSet) : Int :=
  let v (x : DataSet) : Nat := ((annKey x.ann * 65536 + x.ann.steps) * 2 ^ 80 + x.from_) * 65536 + x.to_ % 65536
  if v a < v b then 2 else if v b < v a then -2 else 0

/-- The comparison of port `p`'s profile (R76). -/
def State.dataCmp (s : State) (p : Nat) (a b : DataSet) : Int := if s.profile p = 4 then cmpAs a b else cmp1588 a b

/-- An entry of the foreign master table of port `p` as a data set. -/
def State.heard (s : State) (p : Nat) (f : Foreign) : DataSet := { ann := f.ann, from_ := f.src, to_ := s.portId p }

/-- The clock's own data set D0. -/
def State.ownSet (s : State) (p : Nat) : DataSet :=
  { ann := s.localAnn p, from_ := s.clockId p * 65536, to_ := s.clockId p * 65536 }

/-- A foreign master that qualifies now: two Announces within the last 4 announce intervals of its sender (R76). -/
def State.qualified (s : State) (f : Foreign) : Bool :=
  match f.prev with
  | some t => s.rc ≤ t + logCounts 4 f.logInt
  | none => false

/-- The best qualified foreign master of a port (Erbest). -/
def State.erBest (s : State) (p : Nat) : Option Foreign :=
  ((s.ptpPort p).foreign.filter s.qualified).foldl
    (fun b f => match b with
      | none => some f
      | some g => if 0 < s.dataCmp p (s.heard p f) (s.heard p g) then some f else some g) none

/-- The best over the clock's ports that are neither DISABLED nor FAULTY, with the port it came in on (Ebest). -/
def State.eBest (s : State) (p : Nat) : Option (Nat × Foreign) :=
  ((if s.bc then [0, 1] else [p]).filter fun k => decide (4 ≤ s.ptpState k)).foldl (fun b k =>
    match s.erBest k, b with
    | some f, none => some (k, f)
    | some f, some (j, g) => if 0 < s.dataCmp p (s.heard k f) (s.heard j g) then some (k, f) else some (j, g)
    | none, b => b) none

/-- The parent data set of the clock of port `p`, a boundary clock's shown on both its ports, with event 0x2002 for each port whose
GM_IDENTITY changes; a candidate whose rank becomes 6 fails (PTP_PARENT, R90, R95; DESIGN CHOICE, log entry 47). -/
def State.setParent (s : State) (p : Nat) (a : Announce) (src : Nat) : State :=
  let v := pack [(0, a.gm), (64, a.prio1), (72, a.cls), (80, a.acc), (88, a.var), (104, a.prio2), (112, a.steps),
    (128, a.utc), (144, a.flags % 64), (152, a.tsrc), (160, src)]
  let s := s.units 2 fun s k =>
    if k != p && !s.bc then s
    else
      let old := s.rd (Reg.ptpParentGmIdentity k)
      let s := s.put (Reg.ptpParentGmIdentity k).key v
      if old = a.gm then s else s.post 0x2002 4 [k, a.gm / 2 ^ 32, a.gm % 2 ^ 32]
  s.dnuFail

/-- The parent data set is the clock's own: it is its own grandmaster. -/
def State.parentOwn (s : State) (p : Nat) : State := s.setParent p (s.localAnn p) (s.clockId p * 65536)

/-- The port acts as master only: by its setting, or because its view is not the servo's (R77). -/
def State.masterOnly (s : State) (p : Nat) : Bool :=
  s.on (Reg.ptpPortCfgMasterOnly p) || s.rd (Reg.tvSource (s.ptpView p)) != 1

/-- A recommended state of MASTER, of the clock's own data (`own`) or a parent's: through PRE_MASTER, or LISTENING for a slave-only
port (R75 to R77). -/
def State.recMaster (s : State) (p : Nat) (own : Bool) : State :=
  if s.on (Reg.ptpPortCfgSlaveOnly p) then s.ptpGo p 4
  else
    let s := if own then s.parentOwn p else s
    if s.ptpState p = 6 ∨ s.ptpState p = 5 then s else s.ptpGo p 5

/-- A recommended state of SLAVE to a foreign master; a new parent is acquired afresh (R75, R77, R80). -/
def State.recSlave (s : State) (p : Nat) (f : Foreign) : State :=
  if s.masterOnly p then s.ptpGo p 7
  else
    let s := s.setParent p { f.ann with steps := f.ann.steps + 1 } f.src
    let x := s.ptpPort p
    let same := x.parent == f.src && s.slaving p
    let s := s.setPtp p { x with parent := f.src, parentIp := f.ip, parentMac := f.mac, path := f.path }
    if same then s else if s.ptpState p = 8 then s.servoStart p false else s.ptpGo p 8

/-- The state decision of IEEE 1588-2019 clause 9.3 for port `p`, and of IEEE 802.1AS-2020 clause 10.3 for profile 4 (R76). -/
def State.bmcaPort (s : State) (p : Nat) : State :=
  if !s.on (Reg.ptpPortCfgEnable p) || s.ptpState p < 4 then s
  else
    let as := s.profile p == 4
    let d0 := s.ownSet p
    let er := s.erBest p
    if er.isNone && s.ptpState p == 4 then s
    else if !as && d0.ann.cls ≤ 127 then
      match er with
      | some f => if 0 < s.dataCmp p d0 (s.heard p f) then s.recMaster p true else s.ptpGo p 7
      | none => s.recMaster p true
    else match s.eBest p with
      | none => s.recMaster p true
      | some (k, f) =>
        if 0 < s.dataCmp p d0 (s.heard k f) then s.recMaster p true
        else if k = p then s.recSlave p f
        else match er with
          | none => s.recMaster p false
          | some g =>
            let passive :=
              if as then
                !(0 < s.dataCmp p { ann := { f.ann with steps := f.ann.steps + 1 }, from_ := s.portId p, to_ := s.portId p } (s.heard p g))
              else s.dataCmp p (s.heard k f) (s.heard p g) == 1
            if passive then s.ptpGo p 7 else s.recMaster p false

/-- BMCA over the ports (R76). -/
def State.bmca (s : State) : State := (s.bmcaPort 0).bmcaPort 1

/-- An Announce goes into the foreign master table: its sender's entry, a free one, or the one heard longest ago (R76). -/
def foreignPut (l : List Foreign) (m : PtpMsg) (rc : Nat) : List Foreign :=
  let n : Foreign := { src := m.src, ann := m.ann, last := rc, prev := none, logInt := m.logInt, ip := m.ip, mac := m.mac, path := m.path }
  if l.any (fun f => f.src == m.src) then l.map (fun f => if f.src = m.src then { n with prev := some f.last } else f)
  else if l.length < 8 then l ++ [n]
  else
    let oldest := l.foldl (fun m f => min m f.last) rc
    match l.findIdx? (fun f => f.last == oldest) with
    | some i => listSet l i n
    | none => l

/-- Whether a port takes a PTP message: enabled and running, the domain its own (R72). -/
def State.ptpTakes (s : State) (p : Nat) (m : PtpMsg) : Bool :=
  p < 2 && s.on (Reg.ptpPortCfgEnable p) && 4 ≤ s.ptpState p && m.domain == s.rd (Reg.ptpPortCfgDomain (s.cfgPort p))
    && m.src / 65536 != s.clockId p

/-- An 802.1AS port that is not asCapable takes and sends no Sync and no Announce (R75). -/
def State.asBlocked (s : State) (p : Nat) : Bool := s.profile p == 4 && !s.on (Reg.ptpPortStatusAsCapable p)

/-- A timestamp of a PTP message, of a time in units of 2^-16 ns. -/
def ptpStamp (u : Nat) : List Byte := natBe 6 (u / 65536000000000) ++ natBe 4 (u / 65536 % 1000000000)

/-- The bytes of a PTP message of IEEE 1588-2019, or of IEEE 802.1AS-2020 (`as`), whose Follow_Up carries an information TLV of zeros
and whose Announce a path trace TLV (PRESUMED, log entry 9). -/
def ptpBytes (m : PtpMsg) (as : Bool) : List Byte :=
  let a := m.ann
  let body :=
    if m.kind = 11 then
      ptpStamp 0 ++ natBe 2 a.utc ++ [0] ++ natBe 1 a.prio1 ++ natBe 1 a.cls ++ natBe 1 a.acc ++ natBe 2 a.var ++ natBe 1 a.prio2
        ++ natBe 8 a.gm ++ natBe 2 a.steps ++ natBe 1 a.tsrc
        ++ (if as && m.path.length ≤ 179 then natBe 2 8 ++ natBe 2 (8 * m.path.length) ++ m.path.flatMap (natBe 8) else [])
    else if m.kind = 2 then List.replicate 20 0
    else if m.kind = 3 || m.kind = 9 || m.kind = 10 then ptpStamp m.time ++ natBe 10 m.req
    else if m.kind = 8 && as then ptpStamp m.time ++ natBe 10 0x0003001C0080C2000001 ++ List.replicate 22 0
    else ptpStamp m.time
  let ctl := if as then 0 else match m.kind with | 0 => 0 | 1 => 1 | 8 => 2 | 9 => 3 | _ => 5
  natBe 1 (m.kind + if as then 16 else 0) ++ [0x12] ++ natBe 2 (34 + body.length) ++ natBe 1 m.domain ++ [0]
    ++ natBe 1 (2 * b2n m.twoStep + 4 * b2n m.unicast) ++ natBe 1 (if m.kind = 11 then a.flags % 64 else 0) ++ natBe 8 (ofInt 64 m.corr)
    ++ natBe 4 0 ++ natBe 10 m.src ++ natBe 2 m.seq ++ natBe 1 ctl ++ natBe 1 (ofInt 8 m.logInt) ++ body

/-- logMessageInterval of a message the port sends (IEEE 1588-2019 clause 13; PRESUMED, log entry 9). -/
def State.ptpLog (s : State) (p : Nat) (m : PtpMsg) : Int :=
  match m.kind with
  | 0 | 8 => logOf (s.rd (Reg.ptpPortCfgLogSync p))
  | 11 => logOf (s.rd (Reg.ptpPortCfgLogAnnounce p))
  | 9 => if m.unicast then 127 else logOf (s.rd (Reg.ptpPortCfgLogDelayReq p))
  | 2 => if s.profile p = 4 then logOf (s.rd (Reg.ptpPortCfgLogDelayReq p)) else 127
  | _ => 127

/-- A peer-delay message by its kind. -/
def peerKind (k : Nat) : Bool := k == 2 || k == 3 || k == 10

/-- A message that the port writes as it leaves: a one-step Sync or Pdelay_Resp (R73). -/
def ptpOneStep (m : PtpMsg) : Bool := (m.kind == 0 || m.kind == 3) && !m.twoStep

/-- The frame of a PTP message of port `p` (R72, R73, R130): on Ethernet for 802.1AS, in UDP over IPv4 otherwise; multicast, or unicast
to the far end the message names. -/
def State.ptpFrame (s : State) (p : Nat) (m : PtpMsg) : List Byte × State :=
  let peer := peerKind m.kind
  if s.profile p = 4 then
    (natBe 6 (if peer then 0x0180C200000E else 0x011B19000000) ++ natBe 6 (s.rd (Reg.portMacMac p)) ++ natBe 2 0x88F7 ++ ptpBytes m true, s)
  else
    let port := if m.kind < 8 then 319 else 320
    s.udpFrame p (if m.unicast then m.mac else if peer then 0x01005E00006B else 0x01005E000181)
      (if m.unicast then m.ip else if peer then 0xE000006B else 0xE0000181) port port (!ptpOneStep m) (ptpBytes m false)

/-- A PTP message of the port joins TQ0 (event messages) or TQ2 (general messages); a general message that finds no room is dropped
uncounted (R137, R140, R141; DESIGN CHOICE, log entry 50). -/
def State.ptpSend (s : State) (p : Nat) (m : PtpMsg) : State :=
  let m := { m with domain := s.rd (Reg.ptpPortCfgDomain (s.cfgPort p)), src := s.portId p, logInt := s.ptpLog p m }
  let r := s.ptpFrame p m
  if r.2.linkUp p && (m.kind < 8 || r.2.queueFits p 2 r.1.length) then
    r.2.enqueue p (if m.kind < 8 then 0 else 2) [{ bytes := r.1, ptp := some m }] r.1.length
  else r.2

/-- A one-step message as it leaves at a timestamp point: a Sync carries its departure, a Pdelay_Resp its turnaround (R73, IEEE
1588-2019 clause 11.4). -/
def State.ptpLeaving (s : State) (p q : Nat) (m : PtpMsg) : PtpMsg :=
  let u := (s.egress p q % (timeMod : Int)).toNat
  if !ptpOneStep m then m
  else if m.kind = 0 then { m with time := u / 65536 * 65536, corr := (u % 65536 : Nat) }
  else { m with time := 0, corr := m.corr + timeDiff u m.time }

/-- The bytes of a frame as it leaves at a timestamp point: a one-step message is written then (R73). -/
def State.leaving (s : State) (p q : Nat) (f : TxFrame) : List Byte :=
  match f.ptp with
  | some m =>
    if ptpOneStep m then overlay f.bytes (if s.profile p = 4 then 14 else 42) (ptpBytes (s.ptpLeaving p q m) (s.profile p == 4)) else f.bytes
  | none => f.bytes

/-- π × 10^35, truncated. -/
def pi35 : Int := 314159265358979323846264338327950288

/-- The mean path delay: the average of the last 2^DELAY_AVG measurements (R79); 0 before the first (DESIGN CHOICE, log entry 47). -/
def PtpPort.mpd (x : PtpPort) : Int :=
  let l := x.delays.take (2 ^ x.avg)
  if l.isEmpty then 0 else l.sum / (l.length : Int)

/-- The mean path delay as PTP_PATH_DELAY shows it. -/
def State.showMpd (s : State) (p : Nat) : State :=
  s.wr (Reg.ptpPathDelayMpd p) (clampInt 0 4294967295 (Int.tdiv (s.ptpPort p).mpd 16384)).toNat

/-- The bandwidth in use as (numerator, denominator) mHz and whether it is clamped: min(B, 0.05 / τ), τ = 2^l s (R79). -/
def servoBw (b : Nat) (l : Int) : Nat × Nat × Bool :=
  if 0 ≤ l then (if b * 2 ^ l.toNat ≤ 50 then (b, 1, false) else (50, 2 ^ l.toNat, true))
  else if b ≤ 50 * 2 ^ l.natAbs then (b, 1, false) else (50 * 2 ^ l.natAbs, 1, true)

/-- ω² × τ × θ in units of 2^-96, θ in units of 2^-16 ns (R79). -/
def servoInt (bn bd : Nat) (l theta : Int) : Int :=
  let tn : Nat := if 0 ≤ l then 2 ^ l.toNat else 1
  let td : Nat := if 0 ≤ l then 1 else 2 ^ l.natAbs
  theta * (4 * pi35 * pi35 * (bn * bn * tn : Nat) * (2 ^ 96 : Nat)) / ((10 ^ 76 * (bd * bd * td) * (65536 * 10 ^ 9) : Nat) : Int)

/-- 2ζω × θ in units of 2^-96, ζ in thousandths (R79). -/
def servoProp (bn bd damp : Nat) (theta : Int) : Int :=
  theta * (4 * pi35 * (bn * damp : Nat) * (2 ^ 96 : Nat)) / ((10 ^ 41 * bd * (65536 * 10 ^ 9) : Nat) : Int)

/-- 2.0 × (1 − y), truncated to 48 bits, y in units of 2^-96 (R79). -/
def servoRate (y : Int) : Nat := (((2 ^ 143 : Nat) - y * (2 ^ 47 : Nat)) / (2 ^ 96 : Nat)).toNat % 2 ^ 48

/-- The servo writes its view ASAP: a rate, and a step of −θ where it steps, with event 0x2003, whose whole ns are truncated toward 0
(R79, R80, R90; DESIGN CHOICE, log entry 45). -/
def State.servoWrite (s : State) (p : Nat) (y : Int) (step : Option Int) : State :=
  let v := s.ptpView p
  if s.rd (Reg.tvSource v) != 1 then s
  else
    let s := s.schedule v none (some (servoRate y)) (step.map (ofInt 96)) true
    let s := s.setPtp p { s.ptpPort p with steers := v }
    match step with
    | some d =>
      let ns := ofInt 64 (Int.tdiv d 65536)
      s.post 0x2003 5 [pack [(0, p), (1, v)], ns / 2 ^ 32, ns % 2 ^ 32]
    | none => s

/-- One Sync processed by the servo: θ, the state machine of R80 and the loop of R79. `t1` is the origin time corrected by
`corr`, `t2` the ingress time. In ACQUIRE a Sync either steps the view by −θ or slews θ away (R80). A servo in FREE acquires again, with I kept after a missed Sync (DESIGN CHOICE, log entry 47). -/
def State.servoSync (s : State) (p : Nat) (t1 t2 corr : Int) : State :=
  let x := { s.ptpPort p with avg := s.rd (Reg.ptpServoCfgDelayAvg p) }
  let theta := timeDiff t2 (t1 + corr + x.mpd)
  let s := s.wr (Reg.ptpOffsetTheta p) (ofInt 32 (clampInt (-2147483648) 2147483647 (Int.tdiv theta 16384)))
  let l := logOf (s.rd (Reg.ptpPortCfgLogSync p))
  let bw := servoBw (s.rd (Reg.ptpServoCfgBw p)) l
  let s := s.flag (Reg.ptpPortStatusBwClamped p) bw.2.2
  let lim : Int := s.rd (Reg.ptpServoCfgMaxPpm p) * (2 ^ 96 : Nat) / 1000000
  let mag : Int := theta.natAbs
  let mode := s.rd (Reg.ptpServoCfgStepMode p)
  let thresh : Int := s.rd (Reg.ptpServoCfgStepThresh p) * 65536000
  let servo := s.rd (Reg.ptpPortStatusServoState p)
  let s := if servo = 3 ∨ servo = 0 then s.servoGo p 1 else s
  let n := x.syncs
  let estimate := servo != 2 && n == 1 && !x.keepI
  let dm := timeDiff t1 x.first.1
  let integ0 : Int :=
    if estimate && dm != 0 then
      let r : Int := s.rd (Reg.tvRateRate (s.ptpView p))
      (2 ^ 96 : Nat) - r * (2 ^ 49 : Nat) * dm / (timeDiff t2 x.first.2 + (if timeDiff t2 x.first.2 = 0 then 1 else 0))
    else x.integ
  let aboveStep := if thresh < mag then x.aboveStep + 1 else 0
  let stepAcq := servo != 2 && (n == 1 || (x.keepI && n == 0)) && thresh < mag && (mode == 1 || mode == 2)
  let err : Int := if stepAcq then 0 else theta
  let integ := clampInt (-lim) lim (if estimate then integ0 else clampInt (-lim) lim integ0 + servoInt bw.1 bw.2.1 l err)
  let y := clampInt (-lim) lim (servoProp bw.1 bw.2.1 (s.rd (Reg.ptpServoCfgDamping p)) err + integ)
  let stepLock := servo == 2 && 3 ≤ aboveStep && mode == 2
  let below := if mag < 6553600 then x.below + 1 else 0
  let above := if servo = 2 && 65536000 < mag then x.above + 1 else 0
  let first := if n = 0 then (t1, t2) else x.first
  let s := s.setPtp p { x with
    syncs := n + 1, first := first, last := (t1, t2, corr), integ := integ, below := below, above := above
    aboveStep := if stepLock then 0 else aboveStep }
  let s := s.showMpd p
  let s := if servo != 2 && n == 0 && !x.keepI then s
    else s.servoWrite p y (if stepAcq || stepLock then some (-theta) else none)
  if servo != 2 && 16 ≤ below then
    (s.servoGo p 2).ptpGo p 9
  else if servo = 2 && 4 ≤ above && !stepLock then s.ptpGo p 8 true
  else s

/-- Whether a port follows the sender of a message. -/
def State.fromParent (s : State) (p : Nat) (m : PtpMsg) : Bool :=
  s.slaving p && m.src == (s.ptpPort p).parent && !s.asBlocked p

/-- PTP_SYNC_RX: a Sync is received at a timestamp point in quarter counts; a one-step Sync goes to the servo, a two-step one
waits for its Follow_Up (R71, R72, R79). -/
def execPtpSyncRx (p : Nat) (m : PtpMsg) (q : Nat) (s : State) : Done :=
  .next (s.together fun s => let s := s.advance (q / 4)
    if s.ptpTakes p m && s.fromParent p m then
      let t2 := s.ingress p q
      if m.twoStep then s.setPtp p { s.ptpPort p with twoStep := some (m.seq, t2, m.corr) }
      else (s.servoSync p m.time t2 m.corr).settleRefs
    else s)

/-- PTP_FOLLOW_UP_RX: a Follow_Up completes a two-step Sync (R72). -/
def execPtpFollowUpRx (p : Nat) (m : PtpMsg) (s : State) : Done :=
  .next (s.together fun s => let s := s.catchUp
    if s.ptpTakes p m && s.fromParent p m then
    match (s.ptpPort p).twoStep with
    | some (q, t2, c) =>
      if q = m.seq then ((s.setPtp p { s.ptpPort p with twoStep := none }).servoSync p m.time t2 (m.corr + c)).settleRefs else s
    | none => s
  else s)

/-- PTP_DELAY_REQ_RX: a master answers a Delay_Req with the time it came in (R72). -/
def execPtpDelayReqRx (p : Nat) (m : PtpMsg) (q : Nat) (s : State) : Done :=
  .next (let s := s.advance (q / 4)
    if s.ptpTakes p m && s.ptpState p == 6 && !s.p2p p then
      let t := (s.ingress p q % (timeMod : Int)).toNat
      s.ptpSend p { kind := 9, seq := m.seq, req := m.src, time := t / 65536 * 65536, corr := m.corr - (t % 65536 : Nat)
                    unicast := m.unicast, ip := m.ip, mac := m.mac }
    else s)

/-- A delay measurement joins the average, and the port's mean path delay is reported (R79, PTP_PATH_DELAY). -/
def State.delayTaken (s : State) (p : Nat) (d : Int) : State :=
  let x := s.ptpPort p
  (s.setPtp p { x with delays := (d :: x.delays).take 64 }).showMpd p

/-- PTP_DELAY_RESP_RX: a Delay_Resp to the port's last Delay_Req updates the mean path delay (R79). -/
def execPtpDelayRespRx (p : Nat) (m : PtpMsg) (s : State) : Done :=
  .next (s.together fun s => let x := s.ptpPort p
    match x.reqSent with
    | some t3 =>
      if s.ptpTakes p m && s.fromParent p m && m.req == s.portId p && m.seq == x.reqSeq && !s.p2p p && x.syncs != 0 then
        let d := (timeDiff x.last.2.1 t3 + timeDiff m.time x.last.1 - x.last.2.2 - m.corr) / 2
        (s.setPtp p { x with reqSent := none, answered := true }).delayTaken p d
      else s
    | none => s)

/-- PTP_PDELAY_REQ_RX: a Pdelay_Req is answered with Pdelay_Resp: in one-step it carries the turnaround as it leaves, in two-step the
time the request came in, and a Follow_Up the time it leaves (R72). -/
def execPtpPdelayReqRx (p : Nat) (m : PtpMsg) (q : Nat) (s : State) : Done :=
  .next (let s := s.advance (q / 4)
    if s.ptpTakes p m && s.p2p p then
      let t := (s.ingress p q % (timeMod : Int)).toNat
      let two := s.on (Reg.ptpPortCfgTwoStep p)
      s.ptpSend p { kind := 3, seq := m.seq, req := m.src, twoStep := two, time := if two then t / 65536 * 65536 else t
                    corr := if two then m.corr - (t % 65536 : Nat) else m.corr }
    else s)

/-- A peer-delay exchange succeeds or fails: asCapable of an 802.1AS port follows three in a row (R75). -/
def State.asJudge (s : State) (p : Nat) (ok : Bool) : State :=
  let x := s.ptpPort p
  let x := { x with okRun := if ok then x.okRun + 1 else 0, failRun := if ok then 0 else x.failRun + 1 }
  let s := s.setPtp p x
  if s.profile p != 4 then s
  else if 3 ≤ x.okRun then s.wr (Reg.ptpPortStatusAsCapable p) 1
  else if 3 ≤ x.failRun then s.wr (Reg.ptpPortStatusAsCapable p) 0
  else s

/-- A complete peer-delay exchange: the link delay, and asCapable below 800 ns (R75). -/
def State.pdelayDone (s : State) (p : Nat) (t1 t2 t3 t4 corr : Int) : State :=
  let d := (timeDiff t4 t1 - timeDiff t3 t2 - corr) / 2
  let s := s.setPtp p { s.ptpPort p with reqSent := none, resp := none, answered := true }
  (s.delayTaken p d).asJudge p (decide (d < 800 * 65536))

/-- PTP_PDELAY_RESP_RX: a Pdelay_Resp; one-step it completes the exchange, two-step it waits for its Follow_Up (R75). -/
def execPtpPdelayRespRx (p : Nat) (m : PtpMsg) (q : Nat) (s : State) : Done :=
  .next (s.together fun s => let s := s.advance (q / 4)
    let x := s.ptpPort p
    match x.reqSent with
    | some t1 =>
      if s.ptpTakes p m && s.p2p p && m.req == s.portId p && m.seq == x.reqSeq then
        let t4 := s.ingress p q
        if m.twoStep then s.setPtp p { x with resp := some (m.seq, t4, m.time, m.corr) }
        else s.pdelayDone p t1 m.time m.time t4 m.corr
      else s
    | none => s)

/-- PTP_PDELAY_RESP_FOLLOW_UP_RX: completes a two-step peer-delay exchange (R75). -/
def execPtpPdelayRespFollowUpRx (p : Nat) (m : PtpMsg) (s : State) : Done :=
  .next (s.together fun s => let x := s.ptpPort p
    match x.reqSent, x.resp with
    | some t1, some (q, t4, t2, c) =>
      if s.ptpTakes p m && q = m.seq && m.req == s.portId p then s.pdelayDone p t1 t2 m.time t4 (c + m.corr) else s
    | _, _ => s)

/-- PTP_ANNOUNCE_RX: an Announce updates the foreign master table, and BMCA runs when its sender qualifies; one from 255 steps away or,
on 802.1AS, that has passed through this clock is not taken (R76, and the standards; PRESUMED, log entry 9). -/
def execPtpAnnounceRx (p : Nat) (m : PtpMsg) (s : State) : Done :=
  .next (s.together fun s => if s.ptpTakes p m && !s.asBlocked p && m.ann.steps < 255 && !(s.profile p == 4 && m.path.contains (s.clockId p)) then
    let s := s.setPtp p { s.ptpPort p with foreign := foreignPut (s.ptpPort p).foreign m s.rc }
    if ((s.ptpPort p).foreign.filter (fun f => f.src == m.src)).any s.qualified then s.bmca.settleRefs else s
  else s)

/-- PTP_SYNC_INTERVAL: a master sends a Sync (R74). -/
def execPtpSyncInterval (p : Nat) (s : State) : Done :=
  .next (if s.on (Reg.ptpPortCfgEnable p) && s.ptpState p == 6 && !s.asBlocked p then
    let x := s.ptpPort p
    (s.setPtp p { x with seqSync := (x.seqSync + 1) % 65536 }).ptpSend p
      { kind := 0, seq := x.seqSync, twoStep := s.on (Reg.ptpPortCfgTwoStep p) }
  else s)

/-- The data set a port announces: its own, or its parent's one step further on where a boundary clock's other port is slave
(R78, R81). -/
def State.annOut (s : State) (p : Nat) : Announce :=
  let o := 1 - p
  if s.bc && s.slaving o then
    { gm := s.rd (Reg.ptpParentGmIdentity o), prio1 := s.rd (Reg.ptpParentGmPriority1 o), cls := s.rd (Reg.ptpParentGmClass o)
      acc := s.rd (Reg.ptpParentGmAccuracy o), var := s.rd (Reg.ptpParentGmVariance o)
      prio2 := s.rd (Reg.ptpParentGmPriority2 o), steps := s.rd (Reg.ptpParentStepsRemoved o)
      utc := s.rd (Reg.ptpParentUtcOffset o), flags := s.rd (Reg.ptpParentFlags o), tsrc := s.rd (Reg.ptpParentTimeSource o) }
  else s.localAnn p

/-- The path trace of the port's Announces: its parent's, where it passes one on, and its own identity (IEEE 802.1AS-2020). -/
def State.pathOut (s : State) (p : Nat) : List Nat :=
  (if s.bc && s.slaving (1 - p) then (s.ptpPort (1 - p)).path else []) ++ [s.clockId p]

/-- PTP_ANNOUNCE_INTERVAL: a master sends an Announce (R74, R78). -/
def execPtpAnnounceInterval (p : Nat) (s : State) : Done :=
  .next (if s.on (Reg.ptpPortCfgEnable p) && s.ptpState p == 6 && !s.asBlocked p then
    let x := s.ptpPort p
    (s.setPtp p { x with seqAnn := (x.seqAnn + 1) % 65536 }).ptpSend p
      { kind := 11, seq := x.seqAnn, ann := s.annOut p, path := if s.profile p = 4 then s.pathOut p else [] }
  else s)

/-- PTP_DELAY_REQ_INTERVAL: a slave sends a Delay_Req, a peer-to-peer port a Pdelay_Req; a peer-delay exchange left
unanswered has failed (R74, R75). -/
def execPtpDelayReqInterval (p : Nat) (s : State) : Done :=
  .next (if !s.on (Reg.ptpPortCfgEnable p) || s.ptpState p < 4 then s
    else
      let x := s.ptpPort p
      let next := { x with reqSeq := (x.reqSeq + 1) % 65536, reqSent := none, resp := none, answered := false }
      if s.p2p p then
        let s := if x.answered then s else s.asJudge p false
        let y := s.ptpPort p
        (s.setPtp p { next with okRun := y.okRun, failRun := y.failRun }).ptpSend p { kind := 2, seq := next.reqSeq }
      else if s.slaving p then
        (s.setPtp p next).ptpSend p
          { kind := 1, seq := next.reqSeq, unicast := s.on (Reg.ptpPortCfgHybrid p), ip := x.parentIp, mac := x.parentMac }
      else s)

/-- A PTP message of the port has left at a timestamp point: the Follow_Up of a two-step Sync or Pdelay_Resp is queued, the
departure of a request is kept (R72, R73). -/
def State.ptpSent (s : State) (p : Nat) (m : PtpMsg) (q : Nat) : State :=
  let t := s.egress p q
  let u := (t % (timeMod : Int)).toNat
  match m.kind with
  | 0 => if m.twoStep then s.ptpSend p { kind := 8, seq := m.seq, time := u / 65536 * 65536, corr := (u % 65536 : Nat) } else s
  | 1 => if m.seq = (s.ptpPort p).reqSeq then s.setPtp p { s.ptpPort p with reqSent := some t } else s
  | 2 => if m.seq = (s.ptpPort p).reqSeq then s.setPtp p { s.ptpPort p with reqSent := some t } else s
  | 3 => if m.twoStep then
      s.ptpSend p { kind := 10, seq := m.seq, req := m.req, time := u / 65536 * 65536, corr := (u % 65536 : Nat) } else s
  | _ => s

/-- ANNOUNCE_RECEIPT_TIMEOUT, in LISTENING, PASSIVE, UNCALIBRATED and SLAVE: a port that follows a master has lost it: its entry leaves
the table and the servo goes to FREE. BMCA runs; a port left with no qualified master becomes MASTER, or LISTENING where it is slave
only (R75, R76, R80, IEEE 1588-2019 clause 9.2). -/
def execAnnounceReceiptTimeout (p : Nat) (s : State) : Done :=
  .next (s.together fun s => let s := s.catchUp
    if !s.on (Reg.ptpPortCfgEnable p) || !(s.ptpState p == 4 || 7 ≤ s.ptpState p) then s
    else
      let x := s.ptpPort p
      let s := if s.slaving p then
          ((s.setPtp p { x with foreign := x.foreign.filter (fun f => f.src != x.parent), parent := 0 }).viewFree p).servoGo p 3
        else s
      let s := if (s.erBest p).isSome then s
        else if s.on (Reg.ptpPortCfgSlaveOnly p) then s.ptpGo p 4
        else (if s.bc && s.slaving (1 - p) then s else s.parentOwn p).ptpGo p 6
      s.bmca.settleRefs)

/-- SYNC_RECEIPT_TIMEOUT: no Sync for 3 intervals; the servo goes to FREE and the view runs free; the port keeps its state, and the
next Sync acquires again with I kept (R67, R80; DESIGN CHOICE, log entry 47). -/
def execSyncReceiptTimeout (p : Nat) (s : State) : Done :=
  .next (s.together fun s => if s.slaving p then
    let s := s.setPtp p { s.ptpPort p with syncs := 0, keepI := true, below := 0 }
    ((s.viewFree p).servoGo p 3).settleRefs
  else s)

/-- PTP_QUALIFICATION_TIMEOUT: a port in PRE_MASTER enters MASTER (R75, IEEE 1588-2019 clause 9.2). -/
def execPtpQualificationTimeout (p : Nat) (s : State) : Done :=
  .next (s.together fun s => if s.ptpState p = 5 then s.ptpGo p 6 else s)

/-- The ranges of R74 by profile: announce, sync, delay request. -/
def intervalsOk (profile : Nat) (ann syn del : Int) : Bool :=
  match profile with
  | 2 => -3 ≤ ann && ann ≤ 1 && -7 ≤ syn && syn ≤ -1 && -7 ≤ del && del ≤ 5
  | 3 => 0 ≤ ann && ann ≤ 4 && -4 ≤ syn && syn ≤ 1 && -3 ≤ del && del ≤ 5
  | 4 => 0 ≤ ann && ann ≤ 4 && -7 ≤ syn && syn ≤ 1 && -7 ≤ del && del ≤ 5
  | _ => 0 ≤ ann && ann ≤ 4 && -1 ≤ syn && syn ≤ 1 && 0 ≤ del && del ≤ 5

/-- A PTP_PORT_CFG in range (R74, PTP_PORT_CFG); HYBRID, of the E2E mechanism only, is out of range with a P2P profile (DEDUCED, log
entry 47). -/
def vcPtpPortCfg (n : Nat) : Bool :=
  let prof := field n 1 3
  intervalsOk prof (sext 4 (field n 16 4)) (sext 4 (field n 20 4)) (sext 4 (field n 24 4))
    && 2 ≤ field n 28 4 && field n 28 4 ≤ 10
    && !(field n 12 1 == 1 && field n 13 1 == 1)
    && !(field n 15 1 == 1 && (prof == 1 || prof == 4))

/-- Two clocks may not name one view (R77). -/
def scPtpPortCfg (s : State) (p n : Nat) : Status :=
  if !s.bc && s.rd (Reg.ptpPortCfgView (1 - p)) == field n 48 2 then .conflict else .ok

/-- A change of PTP_BC sends both ports through INITIALIZING; BMCA runs on what remains (R76, R81). -/
def State.ptpRestartBoth (s : State) : State := ((s.ptpInit 0).ptpInit 1).bmca.signalFail

/-- A change of PTP_PORT_CFG or PTP_CLOCK_ID sends the ports concerned through INITIALIZING: port A's are a boundary clock's; BMCA runs
on what remains (R76, R81, R82). -/
def State.ptpRestart (s : State) (p : Nat) : State :=
  if s.bc && p == 0 then s.ptpRestartBoth else (s.ptpInit p).bmca.signalFail

/-- Splitting the boundary clock may not leave two clocks on one view (R77). -/
def scPtpBc (s : State) (n : Nat) : Status :=
  if n = 0 && s.rd (Reg.ptpPortCfgView 0) == s.rd (Reg.ptpPortCfgView 1) then .conflict else .ok

/-- A media port's link changes under its PTP port: FAULTY while down, INITIALIZING when it returns (R75). -/
def State.ptpLink (s : State) (p : Nat) (up : Bool) : State :=
  if p < 2 && s.on (Reg.ptpPortCfgEnable p) then (if up then s.ptpInit p else s.ptpGo p 2) else s

end Sys2Proof.Machine
end

