-- ==== Sys2Proof/Machine/Stream.lean ====
section
/-! DEFINITION. The stream engine: media counts, receive contexts with their jitter buffers and merge, non-audio flags,
transmit contexts and their packets, starts and stops (R160 to R198). -/

namespace Sys2Proof.Machine

/-- Receive context `c` beside its entries. -/
def State.rx (s : State) (c : Nat) : RxCtx := Sparse.get (fun _ => {}) s.stream.rx c

/-- The state with a receive context replaced. -/
def State.setRx (s : State) (c : Nat) (x : RxCtx) : State :=
  { s with stream := { s.stream with rx := Sparse.put (fun _ => {}) s.stream.rx c x } }

/-- Transmit context `c` beside its entries. -/
def State.tx (s : State) (c : Nat) : TxCtx := Sparse.get (fun _ => {}) s.stream.tx c

/-- The state with a transmit context replaced. -/
def State.setTx (s : State) (c : Nat) (x : TxCtx) : State :=
  { s with stream := { s.stream with tx := Sparse.put (fun _ => {}) s.stream.tx c x } }

/-- The pair of domain `d` and view `v`. -/
def State.pair (s : State) (d v : Nat) : Pair := Sparse.get (fun _ => {}) s.stream.pairs (d * 4 + v)

/-- The state with a pair replaced. -/
def State.setPair (s : State) (d v : Nat) (x : Pair) : State :=
  { s with stream := { s.stream with pairs := Sparse.put (fun _ => {}) s.stream.pairs (d * 4 + v) x } }

/-- STATE of a receive context. -/
def State.rxState (s : State) (c : Nat) : Nat := s.rd (Reg.rxStatusState c)

/-- STATE of a transmit context. -/
def State.txState (s : State) (c : Nat) : Nat := s.rd (Reg.txStatusState c)

/-- Samples per channel in a packet: PTIME and the domain's rate (R161). -/
def samplesOf (ptime rate : Nat) : Nat := [6, 12, 16, 48, 192].getD ptime 6 * rateMult rate

/-- Bytes per sample of a FORMAT (R162). -/
def bytesOf (format : Nat) : Nat := [2, 3, 4, 4].getD format 4

/-- S of a receive context. -/
def State.rxS (s : State) (c : Nat) : Nat := samplesOf (s.rd (Reg.rxCtrlPtime c)) (s.domRate (s.rd (Reg.rxCtrlDomain c)))

/-- S of a transmit context. -/
def State.txS (s : State) (c : Nat) : Nat := samplesOf (s.rd (Reg.txCtrlPtime c)) (s.domRate (s.rd (Reg.txCtrlDomain c)))

/-- The units a context of `ch` channels counts at a rate (R160). -/
def loadOf (ch rate : Nat) : Nat := ch * rateMult rate

/-- The receive sum of R160 over the contexts that have left OFF. -/
def State.rxLoad (s : State) : Nat :=
  (((List.range 256).filter (fun c => s.rxState c != 0)).map
    (fun c => loadOf (s.rd (Reg.rxCtrlChannels c)) (s.domRate (s.rd (Reg.rxCtrlDomain c))))).sum

/-- The transmit sum of R160. -/
def State.txLoad (s : State) : Nat :=
  (((List.range 256).filter (fun c => s.txState c != 0)).map
    (fun c => loadOf (s.rd (Reg.txCtrlChannels c)) (s.domRate (s.rd (Reg.txCtrlDomain c))))).sum

/-- Bytes of the jitter buffer region not held by a context (R171). -/
def State.jbFree (s : State) : Nat := s.rd Reg.cellarPartJb * 65536 - (s.stream.rx.map (fun p => p.2.bytes)).sum

/-- The jitter buffer of `ch` channels, offset `p` and packet length `n`, rounded up to a KiB (R171). -/
def jbBytes (ch p n : Nat) : Nat := (ch * (p + n) * 4 + 1023) / 1024 * 1024

/-- The largest P at a rate: the ticks in 32 ms (R172). -/
def maxP (rate : Nat) : Nat := rate * 32 / 1000

/-- The media count u of a view's time at a point, as (numerator, denominator) (R167). -/
def State.mediaCount (s : State) (d v q : Nat) : Nat × Nat :=
  (s.domRate d * (s.viewAt v q % (timeMod : Int)).toNat, 1000000000 * 65536)

/-- Whether u lies within 0.75 of an integer `e` (R168). -/
def near (x : Nat × Nat) (e : Nat) : Bool :=
  let d := if e * x.2 ≤ x.1 then x.1 - e * x.2 else e * x.2 - x.1
  4 * d ≤ 3 * x.2

/-- Whether some context uses the pair of domain `d` and view `v`: one that is not OFF or ARMED (R168). -/
def State.pairUsed (s : State) (d v : Nat) : Bool :=
  (List.range 256).any fun c =>
    (2 ≤ s.rd (Reg.rxStatusState c) && s.rd (Reg.rxCtrlDomain c) == d && s.rd (Reg.rxCtrlView c) == v)
      || (2 ≤ s.rd (Reg.txStatusState c) && s.rd (Reg.txCtrlDomain c) == d && s.rd (Reg.txCtrlView c) == v)

/-- A pair comes into use: E is u rounded, at the domain's present edge; before the domain's first edge E waits for that edge (R168;
DEDUCED, log entry 48). -/
def State.usePair (s : State) (d v : Nat) : State :=
  if (s.pair d v).used && s.pairUsed d v then s
  else
    let t := s.tick d
    s.setPair d v { used := t.open_, e := nearest (s.mediaCount d v (if t.open_ then t.edge else 4 * s.rc)) }

/-- A pair at its next edge: the new E, and whether the pair's contexts re-time (R168). -/
def State.pairEdge (s : State) (d v q : Nat) : Nat × Bool :=
  let u := s.mediaCount d v q
  let e := (s.pair d v).e + 1
  if Sparse.get (fun _ => false) s.time.stepped (d * 4 + v) then (nearest u, true)
  else if near u e then (e, false) else (nearest u, true)

/-- A receive context's STATE changes; RUN and UNDERRUN under the hold-off, every other change at once (R197, R198). -/
def State.rxGo (s : State) (c new : Nat) : State :=
  let old := s.rxState c
  if old = new then s
  else
    let s := s.wr (Reg.rxStatusState c) new
    let x := s.rx c
    let flip := (old == 3 || old == 4) && (new == 3 || new == 4)
    if flip && x.hold.active then s.setRx c { x with hold := { x.hold with count := x.hold.count + 1, info := old } }
    else
      let s := if flip then s.setRx c { x with hold := { active := true } } else s
      s.post 0x4001 4 [pack [(0, c), (8, new), (12, old), (16, 1)]]

/-- A transmit context's STATE changes (R197). -/
def State.txGo (s : State) (c new : Nat) : State :=
  let old := s.txState c
  if old = new then s else (s.wr (Reg.txStatusState c) new).post 0x4004 4 [pack [(0, c), (8, new), (12, old)]]

/-- STREAM_STATE_WINDOW_END: the 100 ms hold-off of a receive context's changes between RUN and UNDERRUN ends (R198). -/
def execStreamStateWindowEnd (c : Nat) (s : State) : Done :=
  .next (let x := s.rx c
    if !x.hold.active then s
    else if x.hold.count = 0 then s.setRx c { x with hold := {} }
    else (s.setRx c { x with hold := { active := true } }).post 0x4001 4
      [pack [(0, c), (8, s.rxState c), (12, x.hold.info), (16, sat16 x.hold.count)]])

/-- The place of a media count in the buffer: counts may lie below 0, by no more than the largest P and packet. -/
def jbKey (k : Int) : Nat := (k + 16384).toNat

/-- The sample of a media count in the buffer; empty where it is not present. -/
def RxCtx.at (x : RxCtx) (k : Int) : List Nat := Sparse.get (fun _ => []) x.jb (jbKey k)

/-- Whether a range of media counts is present from the cursor on, counted up to `n`. -/
def depthFrom (x : RxCtx) : Nat → Int → Nat
  | 0, _ => 0
  | n + 1, k => if (x.at k).isEmpty then 0 else 1 + depthFrom x n (k + 1)

/-- DEPTH_MIN's bookkeeping at one capture stage (RX_CURSOR). -/
def State.rxDepth (s : State) (c : Nat) (cursor : Int) : State :=
  let x := s.rx c
  let d := min 0xFFFF (depthFrom x x.jb.length cursor)
  let least := min x.depth d
  if s.domRate (s.rd (Reg.rxCtrlDomain c)) ≤ x.depthTicks + 1 then
    (s.setRx c { x with depth := 0xFFFF, depthTicks := 0 }).wr (Reg.rxCursorDepthMin c) least
  else s.setRx c { x with depth := least, depthTicks := x.depthTicks + 1 }

/-- A non-audio flag changes (R184, R197). -/
def State.naSet (s : State) (c ch : Nat) (on : Bool) : State :=
  if bit (s.rd (Reg.rxNaNa c)) ch = on then s
  else
    let s := s.wr (Reg.rxNaNa c) (setField (s.rd (Reg.rxNaNa c)) ch 1 (b2n on))
    (s.bumpIf on (Reg.rxRxNaDetect c)).post 0x4003 3 [pack [(0, c), (8, ch), (14, b2n on)]]

/-- A receive context goes to OFF: its buffer is freed, its cursor dropped, and its flags cleared (R184, R191). -/
def State.rxOff (s : State) (c : Nat) : State :=
  let s := (s.rxGo c 0).units 64 fun s ch => s.naSet c ch false
  s.setRx c { hold := (s.rx c).hold }

/-- A sample as held: its value. -/
def sampleVal (x : Nat) : Nat := x / 256

/-- A sample as held: its AM824 label. -/
def sampleLabel (x : Nat) : Nat := x % 256

/-- PCM detection at one delivered sample: the IEC 61937 preambles in channel pairs, and the samples since them (R185). -/
def State.naPcm (s : State) (c : Nat) (smp : List Nat) : State :=
  s.units (smp.length / 2) fun s k =>
    let x := s.rx c
    let since (s : State) (n : Nat) : State := s.setRx c { s.rx c with naRun := Sparse.put (fun _ => 0) (s.rx c).naRun k n }
    if sampleVal (smp.getD (2 * k) 0) / 65536 = 0xF872 && sampleVal (smp.getD (2 * k + 1) 0) / 65536 = 0x4E1F then
      since ((s.naSet c (2 * k) true).naSet c (2 * k + 1) true) 0
    else if bit (s.rd (Reg.rxNaNa c)) (2 * k) then since s (Sparse.get (fun _ => 0) x.naRun k + 1)
    else s

/-- Whether an IEC 60958 label carries the block-start code (IEC 61883-6; PRESUMED, log entry 9). -/
def labelStart (l : Nat) : Bool := l < 0x40 && l / 16 == 3

/-- The label received for channel `ch` at a media count; 0xFF where none is kept. -/
def RxCtx.label (x : RxCtx) (ch : Nat) (k : Int) : Nat := (Sparse.get (fun _ => []) x.labs (jbKey k)).getD ch 0xFF

/-- Whether a channel status block of channel `ch` starts at a media count: there the first channel of its pair carries the
block-start code (IEC 61883-6; PRESUMED, log entry 9). -/
def RxCtx.blockStart (x : RxCtx) (ch : Nat) (k : Int) : Bool := labelStart (x.label (ch / 2 * 2) k)

/-- Whether a block of channel `ch` that starts at a media count has been received whole (R186). -/
def RxCtx.blockWhole (x : RxCtx) (ch : Nat) (k : Int) : Bool :=
  x.blockStart ch k && (List.range 192).all fun i => x.label ch (k + i) < 0x40 && (i == 0 || !x.blockStart ch (k + i))

/-- AM824 detection at one delivered sample of a channel: by its label, or by the latest complete channel status block that starts no
later than it (R186). -/
def State.naAm824 (s : State) (c ch : Nat) (cursor : Int) (smp : Nat) : State :=
  let l := sampleLabel smp
  if 0x40 ≤ l then s.naSet c ch (decide (0x50 ≤ l))
  else
    let x := s.rx c
    let st := match (List.range 384).find? (fun (i : Nat) => x.blockWhole ch (cursor - (i : Int))) with
      | some i => { start := some (cursor - (i : Int)), bit1 := bit (x.label ch (cursor - i + 1)) 2, whole := true }
      | none => Sparse.get (fun _ => {}) x.status ch
    (s.setRx c { x with status := Sparse.put (fun _ => {}) x.status ch st }).naSet c ch (st.whole && st.bit1)

/-- Detection at one delivered sample of a context (R184 to R186). -/
def State.naDetect (s : State) (c : Nat) (cursor : Int) (smp : List Nat) : State :=
  if s.rd (Reg.rxCtrlNaMode c) = 0 then s
  else if s.rd (Reg.rxCtrlFormat c) = 3 then
    s.units smp.length fun s ch => s.naAm824 c ch cursor (smp.getD ch 0)
  else s.naPcm c smp

/-- The sample at the cursor is delivered on all channels (R174). -/
def State.rxDeliver (s : State) (c : Nat) (cursor : Int) (smp : List Nat) : State :=
  let s := s.naDetect c cursor smp
  s.setRx c { s.rx c with vals := smp }

/-- A sample missed at the cursor: the previous values stay (R175). -/
def State.rxMiss (s : State) (c : Nat) : State := s.bump (Reg.rxRxUnderrunTicks c) 1

/-- A re-time is counted and reported with the cursor's move, at the first capture stage under the new E or P (R178, R197). -/
def State.rxRetime (s : State) (c : Nat) (k : Int) : State :=
  let x := s.rx c
  if !x.retime then s
  else ((s.setRx c { x with retime := false }).bump (Reg.rxRxRetimes c) 1).post 0x4005 3 [pack [(0, c)], ofInt 32 (k - x.last)]

/-- One capture stage of a receive context at cursor `k` (R174, R175, R178, R191). -/
def State.rxCapture (s : State) (c : Nat) (k : Int) : State :=
  let smp := (s.rx c).at k
  let here := !smp.isEmpty
  let boundary := k % s.rxS c == 0
  let s := (s.rxRetime c k).rxDepth c k
  let s := s.wr (Reg.rxCursorCursorTs c) (ofInt 32 (k + s.rd (Reg.rxTsOffsetTsOffset c)))
  let silent (s : State) : State := s.setRx c { s.rx c with vals := [] }
  let s := match s.rxState c with
    | 2 => if boundary && here then (s.rxGo c 3).rxDeliver c k smp else silent s
    | 3 => if here then s.rxDeliver c k smp else ((s.rxGo c 4).bump (Reg.rxRxUnderruns c) 1).rxMiss c
    | 4 => if here then (s.rxGo c 3).rxDeliver c k smp else s.rxMiss c
    | 5 =>
      if boundary then (if s.rd (Reg.rxCtrlStopHold c) = 0 then s.rxOff c else silent (s.rxGo c 6))
      else if here then s.rxDeliver c k smp else s.rxMiss c
    | _ => silent s
  if s.rxState c = 0 then s
  else
    let x := s.rx c
    s.setRx c { x with next := k + 1, last := k, here := here, labs := x.labs.dropWhile (fun p => p.1 + 384 ≤ jbKey k) }

/-- Each pair of domain `d` at its edge `q`: the new E, and re-times; one that no context uses any more is given up (R168, R178, R179). -/
def State.streamPairs (s : State) (d q : Nat) : State :=
  s.units 4 fun s v =>
    let old := s.pair d v
    let r := s.pairEdge d v q
    let s := { s with time := { s.time with stepped := Sparse.put (fun _ => false) s.time.stepped (d * 4 + v) false } }
    if !s.pairUsed d v then s.setPair d v {}
    else if !old.used then s.setPair d v { used := true, e := nearest (s.mediaCount d v q) }
    else
      let s := s.setPair d v { used := true, e := r.1 }
      if !r.2 then s
      else
        let s := s.units 256 fun s c =>
          if 2 ≤ s.rxState c && s.rd (Reg.rxCtrlDomain c) == d && s.rd (Reg.rxCtrlView c) == v then
            s.setRx c { s.rx c with retime := true }
          else s
        s.units 256 fun s c =>
          if 2 ≤ s.txState c && s.rd (Reg.txCtrlDomain c) == d && s.rd (Reg.txCtrlView c) == v then
            (s.bump (Reg.txTxRetimes c) 1).post 0x4005 3 [pack [(0, c), (8, 1)], ofInt 32 ((r.1 : Int) - old.e)]
          else s

/-- The stream part of the capture stage of a tick of domain `d`: every receive context at its cursor (R34, R174). -/
def State.streamCapture (s : State) (d : Nat) : State :=
  s.units 256 fun s c =>
    if 2 ≤ s.rxState c && s.rd (Reg.rxCtrlDomain c) == d then
      s.rxCapture c (((s.pair d (s.rd (Reg.rxCtrlView c))).e : Int) - s.rd (Reg.rxTimingP c))
    else s

/-- The value a receive channel presents to a sink; a flagged channel is muted toward all but transmit streams where NA_MODE
is 2 (R177, R187). -/
def State.rxPresent (s : State) (c ch : Nat) (toStream : Bool) : Nat :=
  if s.rd (Reg.rxCtrlChannels c) ≤ ch then 0
  else if !toStream && s.rd (Reg.rxCtrlNaMode c) == 2 && bit (s.rd (Reg.rxNaNa c)) ch then 0
  else sampleVal ((s.rx c).vals.getD ch 0)

/-- STREAM_HOLD_EXPIRY: STOP_HOLD packet times in HOLD pass for context `c`, receive or transmit (R191, R192). -/
def execStreamHoldExpiry (isTx : Bool) (c : Nat) (s : State) : Done :=
  .next (s.together fun s => if isTx then (if s.txState c = 5 then (s.txGo c 0).setTx c {} else s)
    else if s.rxState c = 6 then s.rxOff c else s)

/-- NA_HOLD_EXPIRY: the pair of channels 2k, 2k + 1 of context `c` has shown no preamble for NA_HOLD × fs / 1000 samples (R185). -/
def execNaHoldExpiry (c k : Nat) (s : State) : Done :=
  .next (
    let hold := s.rd Reg.seCfgNaHold * s.domRate (s.rd (Reg.rxCtrlDomain c)) / 1000
    if s.rd (Reg.rxCtrlFormat c) != 3 && hold ≤ Sparse.get (fun _ => 0) (s.rx c).naRun k then
      let s := (s.naSet c (2 * k) false).naSet c (2 * k + 1) false
      s.setRx c { s.rx c with naRun := Sparse.put (fun _ => 0) (s.rx c).naRun k 0 }
    else s)

/-- A path of a receive context changes state (R183, R197). -/
def State.pathGo (s : State) (c path : Nat) (up : Bool) : State :=
  let f := if path = 0 then Reg.rxStatusPathA c else Reg.rxStatusPathB c
  if s.on f = up then s else (s.flag f up).post 0x4002 4 [pack [(0, c), (8, path), (9, b2n up)]]

/-- STREAM_PATH_TIMEOUT: no valid packet on a path within its limit (R183). -/
def execStreamPathTimeout (c path : Nat) (s : State) : Done := .next (s.pathGo c path false)

/-- Whether a frame to (ip, port) from `src` on port `p` (A or B) matches a receive context's addresses (R166). -/
def State.rxMatches (s : State) (c p ip port src : Nat) : Bool :=
  bit (s.rd (Reg.rxCtrlPorts c)) p &&
  (let dip := if p = 0 then s.rd (Reg.rxAddrADstIp c) else s.rd (Reg.rxAddrBDstIp c)
   let dport := if p = 0 then s.rd (Reg.rxAddrADstPort c) else s.rd (Reg.rxAddrBDstPort c)
   let sip := if p = 0 then s.rd (Reg.rxAddrASrcIp c) else s.rd (Reg.rxAddrBSrcIp c)
   dip == ip && dport == port && (sip == 0 || sip == src))

/-- The receive context a frame on port `p` belongs to (R166). -/
def State.rxFor (s : State) (p ip port src : Nat) : Option Nat :=
  (List.range 256).find? (fun c => 2 ≤ s.rxState c && s.rxMatches c p ip port src)

/-- The samples of a payload: for each of `n` sample times the `ch` channels' held samples (R162). -/
def splitPayload (fmt ch : Nat) : Nat → List Byte → List (List Nat)
  | 0, _ => []
  | n + 1, l =>
    let b := bytesOf fmt
    let one (i : Nat) : Nat :=
      let v := at_ l (i * b) b
      match fmt with
      | 0 => v * 65536 * 256
      | 1 => v * 256 * 256
      | 2 => v * 256
      | _ => v % 2 ^ 24 * 256 * 256 + v / 2 ^ 24
    (List.range ch).map one :: splitPayload fmt ch n (l.drop (ch * b))

/-- The media count of a received timestamp: congruent to ts − TS_OFFSET, nearest to NEXT (R170). -/
def countOf (next : Int) (ts off : Nat) : Int :=
  let r : Int := (ts + 2 ^ 32 - off % 2 ^ 32) % 2 ^ 32
  let d := (r - next) % (2 ^ 32 : Nat)
  if d < (2 ^ 31 : Nat) then next + d else next + d - (2 ^ 32 : Nat)

/-- The samples of a packet are placed by media count; a sample takes the place of the one that many counts before it as the buffer has
places, so that samples delivered stay until then (R171, R173, R178; DEDUCED, log entry 48). -/
def State.rxStore (s : State) (c ts : Nat) (smp : List (List Nat)) : State :=
  let x := s.rx c
  let n := smp.length
  let base := countOf x.next ts (s.rd (Reg.rxTsOffsetTsOffset c))
  let top : Int := x.next + s.rd (Reg.rxTimingP c) + n
  let last := base + n - 1
  if top ≤ last then s.bump (Reg.rxRxEarly c) 1
  else if last < x.next then s.bump (Reg.rxRxLate c) 1
  else
    let s := s.bumpIf (decide (base < x.next)) (Reg.rxRxLate c)
    let size := s.rd (Reg.rxTimingP c) + n
    let jb := (smp.zipIdx).foldl (fun jb p =>
      let k := jbKey (base + p.2)
      if x.next ≤ base + p.2 then Sparse.put (fun _ => []) (jb.filter (fun y => y.1 % size != k % size)) k p.1 else jb) x.jb
    let labs := if s.rd (Reg.rxCtrlFormat c) = 3 then
        (smp.zipIdx).foldl (fun l p =>
          if x.next ≤ base + p.2 then Sparse.put (fun _ => []) l (jbKey (base + p.2)) (p.1.map sampleLabel) else l) x.labs
      else []
    (s.setRx c { s.rx c with jb := jb, labs := labs }).bump (Reg.rxRxPkts c) 1

/-- Whether sequence number `q` lies `1` to 32,767 ahead of `h`; how far. -/
def seqAhead (h q : Nat) : Nat := (q + 65536 - h) % 65536

/-- A path's own gaps and its being up (R183). -/
def State.rxPath (s : State) (c path q : Nat) : State :=
  let x := s.rx c
  let old := Sparse.get (fun _ => none) x.pathSeq path
  let gap := match old with | some h => (let k := seqAhead h q; if 2 ≤ k && k ≤ 32767 then k - 1 else 0) | none => 0
  let newer := match old with | some h => (let k := seqAhead h q; decide (1 ≤ k ∧ k ≤ 32767)) | none => true
  let s := if newer then s.setRx c { x with pathSeq := Sparse.put (fun _ => none) x.pathSeq path (some q) } else s
  let s := s.bump (if path = 0 then Reg.rxRxSeqGapA c else Reg.rxRxSeqGapB c) gap
  let s := s.bump (if path = 0 then Reg.rxRxPktsA c else Reg.rxRxPktsB c) 1
  s.pathGo c path true

/-- Numbers that leave the record unseen when H moves on by `k`, of the `span` numbers behind it that follow the first packet (R180;
DESIGN CHOICE, log entry 48). -/
def lostIn (seen span k : Nat) : Nat :=
  ((List.range (span + 1)).filter (fun b => 256 ≤ b + k && !bit seen b)).length + (k - 256)

/-- The redundant merge of one packet (R180 to R182). -/
def State.rxMerge (s : State) (c q ts : Nat) (smp : List (List Nat)) : State :=
  let x := s.rx c
  let keep (s : State) (h seen span : Nat) : State :=
    s.setRx c { s.rx c with
      seqH := some h, seen := seen, span := span, stamps := Sparse.put (fun _ => 2 ^ 32) (s.rx c).stamps q ts }
  match x.seqH with
  | none => (keep s q 1 0).rxStore c ts smp
  | some h =>
    let k := seqAhead h q
    if 1 ≤ k ∧ k ≤ 32767 then
      let s := s.bump (Reg.rxRxLost c) (lostIn x.seen x.span k)
      (keep s q ((x.seen * 2 ^ min k 256 + 1) % 2 ^ 256) (min 255 (x.span + k))).rxStore c ts smp
    else
      let back := (65536 - k) % 65536
      if back < 256 && bit x.seen back then
        if Sparse.get (fun _ => 2 ^ 32) x.stamps q = ts then s.bump (Reg.rxRxDup c) 1 else s.bump (Reg.rxRxMismatch c) 1
      else
        (if back < 256 then keep s h (setField x.seen back 1 1) x.span else s).rxStore c ts smp

/-- The UDP checksum over pseudo-header, header and payload: 0 where it is right. -/
def udpSum (ip udp : List Byte) : Nat :=
  inetCsum ((ip.drop 12).take 8 ++ [0, 17] ++ natBe 2 udp.length ++ udp)

/-- The payload of an RTP packet after its CSRC list, header extension and padding (R165); `none` where they do not fit. -/
def rtpPayload (l : List Byte) : Option (List Byte) :=
  let b0 := at_ l 0 1
  let h := 12 + b0 % 16 * 4
  let h := if bit b0 4 then h + 4 + at_ l (h + 2) 2 * 4 else h
  let pad := if bit b0 5 then at_ l (l.length - 1) 1 else 0
  if h + pad ≤ l.length then some ((l.drop h).take (l.length - h - pad)) else none

/-- A frame given to receive context `c` on path `p`: the checks of R165, then the merge. -/
def State.rxPacket (s : State) (c p : Nat) (l : List Byte) : State :=
  let o := ipOff l
  let ihl := at_ l o 1 % 16 * 4
  let ip := (l.drop o).take (at_ l (o + 2) 2)
  let udp := (ip.drop ihl).take (at_ ip (ihl + 4) 2)
  let rtp := udp.drop 8
  let bad := s.bump (Reg.rxRxBad c) 1
  let fmt := s.rd (Reg.rxCtrlFormat c)
  let ch := s.rd (Reg.rxCtrlChannels c)
  if at_ ip 6 2 % 0x4000 ≠ 0 then bad
  else if at_ udp 6 2 ≠ 0 ∧ udpSum ip udp ≠ 0 then bad
  else if at_ rtp 0 1 / 64 ≠ 2 ∨ rtp.length < 12 then bad
  else if at_ rtp 1 1 % 128 ≠ s.rd (Reg.rxPtSsrcPt c) then bad
  else if s.on (Reg.rxCtrlSsrcFilt c) && at_ rtp 8 4 != s.rd (Reg.rxPtSsrcSsrc c) then s.bump (Reg.rxRxSsrcReject c) 1
  else
    match rtpPayload rtp with
    | some pay =>
      if pay.length = ch * s.rxS c * bytesOf fmt then
        (s.rxPath c p (at_ rtp 2 2)).rxMerge c (at_ rtp 2 2) (at_ rtp 4 4) (splitPayload fmt ch (s.rxS c) pay)
      else bad
    | none => bad

/-- The Ethernet frame length of a payload (R163). -/
def mediaLen (tag : Bool) (payload : Nat) : Nat := (if tag then 62 else 58) + payload

/-- Whether a context's frame fits every port it names (R163). -/
def State.fitsPorts (s : State) (ports : Nat) (tag : Bool) (payload : Nat) : Bool :=
  (List.range 2).all (fun p => !bit ports p || mediaLen tag payload ≤ limit (s.frameCfg p) tag)

/-- The range checks of a CTRL entry that follow from the value alone (R161, R162, RX_CTRL, TX_CTRL). -/
def vcStreamCtrl (n : Nat) : Bool :=
  field n 2 2 != 0 && field n 11 3 ≤ 4 && 1 ≤ field n 14 7 && field n 14 7 ≤ 64 && !(field n 9 2 == 3 && field n 14 7 % 2 == 1)

/-- The range checks of a CTRL entry that follow from the domain's rate and the ports (R161, R163). -/
def State.streamRange (s : State) (n : Nat) (tag : Bool) : Bool :=
  if field n 4 1 = 0 then true
  else
    let rate := s.domRate (field n 5 2)
    !(field n 11 3 == 2 && family441 rate)
      && s.fitsPorts (field n 2 2) tag (field n 14 7 * samplesOf (field n 11 3) rate * bytesOf (field n 9 2))

/-- The conditions for a start of receive context `c` with CTRL value `n` (R190). -/
def State.rxStartOk (s : State) (c n : Nat) : Bool :=
  let d := field n 5 2
  let rate := s.domRate d
  let ch := field n 14 7
  let ports := field n 2 2
  let counted := if s.rxState c = 0 then loadOf ch rate else 0
  field n 4 1 == 1 && s.running d
    && s.rxLoad + counted ≤ 2048
    && (List.range 2).all (fun p => !bit ports p || s.portEnabled p)
    && jbBytes ch (s.rd (Reg.rxTimingP c)) (samplesOf (field n 11 3) rate) ≤ s.jbFree
    && !(List.range 256).any (fun k => k != c && s.rxState k != 0 && (List.range 2).any (fun p =>
        bit ports p && bit (s.rd (Reg.rxCtrlPorts k)) p
          && (let a (x : Nat) : Nat × Nat × Nat :=
                if p = 0 then (s.rd (Reg.rxAddrADstIp x), s.rd (Reg.rxAddrADstPort x), s.rd (Reg.rxAddrASrcIp x))
                else (s.rd (Reg.rxAddrBDstIp x), s.rd (Reg.rxAddrBDstPort x), s.rd (Reg.rxAddrBSrcIp x))
              (a k).1 == (a c).1 && (a k).2.1 == (a c).2.1
                && ((a k).2.2 == 0 || (a c).2.2 == 0 || (a k).2.2 == (a c).2.2))))

/-- The conditions for a start of transmit context `c` with CTRL value `n` (R190). -/
def State.txStartOk (s : State) (c n : Nat) : Bool :=
  let d := field n 5 2
  let counted := if s.txState c = 0 then loadOf (field n 14 7) (s.domRate d) else 0
  field n 4 1 == 1 && s.running d && s.txLoad + counted ≤ 2048
    && (List.range 2).all (fun p => !bit (field n 2 2) p ||
        (s.portEnabled p && s.on (Reg.portIpv4Addr p)
          && (if p = 0 then s.on (Reg.txAddrADstIp c) else s.on (Reg.txAddrBDstIp c))))

/-- A receive context starts: WAIT, with its buffer taken and its cursor set from E (R191). -/
def State.rxStart (s : State) (c : Nat) : State :=
  let d := s.rd (Reg.rxCtrlDomain c)
  let v := s.rd (Reg.rxCtrlView c)
  let s := s.usePair d v
  let p := s.rd (Reg.rxTimingP c)
  let e : Int := (s.pair d v).e
  let s := s.setRx c { hold := (s.rx c).hold, next := e + 1 - p, last := e - p, retime := (s.rx c).retime
                       bytes := jbBytes (s.rd (Reg.rxCtrlChannels c)) p (s.rxS c) }
  s.rxGo c 2

/-- A transmit context starts: START, with its sequence number drawn at random (R192). -/
def State.txStartGo (s : State) (c : Nat) : State :=
  let s := s.usePair (s.rd (Reg.txCtrlDomain c)) (s.rd (Reg.txCtrlView c))
  let (v, s) := s.draw
  let s := s.wr (Reg.txStatusSeqNext c) v
  (s.setTx c { silent := s.rd (Reg.txRtpStartSilent c) }).txGo c 2

/-- A start request from a timed trigger (R85, R189, R190). -/
def State.rxRequest (s : State) (c : Nat) : State :=
  if s.rxState c = 1 && s.rxStartOk c (s.get (Reg.rxCtrlEnable c).key) then s.rxStart c else s

/-- A start request from a timed trigger (R85, R189, R190). -/
def State.txRequest (s : State) (c : Nat) : State :=
  if s.txState c = 1 && s.txStartOk c (s.get (Reg.txCtrlEnable c).key) then s.txStartGo c else s

/-- Fields of a CTRL entry other than ENABLE, NA_MODE (receive) and STOP_HOLD (R194). -/
def ctrlFixed (rx : Bool) (n : Nat) : Nat := setField (setField (setField n 0 1 0) 24 8 0) 21 2 (if rx then 0 else field n 21 2)

/-- The state checks of a SET of RX_CTRL (R24, R161, R163, R172, R190, R194). -/
def scRxCtrl (s : State) (c n : Nat) : Status :=
  let old := s.get (Reg.rxCtrlEnable c).key
  let d := field n 5 2
  if !s.streamRange n false then .outOfRange
  else if field n 4 1 = 1 && maxP (s.domRate d) < s.rd (Reg.rxTimingP c) then .outOfRange
  else if s.rxState c ≠ 0 && ctrlFixed true n != ctrlFixed true old then .conflict
  else if s.moveBlocked (.rxStream c) (domIf (field n 4 1 == 1) d) then .conflict
  else if field n 0 1 = 1 && (s.rxState c == 0) && !s.rxStartOk c n then .conflict
  else .ok

/-- A SET of RX_CTRL acts: a start, an arming, a stop, or the cancelling of a stop (R189, R191, R193). -/
def applyRxCtrl (s : State) (c old n : Nat) : State :=
  let now := field n 0 1 == 1
  match s.rxState c with
  | 0 => if !now then s else if field n 1 1 = 1 then s.rxGo c 1 else s.rxStart c
  | 1 => if now then s else s.rxOff c
  | 5 =>
    if now && field old 0 1 == 0 then
      (if (s.rx c).here then s.rxGo c 3 else (s.rxGo c 4).bump (Reg.rxRxUnderruns c) 1)
    else s
  | 6 => if now then s.rxGo c 2 else s
  | _ => if now then s else s.rxGo c 5

/-- The state checks of a SET of TX_CTRL (R24, R161, R163, R190, R194). -/
def scTxCtrl (s : State) (c n : Nat) : Status :=
  let old := s.get (Reg.txCtrlEnable c).key
  if !s.streamRange n (field n 21 1 == 1) then .outOfRange
  else if s.txState c ≠ 0 && ctrlFixed false n != ctrlFixed false old then .conflict
  else if s.moveBlocked (.txStream c) (domIf (field n 4 1 == 1) (field n 5 2)) then .conflict
  else if field n 0 1 = 1 && (s.txState c == 0) && !s.txStartOk c n then .conflict
  else .ok

/-- A SET of TX_CTRL acts (R189, R192, R193); that ENABLE 0 stops a context in START as one in RUN is DEDUCED, log entry 51. -/
def applyTxCtrl (s : State) (c n : Nat) : State :=
  let now := field n 0 1 == 1
  match s.txState c with
  | 0 => if !now then s else if field n 1 1 = 1 then s.txGo c 1 else s.txStartGo c
  | 1 => if now then s else s.txGo c 0
  | 2 => if now then s else s.txGo c 4
  | 3 => if now then s else s.txGo c 4
  | 4 => if now then s.txGo c 3 else s
  | _ => if now then (s.setTx c { s.tx c with silent := 0, begun := false }).txGo c 2 else s

/-- Addresses, TS_OFFSET, PT and SSRC are fixed while a context is not OFF (R194). -/
def scRxFixed (s : State) (c key n : Nat) : Status := if s.rxState c ≠ 0 && s.get key != n then .conflict else .ok

/-- Addresses, TS_OFFSET, PT and SSRC are fixed while a context is not OFF; START_SILENT is not (R194). -/
def scTxFixed (s : State) (c key n : Nat) : Status :=
  let mask (x : Nat) : Nat := if key = (Reg.txRtpPt c).key then setField x 8 4 0 else x
  if s.txState c ≠ 0 && mask (s.get key) != mask n then .conflict else .ok

/-- The checks of a SET of RX_TIMING: P in range for the rate, and a larger buffer that fits (R171, R172). -/
def scRxTiming (s : State) (c n : Nat) : Status :=
  let p := field n 0 13
  let x := s.rx c
  if s.on (Reg.rxCtrlDomainValid c) && maxP (s.domRate (s.rd (Reg.rxCtrlDomain c))) < p then .outOfRange
  else if 2 ≤ s.rxState c && s.jbFree + x.bytes < jbBytes (s.rd (Reg.rxCtrlChannels c)) p (s.rxS c) then .conflict
  else .ok

/-- A change of P re-times a context that is not OFF at its next capture stage; that stage's count, and with it the buffer's window,
follows the new P at once (R170, R173, R178). -/
def applyRxTiming (s : State) (c old n : Nat) : State :=
  if s.rxState c = 0 || field old 0 13 = field n 0 13 then s
  else
    let x := { s.rx c with retime := true }
    if s.rxState c = 1 then s.setRx c x
    else
      let e := (s.pair (s.rd (Reg.rxCtrlDomain c)) (s.rd (Reg.rxCtrlView c))).e
      s.setRx c { x with
        next := (e : Int) + 1 - field n 0 13, bytes := jbBytes (s.rd (Reg.rxCtrlChannels c)) (field n 0 13) (s.rxS c) }

/-- Source address, destination, VLAN and payload put into one media frame (R164). -/
def State.mediaFrame (s : State) (c p : Nat) (rtp : List Byte) : List Byte :=
  let ip := if p = 0 then s.rd (Reg.txAddrADstIp c) else s.rd (Reg.txAddrBDstIp c)
  let dport := if p = 0 then s.rd (Reg.txAddrADstPort c) else s.rd (Reg.txAddrBDstPort c)
  let sport := if p = 0 then s.rd (Reg.txAddrASrcPort c) else s.rd (Reg.txAddrBSrcPort c)
  let dmac := if p = 0 then s.rd (Reg.txAddrADstMac c) else s.rd (Reg.txAddrBDstMac c)
  let mac := if ip / 2 ^ 28 = 14 then 0x01005E000000 + ip % 2 ^ 23 else dmac
  let tag := if s.on (Reg.txCtrlVlanEn c) then
      natBe 2 0x8100 ++ natBe 2 (s.rd (Reg.txQosPcp c) * 8192 + s.rd (Reg.txQosVid c)) else []
  let h := natBe 1 0x45 ++ natBe 1 (s.rd (Reg.txQosDscp c) * 4) ++ natBe 2 (28 + rtp.length) ++ natBe 2 0 ++ natBe 2 0x4000
    ++ natBe 1 (s.rd (Reg.txQosTtl c)) ++ natBe 1 17 ++ natBe 2 0 ++ natBe 4 (s.rd (Reg.portIpv4Addr p)) ++ natBe 4 ip
  let h := overlay h 10 (natBe 2 (inetCsum h))
  let u := natBe 2 sport ++ natBe 2 dport ++ natBe 2 (8 + rtp.length) ++ natBe 2 0 ++ rtp
  let k := udpSum h u
  natBe 6 mac ++ natBe 6 (s.rd (Reg.portMacMac p)) ++ tag ++ natBe 2 0x0800 ++ h ++ overlay u 6 (natBe 2 (if k = 0 then 65535 else k))

/-- One sample as bytes of a FORMAT (R162). -/
def sampleBytes (fmt x : Nat) : List Byte :=
  let v := sampleVal x
  match fmt with
  | 0 => natBe 2 (v / 65536)
  | 1 => natBe 3 (v / 256)
  | 2 => natBe 4 v
  | _ => natBe 4 (sampleLabel x * 2 ^ 24 + v / 256)

/-- A complete packet is built and one copy queued per port, or looped to the receive side of its port; a port without link
takes none (R164, R195, R446). -/
def State.txPacket (s : State) (c start : Nat) (smp : List (List Nat)) : State :=
  let fmt := s.rd (Reg.txCtrlFormat c)
  let q := s.rd (Reg.txStatusSeqNext c)
  let pay := (smp.flatMap (fun l => l)).flatMap (sampleBytes fmt)
  let rtp := natBe 1 0x80 ++ natBe 1 (s.rd (Reg.txRtpPt c)) ++ natBe 2 q
    ++ natBe 4 (start + s.rd (Reg.txTsOffsetTsOffset c)) ++ natBe 4 (s.rd (Reg.txRtpSsrc c)) ++ pay
  let s := (s.bump (Reg.txTxPkts c) 1).wr (Reg.txStatusSeqNext c) (q + 1)
  let wait := s.txS c * 500000000 / s.domRate (s.rd (Reg.txCtrlDomain c))
  s.units 2 fun s p =>
    if !bit (s.rd (Reg.txCtrlPorts c)) p then s
    else
      let f := s.mediaFrame c p rtp
      if s.rd (Reg.portLoopMode p) = 4 then
        match s.rxFor p (at_ f (ipOff f + 16) 4) (at_ f (ipOff f + 22) 2) (at_ f (ipOff f + 12) 4) with
        | some k => s.rxPacket k p f
        | none => s
      else if !s.linkUp p then s.bump (Reg.txTxNoLink c) 1
      else s.enqueue p 1 [{ bytes := f, media := some (s.rc, wait, c) }] f.length

/-- The CRCC of a channel status block (AES3: x^8 + x^4 + x^3 + x^2 + 1, register all ones; PRESUMED, log entry 9). -/
def csCrc (bits : List Bool) : Nat :=
  bits.foldl (fun r b =>
    let fb := (r / 128 % 2 == 1) != b
    let r := r * 2 % 256
    if fb then r ^^^ 0x1D else r) 0xFF

/-- The sampling-frequency bits of a professional channel status block for a rate, bits 0 to 39 of which bits 6, 7 and
35 to 38 code it (AES3; PRESUMED, log entry 9). -/
def csBit (rate i : Nat) : Bool :=
  let base := if rate = 48000 then 2 else if rate = 44100 then 1 else 0
  let ext := if rate = 96000 then 2 else if rate = 192000 then 3 else if rate = 88200 then 10 else if rate = 176400 then 11 else 0
  if i = 0 then true
  else if i = 6 then bit base 0
  else if i = 7 then bit base 1
  else if 35 ≤ i && i ≤ 38 then bit ext (i - 35)
  else false

/-- The label the device builds for an AM824 sample of value `v` and media count `k`: preamble code, even parity over the 24 bits and
V, U, C, then C (R188, IEC 61883-6; PRESUMED, log entry 9). -/
def builtLabel (rate ch k v : Nat) : Nat :=
  let i := k % 192
  let body := (List.range 184).map (csBit rate)
  let c := if i < 184 then csBit rate i else bit (csCrc body) (7 - (i - 184))
  let pac := if ch % 2 = 1 then 2 else if i = 0 then 3 else 1
  pac * 16 + (popcount 24 (v / 256) + b2n c) % 2 * 8 + b2n c * 4

/-- The label a sink takes with its value: that of an AM824 source (R188). -/
def State.sourceLabel (s : State) (x : Src) : Option Nat :=
  if x.cls = 1 && s.rd (Reg.rxCtrlFormat x.unit) == 3 && x.ch < (s.rx x.unit).vals.length then
    some (sampleLabel ((s.rx x.unit).vals.getD x.ch 0))
  else none

/-- The held sample a transmit channel launches: the sink's value, in AM824 with the label that came with it or the one the device
builds (R188, R192). -/
def State.txSample (s : State) (c ch k : Nat) (silent : Bool) : Nat :=
  let o := c * 64 + ch
  let v := if silent then 0 else Sparse.get (fun _ => 0) s.path.sink o
  let label :=
    if s.rd (Reg.txCtrlFormat c) = 3 then
      (Sparse.get (fun _ => none) s.path.labels o : Option Nat).getD (builtLabel (s.domRate (s.rd (Reg.txCtrlDomain c))) ch k v)
    else 0
  v * 256 + label

/-- One launch of a transmit context: the sample of the tick, stamped with count `k` (R169, R179, R192). -/
def State.txLaunch (s : State) (c k : Nat) : State :=
  let n := s.txS c
  let boundary := k % n == 0
  let st := s.txState c
  let s :=
    if (s.tx c).pkt.isNone && boundary then
      if st = 4 then (if s.rd (Reg.txCtrlStopHold c) = 0 then (s.txGo c 0).setTx c {} else s.txGo c 5)
      else if st = 2 ∨ st = 3 then (s.txGo c 3).setTx c { s.tx c with pkt := some (k, []), begun := true }
      else s
    else if (s.tx c).pkt.isNone && (s.tx c).begun && (st == 3 || st == 4) then s.bump (Reg.txTxSkippedTicks c) 1
    else s
  match (s.tx c).pkt with
  | none => s
  | some (start, l) =>
    let x := s.tx c
    let l := l ++ [(List.range (s.rd (Reg.txCtrlChannels c))).map (fun ch => s.txSample c ch k (x.silent != 0))]
    if l.length < n then s.setTx c { x with pkt := some (start, l) }
    else (s.setTx c { x with pkt := none, silent := x.silent - 1 }).txPacket c start l

/-- The stream part of the launch of a tick of domain `d`, at the edge that gives E(n+1) (R35, R169). -/
def State.streamLaunch (s : State) (d : Nat) : State :=
  s.units 256 fun s c =>
    if 2 ≤ s.txState c && s.txState c ≤ 4 && s.rd (Reg.txCtrlDomain c) == d then
      s.txLaunch c (s.pair d (s.rd (Reg.txCtrlView c))).e
    else s

end Sys2Proof.Machine
end

