-- ==== Sys2Proof/Machine/Asrc.lean ====
section
/-! DEFINITION. The converters: their sides and edges, the tracker's states, delay and ratio, and what they present (R228 to
R240). The spec gives the tracker's bandwidth and the filter's figures, and neither the loop nor the taps: those are free functions of
Config; how a measurement is cut into blocks is the model's (log entry 17). -/

namespace Sys2Proof.Machine

/-- Converter `c` beside its entries. -/
def State.conv (s : State) (c : Nat) : Asrc := Sparse.get (fun _ => {}) s.asrc c

/-- The state with a converter replaced. -/
def State.setConv (s : State) (c : Nat) (x : Asrc) : State := { s with asrc := Sparse.put (fun _ => {}) s.asrc c x }

/-- STATE of a converter. -/
def State.convState (s : State) (c : Nat) : Nat := s.rd (Reg.asrcStatusState c)

/-- A converter's STATE changes; changes between SETTLE and LOCKED are posted at most once per 100 ms (R240). -/
def State.convGo (s : State) (c new : Nat) : State :=
  let old := s.convState c
  if old = new then s
  else
    let s := s.wr (Reg.asrcStatusState c) new
    let x := s.conv c
    let flip := (old == 2 || old == 3) && (new == 2 || new == 3)
    if flip && x.hold.active then s.setConv c { x with hold := { x.hold with count := x.hold.count + 1, info := old } }
    else
      let s := if flip then s.setConv c { x with hold := { active := true } }
        else s.setConv c { x with hold := { x.hold with count := 0 } }
      s.post 0x6001 4 [pack [(0, c), (8, new), (12, old), (16, s.rd (Reg.asrcStatusCause c))]]

/-- Entry to ACQUIRE for a cause: the FIFO is cleared and measurement starts (R233, R239). -/
def State.convAcquire (s : State) (c cause : Nat) : State :=
  let s := ((s.wr (Reg.asrcStatusCause c) cause).wr (Reg.asrcStatusNarrow c) 0).wr (Reg.asrcDelayD c) 0
  let s := (s.bump (Reg.asrcAcquires c) 1).bumpIf (cause == 4) (Reg.asrcResyncs c)
  (s.setConv c { hold := (s.conv c).hold, steps := (s.conv c).steps, settled := 4 * s.rc }).convGo c 1

/-- ENABLE 0: OFF, the FIFO cleared (R233). -/
def State.convOff (s : State) (c : Nat) : State :=
  let s := ((s.wr (Reg.asrcStatusNarrow c) 0).wr (Reg.asrcDelayD c) 0).put (Reg.asrcRatioRatio c).key 0
  (s.setConv c { hold := (s.conv c).hold }).convGo c 0

/-- The nominal rate of a converter's side (R229, R232). -/
def State.convRate (s : State) (c : Nat) (out : Bool) : Nat :=
  let side (kind dom port : Fld) : Nat :=
    if s.on kind then rateHz (s.rd (Reg.tdmPortCfgAsyncRate (s.rd port))) else s.domRate (s.rd dom)
  if out then side (Reg.asrcCfgOutKind c) (Reg.asrcCfgOutDomain c) (Reg.asrcCfgOutPort c)
  else side (Reg.asrcCfgInKind c) (Reg.asrcCfgInDomain c) (Reg.asrcCfgInPort c)

/-- A measured ratio, in units of 2^-60, lies within 1/8 to 8 (R233). -/
def ratioOk (r : Nat) : Bool := 2 ^ 57 ≤ r && r ≤ 2 ^ 63

/-- ASRC_RATIO holds a measured ratio and its deviation from that of the nominal rates (R232). -/
def State.putRatio (s : State) (c r : Nat) : State :=
  let a := s.convRate c false
  let b := s.convRate c true
  let dev : Int := (nearest (r * b * 10000000000, 2 ^ 60 * a) : Nat) - 10000000000
  (s.wr (Reg.asrcRatioRatio c) (min (nearest (r, 2 ^ 32)) 0xFFFFFFFF)).wr (Reg.asrcRatioDev c) (sat32 dev)

/-- An edge of a side at instant `t`: the edges before it count as of the grid that a step of the Hearth has moved it to (R232, R237). -/
def Meter.edge (m : Meter) (t : Int) : Meter :=
  if m.n = 0 then { n := 1, first := t, last := t } else { n := m.n + 1, first := m.first - m.share, last := t }

/-- A measurement that begins afresh with the last edge. -/
def Meter.again (m : Meter) : Meter := { m with n := 1, first := m.last }

/-- The time over the edges a side has had. -/
def Meter.span (m : Meter) : Nat := (m.last - m.first).toNat

/-- 256 edges of the slower side have been measured (R233). -/
def Asrc.measured (x : Asrc) : Bool := 256 ≤ x.inSide.n && 256 ≤ x.outSide.n

/-- The measured ratio, the input edge rate divided by the output edge rate, in units of 2^-60 (R232). -/
def Asrc.ratio (x : Asrc) : Nat :=
  (x.inSide.n - 1) * x.outSide.span * 2 ^ 60 / ((x.outSide.n - 1) * x.inSide.span)

/-- The output period as measured, in units of 2^-16 quarter count. -/
def Asrc.outPeriod (x : Asrc) : Nat := x.outSide.span / (x.outSide.n - 1)

/-- The converter's measurement begins afresh, with an output period. -/
def Asrc.renew (x : Asrc) (period : Nat) : Asrc :=
  { x with inSide := x.inSide.again, outSide := x.outSide.again, period := period }

/-- A measurement that is complete in SETTLE or LOCKED gives the ratio; one out of range goes back to ACQUIRE (R232, R233). In ACQUIRE
ASRC_ACQUIRE_DONE judges it. -/
def State.convTrack (s : State) (c : Nat) : State :=
  let x := s.conv c
  if s.convState c < 2 || !x.measured then s
  else
    let s := (s.putRatio c x.ratio).setConv c (x.renew x.outPeriod)
    if ratioOk x.ratio then s else s.convAcquire c 3

/-- The steps of the Hearth that fall at this edge of a side of kind 0 are counted (R237). -/
def State.convSteps (s : State) (c : Nat) (kind : Fld) : State :=
  if s.on kind then s
  else (s.bump (Reg.asrcSteps c) (s.conv c).steps).setConv c { s.conv c with steps := 0 }

/-- An edge of the input side at `q` quarter counts (R232). -/
def State.convInEdge (s : State) (c q : Nat) : State :=
  if s.convState c = 0 then s
  else
    let s := s.convSteps c (Reg.asrcCfgInKind c)
    State.convTrack (s.setConv c { s.conv c with inSide := (s.conv c).inSide.edge (q * 65536) }) c

/-- The loop's bandwidth in mHz (R233). -/
def State.convBw (s : State) (c : Nat) : Nat :=
  let t := s.rd (Reg.asrcTrackTrackBw c)
  if s.on (Reg.asrcStatusNarrow c) then t else min (10 * t) 50000

/-- The read position moves on to the output edge at `q`, a period and the loop's correction on; the delay error follows from it, and
with it the state. While LOCKED the position is kept where the delay realised lies within 0.01 output period of D (R233, R235; DEDUCED,
log entry 17). -/
def State.convMove (s : State) (c q : Nat) : State :=
  let x := s.conv c
  let pos := x.pos + x.period + Config.asrcPull (s.convBw c) x.err
  let err := (q * 65536 : Nat) - pos - x.delay
  let calm := if s.on (Reg.asrcStatusNarrow c) && decide (100 * err.natAbs < x.period) then some (x.calm.getD q) else none
  let t := s.setConv c { x with pos := pos, err := err, calm := calm }
  if 2 * x.period < err.natAbs then t.convAcquire c 4
  else if s.convState c != 3 then t
  else if x.period < 20 * err.natAbs then t.convGo c 2
  else
    let kept := clampInt (-(x.period / 100 : Nat)) (x.period / 100 : Nat) err
    s.setConv c { x with pos := pos + (err - kept), err := kept, calm := calm }

/-- An edge of the output side at `q` quarter counts; a step's share moves the read position with it (R232, R237). -/
def State.convOutEdge (s : State) (c q : Nat) : State :=
  if s.convState c = 0 then s
  else
    let s := s.convSteps c (Reg.asrcCfgOutKind c)
    let x := s.conv c
    let s := s.setConv c { x with outSide := x.outSide.edge (q * 65536), pos := x.pos - x.outSide.share }
    let s := s.convTrack c
    if s.convState c < 2 then s else s.convMove c q

/-- The most input samples a converter holds: at a ratio of 8 the 67 output periods ahead of the read position that D and its error can
need, and as many behind it, for a filter that reaches as far back as ahead (DESIGN CHOICE, log entry 17). -/
def asrcDepth : Nat := 1072

/-- Eight samples are presented to a converter at `q` quarter counts (R229, R235). -/
def State.convInput (s : State) (c q : Nat) (smp : List Nat) : State :=
  if s.convState c = 0 then s
  else s.setConv c { s.conv c with fifo := ((((q * 65536 : Nat) : Int), smp) :: (s.conv c).fifo).take asrcDepth }

/-- Channel `ch` of the input resampled at the read position, truncated and saturated: the nearest earlier sample, and the weighted
differences of the others from it (R234; the filter's gain at DC is 1 by its passband, R236). -/
def Asrc.sample (x : Asrc) (ratio ch : Nat) : Nat :=
  let v (p : Int × List Nat) : Int := sext 32 (p.2.getD ch 0)
  let c := ((x.fifo.find? (fun p => p.1 ≤ x.pos)).map v).getD 0
  sat32 (c + (x.fifo.map (fun p => Config.asrcTap ratio (x.pos - p.1) * (v p - c))).sum / 2147483648)

/-- The eight output samples at the read position are computed (R234). -/
def State.convSample (s : State) (c : Nat) : State :=
  if s.convState c < 2 then s
  else s.setConv c { s.conv c with out := (List.range 8).map ((s.conv c).sample (s.rd (Reg.asrcRatioRatio c))) }

/-- An edge of a converter's output side: its eight output samples are new ones, or the previous ones where they are late (R234,
R238). -/
def State.convOutput (s : State) (c q : Nat) (late : Bool) : State :=
  let s := s.convOutEdge c q
  if late then s else s.convSample c

/-- What output channel `ch` presents (R234). -/
def State.convPresent (s : State) (c ch : Nat) : Nat := if s.convState c < 2 then 0 else (s.conv c).out.getD ch 0

/-- The delay D that a converter sets: 64 output periods and the phase between its sides' last edges (R235). -/
def Asrc.newDelay (x : Asrc) : Int := 64 * x.outPeriod + (x.outSide.last - x.inSide.last) % x.outPeriod

/-- ASRC_ACQUIRE_DONE: 256 edges of the slower side have been measured; the converter sets D and its read position and enters SETTLE,
or acquires again out of range (R233, R235). It computes ratio and phase from the edges of its sides; the figures that come with the
row are not looked at (log entry 5). -/
def execAsrcAcquireDone (c _ratio _phi : Nat) (s : State) : Done :=
  .next (let x := s.conv c
    if s.convState c = 1 && x.measured then
      let s := s.putRatio c x.ratio
      if !ratioOk x.ratio then s.convAcquire c 3
      else
        let d := x.newDelay
        let s := s.setConv c { x.renew x.outPeriod with
          delay := d, pos := x.outSide.last - d, err := 0, calm := none, settled := 4 * s.rc }
        ((s.wr (Reg.asrcDelayD c) (nearest (d.toNat, 131072))).wr (Reg.asrcStatusNarrow c) 0).convGo c 2
    else s)

/-- ASRC_NARROW: RC has reached 20 / ACQ_BW seconds in SETTLE; the loop narrows to TRACK_BW (R233). -/
def execAsrcNarrow (c : Nat) (s : State) : Done :=
  .next (if s.convState c = 2 && !s.on (Reg.asrcStatusNarrow c) then
      let due := (s.conv c).settled + 40000000000000 / s.convBw c
      let s := s.advance ((due + 3) / 4)
      if due ≤ 4 * s.rc then s.wr (Reg.asrcStatusNarrow c) 1 else s
    else s)

/-- ASRC_LOCK: RC has reached the instant up to which the delay error has stayed below 0.01 output period for 4 / TRACK_BW seconds, at
TRACK_BW (R233). -/
def execAsrcLock (c : Nat) (s : State) : Done :=
  .next (match s.convState c, (s.conv c).calm with
    | 2, some t =>
      let due := t + 8000000000000 / s.convBw c
      let s := s.advance ((due + 3) / 4)
      if due ≤ 4 * s.rc then s.convGo c 3 else s
    | _, _ => s)

/-- The point of quarter counts at which a side of a converter has had no edge for 4 nominal periods: since its last edge, or with none
since ACQUIRE was entered (R233). -/
def State.convSilentAt (s : State) (c : Nat) (out : Bool) : Nat :=
  let m := if out then (s.conv c).outSide else (s.conv c).inSide
  (if m.n = 0 then (s.conv c).settled else m.last.toNat / 65536) + ceilDiv 8000000000 (s.convRate c out)

/-- ASRC_EDGE_TIMEOUT: RC has reached the instant at which the input or output side has had no edge for 4 nominal periods (R233). -/
def execAsrcEdgeTimeout (c : Nat) (out : Bool) (s : State) : Done :=
  .next (if s.convState c = 0 then s
    else
      let due := s.convSilentAt c out
      let s := s.advance ((due + 3) / 4)
      if due ≤ 4 * s.rc then s.convAcquire c (if out then 2 else 1) else s)

/-- ASRC_EVENT_WINDOW_END: the 100 ms limit ends and the latest state is posted, if it changed (R240, R475). -/
def execAsrcEventWindowEnd (c : Nat) (s : State) : Done :=
  .next (let h := (s.conv c).hold
    let r := h.lapse
    let s := s.setConv c { s.conv c with hold := r.1 }
    if r.2 = 0 then s
    else s.post 0x6001 4 [pack [(0, c), (8, s.convState c), (12, h.info), (16, s.rd (Reg.asrcStatusCause c))]])

/-- The converters with a side of kind 0 in domain `d` take a tick edge of it at `q`, with their output samples of the tick, those of
`late` excepted (R229, R232, R238). -/
def State.convEdges (s : State) (d q : Nat) (late : List Nat) : State :=
  s.units 64 fun s c =>
    let s := if s.domainOf (.asrcIn c) = some d then s.convInEdge c q else s
    if s.domainOf (.asrcOut c) = some d then s.convOutput c q (late.contains c) else s

/-- The converters whose input side of kind 0 is in domain `d` take what their input sinks hold, at the tick's edge `q` (R229, R235). -/
def State.convInputs (s : State) (d q : Nat) : State :=
  s.units 64 fun s c =>
    if s.domainOf (.asrcIn c) = some d then
      s.convInput c q ((List.range 8).map fun ch => Sparse.get (fun _ => 0) s.path.sink (0x40000 + c * 8 + ch))
    else s

/-- The range checks of ASRC_CFG that follow from the value alone (R229). -/
def vcAsrcCfg (n : Nat) : Bool :=
  !(bit n 1 && bit n 4) && !(!bit n 1 && !bit n 4 && bit n 31 && field n 2 2 == field n 5 2)

/-- Another enabled converter drives a transmit slot that CTRL value `n` of converter `c` would drive (R230). -/
def State.slotTaken (s : State) (c n : Nat) : Bool :=
  bit n 4 && (List.range 64).any fun k =>
    k != c && s.on (Reg.asrcCfgEnable k) && s.on (Reg.asrcCfgOutKind k) && s.rd (Reg.asrcCfgOutPort k) == field n 19 6
      && s.rd (Reg.asrcCfgOutLane k) == field n 25 1 && s.rd (Reg.asrcCfgOutSlot k) < field n 26 5 + 8
      && field n 26 5 < s.rd (Reg.asrcCfgOutSlot k) + 8

/-- The state checks of a SET of ASRC_CFG (R9, R24, R229, R230, R231). -/
def scAsrcCfg (s : State) (c n : Nat) : Status :=
  let inP := field n 7 6
  let outP := field n 19 6
  let old := s.get (Reg.asrcCfgEnable c).key
  let dom (kind d : Nat) : Option Nat := domIf (bit n 31 && !bit n kind) (field n d 2)
  if (bit n 1 && s.fuse.tdmPorts ≤ inP && inP < 48) || (bit n 4 && s.fuse.tdmPorts ≤ outP && outP < 48) then .absent
  else if (bit n 1 && !s.on (Reg.tdmPortCfgAsync inP)) || (bit n 4 && !s.on (Reg.tdmPortCfgAsync outP)) then .conflict
  else if bit n 0 && !bit n 31 then .conflict
  else if bit old 0 && setField old 0 1 0 != setField n 0 1 0 then .conflict
  else if s.moveBlocked (.asrcIn c) (dom 1 2) || s.moveBlocked (.asrcOut c) (dom 4 5) then .conflict
  else if bit n 0 && !bit old 0 && s.slotTaken c n then .conflict
  else .ok

/-- A SET of ASRC_CFG acts: a start or a stop (R233). -/
def applyAsrcCfg (s : State) (c : Nat) : State :=
  if s.on (Reg.asrcCfgEnable c) then (if s.convState c = 0 then s.convAcquire c 0 else s) else s.convOff c

end Sys2Proof.Machine
end

