-- ==== Sys2Proof/Machine/Cellar.lean ====
section
/-! DEFINITION. The Cellar: its regions and pages, delay lines, the recorder, and the LPDDR4X interface (R347 to R360). -/

namespace Sys2Proof.Machine

/-- Pages of `n` bytes: of 1 KiB in the SRAM, of 64 KiB in LPDDR4X (R347). -/
def pagesOf (ddr : Bool) (n : Nat) : Nat := if ddr then (n + 65535) / 65536 else (n + 1023) / 1024

/-- Bytes of one snapshot buffer: 45,120 link words (R335, R349). -/
def snapBytes : Nat := 180480

/-- What the Supervisor keeps of room `r`. -/
def State.guarded (s : State) (r : Nat) : Guarded := Sparse.get (fun _ => {}) s.guard.rooms r

/-- The state with that replaced. -/
def State.setGuarded (s : State) (r : Nat) (x : Guarded) : State :=
  { s with guard := { s.guard with rooms := Sparse.put (fun _ => {}) s.guard.rooms r x } }

/-- Pages held by snapshot buffers in one memory. -/
def State.snapUsed (s : State) (ddr : Bool) : Nat :=
  (s.guard.rooms.map (fun p => (p.2.bufs.filter (· == ddr)).length)).sum * pagesOf ddr snapBytes

/-- Bytes of a delay line's store (R351). -/
def State.lineBytes (s : State) (n : Nat) : Nat := 4 * s.rd (Reg.dlyCfgMaxdelay n)

/-- Pages held by delay lines in one memory. -/
def State.dlyUsed (s : State) (ddr : Bool) : Nat :=
  ((s.lines.filter (fun n => s.on (Reg.dlyCfgMem n) == ddr)).map (fun n => pagesOf ddr (s.lineBytes n))).sum

/-- Bytes of a recording of `len` ticks of `ch` channels (R355). -/
def recBytes (len ch : Nat) : Nat := len * ch * 4

/-- Pages held by the recorder in one memory: those it took at its change to MODE 1, until MODE 0 (R355). -/
def State.recUsed (s : State) (ddr : Bool) : Nat :=
  if s.cellar.recPages && s.on Reg.recCfgMem == ddr then
    pagesOf ddr (recBytes (s.rd Reg.recCfgLength) (s.rd Reg.recCfgChannels)) else 0

/-- The recording region in 64 KiB units: what the other three leave of 256 (R347). -/
def State.recUnits (s : State) : Nat := 256 - s.rd Reg.cellarPartJb - s.rd Reg.cellarPartSnap - s.rd Reg.cellarPartDly

/-- Free KiB of the snapshot region. -/
def State.snapFree (s : State) : Nat := s.rd Reg.cellarPartSnap * 64 - s.snapUsed false

/-- Free KiB of the delay line region. -/
def State.dlyFree (s : State) : Nat := s.rd Reg.cellarPartDly * 64 - s.dlyUsed false

/-- Free KiB of the recording region. -/
def State.recFree (s : State) : Nat := s.recUnits * 64 - s.recUsed false

/-- LPDDR4X is READY (R358). -/
def State.ddrReady (s : State) : Bool := s.rd Reg.ddrStatusState == 2

/-- LPDDR4X pages that snapshots and delay lines leave; none are counted while the array is not READY (DDR_STATUS) or under test
(R451). -/
def State.ddrRest (s : State) : Nat :=
  if s.ddrReady && !s.ddrTest then 16384 * 2 ^ s.rd Reg.ddrCfgSize - s.snapUsed true - s.dlyUsed true else 0

/-- Free LPDDR4X pages. -/
def State.ddrFree (s : State) : Nat := s.ddrRest - s.recUsed true

/-- Pages that a recording may take: what it holds now it gives back (R355). -/
def State.recRoom (s : State) (ddr : Bool) : Nat := if ddr then s.ddrRest else s.recUnits * 64

/-- Free pages of the region or array a buffer would come from. -/
def State.freeOf (s : State) (ddr : Bool) (region : Nat) : Nat := if ddr then s.ddrFree else region

/-- CELLAR_FREE (R347). -/
def State.cellarFree (s : State) : Nat := pack [(0, s.snapFree), (16, s.dlyFree), (32, s.recFree)]

/-- DDR_STATUS with its free pages. -/
def State.ddrStatus (s : State) : Nat := setField (s.get Reg.ddrStatusState.key) 16 17 s.ddrFree

/-- CELLAR_PART: the three sizes within 256 (R348). -/
def vcCellarPart (n : Nat) : Bool := field n 0 9 + field n 9 9 + field n 18 9 ≤ 256

/-- State checks of CELLAR_PART: no region below its pages, SNAP_DDR only while READY (R348, CELLAR_PART). -/
def scCellarPart (s : State) (n : Nat) : Status :=
  let jb := ((s.stream.rx.map (fun p => p.2.bytes)).sum + 1023) / 1024
  let rest := 256 - field n 0 9 - field n 9 9 - field n 18 9
  if bit n 27 && s.fuse.grade != .f then .absent
  else if field n 0 9 * 64 < jb || field n 9 9 * 64 < s.snapUsed false || field n 18 9 * 64 < s.dlyUsed false
      || rest * 64 < s.recUsed false || (bit n 27 && !s.ddrReady) then .conflict
  else .ok

/-- The units an enabled line counts: those of its sink's domain (R351). -/
def State.lineUnits (s : State) (o : Nat) : Nat :=
  match s.domainOf (sinkOwner o) with
  | some d => rateMult (s.domRate d)
  | none => 1

/-- The units of all enabled lines, domain `d` taken at `rate` where it is given (R351). -/
def State.allUnits (s : State) (at_ : Option (Nat × Nat)) : Nat :=
  (s.lines.map (fun n =>
    match at_, s.domainOf (sinkOwner (s.lineSink n)) with
    | some (d, rate), some k => if k = d then rateMult rate else s.lineUnits (s.lineSink n)
    | _, _ => s.lineUnits (s.lineSink n))).sum

/-- DLY_CFG: a SET of ENABLE to 1 names a sink that exists (R352). -/
def vcDlyCfg (n : Nat) : Bool :=
  !bit n 0 || (0x700000 ≤ field n 8 24 && sinkExists (field n 8 24 - 0x700000))

/-- State checks of DLY_CFG (R352). -/
def scDlyCfg (s : State) (k n : Nat) : Status :=
  let old := s.get (Reg.dlyCfgEnable k).key
  let o := field n 8 24 - 0x700000
  let ddr := bit n 1
  if ddr && s.fuse.grade != .f then .absent
  else if bit old 0 then (if old / 2 = n / 2 then .ok else .conflict)
  else if !bit n 0 then .ok
  else if s.lines.any (fun m => m != k && s.lineSink m == o) || (s.domainOf (sinkOwner o)).isNone || (ddr && !s.ddrReady)
      || s.freeOf ddr s.dlyFree < pagesOf ddr (4 * field n 32 21) || 1024 < s.allUnits none + s.lineUnits o then .conflict
  else .ok

/-- DLY_CFG is stored: a line enabled anew has nothing written; a line disabled holds nothing (R350, R352). -/
def applyDlyCfg (s : State) (k old : Nat) : State :=
  if bit old 0 && s.on (Reg.dlyCfgEnable k) then s
  else { s with cellar := { s.cellar with lines := Sparse.put (fun _ => []) s.cellar.lines k [] } }

/-- DLY_TIME: DELAY no more than MAXDELAY (R353). -/
def vcDlyTime (s : State) (k n : Nat) : Bool := field n 0 21 ≤ s.rd (Reg.dlyCfgMaxdelay k)

/-- The enabled line of a sink (R350). -/
def State.lineOf (s : State) (o : Nat) : Option Nat := s.lines.find? (fun n => s.lineSink n == o)

/-- A line stores a value with its label and gives what was stored DELAY ticks earlier (R188, R350, R353). -/
def State.delay (s : State) (k : Nat) (v : Nat × Option Nat) : (Nat × Option Nat) × State :=
  let l := Sparse.get (fun _ => []) s.cellar.lines k
  (l.getD (s.rd (Reg.dlyTimeDelay k) - 1) (0, none),
    { s with cellar := { s.cellar with
        lines := Sparse.put (fun _ => []) s.cellar.lines k ((v :: l).take (s.rd (Reg.dlyCfgMaxdelay k))) } })

/-! The recorder. -/

/-- REC_CFG: MODE 3 is out of range. -/
def vcRecCfg (n : Nat) : Bool := field n 0 2 != 3

/-- Whether every recorded source belongs to domain `d`; 0 records zero (R355). -/
def State.recSources (s : State) (d ch : Nat) : Bool :=
  (List.range ch).all fun c =>
    match decodeSrc (s.rd (Reg.recSrcSource c)) with
    | some x => match x.owner with | none => true | some u => s.domainOf u == some d
    | none => false

/-- State checks of REC_CFG (R355). -/
def scRecCfg (s : State) (n : Nat) : Status :=
  let old := s.get Reg.recCfgMode.key
  let ddr := bit n 2
  if ddr && s.fuse.grade != .f then .absent
  else if field old 0 2 != 0 && old / 4 != n / 4 then .conflict
  else if field n 0 2 = 1 && field old 0 2 != 1
      && (s.recRoom ddr < pagesOf ddr (recBytes (field n 16 24) (field n 6 7)) || !s.recSources (field n 4 2) (field n 6 7)
        || (ddr && !s.ddrReady)) then .conflict
  else .ok

/-- REC_SRC: a well-formed source code (R21). -/
def vcRecSrc (n : Nat) : Bool := (decodeSrc n).isSome

/-- State checks of REC_SRC (R9, R355). -/
def scRecSrc (s : State) (n : Nat) : Status :=
  match (decodeSrc n).bind Src.owner with
  | some u => if !s.fuse.hasOwner u then .absent else if s.rd Reg.recCfgMode != 0 then .conflict else .ok
  | none => if s.rd Reg.recCfgMode != 0 then .conflict else .ok

/-- HELD and REC_FIRST follow what the recorder holds (R357). -/
def State.recNote (s : State) : State :=
  let s := s.wr Reg.recStatusHeld s.cellar.taken.length
  s.put Reg.recFirstTick.key (match s.cellar.taken.getLast? with | some x => x.1 | none => 0)

/-- REC_CFG is stored: a change of MODE arms, holds or ends the recording, and what it has not done of the tick in progress is dropped:
it records from the next tick on (R355, R356). MODE 2 from OFF holds nothing (DEDUCED, log entry 21). -/
def applyRecCfg (s : State) (old : Nat) : State :=
  let m := s.rd Reg.recCfgMode
  if m = field old 0 2 then s
  else
  let s := s.units 4 fun s d => s.setTick d { s.tick d with recorder := none }
  if m = 2 then (s.wr Reg.recStatusState 3).recNote
  else State.recNote { s.wr Reg.recStatusState m with cellar := { s.cellar with taken := [], recPages := m == 1 } }

/-- Tick `n` of the recorder's domain reaches it in stage 4, with the channels' values, or `none` where that work is late
(R355, R356). The values of a first tick that is late are free (log entry 3). -/
def State.recTick (s : State) (n : Nat) (vals : Option (List Nat)) : State :=
  let start := s.rd Reg.recStartStartTick
  let s := if s.rd Reg.recStatusState = 1 && (start = 0 || start ≤ n) then s.wr Reg.recStatusState 2 else s
  if s.rd Reg.recStatusState != 2 then s
  else
    let len := s.rd Reg.recCfgLength
    let ring := s.on Reg.recCfgRing
    if !ring && len ≤ s.cellar.taken.length then s.wr Reg.recStatusState 3
    else
      let v : List Nat × State :=
        match vals, s.cellar.taken with
        | some v, _ => (v, s)
        | none, t :: _ => (t.2, s)
        | none, [] => let f := s.draw; (List.replicate (s.rd Reg.recCfgChannels) (f.1 % 2 ^ 32), f.2)
      let s := v.2
      State.recNote { s with cellar := { s.cellar with taken := ((n, v.1) :: s.cellar.taken).take len } }

/-- REC_DATA: COUNT ticks from OFFSET after the oldest held; ticks beyond are 0 (R357). -/
def State.recData (s : State) : List Byte :=
  let l := s.cellar.taken.reverse
  let ch := s.rd Reg.recCfgChannels
  (List.range (s.rd Reg.recReadAddrCount)).flatMap fun i =>
    let t := match l[s.rd Reg.recReadAddrOffset + i]? with | some x => x.2 | none => []
    (List.range ch).flatMap (fun c => natBe 4 (t.getD c 0))

/-- REC_DONE: LENGTH ticks are recorded without RING; the recorder reaches DONE (R356). -/
def execRecDone (s : State) : Done :=
  .next (if s.rd Reg.recStatusState = 2 && !s.on Reg.recCfgRing && s.rd Reg.recCfgLength ≤ s.cellar.taken.length then
    s.wr Reg.recStatusState 3 else s)

/-! LPDDR4X. -/

/-- The interface takes a STATE; each change posts event 0xC001 (R360). -/
def State.ddrGo (s : State) (new step : Nat) : State :=
  if s.rd Reg.ddrStatusState = new then s
  else ((s.wr Reg.ddrStatusState new).wr Reg.ddrStatusFailStep step).post 0xC001 5 [pack [(0, new), (2, step)]]

/-- State checks of DDR_CFG (R359). -/
def scDdrCfg (s : State) (n : Nat) : Status :=
  let old := s.get Reg.ddrCfgEnable.key
  if bit old 0 && old / 2 != n / 2 then .conflict
  else if bit old 0 && !bit n 0 && s.snapUsed true + s.dlyUsed true + s.recUsed true != 0 then .conflict
  else .ok

/-- DDR_CFG is stored: ENABLE 1 trains from OFF or FAILED, ENABLE 0 turns the interface off (R358, R359). -/
def applyDdrCfg (s : State) : State :=
  if s.on Reg.ddrCfgEnable then
    (if s.rd Reg.ddrStatusState = 0 || s.rd Reg.ddrStatusState = 3 then s.ddrGo 1 0 else s)
  else State.ddrGo { s with cellar := { s.cellar with mr4 := 0 } } 0 0

/-- DDR_TRAINING_DONE: training ends; `step` 0 where every step passed, else the step that failed (R358). -/
def execDdrTrainingDone (step : Nat) (s : State) : Done :=
  .next (if s.rd Reg.ddrStatusState = 1 then (if step % 8 = 0 then s.ddrGo 2 0 else s.ddrGo 3 (step % 8)) else s)

/-- DDR_MR4_POLL: the interface reads MR4 and takes the refresh rate it asks for (R359). -/
def execDdrMr4Poll (mr4 : Nat) (s : State) : Done :=
  .next (if s.ddrReady then { s with cellar := { s.cellar with mr4 := mr4 } } else s)

end Sys2Proof.Machine
end

