-- ==== Sys2Proof/Machine/Deadline.lean ====
section
/-! DEFINITION. Misses and deadline events (R33, R36, R39, R475). -/

namespace Sys2Proof.Machine

/-- The deadline hold-off of a domain and cause. -/
def State.dlHold (s : State) (d cause : Nat) : Hold := Sparse.get (fun _ => {}) s.path.holds (d * 4 + cause)

/-- The state with it replaced. -/
def State.setDlHold (s : State) (d cause : Nat) (h : Hold) : State :=
  { s with path := { s.path with holds := Sparse.put (fun _ => {}) s.path.holds (d * 4 + cause) h } }

/-- Event 0x7001 (R39): domain, cause, room, misses reported, tick of the latest. -/
def State.dlPost (s : State) (d cause room count tick : Nat) : State :=
  s.post 0x7001 6 [pack [(0, d), (4, cause), (8, room), (16, sat16 count)], tick / 2 ^ 32, tick % 2 ^ 32]

/-- The hold-off of a cause in domain `d` ends where its DL_HOLDOFF ticks have gone: opened in tick m it holds ticks m + 1 to m + L, and
tick m + L + 1 takes the place of its end (R39, R475). -/
def State.dlLapse (s : State) (d cause : Nat) : State :=
  let h := s.dlHold d cause
  let ends : Int := h.since + s.rd (Reg.dlHoldoff d) + 1
  if !h.active || (s.rd (Reg.tickCount d) : Int) < ends then s
  else
    let r := h.lapse
    if r.2 = 0 then s.setDlHold d cause {}
    else (s.setDlHold d cause { r.1 with since := ends - 1 }).dlPost d cause h.info r.2 h.at_

/-- The hold-offs of domain `d` count on when its TICK_COUNT restarts (R39, R40). -/
def State.dlRestart (s : State) (d : Nat) : State :=
  s.units 3 fun s c =>
    let h := s.dlHold d c
    if h.active then s.setDlHold d c { h with since := h.since - s.rd (Reg.tickCount d) - 1 } else s

/-- A miss in domain `d`: cause 0 tick work late, 1 a room output read unwritten, 2 a room block skipped. It counts in DL_MISS
or ROOM_LATE, and is posted or held off; an event that reports several misses carries the room of the latest (R33, R36, R39; the last
DESIGN CHOICE, log entry 49). -/
def State.dlMiss (s : State) (d cause room : Nat) : State :=
  let n := s.rd (Reg.tickCount d)
  let s := if cause = 0 then (s.bump (Reg.dlMiss d) 1).wr (Reg.dlLast d) n else s.bump (Reg.roomLate d) 1
  let s := (s.dlLapse d cause).dlLapse d cause
  let r := (s.dlHold d cause).hit
  let since : Int := if r.2 then (n : Int) else r.1.since
  let s := s.setDlHold d cause { r.1 with info := room, at_ := n, since := since }
  if r.2 then s.dlPost d cause room 1 n else s

/-- DL_HOLDOFF_END: the hold-off of a cause in a domain ends (R39, R475). -/
def execDlHoldoffEnd (d cause : Nat) (s : State) : Done := .next (s.dlLapse d cause)

end Sys2Proof.Machine
end

