-- ==== Sys2Proof/Machine/RoomIsa.lean ====
section
/-! DEFINITION. The rooms' instruction words: formats, fields, what makes an encoding illegal, and the arithmetic on the 72-bit
accumulators (R267 to R271, R301 to R318). -/

namespace Sys2Proof.Machine

/-- A move of an instruction (R305, R308): kind 1 load, 2 store, 3 transfer; space Y or X; register by E code; source register of
a transfer; absolute address, or pointer and mode. -/
structure RoomMove where
  kind : Nat
  y : Bool
  reg : Nat
  src : Nat := 0
  abs : Option Nat := none
  ptr : Nat := 0
  mode : Nat := 0
deriving DecidableEq, Repr

/-- The arithmetic field (R304); OP 0: none. -/
structure RoomArith where
  op : Nat := 0
  sat : Bool := false
  d : Nat := 0
  a : Nat := 0
  b : Nat := 0
  dbl : Bool := false
  k : Nat := 0
deriving DecidableEq, Repr

/-- The instructions (R301, R305 to R311). -/
inductive RoomInstr where
  | nop
  | bra (cond target : Nat)
  | call (cond target : Nat)
  | ret (cond : Nat)
  | rti
  | dbnz (n target : Nat)
  | repImm (body count : Nat)
  | repReg (body src : Nat)
  | endBlock
  | swi
  | data (ar : RoomArith) (moves : List RoomMove) (long : Bool)
  | ldi (reg imm : Nat)
  | move (dst src : Nat)
deriving DecidableEq, Repr

/-- The operations that have a row of their own: control instructions, moves without arithmetic, arithmetic by OP, and an
illegal instruction. -/
inductive RoomOp where
  | nop | bra | call | ret | rti | dbnz | rep | endBlock | swi | par | long | ldi | move | ar (op : Nat) | illegal
deriving DecidableEq, Repr

/-- The row an instruction belongs to. -/
def RoomInstr.op : RoomInstr → RoomOp
  | .nop => .nop | .bra _ _ => .bra | .call _ _ => .call | .ret _ => .ret | .rti => .rti | .dbnz _ _ => .dbnz
  | .repImm _ _ => .rep | .repReg _ _ => .rep | .endBlock => .endBlock | .swi => .swi
  | .data a _ l => if a.op = 0 then (if l then .long else .par) else .ar a.op
  | .ldi _ _ => .ldi | .move _ _ => .move

/-- A branch, call, return or RTI, which has delay slots (R276, R311). -/
def RoomInstr.branches : RoomInstr → Bool
  | .bra _ _ => true | .call _ _ => true | .ret _ => true | .rti => true | .dbnz _ _ => true
  | _ => false

/-- A REP. -/
def RoomInstr.isRep : RoomInstr → Bool
  | .repImm _ _ => true | .repReg _ _ => true
  | _ => false

/-- An E code that names a register (R302). -/
def eCodeOk (c : Nat) : Bool := c < 0x38

/-- A source of REP's count (R311). -/
def repSrcOk (c : Nat) : Bool := c < 8 || (0x10 ≤ c && c < 0x20)

/-- What the operations of R314 allow and use: .S, .D, operand A, operand B. -/
def arithUses (op : Nat) : Option (Bool × Bool × Bool × Bool) :=
  match op with
  | 0x01 | 0x02 | 0x03 | 0x04 => some (true, true, true, true)
  | 0x05 => some (false, false, true, true)
  | 0x06 => some (false, false, true, false)
  | 0x07 | 0x0A | 0x0B | 0x0D | 0x0E => some (true, false, false, false)
  | 0x08 | 0x09 | 0x16 | 0x17 => some (true, false, true, false)
  | 0x0C | 0x0F | 0x10 | 0x12 | 0x13 => some (false, false, false, false)
  | 0x11 | 0x1B | 0x1C | 0x1D => some (false, false, true, false)
  | 0x18 | 0x19 => some (false, false, false, true)
  | 0x1A => some (false, false, true, true)
  | _ => none

/-- The arithmetic field of bits [43:28], or `none` where it is illegal (R304, R314, R318). -/
def decodeArith (w : Nat) : Option RoomArith :=
  let op := field w 38 6
  let s := bit w 37
  if op = 0 then (if field w 28 10 = 0 then some {} else none)
  else if op = 0x14 ∨ op = 0x15 then
    let k := field w 28 8
    if k ≤ 72 then some { op := op, sat := s, d := field w 36 1, k := k } else none
  else
    match arithUses op with
    | none => none
    | some (us, ud, ua, ub) =>
      let x : RoomArith := { op := op, sat := s, d := field w 36 1, a := field w 33 3, b := field w 30 3, dbl := bit w 29 }
      if bit w 28 || (s && !us) || (x.dbl && !ud) || (x.a != 0 && !ua) || (x.b != 0 && !ub) || (op == 0x1A && x.d != 0)
      then none else some x

/-- A parallel move field: `none` where it is illegal, else the move it holds, if any (R305). -/
def decodeParMove (y : Bool) (f : Nat) : Option (Option RoomMove) :=
  match field f 12 2 with
  | 0 => if f = 0 then some none else none
  | 3 => if field f 0 4 = 0 then some (some { kind := 3, y := y, reg := field f 8 4, src := field f 4 4 }) else none
  | k => if field f 2 3 ≤ 5 && field f 0 2 = 0 then
      some (some { kind := k, y := y, reg := field f 8 4, ptr := field f 5 3, mode := field f 2 3 })
    else none

/-- The move of format L: `none` where it is illegal, else the move it holds, if any (R308). -/
def decodeLongMove (f : Nat) : Option (Option RoomMove) :=
  let k := field f 26 2
  if k = 0 then (if field f 0 26 = 0 then some none else none)
  else if k = 3 ∨ !eCodeOk (field f 20 6) then none
  else if bit f 18 then
    if field f 14 4 = 0 then some (some { kind := k, y := bit f 19, reg := field f 20 6, abs := some (field f 0 14) }) else none
  else if field f 12 3 ≤ 5 && field f 0 12 = 0 then
    some (some { kind := k, y := bit f 19, reg := field f 20 6, ptr := field f 15 3, mode := field f 12 3 })
  else none

/-- A move that updates its pointer (R272, R274). -/
def RoomMove.updates (m : RoomMove) : Bool := m.kind != 3 && m.abs.isNone && (m.mode == 1 || m.mode == 2 || m.mode == 3 || m.mode == 5)

/-- A control word (R311). -/
def decodeControl (w : Nat) : Option RoomInstr :=
  let cond := field w 34 4
  let target := field w 0 13
  match field w 38 6 with
  | 0x00 => if field w 0 38 = 0 then some .nop else none
  | 0x01 => if cond ≤ 13 && field w 13 21 = 0 then some (.bra cond target) else none
  | 0x02 => if cond ≤ 13 && field w 13 21 = 0 then some (.call cond target) else none
  | 0x03 => if cond ≤ 13 && field w 0 34 = 0 then some (.ret cond) else none
  | 0x04 => if field w 0 38 = 0 then some .rti else none
  | 0x05 => if field w 13 22 = 0 then some (.dbnz (field w 35 3) target) else none
  | 0x06 => if field w 12 21 = 0 then some (.repImm (field w 33 5 + 1) (field w 0 12)) else none
  | 0x07 => if field w 0 27 = 0 && repSrcOk (field w 27 6) then some (.repReg (field w 33 5 + 1) (field w 27 6)) else none
  | 0x08 => if field w 0 38 = 0 then some .endBlock else none
  | 0x09 => if field w 0 38 = 0 then some .swi else none
  | _ => none

/-- An instruction word, or `none` where its encoding is illegal (R301, R318). -/
def decodeRoom (w : Nat) : Option RoomInstr :=
  match field w 44 4 with
  | 0 => decodeControl w
  | 1 =>
    match decodeArith w, decodeParMove false (field w 14 14), decodeParMove true (field w 0 14) with
    | some a, some x, some y =>
      let both := match x, y with | some m, some n => m.updates && n.updates && m.ptr == n.ptr | _, _ => false
      if both then none else some (.data a (x.toList ++ y.toList) false)
    | _, _, _ => none
  | 2 =>
    match decodeArith w, decodeLongMove (field w 0 28) with
    | some a, some m => some (.data a m.toList true)
    | _, _ => none
  | 3 => if eCodeOk (field w 38 6) && field w 32 6 = 0 then some (.ldi (field w 38 6) (field w 0 32)) else none
  | 4 =>
    if field w 40 4 = 0 && field w 0 28 = 0 && eCodeOk (field w 34 6) && eCodeOk (field w 28 6) then
      some (.move (field w 34 6) (field w 28 6))
    else none
  | _ => none

/-! The accumulators. -/

/-- A 32-bit value as Q1.31 in an accumulator (R267). -/
def accOf (v : Nat) : Int := sext 32 v * 2 ^ 32

/-- The value of a 72-bit accumulator. -/
def accVal (n : Nat) : Int := sext 72 n

/-- Inside the Q1.31 range: bits [71:63] all equal (R268, R270). -/
def inQ31 (r : Int) : Bool := decide (-(2 ^ 63) ≤ r) && decide (r < 2 ^ 63)

/-- A move of an accumulator to 32 bits: the limited bits [63:32], and whether it was limited (R268). -/
def accMove (n : Nat) : Nat × Bool :=
  let r := accVal n
  if inQ31 r then (field n 32 32, false) else (if r < 0 then 0x80000000 else 0x7FFFFFFF, true)

/-- The saturated result of R270. -/
def accSat (r : Int) : Int := if inQ31 r then r else if r < 0 then -(2 ^ 63) else 2 ^ 63 - 1

/-- What an arithmetic instruction sees: the accumulator it writes, the other one, its operands, .S, .D, the shift count, and the
status register as it stands. -/
structure ArithIn where
  ad : Nat
  ao : Nat
  a : Nat
  b : Nat
  sat : Bool
  dbl : Bool
  k : Nat
  sr : Nat
deriving DecidableEq, Repr

/-- What an arithmetic instruction gives: the accumulator, if it writes it; the status register, if it sets flags; the count that
goes to register B. -/
structure ArithOut where
  acc : Option Nat := none
  sr : Option Nat := none
  count : Option Nat := none
deriving DecidableEq, Repr

/-- The status register after a result: C, V, Z, N anew, L and E sticky (R268, R315). -/
def srWith (sr : Nat) (c v z n l e : Bool) : Nat :=
  b2n c + b2n v * 2 + b2n z * 4 + b2n n * 8 + b2n (bit sr 4 || l) * 16 + b2n (bit sr 5 || e) * 32

/-- A result written to the accumulator: saturated with .S, else wrapped to 72 bits with E, and its flags (R270, R315). -/
def accWrite (i : ArithIn) (r : Int) (c : Bool) : ArithOut :=
  let out := i.sat && !inQ31 r
  let w := ofInt 72 (if out then accSat r else r)
  let lost := !out && accVal w != r
  { acc := some w, sr := some (srWith i.sr c (!inQ31 (accVal w)) (w == 0) (bit w 71) out lost) }

/-- Flags of a result that is not written (R314, CMP and TST). -/
def accTest (i : ArithIn) (r : Int) (c : Bool) : ArithOut :=
  let w := ofInt 72 r
  { sr := some (srWith i.sr c (!inQ31 (accVal w)) (w == 0) (bit w 71) false false) }

/-- The product of R269: the exact signed product shifted left by 1, or by 2 with .D. -/
def product (i : ArithIn) : Int := sext 32 i.a * sext 32 i.b * (if i.dbl then 4 else 2)

/-- The carry out of bit 71 of an addition. -/
def carryOf (x : Nat) (y : Int) : Bool := 2 ^ 72 ≤ x + ofInt 72 y

/-- The borrow out of bit 71 of a subtraction. -/
def borrowOf (x : Nat) (y : Int) : Bool := x < ofInt 72 y

/-- The sum of the accumulator and `y`, with its carry. -/
def accAdd (i : ArithIn) (y : Int) : ArithOut := accWrite i (accVal i.ad + y) (carryOf i.ad y)

/-- The difference of the accumulator and `y`, with its borrow. -/
def accSub (i : ArithIn) (y : Int) : ArithOut := accWrite i (accVal i.ad - y) (borrowOf i.ad y)

/-- A shift of the accumulator by `n` places, left where it is positive; C is the last bit shifted out (R315). -/
def accShift (i : ArithIn) (n : Int) : ArithOut :=
  let k := n.natAbs
  if n = 0 then accWrite i (accVal i.ad) false
  else if 0 < n then accWrite i (accVal i.ad * (2 ^ min k 144 : Nat)) (k ≤ 72 && bit i.ad (72 - k))
  else accWrite i (accVal i.ad / (2 ^ min k 72 : Nat)) (bit i.ad (min (k - 1) 71))

/-- The most left shifts, up to `n`, that keep an accumulator's value inside Q1.31, and one normal (R316). -/
def leftCount : Nat → Int → Nat
  | 0, _ => 0
  | n + 1, r => if inQ31 (2 * r) then 1 + leftCount n (2 * r) else 0

/-- The least right shifts, up to `n`, that bring a value inside Q1.31 (R316). -/
def rightCount : Nat → Int → Nat
  | 0, _ => 0
  | n + 1, r => if inQ31 r then 0 else 1 + rightCount n (r / 2)

/-- The count c of NORM (R316). -/
def normCount (r : Int) : Int := if r = 0 then 31 else if inQ31 r then leftCount 31 r else -(rightCount 8 r : Int)

/-- The logical operations on bits [63:32] (R314). -/
def accLogic (i : ArithIn) (f : Nat → Nat → Nat) : ArithOut :=
  accWrite { i with sat := false } (accVal (setField i.ad 32 32 (f (field i.ad 32 32) i.a))) false

/-- A move's value in a narrower register: its low bits (R303). -/
def lowBits (w v : Nat) : Nat := v % 2 ^ w

/-- The condition of a branch on SR and MBOX_PEND (R312). -/
def condHolds (cond sr : Nat) (mb : Bool) : Bool :=
  let c := bit sr 0
  let v := bit sr 1
  let z := bit sr 2
  let n := bit sr 3
  match cond with
  | 0 => true | 1 => z | 2 => !z | 3 => n | 4 => !n | 5 => v | 6 => !v
  | 7 => !n && !z | 8 => n || z | 9 => c | 10 => !c | 11 => bit sr 4 | 12 => bit sr 5 | 13 => mb
  | _ => false

end Sys2Proof.Machine
end

