-- ==== Sys2Proof/Machine/RoomCore.lean ====
section
/-! DEFINITION. One room's core: registers behind the exposed pipeline's distances, addressing, the I/O window, moves and
arithmetic of one instruction, control flow, REP, and the interrupt (R263 to R286, R302, R303, R306 to R313). -/

namespace Sys2Proof.Machine

/-- How an instruction uses a register it reads, for R275 and R307. -/
inductive RoomUse where
  | operand | accArith | accMove | flags | address | control
deriving DecidableEq, Repr

/-- The least distance at which a reader sees a writer's value (R275, R307). A test of SR flags is a condition; a move out of SR,
and SR.L as a limited move sets it, are pairs that no table names: distance 4. -/
def distance : Wrote → RoomUse → Nat
  | .arith, .accArith => 1
  | .arith, .accMove => 2
  | .arith, .flags => 2
  | .load, .operand => 2
  | .regMove, .operand => 1
  | .postUpdate, .address => 1
  | .ptrMove, .address => 3
  | .ctl, _ => 2
  | _, _ => 4

/-- The key of a register by E code in the set in use: shadowed registers of the handler's set lie 64 above; the parts of an
accumulator are the accumulator (R266, R302). -/
def Core.key (c : Core) (e : Nat) : Nat :=
  let k := if 8 ≤ e && e < 0x10 then 8 + e % 2 else e
  if c.inIrq && (k < 0x10 || k == 0x30) then k + 64 else k

/-- A register as newest written. -/
def Core.raw (c : Core) (key : Nat) : Nat := Sparse.get (fun _ => 0) c.regs key

/-- The place of SR.L beside its register: it is written by moves too, at a distance of its own (R268, R307). -/
abbrev limitKey (key : Nat) : Nat := key + 128

/-- What a reader sees of a register: the newest write at its distance or more, else the value before the oldest in reach (R275). -/
def seen (count key : Nat) (use : RoomUse) : List RegWrite → Nat → Nat
  | [], v => v
  | w :: r, v =>
    if w.key = key then (if w.at_ + distance w.how use ≤ count then v else seen count key use r w.before)
    else seen count key use r v

/-- A register read through the pipeline. -/
def Core.read (c : Core) (key : Nat) (use : RoomUse) : Nat := seen c.count key use c.hist (c.raw key)

/-- SR read through the pipeline, its bit L with it. -/
def Core.readSr (c : Core) (use : RoomUse) : Nat :=
  let k := c.key 0x30
  setField (c.read k use) 4 1 (c.read (limitKey k) use)

/-- A register written by the present instruction. -/
def Core.write (c : Core) (key v : Nat) (how : Wrote) : Core :=
  { c with regs := Sparse.put (fun _ => 0) c.regs key v
           hist := ⟨key, c.count, c.raw key, how⟩ :: c.hist.filter (fun w => c.count < w.at_ + 4) }

/-- What a reader sees of a memory word or window place whose writes take distance `d`. -/
def seenMem (count key d : Nat) : List MemWrite → Nat → Nat
  | [], v => v
  | w :: r, v =>
    if w.key = key then (if w.at_ + d ≤ count then v else seenMem count key d r w.before) else seenMem count key d r v

/-- A word of X or Y as newest written. -/
def Core.memRaw (c : Core) (y : Bool) (a : Nat) : Nat := Sparse.get (fun _ => 0) (if y then c.y else c.x) a

/-- A word of X or Y with a value put into it. -/
def Core.memPut (c : Core) (y : Bool) (a v : Nat) : Core :=
  if y then { c with y := Sparse.put (fun _ => 0) c.y a v } else { c with x := Sparse.put (fun _ => 0) c.x a v }

/-- A load's value of a word of X or Y (R275: store to load, distance 4). -/
def Core.memRead (c : Core) (y : Bool) (a : Nat) : Nat :=
  seenMem c.count (b2n y * 16384 + a) 4 c.mem (c.memRaw y a)

/-- A store. -/
def Core.memWrite (c : Core) (y : Bool) (a v : Nat) : Core :=
  let w : MemWrite := ⟨b2n y * 16384 + a, c.count, c.memRaw y a⟩
  { c.memPut y a v with mem := w :: c.mem.filter (fun w => c.count < w.at_ + 4) }

/-- Every write done and visible (R282, R283; at a block's start and end DEDUCED, log entry 20). -/
def Core.flush (c : Core) : Core := { c with hist := [], mem := [], win := [] }

/-- A step applied to a pointer (R273). -/
def stepPtr (p b l : Nat) (st : Int) : Nat :=
  if l = 0 then ofInt 14 ((p : Int) + st) else (b + (((p : Int) - b + st) % (l : Int)).toNat) % 16384

/-- The low 14 bits in reverse order (R272, reverse-carry). -/
def rev14 (n : Nat) : Nat := (List.range 14).foldl (fun r i => r * 2 + n / 2 ^ i % 2) 0

/-- The address a memory operand uses and the value its pointer takes (R272, R273). -/
def Core.address (c : Core) (ptr mode : Nat) : Nat × Option Nat :=
  let p := c.read (0x10 + ptr) .address
  let n := c.read (0x18 + ptr) .address
  let step (st : Int) : Nat := stepPtr p (c.read (0x20 + ptr) .address) (c.read (0x28 + ptr) .address) st
  match mode with
  | 1 => (p, some (step 1))
  | 2 => (p, some (step (-1)))
  | 3 => (p, some (step (sext 15 n)))
  | 4 => (step (sext 15 n), none)
  | 5 => (p, some (rev14 ((rev14 p + rev14 (n % 16384)) % 16384)))
  | _ => (p, none)

/-- What a core reads of its room: the block length N and BINFO (R281). -/
structure RoomIo where
  n : Nat
  binfo : Nat
deriving DecidableEq, Repr

/-- The record of the block that runs or waits to run: the newest that is not a skipped one. -/
def Room.current (rm : Room) : Option Block := rm.blocks.find? (·.ran)

/-- The first block of a list that is not a skipped one, changed. -/
def onRan (f : Block → Block) : List Block → List Block
  | [] => []
  | b :: r => if b.ran then f b :: r else b :: onRan f r

/-- The room with that record changed. -/
def Room.onCurrent (rm : Room) (f : Block → Block) : Room := { rm with blocks := onRan f rm.blocks }

/-- A read of window place `a` (0 to 255) at position IOP (R263, R265, R275). -/
def Room.winRead (rm : Room) (io : RoomIo) (a : Nat) : Nat :=
  let k := rm.core.read 0x32 .control
  if !rm.block || io.n ≤ k then 0
  else if a < 128 then Sparse.get (fun _ => 0) (rm.cur.getD k []) a
  else
    let key := k * 128 + (a - 128)
    let v := match rm.current with | some b => Sparse.get (fun _ => 0) b.vals key | none => 0
    seenMem rm.core.count key 2 rm.core.win v

/-- A write of window place `a` at position IOP: only an output position not yet released takes it (R263, R265). -/
def Room.winWrite (rm : Room) (io : RoomIo) (a v : Nat) : Room :=
  let k := rm.core.read 0x32 .control
  match rm.current with
  | some b =>
    if !rm.block || io.n ≤ k || a < 128 || k < b.released then rm
    else
      let key := k * 128 + (a - 128)
      let w : MemWrite := ⟨key, rm.core.count, Sparse.get (fun _ => 0) b.vals key⟩
      { rm.onCurrent (fun b => { b with vals := Sparse.put (fun _ => 0) b.vals key v }) with
        core := { rm.core with win := w :: rm.core.win.filter (fun w => rm.core.count < w.at_ + 2) } }
  | none => rm

/-- A register as the 32-bit source of a move, and whether the move was limited (R268, R281, R302, R303). -/
def Room.source (rm : Room) (io : RoomIo) (e : Nat) : Nat × Bool :=
  let c := rm.core
  let get (u : RoomUse) : Nat := c.read (c.key e) u
  if e < 8 then (get .operand, false)
  else if e < 0x10 then
    let v := get .accMove
    match e / 2 with
    | 4 => accMove v
    | 5 => (field v 32 32, false)
    | 6 => (field v 0 32, false)
    | _ => (ofInt 32 (sext 8 (field v 64 8)), false)
  else if e < 0x30 then
    let v := get .address
    (if 0x18 ≤ e && e < 0x20 then ofInt 32 (sext 15 v) else v, false)
  else
    match e with
    | 0x30 => (c.readSr .control, false)
    | 0x31 => (get .control + 2 * b2n c.inIrq + 4 * b2n c.mboxPend, false)
    | 0x32 => (get .control, false)
    | 0x33 => (c.mbi, false)
    | 0x35 => (get .control, false)
    | 0x36 => (io.binfo, false)
    | 0x37 => (rm.bcnt % 2 ^ 32, false)
    | _ => (0, false)

/-- The writes of one instruction, one per register. -/
abbrev Writes := List (Nat × Nat × Wrote)

/-- A write joins the instruction's writes; a later write of the same register wins (R274, R278). -/
def Writes.set (ws : Writes) (key v : Nat) (how : Wrote) : Writes := (ws.filter (fun w => w.1 != key)) ++ [(key, v, how)]

/-- A value moved into a register by E code (R267, R281, R303). A part of an accumulator leaves its other bits. -/
def Core.put (c : Core) (io : RoomIo) (ws : Writes) (e v : Nat) (how : Wrote) : Writes :=
  let key := c.key e
  let cur := match ws.find? (fun w => w.1 == key) with | some w => w.2.1 | none => c.raw key
  if e < 8 then ws.set key v how
  else if e < 0x10 then
    ws.set key (match e / 2 with
      | 4 => ofInt 72 (accOf v)
      | 5 => setField cur 32 32 v
      | 6 => setField cur 0 32 v
      | _ => setField cur 64 8 v) .arith
  else if e < 0x18 ∨ (0x20 ≤ e ∧ e < 0x28) then ws.set key (v % 2 ^ 14) .ptrMove
  else if e < 0x30 then ws.set key (v % 2 ^ 15) .ptrMove
  else
    match e with
    | 0x30 => (ws.set key (setField (v % 64) 4 1 0) .ctl).set (limitKey key) (field v 4 1) .ctl
    | 0x31 => ws.set key (v % 2) .ctl
    | 0x32 => ws.set key (min (v % 64) io.n) .ctl
    | 0x35 => ws.set key (v % 2 ^ 13) .ctl
    | _ => ws

/-- What the moves of an instruction do before anything is written (R306): register writes, stores as (space, address, value),
window writes as (place, value), words for MBO, whether MBI was read, whether a move was limited, and whether a move would set Ln
above 16,384 (R303). -/
structure Moved where
  updates : Writes := []
  regs : Writes := []
  stores : List (Bool × Nat × Nat) := []
  wins : List (Nat × Nat) := []
  mbo : List Nat := []
  mbiRead : Bool := false
  limited : Bool := false
  badL : Bool := false

/-- A register takes a move's value. -/
def Moved.take (mv : Moved) (c : Core) (io : RoomIo) (e v : Nat) (how : Wrote) : Moved :=
  { mv with regs := c.put io mv.regs e v how, mbo := if e = 0x34 then mv.mbo ++ [v % 2 ^ 32] else mv.mbo
            badL := mv.badL || (0x28 ≤ e && e < 0x30 && 16384 < v % 2 ^ 15) }

/-- A register is read as a move's source. -/
def Moved.from_ (mv : Moved) (rm : Room) (io : RoomIo) (e : Nat) : Moved × Nat :=
  let r := rm.source io e
  ({ mv with limited := mv.limited || r.2, mbiRead := mv.mbiRead || e == 0x33 }, r.1)

/-- One move of an instruction (R305, R308). -/
def Moved.add (mv : Moved) (rm : Room) (io : RoomIo) (m : RoomMove) : Moved :=
  let c := rm.core
  if m.kind = 3 then
    let r := mv.from_ rm io m.src
    r.1.take c io m.reg r.2 .regMove
  else
    let a := match m.abs with | some a => (a, none) | none => c.address m.ptr m.mode
    let mv := match a.2 with | some v => { mv with updates := mv.updates.set (0x10 + m.ptr) v .postUpdate } | none => mv
    let win := !m.y && 0x3F00 ≤ a.1
    if m.kind = 1 then mv.take c io m.reg (if win then rm.winRead io (a.1 - 0x3F00) else c.memRead m.y a.1) .load
    else
      let r := mv.from_ rm io m.reg
      if win then { r.1 with wins := r.1.wins ++ [(a.1 - 0x3F00, r.2)] }
      else { r.1 with stores := r.1.stores ++ [(m.y, a.1, r.2)] }

/-- What an instruction's moves do. -/
def Room.moves (rm : Room) (io : RoomIo) : RoomInstr → Moved
  | .data _ ms _ => ms.foldl (fun mv m => mv.add rm io m) {}
  | .ldi e v => Moved.take {} rm.core io e v .load
  | .move d e => let r := Moved.from_ {} rm io e; r.1.take rm.core io d r.2 .regMove
  | _ => {}

/-- What an instruction's arithmetic sees (R304, R306). -/
def Core.arithIn (c : Core) (x : RoomArith) : ArithIn where
  ad := c.read (c.key (8 + x.d)) .accArith
  ao := c.read (c.key (9 - x.d)) .accArith
  a := c.read (c.key x.a) .operand
  b := c.read (c.key x.b) .operand
  sat := x.sat
  dbl := x.dbl
  k := x.k
  sr := c.raw (c.key 0x30)

/-- The writes of an instruction, moves and arithmetic together (R268, R274, R278). -/
def Core.merge (c : Core) (mv : Moved) (x : RoomArith) (out : ArithOut) : Writes :=
  let ws := mv.regs.foldl (fun ws w => ws.set w.1 w.2.1 w.2.2) mv.updates
  let ws := match out.acc with | some v => ws.set (c.key (8 + x.d)) v .arith | none => ws
  let ws := match out.count with | some v => ws.set (c.key x.b) v .load | none => ws
  let srk := c.key 0x30
  if mv.regs.any (fun w => w.1 == srk) then ws
  else
    let ws := if mv.limited then ws.set (limitKey srk) 1 .limited else ws
    match out.sr with
    | some sr =>
      let ws := ws.set srk (setField sr 4 1 0) .arith
      if bit sr 4 then ws.set (limitKey srk) 1 .arith else ws
    | none => ws

/-- The room after one instruction of format P, L, I or R has written its results, and the words for MBO. -/
def Room.retire (rm : Room) (io : RoomIo) (mv : Moved) (ws : Writes) : Room × List Nat :=
  let rm := mv.wins.foldl (fun rm w => rm.winWrite io w.1 w.2) rm
  let c := ws.foldl (fun c w => c.write w.1 w.2.1 w.2.2) rm.core
  let c := mv.stores.foldl (fun c w => c.memWrite w.1 w.2.1 w.2.2) c
  let c := if mv.mbiRead then { c with mboxPend := false } else c
  let new := mv.stores.map (fun w => b2n w.1 * 16384 + w.2.1)
  let rm := { rm with core := c, written := (rm.written ++ new).eraseDups }
  let rm := match ws.find? (fun w => w.1 == 0x32) with
    | some w => if rm.block then rm.onCurrent (fun b => { b with released := max b.released w.2.1 }) else rm
    | none => rm
  (rm, mv.mbo)

/-- The handler ends: the main set returns (R282, R283, R285). -/
def Core.leave (c : Core) (busy : Bool) : Core := { c.flush with inIrq := false, rti := false, hold := busy }

/-- The program counter after an instruction: REP's body, delay slots and their branch, a new branch or REP (R276, R279, R282).
`branch` holds the target, where it is taken, and whether it is RTI. -/
def Room.next (rm : Room) (branch : Option (Option Nat × Bool)) (newRep : Option Rep) : Room :=
  let c := rm.core
  let pc1 := (c.pc + 1) % 8192
  let npc := match c.rep with
    | some r => if r.pos + 1 = r.body && 1 < r.left then r.start else pc1
    | none => pc1
  let rep := match c.rep with
    | some r =>
      if r.pos + 1 < r.body then some { r with pos := r.pos + 1 }
      else if 1 < r.left then some { r with pos := 0, left := r.left - 1 } else none
    | none => newRep
  let last := c.slots == 1
  let npc := if last then c.target.getD npc else npc
  let c2 := { c with pc := npc, rep := rep, count := c.count + 1, slots := c.slots - 1, hold := false
                     target := if last then none else c.target }
  let c2 := if last && c.rti then c2.leave (rm.block || rm.waiting) else c2
  let c2 := match branch with
    | some b => { c2 with slots := 2, target := b.1, rti := b.2 }
    | none => c2
  { rm with core := c2, instr := rm.instr + 1 }

/-- The instruction at the program counter. -/
def Core.instr (c : Core) : Option RoomInstr := decodeRoom (Sparse.get (fun _ => 0) c.p c.pc)

/-- Whether an instruction cannot be executed where it stands (R276, R277, R303, R313, R318). -/
def Room.cannot (rm : Room) (io : RoomIo) (i : RoomInstr) : Bool :=
  let c := rm.core
  let taken (cond : Nat) : Bool := condHolds cond (c.readSr .flags) c.mboxPend
  ((i.branches || i.isRep || i == .endBlock) && (c.slots != 0 || c.rep.isSome))
    || (match i with
      | .call cond _ => taken cond && 8 ≤ c.stack.length
      | .ret cond => taken cond && c.stack.isEmpty
      | .rti => !c.inIrq
      | .endBlock => !rm.block
      | _ => (rm.moves io i).badL)

/-- The instruction that executes next, where it is legal. -/
def Room.legal (rm : Room) (io : RoomIo) : Option RoomInstr :=
  match rm.core.instr with
  | some i => if rm.cannot io i then none else some i
  | none => none

/-- An interrupt is to be taken before the next instruction (R282, R285). -/
def Room.irqDue (rm : Room) (io : RoomIo) : Bool :=
  let c := rm.core
  (c.mboxPend || c.swi) && !c.inIrq && !c.hold && c.slots == 0 && c.rep.isNone && c.read 0x31 .control == 1
    && !(rm.block && match rm.legal io with | some i => i.isRep | none => false)

/-- The interrupt is taken (R282, R285). -/
def Core.enter (c : Core) (ivec : Nat) : Core :=
  let c := c.flush
  { c with regs := Sparse.put (fun _ => 0) c.regs 0x35 c.pc, inIrq := true, swi := false, pc := ivec }

/-- A block starts at `entry` (R287, R313). `hold`: it starts after RTI (R285). -/
def Room.start (rm : Room) (entry : Nat) (hold : Bool) : Room :=
  let c := rm.core.flush
  { rm with block := true, waiting := false, started := true, bcnt := (rm.bcnt + 1) % 2 ^ 32, begun := rm.core
            core := { c with pc := entry, regs := Sparse.put (fun _ => 0) c.regs 0x32 0, stack := [], slots := 0, target := none
                             rti := false, rep := none, hold := hold } }

end Sys2Proof.Machine
end

