-- ==== Sys2Proof/Machine/Volt.lean ====
section
/-! DEFINITION. The headroom monitor and the VID request: windows of slack, the automatic loop, moves of the code, PWR_GOOD
(R44 to R56). -/

namespace Sys2Proof.Machine

/-- A room is active while its ROOM_STATUS reads RUN or STOPPING (R51; DEDUCED, log entry 11). -/
def State.roomActive (s : State) (r : Nat) : Bool := s.rd (Reg.roomStatusState r) == 2 || s.rd (Reg.roomStatusState r) == 3

/-- The ticks of a room's block, N = 2^BLOCK (R265). -/
def State.blockLen (s : State) (r : Nat) : Nat := 2 ^ s.rd (Reg.roomCtrlBlock r)

/-- The headroom window of a domain (0 to 3) or room (16 + room). -/
def State.hmWin (s : State) (k : Nat) : HmWin := Sparse.get (fun _ => {}) s.volt.wins k

/-- The state with a headroom window replaced. -/
def State.setHmWin (s : State) (k : Nat) (w : HmWin) : State :=
  { s with volt := { s.volt with wins := Sparse.put (fun _ => {}) s.volt.wins k w } }

/-- A domain's count of consecutive windows above SLACK_HI (R51). -/
def State.downCount (s : State) (d : Nat) : Nat := Sparse.get (fun _ => 0) s.volt.down d

/-- The state with every window started afresh (R46). -/
def State.hmRestart (s : State) : State := { s with volt := { s.volt with wins := [] } }

/-- The loop runs: automatic mode, not frozen, not held by PWR_GOOD (R51, R53, R54). -/
def State.loopRuns (s : State) : Bool := s.volt.auto && !s.volt.frozen && !s.volt.pgHold

/-- The loop runs and no VID settle interval is in progress (R51). -/
def State.loopOn (s : State) : Bool := s.loopRuns && !s.on Reg.vidStatusSettling

/-- The settings as their entries read. -/
def State.vidEntries (s : State) : VidSettings :=
  { fixed := s.rd Reg.vidFixedCode, floor := s.rd Reg.vidFloorCode, ceil := s.rd Reg.vidCeilCode
    target := s.get Reg.slackTargetSlackLo.key }

/-- The settings in force: a SET in a settle interval waits for its end (R55). -/
def State.vidSet (s : State) : VidSettings := s.volt.kept.getD s.vidEntries

/-- SLACK_LO, SLACK_HI and DOWN_WINDOWS in force. -/
def VidSettings.lo (v : VidSettings) : Nat := field v.target 0 8
def VidSettings.hi (v : VidSettings) : Nat := field v.target 8 8
def VidSettings.windows (v : VidSettings) : Nat := field v.target 16 4

/-- The highest code allowed now, and whether the thermal clamp sets it; with VID_CEIL at 50 both do, and VID_CEIL is reported (R50, R51,
R52; the last DESIGN CHOICE, log entry 44). -/
def State.vidHigh (s : State) : Nat × Bool :=
  let hi := if s.volt.auto then min s.vidSet.ceil 63 else 63
  if s.on Reg.vidStatusThermalClamp && 50 < hi then (50, true) else (hi, false)

/-- The lowest code allowed now. -/
def State.vidLow (s : State) : Nat := if s.volt.auto then s.vidSet.floor else 0

/-- AT_CEIL clears once the code is below the bound that stopped it (R52). -/
def State.ceilCheck (s : State) : State :=
  let bound := if s.volt.ceilThermal then (if s.on Reg.vidStatusThermalClamp then 50 else 64) else s.vidSet.ceil
  if s.on Reg.vidStatusAtCeil && s.rd Reg.vidStatusCodeNow < bound then
    { s.wr Reg.vidStatusAtCeil 0 with volt := { s.volt with ceilPosted := none } }
  else s

/-- The code the device aims at: VID_FIXED in fixed mode, the loop's goal in automatic mode, inside the bounds (R50, R56). -/
def State.vidGoal (s : State) : Nat :=
  let hi := s.vidHigh.1
  if s.volt.auto then min (max s.volt.goal s.vidLow) hi else min s.vidSet.fixed hi

/-- The next code of a series toward `goal`: at most 4 away (R49). -/
def vidMove (now goal : Nat) : Nat := if now < goal then min goal (now + 4) else max goal (now - 4)

/-- One move of the code toward its goal, where a move is due and allowed: counted, and followed by VID_SETTLE (R49, R53). -/
def State.vidDrive (s : State) : State :=
  if s.volt.frozen || s.volt.pgHold || s.on Reg.vidStatusSettling then s
  else
    let goal := s.vidGoal
    let now := s.rd Reg.vidStatusCodeNow
    let s := { s with volt := { s.volt with goal := goal } }
    if goal = now then s
    else
      let s := ((s.wr Reg.vidStatusCodeNow (vidMove now goal)).bump Reg.vidMoves 1).wr Reg.vidStatusSettling 1
      State.ceilCheck { s with volt := { s.volt with down := [] } }

/-- No domain is running and no room is active (R51). -/
def State.vidIdle (s : State) : Bool :=
  !(List.range 4).any s.running && !(List.range 18).any s.roomActive

/-- The 100 ms timer of R51 is armed while nothing runs and the loop may act. -/
def State.idleArm (s : State) : State := { s with volt := { s.volt with idleArmed := s.vidIdle && s.loopOn } }

/-- The event 0xB001 of R52, at most once per second while the condition lasts. -/
def State.ceilStopped (s : State) (thermal isRoom : Bool) (who slack : Nat) : State :=
  let s := s.wr Reg.vidStatusAtCeil 1
  let s := { s with volt := { s.volt with ceilThermal := thermal } }
  let due := match s.volt.ceilPosted with | none => true | some t => t + 500000000 ≤ s.rc
  if due then
    let s := if s.passes 0xB001 5 then { s with volt := { s.volt with ceilPosted := some s.rc } } else s
    s.post 0xB001 5
      [pack [(0, s.rd Reg.vidStatusCodeNow), (6, b2n thermal), (7, b2n isRoom), (8, who)], slack]
  else s

/-- The loop raises the code by `k`, cut short at the bounds; in a settle interval the move follows at its end (R49, R51, R52;
log entry 44). -/
def State.vidRaise (s : State) (k : Nat) (isRoom : Bool) (who slack : Nat) : State :=
  let now := s.rd Reg.vidStatusCodeNow
  let hi := s.vidHigh
  let target := min (now + k) hi.1
  let s := if now < target then State.vidDrive { s with volt := { s.volt with goal := max s.volt.goal target } } else s
  if target < now + k then s.ceilStopped hi.2 isRoom who slack else s

/-- The loop lowers the code by 1, down to VID_FLOOR; AT_CEIL clears; in a settle interval the move follows at its end (R49, R51,
R52; log entry 44). -/
def State.vidLower (s : State) : State :=
  let now := s.rd Reg.vidStatusCodeNow
  if s.vidLow + 1 ≤ now then
    let s := s.wr Reg.vidStatusAtCeil 0
    State.vidDrive { s with volt := { s.volt with goal := now - 1, ceilPosted := none } }
  else s

/-- A raise by 4 from `code` takes the place of a window-end move of the same moment, which had begun there (R51, R52). -/
def State.raiseOver (s : State) (code : Nat) (isRoom : Bool) (who : Nat) : State :=
  let hi := s.vidHigh
  let target := min (code + 4) hi.1
  let s := s.wr Reg.vidStatusCodeNow target
  let s := State.ceilCheck { s with volt := { s.volt with goal := target } }
  if target < code + 4 then s.ceilStopped hi.2 isRoom who 0 else s

/-- A late tick or block raises the code by 4 at once, outside settle intervals; before a window-end move of the same moment it takes
precedence (R51). -/
def State.lateRaise (s : State) (isRoom : Bool) (who : Nat) : State :=
  if s.loopOn then
    State.vidRaise { s with volt := { s.volt with raisedAt := some s.rc } } 4 isRoom who 0
  else match s.volt.movedAt with
    | some (t, code) =>
      if s.loopRuns && t == s.rc then
        State.raiseOver { s with volt := { s.volt with raisedAt := some s.rc, movedAt := none } } code isRoom who
      else s
    | none => s

/-- One result put into a window (R44, R45). -/
def HmWin.add (w : HmWin) (slack : Nat) (late : Bool) : HmWin :=
  let v := if late then 0 else min slack 0xFFFFFF
  { w with n := w.n + 1, least := min w.least v, sum := w.sum + v, late := w.late + b2n late }

/-- A window's result latched into a result entry (R46). -/
def hmLatch (w : HmWin) (seq : Nat) : Nat :=
  pack [(0, if w.n = 0 then 0 else w.least), (24, if w.n = 0 then 0 else w.sum / w.n % 2 ^ 24), (48, min w.late 255),
    (56, (seq + 1) % 256)]

/-- The rooms whose window is that of domain `d` (R46). -/
def State.roomsOf (s : State) (d : Nat) : List Nat :=
  (List.range 18).filter (fun r => s.on (Reg.roomCtrlDomainValid r) && s.rd (Reg.roomCtrlDomain r) == d)

/-- The guest rooms whose shadow runs belong to domain `d`'s window (R47). -/
def State.guestsOf (s : State) (d : Nat) : List Nat :=
  (s.guard.slots.filter (fun p => match p.2.shadow with
    | some r => s.on (Reg.roomCtrlDomainValid r) && s.rd (Reg.roomCtrlDomain r) == d
    | none => false)).map (fun (p : Nat × Guest) => s.fuse.guestRoom p.1)

/-- The rooms and guest rooms whose results lie in domain `d`'s window (R46, R47): rooms of it that are active, guest rooms that
shadow a room of it. An active room in whose window no block ended is not among them: nothing of it is latched, and its WINDOW_SEQ
stays (DESIGN CHOICE, log entry 44). -/
def State.latched (s : State) (d : Nat) : List Nat × List Nat :=
  let inIt (r : Nat) : Bool := (s.hmWin (16 + r)).dom == d && (s.hmWin (16 + r)).n != 0
  ((s.roomsOf d).filter (fun r => s.roomActive r && inIt r), (s.guestsOf d).filter inIt)

/-- The windows collected for domain `d` start afresh: its own and those of its rooms and guest rooms (R46). -/
def State.hmFresh (s : State) (d : Nat) : State :=
  { s with volt := { s.volt with wins := s.volt.wins.filter (fun p => p.1 != d && (p.1 < 4 || p.2.dom != d)) } }

/-- The worst relative slack of a domain just latched: (scaled slack, is a room, number, slack in ns), relative slack being
scaled slack × rate / (32 × 10⁹) (R51); of equals the domain, then the room of the lowest number (DESIGN CHOICE, log entry 44). -/
def State.worstSlack (s : State) (d : Nat) (rooms : List Nat) : Nat × Bool × Nat × Nat :=
  let m := s.rd (Reg.domainHmResultMinSlack d)
  rooms.foldl (fun best r =>
      let v := s.rd (Reg.roomHmResultMinSlack r)
      let x := v * 32 / s.blockLen r
      if x < best.1 then (x, true, r, v) else best)
    (m * 32, false, d, m)

/-- A window-end action, with the moment and the code at which its move began where it makes one (R51). -/
def State.atWindow (s : State) (f : State → State) : State :=
  let t := f s
  if s.loopOn && t.on Reg.vidStatusSettling then
    { t with volt := { t.volt with movedAt := some (s.rc, s.rd Reg.vidStatusCodeNow) } }
  else t

/-- The loop's action at a window's end; one that ends in a settle interval is judged too, and its move follows the interval; at the
moment of a raise for late work there is none (R49, R51; log entry 44). -/
def State.windowAction (s : State) (d : Nat) (rooms : List Nat) (late : Bool) : State :=
  if !s.loopRuns || s.volt.raisedAt == some s.rc then s
  else
    let w := s.worstSlack d rooms
    let rel := w.1 * s.domRate d * 100
    if s.vidSet.hi * 32000000000 < rel then
      let s := { s with volt := { s.volt with down := Sparse.put (fun _ => 0) s.volt.down d (s.downCount d + 1) } }
      if ((List.range 4).filter s.running).all (fun k => s.vidSet.windows ≤ s.downCount k) then
        State.atWindow { s with volt := { s.volt with down := [] } } State.vidLower
      else s
    else
      let s := { s with volt := { s.volt with down := Sparse.put (fun _ => 0) s.volt.down d 0 } }
      if rel < s.vidSet.lo * 32000000000 && !late then s.atWindow (fun s => s.vidRaise 2 w.2.1 w.2.2.1 w.2.2.2) else s

/-- The end of domain `d`'s window: its results and those of its rooms are latched, the loop judges them, and a new window
starts (R46, R47, R51). -/
def State.windowEnd (s : State) (d : Nat) : State :=
  let w := s.hmWin d
  let in_ := s.latched d
  let late := w.late != 0 || (s.roomsOf d).any (fun r => (s.hmWin (16 + r)).dom == d && (s.hmWin (16 + r)).late != 0)
  let t := s.put (Reg.domainHmResultMinSlack d).key (hmLatch w (s.rd (Reg.domainHmResultWindowSeq d)))
  let t := t.each (in_.1 ++ in_.2) fun t r =>
    t.put (Reg.roomHmResultMinSlack r).key (hmLatch (s.hmWin (16 + r)) (s.rd (Reg.roomHmResultWindowSeq r)))
  (t.hmFresh d).windowAction d in_.1 late

/-- Whether domain `d`'s window has run its 2^HM_WINDOW ticks (R46). -/
def State.windowDue (s : State) (d : Nat) : Bool := 2 ^ s.rd Reg.hmWindow ≤ (s.hmWin d).ticks

/-- A window of domain `d` that was full before this moment ends (R46). -/
def State.windowOver (s : State) (d : Nat) : State :=
  if s.windowDue d then
    let s := State.windowEnd { s with volt := { s.volt with raisedAt := none } } d
    { s with volt := { s.volt with movedAt := none } }
  else s

/-- Slack of one tick of a domain goes into its window; a window already full ends first (R44, R46, R51). -/
def State.tickResult (s : State) (d slack : Nat) (late : Bool) : State :=
  let s := s.windowOver d
  let w := (s.hmWin d).add slack late
  let s := s.setHmWin d { w with ticks := w.ticks + 1 }
  if late then s.lateRaise false d else s

/-- Slack of one block goes into the window, for domain `d`, of the room or guest room that ran it (R45 to R47). -/
def State.blockWindow (s : State) (d r slack : Nat) (late : Bool) : State :=
  let w := s.hmWin (16 + r)
  s.setHmWin (16 + r) ((if w.dom = d then w else { dom := d }).add slack late)

/-- Slack of one block of a room goes into its window; a late one raises the code (R45, R51). -/
def State.blockResult (s : State) (r slack : Nat) (late : Bool) : State :=
  let s := s.blockWindow (s.rd (Reg.roomCtrlDomain r)) r slack late
  if late then s.lateRaise true r else s

/-- The settings of the VID request have changed: the mode in force follows VID_MODE, and the code moves (R55, R56). -/
def State.vidReconfigure (s : State) : State :=
  let auto := s.rd Reg.vidMode == 1
  let s :=
    if auto = s.volt.auto then s
    else
      let s := { s with volt := { s.volt with auto := auto, down := [], goal := s.rd Reg.vidStatusCodeNow } }
      if auto then s.hmRestart else s
  s.ceilCheck

/-- The settings in force, as a SET of entry `e`, which held `old`, waits for the end of a settle interval (R55). -/
def State.vidKept (s : State) (e : Ent) (old : Nat) : VidSettings :=
  let v := s.vidEntries
  s.volt.kept.getD (match e with
    | .vidFixed => { v with fixed := old % 64 }
    | .vidFloor => { v with floor := old % 64 }
    | .vidCeil => { v with ceil := old % 64 }
    | .slackTarget => { v with target := old }
    | _ => v)

/-- A SET of a VID setting, of entry `e` that held `old`, takes effect: at once, or at the end of a settle interval in progress (R55). -/
def State.vidChanged (s : State) (e : Ent) (old : Nat) : State :=
  if s.on Reg.vidStatusSettling then { s with volt := { s.volt with kept := some (s.vidKept e old) } }
  else if e = .slackTarget then s
  else s.vidReconfigure.vidDrive.idleArm

/-- HM_WINDOW_END: the window of a running domain ends, where it has run its length (R46, R47). -/
def execHmWindowEnd (d : Nat) (s : State) : Done :=
  .next (if d < 4 && s.running d && s.windowDue d then s.windowEnd d else s)

/-- VID_IDLE_LOWER: the 100 ms timer ends while nothing runs; the code is lowered by 1 (R51). -/
def execVidIdleLower (s : State) : Done :=
  .next (if s.volt.idleArmed && s.vidIdle && s.loopOn then
    State.vidLower { s with volt := { s.volt with idleArmed := false } } else s)

/-- VID_SETTLE_END: the settle interval ends; windows start afresh, deferred settings apply, the series goes on, and a
PWR_GOOD that is low holds every further move, in fixed mode too (R46, R49, R54, R55; DEDUCED, log entry 44). -/
def execVidSettleEnd (s : State) : Done :=
  .next (if s.on Reg.vidStatusSettling then
    let s := (s.wr Reg.vidStatusSettling 0).hmRestart
    let s := { s with volt := { s.volt with pgHold := !s.volt.pgHigh } }
    let s := if s.volt.kept.isSome then State.vidReconfigure { s with volt := { s.volt with kept := none } } else s
    s.vidDrive.idleArm
  else s)

/-- PWR_GOOD_CHANGE: the pin takes a level; high again, a held loop may move (R54). -/
def execPwrGoodChange (high : Bool) (s : State) : Done :=
  .next (let s := { s with volt := { s.volt with pgHigh := high } }
    if high && s.volt.pgHold then
      (State.vidDrive { s with volt := { s.volt with pgHold := false } }).idleArm
    else s)

/-- PWR_GOOD_LOST: low for 10 µs; the code freezes, PG_LOST is set and event 0xB002 posted (R53). -/
def execPwrGoodLost (s : State) : Done :=
  .next (if s.volt.pgHigh || s.boot.low then s
    else
      let s := { s.wr Reg.vidStatusPgLost 1 with volt := { s.volt with frozen := true } }
      s.post 0xB002 7 [s.rd Reg.vidStatusCodeNow])

/-- PWR_GOOD_RESUME: high for 1 ms; the loop resumes (R53). -/
def execPwrGoodResume (s : State) : Done :=
  .next (if s.volt.pgHigh then
    (State.vidDrive { s with volt := { s.volt with frozen := false, pgHold := false } }).idleArm else s)

end Sys2Proof.Machine
end

