-- ==== Sys2Proof/Machine/Guard.lean ====
section
/-! DEFINITION. Room states, cores and guest rooms: which core backs a room, what a guest shadows, votes, takeovers, rotation,
fencing and restores (R289, R291, R321 to R341). -/

namespace Sys2Proof.Machine

/-- Room `r` beside its entries. -/
def State.room (s : State) (r : Nat) : Room := Sparse.get (fun _ => {}) s.rooms r

/-- The state with a room replaced. -/
def State.setRoom (s : State) (r : Nat) (x : Room) : State := { s with rooms := Sparse.put (fun _ => {}) s.rooms r x }

/-- STATE of a room: 0 OFF, 1 ARMED, 2 RUN, 3 STOPPING, 4 FAULT. -/
def State.roomState (s : State) (r : Nat) : Nat := s.rd (Reg.roomStatusState r)

/-- A guest slot; from reset slot k is backed by the core of its room number (R321, R322). -/
def State.slot (s : State) (k : Nat) : Guest := Sparse.get (fun k => { core := some (s.fuse.guestRoom k) }) s.guard.slots k

/-- The state with a guest slot replaced. -/
def State.setSlot (s : State) (k : Nat) (g : Guest) : State :=
  { s with guard := { s.guard with slots := Sparse.put (fun k => { core := some (s.fuse.guestRoom k) }) s.guard.slots k g } }

/-- The guest slot of a guest room number (R322). -/
def Fuses.guestSlot (f : Fuses) (r : Nat) : Option Nat := [0, 1].find? (fun k => f.guestRoom k == r)

/-- Whether a room number is a guest room (R322). -/
def Fuses.isGuest (f : Fuses) (r : Nat) : Bool := (f.guestSlot r).isSome

/-- What the Supervisor keeps of a core. -/
def State.core (s : State) (c : Nat) : CoreHealth := Sparse.get (fun _ => {}) s.guard.cores c

/-- The state with that replaced. -/
def State.setCore (s : State) (c : Nat) (x : CoreHealth) : State :=
  { s with guard := { s.guard with cores := Sparse.put (fun _ => {}) s.guard.cores c x } }

/-- The core that backs a room number; none where a guest room is vacant (R321, R322). -/
def State.coreOf (s : State) (r : Nat) : Option Nat :=
  match s.fuse.guestSlot r with
  | some k => (s.slot k).core
  | none => some ((s.guarded r).core.getD r)

/-- A room number gets a core. -/
def State.bind (s : State) (r c : Nat) : State := s.setGuarded r { s.guarded r with core := if c = r then none else some c }

/-- The room, other than a guest room, that a core backs. -/
def State.roomOfCore (s : State) (c : Nat) : Option Nat :=
  (List.range 18).find? (fun r => s.fuse.hasRoom r && !s.fuse.isGuest r && s.coreOf r == some c)

/-- The guest slot that a core backs. -/
def State.slotOfCore (s : State) (c : Nat) : Option Nat := [0, 1].find? (fun k => (s.slot k).core == some c)

/-- The slot whose guest is IN_STEP with room `r` (R325). -/
def State.inStep (s : State) (r : Nat) : Option Nat :=
  [0, 1].find? (fun k => (s.slot k).shadow == some r && (s.slot k).state == 4)

/-- The slot whose guest shadows room `r`, warming up or IN_STEP. -/
def State.shadowOf (s : State) (r : Nat) : Option Nat :=
  [0, 1].find? (fun k => (s.slot k).shadow == some r && ((s.slot k).state == 3 || (s.slot k).state == 4))

/-- A COLD room: marked, or with GUARD 2 (R328, ROOM_GUARD; DEDUCED, log entry 22). -/
def State.isCold (s : State) (r : Nat) : Bool := (s.guarded r).cold || s.rd (Reg.roomGuardGuard r) == 2

/-- A complete snapshot is held (R335). -/
def State.snapOk (s : State) (r : Nat) : Bool := (s.guarded r).snap.isSome

/-- Event 0xB007 (R346). `soft`: only SHADOWED has changed, which within 100 ms of the last posting is left to the next. -/
def State.guardNote (s : State) (r : Nat) (parity soft : Bool) : State :=
  let g := s.guarded r
  let recent := match g.postedAt with | some t => s.rc < t + 50000000 | none => false
  if soft && recent then s
  else
    (s.setGuarded r { g with postedAt := if s.passes 0xB007 4 then some s.rc else g.postedAt }).post 0xB007 4
      [pack [(0, r), (5, b2n (s.isCold r)), (6, b2n (s.inStep r).isSome), (7, b2n (s.snapOk r)), (8, b2n parity)]]

/-- A candidate for shadowing by slot `k` (R338). -/
def State.candidate (s : State) (k r : Nat) : Bool :=
  s.fuse.hasRoom r && !s.fuse.isGuest r && s.roomState r == 2 && s.rd (Reg.roomGuardGuard r) == 1 && !s.isCold r
    && (s.slot (1 - k)).shadow != some r && !(s.room r).restoring

/-- The candidate whose last shadowing ended longest ago, ties to the lower number (R338). -/
def State.choose (s : State) (k : Nat) : Option Nat :=
  ((List.range 18).filter (s.candidate k)).foldl (fun best r =>
    match best with
    | none => some r
    | some b => if (s.guarded r).lastShadow < (s.guarded b).lastShadow then some r else some b) none

/-- A whole room's link words: P, X, Y and the registers (R327). -/
def warmWords : Nat := 45120

/-- The slot begins to shadow room `r` (R327). -/
def State.warmUp (s : State) (k r : Nat) : State :=
  s.setSlot k { s.slot k with state := 3, shadow := some r, left := warmWords, ready := false, clean := 0, swap := false }

/-- An IDLE slot whose core is in service takes a candidate (R338). -/
def State.seek (s : State) (k : Nat) : State :=
  let g := s.slot k
  match g.core with
  | some c =>
    if g.state = 1 && (s.core c).service = 1 then (match s.choose k with | some r => s.warmUp k r | none => s) else s
  | none => s

/-- Both slots take what they can. -/
def State.seekBoth (s : State) : State := (s.seek 0).seek 1

/-- A slot's shadowing ends; it is IDLE, its core's memories as they stand. -/
def State.shadowEnd (s : State) (k : Nat) : State :=
  let g := s.slot k
  match g.shadow with
  | none => s
  | some r =>
    let s := s.setSlot k { g with shadow := none, state := 1, left := 0, ready := false, clean := 0, swap := false
                                  own := (s.room r).core, junk := none }
    let n := s.guard.ended + 1
    let s := s.setGuarded r { s.guarded r with lastShadow := n }
    let s := { s with guard := { s.guard with ended := n } }
    if g.state = 4 then s.guardNote r false true else s

/-- The guest of slot `k` warms up again on its room while that is a candidate, else it looks for another (R328, R332). -/
def State.rewarm (s : State) (k : Nat) : State :=
  let g := s.slot k
  match g.shadow with
  | none => s.seek k
  | some r =>
    if s.candidate k r then
      let s := s.warmUp k r
      if g.state = 4 then s.guardNote r false true else s
    else (s.shadowEnd k).seek k

/-- The guest of slot `k` leaves IN_STEP (R328). -/
def State.guestLeave (s : State) (k : Nat) : State := (s.bumpIf ((s.slot k).state == 4) Reg.supOutOfStep).rewarm k

/-- A slot whose core is gone is vacant. -/
def State.vacate (s : State) (k : Nat) : State :=
  (s.shadowEnd k).setSlot k { core := none, state := 0 }

/-- The core that takes room `r` over does so now; its slot is vacant (R332, R333). -/
def State.rebindNext (s : State) (r : Nat) : State :=
  match (s.guarded r).next with
  | none => s
  | some c =>
    let s := match s.slotOfCore c with | some k => s.vacate k | none => s
    ((s.setGuarded r { s.guarded r with next := none }).bind r c).seekBoth

/-- A room takes a STATE; each change posts event 0xA001; a room that leaves RUN and STOPPING loses its guest, but a vote on it
goes on, and a core that was to take it over at its next trigger does so now (R291, R300, R328, R341). -/
def State.roomGo (s : State) (r new : Nat) : State :=
  let old := s.roomState r
  if old = new then s
  else
    let s := (s.wr (Reg.roomStatusState r) new).post 0xA001 4 [pack [(0, r), (8, new), (12, old)]]
    let s := match s.shadowOf r with
      | some k => if new = 2 || new = 3 then s else s.guestLeave k
      | none => s
    let s := if new = 2 || new = 3 then s else s.rebindNext r
    s.idleArm.seekBoth

/-- A core is fenced and runs its self-test at once (R332, R333). -/
def State.fence (s : State) (c : Nat) : State :=
  (s.bump Reg.supFences 1).setCore c { s.core c with service := 2, lost := true, counted := true }

/-- Event 0xB004 (R346). -/
def State.votePost (s : State) (r outcome fenced now : Nat) : State :=
  s.post 0xB004 7 [pack [(0, r), (5, outcome), (8, fenced), (13, now)]]

/-- The guest core of slot `k` takes room `r` over from the next trigger; the former core is fenced (R332, R333). -/
def State.takeover (s : State) (r k outcome : Nat) : State :=
  match (s.slot k).core, s.coreOf r with
  | some c, some f =>
    let s := ((s.bump Reg.supTakeovers 1).fence f).setGuarded r { s.guarded r with next := some c, held := false }
    s.votePost r outcome f c
  | _, _ => s

/-- The rotation swap of room `r`, where one is due: its guest's core backs it, the former core goes to the guest room and
self-tests (R339). -/
def State.rotate (s : State) (r : Nat) : State :=
  match s.inStep r with
  | none => s
  | some k =>
    if !(s.slot k).swap then s
    else
      match (s.slot k).core, s.coreOf r with
      | some c, some f =>
        let s := ((s.shadowEnd k).bind r c).bump Reg.supRotations 1
        let s := s.setSlot k { s.slot k with core := some f, state := 2 }
        let s := s.setCore f { s.core f with service := 2 }
        (s.post 0xB005 3 [pack [(0, r), (5, c), (10, f)]]).seekBoth
      | _, _ => s

/-- A room goes to FAULT: the block is stopped where it stands, the handler is left, loads that wait are written by their own
step (R289). -/
def State.roomFault (s : State) (r : Nat) : State :=
  let rm := s.room r
  let c := rm.core
  let s := s.setRoom r { rm with block := false, waiting := false, restoring := false
                                 core := { c.flush with inIrq := false, slots := 0, target := none, rti := false, rep := none,
                                                        hold := false } }
  let s := s.setGuarded r { s.guarded r with restore := none }
  if s.roomState r = 4 then s.rebindNext r
  else
    let s := (s.wr (Reg.roomStatusPcLast r) c.pc).bump (Reg.roomFaults r) 1
    (s.roomGo r 4).post 0xA003 6 [pack [(0, r), (16, c.pc)]]

/-- A room counter counts, for the room and for the guest room whose guest is IN_STEP with it (R299, R323). -/
def State.bumpRoom (s : State) (r : Nat) (f : Nat → Fld) : State :=
  let s := s.bump (f r) 1
  match s.inStep r with
  | some k => s.bump (f (s.fuse.guestRoom k)) 1
  | none => s

/-- A core that is to take a room over at its next trigger (R332, R333). -/
def State.promised (s : State) (c : Nat) : Bool := (List.range 18).any (fun r => (s.guarded r).next == some c)

/-- A slot whose core may be taken from its shadow: in service, not in a vote, not being loaded, not promised to a room (R331 to R333,
R336). -/
def State.slotFree (s : State) (k : Nat) : Bool :=
  match (s.slot k).core with
  | some c => (s.core c).service == 1 && !s.promised c && ((s.slot k).state == 1 || (s.slot k).state == 3 || (s.slot k).state == 4)
  | none => false

/-- The code of no core, as ROOM_GUARD_STATUS has it. -/
def noCore : Nat := 31

/-- Rooms left without a core take the core of a free guest slot (R322; DESIGN CHOICE, log entry 22). -/
def State.refit (s : State) : State :=
  s.each ((List.range 18).filter (fun r => s.coreOf r == some noCore)) fun s r =>
    match [0, 1].find? s.slotFree with
    | some k => match (s.slot k).core with | some g => (s.vacate k).bind r g | none => s
    | none => s

/-- A mismatch between room `r` and the guest of slot `k`: counted, posted, and put to the vote where the other guest core is free and
has not found a mismatch of its own (`both`) before a vote starts. The third core takes the state that the guest has kept of the
block's start (R329 to R332, R341). -/
def State.mismatch (s : State) (r k : Nat) (copied both : Bool) : State :=
  let o := 1 - k
  let w := pack [(0, r), (5, (s.coreOf r).getD 31), (10, (s.slot k).core.getD 31), (15, b2n copied)]
  let s := (s.bump Reg.supMismatches 1).post 0xB003 6 [w, (s.room r).bcnt]
  let s := s.setSlot k { s.slot k with swap := false }
  if s.slotFree o && s.guard.vote.isNone && !both then
    let s := (s.bump Reg.supVotes 1).shadowEnd o
    let s := s.setSlot o { s.slot o with state := 5, own := (s.room r).begun, junk := none }
    let s := s.setSlot k { s.slot k with state := 5 }
    let s := s.setGuarded r { s.guarded r with held := true }
    let s := { s with guard := { s.guard with vote := some { room := r, slot := k, bcnt := (s.room r).bcnt } } }
    s.guardNote r false true
  else ((s.bump Reg.supNoVote 1).votePost r 3 31 ((s.coreOf r).getD 31)).rewarm k

/-- The Supervisor begins to restore COLD room `r`: its block stops, and a core is taken (R336, R341). Without a snapshot the room
enters FAULT (DESIGN CHOICE, log entry 22). -/
def State.restoreTake (s : State) (r : Nat) : State :=
  if (s.guarded r).snap.isNone then s.roomFault r
  else if s.guard.vote.isSome then s.setGuarded r { s.guarded r with restore := some 31 }
  else
    match [0, 1].find? s.slotFree, s.coreOf r with
    | some k, _ =>
      let s := s.shadowEnd k
      let s := s.setSlot k { s.slot k with state := 6 }
      (s.setGuarded r { s.guarded r with restore := (s.slot k).core }).seekBoth
    | none, some f => (s.setCore f { s.core f with service := 2 }).setGuarded r { s.guarded r with restore := some f }
    | none, none => s

/-- The restore of room `r` begins (R336). -/
def State.restoreStart (s : State) (r : Nat) : State :=
  State.restoreTake (s.setRoom r { s.room r with restoring := true, block := false, waiting := false }) r

/-- Restores that waited for a vote go on (R341). -/
def State.restoreWaiting (s : State) : State :=
  s.each (List.range 18) fun s r => if (s.guarded r).restore = some 31 then s.restoreTake r else s

/-- The vote ends (R332): `agree` 0 with the active core, 1 with the first guest, 2 with neither. -/
def State.voteEnd (s : State) (v : Vote) (agree : Nat) : State :=
  let k := v.slot
  let o := 1 - k
  let active := (s.coreOf v.room).getD 31
  let s := { s with guard := { s.guard with vote := none } }
  let s := s.setGuarded v.room { s.guarded v.room with held := false }
  let s := s.setSlot o { s.slot o with state := 1 }
  let s :=
    match agree with
    | 0 =>
      let f := (s.slot k).core.getD 31
      ((s.fence f).vacate k).votePost v.room 0 f active
    | 1 => s.takeover v.room k 1
    | _ => ((s.bump Reg.supNoMajority 1).votePost v.room 2 31 active).rewarm k
  let s := if s.roomState v.room = 2 || s.roomState v.room = 3 then s else s.rebindNext v.room
  (s.refit.seekBoth).restoreWaiting

/-- VOTE_DONE: the third core has run the disputed block of room `r` (R331, R332). -/
def execVoteDone (r agree : Nat) (s : State) : Done :=
  .next (s.together fun s => match s.guard.vote with
    | some v => if v.room = r && agree < 3 then s.voteEnd v agree else s
    | none => s)

/-- A word of a core's memory reads with other bits than were written: the bits of `flip` (R333, R337). -/
def Core.damage (c : Core) (space addr flip : Nat) : Core :=
  match space with
  | 0 => { c with p := Sparse.put (fun _ => 0) c.p (addr % 8192) ((Sparse.get (fun _ => 0) c.p (addr % 8192) ^^^ flip) % 2 ^ 48) }
  | 1 => c.memPut false (addr % 16384) ((c.memRaw false (addr % 16384) ^^^ flip) % 2 ^ 32)
  | _ => c.memPut true (addr % 16384) ((c.memRaw true (addr % 16384) ^^^ flip) % 2 ^ 32)

/-- A parity error in the core that backs room `r` (R333, R336, R337, R341). -/
def State.parityRoom (s : State) (r space addr flip : Nat) : State :=
  let asRead := s.setRoom r { s.room r with core := (s.room r).core.damage space addr flip }
  let voting := match s.guard.vote with | some v => v.room == r && v.bcnt == (s.room r).bcnt | none => false
  if (s.guarded r).next.isSome || (s.room r).restoring then s
  else if voting then
    match s.guard.vote with
    | some v =>
      let s := { s with guard := { s.guard with vote := none } }
      let s := s.setSlot (1 - v.slot) { s.slot (1 - v.slot) with state := 1 }
      ((s.takeover r v.slot 4).seekBoth).restoreWaiting
    | none => s
  else
    match s.inStep r with
    | some k => s.takeover r k 4
    | none =>
      if s.isCold r then s.restoreStart r
      else if s.rd (Reg.roomGuardGuard r) = 0 then asRead.guardNote r true false
      else asRead

/-- PARITY_ERROR: a core reads a word with a parity error (R333, R336, R337; a room with GUARD 1 and no guest IN_STEP runs on
with the word as read, DEDUCED, log entry 22). -/
def execParityError (c space addr flip : Nat) (s : State) : Done :=
  .next (s.together fun s => if !s.fuse.hasRoom c then s
    else
      let s := s.bump Reg.supParityErrors 1
      if (s.core c).service != 1 then s
      else
        match s.roomOfCore c, s.slotOfCore c with
        | some r, _ => s.parityRoom r space addr flip
        | none, some k => if (s.slot k).state = 4 then s.guestLeave k else s
        | none, none => s)

/-- GUEST_WARMUP_DONE: a warm-up copy is complete; the guest is IN_STEP from the next block (R327). -/
def execGuestWarmupDone (k : Nat) (s : State) : Done :=
  .next (if k < 2 && (s.slot k).state = 3 && (s.slot k).left = 0 then s.setSlot k { s.slot k with ready := true } else s)

/-- A core begins its self-test (R340). -/
def State.selftest (s : State) (c : Nat) : State := s.setCore c { s.core c with service := 2 }

/-- ROTATE_PERIOD_EXPIRY: clean guests swap at their room's next trigger, unless a vote runs; an IDLE guest's core self-tests
(R338, R339, R341). -/
def execRotatePeriodExpiry (s : State) : Done :=
  .next (s.together fun s => s.each [0, 1] fun s k =>
    let g := s.slot k
    if g.state = 4 && s.on Reg.guestCfgRotateEn && 4096 ≤ g.clean && s.guard.vote.isNone then s.setSlot k { g with swap := true }
    else if g.state = 1 then
      match g.core with
      | some c => (s.selftest c).setSlot k { g with state := 2 }
      | none => s
    else s)

/-- A core in service that backs nothing goes to the lowest vacant guest room (R322, R344). -/
def State.place (s : State) (c : Nat) : State :=
  if (s.roomOfCore c).isSome || (s.slotOfCore c).isSome then s
  else
    match [0, 1].find? (fun k => (s.slot k).core.isNone) with
    | some k => s.setSlot k { core := some c, state := 1 }
    | none => s

/-- A core that is FENCED leaves what it backs: a guest room is vacant, a restore that needed it fails, and another room gets a free
guest core; where there is none it has no core, and one that runs goes to FAULT (R324, R336, R340; the last DESIGN CHOICE, log
entry 22). -/
def State.displace (s : State) (c : Nat) : State :=
  match s.slotOfCore c, s.roomOfCore c with
  | some k, _ => s.vacate k
  | none, some r =>
    let s := if (s.guarded r).restore = some c then s.roomFault r else s
    let s := (s.bind r noCore).refit
    if s.coreOf r = some noCore && (s.roomState r = 2 || s.roomState r = 3) then s.roomFault r else s
  | none, none => s

/-- SELFTEST_DONE: a core's self-test ends (R336, R340). What its memories hold in a guest room is free (log entry 3). -/
def execSelftestDone (c : Nat) (pass : Bool) (s : State) : Done :=
  .next (s.together fun s => if (s.core c).service != 2 || !s.fuse.hasRoom c then s
    else
      let h := s.core c
      let back := pass && (!h.lost || h.rejoin || s.on Reg.guestCfgAutoRejoin)
      let s := s.bump (if pass then Reg.supSelftestsPassed else Reg.supSelftestsFailed) 1
      let s := s.bumpIf (!pass && !h.counted) Reg.supFences
      let s := s.setCore c (if back then {} else { service := 3, lost := h.lost, counted := true })
      let s := s.post 0xB006 (if pass then 4 else 6) [pack [(0, c), (5, b2n pass)]]
      let s := match s.slotOfCore c with
        | some k =>
          if (s.slot k).state = 2 then
            { s.setSlot k { s.slot k with state := 1, own := {}, junk := some s.free } with free := s.free + 40960 }
          else s
        | none => s
      let s := if back then s.place c else s.displace c
      s.refit.seekBoth)

/-- A buffer is found for the next snapshot of room `r`: both of a room's, taken at its first; the older one, moved where
SNAP_DDR has changed (R335, R349, CELLAR_PART). `none`: no room. -/
def State.snapPlace (s : State) (r : Nat) : Option State :=
  let g := s.guarded r
  let ddr := s.on Reg.cellarPartSnapDdr
  let need := pagesOf ddr snapBytes
  let free := s.freeOf ddr s.snapFree
  match g.bufs with
  | a :: b :: _ =>
    if a = ddr then some s else if need ≤ free then some (s.setGuarded r { g with bufs := [ddr, b] }) else none
  | _ => if 2 * need ≤ free then some (s.setGuarded r { g with bufs := [ddr, ddr] }) else none

/-- The state of room `r` at a block boundary is what the snapshot takes (R335). -/
def State.snapBegin (s : State) (r : Nat) : State :=
  s.setGuarded r { s.guarded r with snapWant := false, snapTaking := some ((s.room r).core, s.rc) }

/-- SNAPSHOT_PERIOD: SNAP_PERIOD of room `r` passes; a COLD room's snapshot starts at a block boundary (R335). -/
def execSnapshotPeriod (r : Nat) (s : State) : Done :=
  .next (if !s.isCold r || s.fuse.isGuest r || !s.fuse.hasRoom r || (s.room r).restoring || (s.guarded r).snapTaking.isSome then s
    else
      match s.snapPlace r with
      | none =>
        if (s.guarded r).snap.isSome || (s.guarded r).noRoom then s
        else (s.setGuarded r { s.guarded r with noRoom := true }).guardNote r false false
      | some s =>
        let s := s.setGuarded r { s.guarded r with noRoom := false }
        if (s.room r).block || (s.room r).waiting then s.setGuarded r { s.guarded r with snapWant := true } else s.snapBegin r)

/-- SNAPSHOT_DONE: the snapshot of room `r` is complete in the older buffer (R335). -/
def execSnapshotDone (r : Nat) (s : State) : Done :=
  .next (s.together fun s => let g := s.guarded r
    match g.snapTaking with
    | none => s
    | some x =>
      let s := s.setGuarded r { g with snapTaking := none, snapOld := g.snap, snap := some x, bufs := g.bufs.reverse }
      let s := s.bump Reg.supSnapshots 1
      if g.snap.isNone then s.guardNote r false false else s)

/-- COLD_RESTORE_DONE: the snapshot is loaded into the core taken; room `r` restarts at its next trigger, and the former core
self-tests in the guest room (R336). The mailbox keeps its word (DEDUCED, log entry 22). -/
def execColdRestoreDone (r : Nat) (s : State) : Done :=
  .next (s.together fun s => let g := s.guarded r
    match g.restore, g.snap, s.coreOf r with
    | some c, some x, some f =>
      if c = 31 || (s.core c).service != 1 || !(s.room r).restoring then s
      else
        let rm := s.room r
        let core := { x.1.flush with mboxPend := rm.core.mboxPend, mbi := rm.core.mbi }
        let s := s.setRoom r { rm with core := core, restoring := false, mute := s.rd (Reg.roomCtrlStartMute r), blocks := []
                                       outs := [], skips := 0 }
        let s := s.setGuarded r { g with restore := none }
        let s := match s.slotOfCore c with
          | some k => (s.setSlot k { s.slot k with core := some f, state := 2 }).selftest f
          | none => s
        let s := (s.bind r c).bump Reg.supRestores 1
        (s.post 0xB008 6 [pack [(0, r), (5, c)], (s.rc - x.2) / 500000]).seekBoth
    | _, _, _ => s)

/-- The guest core of a self-compare: its slot reads SELFTEST (R449, R450). -/
def State.inTest (s : State) (c : Nat) : Bool := match s.dw with | some t => (s.slot t.slot).core == some c | none => false

/-- State checks of GUEST_CMD (R341, R344). A core in SELFTEST answers busy, and the guest core of a self-compare (R450). -/
def scGuestCmd (s : State) (n : Nat) : Status :=
  let c := field n 8 5
  if !s.fuse.hasRoom c then .absent
  else if (s.core c).service = 2 || s.inTest c then .busy
  else if field n 0 4 = 1 then (if (s.core c).service = 3 then .ok else .conflict)
  else
    match s.roomOfCore c, s.slotOfCore c with
    | some r, _ => if s.roomState r = 0 || s.roomState r = 4 then .ok else .conflict
    | none, some k => if 4 ≤ (s.slot k).state then .conflict else .ok
    | none, none => .ok

/-- GUEST_CMD is stored: 1 or 2, and core ARG self-tests (R344). A guest core that warms up leaves its shadow. -/
def applyGuestCmd (s : State) (n : Nat) : State :=
  let c := field n 8 5
  let s := match s.slotOfCore c with
    | some k => let s := s.shadowEnd k; s.setSlot k { s.slot k with state := 2 }
    | none => s
  (s.setCore c { s.core c with service := 2, rejoin := field n 0 4 == 1 }).seekBoth

/-- State checks of ROOM_GUARD (R334, ROOM_GUARD). -/
def scRoomGuard (s : State) (r n : Nat) : Status :=
  if s.fuse.isGuest r then .conflict
  else if (field n 2 1 != s.rd (Reg.roomGuardCbr r)) && s.roomState r != 0 && s.roomState r != 4 then .conflict
  else .ok

/-- ROOM_GUARD is stored: COLD clears; a guest leaves a room that is no candidate any more; buffers of a room that is COLD no
longer are freed (R328, R338, R349). -/
def applyRoomGuard (s : State) (r : Nat) (was2 : Bool) : State :=
  let wasCold := was2 || (s.guarded r).cold
  let g := { s.guarded r with cold := false, overruns := [] }
  let s := s.setGuarded r g
  let cold := s.isCold r
  let s := if cold then s else
    s.setGuarded r { g with bufs := [], noRoom := false, snap := none, snapOld := none, snapTaking := none, snapWant := false }
  let s := match s.shadowOf r with
    | some k => if s.rd (Reg.roomGuardGuard r) = 1 then s else (s.shadowEnd k).seek k
    | none => s
  let s := if cold = wasCold then s else s.guardNote r false false
  s.seekBoth

/-- GUEST_STATUS (R322). -/
def State.guestStatus (s : State) : Nat :=
  let one (k : Nat) : Nat := pack [(0, s.fuse.guestRoom k), (5, (s.slot k).shadow.getD 31), (10, (s.slot k).state)]
  one 0 + one 1 * 2 ^ 13

/-- CORE_STATUS (R324). -/
def State.coreStatus (s : State) : Nat :=
  pack ((List.range 18).map (fun c => (2 * c, if s.fuse.hasRoom c then (s.core c).service else 0)))

/-- ROOM_GUARD_STATUS (R322 to R339). -/
def State.roomGuardStatus (s : State) (r : Nat) : Nat :=
  let clean := match s.inStep r with | some k => (s.slot k).clean | none => 0
  let words := ((s.guarded r).words.filter (fun p => s.rc < p.1 + 500000000)).foldl (fun n p => max n p.2) 0
  pack [(0, (s.coreOf r).getD 31), (5, b2n (s.isCold r)), (6, b2n (s.inStep r).isSome), (7, b2n (s.snapOk r)),
    (8, sat16 clean), (24, min words 0x1FFFF)]

end Sys2Proof.Machine
end

