-- ==== Sys2Proof/Machine/Rooms.lean ====
section
/-! DEFINITION. The rooms against the host and the ticks: start and stop, loads, mailbox, fetch, triggers, blocks, and what the
output channels present (R32, R33, R264, R286 to R299, R325 to R330, R334). -/

namespace Sys2Proof.Machine

/-- What room `r`'s core reads of its room (R281). -/
def State.roomIo (s : State) (r : Nat) : RoomIo where
  n := s.blockLen r
  binfo := pack [(0, s.rd (Reg.roomCtrlBlock r)), (3, s.rd (Reg.roomCtrlOutLag r)),
    (8, s.rd (Reg.mdCtrlRate (s.rd (Reg.roomCtrlDomain r))))]

/-- A dumbwaiter self-compare runs on room `r` (R449). -/
def State.dwOn (s : State) (r : Nat) : Bool := match s.dw with | some t => t.room == r | none => false

/-- The room's core executes instructions: in RUN or STOPPING, not waiting for FAULT or a restore, or under a self-compare. -/
def State.roomLive (s : State) (r : Nat) : Bool :=
  let rm := s.room r
  s.dwOn r || ((s.roomState r == 2 || s.roomState r == 3) && !rm.restoring && s.coreOf r != some noCore && rm.skips < s.rd (Reg.roomCtrlSkipLimit r))

/-- The next tick a domain begins (R17, R40). -/
def State.nextTick (s : State) (d : Nat) : Nat := if (s.tick d).open_ then s.rd (Reg.tickCount d) + 1 else 0

/-- ROOM_CTRL: BLOCK up to 5, PHASE below N (ROOM_CTRL). -/
def vcRoomCtrl (n : Nat) : Bool := field n 5 3 ≤ 5 && field n 13 5 < 2 ^ field n 5 3

/-- The fields of ROOM_CTRL that may change at any time: ENABLE, START_MUTE, SKIP_LIMIT, MBO_POST (R294). -/
def roomFixed (n : Nat) : Nat := setField (setField n 0 1 0) 18 9 0

/-- State checks of ROOM_CTRL (R24, R294, R323, R450). -/
def scRoomCtrl (s : State) (r n : Nat) : Status :=
  let old := s.get (Reg.roomCtrlEnable r).key
  let st := s.roomState r
  let idle := st = 0 || st = 4
  let nd := domIf (bit n 2) (field n 3 2)
  let starts := bit n 0 && !bit old 0
  if s.fuse.isGuest r then .conflict
  else if (!idle && roomFixed old != roomFixed n) || s.moveBlocked (.room r) nd || (starts && s.dwOn r)
      || (starts && st = 0 && !(bit n 2 && s.running (field n 3 2))) then .conflict
  else .ok

/-- A room starts from OFF (R291, R292). -/
def State.roomStart (s : State) (r : Nat) : State :=
  let rm := s.room r
  let s := s.setRoom r { rm with ins := [], cur := [], block := false, waiting := false, started := false, blocks := [], outs := []
                                 mute := s.rd (Reg.roomCtrlStartMute r), skips := 0, instr := 0, bcnt := 0, judged := false }
  s.roomGo r (if s.on (Reg.roomCtrlStartMode r) then 1 else 2)

/-- ROOM_CTRL is stored: what ENABLE asks for; the second of R328 begins anew in another domain (R291, R293, R328). An ENABLE of 1 in STOPPING takes effect at the next tick. -/
def applyRoomCtrl (s : State) (r old : Nat) : State :=
  let s := if s.domainOf (.room r) = domIf (bit old 2) (field old 3 2) then s
    else s.setGuarded r { s.guarded r with overruns := [] }
  let en := s.on (Reg.roomCtrlEnable r)
  let st := s.roomState r
  if !en && st = 4 then s.roomGo r 0
  else if en = bit old 0 then s
  else if en then (if st = 0 then s.roomStart r else s)
  else if st = 2 && !(s.room r).started then (s.setRoom r { s.room r with waiting := false }).roomGo r 0
  else if st = 1 then s.roomGo r 0
  else if st = 2 then s.roomGo r 3
  else s

/-- A timed trigger with action 5 reaches room `r` (R85, R288, R291, R292, R294). -/
def State.roomRequest (s : State) (r : Nat) : State :=
  let d := s.rd (Reg.roomCtrlDomain r)
  let st := s.roomState r
  if (st = 1 || st = 2) && s.on (Reg.roomCtrlDomainValid r) && s.running d then
    let s := s.wr (Reg.roomCtrlPhase r) (s.nextTick d % s.blockLen r)
    if st = 1 then (s.setRoom r { s.room r with mute := s.rd (Reg.roomCtrlStartMute r) }).roomGo r 2 else s
  else s

/-- State checks of ROOM_ENTRY and of ROOM_CMD (R294, R298, R323). -/
def scRoomIdle (s : State) (r : Nat) : Status :=
  if s.fuse.isGuest r || (s.roomState r != 0 && s.roomState r != 4) then .conflict else .ok

/-- State check of ROOM_MBOX_IN (R323). -/
def scRoomMbox (s : State) (r : Nat) : Status := if s.fuse.isGuest r then .conflict else .ok

/-- The host's mailbox word (R286). -/
def applyRoomMbox (s : State) (r w : Nat) : State :=
  let rm := s.room r
  let s := s.bumpIf rm.core.mboxPend (Reg.roomMboxOverwrite r)
  s.setRoom r { rm with core := { rm.core with mbi := w, mboxPend := true } }

/-- ROOM_CMD 1: every register of both sets, ICTL with its IN_IRQ and MBOX_PEND, IPC and IOP are 0 (R298). -/
def applyRoomCmd (s : State) (r : Nat) : State :=
  let rm := s.room r
  s.setRoom r { rm with core := { rm.core.flush with regs := [], inIrq := false, mboxPend := false } }

/-- The words of a space (R261). -/
def spaceSize (space : Nat) : Nat := if space = 0 then 8192 else 16384

/-- Bytes of a word of a space, as loads and fetches carry it. -/
def wordBytes (space : Nat) : Nat := if space = 0 then 6 else 4

/-- A ROOM_LOAD taken apart: SPACE, FORMAT, ADDR, COUNT, reserved bits (R295). -/
def loadHead (l : List Byte) : Nat × Nat × Nat × Nat × Nat :=
  let a := beNat (l.take 4)
  let b := beNat ((l.drop 4).take 4)
  (field a 0 2, field a 8 8, field a 16 14, field b 0 11, field a 2 6 + field a 30 2 + field b 11 21)

/-- ROOM_LOAD in range (R295, R320). -/
def vcRoomLoad (l : List Byte) : Bool :=
  let (space, fmt, addr, count, rest) := loadHead l
  8 ≤ l.length && rest == 0 && space != 3 && fmt == 1 && 1 ≤ count && count ≤ 1024 && addr + count ≤ spaceSize space
    && !(space == 1 && 0x3F00 < addr + count) && l.length == 8 + count * wordBytes space

/-- State checks of ROOM_LOAD (R295, R323). -/
def scRoomLoad (s : State) (r : Nat) (l : List Byte) : Status :=
  if s.fuse.isGuest r || ((loadHead l).1 = 0 && s.roomState r != 0 && s.roomState r != 4) then .conflict else .ok

/-- Words written from an address on. -/
def writeWords (m : Sparse Nat) (a : Nat) : List Nat → Sparse Nat
  | [] => m
  | w :: r => writeWords (Sparse.put (fun _ => 0) m a w) (a + 1) r

/-- A load is written (R296). -/
def Core.load (c : Core) (x : RoomLoad) : Core :=
  match x.space with
  | 0 => { c with p := writeWords c.p x.addr x.words }
  | 1 => { c with x := writeWords c.x x.addr x.words }
  | _ => { c with y := writeWords c.y x.addr x.words }

/-- The load that a ROOM_LOAD carries. -/
def roomLoadOf (l : List Byte) : RoomLoad :=
  let (space, _, addr, count, _) := loadHead l
  { space := space, addr := addr
    words := (List.range count).map (fun i => beNat (((l.drop (8 + i * wordBytes space))).take (wordBytes space))) }

/-- Loads that waited are written between two blocks (R296). -/
def Room.writeLoads (rm : Room) : Room := { rm with core := rm.loads.foldl Core.load rm.core, loads := [] }

/-- The link words of a load (R326, R327). -/
def RoomLoad.links (x : RoomLoad) : Nat := if x.space = 0 then (3 * x.words.length + 1) / 2 else x.words.length

/-- The words of loads written into room `r`'s core go to a guest that warms up as well, again where they had been copied (R327). -/
def State.guestLoad (s : State) (r : Nat) (l : List RoomLoad) : State :=
  match s.shadowOf r with
  | some k =>
    let g := s.slot k
    if g.state = 3 then s.setSlot k { g with left := min warmWords (g.left + (l.map RoomLoad.links).sum), ready := g.ready && l.isEmpty }
    else s
  | none => s

/-- A load is accepted: written at once, or held until END where a block runs (R296). -/
def applyRoomLoad (s : State) (r : Nat) (l : List Byte) : State :=
  let rm := s.room r
  if rm.block && (s.roomState r = 2 || s.roomState r = 3) then
    (s.bumpRoom r Reg.roomHostDeferred).setRoom r { rm with loads := rm.loads ++ [roomLoadOf l] }
  else
    (s.setRoom r { rm with core := rm.writeLoads.core.load (roomLoadOf l), loads := [] }).guestLoad r (rm.loads ++ [roomLoadOf l])

/-- ROOM_LOAD_DEFERRED_WRITE: loads that waited for END are written (R296). -/
def execRoomLoadDeferredWrite (r : Nat) (s : State) : Done :=
  .next (if (s.room r).block then s else (s.setRoom r (s.room r).writeLoads).guestLoad r (s.room r).loads)

/-- ROOM_FETCH_ADDR in range. -/
def vcRoomFetchAddr (n : Nat) : Bool := field n 0 2 != 3 && field n 8 14 + field n 22 9 ≤ spaceSize (field n 0 2)

/-- One word as a fetch returns it (R297). -/
def Room.fetchWord (rm : Room) (io : RoomIo) (space a : Nat) : Nat :=
  if space = 0 then Sparse.get (fun _ => 0) rm.core.p a
  else if space = 1 && 0x3F00 ≤ a then { rm with core := rm.core.flush }.winRead io (a - 0x3F00)
  else rm.core.memRaw (space == 2) a

/-- The room whose state the core of guest slot `k` holds: the one it shadows, or the one it is compared with (R323, R449). -/
def State.shown (s : State) (k : Nat) : Option Nat :=
  match s.dw with
  | some t => if t.slot = k then some t.room else (s.slot k).shadow
  | none => (s.slot k).shadow

/-- ROOM_FETCH: the words that ROOM_FETCH_ADDR names; of a guest room, those of the core that backs it (R297, R323). -/
def State.roomFetch (s : State) (r : Nat) : List Byte :=
  let space := s.rd (Reg.roomFetchAddrSpace r)
  let word (a : Nat) : Nat :=
    match s.fuse.guestSlot r with
    | none => (s.room r).fetchWord (s.roomIo r) space a
    | some k =>
      let g := s.slot k
      match g.core, s.shown k, g.junk with
      | none, _, _ => 0
      | some _, some x, _ => (s.room x).fetchWord (s.roomIo x) space a
      | some _, none, some j => Config.freeNat (j + space * 16384 + a) % 2 ^ (8 * wordBytes space)
      | some _, none, none => Room.fetchWord { core := g.own } {n := 0, binfo := 0} space a
  (List.range (s.rd (Reg.roomFetchAddrCount r))).flatMap
    (fun i => natBe (wordBytes space) (word (s.rd (Reg.roomFetchAddrAddr r) + i)))

/-- ROOM_STATUS with what the core shows; a guest room reads OFF and GUEST (R322, R323, ROOM_STATUS). -/
def State.roomStatus (s : State) (r : Nat) : Nat :=
  let v := s.get (Reg.roomStatusState r).key
  if s.fuse.isGuest r then setField v 21 1 1
  else
    let rm := s.room r
    setField (setField (setField v 3 1 (b2n rm.block)) 4 1 (b2n rm.core.inIrq)) 6 1 (b2n rm.core.mboxPend)

/-! Blocks. -/

/-- A guest that has warmed up is IN_STEP with the block that starts (R327). -/
def State.guestBlock (s : State) (r : Nat) : State :=
  match s.shadowOf r with
  | some k =>
    let g := s.slot k
    if g.state = 3 && g.ready then
      (s.setSlot k { g with state := 4, ready := false, clean := 0 }).guardNote r false true
    else s
  | none => s

/-- The words that room `r`'s handler wrote since the last END go to a guest that warms up, again where they had been copied (R327). -/
def State.guestStored (s : State) (r : Nat) : State :=
  match s.shadowOf r with
  | some k =>
    let g := s.slot k
    let n := (s.room r).written.length
    if g.state = 3 && 0 < n then s.setSlot k { g with left := min warmWords (g.left + n), ready := false } else s
  | none => s

/-- A block starts (R287, R296, R299, R313). `hold`: after RTI (R285). -/
def State.roomBegin (s : State) (r : Nat) (hold : Bool) : State :=
  let loads := (s.room r).loads
  let s := s.guestStored r
  let rm := (s.room r).writeLoads
  let s := (s.setRoom r (rm.start (s.rd (Reg.roomEntryEntry r)) hold)).guestLoad r loads
  (s.guestBlock r).bumpRoom r Reg.roomBlocksRun

/-- The inputs of a block of N ticks by position: those of the ticks before the start are zeros (R264). -/
def blockInputs (ins : List (Sparse Nat)) (n : Nat) : List (Sparse Nat) :=
  List.replicate (n - ins.length) [] ++ (ins.take n).reverse

/-- A trigger of room `r` in tick `n` of its domain finds a block running or waiting: the new block is skipped, and by an IN_STEP guest
too; its slack is 0 and it is late (R36, R45, R47, R289). -/
def State.roomSkip (s : State) (d r n : Nat) : State :=
  let rm := s.room r
  let s := s.blockResult r 0 true
  let s := match s.inStep r with | some k => s.blockWindow d (s.fuse.guestRoom k) 0 true | none => s
  let s := (s.bumpRoom r Reg.roomBlocksSkipped).dlMiss d 2 r
  s.setRoom r { rm with skips := rm.skips + 1, blocks := { t0 := n, ran := false, muted := rm.mute != 0 } :: rm.blocks }

/-- A trigger of room `r` in tick `n` of its domain `d` (R287, R289, R332, R339, R477). -/
def State.roomTrigger (s : State) (d r n : Nat) : State :=
  let s := (s.rebindNext r).rotate r
  let rm := s.room r
  if rm.restoring then s
  else if rm.block || rm.waiting then s.roomSkip d r n
  else
    let rm := { rm with skips := 0 }
    if s.roomState r != 2 then s.setRoom r rm
    else
      let len := s.blockLen r
      let rm := { rm with cur := blockInputs rm.ins len, mute := rm.mute - 1, judged := false, due := n + len
                          blocks := { t0 := n, ran := true, muted := rm.mute != 0 } :: rm.blocks }
      if rm.core.inIrq then s.setRoom r { rm with waiting := true } else (s.setRoom r rm).roomBegin r false

/-- ROOM_FAULT: SKIP_LIMIT triggers in a row were skipped; the room stops in FAULT (R289). -/
def State.faultDue (s : State) (r : Nat) : State :=
  if (s.roomState r = 2 || s.roomState r = 3) && s.rd (Reg.roomCtrlSkipLimit r) ≤ (s.room r).skips then s.roomFault r else s

/-- A cancelled stop of room `r` ends with the tick that begins: RUN again, and no START_MUTE (R291, R293). -/
def State.roomResume (s : State) (r : Nat) : State :=
  if s.roomState r = 3 && s.on (Reg.roomCtrlEnable r) then
    let rm := s.room r
    (s.setRoom r { rm with mute := 0, blocks := rm.blocks.map (fun b => { b with muted := false }) }).roomGo r 2
  else s

/-- Room `r` after stage 2 of tick `n` of its domain: the inputs of the tick, a trigger (R264, R287). -/
def State.roomTick (s : State) (d r n : Nat) : State :=
  let st := s.roomState r
  if !(st = 2 || st = 3) then s
  else
    let rm := s.room r
    let base := 0x20000 + r * 128
    let now : Sparse Nat := (s.path.sink.filter (fun p => base ≤ p.1 && p.1 < base + 128)).map
      (fun (p : Nat × Nat) => (p.1 - base, p.2))
    let s := s.setRoom r { rm with ins := (now :: rm.ins).take 32 }
    if n % s.blockLen r = s.rd (Reg.roomCtrlPhase r) then s.roomTrigger d r n else s

/-- The ticks from a trigger to the tick that reads position 0 (R32, R334). -/
def State.roomLag (s : State) (r : Nat) : Nat := 2 + s.rd (Reg.roomCtrlOutLag r) + s.rd (Reg.roomGuardCbr r)

/-- The rooms of domain `d`. -/
def State.roomsIn (s : State) (d : Nat) : List Nat := (List.range 18).filter (fun r => s.domainOf (.room r) == some d)

/-- Room `r` after stage 4 of tick `n`: blocks fully read are dropped; a stopping room whose last position has been read is OFF
(R291). -/
def State.roomAfter (s : State) (r n : Nat) : State :=
  let rm := s.room r
  let keep := rm.blocks.filter (fun b => n < b.t0 + s.roomLag r + s.blockLen r - 1 || (b.ran && (rm.block || rm.waiting)))
  let s := if keep = rm.blocks then s else s.setRoom r { rm with blocks := keep }
  if s.roomState r = 3 && !s.on (Reg.roomCtrlEnable r) && !rm.block && !rm.waiting && !(keep.any (·.ran)) then s.roomGo r 0
  else s

/-- How the output channels of a room present in a tick. -/
inductive Shown where
  | zero | last | held | late | pos (b : Block) (k : Nat)

/-- What falls due for room `r` in tick `n` (R32, R33, R289, R292, R330, R334). `unchecked`: the comparison of the position is not
complete. -/
def State.roomDue (s : State) (r n : Nat) (unchecked : Bool) : Shown :=
  let rm := s.room r
  let st := s.roomState r
  let lag := s.roomLag r
  let len := s.blockLen r
  if !(st = 2 || st = 3) || rm.restoring || n < lag then .zero
  else
    match rm.blocks.find? (fun b => b.t0 ≤ n - lag && n - lag < b.t0 + len) with
    | none => .zero
    | some b =>
      let k := n - lag - b.t0
      if b.muted && st = 2 then .zero
      else if !b.ran then (if st = 2 then .last else .zero)
      else if (s.guarded r).held then .held
      else if k < b.released && !(unchecked && s.on (Reg.roomGuardCbr r) && (s.inStep r).isSome) then .pos b k
      else .late

/-- The output channels of room `r` that sinks or the recorder name. -/
def State.roomNamed (s : State) (r : Nat) : List Nat :=
  let codes := s.patched.map s.source
    ++ (if s.rd Reg.recCfgMode = 1 then (List.range (s.rd Reg.recCfgChannels)).map (fun c => s.rd (Reg.recSrcSource c)) else [])
  (codes.filterMap (fun c => match decodeSrc c with | some x => if x.cls = 3 && x.unit = r then some x.ch else none | none => none)).eraseDups

/-- At the start of stage 2 of tick `n`: the named output channels of room `r` take the values they present in it, and a position
read unreleased or held counts, once for the tick (R19, R33, R330). -/
def State.roomPresent (s : State) (d r n : Nat) (unchecked : Bool) : State :=
  let named := s.roomNamed r
  if named.isEmpty then s
  else
    let rm := s.room r
    let show_ (f : Nat → Nat) : State :=
      s.setRoom r { rm with outs := named.foldl (fun m c => Sparse.put (fun _ => 0) m c (f c)) rm.outs }
    match s.roomDue r n unchecked with
    | .zero => show_ (fun _ => 0)
    | .last => s
    | .held => s.bump Reg.supHeldPositions 1
    | .late => (s.bump (Reg.roomPosUnreleased r) 1).dlMiss d 1 r
    | .pos b k => show_ (fun c => Sparse.get (fun _ => 0) b.vals (k * 128 + c))

/-- What output channel `ch` of room `r` presents in the tick in progress. -/
def State.roomOut (s : State) (r ch : Nat) : Nat := Sparse.get (fun _ => 0) (s.room r).outs ch

/-- The shadow run of a block of room `r` by the guest of slot `k`: ROOM_LAST of the guest room, and its slack, unless it has been judged
late with the room's (R45, R47, R323). -/
def State.guestRan (s : State) (d r k : Nat) (w : EndWork) : State :=
  let gr := s.fuse.guestRoom k
  let rm := s.room r
  let s := (s.wr (Reg.roomLastInstr gr) (min rm.instr 0xFFFFFFFF)).wr (Reg.roomLastBcnt gr) rm.bcnt
  if rm.judged then s else s.blockWindow d gr w.guestSlack w.guestLate

/-- The dumbwaiter's part of a block's end (R326 to R329, R345, R347): `words` link words written in the block of `n` ticks. -/
def State.guestEnd (s : State) (r n words : Nat) (w : EndWork) : State :=
  match s.shadowOf r with
  | none => s
  | some k =>
    let g := s.slot k
    let budget := 2048 * n
    let d := s.rd (Reg.roomCtrlDomain r)
    let now : Int := s.rd (Reg.tickCount d)
    let s := if g.state = 4 then s.guestRan d r k w else s
    if budget < words then
      let s := s.bump Reg.supBudgetOverruns 1
      let gd := s.guarded r
      let runs := now :: gd.overruns.filter (fun t => now < t + (s.domRate d : Nat))
      if 4 ≤ runs.length then
        let s := s.setGuarded r { gd with cold := true, overruns := [] }
        let s := (s.bumpIf (g.state == 4) Reg.supOutOfStep).shadowEnd k
        (s.guardNote r false false).seek k
      else
        let s := s.setGuarded r { gd with overruns := runs }
        if g.state = 4 then s.guestLeave k
        else s.setSlot k { g with left := min warmWords (g.left + words - budget), ready := false }
    else if g.state = 3 then s.setSlot k { g with left := g.left + words - budget, ready := g.ready && g.left + words ≤ budget }
    else
      if (s.guarded r).next.isSome then s
      else if w.behind then s.guestLeave k
      else
        match w.differ with
        | some copied => s.mismatch r k copied w.both
        | none => s.setSlot k { g with clean := sat16 (g.clean + n) }

/-- A block takes its place among those that may set WORDS_MAX (ROOM_GUARD_STATUS). -/
def State.noteWords (s : State) (r words : Nat) : State :=
  let g := s.guarded r
  s.setGuarded r { g with words := (s.rc, words) :: g.words.filter (fun p => s.rc < p.1 + 500000000 && words < p.2) }

/-- The end of room `r`'s block at the END at `pc` (R45, R265, R287, R319, R326, R335). -/
def State.roomEnd (s : State) (r pc : Nat) (w : EndWork) : State :=
  let len := s.blockLen r
  let rm := s.room r
  let words := 64 + rm.written.length
  let s := s.wr (Reg.roomStatusPcLast r) pc
  let s := (s.wr (Reg.roomLastInstr r) (min rm.instr 0xFFFFFFFF)).wr (Reg.roomLastBcnt r) rm.bcnt
  let s := s.setRoom r { rm.onCurrent (fun b => { b with released := len }) with block := false }
  let s := if rm.judged then s else s.blockResult r w.slack w.late
  let s := (s.noteWords r words).guestEnd r len words w
  let s := s.setRoom r { s.room r with instr := 0, written := [] }
  if (s.guarded r).snapWant then s.snapBegin r else s

end Sys2Proof.Machine
end

