-- ==== Sys2Proof/Machine/Tdm.lean ====
section
/-! DEFINITION. The TDM ports: formats, slot positions, masks, the states of a side, the pairing of TDM frames with ticks, and
slips (R199 to R227, R444, R445). A side is numbered `b`: 0 transmit, 1 receive. -/

namespace Sys2Proof.Machine

/-- Side `b` of port `p` beside its entries. -/
def State.side (s : State) (p b : Nat) : TdmSide := Sparse.get (fun _ => {}) s.tdm.sides (p * 2 + b)

/-- The state with a side replaced. -/
def State.setSide (s : State) (p b : Nat) (x : TdmSide) : State :=
  { s with tdm := { s.tdm with sides := Sparse.put (fun _ => {}) s.tdm.sides (p * 2 + b) x } }

/-- STATE of a side. -/
def State.sideState (s : State) (p b : Nat) : Nat := s.rd (Reg.sideStatusState p b)

/-- FRAME_BCLKS by FRAME_CODE (R205). -/
def frameBclks (code : Nat) : Nat := [16, 32, 48, 64, 96, 128, 192, 256, 384, 512, 768, 1024].getD code 1024

/-- The rate of a port's sides, where it has one (R205). -/
def State.portRate (s : State) (p : Nat) : Option Nat :=
  if s.on (Reg.tdmPortCfgAsync p) then some (rateHz (s.rd (Reg.tdmPortCfgAsyncRate p)))
  else if s.on (Reg.tdmPortCfgDomainValid p) then some (s.domRate (s.rd (Reg.tdmPortCfgDomain p)))
  else none

/-- The bit clock limits of R205 and R206 for a frame length, a slot width and a rate. -/
def bclkOk (bclks w rate : Nat) : Bool := bclks * rate ≤ (if w < 12 then 40000000 else 50000000)

/-- The bit clock of a CTRL value stays within its limit at a rate, where there is one (R205). -/
def ctrlBclkOk (ctrl : Nat) (rate : Option Nat) : Bool :=
  match rate with
  | some r => bclkOk (frameBclks (field ctrl 7 4)) (field ctrl 11 6) r
  | none => true

/-- The bit period at which slot `k` begins under a CTRL value (R202). -/
def slotStart (ctrl k : Nat) : Nat :=
  let f := frameBclks (field ctrl 7 4)
  match field ctrl 3 2 with
  | 0 => k * f / 2 + 1 + field ctrl 23 6
  | 1 => k * f / 2 + field ctrl 23 6
  | _ => field ctrl 23 6 + k * field ctrl 11 6

/-- The last slot of a side that a mask enables, on either lane; the last of SLOTS where it enables none (DEDUCED, log entry
18). -/
def lastSlot (mask slots : Nat) : Nat :=
  match (List.range 32).reverse.find? (fun k => bit mask k || bit mask (k + 32)) with
  | some k => k
  | none => slots - 1

/-- The bits of a slot value that a slot of width `w` carries: [31:32−W], zeros below (R204). -/
def slotTrunc (w v : Nat) : Nat := v % 2 ^ 32 / 2 ^ (32 - w) * 2 ^ (32 - w)

/-- A mask has no bit for a slot beyond SLOTS on either lane (R215). -/
def maskFits (mask slots : Nat) : Bool := mask % 2 ^ 32 < 2 ^ slots && mask / 2 ^ 32 < 2 ^ slots

/-- A lane is driven: the side has its clocks and the lane has an enabled slot (R213, R218). -/
def State.laneDriven (s : State) (p lane : Nat) : Bool :=
  3 ≤ s.sideState p 0 && field (s.rd (Reg.maskActiveMask p 0)) (32 * lane) 32 != 0

/-- The bit that values `l` of a lane put into bit period `i` of the frame they are sent in under a CTRL value: the slots most
significant bit first, 0 in a bit period of no slot (R202, R203, R204). -/
def slotBits (ctrl : Nat) (l : List Nat) (lane i : Nat) : Bool :=
  (List.range (field ctrl 17 6)).any fun k =>
    let a := slotStart ctrl k
    a ≤ i && i < a + field ctrl 11 6 && bit (l.getD (32 * lane + k) 0) (31 - (i - a))

/-- What transmit lane `lane` of port `p` carries in bit period `i` of the frame in progress: `none` tri-stated; the slots of the frame,
and what the slots of the frames before, as far back as OFFSET reaches, have left over; 0 in the extra bit periods of a frame whose
end comes late (R203, R204, R213, R218, R222). -/
def State.laneOut (s : State) (p lane i : Nat) : Option Bool :=
  let ctrl := s.get (Reg.sideCtrlEnable p 0).key
  let f := frameBclks (field ctrl 7 4)
  if s.laneDriven p lane then
    let sent := (s.side p 0).vals :: (s.side p 0).prev
    some (i < f && (List.range sent.length).any fun j => slotBits ctrl (sent.getD j []) lane (i + j * f))
  else none

/-- The frame sync's level in bit period `i` under a CTRL value: 50 % duty, low first, in I2S, high first left-justified; high for bit
period 0 in short-sync TDM; FS_POL inverts it (R202). -/
def fsLevel (ctrl i : Nat) : Bool :=
  let first := 2 * i < frameBclks (field ctrl 7 4)
  let high := match field ctrl 3 2 with | 0 => !first | 1 => first | _ => i == 0
  high != bit ctrl 6

/-- Whether the frame start edge rises under a CTRL value: in every format but I2S, FS_POL inverting it (R202). -/
def fsRises (ctrl : Nat) : Bool := (field ctrl 3 2 != 0) != bit ctrl 6

/-- What a master side drives on its FS ball in bit period `i` of a frame: low while its clocks do not run; a slave's ball is an input
(R207, R208). -/
def State.fsBall (s : State) (p b i : Nat) : Option Bool :=
  if s.on (Reg.sideCtrlMaster p b) then
    some (s.on (Reg.sideStatusLocked p b) && fsLevel (s.get (Reg.sideCtrlEnable p b).key) i)
  else none

/-- What a master side drives on its BCLK ball in the first or the second half of a bit period, which begins with the driving edge: low
while its clocks do not run; a slave's ball is an input (R207, R208; BCLK_POL). -/
def State.bclkBall (s : State) (p b : Nat) (second : Bool) : Option Bool :=
  if s.on (Reg.sideCtrlMaster p b) then
    some (s.on (Reg.sideStatusLocked p b) && second != s.on (Reg.sideCtrlBclkPol p b))
  else none

/-- A pending commit applies (R212). -/
def State.applyCommit (s : State) (p b : Nat) : State :=
  match (s.side p b).commit with
  | some m =>
    let s := ((s.wr (Reg.maskActiveMask p b) m).wr (Reg.sideStatusCommitPending p b) 0).bump (Reg.sideMaskCommits p b) 1
    s.setSide p b { s.side p b with commit := none }
  | none => s

/-- A side's STATE changes, with event 0x5001 (R216, R227). In OFF, ARMED and SYNC a pending commit applies, nothing is
presented and no pairing stands (R212, R218); a candidate that took the side's frame sync may lose it (R224). -/
def State.sideGo (s : State) (p b new : Nat) : State :=
  let old := s.sideState p b
  if old = new then s
  else
    let s := (s.wr (Reg.sideStatusState p b) new).post 0x5001 4 [pack [(0, p), (6, b), (8, new), (12, old)]]
    let s := if new = 3 ∨ new = 4 then s else s.wr (Reg.sideStatusPhaseValid p b) 0
    let s := if new < 3 then
        let s := (s.applyCommit p b).wr (Reg.sideStatusLocked p b) 0
        (s.setSide p b { last := if new = 2 then (s.side p b).last else none }).setSideSlew (p * 2 + b) {}
      else s.setSide p b { s.side p b with begun := 0, resume := false }
    if b = 1 then s.signalFail else s

/-- The phase in ns (a fraction) of the pairing that R31 gives side `b` of a port in a domain: of a master from FS_DELAY (R208),
of a slave from its last frame start edge and its domain's last tick edge, at the nominal rate (R211; DEDUCED, log entry 18). Where
R31's pairing puts it outside 0 to 1 tick it is given as it falls, a negative one as 0 (DESIGN CHOICE, log entry 18).
`f` bit clocks a frame, `bitN` the last bit of a receive side, `rate` the domain's rate. -/
def State.pairPhase (s : State) (p b f bitN rate : Nat) : Nat × Nat :=
  if s.on (Reg.sideCtrlMaster p b) then
    let gap := f * rate
    let tick := 10000000 * f
    let start := 10000000 * s.rd (Reg.sideTimingFsDelay p b)
    if b = 0 then ((if gap ≤ start then start else start + tick) * 100, gap)
    else ((ceilDiv (start + (2 * bitN + 1) * 5000000 + gap) tick * tick - start - tick) * 100, gap)
  else
    let x := ((s.side p b).last.getD 0 - (s.tick (s.rd (Reg.tdmPortCfgDomain p))).edge) * f * rate
    let tick := 2000000000 * f
    let gap := 200 * f * rate
    if b = 0 then ((if gap ≤ x then x else x + tick), 2 * f * rate)
    else (ceilDiv (x + (2 * bitN + 1) * 1000000000 + gap) tick * tick - x - tick, 2 * f * rate)

/-- The pairing of a side is chosen, and its phase reported (R31, R210, R211): R210's exact case for a master at the tick edge,
judged with the mask as it stands (DEDUCED, log entry 18). -/
def State.pair_ (s : State) (p b : Nat) : State :=
  let ctrl := s.get (Reg.sideCtrlEnable p b).key
  let f := frameBclks (field ctrl 7 4)
  let k := lastSlot (s.rd (Reg.maskActiveMask p b)) (field ctrl 17 6)
  let bitN := slotStart ctrl k + field ctrl 11 6 - 1
  let rate := (s.portRate p).getD 48000
  let dom := s.on (Reg.tdmPortCfgDomainValid p) && !s.on (Reg.tdmPortCfgAsync p)
  let inTime := (2 * bitN + 1) * 1000000000 ≤ 800 * f * rate + 2 * f * 1000000000
  let exact := bit ctrl 2 && dom && s.rd (Reg.sideTimingFsDelay p b) == 0 && (b == 0 || inTime)
  let ph := if exact then (0, 1) else s.pairPhase p b f bitN rate
  let s := if dom then (s.wr (Reg.sidePhasePhase p b) (nearest ph)).wr (Reg.sideStatusPhaseValid p b) 1 else s
  s.setSide p b { s.side p b with exact := exact, lastBit := bitN, paired := false, moved := false, frames := [], launches := [] }

/-- The conditions for a start of side `b` of port `p` with CTRL value `n` (R217, R225, R445). -/
def State.sideStartOk (s : State) (p b n : Nat) : Bool :=
  let same := [(3, 2), (5, 1), (6, 1), (7, 4), (11, 6), (17, 6), (23, 6)]
  let tx := s.get (Reg.sideCtrlEnable p 0).key
  (s.on (Reg.tdmPortCfgAsync p) || (s.on (Reg.tdmPortCfgDomainValid p) && s.running (s.rd (Reg.tdmPortCfgDomain p))))
    && s.on (Reg.bankStatusVolt (p / 12))
    && !(b == 1 && 2 ≤ s.rd (Reg.tdmLoopMode p) && (bit n 2 || same.any fun f => field n f.1 f.2 != field tx f.1 f.2))

/-- The bit clocks in which a frame of a master side follows its tick edge, and the bit clocks of a frame (R208). -/
def State.frameLag (s : State) (p b : Nat) : Nat × Nat :=
  (s.rd (Reg.sideTimingFsDelay p b), frameBclks (s.rd (Reg.sideCtrlFrameCode p b)))

/-- The point of quarter counts at which a master side's next frame starts: FS_DELAY bit clocks after its tick edge, off by what its
frame sync still has to slew; on an asynchronous port a period of ASYNC_RATE, from RC's own oscillator, after the one before (R117,
R208). -/
def State.frameEdge (s : State) (p b : Nat) : Nat :=
  let x := s.side p b
  if s.on (Reg.tdmPortCfgAsync p) then
    x.origin + ceilDiv (x.nextFrame.toNat * 2000000000) (rateHz (s.rd (Reg.tdmPortCfgAsyncRate p)))
  else
    let l := s.frameLag p b
    let q := s.gridAt (s.rd (Reg.tdmPortCfgDomain p)) (x.nextFrame * l.2 + l.1) l.2
    (q + x.slew.left s.slewMax q / 32768).toNat

/-- The tick whose frame start edge is the first of a master side in a domain after now (R208, R217). -/
def State.firstFrame (s : State) (p b : Nat) : Int :=
  let l := s.frameLag p b
  (s.dpllNow * s.domRate (s.rd (Reg.tdmPortCfgDomain p)) * l.2 - l.1 * secondU) / (l.2 * secondU) + 1

/-- A side starts: a slave in SYNC; a master in LEAD with its pairing chosen, its clocks to run from the first frame start edge after
the request, or on an asynchronous port at once (R216, R217). -/
def State.sideStart (s : State) (p b : Nat) : State :=
  if s.on (Reg.sideCtrlMaster p b) then
    let s := (s.sideGo p b 3).pair_ p b
    let async := s.on (Reg.tdmPortCfgAsync p)
    let s := s.setSide p b { s.side p b with nextFrame := if async then 0 else s.firstFrame p b, origin := 4 * s.rc }
    s.flag (Reg.sideStatusLocked p b) async
  else s.sideGo p b 2

/-- A start request from a timed trigger: an ARMED side starts, if it may (R85, R217). -/
def State.sideRequest (s : State) (p b : Nat) : State :=
  if s.sideState p b = 1 && s.sideStartOk p b (s.get (Reg.sideCtrlEnable p b).key) then s.sideStart p b else s

/-- The range checks of SIDE_CTRL that follow from the value alone (R202, R203, R205). -/
def vcSideCtrl (n : Nat) : Bool :=
  let f := frameBclks (field n 7 4)
  let w := field n 11 6
  field n 3 2 ≤ 2 && field n 7 4 ≤ 11 && 8 ≤ w && w ≤ 32 && 1 ≤ field n 17 6 && field n 17 6 ≤ 32
    && (if field n 3 2 = 2 then field n 17 6 * w ≤ f else field n 17 6 = 2 && w ≤ f / 2)

/-- The state checks of a SET of SIDE_CTRL (R203, R205, R206, R215, R217, R220). -/
def scSideCtrl (s : State) (p b n : Nat) : Status :=
  let old := s.get (Reg.sideCtrlEnable p b).key
  let st := s.sideState p b
  if frameBclks (field n 7 4) ≤ s.rd (Reg.sideTimingFsDelay p b) || !ctrlBclkOk n (s.portRate p)
    || !maskFits (s.get (Reg.slotMaskLane0 p b).key) (field n 17 6) || !maskFits (s.rd (Reg.maskActiveMask p b)) (field n 17 6)
  then .outOfRange
  else if st ≠ 0 && setField old 0 1 0 != setField n 0 1 0 then .conflict
  else if st = 0 && bit n 0 && !s.sideStartOk p b n then .conflict
  else .ok

/-- A SET of SIDE_CTRL acts: a start, an arming, a stop, or the cancelling of a stop (R216, R219). -/
def applySideCtrl (s : State) (p b : Nat) : State :=
  let en := s.on (Reg.sideCtrlEnable p b)
  match s.sideState p b with
  | 0 => if !en then s else if s.on (Reg.sideCtrlStartMode p b) then s.sideGo p b 1 else s.sideStart p b
  | 1 | 2 => if en then s else s.sideGo p b 0
  | 5 => s.setSide p b { s.side p b with resume := en }
  | _ => if en then s else s.sideGo p b 5

/-- The checks of a SET of SIDE_TIMING (R203, R220). -/
def scSideTiming (s : State) (p b n : Nat) : Status :=
  if frameBclks (s.rd (Reg.sideCtrlFrameCode p b)) ≤ field n 0 10 then .outOfRange
  else if s.sideState p b ≠ 0 then .conflict
  else .ok

/-- The check of a SET of SLOT_MASK (R215). -/
def scSlotMask (s : State) (p b n : Nat) : Status := if maskFits n (s.rd (Reg.sideCtrlSlots p b)) then .ok else .outOfRange

/-- MASK_COMMIT acts: at once in OFF, ARMED and SYNC, else at the next frame start edge; nothing where nothing is pending and
the shadow equals the active mask (R212, R215). -/
def applyMaskCommit (s : State) (p b : Nat) : State :=
  let m := s.get (Reg.slotMaskLane0 p b).key
  let x := s.side p b
  if s.sideState p b < 3 then s.wr (Reg.maskActiveMask p b) m
  else if x.commit.isNone && m = s.rd (Reg.maskActiveMask p b) then s
  else (s.wr (Reg.sideStatusCommitPending p b) 1).setSide p b { x with commit := some m }

/-- The range checks of TDM_PORT_CFG that follow from the value alone (R200). -/
def vcTdmPortCfg (n : Nat) : Bool := !(bit n 0 && bit n 3) && field n 4 3 ≤ 5

/-- The state checks of a SET of TDM_PORT_CFG (R24, R201, R205, R206). -/
def scTdmPortCfg (s : State) (p n : Nat) : Status :=
  let rate := if bit n 3 then some (rateHz (field n 4 3)) else if bit n 0 then some (s.domRate (field n 1 2)) else none
  if !ctrlBclkOk (s.get (Reg.sideCtrlEnable p 0).key) rate || !ctrlBclkOk (s.get (Reg.sideCtrlEnable p 1).key) rate then .outOfRange
  else if s.sideState p 0 ≠ 0 || s.sideState p 1 ≠ 0 then .conflict
  else if s.moveBlocked (.tdm p) (domIf (bit n 0 && !bit n 3) (field n 1 2)) then .conflict
  else .ok

/-- The state checks of a SET of TDM_LOOP (R445). -/
def scTdmLoop (s : State) (p n : Nat) : Status :=
  if s.sideState p 1 ≠ 0 then .conflict
  else if field n 0 2 = 1 && (s.domainOf (.tdm p)).isNone then .conflict
  else .ok

/-- SIDE_STATUS: a master's MEASURED is FRAME_BCLKS. -/
def State.sideStatusWord (s : State) (p b : Nat) : Nat :=
  let n := s.get (Reg.sideStatusState p b).key
  if s.on (Reg.sideCtrlMaster p b) then setField n 8 11 (frameBclks (s.rd (Reg.sideCtrlFrameCode p b))) else n

/-- An occurrence of a slip or frame error: event 0x5002 under its hold-off (R227). -/
def State.slip (s : State) (p b kind : Nat) : State :=
  let k := (p * 2 + b) * 4 + kind
  let r := (Sparse.get (fun _ => {}) s.tdm.holds k : Hold).hit
  let s := { s with tdm := { s.tdm with holds := Sparse.put (fun _ => {}) s.tdm.holds k r.1 } }
  if r.2 then s.post 0x5002 3 [pack [(0, p), (6, b), (8, kind), (16, 1)]] else s

/-- TDM_SLIP_WINDOW_END: the 100 ms hold-off of one kind on one side ends (R227, R475). -/
def execTdmSlipWindowEnd (p b kind : Nat) (s : State) : Done :=
  .next (let k := (p * 2 + b) * 4 + kind
    let r := (Sparse.get (fun _ => {}) s.tdm.holds k : Hold).lapse
    let s := { s with tdm := { s.tdm with holds := Sparse.put (fun _ => {}) s.tdm.holds k r.1 } }
    if r.2 = 0 then s else s.post 0x5002 3 [pack [(0, p), (6, b), (8, kind), (16, sat16 r.2)]])

/-- Which of the entries that stand ready is taken at instant `now`: those ready `margin` before it are due, and the newest of them is
taken. A pairing that is kept stands while the first is ready at all and the second is not due by another `margin`. Answers how many
entries leave the list, the last of them being the one taken (R31, R221; DESIGN CHOICE, log entry 18). -/
def takeDue (ready : List Nat) (now margin : Nat) (kept : Bool) : Nat :=
  let due (m : Nat) : Nat := (ready.takeWhile (fun t => t + m ≤ now)).length
  if kept then (if 2 ≤ due (2 * margin) then due (2 * margin) else min 1 (due 0)) else due margin

/-- The bookkeeping of one pairing of frame and tick of which `n` entries left their list, at phase `ph` ns (a fraction): slips
are counted in RUN, as slew slips while the frame sync slews or has just stopped slewing (R211, R221, R223). -/
def State.pairing (s : State) (p b n : Nat) (ph : Nat × Nat) (steady : Bool) : State :=
  let x := s.side p b
  let slewing := s.on (Reg.sideStatusSlewing p b)
  let s :=
    if n = 1 || s.sideState p b ≠ 4 || !x.paired then s
    else if slewing || x.slewed then s.bump (Reg.sideSlewSlips p b) 1
    else if steady then s
    else if n = 0 then (s.bump (Reg.sideUnderruns p b) 1).slip p b 0
    else (s.bump (Reg.sideOverruns p b) (n - 1)).slip p b 1
  let x := { x with moved := x.moved || n != 1, paired := x.paired || n != 0, slewed := slewing }
  let s := s.setSide p b x
  if n = 0 || !x.moved then s
  else
    let s := (s.wr (Reg.sidePhasePhase p b) (nearest ph)).setSide p b { x with moved := false }
    if s.sideState p b = 3 || s.sideState p b = 4 then s.wr (Reg.sideStatusPhaseValid p b) 1 else s

/-- The capture stage at edge `q` of the receive side of port `p` (R31, R210, R214, R221, R222, R223, R444). In LEAD, and in TAIL
once a frame has begun in it, the slots present 0 (R216, R218; DEDUCED, log entry 18). -/
def State.sideCapture (s : State) (p q : Nat) : State :=
  let x := s.side p 1
  let w := s.rd (Reg.sideCtrlWidth p 1)
  if s.rd (Reg.tdmLoopMode p) = 1 then
    let tx := s.side p 0
    let sent := (tx.launches.getLast?.map (·.2)).getD []
    let on (i : Nat) : Bool := s.sideState p 0 == 4 && bit (s.rd (Reg.maskActiveMask p 0)) i
    let vals := (List.range 64).map fun i =>
      if s.sideState p 1 ≠ 4 then 0
      else if bit (s.rd (Reg.maskActiveMask p 1)) i then (if on i then sent.getD i 0 else 0) else x.vals.getD i 0
    s.setSide p 1 { x with vals := vals, frames := [] }
  else
    let rate := (s.portRate p).getD 48000
    let f := frameBclks (s.rd (Reg.sideCtrlFrameCode p 1))
    let slewing := s.on (Reg.sideStatusSlewing p 1)
    let exact := x.exact && !slewing
    let endOf (fr : TdmFrame) : Nat := fr.start + (2 * x.lastBit + 1) * 1000000000 / (f * rate)
    let n := if exact then takeDue (x.frames.map (·.start)) q 1 false
      else takeDue (x.frames.map endOf) q 200 (x.paired && !slewing && !x.slewed)
    let taken := if n = 0 then none else x.frames[n - 1]?
    let ph := match taken with
      | some fr => if exact then (0, 1) else ((q - fr.start) * rate - 2000000000, 2 * rate)
      | none => (0, 1)
    let s := s.setSide p 1 { x with frames := x.frames.drop n }
    let s := s.pairing p 1 n ph exact
    if !exact && !x.data then s.setSide p 1 { s.side p 1 with vals := [] }
    else
      match taken with
      | some fr =>
        if fr.bad then s
        else
          let x := s.side p 1
          s.setSide p 1 { x with vals := (List.range 64).map fun i =>
            if !fr.live then 0 else if bit fr.mask i then slotTrunc w (fr.words.getD i 0) else x.vals.getD i 0 }
      | none => s

/-- The TDM part of the capture stage of a tick of domain `d` at edge `q` (R17, R31). -/
def State.tdmCapture (s : State) (d q : Nat) : State :=
  s.units 48 fun s p => if s.domainOf (.tdm p) = some d && 3 ≤ s.sideState p 1 then s.sideCapture p q else s

/-- The value a sink holds (R36). -/
def State.sinkVal (s : State) (o : Nat) : Nat := Sparse.get (fun _ => 0) s.path.sink o

/-- The TDM part of a launch: the transmit sides of domain `d` take their sink values at edge `q` (R17, R31). -/
def State.tdmLaunch (s : State) (d q : Nat) : State :=
  s.units 48 fun s p =>
    if s.domainOf (.tdm p) = some d && 3 ≤ s.sideState p 0 then
      let x := s.side p 0
      s.setSide p 0 { x with launches := x.launches ++ [(q, (List.range 64).map fun i => s.sinkVal (0x10000 + p * 64 + i))] }
    else s

/-- What a transmit side sends in a frame begun with values `v` (`none`: none is paired to it), the mask before its start edge
having been `before`. Of a frame that did not end with its last bit clock nothing is left over (R204, R213, R221, R222). -/
def State.sideSend (s : State) (p before : Nat) (v : Option (List Nat)) : State :=
  let x := s.side p 0
  let mask := s.rd (Reg.maskActiveMask p 0)
  let w := s.rd (Reg.sideCtrlWidth p 0)
  let vals := (List.range 64).map fun i =>
    if !x.data || !bit mask i || !bit before i then 0
    else match v with
      | some l => slotTrunc w (l.getD i 0)
      | none => x.vals.getD i 0
  let whole := s.on (Reg.sideCtrlMaster p 0) || s.rd (Reg.sideStatusMeasured p 0) == frameBclks (s.rd (Reg.sideCtrlFrameCode p 0))
  s.setSide p 0 { x with vals := vals, prev := if whole then (x.vals :: x.prev).take 5 else [] }

/-- `bclks` bit clocks over `q` quarter counts exceed the bit clock limit of a slot width by more than 2 % (R209). -/
def bclkFast (bclks w q : Nat) : Bool := (if w < 12 then 40000000 else 50000000) * 102 * q < bclks * 2000000000 * 100

/-- A TDM frame ends at `q` on a slave side: it is judged by its bit clocks and how long they took (R209, R222). -/
def State.sideJudge (s : State) (p b bclks q : Nat) : State :=
  let x := s.side p b
  let fast := bclkFast bclks (s.rd (Reg.sideCtrlWidth p b)) (q - x.last.getD 0)
  if s.on (Reg.sideCtrlMaster p b) || x.last.isNone then s
  else
    let bad := fast || bclks != frameBclks (s.rd (Reg.sideCtrlFrameCode p b))
    let s := s.wr (Reg.sideStatusMeasured p b) (min bclks 2047)
    let frames := if bad then match x.frames.getLast? with
        | some fr => x.frames.dropLast ++ [if some fr.start = x.last then { fr with bad := true } else fr]
        | none => []
      else x.frames
    let s := s.setSide p b { x with good := if bad then 0 else x.good + 1, badRun := if bad then x.badRun + 1 else 0
                                    frames := frames }
    if !bad then s
    else
      let s := (s.bump (Reg.sideFrameErr p b) 1).slip p b 2
      if fast then (s.bump (Reg.sideClkFast p b) 1).slip p b 3 else s

/-- The words a looped receive side takes in a frame that begins: the transmit side's, and in mode 3, at the balls, what the far end
puts on a lane that is not driven (R444). -/
def State.loopWords (s : State) (p : Nat) (words : List Nat) : List Nat :=
  (List.range 64).map fun i =>
    if s.rd (Reg.tdmLoopMode p) = 2 || s.laneDriven p (i / 32) then (s.side p 0).vals.getD i 0 else words.getD i 0

/-- The converters of kind 1 on side `b` of port `p`: whose transfer it makes and what each takes or gives (R230, R232, R238). -/
def State.convsOn (s : State) (p b : Nat) : List Nat :=
  (List.range 64).filter fun c =>
    s.convState c != 0 && (if b = 1 then s.on (Reg.asrcCfgInKind c) && s.rd (Reg.asrcCfgInPort c) == p
      else s.on (Reg.asrcCfgOutKind c) && s.rd (Reg.asrcCfgOutPort c) == p)

/-- A frame start edge of a receive side of an asynchronous port: the frame that ends presents its samples, and the
converters take them, or the previous frame's where they are late (R229, R238). -/
def State.asyncTake (s : State) (p q : Nat) (late : List Nat) : State :=
  let x := s.side p 1
  let w := s.rd (Reg.sideCtrlWidth p 1)
  let before := x.vals
  let vals := match x.frames.getLast? with
    | some fr =>
      if fr.bad then before
      else (List.range 64).map fun i =>
        if !fr.live then 0 else if bit fr.mask i then slotTrunc w (fr.words.getD i 0) else before.getD i 0
    | none => before
  let s := s.setSide p 1 { x with vals := vals, frames := [] }
  s.each (s.convsOn p 1) fun s c =>
    let i := 32 * s.rd (Reg.asrcCfgInLane c) + s.rd (Reg.asrcCfgInSlot c)
    let l := if late.contains c then before else vals
    ((s.bumpIf (late.contains c) (Reg.asrcLate c)).convInEdge c q).convInput c q ((List.range 8).map fun k => l.getD (i + k) 0)

/-- A frame start edge of a transmit side of an asynchronous port: the converters give their samples; a slot that none drives
carries 0 (R230, R238). -/
def State.asyncGive (s : State) (p q : Nat) (late : List Nat) : List Nat × State :=
  let cs := s.convsOn p 0
  let s := s.each cs fun s c => (s.bumpIf (late.contains c) (Reg.asrcLate c)).convOutput c q (late.contains c)
  let v (i : Nat) : Nat :=
    match cs.find? (fun c => let j := 32 * s.rd (Reg.asrcCfgOutLane c) + s.rd (Reg.asrcCfgOutSlot c); j ≤ i && i < j + 8) with
    | some c => s.convPresent c (i - (32 * s.rd (Reg.asrcCfgOutLane c) + s.rd (Reg.asrcCfgOutSlot c)))
    | none => 0
  ((List.range 64).map v, s)

/-- The data of a frame that begins at `q` on side `b` of port `p` (R204, R213, R214, R221, R229). -/
def State.sideData (s : State) (p b q before : Nat) (words late : List Nat) : State :=
  let async := s.on (Reg.tdmPortCfgAsync p)
  if b = 1 then
    let s := if async then s.asyncTake p q late else s
    let x := s.side p 1
    let fr : TdmFrame := { start := q, live := x.data, mask := s.rd (Reg.maskActiveMask p 1), words := words }
    s.setSide p 1 { x with frames := x.frames ++ [fr] }
  else if async then
    let r := s.asyncGive p q late
    r.2.sideSend p before (some r.1)
  else
    let x := s.side p 0
    let slewing := s.on (Reg.sideStatusSlewing p 0)
    let exact := x.exact && !slewing
    let n := takeDue (x.launches.map (·.1)) q (if exact then 0 else 200) (!exact && x.paired && !slewing && !x.slewed)
    let taken := if n = 0 then none else x.launches[n - 1]?
    let ph := match taken with | some l => if exact then (0, 1) else (q - l.1, 2) | none => (0, 1)
    let s := s.setSide p 0 { x with launches := x.launches.drop n }
    (s.pairing p 0 n ph exact).sideSend p before (taken.map (·.2))

/-- Whether a side has clocks at all: a master in a domain only while its domain runs (R208). -/
def State.frameRuns (s : State) (p b : Nat) : Bool :=
  !s.on (Reg.sideCtrlMaster p b) || s.on (Reg.tdmPortCfgAsync p) || s.running (s.rd (Reg.tdmPortCfgDomain p))

/-- The instant of the frame start edge that a side has at `q`: of a master its own (R208), of a slave the far end's. -/
def State.frameStart (s : State) (p b q : Nat) : Nat := if s.on (Reg.sideCtrlMaster p b) then s.frameEdge p b else q

/-- A frame start edge at `q` of a side in LEAD, RUN or TAIL: a commit applies, a cancelled stop ends, and a frame begins; with CLK_LEAD
0 data flows in LEAD's one frame (R212, R216, R219; DEDUCED, log entry 18). -/
def State.frameBegin (s : State) (p b q : Nat) (words late : List Nat) : State :=
  let before := s.rd (Reg.maskActiveMask p b)
  let s := s.applyCommit p b
  let s := if s.sideState p b = 5 && (s.side p b).resume then
      (s.sideGo p b 4).flag (Reg.sideStatusPhaseValid p b) (s.on (Reg.tdmPortCfgDomainValid p))
    else s
  let run := s.sideState p b == 4 || (s.sideState p b == 3 && s.rd (Reg.sideTimingClkLead p b) == 0)
  let s := (s.bumpIf run (Reg.sideFrames p b)).wr (Reg.sideStatusLocked p b) 1
  let x := s.side p b
  (s.setSide p b { x with begun := x.begun + 1, data := run, nextFrame := x.nextFrame + 1 }).sideData p b q before words late

/-- What the far end sends in a frame, by lane × 32 + slot, from the slots of each lane. -/
def laneWords (lane0 lane1 : List Nat) : List Nat :=
  (List.range 64).map fun i => if i < 32 then lane0.getD i 0 else lane1.getD (i - 32) 0

/-- A frame start edge at `q` reaches a side in SYNC or beyond, the ended frame having held `bclks` bit clocks (R209, R216). -/
def State.sideEdge (s : State) (p b bclks q : Nat) (words late : List Nat) : State :=
  let s := s.sideJudge p b bclks q
  let s := s.setSide p b { s.side p b with last := some q }
  if s.sideState p b = 2 then
    s.setSide p b { s.side p b with frames := [{ start := q, live := false, mask := 0, words := words }] }
  else s.frameBegin p b q words late

/-- Whether the receive side of a port takes the transmit side's clocks and data in place of its own balls' (R444). -/
def State.sideLooped (s : State) (p : Nat) : Bool := 2 ≤ s.rd (Reg.tdmLoopMode p)

/-- A frame start edge of the transmit side's clocks is one of a looped receive side too (R444, R445). -/
def State.loopEdge (s : State) (p bclks q : Nat) (words late : List Nat) : State :=
  if s.sideLooped p && 2 ≤ s.sideState p 1 then s.sideEdge p 1 bclks q (s.loopWords p words) late else s

/-- TDM_FRAME_START: a frame start edge of side `b` of port `p`: a master's comes where its own clocks bring it, a slave's at RC count
`count` and `quarter` quarters (R232), the ended frame having held `bclks` bit clocks; the far end has the slots `lane0` and `lane1` on
the side's data balls in the frame that begins. `late` are the converters whose transfer was late (R208, R209, R212, R216, R238). A
looped receive side ignores its own balls and follows the transmit side's clocks, a slave's also while that side is OFF or ARMED (R444,
R445). A master's edge that a step of the Hearth on the way puts off leaves the frame to come. -/
def execTdmFrameStart (p b count quarter bclks : Nat) (lane0 lane1 late : List Nat) (s : State) : Done :=
  .next (s.together fun s => 
    let words := laneWords lane0 lane1
    let master := s.on (Reg.sideCtrlMaster p b)
    if b = 1 && s.sideLooped p then s
    else if s.sideState p b < 2 then
      (if b = 0 && !master && s.sideLooped p && 2 ≤ s.sideState p 1 then
        (s.advance count).loopEdge p bclks (4 * count + quarter) words late
      else s)
    else if !s.frameRuns p b then s
    else
      let s := s.advance (s.frameStart p b (4 * count + quarter) / 4)
      let q := s.frameStart p b (4 * count + quarter)
      if master && 4 * s.rc + 3 < q then s
      else
        let s := s.sideEdge p b bclks q words late
        if b = 0 then s.loopEdge p (if master then (s.frameLag p 0).2 else bclks) q words late else s)

/-- TDM_SLAVE_LOCK: a slave side in SYNC has had 4 consecutive good frames; the frame that begins with the edge that ends the
fourth is its first in LEAD, and with CLK_LEAD 0 its data flows (R209, R216; DEDUCED, log entry 18). -/
def execTdmSlaveLock (p b : Nat) (s : State) : Done :=
  .next (s.together fun s => if s.sideState p b = 2 && !s.on (Reg.sideCtrlMaster p b) && 4 ≤ (s.side p b).good then
      let words := ((s.side p b).frames.getLast?.map (·.words)).getD []
      let s := ((s.sideGo p b 3).pair_ p b).wr (Reg.sideStatusLocked p b) 1
      let flows := s.rd (Reg.sideTimingClkLead p b) == 0
      let s := (s.bumpIf flows (Reg.sideFrames p b)).setSide p b { s.side p b with begun := 1, data := flows }
      s.sideData p b ((s.side p b).last.getD 0) (s.rd (Reg.maskActiveMask p b)) words []
    else s)

/-- The point of quarter counts at which a side has had no frame start edge for 4 nominal frame periods, where it has had one (R209). -/
def State.silentAt (s : State) (p b : Nat) : Option Nat :=
  (s.side p b).last.map fun q => q + ceilDiv 8000000000 ((s.portRate p).getD 48000)

/-- Whether a side's lock is lost: by 4 consecutive frame errors, or with no edge for 4 nominal periods (R209). -/
def State.lockGone (s : State) (p b : Nat) : Bool :=
  4 ≤ (s.side p b).badRun || (match s.silentAt p b with | some q => decide (q ≤ 4 * s.rc + 3) | none => false)

/-- TDM_SLAVE_LOCK_LOSS: 4 consecutive frame errors, or (`silent`) RC reaches the instant at which no frame start edge has come for 4
nominal periods; in TAIL the side goes to OFF, and where its stop had been cancelled it makes the full start, if it may (R209, R216,
R219). -/
def execTdmSlaveLockLoss (p b : Nat) (silent : Bool) (s : State) : Done :=
  .next (s.together fun s => 
    let waits := 3 ≤ s.sideState p b && !s.on (Reg.sideCtrlMaster p b)
    let s := if waits && silent then s.advance ((s.silentAt p b).getD 0 / 4) else s
    if waits && s.lockGone p b then
      let again := s.sideState p b == 5 && (s.side p b).resume
      let s := (s.bump (Reg.sideLockLoss p b) 1).sideGo p b (if s.sideState p b = 5 then 0 else 2)
      (if again && s.sideStartOk p b (s.get (Reg.sideCtrlEnable p b).key) then applySideCtrl s p b else s).settleRefs
    else s)

/-- TDM_LEAD_END: CLK_LEAD frames, or with CLK_LEAD 0 the first, have begun in LEAD; data flows from the next, with CLK_LEAD 0 from the
first (R216; DEDUCED, log entry 18). -/
def execTdmLeadEnd (p b : Nat) (s : State) : Done :=
  .next (s.together fun s => if s.sideState p b = 3 && max 1 (s.rd (Reg.sideTimingClkLead p b)) ≤ (s.side p b).begun then s.sideGo p b 4 else s)

/-- TDM_TAIL_END: CLK_TAIL frames, or with CLK_TAIL 0 the first, have begun in TAIL and the stop was not cancelled (R216, R219). -/
def execTdmTailEnd (p b : Nat) (s : State) : Done :=
  .next (s.together fun s => if s.sideState p b = 5 && !(s.side p b).resume && max 1 (s.rd (Reg.sideTimingClkTail p b)) ≤ (s.side p b).begun then
      (s.sideGo p b 0).settleRefs
    else s)

end Sys2Proof.Machine
end

