-- ==== Sys2Proof/Machine/Hall.lean ====
section
/-! DEFINITION. The Hall: tiles, banks and checksums, commits and crossfades, the tick's computation, the scrubber, copies and
repairs (R241 to R260, R478). -/

namespace Sys2Proof.Machine

/-- The tile `t` (R248). -/
def State.tile (s : State) (t : Nat) : Tile := Sparse.get (fun _ => {}) s.hall.tiles t

/-- The state with tile `t` replaced. -/
def State.setTile (s : State) (t : Nat) (x : Tile) : State :=
  { s with hall := { s.hall with tiles := Sparse.put (fun _ => {}) s.hall.tiles t x } }

/-- Bank `b` of a tile. -/
def Tile.bank (x : Tile) (b : Nat) : HallBank := if b = 0 then x.b0 else x.b1

/-- A tile with bank `b` replaced. -/
def Tile.setBank (x : Tile) (b : Nat) (k : HallBank) : Tile := if b = 0 then { x with b0 := k } else { x with b1 := k }

/-- The number of a tile's shadow bank. -/
def Tile.shadow (x : Tile) : Nat := 1 - x.active

/-- Byte `j` of gain `g`, most significant first. -/
def gainByte (g j : Nat) : Nat := g / 256 ^ (2 - j) % 256

/-- The gain at place `q` as read, damage included. -/
def HallBank.read (k : HallBank) (q : Nat) : Nat :=
  let g := Sparse.get (fun _ => 0) k.img q
  let by_ (j : Nat) : Nat := gainByte g j ^^^ Sparse.get (fun _ => 0) k.dmg (3 * q + j)
  if k.dmg.isEmpty then g % 2 ^ 24 else by_ 0 * 65536 + by_ 1 * 256 + by_ 2

/-- The places of a bank at which something other than 0 may be read. -/
def HallBank.places (k : HallBank) : List Nat :=
  (k.img.map (fun (p : Nat × Nat) => p.1) ++ k.dmg.map (fun (p : Nat × Nat) => p.1 / 3)).eraseDups

/-- The Fletcher-32 sums of a byte `v` at place `j` of the image (R253). -/
def csumByte (j v : Nat) : Nat × Nat :=
  let w := if j % 2 = 0 then v * 256 else v
  (w, (1537 - (1 + j / 2)) * w)

/-- The Fletcher-32 checksum of bank `b` of tile `t` holding gains `l`, (place, gain) pairs, zeros elsewhere (R253). -/
def fletcher (t b : Nat) (l : List (Nat × Nat)) : Nat :=
  let w0 := 2 * t + b
  let sums := l.foldl (fun acc p =>
    (List.range 3).foldl (fun acc j =>
      let c := csumByte (3 * p.1 + j) (gainByte p.2 j)
      (acc.1 + c.1, acc.2 + c.2)) acc) (w0, 1537 * w0)
  sums.2 % 65535 * 65536 + sums.1 % 65535

/-- The stored checksum of bank `b` of tile `t` (R253). -/
def HallBank.csum (k : HallBank) (t b : Nat) : Nat := fletcher t b k.img

/-- Whether bank `b` of tile `t` passes a check (R253). -/
def HallBank.passes (k : HallBank) (t b : Nat) : Bool :=
  k.dmg.isEmpty || fletcher t b (k.places.map fun q => (q, k.read q)) == k.csum t b

/-- A bank holding exactly the gains written, checksum and EMPTY flag afresh (R253, R257, R478). -/
def bankOf (l : Sparse Nat) : HallBank := { img := l, empty := l.isEmpty }

/-- A bank into which the image another bank reads as has been copied. -/
def HallBank.copyOf (src : HallBank) : HallBank :=
  bankOf (src.places.foldl (fun m q => Sparse.put (fun _ => 0) m q (src.read q)) [])

/-- A bank whose places below `n` hold the image another bank reads as, its stored checksum unchanged (R249, REPAIR row). -/
def HallBank.overwritten (dst src : HallBank) (n : Nat) : HallBank :=
  let places := ((dst.places ++ src.places).eraseDups).filter (· < n)
  let dmg := places.foldl (fun m q =>
    (List.range 3).foldl (fun m j =>
      Sparse.put (fun _ => 0) m (3 * q + j) (gainByte (Sparse.get (fun _ => 0) dst.img q) j ^^^ gainByte (src.read q) j)) m) dst.dmg
  { dst with dmg := dmg }

/-- The Hall's domain, where it runs. -/
def State.hallRuns (s : State) : Bool := s.on Reg.hallCfgDomainValid && s.running (s.rd Reg.hallCfgDomain)

/-- Whether the Hall's domain is at 176.4 or 192 kHz (R245). -/
def State.hallHigh (s : State) : Bool := 176400 ≤ s.domRate (s.rd Reg.hallCfgDomain)

/-- The tile and place of a crosspoint's number (R247). -/
def xpointTile (x : Nat) : Nat × Nat :=
  let i := x / 1024
  let o := x % 1024
  (32 * (i / 32) + o / 32, 32 * (i % 32) + o % 32)

/-- The value of GAIN of a crosspoint: that of its tile's shadow bank. -/
def State.gain (s : State) (x : Nat) : Nat :=
  let tq := xpointTile x
  let t := s.tile tq.1
  (t.bank t.shadow).read tq.2

/-- The value of GAIN_ACTIVE of a crosspoint (R250). -/
def State.gainActive (s : State) (x : Nat) : Nat :=
  let tq := xpointTile x
  let t := s.tile tq.1
  (t.bank t.active).read tq.2

/-- Whether a tile refuses writes and commands with BUSY (R250, R251). -/
def Tile.busy (x : Tile) : Bool := x.state == 1 || x.state == 2 || x.state == 3 || x.swap

/-- The check of a SET of GAIN or TILE_SHADOW (R251). -/
def scTileWrite (s : State) (t : Nat) : Status := if (s.tile t).busy then .busy else .ok

/-- A SET of GAIN acts: one crosspoint of the shadow bank (R249, R253). -/
def applyGain (s : State) (x v : Nat) : State :=
  let tq := xpointTile x
  let t := s.tile tq.1
  let k := t.bank t.shadow
  let img := Sparse.put (fun _ => 0) k.img tq.2 v
  let k := { k with img := img, dmg := k.dmg.filter (fun p => p.1 / 3 != tq.2), empty := img.isEmpty, parBad := false }
  s.setTile tq.1 { t.setBank t.shadow k with dirty := true }

/-- The gains of an image of 3072 bytes (R248). -/
def imageGains : Nat → List Byte → Nat → Sparse Nat → Sparse Nat
  | 0, _, _, m => m
  | n + 1, l, q, m => imageGains n (l.drop 3) (q + 1) (Sparse.put (fun _ => 0) m q (beNat (l.take 3)))

/-- A SET of TILE_SHADOW acts: the whole shadow bank (R249). -/
def applyTileShadow (s : State) (t : Nat) (image : List Byte) : State :=
  let x := s.tile t
  s.setTile t { x.setBank x.shadow (bankOf (imageGains 1024 image 0 [])) with dirty := true, shadowBad := false }

/-- The image TILE_SHADOW reads as. -/
def State.shadowImage (s : State) (t : Nat) : List Byte :=
  let x := s.tile t
  (List.range 1024).flatMap fun q => natBe 3 ((x.bank x.shadow).read q)

/-- The banks of a tile swap (R250, R259). -/
def State.swapBanks (s : State) (t : Nat) : State :=
  (s.setTile t { s.tile t with active := (s.tile t).shadow, swap := false }).bump Reg.hallCommits 1

/-- A commit of one tile is acknowledged, DIRTY cleared with it: the banks swap at tick c where the Hall runs, at once and without
a crossfade where it does not (R249, R250; DEDUCED for a FAILED tile, log entry 19). -/
def State.commitTile (s : State) (t fade : Nat) : State :=
  let x := s.tile t
  if x.state = 0 && !x.dirty then s
  else if s.hallRuns then
    if x.state = 0 then s.setTile t { x with state := 1, dirty := false, fade := 16 * 2 ^ fade, gone := 0, swap := true }
    else s.setTile t { x with swap := true, dirty := false }
  else
    let s := s.swapBanks t
    s.setTile t { s.tile t with state := 2, dirty := false, refresh := false }

/-- The checks of a SET of TILE_CMD (R249, R251). -/
def scTileCmd (s : State) (t n : Nat) : Status :=
  let x := s.tile t
  if field n 0 2 = 1 then (if x.busy then .busy else if x.shadowBad then .conflict else .ok)
  else if x.busy then .busy
  else if x.state = 4 then .conflict
  else .ok

/-- A SET of TILE_CMD acts: a commit, or a REVERT (R249). -/
def applyTileCmd (s : State) (t n : Nat) : State :=
  let x := s.tile t
  if field n 0 2 = 1 then s.commitTile t (field n 2 2)
  else if x.state = 0 && x.dirty then s.setTile t { x with state := 2, refresh := false }
  else s

/-- The tiles a HALL_COMMIT commits (R250). -/
def State.dirtyTiles (s : State) : List Nat :=
  (s.hall.tiles.filter (fun p => p.2.state == 0 && p.2.dirty)).map (·.1)

/-- The check of a SET of HALL_COMMIT (R250). -/
def scHallCommit (s : State) : Status := if s.dirtyTiles.any (fun t => (s.tile t).shadowBad) then .conflict else .ok

/-- A SET of HALL_COMMIT acts (R250). -/
def applyHallCommit (s : State) (n : Nat) : State := s.each s.dirtyTiles fun s t => s.commitTile t (field n 0 2)

/-- The checks of a SET of HALL_CFG (R24, R245, R258). -/
def scHallCfg (s : State) (n : Nat) : Status :=
  let nd := domIf (bit n 0) (field n 1 2)
  let into := match nd with | some d => 176400 ≤ s.domRate d | none => false
  if s.moveBlocked .hall nd then .conflict
  else if into && s.domainOf .hall != nd && s.namesHighHall then .conflict
  else if field n 0 3 != field (s.get Reg.hallCfgDomainValid.key) 0 3 && s.hall.tiles.any (fun p => p.2.state == 1 || p.2.swap)
  then .busy
  else .ok

/-- A SET of HALL_CFG acts: a Hall that joins another domain presents 0 until a tick is computed (R241). -/
def applyHallCfg (s : State) (old n : Nat) : State :=
  if field n 0 3 = field old 0 3 then s
  else { s with hall := { s.hall with out := [], next := [], acc := [], left := [], rest := none } }

/-- A failed check of bank `b` of tile `t`: counted, and event 0x9001 under the tile's hold-off, the STATE being that after the
failure (R259, R260). `kind`: 0 at use, 1 at scrub, 2 during a copy. -/
def State.csumFail (s : State) (t b kind : Nat) : State :=
  let s := s.bump Reg.hallCsumFails 1
  let info := pack [(0, t), (10, b), (11, kind), (13, (s.tile t).state)]
  let r := (Sparse.get (fun _ => {}) s.hall.holds t : Hold).hit
  let s := { s with hall := { s.hall with holds := Sparse.put (fun _ => {}) s.hall.holds t { r.1 with info := info } } }
  if r.2 then s.post 0x9001 6 [info + 2 ^ 16] else s

/-- HALL_CSUM_WINDOW_END: tile `t`'s 100 ms hold-off ends (R260, R475). -/
def execHallCsumWindowEnd (t : Nat) (s : State) : Done :=
  .next (let h : Hold := Sparse.get (fun _ => {}) s.hall.holds t
    let r := h.lapse
    let s := { s with hall := { s.hall with holds := Sparse.put (fun _ => {}) s.hall.holds t r.1 } }
    if r.2 = 0 then s else s.post 0x9001 6 [h.info + sat16 r.2 * 2 ^ 16])

/-- Outputs saturate in a tick, `o` the lowest of them: event 0x9003 under the Hall's hold-off (R244, R260). -/
def State.hallSat (s : State) (o : Nat) : State :=
  let s := s.bump Reg.hallSatTicks 1
  let r := s.hall.satHold.hit
  let h := if r.2 then { r.1 with info := o } else r.1
  let s := { s with hall := { s.hall with satHold := h } }
  if r.2 then s.post 0x9003 3 [pack [(0, o), (16, 1)]] else s

/-- HALL_SAT_WINDOW_END: the Hall's 100 ms saturation hold-off ends (R260, R475). -/
def execHallSatWindowEnd (s : State) : Done :=
  .next (let h := s.hall.satHold
    let r := h.lapse
    let s := { s with hall := { s.hall with satHold := if r.1.active then { r.1 with info := h.info } else r.1 } }
    if r.2 = 0 then s else s.post 0x9003 3 [pack [(0, h.info), (16, sat16 r.2)]])

/-- The active bank of a tile has been checked outside a crossfade: what its state makes of it (R249). A COPY abandoned while it
runs leaves a free number of words copied (log entry 3). -/
def State.activeChecked (s : State) (t kind : Nat) (ok : Bool) : State :=
  let x := s.tile t
  let s := s.setTile t { x with lastFail := !ok }
  let x := s.tile t
  if ok then (if x.state = 4 && !x.swap then s.setTile t { x with state := 0 } else s)
  else
    let s :=
      match x.state with
      | 0 => s.setTile t { x with state := if x.dirty || x.shadowBad then 4 else 3 }
      | 2 =>
        let r := s.draw
        let k := (x.bank x.shadow).overwritten (x.bank x.active) (r.1 % 1025)
        r.2.setTile t { x.setBank x.shadow k with state := 4, dirty := true, shadowBad := true }
      | _ => s
    s.csumFail t x.active kind

/-- Whether a tick reads both banks of a tile: a crossfade is in progress, its banks swapped at tick c (R250, R252). -/
def Tile.crossfades (x : Tile) : Bool := x.state == 1 && !x.swap && decide (x.gone < x.fade)

/-- The gains one tile mixes in a tick, (place, gain) pairs: those of a crossfade, else the active bank's (R252). -/
def Tile.mix (x : Tile) : List (Nat × Nat) :=
  let new := x.bank x.active
  if x.crossfades then
    let old := x.bank x.shadow
    ((new.places ++ old.places).eraseDups).map fun q =>
      let a := sext 24 (old.read q)
      let b := sext 24 (new.read q)
      (q, ofInt 24 (a + (b - a) * ((x.gone : Int) + 1) / (x.fade : Int)))
  else new.places.map fun q => (q, new.read q)

/-- The products of one tile join the sums of the tick: P = floor(X × G / 2⁸) (R242). -/
def State.mixTile (s : State) (t : Nat) (l : List (Nat × Nat)) : State :=
  let acc := l.foldl (fun m p =>
    let x := sext 32 (s.sinkVal (0x30000 + 32 * (t / 32) + p.1 / 32))
    let o := 32 * (t % 32) + p.1 % 32
    Sparse.put (fun _ => (0 : Int)) m o (Sparse.get (fun _ => 0) m o + x * sext 24 p.2 / 256)) s.hall.acc
  { s with hall := { s.hall with acc := acc } }

/-- A flag whose parity is wrong is rebuilt from the reading (R257). -/
def State.rebuildFlag (s : State) (t b : Nat) : State :=
  let k := (s.tile t).bank b
  if k.parBad then
    (s.setTile t ((s.tile t).setBank b { k with parBad := false, empty := k.places.all (fun q => k.read q == 0) })).bump
      Reg.hallEmptyParity 1
  else s

/-- The end of a crossfade is reached: the new bank passed (or the tile was skipped), or failed (R249). -/
def Tile.fadeEnd (x : Tile) (ok : Bool) : Tile :=
  if x.state = 1 && x.fade ≤ x.gone + 1 then
    (if ok then { x with state := 2, refresh := false } else { x with state := 4, dirty := true })
  else x

/-- A tick reaches tile `t`: skipped as empty, dropped or mixed, with the checks of the banks it reads (R249, R254, R257). The
answer tells whether it was skipped. -/
def State.reachTile (s : State) (t : Nat) : State × Bool :=
  let x := s.tile t
  let banks := if x.crossfades then [x.active, x.shadow] else [x.active]
  let skips (b : Nat) : Bool := (x.bank b).empty && !(x.bank b).parBad
  if x.state = 3 then (s.bump Reg.hallTileDrops 1, false)
  else if banks.all skips then (s.setTile t (x.fadeEnd true), true)
  else
    let s := s.each banks fun s b => s.rebuildFlag t b
    let x := s.tile t
    let okNew := (x.bank x.active).passes t x.active
    let okOld := (x.bank x.shadow).passes t x.shadow
    let mixed := okNew && (banks.length == 1 || okOld)
    let s := if mixed then s.mixTile t x.mix else s.bump Reg.hallTileDrops 1
    let s := if x.state = 1 then
        let s := s.setTile t { x.fadeEnd okNew with lastFail := !okNew }
        let s := if okNew then s else s.csumFail t x.active 0
        if banks.length == 1 || okOld then s else s.csumFail t x.shadow 0
      else s.activeChecked t 0 okNew
    (s, false)

/-- Commits that wait for tick c: the banks swap; a tile in FAILED enters COPY (R250). -/
def State.commitsDue (s : State) : State :=
  s.each ((s.hall.tiles.filter (fun p => p.2.swap)).map (·.1)) fun s t =>
    let s := s.swapBanks t
    if (s.tile t).state = 4 then s.setTile t { s.tile t with state := 2, dirty := false, refresh := false } else s

/-- Whether tile `t` is computed at the Hall's rate (R247). -/
def State.computed (s : State) (t : Nat) : Bool := t % 32 < 16 || !s.hallHigh

/-- The sums become outputs: those of which every tile was reached; the others keep the value they present (R36, R242, R244). -/
def State.hallOutputs (s : State) : State :=
  let broken (o : Nat) : Bool := s.hall.left.any (fun t => t % 32 == o / 32)
  let y (a : Int) : Nat := sat32 (a / 4096)
  let full := (s.hall.acc.filter (fun p => !broken p.1)).map (fun p => (p.1, p.2))
  let kept := s.hall.out.filter (fun p => broken p.1 && (p.1 < 512 || !s.hallHigh))
  let next := full.foldl (fun m p => Sparse.put (fun _ => 0) m p.1 (y p.2)) kept
  let sat := (full.filter (fun p => decide (p.2 / 4096 < -2147483648) || decide (2147483647 < p.2 / 4096))).map (·.1)
  let s := { s with hall := { s.hall with next := next } }
  let s := s.each sat fun s o => s.bump (Reg.outSatTicks o) 1
  match sat with
  | o :: _ => s.hallSat o
  | [] => s

/-- The crossfades advance by one tick, all those that were in progress when it began (R252). A tile that no tick reaches stays in
FADING (R478). -/
def State.fadesAdvance (s : State) (before : List Nat) : State :=
  s.each before fun s t =>
    let x := s.tile t
    if x.swap then s
    else if x.state = 1 then s.setTile t { x with gone := x.gone + 1 }
    else s.setTile t { x with fade := 0, gone := 0 }

/-- The scrubber finds the shadow bank of tile `t` failing (R249). -/
def State.shadowFails (s : State) (t : Nat) : State :=
  let y := s.tile t
  let s :=
    if y.state = 0 && !y.dirty then
      (s.setTile t { y with state := 2, shadowBad := true, refresh := true }).bump Reg.hallScrubRefresh 1
    else if y.state = 0 || y.state = 4 then s.setTile t { y with shadowBad := true }
    else s
  s.csumFail t y.shadow 1

/-- The scrubber visits tile `t`, which this tick skipped or did not compute (`idle`). What it finds acts in the order of R249's rows: an
active bank that fails, a shadow bank that fails, an active bank that passes (R249, R256). -/
def State.scrubVisit (s : State) (t : Nat) (idle : Bool) : State :=
  let x := s.tile t
  let fading := x.state == 1
  let ok := (x.bank x.active).passes t x.active
  let badShadow := (x.state == 0 || x.state == 4) && !(x.bank x.shadow).passes t x.shadow
  let s :=
    if !idle || ok then s
    else if fading then (s.setTile t { x with lastFail := true }).csumFail t x.active 1
    else s.activeChecked t 1 false
  let s := if badShadow then s.shadowFails t else s
  if !idle || !ok then s
  else if fading then s.setTile t { s.tile t with lastFail := false }
  else s.activeChecked t 1 true

/-- The scrubber's visit of a tick, and its step to the next tile (R256). -/
def State.scrubTick (s : State) (idle : Nat → Bool) : State :=
  if !s.on Reg.hallCfgScrubEn then s
  else
    let t := s.hall.scrub
    let s := s.scrubVisit t (idle t)
    let s := { s with hall := { s.hall with scrub := (t + 1) % 1024 } }
    s.bumpIf (t == 1023) Reg.hallScrubPasses

/-- A tick reaches tiles; those not skipped as empty were read (R478). -/
def State.reachTiles (s : State) : List Nat → State × List Nat
  | [] => (s, [])
  | t :: l =>
    let a := s.reachTile t
    let r := a.1.reachTiles l
    (r.1, if a.2 then r.2 else t :: r.2)

/-- The Hall's work of a tick ends, the tiles still left abandoned: the outputs, the crossfades' advance and the scrubber's visit (R36,
R241, R252, R255, R256). -/
def State.hallClose (s : State) : State :=
  match s.hall.rest with
  | none => s
  | some h =>
    let left := s.hall.left
    let s := s.hallOutputs
    let total := if s.hallHigh then 512 else 1024
    let s := { s with hall := { s.hall with left := [], rest := none, skipped := total - left.length - h.read.length } }
    let s := s.fadesAdvance h.fading
    if h.noScrub then s else s.scrubTick (fun t => !left.contains t && !h.read.contains t)

/-- The Hall's work of a tick, which tiles `late` do not reach in time, nor the scrubber's visit where `noScrub`: with none late it ends
at once, else at the deadline (R241, R254, R255). A tile never written is skipped as empty. -/
def State.hallCompute (s : State) (late : List Nat) (noScrub : Bool) : State :=
  let s := s.commitsDue
  let fading := (s.hall.tiles.filter (fun p => p.2.state == 1)).map (·.1)
  let left := (late.filter (fun t => t < 1024 && s.computed t)).eraseDups
  let s := { s with hall := { s.hall with acc := [], left := left } }
  let r := s.reachTiles ((s.hall.tiles.map (·.1)).filter (fun t => s.computed t && !left.contains t))
  let s := { r.1 with hall := { r.1.hall with rest := some { fading := fading, read := r.2, noScrub := noScrub } } }
  if left.isEmpty then s.hallClose else s

/-- The Hall's work left when its domain stops in a tick runs to its end (R37). -/
def State.hallFinish (s : State) : State :=
  match s.hall.rest with
  | none => s
  | some h =>
    let r := s.reachTiles (s.hall.left.filter (fun t => (s.hall.tiles.map (·.1)).contains t))
    let h := { h with read := h.read ++ r.2, noScrub := false }
    State.hallClose { r.1 with hall := { r.1.hall with left := [], rest := some h } }

/-- The COPY of tile `t` has read its last word: READY, or FAILED where the active bank fails its checksum (R249, R254). -/
def State.copyEnd (s : State) (t : Nat) : State :=
  let x := s.tile t
  let a := x.bank x.active
  if a.passes t x.active then
    let y := x.setBank x.shadow a.copyOf
    let s := s.setTile t { y with state := 0, dirty := false, shadowBad := false, lastFail := false, refresh := false }
    if x.refresh then s.post 0x9002 4 [pack [(0, t), (10, 1)]] else s
  else
    let y := x.setBank x.shadow ((x.bank x.shadow).overwritten a 1024)
    (s.setTile t { y with state := 4, dirty := true, shadowBad := true, lastFail := true }).csumFail t x.active 2

/-- Damage to a bank as read: byte `byte` of bank `b` of tile `t` with bits `flip` inverted; for a byte past the image, the
EMPTY flag's parity turns wrong (R253, R257). -/
def State.hallDamage (s : State) (t b byte flip : Nat) : State :=
  let x := s.tile t
  let k := x.bank b
  if 3072 ≤ byte then s.setTile t (x.setBank b { k with empty := !k.empty, parBad := true })
  else
    let v := Sparse.get (fun _ => 0) k.dmg byte ^^^ flip % 256
    s.setTile t (x.setBank b { k with dmg := Sparse.put (fun _ => 0) k.dmg byte v })

/-- Damage that has come over the banks (R253, R257). -/
def State.hallDamages (s : State) (l : List HallHit) : State :=
  s.each l fun s h => if h.tile < 1024 && h.bank < 2 then s.hallDamage h.tile h.bank h.byte h.flip else s

/-- TILE_COPY_DONE: the COPY or REPAIR of tile `t` has read its last word (R249, R478); `damage` is what has come over the
banks since. A tile under test (R452) leaves its state with the test. -/
def execTileCopyDone (t : Nat) (damage : List HallHit) (s : State) : Done :=
  .next (s.together fun s => let s := s.hallDamages damage
    let x := s.tile t
    let a := x.bank x.active
    let b := x.bank x.shadow
    if (match s.hallTest with | some w => w.cur == some t | none => false) then s else
    match x.state with
    | 2 => s.copyEnd t
    | 3 =>
      if b.passes t x.shadow then
        let y := x.setBank x.active b.copyOf
        ((s.setTile t { y with state := 0 }).bump Reg.hallRepairs 1).post 0x9002 4 [pack [(0, t)]]
      else
        let y := x.setBank x.active { a.overwritten b 1024 with empty := false, parBad := false }
        (s.setTile t { y with state := 4 }).csumFail t x.shadow 2
    | _ => s)

/-- TILE_STATUS. -/
def State.tileStatus (s : State) (t : Nat) : Nat :=
  let x := s.tile t
  pack [(0, x.state), (3, x.active), (4, b2n x.dirty), (5, b2n x.shadowBad), (6, b2n (x.bank x.active).empty),
    (7, b2n (x.bank x.shadow).empty), (8, if x.state = 1 then x.fade - x.gone else 0), (16, b2n x.lastFail)]

/-- TILE_CSUM (R253). -/
def State.tileCsum (s : State) (t : Nat) : Nat := (s.tile t).b0.csum t 0 + (s.tile t).b1.csum t 1 * 2 ^ 32

/-- HALL_STATUS. -/
def State.hallStatus (s : State) : Nat :=
  let n (f : Tile → Bool) : Nat := (s.hall.tiles.filter (fun p => f p.2)).length
  pack [(0, n (·.dirty)), (11, n Tile.busy), (22, n (fun x => x.state == 4)), (33, s.hall.skipped), (44, b2n s.hallRuns),
    (45, n (·.shadowBad))]

end Sys2Proof.Machine
end

