-- ==== Sys2Proof/Machine/SelfCompare.lean ====
section
/-! DEFINITION. The dumbwaiter self-compare of a room (R449, R450, R453). -/

namespace Sys2Proof.Machine

/-- Event 0xE001 (R453): test 0 production, 1 self-compare, 2 LPDDR4X, 3 Hall tile; outcome 0 passed, 1 failed, 2 aborted. -/
def State.testPost (s : State) (test outcome word2 : Nat) : State :=
  s.post 0xE001 4 [pack [(0, test), (4, outcome)], word2]

/-- One step of the LFSR of x³² + x²² + x² + x + 1: a left shift, the new bit 0 the sum of the tapped bits (PRESUMED form,
log entry 23). -/
def lfsrStep (n : Nat) : Nat :=
  (n * 2 + (n / 2 ^ 31 + n / 2 ^ 21 + n / 2 + n) % 2) % 2 ^ 32

/-- The input values of one position, channel 0 first, and the LFSR after them (R449). -/
def lfsrPosition : Nat → Nat → Nat → Sparse Nat × Nat
  | 0, _, n => ([], n)
  | k + 1, ch, n =>
    let v := lfsrStep n
    let r := lfsrPosition k (ch + 1) v
    ((if v = 0 then r.1 else (ch, v) :: r.1), r.2)

/-- The inputs of a block of `len` positions. -/
def lfsrBlock : Nat → Nat → List (Sparse Nat) × Nat
  | 0, n => ([], n)
  | len + 1, n =>
    let p := lfsrPosition 128 0 n
    let r := lfsrBlock len p.2
    (p.1 :: r.1, r.2)

/-- The next block of the self-compare starts (R449). -/
def State.dwBlock (s : State) (t : DwTest) : State :=
  let b := lfsrBlock (s.blockLen t.room) t.lfsr
  let rm := s.room t.room
  let s := { s with dw := some { t with lfsr := b.2 } }
  (s.setRoom t.room { rm with cur := b.1, blocks := [{ t0 := 0, ran := true }] }).roomBegin t.room false

/-- A guest slot that a self-compare may take: its core in service, outside a vote, not promised to a room; one that is being loaded for
a restore only where there is no other, and the restore starts over (R336, R450; the last DEDUCED, log entry 22). -/
def State.dwSlot (s : State) : Option Nat :=
  match [0, 1].find? s.slotFree with
  | some k => some k
  | none => [0, 1].find? fun k => match (s.slot k).core with
    | some c => (s.core c).service == 1 && !s.promised c && (s.slot k).state == 6
    | none => false

/-- State checks of DW_TEST (R450). -/
def scDwTest (s : State) (n : Nat) : Status :=
  let r := field n 0 5
  if r < 18 && !s.fuse.hasRoom r then .absent
  else if 18 ≤ r then .outOfRange
  else if s.fuse.isGuest r || s.roomState r != 0 then .conflict
  else if s.dw.isSome || s.dwSlot.isNone then .busy
  else .ok

/-- A guest core leaves what it is loaded for (R336). -/
def State.restoreAgain (s : State) (k : Nat) : State :=
  match (List.range 18).find? (fun r => (s.guarded r).restore.isSome && (s.guarded r).restore == (s.slot k).core) with
  | some r => s.restoreTake r
  | none => s

/-- DW_TEST is accepted: a guest core leaves its shadow and is loaded with the room's state, and the first block starts (R449). -/
def applyDwTest (s : State) (n : Nat) : State :=
  let k := s.dwSlot.getD 0
  let s := s.shadowEnd k
  let s := (s.setSlot k { s.slot k with state := 2, own := (s.room (field n 0 5)).core, junk := none }).restoreAgain k
  let s := (s.put Reg.dwTestStatusState.key 1).seekBoth
  s.dwBlock { room := field n 0 5, slot := k, blocks := field n 8 24, lfsr := field n 32 32 }

/-- A block of the self-compare ends at the END at `pc`: compared, and the next one starts unless the test is over (R449). -/
def State.dwEnd (s : State) (t : DwTest) (pc : Nat) (w : EndWork) : State :=
  let rm := s.room t.room
  let s := (s.wr (Reg.roomStatusPcLast t.room) pc).wr (Reg.roomLastInstr t.room) (min rm.instr 0xFFFFFFFF)
  let s := s.wr (Reg.roomLastBcnt t.room) rm.bcnt
  let s := s.setRoom t.room { rm with block := false, instr := 0, written := [] }
  let s := s.bump Reg.dwTestStatusBlocksDone 1
  let n := s.rd Reg.dwTestStatusBlocksDone
  if w.differ.isSome then { s.wr Reg.dwTestStatusFirstFail n with dw := some { t with ended := true } }
  else if t.blocks ≤ n then { s with dw := some { t with ended := true } }
  else s.dwBlock t

/-- DW_TEST_DONE: the self-compare ends, by its last block or by a block that does not end in 10 ms; the guest core
self-tests (R449, R453). -/
def execDwTestDone (timeout : Bool) (s : State) : Done :=
  .next (s.together fun s => match s.dw with
    | none => s
    | some t =>
      if !t.ended && !timeout then s
      else
        let late := timeout && !t.ended
        let s := if late then
            (s.wr Reg.dwTestStatusTimeout 1).wr Reg.dwTestStatusFirstFail (s.rd Reg.dwTestStatusBlocksDone + 1)
          else s
        let fail := s.on Reg.dwTestStatusFirstFail
        let rm := s.room t.room
        let s := s.setRoom t.room { rm with block := false, blocks := [], core := { rm.core.flush with slots := 0, target := none, rep := none } }
        let s := s.setSlot t.slot { s.slot t.slot with own := (s.room t.room).core }
        let s := { s.wr Reg.dwTestStatusState (if fail then 3 else 2) with dw := none }
        let s := match (s.slot t.slot).core with | some c => s.selftest c | none => s
        s.testPost 1 (b2n fail) (s.rd Reg.dwTestStatusFirstFail))

end Sys2Proof.Machine
end

