-- ==== Sys2Proof/Machine/ServiceTest.lean ====
section
/-! DEFINITION. The self-tests of the service area beside the dumbwaiter's: the Hall tile test, the LPDDR4X test and the
production self-tests (R440, R451 to R453). -/

namespace Sys2Proof.Machine

/-! The Hall tile test. -/

/-- HALL_TEST: COUNT tiles that exist. -/
def vcHallTest (n : Nat) : Bool := 1 ≤ field n 10 11 && field n 10 11 ≤ 1024 && field n 0 10 + field n 10 11 ≤ 1024

/-- HALL_TEST while a test runs is refused. -/
def scHallTest (s : State) : Status := if s.hallTest.isSome then .busy else .ok

/-- A bank that holds the test's pattern (R452). -/
def testBank : HallBank :=
  bankOf (((List.range 1024).map fun q => (q, Config.hallPattern q % 2 ^ 24)).filter fun p => p.2 != 0)

/-- The turn of the next tile: under test, the pattern in its shadow bank, where it is READY with DIRTY 0, else skipped (R452). Answers
whether the turn was a skip. -/
def State.hallTurn (s : State) : State × Bool :=
  match s.hallTest with
  | none => (s, false)
  | some w =>
    if w.count ≤ w.turn then (s, false)
    else
      let t := w.first + w.turn
      let x := s.tile t
      if x.state = 0 && !x.dirty && !x.swap then
        ({ s.setTile t { x.setBank x.shadow testBank with state := 2 } with hallTest := some { w with cur := some t } }, false)
      else ({ s.bump Reg.hallTestStatusSkipped 1 with hallTest := some { w with turn := w.turn + 1 } }, true)

/-- Turns back to back until a tile is under test, `n` at most. -/
def State.hallTurns : Nat → State → State
  | 0, s => s
  | n + 1, s => let r := s.hallTurn; if r.2 then State.hallTurns n r.1 else r.1

/-- The tile under test is done: counted, its shadow bank restored from the active one (R452). -/
def State.hallTileDone (s : State) (fail : Bool) : State :=
  match s.hallTest with
  | some w =>
    match w.cur with
    | some t =>
      let s := (s.bump Reg.hallTestStatusTested 1).bumpIf fail Reg.hallTestStatusFailed
      let s := if fail && s.rd Reg.hallTestStatusFailed == 1 then
          (s.wr Reg.hallTestStatusFirstFail t).wr Reg.hallTestStatusEngine (w.turn % 64)
        else s
      State.copyEnd { s with hallTest := some { w with cur := none, turn := w.turn + 1 } } t
    | none => s
  | none => s

/-- One tick of the Hall's domain: the tile under test is done, and the next has its turn (R452). -/
def State.hallTestTick (s : State) (fail : Bool) : State := ((s.hallTileDone fail).hallTurn).1

/-- HALL_TEST is accepted (R452). -/
def applyHallTest (s : State) (n : Nat) : State :=
  let s := { s.put Reg.hallTestStatusState.key 1 with hallTest := some { first := field n 0 10, count := field n 10 11 } }
  if s.hallRuns then s else State.hallTurns 1025 s

/-- HALL_TEST_TILE_DONE: with the Hall's domain not running, the tile under test, if there is one, is done and the next follows; so the
test goes on where the domain stops between two turns (R452). -/
def execHallTestTileDone (fail : Bool) (s : State) : Done :=
  .next (s.together fun s => match s.hallTest with
    | some _ => if s.hallRuns then s else State.hallTurns 1025 (s.hallTileDone fail)
    | none => s)

/-- HALL_TEST_DONE: every tile has had its turn; the result is reported (R452, R453). -/
def execHallTestDone (s : State) : Done :=
  .next (match s.hallTest with
    | some w =>
      if w.count ≤ w.turn && w.cur.isNone then
        let n := s.rd Reg.hallTestStatusFailed
        let s := { s.wr Reg.hallTestStatusState (if n = 0 then 2 else 3) with hallTest := none }
        s.testPost 3 (if n = 0 then 0 else 1) n
      else s
    | none => s)

/-! The LPDDR4X test. -/

/-- A start needs DDR STATE READY and no page held (R451). -/
def scDdrTest (s : State) (n : Nat) : Status :=
  if n = 1 && (!s.ddrReady || s.snapUsed true + s.dlyUsed true + s.recUsed true != 0) then .conflict else .ok

/-- The test's findings reported: words read wrong, saturating, and with any of them the first one's address and the lines (R451). -/
def State.ddrReport (s : State) (x : Nat × Nat × Nat) : State :=
  let n := min x.1 0xFFFFFF
  let s := s.wr Reg.ddrTestStatusErrors n
  if n = 0 then s else (s.wr Reg.ddrTestStatusFirstAddr x.2.1).wr Reg.ddrTestDqDq x.2.2

/-- The state with what a test that runs has found so far shown (R451; free values, log entry 3). -/
def State.ddrSoFar (s : State) : State := if s.ddrTest then s.ddrReport (Config.ddrFound s.rc) else s

/-- The test ends in a STATE, with event 0xE001 of an outcome (R451, R453). -/
def State.ddrEnd (s : State) (st outcome : Nat) : State :=
  State.testPost { s.wr Reg.ddrTestStatusState st with ddrTest := false } 2 outcome (s.rd Reg.ddrTestStatusErrors)

/-- DDR_TEST 1 starts the test; 2 aborts it, and what it has found by then stands (R451). -/
def applyDdrTest (s : State) (n : Nat) : State :=
  if n = 1 then { (s.put Reg.ddrTestStatusState.key 1).put Reg.ddrTestDqDq.key 0 with ddrTest := true }
  else if s.ddrTest then s.ddrSoFar.ddrEnd 4 2
  else s

/-- DDR_TEST_DONE: the test ends with what it found: words read wrong, the first one's address, the lines read wrong (R451, R453). -/
def execDdrTestDone (errors addr dq : Nat) (s : State) : Done :=
  .next (if !s.ddrTest then s
    else (s.ddrReport (errors, addr, dq)).ddrEnd (if errors = 0 then 2 else 3) (if errors = 0 then 0 else 1))

/-! The production self-tests. -/

/-- Whether a start waits for the production self-tests (R440). -/
def State.testBlocks (s : State) : Bool := s.rd Reg.deviceStatusBootMode == 3 && !s.on Reg.selftestResultDone

/-- PRODUCTION_SELFTEST_START: in test mode, once LOCKED (R440). -/
def execProductionSelftestStart (s : State) : Done :=
  .next (if s.boot.testWant && s.locked then { s with boot := { s.boot with testWant := false, testing := true } } else s)

/-- PRODUCTION_SELFTEST_DONE: the results, the cores that failed by number; fabric initialisation runs again (R440, R453). -/
def execProductionSelftestDone (cellar hallSram hallEngines asrc : Bool) (failed : List Nat) (s : State) : Done :=
  .next (s.together fun s => if !s.boot.testing then s
    else
      let bad := failed.filter s.fuse.hasRoom
      let all := cellar && hallSram && hallEngines && asrc && bad.isEmpty
      let s := s.put Reg.selftestResultDone.key
        (pack [(0, 1), (1, b2n cellar), (2, b2n hallSram), (3, b2n hallEngines), (4, b2n bad.isEmpty), (5, b2n asrc)])
      let s := s.each bad fun s c => (s.setCore c { s.core c with service := 3 }).displace c
      let s := s.testPost 0 (b2n !all) 0
      { s with boot := { s.boot with testing := false, tested := true, fabric := false } })

end Sys2Proof.Machine
end

