-- ==== Sys2Proof/Machine/Tone.lean ====
section
/-! DEFINITION. The tone generators (R29). -/

namespace Sys2Proof.Machine

/-- Generator `g` beside its entries. -/
def State.tone (s : State) (g : Nat) : Tone := Sparse.get (fun _ => {}) s.path.tones g

/-- The state with a generator replaced. -/
def State.setTone (s : State) (g : Nat) (x : Tone) : State :=
  { s with path := { s.path with tones := Sparse.put (fun _ => {}) s.path.tones g x } }

/-- FREQ within 0.45 × a rate (R29). -/
def toneFits (freq rate : Nat) : Bool := freq ≤ 45 * rate

/-- The limit of R29 for a TONE_CTRL and a FREQ. -/
def State.toneOk (s : State) (ctrl freq : Nat) : Bool := field ctrl 2 1 == 0 || toneFits freq (s.domRate (field ctrl 3 2))

/-- State checks of TONE_CTRL (R24, R29). -/
def scToneCtrl (s : State) (g n : Nat) : Status :=
  if !s.toneOk n (s.rd (Reg.toneFreqFreq g)) then .outOfRange
  else if s.moveBlocked (.tone g) (domIf (field n 2 1 == 1) (field n 3 2)) then .conflict
  else .ok

/-- State checks of TONE_FREQ (R29). -/
def scToneFreq (s : State) (g n : Nat) : Status :=
  if s.toneOk (s.get (Reg.toneCtrlMode g).key) (field n 0 24) then .ok else .outOfRange

/-- The sine of generator `g` starts again at phase 0 (R29). -/
def State.toneRestart (s : State) (g : Nat) : State := s.setTone g { s.tone g with restart := true }

/-- TONE_CTRL is stored: a domain joined or changed, or MODE 1 taken, restarts the sine (R29). -/
def applyToneCtrl (s : State) (g old : Nat) : State :=
  let n := s.get (Reg.toneCtrlMode g).key
  let joined := field old 2 1 == 0 && field n 2 1 == 1
  let moved := field old 3 2 != field n 3 2
  let sine := field old 0 2 != 1 && field n 0 2 == 1
  if joined || moved || sine then s.toneRestart g else s

/-- A turn in the units of a generator's phase: 100 × 28,224,000, a whole number of units per 0.01 Hz at every rate. -/
def turn : Nat := 2822400000

/-- The terms of the sine's series in units of 2^-96: the term last added, its square factor and its degree. -/
def sineTerms : Nat → Nat → Nat → Int → Int → Int
  | 0, _, _, _, sum => sum
  | n + 1, x2, k, term, sum =>
    let t := -(term * (x2 : Int)) / ((2 : Int) ^ 96 * ((k + 1) * (k + 2) : Nat))
    sineTerms n x2 (k + 2) t (sum + t)

/-- sin of `r` / turn of a quarter turn, in units of 2^-96; exact at 0, a third and the whole of the quarter. -/
def sineQuarter (r : Nat) : Nat :=
  if r = 0 then 0
  else if r = turn then 2 ^ 96
  else if 3 * r = turn then 2 ^ 95
  else
    let x := 124451306656115542615260972311 * r / turn
    (sineTerms 24 (x * x / 2 ^ 96) 1 x x).toNat

/-- sin of a phase, in units of 2^-96. -/
def sine (phase : Nat) : Int :=
  let k := 4 * phase / turn % 4
  let r := 4 * phase % turn
  let v := sineQuarter (if k % 2 = 0 then r else turn - r)
  if k < 2 then v else -(v : Int)

/-- The sample of generator `g` for tick `n` at a rate (R29); pink noise is a free value within LEVEL (log entry 3). -/
def State.toneTick (s : State) (g n rate : Nat) : State :=
  let level := s.rd (Reg.toneLevelLevel g)
  let x := s.tone g
  match s.rd (Reg.toneCtrlMode g) with
  | 1 =>
    let ph := if x.restart then 0 else x.phase
    let v := sat32 ((level : Int) * 2048 * sine ph / (2 : Int) ^ 96)
    s.setTone g { phase := (ph + s.rd (Reg.toneFreqFreq g) * (28224000 / rate)) % turn, restart := false, out := v }
  | 2 =>
    let (f, s) := s.draw
    let p := level * 2048
    s.setTone g { x with out := sat32 ((f % (2 * p + 1) : Nat) - (p : Int)) }
  | 3 => s.setTone g { x with out := if n % rate = 0 then sat32 (level * 2048 : Nat) else 0 }
  | _ => s.setTone g { x with out := 0 }

/-- The generators of domain `d` in tick `n`. -/
def State.tonesTick (s : State) (d n : Nat) : State :=
  s.units 16 fun s g => if s.domainOf (.tone g) == some d then s.toneTick g n (s.domRate d) else s

end Sys2Proof.Machine
end

