-- ==== Sys2Proof/Machine/Ticks.lean ====
section
/-! DEFINITION. A tick: its edge and five stages, its deadline, and late work (R15 to R20, R25, R36 to R38, R44). The work of a
tick that is in time acts as one with its edge; which of it is late comes with the command, and is abandoned at the deadline or, where
the edge that ends the tick never comes, runs to its end (DESIGN CHOICE, log entry 29). -/

namespace Sys2Proof.Machine

/-- The value a source presents in the tick in progress, toward sink `o` (R19, R28, R187). -/
def State.present (s : State) (x : Src) (toStream : Bool) : Nat :=
  match x.cls with
  | 1 => s.rxPresent x.unit x.ch toStream
  | 2 => (s.side x.unit 1).vals.getD (x.lane * 32 + x.ch) 0
  | 3 => s.roomOut x.unit x.ch
  | 4 => Sparse.get (fun _ => 0) s.hall.out x.ch
  | 5 => s.convPresent x.unit x.ch
  | 6 => (s.tone x.unit).out
  | _ => 0

/-- Whether a sink lies within its unit's present range: a stream channel below its context's channel number; a TDM slot at or above the
side's SLOTS too (R22; the last DESIGN CHOICE, log entry 49). -/
def State.sinkInRange (s : State) (o : Nat) : Bool :=
  match sinkOwner o with | .txStream c => o % 64 < s.rd (Reg.txCtrlChannels c) | _ => true

/-- The sinks of domain `d` that stage 2, or stage 4, fills: those with a source, those that hold a value, those with a delay
line (R17, R22, R350). A sink not among them holds 0 and is fed 0. -/
def State.sinksOf (s : State) (d : Nat) (two : Bool) : List Nat :=
  let held := s.path.sink.map (fun (p : Nat × Nat) => p.1)
  ((s.patched ++ held).filter s.sinkInRange ++ s.lines.map s.lineSink).eraseDups.filter
    (fun o => sinkStage2 o == two && s.domainOf (sinkOwner o) == some d)

/-- A sink takes a value, and the label that comes with it (R25, R188). -/
def State.putSink (s : State) (o v : Nat) (label : Option Nat) : State :=
  { s with path := { s.path with
      sink := Sparse.put (fun _ => 0) s.path.sink o v
      labels := Sparse.put (fun _ => none) s.path.labels o label } }

/-- What the Hallway copies to a sink in the tick in progress, and the label with it; 0 to a sink out of range (R22, R188, R350). -/
def State.copied (s : State) (o : Nat) : Nat × Option Nat :=
  let x := (decodeSrc (s.source o)).getD ⟨0, 0, 0, 0⟩
  if s.sinkInRange o then (s.present x (o < 0x4000), s.sourceLabel x) else (0, none)

/-- A copy is done: the sink takes the value, or what its delay line gives for it (R25, R350). -/
def State.copyTo (s : State) (o : Nat) (v : Nat × Option Nat) : State :=
  match s.lineOf o with
  | none => s.putSink o v.1 v.2
  | some k =>
    let r := s.delay k v
    r.2.putSink o r.1.1 r.1.2

/-- A copy of a sink waits for its delay line's sample, where lines `wait` in LPDDR4X have not got theirs (R354). -/
def State.copyWaits (s : State) (o : Nat) (wait : List Nat) : Bool :=
  match s.lineOf o with
  | some k => wait.contains k && s.on (Reg.dlyCfgMem k)
  | none => false

/-- The sinks of a stage whose copies are late: not done in time, or waiting for their delay line (R36, R354). -/
def State.lateSinks (s : State) (d : Nat) (two : Bool) (late wait : List Nat) : List Nat :=
  (s.sinksOf d two).filter (fun o => late.contains o || s.copyWaits o wait)

/-- A fill stage of domain `d`: the copies in time are done, the late ones noted with what they carry (R17, R36, R37). -/
def State.fillStage (s : State) (d : Nat) (two : Bool) (late wait : List Nat) : State :=
  let l := s.lateSinks d two late wait
  let notes := l.map fun o =>
    let v := s.copied o
    ({ sink := o, val := v.1, label := v.2, wait := !late.contains o } : LateCopy)
  let s := s.each ((s.sinksOf d two).filter (fun o => !l.contains o)) fun s o => s.copyTo o (s.copied o)
  let t := s.tick d
  s.setTick d (if two then { t with fill2 := notes } else { t with fill4 := notes })

/-- A late copy is abandoned at the deadline: the sink keeps its value. A delay line that waited for its sample has stored the tick's
value and counts; what a line stores where its copy was not made is a free value (R36, R350, R354; log entry 3). -/
def State.copyMissed (s : State) (x : LateCopy) : State :=
  match s.lineOf x.sink with
  | none => s
  | some k =>
    if x.wait then ((s.delay k (x.val, x.label)).2).bump Reg.cellarDlyLate 1
    else
      let r := s.draw
      (r.2.delay k (r.1 % 2 ^ 32, none)).2

/-- An input position of tick `n` filled late, as its domain stops: the room's or the converter's input takes the value (R37). -/
def State.lateInput (s : State) (n o : Nat) : State :=
  let v := s.sinkVal o
  match sinkOwner o with
  | .room r =>
    let rm := s.room r
    let put (m : Sparse Nat) : Sparse Nat := Sparse.put (fun _ => 0) m (o % 128) v
    let ins := match rm.ins with | m :: l => put m :: l | [] => []
    let now := (rm.block || rm.waiting) && (match rm.blocks with | b :: _ => b.t0 == n && b.ran | [] => false)
    let k := rm.cur.length - 1
    s.setRoom r { rm with ins := ins, cur := if now then listSet rm.cur k (put (rm.cur.getD k [])) else rm.cur }
  | .asrcIn c =>
    let x := s.conv c
    match x.fifo with
    | (t, l) :: rest => s.setConv c { x with fifo := (t, listSet l (o % 8) v) :: rest }
    | [] => s
  | _ => s

/-- The rooms of domain `d` whose running block is due before edge `n + 1`: it is late, and so is its shadow run (R45, R47). -/
def State.blocksLate (s : State) (d n : Nat) : State :=
  s.each (s.roomsIn d) fun s r =>
    let rm := s.room r
    if (rm.block || rm.waiting) && !rm.judged && rm.due == n + 1 then
      let s := (s.setRoom r { rm with judged := true }).blockResult r 0 true
      match s.inStep r with
      | some k => s.blockWindow d (s.fuse.guestRoom k) 0 true
      | none => s
    else s

/-- Rooms of domain `d` in whose running block a position that both cores have released differs: a mismatch, before stage 2 reads;
where both guests find one, none is put to the vote (R329, R330, R341). -/
def State.positionsDiffer (s : State) (d : Nat) (l : List Nat) : State :=
  let found := l.eraseDups.filter fun r =>
    s.domainOf (.room r) == some d && (s.room r).block && (match (s.room r).current with | some b => 0 < b.released | none => false)
      && (s.inStep r).isSome
  s.each found fun s r => match s.inStep r with | some k => s.mismatch r k false (1 < found.length) | none => s

/-- The work of the tick in progress of domain `d` that is not done by its deadline is abandoned, each kind as its rule says (R36, R238,
R354, R356). -/
def State.abandonWork (s : State) (d : Nat) : State :=
  let t := s.tick d
  let s := s.each (t.fill2 ++ t.fill4) State.copyMissed
  let s := s.each t.asrc fun s c => s.bump (Reg.asrcLate c) 1
  let s := if s.domainOf .hall = some d then s.hallClose else s
  if t.recorder.isSome then s.recTick (s.rd (Reg.tickCount d)) none else s

/-- The deadline of the tick in progress of domain `d`: late work is abandoned and counts once, and the slack of the tick and of the
blocks due is recorded (R36, R44, R45). -/
def State.tickClose (s : State) (d : Nat) : State :=
  let t := s.tick d
  if t.open_ && !t.launched then
    let s := s.abandonWork d
    let s := s.setTick d { t with launched := true, fill2 := [], fill4 := [], asrc := [], recorder := none }
    let s := if t.late then s.dlMiss d 0 0 else s
    (s.tickResult d (if t.late then 0 else t.slack) t.late).blocksLate d (s.rd (Reg.tickCount d))
  else s

/-- TICK_DEADLINE: RC reaches e(n+1) minus 1 µs while the domain runs (R36, R37); a step of the Hearth on the way that puts the edge off
leaves the deadline to come. -/
def execTickDeadline (d : Nat) (s : State) : Done :=
  .next (s.together fun s => if d < 4 && s.running d then
    let s := s.advance ((s.edgeAt d (s.tick d).next - 2000) / 4)
    if 4 * s.rc + 3 < s.edgeAt d (s.tick d).next - 2000 then s else s.tickClose d
  else s)

/-- The Hall's part of a tick: what it computed in the tick before is presented (R19). -/
def State.hallShow (s : State) : State := { s with hall := { s.hall with out := s.hall.next } }

/-- The Hall tiles a tick does not reach: with an input copy late none is, for stage 2 of the Hall is not done (R18, R36). -/
def State.hallLate (s : State) (d : Nat) (w : TickWork) : List Nat :=
  let all := (s.lateSinks d true w.fill2 w.lines).any (fun o => o / 0x10000 == 3)
  ((if all then List.range 1024 else w.hall).filter (fun t => t < 1024 && s.computed t)).eraseDups

/-- The converters in SETTLE or LOCKED whose output samples of a tick of domain `d` are late (R238). -/
def State.asrcLateIn (s : State) (d : Nat) (w : TickWork) : List Nat :=
  w.asrc.eraseDups.filter (fun c => s.domainOf (.asrcOut c) == some d && 2 ≤ s.convState c)

/-- Whether the recorder works in the ticks of domain `d` (R355). -/
def State.recorderWorks (s : State) (d : Nat) : Bool :=
  s.rd Reg.recCfgDomain == d && (s.rd Reg.recStatusState == 1 || s.rd Reg.recStatusState == 2)

/-- Whether any work of a tick of domain `d` is late, be it stage 5 alone (R36, R44, R238, R354, R356). -/
def State.anyLate (s : State) (d : Nat) (w : TickWork) : Bool :=
  w.launch || !(s.lateSinks d true w.fill2 w.lines).isEmpty || !(s.lateSinks d false w.fill4 w.lines).isEmpty
    || (s.domainOf .hall == some d && !(s.hallLate d w).isEmpty)
    || !(s.asrcLateIn d w).isEmpty
    || (w.recorder && s.recorderWorks d)

/-- Launch of the tick that ends, at the edge that ends it, and capture of the tick that begins (R17, R31, R34, R35). -/
def State.edgeStages (s : State) (d q : Nat) (launch : Bool) : State :=
  let s := if launch then s.tdmLaunch d q else s
  let s := s.streamPairs d q
  let s := if launch then s.streamLaunch d else s
  (s.streamCapture d).tdmCapture d q

/-- The values the recorder takes in stage 4 (R355, R356). -/
def State.recVals (s : State) : List Nat :=
  (List.range (s.rd Reg.recCfgChannels)).map
    (fun c => s.present ((decodeSrc (s.rd (Reg.recSrcSource c))).getD ⟨0, 0, 0, 0⟩) false)

/-- The Hall's compute stage, with what damage shows in its banks (R241, R255). -/
def State.hallStage (s : State) (d : Nat) (w : TickWork) : State :=
  if s.domainOf .hall != some d then s
  else
    let late := s.hallLate d w
    let s := (s.hallDamages w.damage).hallCompute late (w.noScrub && !late.isEmpty)
    s.hallTestTick w.testFail

/-- The recorder's part of stage 4 of tick `n` of domain `d`; late, it is noted (R355, R356). -/
def State.recStage (s : State) (d n : Nat) (late : Bool) : State :=
  if !s.recorderWorks d then s
  else if late then s.setTick d { s.tick d with recorder := some s.recVals }
  else s.recTick n (some s.recVals)

/-- Stages 2 to 4 of tick `n` of domain `d`, whose edge came at `q` (R17, R18, R33). -/
def State.workStages (s : State) (d n q : Nat) (w : TickWork) : State :=
  let rooms := s.roomsIn d
  let s := if s.domainOf .hall = some d then s.hallShow else s
  let s := (s.each rooms State.roomResume).positionsDiffer d w.differs
  let s := s.each rooms fun s r => s.roomPresent d r n (w.unchecked.contains r)
  let s := (s.tonesTick d n).convEdges d q w.asrc
  let s := s.setTick d { s.tick d with asrc := s.asrcLateIn d w }
  let s := (s.fillStage d true w.fill2 w.lines).convInputs d q
  let s := s.hallStage d w
  let s := s.each rooms fun s r => s.roomTick d r n
  let s := (s.fillStage d false w.fill4 w.lines).recStage d n w.recorder
  s.each rooms fun s r => s.roomAfter r n

/-- Edge e(n) of domain `d`, the next on its grid, at `q` quarter counts, with the slack its work will have left and what else the
fabric brings to tick n (R15, R17, R44, R113). -/
def State.tickBegin (s : State) (d q slack : Nat) (w : TickWork) : State :=
  let s := s.tickClose d
  let s := s.each (s.roomsIn d) State.faultDue
  let t := s.tick d
  let n := if t.open_ then s.rd (Reg.tickCount d) + 1 else 0
  let s := (s.put (Reg.tickCount d).key n).wclkEdges d t.next q
  let late := s.anyLate d w
  let s := s.edgeStages d q t.open_
  (s.setTick d { open_ := true, late := late, slack := slack, edge := q, next := t.next + 1 }).workStages d n q w

/-- TICK_EDGE: RC reaches the next edge of domain `d`'s grid, and the tick begins (R15, R17, R113); a step of the Hearth on the way that
puts the edge off leaves it to come. -/
def execTickEdge (d slack : Nat) (w : TickWork) (s : State) : Done :=
  .next (s.together fun s => if d < 4 && s.running d then
    let s := s.advance (s.edgeAt d (s.tick d).next / 4)
    let q := s.edgeAt d (s.tick d).next
    if 4 * s.rc + 3 < q then s else s.tickBegin d q slack w
  else s)

/-- What a source code gives in the end, noted as `v` while its work was not done: a converter's output sample that was late is the
tick's own (R19, R37). -/
def State.inTheEnd (s : State) (late : List Nat) (code v : Nat) : Nat :=
  match decodeSrc code with
  | some x => if x.cls = 5 && late.contains x.unit then s.convPresent x.unit x.ch else v
  | none => v

/-- A late copy is done after all (R37). -/
def State.copyDone (s : State) (late : List Nat) (x : LateCopy) : State :=
  s.copyTo x.sink (if s.sinkInRange x.sink then s.inTheEnd late (s.source x.sink) x.val else x.val, x.label)

/-- The work begun for the tick in progress of domain `d` runs to its end: nothing of it is late (R37). -/
def State.finishWork (s : State) (d : Nat) : State :=
  let t := s.tick d
  let n := s.rd (Reg.tickCount d)
  let s := s.each t.asrc State.convSample
  let s := s.each t.fill2 fun s x => (s.copyDone t.asrc x).lateInput n x.sink
  let s := if s.domainOf .hall = some d then s.hallFinish else s
  let s := s.each t.fill4 fun s x => s.copyDone t.asrc x
  match t.recorder with
  | some v =>
    s.recTick n (some ((List.range v.length).map fun c => s.inTheEnd t.asrc (s.rd (Reg.recSrcSource c)) (v.getD c 0)))
  | none => s

/-- Domain `d` stops: the tick in progress runs to its end, nothing is launched, and no deadline is judged; word clocks and the frame
syncs of master sides made from its APLL stop (R15, R37, R117, R122, R208). TICK_COUNT stays. -/
def State.domainHalt (s : State) (d : Nat) : State :=
  let t := s.tick d
  let s := if t.open_ && !t.launched then s.finishWork d else s
  let s := (s.wr (Reg.domainRunRunning d) 0).setTick d {}
  let s := s.units 2 fun s w => if s.rd (Reg.wclkOutCfgDomain w) = d then s.wclkStop w else s
  let s := s.units 96 fun s k =>
    if s.on (Reg.sideCtrlMaster (k / 2) (k % 2)) && s.domainOf (.tdm (k / 2)) == some d then
      (s.setSideSlew k {}).wr (Reg.sideStatusLocked (k / 2) (k % 2)) 0
    else s
  s.idleArm

end Sys2Proof.Machine
end

