-- ==== Sys2Proof/Machine/Domains.lean ====
section
/-! DEFINITION. The media domains: MD_CTRL, its limits, and what a domain's start and stop do (R15, R37, R40, R122). -/

namespace Sys2Proof.Machine

/-- MD_CTRL: RATE 6 and 7 are out of range. -/
def vcMdCtrl (n : Nat) : Bool := field n 1 3 ≤ 5

/-- Whether every unit of domain `d` stays within the limits tied to the rate, at rate code `r` (R29, R161, R163, R172, R205,
R206, R245, R351). -/
def State.rateFits (s : State) (d r : Nat) : Bool :=
  let t := s.wr (Reg.mdCtrlRate d) r
  let rate := rateHz r
  let is (u : Owner) : Bool := s.domainOf u == some d
  (List.range 256).all (fun c =>
      (!is (.rxStream c) || (t.streamRange (s.get (Reg.rxCtrlEnable c).key) false && s.rd (Reg.rxTimingP c) ≤ maxP rate))
        && (!is (.txStream c) || t.streamRange (s.get (Reg.txCtrlEnable c).key) (s.on (Reg.txCtrlVlanEn c))))
    && (List.range 48).all (fun p => !is (.tdm p) || (List.range 2).all (fun b =>
      ctrlBclkOk (s.get (Reg.sideCtrlEnable p b).key) (some rate)))
    && (!is .hall || rate < 176400 || !s.namesHighHall)
    && (List.range 16).all (fun g => !is (.tone g) || toneFits (s.rd (Reg.toneFreqFreq g)) rate)
    && s.allUnits (some (d, rate)) ≤ 1024

/-- State checks of MD_CTRL (R122). -/
def scMdCtrl (s : State) (d n : Nat) : Status :=
  let old := s.get (Reg.mdCtrlEnable d).key
  let moved := field old 1 3 != field n 1 3
  if !bit old 0 && moved && s.domainUsed d && !s.rateFits d (field n 1 3) then .outOfRange
  else if bit old 0 && moved then .conflict
  else if bit old 0 && !bit n 0 && s.domainUsed d then .conflict
  else .ok

/-- The overruns of the last second of domain `d`'s rooms stand behind its TICK_COUNT, which restarts (R328). -/
def State.overrunsRestart (s : State) (d : Nat) : State :=
  s.each (s.roomsIn d) fun s r =>
    let g := s.guarded r
    if g.overruns = [] then s
    else s.setGuarded r { g with overruns := g.overruns.map (· - ((s.rd (Reg.tickCount d) : Nat) + 1)) }

/-- The APLL of a domain starts: RUNNING, its edges from the first point of its grid on, ticks from 0, sines from phase 0, headroom
windows afresh, the frames of master sides on the grid (R29, R40, R46, R113, R122, R208). -/
def State.domainStart (s : State) (d : Nat) : State :=
  let s := (((s.dlRestart d).overrunsRestart d).wr (Reg.domainRunRunning d) 1).put (Reg.tickCount d).key 0
  let s := s.setTick d { next := s.gridNow d }
  let s := s.units 96 fun s k =>
    if s.on (Reg.sideCtrlMaster (k / 2) (k % 2)) && s.domainOf (.tdm (k / 2)) == some d && 3 ≤ s.sideState (k / 2) (k % 2) then
      s.setSide (k / 2) (k % 2) { s.side (k / 2) (k % 2) with nextFrame := s.firstFrame (k / 2) (k % 2) }
    else s
  let s := s.units 16 fun s g => if s.domainOf (.tone g) == some d then s.toneRestart g else s
  (s.hmFresh d).idleArm

/-- MD_CTRL is stored (R122). -/
def applyMdCtrl (s : State) (d old : Nat) : State :=
  match bit old 0, s.on (Reg.mdCtrlEnable d) with
  | false, true => s.domainStart d
  | true, false => s.domainHalt d
  | _, _ => s

end Sys2Proof.Machine
end

