-- ==== Sys2Proof/Machine/Letterbox.lean ====
section
/-! DEFINITION. Reading the Letterbox: popping, releasing, marking, rewinding, flushing (R411, R416 to R420), its filters
(R424) and HOST_IRQ_N (R423). -/

namespace Sys2Proof.Machine

/-- The header word of an item (R411). -/
def LbItem.head (i : LbItem) : Nat := pack [(0, i.code), (16, i.prio), (19, i.words.length), (24, i.seq)]

/-- The bytes of an item, header first (R420). -/
def LbItem.bytes (i : LbItem) : List Byte := (i.head :: i.words).flatMap (natBe 4)

/-- Items at and after the cursor (R416). -/
def Letterbox.depth (b : Letterbox) : Nat := b.drain.length - b.cursor

/-- A pop of at most `n` items: the bytes returned, and the Letterbox after it (R416, R420). -/
def Letterbox.pop (b : Letterbox) (n : Nat) (mark : Bool) : List Byte × Letterbox :=
  let l := (b.drain.drop b.cursor).take n
  let bytes := if l.isEmpty then natBe 4 0 else l.flatMap LbItem.bytes
  (bytes, { b with cursor := b.cursor + l.length, mark := if mark then some b.cursor else b.mark })

/-- A release of `n` items, 0 for every popped one; `none` where more than were popped (R417). -/
def Letterbox.release (b : Letterbox) (n : Nat) : Option Letterbox :=
  if b.cursor < n then none
  else
    let k := if n = 0 then b.cursor else n
    some { b with drain := b.drain.drop k, cursor := b.cursor - k, mark := b.mark.map (· - k) }

/-- The items in the middle of assembly as a command names them, or not named. -/
def State.assembles (s : State) (l : Option (List (Nat × Bool))) : State := { s with lb := { s.lb with begun := l } }

/-- FLUSH: both banks emptied, and every item in assembly discarded: one that is complete at the same moment, and one in the middle,
of which the later words will be swallowed (R419, R421). Where no command has named the items in the middle of assembly they are a
free value (log entries 3 and 14). -/
def State.lbFlush (s : State) : State :=
  let l := s.lb.begun.getD (Config.assembling s.free)
  let n := s.lb.drain.length + s.lb.fill.length + (s.lb.asm.getD []).length + l.length
  let s := if s.lb.begun.isSome then s else { s with free := s.free + 1 }
  let s := s.bump Reg.hpLbFlushed n
  { s with lb := { s.lb with
      drain := [], cursor := 0, mark := none, fill := [], asm := s.lb.asm.map (fun _ => []), begun := none, cut := s.lb.cut ++ l } }

/-- LB_STATUS. -/
def State.lbStatus (s : State) : Nat :=
  pack [(0, s.lb.bank), (1, b2n s.lb.mark.isSome), (2, s.lb.depth), (12, s.lb.drain.length), (22, s.lb.fill.length),
    (32, lbWords s.lb.fill), (42, s.lb.seqNext % 256)]

/-- LB_CODE_FILTER: CODE 0 is out of range while VALID is 1. -/
def vcLbCodeFilter (n : Nat) : Bool := !(bit n 19 && field n 0 16 == 0)

/-- Two valid filters may not name one code (R424). -/
def scLbCodeFilter (s : State) (f n : Nat) : Status :=
  if bit n 19 && (List.range 16).any (fun k => k != f && s.on (Reg.lbCodeFilterValid k)
      && s.rd (Reg.lbCodeFilterCode k) == field n 0 16) then .conflict else .ok

/-- Whether HOST_IRQ_N is asserted (R423). -/
def State.hostIrq (s : State) : Bool :=
  (s.on Reg.hostIrqCfgIrqLb && (s.lb.drain.drop s.lb.cursor).any (fun i => s.rd Reg.hostIrqCfgIrqPrio ≤ i.prio))
    || (s.on Reg.hostIrqCfgIrqReply && s.host.reply.isSome && !s.host.replyRead)
    || (s.on Reg.hostIrqCfgIrqNotify && !s.host.notify.isEmpty)

/-- What the device drives on ball HOST_IRQ_N: low while a source holds, else nothing with IRQ_OD 1 or while RESET_N is low, and high
with IRQ_OD 0 (R423, R436). -/
def State.hostIrqBall (s : State) : Option Bool :=
  if s.boot.low then none else if s.hostIrq then some false else if s.on Reg.hostIrqCfgIrqOd then none else some true

end Sys2Proof.Machine
end

