-- ==== Sys2Proof/Machine/Links.lean ====
section
/-! DEFINITION. The links of the ports: what brings them up and takes them down, the configuration of the ports, and their
loopbacks as far as they touch the link (R127, R128, R142, R147, R148, R435, R440, R446, R447). -/

namespace Sys2Proof.Machine

/-- Whether port `p` runs: enabled, with RC running, and the production self-tests behind it (R435, R440). -/
def State.portRuns (s : State) (p : Nat) : Bool := s.portEnabled p && s.locked && !s.testBlocks

/-- A link changes, with PTP and the Hearth's candidates of its port; the command it belongs to decides on them (R75, R92, R105, R128). -/
def State.linkGo (s : State) (p : Nat) (up : Bool) (speed : Nat) (full : Bool) : State :=
  if s.linkUp p = up then s.setLink p up speed full
  else ((s.setLink p up speed full).ptpLink p up).signalFail

/-- A link goes down with the speed it had. -/
def State.linkLost (s : State) (p : Nat) : State := s.linkGo p false (s.rd (Reg.portStatusSpeed p)) (s.on (Reg.portStatusFullDuplex p))

/-- The link where the port itself sets it: up on M with IN_BAND 0, up in the MAC loopback, down in the far-end loopback and
while the port does not run (R142, R147, R446). -/
def State.linkOwn (s : State) (p : Nat) : State :=
  if !s.portRuns p || s.rd (Reg.portLoopMode p) = 1 then s.linkLost p
  else if p = 2 then
    (if s.rd (Reg.portLoopMode p) = 3 || !s.on Reg.mCfgInBand then s.linkGo 2 true (s.rd Reg.mCfgSpeed) (s.on Reg.mCfgDuplex)
      else s)
  else if s.rd (Reg.portLoopMode p) = 3 then s.linkGo p true (mediaSpeed (s.rd (Reg.portCfgRate p))) true
  else s

/-- What the PCS of a media port shows: block lock, hi_ber, and alignment marker lock with RS-FEC (PORT_STATUS). It changes only with
LINK_UP, with a LINK_DOWN of a link that is up, and with disable (R128; DESIGN CHOICE, log entry 50). -/
def State.pcs (s : State) (p : Nat) (lock ber am : Bool) : State :=
  ((s.flag (Reg.portStatusBlockLock p) lock).flag (Reg.portStatusHiBer p) ber).flag (Reg.portStatusAmLock p)
    (am && s.rd (Reg.portCfgFec p) == 2)

/-- LINK_UP: 10 ms of block lock without hi_ber on a media port, with RS-FEC also alignment marker lock (R128). -/
def execLinkUp (p : Nat) (s : State) : Done :=
  .next (s.together fun s => if p < 2 && s.portRuns p && s.rd (Reg.portLoopMode p) != 1 && s.rd (Reg.portLoopMode p) != 3 then
      ((s.pcs p true false true).linkGo p true (mediaSpeed (s.rd (Reg.portCfgRate p))) true).settleRefs
    else s)

/-- LINK_DOWN: a media port loses block lock (`cause` 0) or alignment marker lock (1), or has hi_ber (2) (R128). -/
def execLinkDown (p cause : Nat) (s : State) : Done :=
  .next (s.together fun s => if p < 2 && s.linkUp p && s.rd (Reg.portLoopMode p) != 3 then
      (match cause with
        | 0 => s.pcs p false false false
        | 1 => s.pcs p true false false
        | _ => s.pcs p true true (s.on (Reg.portStatusAmLock p))).linkLost p |>.settleRefs
    else s)

/-- M_INBAND_STATUS: what the PHY of port M reports: link, speed and duplex are taken from it; 1000 Mb/s half duplex counts as down
(R147, R148). -/
def execMInbandStatus (up : Bool) (speed : Nat) (full : Bool) (s : State) : Done :=
  .next (s.together fun s => if s.portRuns 2 && s.on Reg.mCfgInBand && s.rd (Reg.portLoopMode 2) = 0 && speed < 3 then
      s.linkGo 2 (up && !(speed == 2 && !full)) speed full
    else s)

/-- PORT_CFG is stored: a port disabled loses its link and its queues (R127, R142). -/
def applyPortCfg (s : State) (p old : Nat) : State :=
  let s := if bit old 0 && !s.portEnabled p then (s.dropQueues p).pcs p false false false else s
  s.linkOwn p

/-- M_CFG: SPEED 3, and 1000 Mb/s half duplex, are out of range (R148). -/
def vcMCfg (n : Nat) : Bool := field n 2 2 != 3 && !(field n 2 2 == 2 && field n 4 1 == 0)

/-- M_CFG is stored (R142, R147). -/
def applyMCfg (s : State) (old : Nat) : State :=
  let s := if bit old 0 && !s.portEnabled 2 then s.dropQueues 2 else s
  s.linkOwn 2

/-- A port's start before the production self-tests is refused (R440). -/
def scPortStart (s : State) (was now : Bool) : Status := if !was && now && s.testBlocks then .busy else .ok

/-- PORT_LOOP: modes 0 to 4, on M 0 and 3 only (R446). -/
def vcPortLoop (p n : Nat) : Bool := if p = 2 then n % 8 == 0 || n % 8 == 3 else n % 8 ≤ 4

/-- A SET that selects mode 1, 2 or 3, or leaves one of them, is refused while the port is enabled (R447). -/
def scPortLoop (s : State) (p n : Nat) : Status :=
  let wire (m : Nat) : Bool := 1 ≤ m && m ≤ 3
  if s.portEnabled p && (wire n || wire (s.rd (Reg.portLoopMode p))) then .conflict else .ok

/-- Whether the transmitter of a media port drives its wire: not before ENABLE, without the clock, or in loopback mode 2 (R435, R436,
R439, R446). -/
def State.mediaTxOn (s : State) (p : Nat) : Bool := s.portRuns p && s.rd (Reg.portLoopMode p) != 2

/-- Whether the RGMII transmit clock and data of port M run: from LOCKED on, while the clock does (R147, R436, R439). -/
def State.rgmiiRuns (s : State) : Bool := s.locked

/-- The level of RGMII TX_CTL: low without the clock and in loopback mode 3, high while a frame is sent (R436, R446). -/
def State.rgmiiTxCtl (s : State) : Bool :=
  s.rgmiiRuns && s.rd (Reg.portLoopMode 2) != 3 && (s.port 2).wire.isSome && (s.port 2).hd == .sending

end Sys2Proof.Machine
end

