-- ==== Sys2Proof/Machine/Monitor.lean ====
section
/-! DEFINITION. The temperature and supply monitors (R50, R342, R343, R346). -/

namespace Sys2Proof.Machine

/-- TEMP_MAX in units of 0.25 °C. -/
def State.tempMax (s : State) : Int := sext 12 (s.rd Reg.tempStatusTempMax)

/-- A state of WARN or CRIT changes: event 0xB009 (R342, R346). -/
def State.tempGo (s : State) (crit up : Bool) : State :=
  let g := if crit then { s.guard with crit := up } else { s.guard with warn := up }
  ({ s with guard := g }).post 0xB009 (if crit then 7 else 6)
    [pack [(0, s.rd Reg.tempStatusTempMax), (12, b2n crit), (13, b2n up)]]

/-- A level judged against a reading (R342). -/
def State.tempLevel (s : State) (crit : Bool) : State :=
  let above := if crit then s.guard.crit else s.guard.warn
  let level : Int := 4 * (s.rd (if crit then Reg.monCfgCrit else Reg.monCfgWarn) : Nat)
  if !above && level ≤ s.tempMax then s.tempGo crit true
  else if above && s.tempMax ≤ level - 20 then s.tempGo crit false
  else s

/-- A changed level judged against the present reading (R342). -/
def State.tempRelevel (s : State) (crit : Bool) : State :=
  let above := if crit then s.guard.crit else s.guard.warn
  let level : Int := 4 * (s.rd (if crit then Reg.monCfgCrit else Reg.monCfgWarn) : Nat)
  if !above && level ≤ s.tempMax then s.tempGo crit true
  else if above && s.tempMax < level - 20 then s.tempGo crit false
  else s

/-- The thermal clamp follows TEMP_MAX (R50). -/
def State.tempClamp (s : State) : State :=
  let on := s.on Reg.vidStatusThermalClamp
  if !on && 380 < s.tempMax then ((s.wr Reg.vidStatusThermalClamp 1).ceilCheck).vidDrive.idleArm
  else if on && s.tempMax < 360 then ((s.wr Reg.vidStatusThermalClamp 0).ceilCheck).vidDrive.idleArm
  else s

/-- The highest reading of a list and its place, the lowest among equals. -/
def hottest : List Int → Nat → Int × Nat → Int × Nat
  | [], _, best => best
  | t :: r, i, best => hottest r (i + 1) (if best.1 < t then (t, i) else best)

/-- TEMP_SAMPLE: the eight sensors' readings in units of 0.25 °C (R342). -/
def execTempSample (t : List Int) (s : State) : Done :=
  .next (s.together fun s => match t.take 8 with
    | [] => s
    | a :: r =>
      let m := hottest r 1 (a, 0)
      let s := (s.wr Reg.tempStatusTempMax (ofInt 12 (clampInt (-2048) 2047 m.1))).wr Reg.tempStatusSensor m.2
      ((s.tempLevel false).tempLevel true).tempClamp)

/-- MON_CFG in range: CRIT from WARN + 5 to 125 (MON_CFG). -/
def vcMonCfg (n : Nat) : Bool := field n 0 8 + 5 ≤ field n 8 8 && field n 8 8 ≤ 125

/-- MON_CFG is stored: a level that changed is judged at once (R342). -/
def applyMonCfg (s : State) (old : Nat) : State :=
  let s := if field old 0 8 = s.rd Reg.monCfgWarn then s else s.tempRelevel false
  if field old 8 8 = s.rd Reg.monCfgCrit then s else s.tempRelevel true

/-- Nominal voltage of a supply channel in mV; none for a channel that is absent or a bank without supply (R343). -/
def State.nominal (s : State) (c : Nat) : Option Nat :=
  match c with
  | 0 => some (600 + 5 * s.rd Reg.vidStatusCodeNow)
  | 1 => some 800
  | 2 => some 850
  | 3 => some 1200
  | 4 => if s.fuse.grade = .f then some 1100 else none
  | 5 => if s.fuse.grade = .f then some 600 else none
  | 6 => some 1800
  | _ => if c < 11 then [none, some 1800, some 2500, some 3300].getD (s.rd (Reg.bankStatusVolt (c - 7))) none else none

/-- A supply channel. -/
def State.supply (s : State) (c : Nat) : Supply := Sparse.get (fun _ => {}) s.guard.supply c

/-- The state with a supply channel replaced. -/
def State.setSupply (s : State) (c : Nat) (x : Supply) : State :=
  { s with guard := { s.guard with supply := Sparse.put (fun _ => {}) s.guard.supply c x } }

/-- Event 0xB00A (R343, R346). -/
def State.supplyPost (s : State) (c count : Nat) (x : Supply) : State :=
  s.post 0xB00A 7 [pack [(0, c), (4, b2n x.high), (16, sat16 count)], x.extreme]

/-- SUPPLY_SAMPLE: channel `c` reads `mv`; one of VDD_CORE in a settle interval is ignored (R343). The extreme of an excursion is that of its samples up to the tenth, which makes
it one (DEDUCED, log entry 24). -/
def execSupplySample (c mv : Nat) (s : State) : Done :=
  .next (if 11 ≤ c || ((c = 4 || c = 5) && s.fuse.grade != .f) || (c = 0 && s.on Reg.vidStatusSettling) then s
    else
      let x := s.supply c
      let l := (mv :: x.samples).take 1000
      let s := s.wr (Reg.supplyMvMv c) (l.sum / l.length)
      match s.nominal c with
      | none => s.setSupply c { x with samples := l, run := 0 }
      | some nom =>
        let win := nom * s.rd Reg.monCfgSupWin
        let high := nom * 100 + win < mv * 100
        let low := mv * 100 + win < nom * 100
        if !high && !low then s.setSupply c { x with samples := l, run := 0 }
        else
          let x := { x with samples := l, run := min (x.run + 1) 11 }
          if x.run != 10 then s.setSupply c x
          else
            let ten := l.take 10
            let ext := if high then ten.foldl max mv else ten.foldl min mv
            let r := x.hold.hit
            let x := { x with hold := r.1, extreme := ext, high := high }
            let s := (s.bump Reg.supSupplyExcursions 1).setSupply c x
            if r.2 then s.supplyPost c 1 x else s)

/-- SUPPLY_WINDOW_END: a channel's hold-off of 100 ms ends (R343, R475). -/
def execSupplyWindowEnd (c : Nat) (s : State) : Done :=
  .next (let x := s.supply c
    let r := x.hold.lapse
    let s := s.setSupply c { x with hold := r.1 }
    if r.2 = 0 then s else s.supplyPost c r.2 x)

end Sys2Proof.Machine
end

