-- ==== Sys2Proof/Machine/RoomOps.lean ====
section
/-! DEFINITION. The rooms' instructions, one command each: the core of a room executes the instruction at its program counter,
where that instruction belongs to the command's row (R301 to R318), and the interrupt (R282, R285). -/

namespace Sys2Proof.Machine

/-- An interrupt is to be taken before room `r`'s next instruction; a self-compare takes none (R282, R449). -/
def State.roomIrq (s : State) (r : Nat) : Bool := (s.room r).irqDue (s.roomIo r) && !s.dwOn r

/-- Room `r`'s core is about to execute an instruction: a block or the handler runs, and no interrupt comes first. -/
def State.roomFetching (s : State) (r : Nat) : Bool :=
  s.roomLive r && ((s.room r).block || (s.room r).core.inIrq) && !s.roomIrq r

/-- The legal instruction that room `r` executes next, where it belongs to row `op`. -/
def State.roomReady (s : State) (r : Nat) (op : RoomOp) : Option RoomInstr :=
  if s.roomFetching r then
    match (s.room r).legal (s.roomIo r) with
    | some i => if i.op = op then some i else none
    | none => none
  else none

/-- The room after an instruction: a word for MBO is posted under R286, and a block that waited for RTI starts (R285, R477). -/
def State.roomDone (s : State) (r : Nat) (rm : Room) (mbo : List Nat) : State :=
  let s := s.setRoom r rm
  let s := s.each mbo fun s w =>
    let s := (s.wr (Reg.roomMboxOutWord r) w).wr (Reg.roomStatusMboNew r) 1
    if s.on (Reg.roomCtrlMboPost r) then s.post 0xA004 2 [r, w] else s
  if rm.waiting && !rm.core.inIrq then s.roomBegin r true else s

/-- An instruction that only moves the program counter on, or branches. -/
def State.roomPass (s : State) (r : Nat) (rm : Room) (branch : Option (Option Nat × Bool)) (rep : Option Rep) : State :=
  s.roomDone r (rm.next branch rep) []

/-- An instruction of format P, L, I or R: its moves, and its arithmetic `f` where it has one (R306). -/
def State.roomData (s : State) (r : Nat) (i : RoomInstr) (x : RoomArith) (f : ArithIn → ArithOut) : State :=
  let rm := s.room r
  let io := s.roomIo r
  let mv := rm.moves io i
  let out := if x.op = 0 then {} else f (rm.core.arithIn x)
  let p := rm.retire io mv (rm.core.merge mv x out)
  s.roomDone r (p.1.next none none) p.2

/-- The arithmetic instruction with operation code `op` and effect `f`, with the moves beside it. -/
def State.roomArith (s : State) (r op : Nat) (f : ArithIn → ArithOut) : State :=
  match s.roomReady r (.ar op) with
  | some (.data x ms l) => s.roomData r (.data x ms l) x f
  | _ => s

/-- The instruction of a row without arithmetic that only moves. -/
def State.roomMove (s : State) (r : Nat) (op : RoomOp) : State :=
  match s.roomReady r op with
  | some i => s.roomData r i {} (fun _ => {})
  | none => s

/-- Whether a condition holds for room `r` now (R312). -/
def State.roomCond (s : State) (r cond : Nat) : Bool :=
  let c := (s.room r).core
  condHolds cond (c.readSr .flags) c.mboxPend

/-- NOP (R311). -/
def execNop (r : Nat) (s : State) : Done :=
  .next (match s.roomReady r .nop with
    | some _ => s.roomPass r (s.room r) none none
    | none => s)

/-- BRA: a branch after two delay slots, where its condition holds (R276, R311). -/
def execBra (r : Nat) (s : State) : Done :=
  .next (match s.roomReady r .bra with
    | some (.bra cond t) => s.roomPass r (s.room r) (some (if s.roomCond r cond then some t else none, false)) none
    | _ => s)

/-- CALL: as BRA, with the return address pushed (R311, R313). -/
def execCall (r : Nat) (s : State) : Done :=
  .next (match s.roomReady r .call with
    | some (.call cond t) =>
      let rm := s.room r
      if s.roomCond r cond then
        let c := { rm.core with stack := (rm.core.pc + 3) % 8192 :: rm.core.stack }
        s.roomPass r { rm with core := c } (some (some t, false)) none
      else s.roomPass r rm (some (none, false)) none
    | _ => s)

/-- RET: a branch to the address popped, where its condition holds (R311, R313). -/
def execRet (r : Nat) (s : State) : Done :=
  .next (match s.roomReady r .ret with
    | some (.ret cond) =>
      let rm := s.room r
      if s.roomCond r cond then
        s.roomPass r { rm with core := { rm.core with stack := rm.core.stack.drop 1 } } (some (rm.core.stack.head?, false)) none
      else s.roomPass r rm (some (none, false)) none
    | _ => s)

/-- RTI: after its delay slots, execution continues at IPC with the main set (R282, R285). -/
def execRti (r : Nat) (s : State) : Done :=
  .next (match s.roomReady r .rti with
    | some _ =>
      let rm := s.room r
      s.roomPass r rm (some (some (rm.core.read 0x35 .control), true)) none
    | none => s)

/-- DBNZ: a pointer less 1, and a branch where it is not 0 then (R311). -/
def execDbnz (r : Nat) (s : State) : Done :=
  .next (match s.roomReady r .dbnz with
    | some (.dbnz n t) =>
      let rm := s.room r
      let v := (rm.core.read (0x10 + n) .address + 16383) % 16384
      s.roomPass r { rm with core := rm.core.write (0x10 + n) v .postUpdate } (some (if v = 0 then none else some t, false)) none
    | _ => s)

/-- A repetition count: 0 means 4096 (R279, R311). -/
def repCount (n : Nat) : Nat := if n % 4096 = 0 then 4096 else n % 4096

/-- REP: the body that follows is executed the count of times, undivided by interrupts (R279, R280). -/
def execRep (r : Nat) (s : State) : Done :=
  .next (match s.roomReady r .rep with
    | some i =>
      let rm := s.room r
      let c := rm.core
      let go (body n : Nat) : State :=
        s.roomPass r rm none (some { start := (c.pc + 1) % 8192, body := body, left := repCount n, pos := 0 })
      match i with
      | .repImm body n => go body n
      | .repReg body e => go body (if e < 8 then c.read (c.key e) .operand else c.read e .address)
      | _ => s
    | none => s)

/-- END: every position is released and the block ends (R265, R287). `w` is what the fabric and the guest bring. -/
def execEndBlock (r : Nat) (w : EndWork) (s : State) : Done :=
  .next (s.together fun s => match s.roomReady r .endBlock with
    | some _ =>
      let rm := s.room r
      let pc := rm.core.pc
      let s := s.setRoom r (rm.next none none)
      match s.dw with
      | some t => if t.room = r then s.dwEnd t pc w else s.roomEnd r pc w
      | none => s.roomEnd r pc w
    | none => s)

/-- SWI: the interrupt is pending (R282, R285). -/
def execSwi (r : Nat) (s : State) : Done :=
  .next (match s.roomReady r .swi with
    | some _ =>
      let rm := s.room r
      s.roomPass r { rm with core := { rm.core with swi := true } } none none
    | none => s)

/-- A format P instruction without arithmetic (R305). -/
def execParallelMove (r : Nat) (s : State) : Done := .next (s.roomMove r .par)

/-- A format L instruction without arithmetic (R308). -/
def execLongMove (r : Nat) (s : State) : Done := .next (s.roomMove r .long)

/-- LDI (R309). -/
def execLdi (r : Nat) (s : State) : Done := .next (s.roomMove r .ldi)

/-- MOVE (R310). -/
def execMove (r : Nat) (s : State) : Done := .next (s.roomMove r .move)

/-- MPY (R314). -/
def execMpy (r : Nat) (s : State) : Done := .next (s.roomArith r 0x01 fun i => accWrite i (product i) false)

/-- MPYN (R314). -/
def execMpyn (r : Nat) (s : State) : Done := .next (s.roomArith r 0x02 fun i => accWrite i (-product i) false)

/-- MAC (R314, R315). -/
def execMac (r : Nat) (s : State) : Done := .next (s.roomArith r 0x03 fun i => accAdd i (product i))

/-- MACN (R314, R315). -/
def execMacn (r : Nat) (s : State) : Done := .next (s.roomArith r 0x04 fun i => accSub i (product i))

/-- MPYI (R314). -/
def execMpyi (r : Nat) (s : State) : Done := .next (s.roomArith r 0x05 fun i => accWrite i (sext 32 i.a * sext 32 i.b) false)

/-- LDA (R314). -/
def execLda (r : Nat) (s : State) : Done := .next (s.roomArith r 0x06 fun i => accWrite i (accOf i.a) false)

/-- CPA (R314). -/
def execCpa (r : Nat) (s : State) : Done := .next (s.roomArith r 0x07 fun i => accWrite i (accVal i.ao) false)

/-- ADD (R314, R315). -/
def execAdd (r : Nat) (s : State) : Done := .next (s.roomArith r 0x08 fun i => accAdd i (accOf i.a))

/-- SUB (R314, R315). -/
def execSub (r : Nat) (s : State) : Done := .next (s.roomArith r 0x09 fun i => accSub i (accOf i.a))

/-- ADDA (R314, R315). -/
def execAdda (r : Nat) (s : State) : Done := .next (s.roomArith r 0x0A fun i => accAdd i (accVal i.ao))

/-- SUBA (R314, R315). -/
def execSuba (r : Nat) (s : State) : Done := .next (s.roomArith r 0x0B fun i => accSub i (accVal i.ao))

/-- CLR (R314). -/
def execClr (r : Nat) (s : State) : Done := .next (s.roomArith r 0x0C fun i => accWrite i 0 false)

/-- NEG: 0 less the accumulator, C its borrow (R314, R315). -/
def execNeg (r : Nat) (s : State) : Done :=
  .next (s.roomArith r 0x0D fun i => accWrite i (-accVal i.ad) (borrowOf 0 (accVal i.ad)))

/-- ABS (R314). -/
def execAbsAcc (r : Nat) (s : State) : Done :=
  .next (s.roomArith r 0x0E fun i => accWrite i (accVal i.ad).natAbs false)

/-- MAX (R314). -/
def execMaxAcc (r : Nat) (s : State) : Done :=
  .next (s.roomArith r 0x0F fun i => accWrite i (max (accVal i.ad) (accVal i.ao)) false)

/-- MIN (R314). -/
def execMinAcc (r : Nat) (s : State) : Done :=
  .next (s.roomArith r 0x10 fun i => accWrite i (min (accVal i.ad) (accVal i.ao)) false)

/-- CMP: flags alone (R314, R315). -/
def execCmp (r : Nat) (s : State) : Done :=
  .next (s.roomArith r 0x11 fun i => accTest i (accVal i.ad - accOf i.a) (borrowOf i.ad (accOf i.a)))

/-- TST: flags alone (R314). -/
def execTst (r : Nat) (s : State) : Done := .next (s.roomArith r 0x12 fun i => accTest i (accVal i.ad) false)

/-- SAT (R270, R314). -/
def execSat (r : Nat) (s : State) : Done :=
  .next (s.roomArith r 0x13 fun i => accWrite { i with sat := true } (accVal i.ad) false)

/-- ASL (R314, R315). -/
def execAsl (r : Nat) (s : State) : Done := .next (s.roomArith r 0x14 fun i => accShift i i.k)

/-- ASR (R314, R315). -/
def execAsr (r : Nat) (s : State) : Done := .next (s.roomArith r 0x15 fun i => accShift i (-(i.k : Int)))

/-- ASH (R314, R315). -/
def execAsh (r : Nat) (s : State) : Done := .next (s.roomArith r 0x16 fun i => accShift i (sext 32 i.a))

/-- ASHR (R314, R315). -/
def execAshr (r : Nat) (s : State) : Done := .next (s.roomArith r 0x17 fun i => accShift i (-sext 32 i.a))

/-- The accumulator scaled by the count of R316, with C 0. -/
def accNorm (i : ArithIn) : ArithOut :=
  let c := normCount (accVal i.ad)
  let v := if 0 ≤ c then accVal i.ad * (2 ^ c.natAbs : Nat) else accVal i.ad / (2 ^ c.natAbs : Nat)
  { accWrite i v false with count := some (ofInt 32 c) }

/-- NORM (R314, R316). -/
def execNorm (r : Nat) (s : State) : Done := .next (s.roomArith r 0x18 accNorm)

/-- EXP of an accumulator (R317). -/
def execExpAcc (r : Nat) (s : State) : Done :=
  .next (s.roomArith r 0x19 fun i => { count := some (ofInt 32 (normCount (accVal i.ad))) })

/-- EXP of a data register (R317). -/
def execExpReg (r : Nat) (s : State) : Done :=
  .next (s.roomArith r 0x1A fun i => { count := some (ofInt 32 (normCount (accOf i.a))) })

/-- AND (R314). -/
def execAndAcc (r : Nat) (s : State) : Done := .next (s.roomArith r 0x1B fun i => accLogic i (· &&& ·))

/-- OR (R314). -/
def execOrAcc (r : Nat) (s : State) : Done := .next (s.roomArith r 0x1C fun i => accLogic i (· ||| ·))

/-- XOR (R314). -/
def execXorAcc (r : Nat) (s : State) : Done := .next (s.roomArith r 0x1D fun i => accLogic i (· ^^^ ·))

/-- ILLEGAL_INSTRUCTION: executes as NOP, sets ILL, counts, and is posted at most once in 100 ms (R277, R300, R318). -/
def execIllegalInstruction (r : Nat) (s : State) : Done :=
  .next (if s.roomFetching r && ((s.room r).legal (s.roomIo r)).isNone then
    let rm := s.room r
    let s := (s.wr (Reg.roomStatusIll r) 1).bumpRoom r Reg.roomIllCount
    let due : Bool := match rm.illAt with | some t => decide (t + 50000000 ≤ s.rc) | none => true
    let s := if due then s.post 0xA002 5 [pack [(0, r), (16, rm.core.pc)]] else s
    s.roomPass r (if due && s.passes 0xA002 5 then { rm with illAt := some s.rc } else rm) none none
  else s)

/-- INTERRUPT_ENTRY: the pending interrupt is taken (R282, R285). -/
def execInterruptEntry (r : Nat) (s : State) : Done :=
  .next (if s.roomLive r && s.roomIrq r then
    let rm := s.room r
    (s.setRoom r { rm with core := rm.core.enter (s.rd (Reg.roomEntryIvec r)) }).bumpRoom r Reg.roomIrqs
  else s)

/-- ROOM_FAULT: SKIP_LIMIT triggers in a row were skipped; the room stops in FAULT (R289). -/
def execRoomFault (r : Nat) (s : State) : Done := .next (s.together fun s => s.faultDue r)

end Sys2Proof.Machine
end

