-- ==== Sys2Proof/Machine/Hash.lean ====
section
/-! DEFINITION. The check sums the spec names: CRC-32C (R404), Fletcher-32 (R248), SHA-256 and HMAC-SHA-256 (R377, R378;
the hash itself is outside the spec, PRESUMED from its standard: log entry 9). -/

namespace Sys2Proof.Machine

/-- One bit step of the reflected CRC-32C (polynomial 0x1EDC6F41, reflected 0x82F63B78; R404). -/
def crcStep (c : BitVec 32) : BitVec 32 :=
  if c.getLsbD 0 then (c >>> 1) ^^^ 0x82F63B78#32 else c >>> 1

/-- One byte of the CRC. -/
def crcByte (c : BitVec 32) (b : Byte) : BitVec 32 :=
  (List.range 8).foldl (fun c _ => crcStep c) (c ^^^ b.setWidth 32)

/-- CRC-32C of a byte string (R404). -/
def crc32c (l : List Byte) : Nat :=
  (l.foldl crcByte 0xFFFFFFFF#32 ^^^ 0xFFFFFFFF#32).toNat

/-- The primes below 312, 64 of them. -/
def shaPrimes : List Nat := (List.range 312).filter fun n => 2 ≤ n && (List.range 18).all fun d => d < 2 || n ≤ d || n % d != 0

/-- The greatest number made of `r` and bits below `b` whose power `k` stays within `n`. -/
def powerRoot (k n : Nat) : Nat → Nat → Nat
  | 0, r => r
  | b + 1, r => powerRoot k n b (if (r + 2 ^ b) ^ k ≤ n then r + 2 ^ b else r)

/-- The first 32 bits of the fraction of the root of order `k` of `n`: SHA-256 takes its constants from square and cube roots. -/
def rootWord (k n : Nat) : BitVec 32 := BitVec.ofNat 32 (powerRoot k (n * 2 ^ (32 * k)) 36 0)

/-- A word mixed with itself turned right by three distances. -/
def turned (w : BitVec 32) (i j k : Nat) : BitVec 32 := w.rotateRight i ^^^ w.rotateRight j ^^^ w.rotateRight k

/-- A word mixed with itself turned right by two distances and shifted by a third. -/
def shifted (w : BitVec 32) (i j k : Nat) : BitVec 32 := w.rotateRight i ^^^ w.rotateRight j ^^^ (w >>> k)

/-- `n` rounds of SHA-256: the eight working words `v`, the last sixteen message words `m`, oldest first, and the constants left. -/
def shaRounds : Nat → List (BitVec 32) → List (BitVec 32) → List (BitVec 32) → List (BitVec 32)
  | 0, v, _, _ => v
  | n + 1, v, m, c =>
    let at_ (i : Nat) : BitVec 32 := v.getD i 0
    let pick := at_ 6 ^^^ (at_ 4 &&& (at_ 5 ^^^ at_ 6))
    let most := (at_ 0 &&& at_ 1) ||| (at_ 2 &&& (at_ 0 ||| at_ 1))
    let low := at_ 7 + turned (at_ 4) 6 11 25 + pick + c.headD 0 + m.headD 0
    let high := low + turned (at_ 0) 2 13 22 + most
    let next := m.getD 0 0 + shifted (m.getD 1 0) 7 18 3 + m.getD 9 0 + shifted (m.getD 14 0) 17 19 10
    shaRounds n (high :: (v.take 3 ++ (at_ 3 + low) :: (v.drop 4).take 3)) (m.drop 1 ++ [next]) (c.drop 1)

/-- The words of a block of bytes. -/
def bytesToWords : List Byte → List (BitVec 32)
  | a :: b :: c :: d :: r => BitVec.ofNat 32 (beNat [a, b, c, d]) :: bytesToWords r
  | _ => []

/-- SHA-256 over `n` blocks of 64 bytes with constants `c`, from the chaining words `h`. -/
def shaBlocks (c : List (BitVec 32)) : Nat → List (BitVec 32) → List Byte → List (BitVec 32)
  | 0, h, _ => h
  | n + 1, h, l => shaBlocks c n (List.zipWith (· + ·) h (shaRounds 64 h (bytesToWords (l.take 64)) c)) (l.drop 64)

/-- A message padded to whole blocks: a 1 bit, zeros, its length in bits. -/
def shaPadded (l : List Byte) : List Byte :=
  l ++ 0x80#8 :: List.replicate ((119 - l.length % 64) % 64) 0#8 ++ natBe 8 (l.length * 8)

/-- SHA-256 of a byte string, 32 bytes. -/
def sha256 (l : List Byte) : List Byte :=
  let m := shaPadded l
  (shaBlocks (shaPrimes.map (rootWord 3)) (m.length / 64) ((shaPrimes.take 8).map (rootWord 2)) m).flatMap fun w => natBe 4 w.toNat

/-- HMAC-SHA-256 of a message under a key of at most 64 bytes (R377). -/
def hmac (key msg : List Byte) : List Byte :=
  let k := key ++ List.replicate (64 - key.length) 0#8
  sha256 (k.map (· ^^^ 0x5c#8) ++ sha256 (k.map (· ^^^ 0x36#8) ++ msg))

end Sys2Proof.Machine
end

