-- ==== Sys2Proof/Machine/Sessions.lean ====
section
/-! DEFINITION. Status codes, KDP messages on the wire, and sessions: how they are found, answered, notified and closed
(R366 to R381, R391 to R394). -/

namespace Sys2Proof.Machine

/-- The code of a status (R368). -/
def Status.code : Status → Nat
  | .ok => 0
  | .absent => 1
  | .outOfRange => 2
  | .conflict => 3
  | .busy => 4
  | .denied => 5
  | .badType => 6
  | .notApplied => 7
  | .tooLarge => 8
  | .noSession => 9
  | .version => 10
  | .authFail => 11
  | .staged => 12

/-- A role code of the protocol as a role (R366, R377). -/
def roleOf : Nat → Role
  | 4 => .host
  | 3 => .admin
  | 2 => .operator
  | 1 => .observer
  | _ => .none

/-- The place of a role in the order of R366. -/
def rolePlace : Role → Nat
  | .host => 0
  | .admin => 1
  | .operator => 2
  | .observer => 3
  | .none => 4

/-- A KDP message as read from its bytes (R372). -/
structure KdpMsg where
  version : Nat
  ty : Nat
  flags : Nat
  session : Nat
  seq : Nat
  body : List Byte
  head : List Byte
  mac : List Byte
deriving DecidableEq, Repr

/-- The message in `l`, where its form passes the first check of R374. -/
def parseKdp (l : List Byte) (host : Bool) : Option KdpMsg :=
  let fl := at_ l 3 1
  let n := at_ l 13 3
  let mac := if bit fl 2 then 16 else 0
  let good := 16 ≤ l.length && at_ l 0 1 == 0x4B && 1 ≤ at_ l 2 1 && at_ l 2 1 ≤ 9 && at_ l 2 1 != 8 && fl / 16 == 0
    && !bit fl 0 && !bit fl 1 && (!bit fl 3 || at_ l 2 1 == 4) && (!host || !bit fl 2) && l.length == 16 + n + mac
  if good then
    some { version := at_ l 1 1, ty := at_ l 2 1, flags := fl, session := at_ l 4 4, seq := at_ l 8 4
           body := (l.drop 16).take n, head := l.take 16, mac := l.drop (16 + n) }
  else none

/-- The MAC of a message: direction, header, body (R378). -/
def kdpMac (sk : List Byte) (dir : Nat) (head body : List Byte) : List Byte :=
  (hmac sk (natBe 1 dir ++ head ++ body)).take 16

/-- A message of the device (R372), with a MAC under `sk` where there is one. -/
def kdpMessage (version ty flags sid seq part : Nat) (body : List Byte) (sk : Option (List Byte)) : List Byte :=
  let fl := flags + (if sk.isSome then 4 else 0)
  let head := [0x4B] ++ natBe 1 version ++ natBe 1 ty ++ natBe 1 fl ++ natBe 4 sid ++ natBe 4 seq ++ natBe 1 part
    ++ natBe 3 body.length
  head ++ body ++ (match sk with | some k => kdpMac k 1 head body | none => [])

/-- The session with number `ss`, 0 the host port's (R381). -/
def State.sess (s : State) (ss : Nat) : Option Session :=
  if ss = 0 then some s.kdp.host else Sparse.get (fun _ => none) s.kdp.net ss

/-- The state with a session replaced, or with a network session gone. -/
def State.setSess (s : State) (ss : Nat) (x : Option Session) : State :=
  if ss = 0 then (match x with | some y => { s with kdp := { s.kdp with host := y } } | none => s)
  else { s with kdp := { s.kdp with net := Sparse.put (fun _ => none) s.kdp.net ss x } }

/-- The network sessions open, by number. -/
def State.openSessions (s : State) : List Nat := (List.range 17).filter (fun k => k != 0 && (s.sess k).isSome)

/-- The largest message a network session is sent: MAX_PART (R392, and R393 for port M). -/
def State.maxPart (s : State) (p : Nat) : Nat := if p = 2 then 1400 else limit (s.frameCfg p) false - 46

/-- A datagram of the engine joins the port's queue, or is dropped and counted where it does not fit (R140, R394); one longer
than a frame of the port may be fits nowhere (DEDUCED, log entry 26). -/
def State.udpOut (s : State) (p mac ip udp : Nat) (data : List Byte) : State :=
  let r := s.udpFrame p mac ip 30210 udp true data
  if limit (s.frameCfg p) false < wireLen r.1 then r.2.bump Reg.kdpTxDropped 1 else r.2.sendOwn p r.1 (some Reg.kdpTxDropped)

/-- A body cut into pieces of at most `n` bytes; one empty piece for an empty body (R392). -/
def cutBody (n : Nat) : Nat → List Byte → List (List Byte)
  | 0, l => [l]
  | k + 1, l => if l.length ≤ n then [l] else l.take n :: cutBody n k (l.drop n)

/-- Where a reply goes and what its header carries. -/
structure ReplyTo where
  src : Sender
  version : Nat
  ty : Nat
  sid : Nat
  seq : Nat
  sk : Option (List Byte)
deriving DecidableEq, Repr

/-- Bytes of body in one part of a reply over the network (R392). -/
def State.partRoom (s : State) (p : Nat) (mac : Bool) : Nat := s.maxPart p - (if mac then 32 else 16)

/-- Whether a reply's body would take more than 255 parts (R392); over the host port it has no parts. -/
def State.overParts (s : State) (t : ReplyTo) (body : List Byte) : Bool :=
  match t.src with | .host => false | .net p _ _ _ => 255 * s.partRoom p t.sk.isSome < body.length

/-- A reply goes to its client: over the host port as the current reply (R408), over the network in parts (R392). -/
def State.reply (s : State) (t : ReplyTo) (body : List Byte) : State :=
  match t.src with
  | .host => { s with host := { s.host with reply := some (kdpMessage t.version t.ty 1 t.sid t.seq 0 body none), replyRead := false } }
  | .net p ip udp mac =>
    let l := cutBody (s.partRoom p t.sk.isSome) 255 body
    let s := s.bump Reg.kdpReplyParts (l.length - 1)
    s.each (List.range l.length) fun s k =>
      s.udpOut p mac ip udp
        (kdpMessage t.version t.ty (if k + 1 = l.length then 1 else 3) t.sid t.seq k (l.getD k []) t.sk)

/-- How many bytes of body one NOTIFY of a session holds (R391, R409). -/
def State.notifyRoom (s : State) (x : Session) : Nat :=
  if x.port = 3 then 65536 - 16 else s.partRoom x.port x.authed

/-- A NOTIFY goes to its session with its next number; the host port's waits in its queue, or is dropped (R391, R394, R409). -/
def State.notifyOut (s : State) (ss : Nat) (body : List Byte) : State :=
  match s.sess ss with
  | none => s
  | some x =>
    let n := x.notifySeq + 1
    let s := (s.setSess ss (some { x with notifySeq := n })).bump Reg.kdpNotifySent 1
    let m := kdpMessage x.version 8 0 x.id n 0 body (if x.authed then some x.sk else none)
    if ss = 0 then
      if s.host.notify.length < 16 && (s.host.notify.map (fun p => p.2.length)).sum + m.length ≤ 65536 then
        { s with host := { s.host with notify := s.host.notify ++ [(n, m)] } }
      else s.bump Reg.hpNotifyDropped 1
    else s.udpOut x.port x.mac x.ip x.udp m

/-- A network session closes with its groups and subscriptions, and event 0xD001 says why (R380, R401). -/
def State.sessEnd (s : State) (ss cause : Nat) : State :=
  if ss = 0 || (s.sess ss).isNone then s
  else
    let s := s.setSess ss none
    let s := { s with kdp := { s.kdp with subs := s.kdp.subs.filter (fun b => b.ss != ss) } }
    s.post 0xD001 3 [pack [(0, ss), (6, cause)]]

/-- A session is to close: at once, or after its reply where its own request is served (R398; log entry 25). -/
def State.sessClose (s : State) (ss cause : Nat) : State :=
  if s.kdp.serving = some ss then (if ss = 0 then s else { s with kdp := { s.kdp with closing := some cause } })
  else s.sessEnd ss cause

/-- Every network session that `f` picks closes. -/
def State.sessCloseIf (s : State) (f : Session → Bool) (cause : Nat) : State :=
  s.each s.openSessions fun s k => match s.sess k with | some x => if f x then s.sessClose k cause else s | none => s

/-- SESSION of number `ss`. -/
def State.sessionWord (s : State) (ss : Nat) : Nat :=
  match s.sess ss with
  | none => 0
  | some x => pack [(0, x.id), (32, x.role), (35, 1), (36, b2n x.authed), (37, x.port), (39, b2n x.group.isSome), (40, x.version),
      (48, sat16 ((s.rc - x.at_) / 500000000)), (64, x.ip), (96, x.udp), (112, x.slot)]

/-- KDP_STATUS. -/
def State.kdpStatus (s : State) : Nat := setField (s.get Reg.kdpStatusSessions.key) 0 5 s.openSessions.length

/-- VMIN and VMAX of KDP_CFG lie in their order. -/
def vcKdpCfg (n : Nat) : Bool := field n 8 8 ≤ field n 16 8

/-- KDP_CFG is stored: sessions on a port that is no longer listened on close, and unauthenticated ones where ANON_OBSERVER
is cleared (R398). -/
def applyKdpCfg (s : State) (old : Nat) : State :=
  let now := s.get Reg.kdpCfgListenM.key
  let off (p : Nat) : Bool := let b := if p = 2 then 0 else p + 1; bit old b && !bit now b
  s.sessCloseIf (fun x => off x.port || (bit old 3 && !bit now 3 && !x.authed)) 3

/-- A key is stored: the slot is LOADED and its sessions close (R399). -/
def applyKey (s : State) (k : Nat) : State := (s.wr (Reg.keyStatusLoaded k) 1).sessCloseIf (fun x => x.authed && x.slot == k) 4

/-- KEY_CFG is stored: the slot's sessions close (R399). -/
def applyKeyCfg (s : State) (k : Nat) : State := s.sessCloseIf (fun x => x.authed && x.slot == k) 4

/-- SESSION_CLOSE of the host port's session is refused. -/
def scSessionClose (ss : Nat) : Status := if ss = 0 then .conflict else .ok

/-- SESSION_CLOSE 1 (R380). -/
def applySessionClose (s : State) (ss : Nat) : State := s.sessClose ss 2

/-- Counts of RC in one second (R57). -/
def rcSecond : Nat := 500000000

/-- SESSION_IDLE_TIMEOUT: RC reaches the instant at which a network session has had no accepted request for the
IDLE_TIMEOUT of its HELLO (R380, R398). -/
def execSessionIdleTimeout (ss : Nat) (s : State) : Done :=
  .next (match s.sess ss with
    | some x =>
      if ss = 0 then s
      else ((s.advance (x.at_ + x.idle * rcSecond)).bump Reg.kdpSessionTimeouts 1).sessEnd ss 1
    | none => s)

/-- SESSION_AUTH_TIMEOUT: a network session with no role 5 s after its HELLO closes (R377). Which of the
causes of R401 its event gives no rule states: a free value (log entry 3). -/
def execSessionAuthTimeout (ss : Nat) (s : State) : Done :=
  .next (match s.sess ss with
    | some x =>
      if ss = 0 || x.authed || x.role != 0 then s
      else
        let r := (s.advance (x.born + 5 * rcSecond)).draw
        (r.2.bump Reg.kdpSessionTimeouts 1).sessEnd ss (r.1 % 6)
    | none => s)

/-- The instant of the lock of an address, where its HELLOs are ignored now (R377). -/
def State.lockout (s : State) (ip : Nat) : Option Nat :=
  (s.kdp.locked.find? (fun p => p.1 == ip && s.rc < p.2 + 10 * rcSecond)).map (·.2)

/-- AUTH_LOCKOUT_END: RC reaches the end of an address's 10 s; its HELLOs are answered again (R377). -/
def execAuthLockoutEnd (ip : Nat) (s : State) : Done :=
  .next (match s.lockout ip with
    | some t =>
      let s := s.advance (t + 10 * rcSecond)
      { s with kdp := { s.kdp with locked := s.kdp.locked.filter (fun p => p.1 != ip) } }
    | none => s)

/-- Event 0xD002 (R401). -/
def State.authPost (s : State) (slot count ip : Nat) : State := s.post 0xD002 5 [pack [(0, slot % 8), (16, sat16 count)], ip]

/-- AUTH_FAIL_WINDOW_END: the second after event 0xD002 ends (R401, R475). -/
def execAuthFailWindowEnd (s : State) : Done :=
  .next (let h := s.kdp.hold
    let (h', n) := h.lapse
    let s := { s with kdp := { s.kdp with hold := { h' with info := h.info, at_ := h.at_ } } }
    if n = 0 then s else s.authPost h.info n h.at_)

/-- An authentication fails: counted, reported, remembered against its address for 10 s; five of them lock the address out (R377). -/
def State.authFailed (s : State) (slot ip : Nat) : State :=
  let s := s.bump Reg.kdpAuthFails 1
  let recent := (s.kdp.fails.filter (fun p => s.rc - p.2 < 10 * rcSecond)) ++ [(ip, s.rc)]
  let five := 5 ≤ (recent.filter (fun p => p.1 == ip)).length
  let locked := if five && (s.lockout ip).isNone then s.kdp.locked.filter (fun p => p.1 != ip) ++ [(ip, s.rc)] else s.kdp.locked
  let (h, now) := s.kdp.hold.hit
  let s := { s with kdp := { s.kdp with fails := recent, locked := locked, hold := { h with info := slot, at_ := ip } } }
  if now then s.authPost slot 1 ip else s

end Sys2Proof.Machine
end

