-- ==== Sys2Proof/Machine/Triggers.lean ====
section
/-! DEFINITION. The timed triggers, their outputs, and event capture (R83 to R89). -/

namespace Sys2Proof.Machine

/-- TT_CTRL: ACTION 7 to 31 are out of range. -/
def vcTtCtrl (n : Nat) : Bool := field n 3 5 ≤ 6

/-- TT_PERIOD: 0, or at least 1 µs. -/
def vcTtPeriod (n : Nat) : Bool := n == 0 || 65536000 ≤ n

/-- Whether the unit that TT_CTRL names exists in the part (R9, TT_CTRL). -/
def ttUnit (f : Fuses) (n : Nat) : Bool :=
  let t := field n 8 16
  match field n 3 5 with
  | 1 => t < f.tdmPorts
  | 2 => t < f.tdmPorts
  | 3 => t < 256
  | 4 => t < 256
  | 5 => f.hasRoom t
  | 6 => t < 4
  | _ => true

/-- State checks of TT_CTRL (R9, R87). -/
def scTtCtrl (s : State) (tt n : Nat) : Status :=
  let old := s.get (Reg.ttCtrlArm tt).key
  if !ttUnit s.fuse n then .absent
  else if bit old 0 && field old 1 7 != field n 1 7 then .conflict
  else .ok

/-- TT_TARGET and TT_PERIOD are refused while ARM is 1 (R87). -/
def scTtFixed (s : State) (tt : Nat) : Status := if s.on (Reg.ttCtrlArm tt) then .conflict else .ok

/-- TT_CTRL is stored: a trigger armed anew converts its target, one disarmed waits no more (R83, R84). -/
def applyTtCtrl (s : State) (tt old : Nat) : State :=
  match bit old 0, s.on (Reg.ttCtrlArm tt) with
  | false, true =>
    let v := s.rd (Reg.ttCtrlView tt)
    let t := ofTime (s.get (Reg.ttTargetT tt).key)
    let s := ((s.wr (Reg.ttStatusArmed tt) 1).wr (Reg.ttStatusMissed tt) 0).bumpIf (s.viewReached v t) (Reg.ttStatusLate tt)
    s.setTrig tt { target := t, conv := s.viewReaches v t s.rc, late := s.viewReached v t }
  | true, false => s.wr (Reg.ttStatusArmed tt) 0
  | _, _ => s

/-- The point of quarter counts at which trigger `tt`, firing at the RC value it converts to, places an edge: the first there at
which the view has reached the target; where it had been reached before, or is by a step, the RC value's own (R83, R84, R86). -/
def State.firePoint (s : State) (tt : Nat) : Nat :=
  let x := s.trig tt
  let v := s.rd (Reg.ttCtrlView tt)
  let q := 4 * x.conv
  let beyond := s.viewAt v q % (timeMod : Int) - x.target
  if x.late then q
  else (([3, 2, 1].map (q - ·)).find? fun p => decide (s.viewAt v q - s.viewAt v p ≤ beyond)).getD q

/-- The request a trigger makes that fires with its edge at point `at_` of quarter counts (R85). -/
def State.trigAct (s : State) (action unit at_ : Nat) : State :=
  match action with
  | 1 => s.sideRequest unit 0
  | 2 => s.sideRequest unit 1
  | 3 => s.txRequest unit
  | 4 => s.rxRequest unit
  | 5 => s.roomRequest unit
  | 6 => s.trigOut unit at_
  | _ => s

/-- Whether another trigger has made the same request at this RC value (R85). -/
def State.trigTwin (s : State) (tt rc : Nat) : Bool :=
  (List.range 32).any fun k => k != tt && rc != 0 && s.rd (Reg.ttLastRc k) == rc
    && s.rd (Reg.ttCtrlAction k) == s.rd (Reg.ttCtrlAction tt) && s.rd (Reg.ttCtrlTarget k) == s.rd (Reg.ttCtrlTarget tt)

/-- A trigger fires: its request, its next target or its end, and event 0x2006 where it is late or skips periods (R84, R85, R90). -/
def State.trigFire (s : State) (tt : Nat) : State :=
  let x := s.trig tt
  let v := s.rd (Reg.ttCtrlView tt)
  let period := s.get (Reg.ttPeriodPeriod tt).key
  let s := if s.trigTwin tt x.conv then s else s.trigAct (s.rd (Reg.ttCtrlAction tt)) (s.rd (Reg.ttCtrlTarget tt)) (s.firePoint tt)
  let s := s.wr (Reg.ttLastRc tt) x.conv
  let now := (s.viewAt v (4 * x.conv) % (timeMod : Int)).toNat
  if period = 0 then
    let s := ((s.wr (Reg.ttStatusArmed tt) 0).wr (Reg.ttCtrlArm tt) 0).setTrig tt { x with late := false }
    if x.late then s.post 0x2006 3 [pack [(0, tt), (5, 1)]] else s
  else
    let next := x.target + period
    let skip := if now < next then 0 else (now - next) / period + 1
    let t := next + skip * period
    let s := s.bump (Reg.ttStatusMissed tt) skip
    let s := s.setTrig tt { target := t, conv := s.viewReaches v t x.conv }
    if x.late || skip != 0 then s.post 0x2006 3 [pack [(0, tt), (5, b2n x.late), (16, sat16 skip)]] else s

/-- EVT_IN_EDGE: an edge on pin `i` at a point of quarter counts; `short` says that the pulse is below 10 ns. A selected edge
is captured, unless it follows the last capture within 100 ns or the FIFO is full, which MISSED counts (R88, R89). -/
def execEvtInEdge (i : Nat) (rising short : Bool) (q : Nat) (s : State) : Done :=
  .next (s.together fun s => let s := s.advance (q / 4)
    if short || !edgeSelected (s.rd (Reg.evtCfgEdge i)) rising then s
    else
      let p := s.evt i
      let near := match p.last with | some l => q < l + 200 | none => false
      if near || 16 ≤ p.fifo.length then s.bump (Reg.evtCfgMissed i) 1
      else
        let c : Capture := { t := toTime (s.viewAt (s.rd (Reg.evtCfgView i)) q), q := q % 2 ^ 66, rising := rising, seq := p.seq }
        let s := s.setEvt i { fifo := p.fifo ++ [c], seq := (p.seq + 1) % 256, last := some q }
        if s.on (Reg.evtCfgPost i) then
          s.post 0x2005 (s.rd (Reg.evtCfgPriority i)) [pack [(0, i), (8, p.seq)]]
        else s)

/-- TRIG_OUT_PULSE_END: WIDTH × 8 ns after its last edge a pulse ends; RC has reached that instant (R86). -/
def execTrigOutPulseEnd (o : Nat) (s : State) : Done :=
  .next (if (s.out o).pulse then
      let q := (s.out o).edge + 16 * s.rd (Reg.trigOutCfgWidth o)
      (s.advance ((q + 3) / 4)).setOut o { edge := q }
    else s)

/-- TRIGGER_FIRE: RC reaches the value that trigger `tt` converts to; where a schedule moves its view first, it is converted
again and waits (R83). -/
def execTriggerFire (tt : Nat) (s : State) : Done :=
  .next (s.together fun s => if !s.on (Reg.ttStatusArmed tt) then s
    else
      let s := s.advance (s.trig tt).conv
      if s.on (Reg.ttStatusArmed tt) && (s.trig tt).conv ≤ s.rc then s.trigFire tt else s)

end Sys2Proof.Machine
end

