-- ==== Sys2Proof/Machine/Entry.lean ====
section
/-! DEFINITION. Reading the dictionary: which entries a part has, what each reads as, what a read does, and descriptors
(R9, R361 to R367, R384). -/

namespace Sys2Proof.Machine

/-- The code of a type (R362). -/
def tyCode : Ty → Nat
  | .bool => 0
  | .u8 => 1
  | .u16 => 2
  | .u32 => 3
  | .u64 => 4
  | .i32 => 5
  | .gain24 => 6
  | .time => 7
  | .str => 8
  | .blob => 9
  | .enum => 10
  | .descriptor => 11

/-- The number a value spells: BLOBs by words, everything else most significant byte first (R362, R363). -/
def valueOf (t : Ty) (raw : List Byte) : Nat := match t with | .blob => blobNat raw | _ => beNat raw

/-- A number as the bytes of an entry of type `t` and length `n` (R362, R363). -/
def bytesFor (t : Ty) (n v : Nat) : List Byte := match t with | .blob => blobBytes (n / 4) v | _ => natBe n v

/-- Whether a counter or entry exists on its port: media ports A and B, port M, or all (R137, R158). -/
def portEntry (e : Ent) (p q : Nat) : Bool :=
  match e with
  | .portRxAlignErr | .portTxSingleColl | .portTxMultiColl | .portTxLateColl | .portTxExcessColl | .portTxDeferred => p == 2
  | .portTxMediaStale | .portEsmcRx | .portEsmcBad | .portFecCorrected | .portFecUncorrected => p != 2
  | .txqSend | .txqStatus => q < queueCount p
  | _ => true

/-- Whether the unit an entry belongs to is enabled in the part (R9). -/
def Fuses.present (f : Fuses) (e : Ent) (a b : Nat) : Bool :=
  match e with
  | .sinkSource | .sinkStatus => sinkExists a && f.hasOwner (sinkOwner a)
  | .tdmPortCfg | .sideCtrl | .sideTiming | .slotMask | .maskCommit | .maskActive | .sideStatus | .sidePhase | .tdmLoop
  | .sideFrames | .sideUnderruns | .sideOverruns | .sideFrameErr | .sideLockLoss | .sideClkFast | .sideSlewSlips
  | .sideMaskCommits => a < f.tdmPorts
  | .asrcCfg | .asrcTrack | .asrcStatus | .asrcRatio | .asrcDelay | .asrcResyncs | .asrcLate | .asrcSteps | .asrcAcquires =>
    f.hasAsrc a
  | .roomHmResult | .roomCtrl | .roomEntry | .roomStatus | .roomLast | .roomMboxIn | .roomMboxOut | .roomCmd | .roomLoad
  | .roomFetchAddr | .roomFetch | .roomGuard | .roomGuardStatus | .roomBlocksRun | .roomBlocksSkipped | .roomPosUnreleased
  | .roomIllCount | .roomIrqs | .roomMboxOverwrite | .roomFaults | .roomHostDeferred => f.hasRoom a
  | .ddrCfg | .ddrStatus | .ddrTest | .ddrTestStatus | .ddrTestDq => f.grade == .f
  | .supplyMv => !(a == 4 || a == 5) || f.grade == .f
  | e => portEntry e a b

/-- The entry at a key of this part, with its unit numbers (R9, R370). -/
def State.entryAt (s : State) (key : Nat) : Option (EntDesc × Nat × Nat) :=
  match locate key with
  | some (d, a, b) => if s.fuse.present d.ent a b then some (d, a, b) else none
  | none => none

/-- RXR_STATUS. -/
def State.ringStatus (s : State) (p : Nat) : Nat := pack [(0, 64 - (s.port p).ringUsed), (7, (s.port p).ring.length)]

/-- TXQ_STATUS; FRAMES of TQ0 and TQ1, which R141 does not bound, stops at 63 (DESIGN CHOICE, log entry 50). -/
def State.txqStatus (s : State) (p q : Nat) : Nat :=
  pack [(0, min 63 (s.queue p q).length), (6, s.queueFree p q), (23, b2n (s.queuePaused p q))]

/-- The value of an entry as a number: the register's, or what the unit shows at the moment of the read. -/
def State.entryVal (s : State) (e : Ent) (a b key : Nat) : Nat :=
  match e with
  | .sinkStatus => s.sinkStatus a
  | .rcNow => s.rc % 2 ^ 64
  | .tvNow => toTime (s.viewNow a)
  | .tvSnap => toTime (s.viewNow a) + s.rc % 2 ^ 64 * 2 ^ 96
  | .evtCapture => s.captureWord a
  | .gain => s.gain a
  | .gainActive => s.gainActive a
  | .hallStatus => s.hallStatus
  | .tileStatus => s.tileStatus a
  | .tileCsum => s.tileCsum a
  | .txqStatus => s.txqStatus a b
  | .rxrStatus => s.ringStatus a
  | .esmcStatus => setField (s.get key) 16 8 (s.esmcAge a)
  | .portTxPauseTime => min (s.get key + s.pauseDue a / 500) (2 ^ 64 - 1)
  | .seLoad => pack [(0, s.rxLoad), (12, s.txLoad)]
  | .jbFree => s.jbFree
  | .sideStatus => s.sideStatusWord a b
  | .sideLockLoss | .sideClkFast => if s.on (Reg.sideCtrlMaster a b) then 0 else s.get key
  | .roomStatus => s.roomStatus a
  | .guestStatus => s.guestStatus
  | .coreStatus => s.coreStatus
  | .roomGuardStatus => s.roomGuardStatus a
  | .cellarFree => s.cellarFree
  | .ddrStatus => s.ddrStatus
  | .ddrTestStatus | .ddrTestDq => s.ddrSoFar.get key
  | .kdpStatus => s.kdpStatus
  | .session => s.sessionWord a
  | .lbStatus => s.lbStatus
  | _ => s.get key

/-- The bytes of an entry's value in wire order (R362, R363). -/
def State.entryBytes (s : State) (d : EntDesc) (a b key : Nat) : List Byte :=
  match d.ent with
  | .vendorName => ascii "Dunvik Audio Silicon"
  | .partName => ascii "RVT1024"
  | .rxrFrame => s.ringFrame a
  | .roomFetch => s.roomFetch a
  | .recData => s.recData
  | .tileShadow => s.shadowImage a
  | e => bytesFor d.ty d.maxLen (s.entryVal e a b key)

/-- Whether a role is among the first `n` of R366. -/
def holds (who : Role) (n : Nat) : Bool := rolePlace who < n

/-- A read by `who` clears what it clears: the RC fields where the role holds the clear right, the oldest capture, MBO_NEW
(R89, R286, R367). -/
def State.readEffects (s : State) (who : Role) (d : EntDesc) (a key : Nat) : State :=
  match d.ent with
  | .evtCapture => s.captureTake a
  | .roomMboxOut => s.wr (Reg.roomStatusMboNew a) 0
  | _ =>
    if d.clr = 0 || holds who d.clr then
      let s := if d.ent == .portTxPauseTime then s.pauseSettle a else s
      s.each d.fields fun s f => if f.acc = .rc then s.wr ⟨key, f.lo, f.w⟩ 0 else s
    else s

/-- What an item answers: status, type code, value. -/
abbrev Shown1 := Status × Nat × List Byte

/-- A read of the entry at a key by `who`, clearing or not (R365, R367, R369). -/
def State.readEntry (s : State) (who : Role) (key : Nat) (clear : Bool) : Shown1 × State :=
  match s.entryAt key with
  | none => ((.absent, 0, []), s)
  | some (d, a, b) =>
    if !holds who d.rd then ((.denied, 0, []), s)
    else ((.ok, tyCode d.ty, s.entryBytes d a b key), if clear then s.readEffects who d a key else s)

/-- The access code of an entry (R384). -/
def accessCode (l : List FieldD) : Nat :=
  let c : Acc → Nat
    | .ro => 0 | .rw => 1 | .wo => 2 | .rc => 3 | .cmd => 4 | .rsv => 5
  match (l.filter (fun f => f.acc != .rsv)).map (fun f => c f.acc) with
  | [] => 0
  | x :: r => if r.all (· == x) then x else 5

/-- Whether an entry belongs to the saved image (R395). -/
def EntDesc.saved (d : EntDesc) : Bool :=
  (d.fields.any (fun f => f.acc == .rw) && d.ent != .tileShadow && !(0xD2000000 ≤ d.key && d.key < 0xD3000000)
    && !(0xD4000000 ≤ d.key && d.key < 0xD5000000) && !(0xE0000000 ≤ d.key && d.key < 0xF0000000)) || d.ent == .key

/-- A bitmap of the first `n` roles (R384). -/
def roleMap (n : Nat) : Nat := 2 ^ n - 1

/-- The highest value of an entry of one field whose range its field table does not show: the last source code (R21), the last unicast
address (R129), the far-end loopback, the last mode of port M (R446), the last fraction of the last nanosecond (R363). -/
def topOf (d : EntDesc) (a : Nat) (f : FieldD) : Nat :=
  match d.ent with
  | .sinkSource | .recSrc => 0x6000000F
  | .portMac => 0xFEFFFFFFFFFF
  | .portLoop => if a = 2 then 3 else f.max
  | _ => if d.ty = .time then pack [(0, 0xFFFF), (16, 999999999), (48, 2 ^ 48 - 1)] else f.max

/-- A limit of an entry of unit `a`, sign-extended to 64 bits; of a TIME the lower 64 of its 96 (R384; log entry 26). -/
def limitOf (d : EntDesc) (a : Nat) (f : FieldD) (top : Bool) : Nat :=
  let signed := d.ty == .i32 || d.ty == .gain24
  let whole := f.min == 0 && f.max == 2 ^ f.w - 1
  let v : Int := if top then (if signed && whole then 2 ^ (f.w - 1) - 1 else topOf d a f)
    else (if signed && whole then -(2 ^ (f.w - 1)) else f.min)
  ofInt 64 v

/-- The roles that clear an entry's RC fields: those it names, or every one that may read it (R367, R384). -/
def EntDesc.clearers (d : EntDesc) : Nat := if d.clr = 0 && d.fields.any (fun f => f.acc == .rc) then d.rd else d.clr

/-- The descriptor of an entry (R384; how a single field of a BLOB or STR shows is DEDUCED, log entry 26). -/
def State.descriptor (s : State) (d : EntDesc) (a b key : Nat) : List Byte :=
  let l := d.fields.filter (fun f => f.acc != .rsv)
  let text := match d.ty with | .str | .blob => true | _ => false
  let fielded := 1 < l.length
  let f := l.headD (.any 0 0 .ro 0)
  let lim (top : Bool) : Nat := if fielded || text then 0 else limitOf d a f top
  let reset := if accessCode d.fields = 2 || accessCode d.fields = 4 then []
    else (State.entryBytes { State.reset with fuse := s.fuse } d a b key).take 16
  natBe 1 (tyCode d.ty) ++ natBe 1 (accessCode d.fields) ++ natBe 1 (roleMap d.rd) ++ natBe 1 (roleMap d.wr)
    ++ natBe 1 (roleMap d.clearers) ++ natBe 1 0x10
    ++ natBe 1 (b2n fielded + 2 * b2n d.saved) ++ natBe 1 0 ++ natBe 4 d.maxLen ++ natBe 4 d.minLen
    ++ natBe 8 (lim false) ++ natBe 8 (lim true) ++ reset ++ List.replicate (16 - reset.length) 0

/-- A read of an entry's descriptor by `who` (R384). -/
def State.readMeta (s : State) (who : Role) (key : Nat) : Shown1 :=
  match s.entryAt key with
  | none => (.absent, 0, [])
  | some (d, a, b) =>
    if holds who d.rd || holds who d.wr then (.ok, 11, s.descriptor d a b key) else (.denied, 0, [])

end Sys2Proof.Machine
end

