-- ==== Sys2Proof/Machine/KeyWrap.lean ====
section
/-! DEFINITION. The key wrap of the saved image: AES with a key of 256 bits and the wrap of IETF RFC 3394 (R395; the cipher and the wrap
themselves are outside the spec, PRESUMED from their standards: log entry 27). -/

namespace Sys2Proof.Machine

/-- A byte doubled in the field of AES. -/
def aesDouble (b : Byte) : Byte := (b <<< 1) ^^^ (if b.msb then 0x1B#8 else 0#8)

/-- The product of two bytes in the field of AES. -/
def aesMul (a b : Byte) : Byte :=
  [7, 6, 5, 4, 3, 2, 1, 0].foldl (fun acc i => aesDouble acc ^^^ (if b.getLsbD i then a else 0#8)) 0#8

/-- The inverse of a byte in the field of AES, its power 254; 0 for 0. -/
def aesInverse (a : Byte) : Byte :=
  ((List.range 7).foldl (fun (p : Byte × Byte) _ => let q := aesMul p.1 p.1; (q, aesMul p.2 q)) (a, 1#8)).2

/-- The S-box. -/
def aesSub (a : Byte) : Byte :=
  let b := aesInverse a
  b ^^^ b.rotateLeft 1 ^^^ b.rotateLeft 2 ^^^ b.rotateLeft 3 ^^^ b.rotateLeft 4 ^^^ 0x63#8

/-- The inverse of the S-box. -/
def aesUnsub (a : Byte) : Byte := aesInverse (a.rotateLeft 1 ^^^ a.rotateLeft 3 ^^^ a.rotateLeft 6 ^^^ 0x05#8)

/-- Two byte strings added bit by bit. -/
def xorBytes (a b : List Byte) : List Byte := List.zipWith (· ^^^ ·) a b

/-- The words of the key schedule up to number `n + 7`, of 4 bytes each. -/
def aesWords (key : List Byte) : Nat → List (List Byte)
  | 0 => (List.range 8).map (fun i => (key.drop (4 * i)).take 4)
  | n + 1 =>
    let l := aesWords key n
    let prev := l.getLastD []
    let mixed :=
      if n % 8 = 0 then
        xorBytes ((prev.drop 1 ++ prev.take 1).map aesSub) [(List.range (n / 8)).foldl (fun b _ => aesDouble b) 1#8, 0#8, 0#8, 0#8]
      else if n % 8 = 4 then prev.map aesSub
      else prev
    l ++ [xorBytes (l.getD n []) mixed]

/-- The 15 round keys of a key of 32 bytes. -/
def aesRoundKeys (key : List Byte) : List (List Byte) :=
  let l := aesWords key 52
  (List.range 15).map (fun r => ((l.drop (4 * r)).take 4).flatten)

/-- The rows of a block turned left, row `r` by `r` places, or by as many to the right. -/
def aesRows (right : Bool) (b : List Byte) : List Byte :=
  (List.range 16).map fun i => b.getD (i % 4 + 4 * ((i / 4 + (if right then 4 - i % 4 else i % 4)) % 4)) 0#8

/-- The columns of a block mixed with the coefficients `m`. -/
def aesColumns (m : List Byte) (b : List Byte) : List Byte :=
  (List.range 16).map fun i =>
    (List.range 4).foldl (fun acc k => acc ^^^ aesMul (m.getD k 0#8) (b.getD (i / 4 * 4 + (i + k) % 4) 0#8)) 0#8

/-- AES with a key of 256 bits, of one block of 16 bytes. -/
def aesEncrypt (key b : List Byte) : List Byte :=
  let ks := aesRoundKeys key
  let k (r : Nat) : List Byte := ks.getD r []
  let b := (List.range 13).foldl (fun b r =>
    xorBytes (aesColumns [0x02#8, 0x03#8, 0x01#8, 0x01#8] (aesRows false (b.map aesSub))) (k (r + 1))) (xorBytes b (k 0))
  xorBytes (aesRows false (b.map aesSub)) (k 14)

/-- Its inverse. -/
def aesDecrypt (key b : List Byte) : List Byte :=
  let ks := aesRoundKeys key
  let k (r : Nat) : List Byte := ks.getD r []
  let b := (List.range 13).foldl (fun b r =>
    aesColumns [0x0E#8, 0x0B#8, 0x0D#8, 0x09#8] (xorBytes ((aesRows true b).map aesUnsub) (k (13 - r)))) (xorBytes b (k 14))
  xorBytes ((aesRows true b).map aesUnsub) (k 0)

/-- The check value of the wrap. -/
def wrapCheck : List Byte := List.replicate 8 0xA6#8

/-- The wrap of a key of `n` halves of a block under `kek`. -/
def keyWrap (kek key : List Byte) : List Byte :=
  let n := key.length / 8
  let r := (List.range (6 * n)).foldl (fun (p : List Byte × List (List Byte)) t =>
    let b := aesEncrypt kek (p.1 ++ p.2.getD (t % n) [])
    (xorBytes (b.take 8) (natBe 8 (t + 1)), listSet p.2 (t % n) (b.drop 8)))
    (wrapCheck, (List.range n).map (fun i => (key.drop (8 * i)).take 8))
  r.1 ++ r.2.flatten

/-- The key that a wrap holds under `kek`; none where its check value is not found. -/
def keyUnwrap (kek l : List Byte) : Option (List Byte) :=
  let n := l.length / 8 - 1
  let r := (List.range (6 * n)).foldl (fun (p : List Byte × List (List Byte)) i =>
    let t := 6 * n - 1 - i
    let b := aesDecrypt kek (xorBytes p.1 (natBe 8 (t + 1)) ++ p.2.getD (t % n) [])
    (b.take 8, listSet p.2 (t % n) (b.drop 8)))
    (l.take 8, (List.range n).map (fun i => ((l.drop 8).drop (8 * i)).take 8))
  if r.1 = wrapCheck then some r.2.flatten else none

end Sys2Proof.Machine
end

