-- ==== Sys2Proof/Machine/Save.lean ====
section
/-! DEFINITION. Saving state to boot flash (R395, R396). -/

namespace Sys2Proof.Machine

/-- Whether generation `a` is newer than `b`, modulo 2^32 (R397). -/
def newer (a b : Nat) : Bool := (a + 2 ^ 32 - b % 2 ^ 32) % 2 ^ 32 < 2 ^ 31 && a % 2 ^ 32 != b % 2 ^ 32

/-- Where an image slot begins in boot flash, and how many bytes it has (R396). -/
def imageSlot (slot : Nat) : Nat × Nat := (if slot = 0 then 0x00800000 else 0x01000000, 8 * 2 ^ 20)

/-- Everything an image holds but its CRC, as numbers. -/
def Image.content (x : Image) : List Nat :=
  let cells (m : Sparse Nat) : List Nat := m.length :: m.flatMap (fun p => [p.1, p.2])
  [x.version, x.gen, x.rev, x.fuse.roomMask, x.fuse.asrcMask, x.fuse.serial, x.fuse.macBase,
    (match x.fuse.grade with | .f => 0 | .h => 1 | .q => 2)] ++ cells x.regs ++ cells x.gains
    ++ x.mems.flatMap (fun p => p.1 :: cells p.2.1 ++ cells p.2.2.1 ++ cells p.2.2.2)
    ++ x.wraps.flatMap (fun p => p.1 :: p.2.map BitVec.toNat)

/-- The CRC-32C over an image (R395). -/
def Image.sum (x : Image) : Nat := crc32c (Config.imageBytes x.content)

/-- Whether an image is valid: of format version 1, with the CRC of what it holds (R395, R397). -/
def Image.valid (x : Image) : Bool := x.version == 1 && x.crc == x.sum

/-- The slot that holds the newest valid image (R397). -/
def Flash.newest (f : Flash) : Option (Nat × Image) :=
  match f.slot0.filter Image.valid, f.slot1.filter Image.valid with
  | some a, some b => if newer b.gen a.gen then some (1, b) else some (0, a)
  | some a, none => some (0, a)
  | none, some b => some (1, b)
  | none, none => none

/-- A slot of the flash replaced. -/
def Flash.set (f : Flash) (slot : Nat) (x : Option Image) : Flash :=
  if slot = 0 then { f with slot0 := x } else { f with slot1 := x }

/-- A save is refused while one runs (R396). -/
def scSaveCmd (s : State) : Status := if s.kdp.save.isSome then .busy else .ok

/-- SAVE_CMD 1: the slot that does not hold the newest image is written; it holds no valid image until the save ends (R396).
With no valid image the save takes slot 0 (DEDUCED, log entry 27). -/
def applySaveCmd (s : State) (n : Nat) : State :=
  let slot := match s.flash.newest with | some (k, _) => 1 - k | none => 0
  let s := { s with kdp := { s.kdp with save := some { slot := slot, freeze := field n 2 1 == 1 } } }
  { (s.wr Reg.saveStatusState 1).wr Reg.saveStatusCause 0 with flash := s.flash.set slot none }

/-- The RW fields of a value. -/
def rwOnly (l : List FieldD) (v : Nat) : Nat :=
  ((l.filter (fun f => f.acc == .rw || f.acc == .wo)).map (fun f => field v f.lo f.w * 2 ^ f.lo)).sum

/-- The entries an image lists: the written ones that belong to it, with the values of their RW fields, and those whose reset
value is the part's own (R395). -/
def State.savedRegs (s : State) : Sparse Nat :=
  let own := [0x30000004, 0x30100004, 0x30200004, 0x22000009, 0x22000109]
  let keys := (s.regs.map (fun (p : Nat × Nat) => p.1)) ++ own
  keys.foldl (fun m key =>
    match s.entryAt key with
    | some (d, _, _) =>
      if d.saved && d.ent != .key then
        Sparse.put (fun _ => 2 ^ 600) m key (rwOnly d.fields (s.get key))
      else m
    | none => m) []

/-- The keys of the slots that hold one, wrapped under the part's own key (R395). -/
def State.savedKeys (s : State) : Sparse (List Byte) :=
  (List.range 8).foldl (fun m k =>
    if s.on (Reg.keyStatusLoaded k) then
      Sparse.put (fun _ => []) m k (keyWrap (natBe 32 s.fuse.dieKey) (blobBytes 8 (s.get (Reg.key k).key)))
    else m) []

/-- The key that an image holds for a slot, as the part unwraps it (R395, R397). -/
def Image.key (x : Image) (f : Fuses) (k : Nat) : Option Nat :=
  (keyUnwrap (natBe 32 f.dieKey) (Sparse.get (fun _ => []) x.wraps k)).map blobNat

/-- The memories of every enabled room, outside the I/O window; X and Y of a room whose block runs as the block found them, between two
blocks (R395, R396). -/
def State.savedMems (s : State) : Sparse (Sparse Nat × Sparse Nat × Sparse Nat) :=
  (List.range 18).foldl (fun m r =>
    let rm := s.room r
    let c := if rm.block then rm.begun else rm.core
    if s.fuse.hasRoom r then
      Sparse.put (fun _ => ([], [], [])) m r (rm.core.p, c.x.filter (fun (p : Nat × Nat) => p.1 < 0x3F00), c.y)
    else m) []

/-- The gains of the shadow banks, by crosspoint (R395). -/
def State.savedGains (s : State) : Sparse Nat :=
  s.hall.tiles.foldl (fun m (t : Nat × Tile) =>
    (List.range 1024).foldl (fun m q =>
      Sparse.put (fun _ => 0) m (t.1 / 32 * 32768 + t.1 % 32 * 32 + q / 32 * 1024 + q % 32) ((t.2.bank t.2.shadow).read q)) m) []

/-- The image of the present state (R395): what the save finds when it ends (DESIGN CHOICE, log entry 27). -/
def State.image (s : State) (gen : Nat) : Image :=
  let x : Image := {
    gen := gen
    rev := s.get Reg.siliconRev.key
    fuse := { s.fuse with dieKey := 0 }
    regs := s.savedRegs
    gains := s.savedGains
    mems := s.savedMems
    wraps := s.savedKeys }
  { x with crc := x.sum }

/-- SAVE_DONE: the save ends, verified (`cause` 0) or failed with a CAUSE; event 0xD003 (R396, R401).
The generation of a first image no rule states: a free value (log entry 3). -/
def execSaveDone (cause : Nat) (s : State) : Done :=
  .next (match s.kdp.save with
    | none => s
    | some w =>
      let s := { s with kdp := { s.kdp with save := none } }
      let (gen, s) := match s.flash.newest with
        | some (_, x) => ((x.gen + 1) % 2 ^ 32, s)
        | none => let r := s.draw; (r.1 % 2 ^ 32, r.2)
      let ok := cause % 8 == 0
      let s := if ok then
          { (s.wr Reg.saveStatusGeneration gen).wr Reg.saveStatusSlot w.slot with flash := s.flash.set w.slot (some (s.image gen)) }
        else s
      let s := (s.wr Reg.saveStatusState (if ok then 2 else 3)).wr Reg.saveStatusCause (cause % 8)
      s.post 0xD003 4 [pack [(0, if ok then 2 else 3), (4, cause % 8)], s.rd Reg.saveStatusGeneration])

end Sys2Proof.Machine
end

