-- ==== Sys2Proof/Machine/Dictionary.lean ====
section
/-! DEFINITION. Writing the dictionary: the judging of an item in the order of R369, its effect, and groups of items
(R364 to R369, R386, R387, R396, R435, R440). -/

namespace Sys2Proof.Machine

/-- The ranges of an entry's fields that its table states: what is reserved or read-only is sent as 0 (R14, R365). -/
def fieldsOk (l : List FieldD) (n : Nat) : Bool :=
  l.all fun f =>
    if f.w = 0 then true
    else
      let v := field n f.lo f.w
      match f.acc with
      | .rsv | .ro | .rc => v == 0
      | _ => f.min ≤ v && v ≤ f.max

/-- The ranges of an entry that depend on the value alone and that its field table does not show. -/
def entRange (f : Fuses) (e : Ent) (a n : Nat) (raw : List Byte) : Bool :=
  match e with
  | .sinkSource => (decodeSrc n).isSome
  | .slackTarget => field n 0 8 + 5 ≤ field n 8 8
  | .tvSchedule => vcTvSchedule n
  | .ptpPortCfg => vcPtpPortCfg n
  | .ptpBc => n ≤ 1
  | .ttCtrl => vcTtCtrl n
  | .ttPeriod => vcTtPeriod n
  | .ttTarget => timeOk n
  | .refCfg => vcRefCfg a n
  | .refMonCfg => field n 7 17 + 100 ≤ field n 24 17
  | .hearthCtrl => vcHearthCtrl n
  | .holdoverCfg => -50000 ≤ sext 24 (field n 40 24) && sext 24 (field n 40 24) ≤ 50000
  | .wclkOutCfg => field n 0 2 != 3
  | .mdCtrl => vcMdCtrl n
  | .portCfg => vcPortCfg f n
  | .portMac => !bit n 40
  | .mcFilter => !(bit n 48 && !bit n 40)
  | .pauseCfg => field n 0 2 != 3 && !(a == 2 && field n 0 2 == 2)
  | .mCfg => vcMCfg n
  | .rxCtrl | .txCtrl => vcStreamCtrl n
  | .tdmPortCfg => vcTdmPortCfg n
  | .sideCtrl => vcSideCtrl n
  | .asrcCfg => vcAsrcCfg n
  | .roomCtrl => vcRoomCtrl n
  | .roomLoad => vcRoomLoad raw
  | .roomFetchAddr => vcRoomFetchAddr n
  | .monCfg => vcMonCfg n
  | .cellarPart => vcCellarPart n
  | .recCfg => vcRecCfg n
  | .recSrc => vcRecSrc n
  | .kdpCfg => vcKdpCfg n
  | .lbCodeFilter => vcLbCodeFilter n
  | .portLoop => vcPortLoop a n
  | .dlyCfg => vcDlyCfg n
  | .txqSend => txqShape a raw
  | .dwTest => field n 32 32 != 0 && field n 8 24 != 0
  | .hallTest => vcHallTest n
  | _ => true

/-- VID_FLOOR may not pass VID_CEIL (R55). -/
def scVidBounds (floor ceil : Nat) : Status := if ceil < floor then .conflict else .ok

/-- LO_CFG is accepted only while no clock has been chosen, or none has locked (R434). -/
def scLoCfg (s : State) : Status :=
  if s.rd Reg.deviceStatusClockState == 0 || (s.rd Reg.deviceStatusClockState == 3 && !s.on Reg.deviceStatusLoLost) then .ok
  else .conflict

/-- The checks of an entry that depend on the device's state, each in the order of R369. -/
def State.entState (s : State) (e : Ent) (a b key n : Nat) (raw : List Byte) : Status :=
  match e with
  | .sinkSource => scSinkSource s a n
  | .toneCtrl => scToneCtrl s a n
  | .toneFreq => scToneFreq s a n
  | .vidFloor => scVidBounds (n % 64) (s.rd Reg.vidCeilCode)
  | .vidCeil => scVidBounds (s.rd Reg.vidFloorCode) (n % 64)
  | .tvSource => scTvSource s a n
  | .tvSchedule => scTvSchedule s a n
  | .ptpPortCfg => scPtpPortCfg s a n
  | .ptpBc => scPtpBc s n
  | .ttCtrl => scTtCtrl s a n
  | .ttTarget | .ttPeriod => scTtFixed s a
  | .refCfg => if 8 ≤ a && s.fuse.tdmPorts ≤ field n 19 6 && field n 19 6 < 48 then .absent else .ok
  | .hearthCtrl => scHearthCtrl s n
  | .mdCtrl => scMdCtrl s a n
  | .portCfg =>
    if scPortCfg s a n = .ok then scPortStart s (s.on (Reg.portCfgEnable a)) (bit n 0) else scPortCfg s a n
  | .mCfg => scPortStart s (s.on Reg.mCfgEnable) (bit n 0)
  | .txqSend => if s.txqInRange a raw then s.txqCheck a b raw else .outOfRange
  | .rxrRelease => scRxrRelease s a n
  | .rxCtrl => if scRxCtrl s a n = .ok then scPortStart s (s.on (Reg.rxCtrlEnable a)) (bit n 0) else scRxCtrl s a n
  | .txCtrl => if scTxCtrl s a n = .ok then scPortStart s (s.on (Reg.txCtrlEnable a)) (bit n 0) else scTxCtrl s a n
  | .rxPtSsrc | .rxAddrA | .rxAddrB | .rxTsOffset => scRxFixed s a key n
  | .txRtp | .txAddrA | .txAddrB | .txTsOffset => scTxFixed s a key n
  | .rxTiming => scRxTiming s a n
  | .tdmPortCfg => scTdmPortCfg s a n
  | .sideCtrl =>
    if scSideCtrl s a b n = .ok then scPortStart s (s.on (Reg.sideCtrlEnable a b)) (bit n 0) else scSideCtrl s a b n
  | .sideTiming => scSideTiming s a b n
  | .slotMask => scSlotMask s a b n
  | .asrcCfg => scAsrcCfg s a n
  | .gain => scTileWrite s (xpointTile a).1
  | .tileShadow => scTileWrite s a
  | .tileCmd => scTileCmd s a n
  | .hallCommit => scHallCommit s
  | .hallCfg => scHallCfg s n
  | .roomCtrl => scRoomCtrl s a n
  | .roomEntry | .roomCmd => scRoomIdle s a
  | .roomMboxIn => scRoomMbox s a
  | .roomLoad => scRoomLoad s a raw
  | .guestCmd => scGuestCmd s n
  | .roomGuard => scRoomGuard s a n
  | .cellarPart => scCellarPart s n
  | .dlyCfg => scDlyCfg s a n
  | .dlyTime => if vcDlyTime s a n then .ok else .outOfRange
  | .recCfg => scRecCfg s n
  | .recSrc => scRecSrc s n
  | .ddrCfg => scDdrCfg s n
  | .sessionClose => scSessionClose a
  | .saveCmd => scSaveCmd s
  | .lbCodeFilter => scLbCodeFilter s a n
  | .loCfg => scLoCfg s
  | .tdmLoop => scTdmLoop s a n
  | .portLoop => scPortLoop s a n
  | .hearthLoop => scHearthLoop s
  | .dwTest => scDwTest s n
  | .ddrTest => scDdrTest s n
  | .hallTest => scHallTest s
  | _ => .ok

/-- A save that freezes refuses every SET but those to 0xD3xxxx (R396); without a locked clock only 0x0xxxxx and 0xDxxxxx but
SAVE_CMD may be set (R435). -/
def State.gated (s : State) (key : Nat) : Bool :=
  let frozen := match s.kdp.save with | some w => w.freeze && !(0xD3000000 ≤ key && key < 0xD4000000) | none => false
  let free := key < 0x10000000 || (0xD0000000 ≤ key && key < 0xE0000000 && key != Reg.saveCmdOp.key)
  frozen || (!s.locked && !free)

/-- The length and type of an item are its entry's (R364); that a frame is too short is a matter of its range (R133). -/
def EntDesc.fits (d : EntDesc) (i : Item) : Bool :=
  i.ty == tyCode d.ty && (if d.ent == .txqSend then 4 else d.minLen) ≤ i.raw.length && i.raw.length ≤ d.maxLen

/-- The number that the checks of an item see; of a long BLOB its first words. -/
def EntDesc.valueIn (d : EntDesc) (i : Item) : Nat := valueOf d.ty (match d.ty with | .blob => i.raw.take 32 | _ => i.raw)

/-- The checks of an item that do not depend on the device's state: ABSENT, DENIED, BAD_TYPE and the ranges of its value
(R369, R388). -/
def State.judgeValue (s : State) (who : Role) (i : Item) : Status :=
  match s.entryAt i.key with
  | none => .absent
  | some (d, a, b) =>
    let n := d.valueIn i
    let typed := d.fits i
    if typed && s.entState d.ent a b i.key n i.raw = .absent then .absent
    else if !holds who d.wr then .denied
    else if !typed then .badType
    else if d.ty == .bool && 1 < n then .outOfRange
    else if fieldsOk d.fields n && entRange s.fuse d.ent a n i.raw then .ok
    else .outOfRange

/-- The status of an item in the present state (R369). -/
def State.judge (s : State) (who : Role) (i : Item) : Status :=
  match s.judgeValue who i with
  | .ok =>
    match s.entryAt i.key with
    | some (d, a, b) =>
      match s.entState d.ent a b i.key (d.valueIn i) i.raw with
      | .ok => if s.gated i.key then .busy else .ok
      | st => st
    | none => .absent
  | st => st

/-- The value an entry keeps after a SET: its RW and WO fields as sent, the others as they stand (R365). -/
def stored (l : List FieldD) (old n : Nat) : Nat :=
  l.foldl (fun v f => if f.acc == .rw || f.acc == .wo then setField v f.lo f.w (field n f.lo f.w) else v) old

/-- What an accepted SET does beside storing its entry. -/
def State.entApply (s : State) (e : Ent) (a b old n : Nat) (raw : List Byte) : State :=
  match e with
  | .toneCtrl => applyToneCtrl s a old
  | .hmWindow => if old = n then s else s.hmRestart
  | .vidMode | .vidFixed | .vidFloor | .vidCeil | .slackTarget => if old = n then s else s.vidChanged e old
  | .tvSource => if old = n then s else (applyTvSource s a).bmca
  | .tvSchedule => applyTvSchedule s a n
  | .ptpPortCfg => if old = n then s else s.ptpRestart a
  | .ptpClockId => if old = n then s else s.ptpRestart a
  | .ptpBc => if old = n then s else s.ptpRestartBoth
  | .ptpLocalQuality => if old = n then s else s.bmca
  | .ttCtrl => applyTtCtrl s a old
  | .trigOutCfg => applyTrigOutCfg s a
  | .evtCfg => s.wr (Reg.evtCfgMissed a) 0
  | .refCfg => applyRefCfg s a old n
  | .refCmd => applyRefCmd s a n
  | .hearthCtrl => applyHearthCtrl s old n
  | .hearthCmd => applyHearthCmd s
  | .dpllCfg => applyDpllCfg s old
  | .holdoverCfg => s.histRefresh.refRefresh
  | .wclkOutCfg => applyWclkOutCfg s a old n
  | .ppsOutCfg => applyPpsOutCfg s
  | .mdCtrl => applyMdCtrl s a old
  | .portCfg => applyPortCfg s a old
  | .mCfg => applyMCfg s old
  | .frameCfg => if old = n then s else applyFrameCfg s a old
  | .txqPfcClass => applyTxqPfcClass s a
  | .txqSend => s.txqSend a b raw
  | .rxrRelease => applyRxrRelease s a
  | .rxCtrl => applyRxCtrl s a old n
  | .txCtrl => applyTxCtrl s a n
  | .rxTiming => applyRxTiming s a old n
  | .sideCtrl => applySideCtrl s a b
  | .maskCommit => applyMaskCommit s a b
  | .asrcCfg => applyAsrcCfg s a
  | .gain => applyGain s a n
  | .tileShadow => applyTileShadow s a raw
  | .tileCmd => applyTileCmd s a n
  | .hallCommit => applyHallCommit s n
  | .hallCfg => applyHallCfg s old n
  | .roomCtrl => applyRoomCtrl s a old
  | .roomMboxIn => applyRoomMbox s a n
  | .roomCmd => applyRoomCmd s a
  | .roomLoad => applyRoomLoad s a raw
  | .guestCmd => applyGuestCmd s n
  | .roomGuard => applyRoomGuard s a (field old 0 2 == 2)
  | .monCfg => applyMonCfg s old
  | .dlyCfg => applyDlyCfg s a old
  | .recCfg => applyRecCfg s old
  | .ddrCfg => applyDdrCfg s
  | .kdpCfg => applyKdpCfg s old
  | .key => applyKey s a
  | .keyCfg => applyKeyCfg s a
  | .sessionClose => applySessionClose s a
  | .saveCmd => applySaveCmd s n
  | .lbCmd => s.lbFlush
  | .loCfg => (s.put Reg.loFreq.key (n % 16)).wr Reg.deviceStatusClockState 1
  | .dwTest => applyDwTest s n
  | .ddrTest => applyDdrTest s n
  | .hallTest => applyHallTest s n
  | _ => s

/-- Whether an entry's value is kept in the register store: not the gains, which the tiles hold. -/
def keeps (e : Ent) : Bool := match e with | .gain | .tileShadow => false | _ => true

/-- An accepted item takes effect (R364, R365). -/
def State.applyItem (s : State) (i : Item) : State :=
  match s.entryAt i.key with
  | some (d, a, b) =>
    let n := d.valueIn i
    let old := s.get i.key
    let s := if keeps d.ent then s.put i.key (stored d.fields old n) else s
    s.entApply d.ent a b old n i.raw
  | none => s

/-- Whether a SET of an entry may change what the Hearth chooses its candidate by: the candidates' states, their signals, the choice. -/
def decides (e : Ent) : Bool :=
  match e with
  | .refCfg | .refCmd | .hearthCtrl | .hearthLoop | .tvSource | .ptpPortCfg | .ptpClockId | .ptpBc | .ptpLocalQuality
  | .portCfg | .mCfg | .sideCtrl => true
  | _ => false

/-- Whether an item is for such an entry. -/
def refItem (i : Item) : Bool := match locate i.key with | some (d, _, _) => decides d.ent | none => false

/-- Items that took effect at one moment are followed by one decision on the candidates (R105, R474). -/
def State.settleAfter (s : State) (l : List Item) : State := if l.any refItem then s.settleRefs else s

/-- A send refused at enqueue is counted, whatever the reason (TX_REFUSED, R158). -/
def State.noteRefused (s : State) (i : Item) (st : Status) : State :=
  match s.entryAt i.key with
  | some (d, a, _) =>
    if d.ent == .txqSend && (st == .outOfRange || st == .conflict || st == .busy) then s.bump (Reg.portTxRefused a) 1 else s
  | none => s

/-- An accepted item of a SET takes effect, where it may change candidates with the decision that follows, all at one moment (R105,
R421). -/
def State.change (s : State) (i : Item) : State :=
  if refItem i then s.together fun s => (s.applyItem i).settleRefs else s.applyItem i

/-- One item of a SET: judged and, where it passes, applied (R386). -/
def State.setItem (s : State) (who : Role) (i : Item) : Status × State :=
  match s.judge who i with
  | .ok => (.ok, s.change i)
  | st => (st, s.noteRefused i st)

/-- The items of a SET, each on its own, in order (R386). -/
def State.setEach (s : State) (who : Role) : List Item → List Status × State
  | [] => ([], s)
  | i :: r =>
    let x := s.setItem who i
    let y := State.setEach x.2 who r
    (x.1 :: y.1, y.2)

/-- Whether an item commits Hall tiles. -/
def isCommit (i : Item) : Bool :=
  match locate i.key with
  | some (d, _, _) => d.ent == .hallCommit || (d.ent == .tileCmd && field (d.valueIn i) 0 2 == 1)
  | none => false

/-- Whether an item writes gains of a shadow bank. -/
def isGain (i : Item) : Bool :=
  match locate i.key with
  | some (d, _, _) => d.ent == .gain || d.ent == .tileShadow
  | none => false

/-- An item with its place, put before the first commit of the list (R250). -/
def beforeCommit (x : Nat × Item) : List (Nat × Item) → List (Nat × Item)
  | [] => [x]
  | y :: r => if isCommit y.2 then x :: y :: r else y :: beforeCommit x r

/-- The order in which the items of one SETBULK act: gains before the commits (R250). -/
def bulkOrder (l : List (Nat × Item)) : List (Nat × Item) :=
  l.foldl (fun acc x => if isGain x.2 then beforeCommit x acc else acc ++ [x]) []

/-- The items of a SETBULK in turn, each against the state the ones before it leave: the state after them, or the place and
status of the first that fails (R387). -/
def State.setAll (s : State) (who : Role) : List (Nat × Item) → Except (Nat × Item × Status) State
  | [] => .ok s
  | x :: r =>
    match s.judge who x.2 with
    | .ok => State.setAll (s.applyItem x.2) who r
    | st => .error (x.1, x.2, st)

/-- A list with its places. -/
def placed {α : Type} (l : List α) : List (Nat × α) := (List.range l.length).zip l

/-- A SETBULK: all items or none, at one moment, and the items' statuses (R387, R421). -/
def State.setBulk (s : State) (who : Role) (l : List Item) : List Status × State :=
  match s.gather.setAll who (bulkOrder (placed l)) with
  | .ok t => (l.map (fun _ => .ok), s.scatter (t.settleAfter l))
  | .error (k, i, st) =>
    ((placed l).map (fun x => if x.1 = k then st else .notApplied), s.noteRefused i st)

end Sys2Proof.Machine
end

