-- ==== Sys2Proof/Machine/Kdp.lean ====
section
/-! DEFINITION. The dictionary engine: how a KDP message is checked, served and answered (R371 to R392). -/

namespace Sys2Proof.Machine

/-- The role of a session (R366). -/
def Session.who (x : Session) : Role := roleOf x.role

/-- The key index × 256 + subindex that 4 bytes spell. -/
def refAt (l : List Byte) (i : Nat) : Nat := at_ l i 4

/-- The reply body of a request refused as a whole, by type (R375, R386, R391, R476). -/
def failBody (ty version role : Nat) (st : Status) : List Byte :=
  match ty with
  | 1 => natBe 1 st.code ++ natBe 1 version ++ natBe 1 role ++ natBe 1 0
  | 5 => natBe 1 st.code ++ natBe 15 0
  | _ => natBe 1 st.code ++ natBe 3 0

/-! Sequence numbers. -/

/-- Whether a sequence number is accepted (R379). -/
def Session.seqOk (x : Session) (q : Nat) : Bool :=
  q != 0 && (x.high < q || (x.high - q < 64 && !bit x.seen (x.high - q)))

/-- A sequence number accepted is recorded (R379). -/
def Session.seqTake (x : Session) (q : Nat) : Session :=
  if x.high < q then
    { x with high := q, seen := if q - x.high < 64 then (x.seen * 2 ^ (q - x.high) + 1) % 2 ^ 64 else 1 }
  else { x with seen := setField x.seen (x.high - q) 1 1 }

/-! Items. -/

/-- An item as bytes (R373). -/
def itemBytes (key : Nat) (x : Shown1) : List Byte :=
  let v := if x.1 == .ok then x.2.2 else []
  natBe 4 key ++ natBe 1 x.2.1 ++ natBe 1 x.1.code ++ natBe 2 0 ++ natBe 4 v.length ++ v
    ++ List.replicate ((4 - v.length % 4) % 4) 0

/-- The `n` items that fill a body, none where they do not. An item with a STATUS, reserved bytes or padding that are not 0 has
no type, so that it is refused as BAD_TYPE (R368, R373; DEDUCED, log entry 26). -/
def readItems : Nat → List Byte → Option (List Item)
  | 0, l => if l.isEmpty then some [] else none
  | n + 1, l =>
    let len := at_ l 8 4
    let pad := (4 - len % 4) % 4
    if l.length < 12 || l.length < 12 + len + pad then none
    else
      let clean := at_ l 5 3 == 0 && ((l.drop (12 + len)).take pad).all (· == 0)
      match readItems n (l.drop (12 + len + pad)) with
      | some r => some ({ key := refAt l 0, ty := if clean then at_ l 4 1 else 255, raw := (l.drop 12).take len } :: r)
      | none => none

/-- The status of a reply to items: that of the first that failed, else `good` (R386, R387, R388). -/
def firstBad (good : Status) (l : List Status) : Status :=
  (l.find? (fun x => x != .ok && x != .staged && x != .notApplied)).getD good

/-- The results of items, one of 8 bytes each (R386). -/
def resultBody (good : Status) (items : List Item) (st : List Status) : List Byte :=
  natBe 1 (firstBad good st).code ++ natBe 1 0 ++ natBe 2 items.length
    ++ (items.zip st).flatMap (fun p => natBe 4 p.1.key ++ natBe 1 p.2.code ++ natBe 3 0)

/-! Reading. -/

/-- Reads one after another, each clearing what it clears (R383). -/
def State.readAll (s : State) (who : Role) (meta_ : Bool) : List Nat → List Shown1 × State
  | [] => ([], s)
  | k :: r =>
    let x := if meta_ then (s.readMeta who k, s) else s.readEntry who k true
    let y := State.readAll x.2 who meta_ r
    (x.1 :: y.1, y.2)

/-- GET (R383, R384, R476). -/
def State.kdpGet (s : State) (who : Role) (body : List Byte) : List Byte × State :=
  let n := at_ body 0 2
  let fl := at_ body 2 1
  if body.length < 4 then (failBody 3 0 0 .badType, s)
  else if 64 < n then (failBody 3 0 0 .tooLarge, s)
  else if n = 0 || body.length != 4 + 4 * n || 1 < fl || at_ body 3 1 != 0 then (failBody 3 0 0 .badType, s)
  else
    let keys := (List.range n).map (fun k => refAt body (4 + 4 * k))
    let r := s.readAll who (fl == 1) keys
    let st := if r.1.any (fun x => x.1 == .ok) then Status.ok else ((r.1.map (·.1)).headD .ok)
    (natBe 1 st.code ++ natBe 1 0 ++ natBe 2 n ++ (keys.zip r.1).flatMap (fun p => itemBytes p.1 p.2), r.2)

/-- Whether values of a type may make a run (R385). -/
def bulkType (t : Ty) : Bool := match t with | .time | .str | .blob | .descriptor => false | _ => true

/-- The first entry of a run that breaks its rule, with its place and status (R385). -/
def State.runFault (s : State) (who : Role) (t : Option Ty) : Nat → List Nat → Option (Nat × Status)
  | _, [] => none
  | i, k :: r =>
    match s.entryAt k with
    | none => some (i, .absent)
    | some (d, _, _) =>
      if !holds who d.rd then some (i, .denied)
      else if !bulkType d.ty || (match t with | some u => u != d.ty | none => false) then some (i, .badType)
      else State.runFault s who (some d.ty) (i + 1) r

/-- The keys of a run (R385). -/
def runKeys (start stride n : Nat) : List Nat := (List.range n).map (fun k => start + k * stride * 256)

/-- GETBULK (R385, R476). -/
def State.kdpGetbulk (s : State) (who : Role) (body : List Byte) : List Byte × State :=
  let start := refAt body 0
  let stride := at_ body 4 3
  let n := at_ body 8 4
  let keys := runKeys start stride n
  if body.length != 12 then (failBody 5 0 0 .badType, s)
  else if 65536 < n then (failBody 5 0 0 .tooLarge, s)
  else if n = 0 || stride = 0 || at_ body 7 1 != 0 then (failBody 5 0 0 .badType, s)
  else if 0xFFFFFF < start / 256 + (n - 1) * stride then (failBody 5 0 0 .tooLarge, s)
  else
    match s.runFault who none 0 keys with
    | some (i, st) => (natBe 1 st.code ++ natBe 11 0 ++ natBe 4 i, s)
    | none =>
      match s.entryAt start with
      | none => (failBody 5 0 0 .absent, s)
      | some (d, _, _) =>
        let len := n * d.maxLen
        if 262144 < 16 + len + (4 - len % 4) % 4 then (failBody 5 0 0 .tooLarge, s)
        else
          let r := s.readAll who false keys
          (natBe 1 0 ++ natBe 1 (tyCode d.ty) ++ natBe 2 0 ++ natBe 4 n ++ natBe 4 d.maxLen ++ natBe 4 0
            ++ r.1.flatMap (fun x => x.2.2) ++ List.replicate ((4 - len % 4) % 4) 0, r.2)

/-! Writing. -/

/-- Bytes of values that a list of items holds. -/
def itemsSize (l : List Item) : Nat := (l.map (fun i => i.raw.length)).sum

/-- Bytes of values that all groups hold, open and waiting (R388, R389). -/
def State.groupBytes (s : State) : Nat :=
  ((List.range 17).map (fun k => match s.sess k with
    | some x => (match x.group with | some g => itemsSize g.items | none => 0)
        + (match x.waiting with | some w => itemsSize w.items | none => 0)
    | none => 0)).sum

/-- Items staged into a group one after another, and what each is answered (R388). `used` is what all groups hold. -/
def State.stageAll (s : State) (who : Role) (used : Nat) : Group → List Item → List Status × Group
  | g, [] => ([], g)
  | g, i :: r =>
    let st : Status := match s.judgeValue who i with
      | .ok =>
        if 4096 ≤ g.items.length || 65536 < itemsSize g.items + i.raw.length || 262144 < used + i.raw.length then .tooLarge
        else .staged
      | st => st
    let ok := st == .staged
    let y := State.stageAll s who (if ok then used + i.raw.length else used)
      (if ok then { g with items := g.items ++ [i] } else { g with failed := true }) r
    (st :: y.1, y.2)

/-- SET, SETBULK, and SET with GROUP (R386 to R388, R476). -/
def State.kdpSet (s : State) (ss : Nat) (x : Session) (ty : Nat) (group : Bool) (body : List Byte) : List Byte × State :=
  let n := at_ body 0 2
  if body.length < 4 then (failBody ty 0 0 .badType, s)
  else if 64 < n then (failBody ty 0 0 .tooLarge, s)
  else if n = 0 || at_ body 2 2 != 0 then (failBody ty 0 0 .badType, s)
  else
    match readItems n (body.drop 4) with
    | none => (failBody ty 0 0 .badType, s)
    | some l =>
      if group then
        match x.group with
        | none => (resultBody .conflict l (l.map (fun _ => .conflict)), s)
        | some g =>
          let r := s.stageAll x.who s.groupBytes g l
          (resultBody .staged l r.1, s.setSess ss (some { x with group := some r.2 }))
      else
        let r := if ty = 6 then s.setBulk x.who l else s.setEach x.who l
        (resultBody .ok l r.1, r.2)

/-- A session's fields changed, where it is still there. -/
def State.modSess (s : State) (ss : Nat) (f : Session → Session) : State :=
  match s.sess ss with | some x => s.setSess ss (some (f x)) | none => s

/-- COMMIT (R387 to R389). The body is none where the reply is sent later. A timed APPLY of session 0 whose AT is already reached applies
at once: its final reply replaces the STAGED one, and event 0xD502 is posted (R408, R426). -/
def State.kdpCommit (s : State) (ss : Nat) (x : Session) (seq : Nat) (body : List Byte) : Option (List Byte) × State :=
  let op := at_ body 0 1
  let view := at_ body 1 1
  let sel := at_ body 2 1
  let at12 := at_ body 4 12
  let no (st : Status) : Option (List Byte) := some (failBody 9 0 0 st)
  let apply (g : Group) (timed : Bool) : Option (List Byte) × State :=
    let r := (s.setSess ss (some { x with group := none })).setBulk x.who g.items
    (some (resultBody .ok g.items r.1), if timed && ss == 0 then r.2.post 0xD502 4 [seq, (firstBad .ok r.1).code] else r.2)
  if body.length != 16 || at_ body 3 1 != 0 then (no .badType, s)
  else if 2 < op || 3 < view || 1 < sel || !timeOk at12 || (x.version == 0x10 && (view != 0 || sel != 0 || at12 != 0)) then
    (no .outOfRange, s)
  else
    match op, x.group with
    | 0, none => (no .ok, s.setSess ss (some { x with group := some { since := s.rc } }))
    | 0, some _ => (no .conflict, s)
    | 1, none => (no .conflict, s)
    | 1, some g =>
      let target := ofTime at12
      let now := (s.viewNow view % (timeMod : Int)).toNat
      if at12 = 0 then
        (if g.failed then (no .conflict, s.setSess ss (some { x with group := none })) else apply g false)
      else if now + 2000000000 * 65536 < target then (no .outOfRange, s)
      else if g.failed then (no .conflict, s.setSess ss (some { x with group := none }))
      else if x.waiting.isSome then (no .conflict, s)
      else if s.viewReached view target then apply g true
      else
        let w : Waiting := { items := g.items, view := view, at_ := target, seq := seq }
        (if ss = 0 then no .staged else none, s.setSess ss (some { x with group := none, waiting := some w }))
    | _, _ =>
      if sel = 0 then
        (if x.group.isSome then (no .ok, s.setSess ss (some { x with group := none })) else (no .conflict, s))
      else if x.waiting.isSome then (no .ok, s.setSess ss (some { x with waiting := none }))
      else (no .conflict, s)

/-! Subscriptions. -/

/-- The first entry of a list that a role may not read (R391). -/
def State.unreadable (s : State) (who : Role) (keys : List Nat) : Option Status :=
  keys.findSome? fun k => match s.entryAt k with
    | none => some .absent
    | some (d, _, _) => if holds who d.rd then none else some .denied

/-- The lowest number no subscription of a session has (DESIGN CHOICE, log entry 28). -/
def State.newSub (s : State) (ss : Nat) : Nat :=
  ((List.range 17).find? (fun k => k != 0 && !s.kdp.subs.any (fun b => b.ss == ss && b.id == k))).getD 17

/-- A subscription is added, within the limits (R391). -/
def State.subAdd (s : State) (ss : Nat) (x : Session) (period : Nat) (keys : List Nat) : List Byte × State :=
  let mine := (s.kdp.subs.filter (fun b => b.ss == ss)).length
  let all := (s.kdp.subs.map (fun b => b.keys.length)).sum
  if period < 10 || 60000 < period then (failBody 7 0 0 .outOfRange, s)
  else
    match s.unreadable x.who keys with
    | some st => (failBody 7 0 0 st, s)
    | none =>
      if 16 ≤ mine || 64 ≤ s.kdp.subs.length || 65536 < all + keys.length then (failBody 7 0 0 .tooLarge, s)
      else
        let id := s.newSub ss
        (natBe 1 0 ++ natBe 1 0 ++ natBe 2 id,
          { s with kdp := { s.kdp with subs := s.kdp.subs ++ [{ ss := ss, id := id, keys := keys, period := period, due := s.rc + period * (rcSecond / 1000) }] } })

/-- SUBSCRIBE (R391, R476). -/
def State.kdpSubscribe (s : State) (ss : Nat) (x : Session) (body : List Byte) : List Byte × State :=
  let op := at_ body 0 1
  let no (st : Status) : List Byte × State := (failBody 7 0 0 st, s)
  if body.length < 4 || at_ body 1 1 != 0 then no .badType
  else
    match op with
    | 0 =>
      let n := at_ body 8 2
      if body.length < 12 || at_ body 10 2 != 0 then no .badType
      else if 64 < n then no .tooLarge
      else if n = 0 || body.length != 12 + 4 * n then no .badType
      else s.subAdd ss x (at_ body 4 4) ((List.range n).map (fun k => refAt body (12 + 4 * k)))
    | 1 =>
      let n := at_ body 16 4
      let stride := at_ body 12 3
      if x.version = 0x10 then no .outOfRange
      else if body.length != 20 || at_ body 15 1 != 0 then no .badType
      else if 65536 < n then no .tooLarge
      else if n = 0 || stride = 0 then no .badType
      else s.subAdd ss x (at_ body 4 4) (runKeys (refAt body 8) stride n)
    | 2 =>
      let id := at_ body 2 2
      if body.length != 4 then no .badType
      else if s.kdp.subs.any (fun b => b.ss == ss && b.id == id) then
        (natBe 1 0 ++ natBe 1 0 ++ natBe 2 id,
          { s with kdp := { s.kdp with subs := s.kdp.subs.filter (fun b => !(b.ss == ss && b.id == id)) } })
      else no .conflict
    | _ => no .outOfRange

/-- Items gathered into NOTIFY bodies of at most `room` bytes (R391). -/
def notifyBodies (id room : Nat) : List (List Byte) → List (List Byte) → List (List Byte)
  | [], [] => []
  | [], acc => [natBe 2 id ++ natBe 2 acc.length ++ acc.flatten]
  | i :: r, acc =>
    if acc.isEmpty || 4 + acc.flatten.length + i.length ≤ room then notifyBodies id room r (acc ++ [i])
    else (natBe 2 id ++ natBe 2 acc.length ++ acc.flatten) :: notifyBodies id room r [i]

/-- SUBSCRIPTION_PERIOD: RC reaches the end of a subscription's period; its entries are read, and those that differ from what was last
sent go out (R391). -/
def execSubscriptionPeriod (ss id : Nat) (s : State) : Done :=
  .next (match s.kdp.subs.find? (fun b => b.ss == ss && b.id == id), s.sess ss with
    | some b, some x =>
      let s := s.advance b.due
      let now := b.keys.map (fun k => (s.readEntry x.who k false).1)
      let flat := now.map (fun v => (v.2.1, v.1.code, v.2.2))
      let changed := (b.keys.zip now).zip (match b.last with
        | none => now.map (fun _ => true)
        | some l => (flat.zip l).map (fun p => decide (p.1 ≠ p.2)))
      let items := (changed.filter (·.2)).map (fun p => itemBytes p.1.1 p.1.2)
      let subs := s.kdp.subs.map (fun c => if c.ss == ss && c.id == id then { c with last := some flat, due := b.due + b.period * (rcSecond / 1000) } else c)
      let s := { s with kdp := { s.kdp with subs := subs } }
      s.each (notifyBodies id (s.notifyRoom x) items []) fun s body => s.notifyOut ss body
    | _, _ => s)

/-! Sessions. -/

/-- The version two ranges agree (R375). -/
def agreed (cmin cmax dmin dmax : Nat) : Option Nat :=
  let v := min cmax dmax
  if cmin ≤ v && dmin ≤ v then some v else none

/-- The role a HELLO reply shows where no session is named: the host's over the host port (R381). -/
def helloRole (src : Sender) : Nat := match src with | .host => 4 | .net _ _ _ _ => 0

/-- Whether a message is a HELLO from an address whose HELLOs are ignored (R377). -/
def State.ignored (s : State) (src : Sender) (m : KdpMsg) : Bool :=
  match src with | .host => false | .net _ ip _ _ => m.ty == 1 && (s.lockout ip).isSome

/-- HELLO with OP 0 (R375, R377, R381). -/
def State.helloOpen (s : State) (src : Sender) (m : KdpMsg) : State :=
  let to_ (sid : Nat) : ReplyTo := { src := src, version := 0x10, ty := 1, sid := sid, seq := m.seq, sk := none }
  let v := agreed (at_ m.body 1 1) (at_ m.body 2 1) (s.rd Reg.kdpCfgVmin) (s.rd Reg.kdpCfgVmax)
  if m.body.length != 20 || at_ m.body 3 1 != 0 then s.reply (to_ 0) (failBody 1 0 (helloRole src) .badType)
  else
    match src with
    | .host =>
      match v with
      | none => s.reply (to_ 0) (failBody 1 0 4 .version ++ natBe 20 0)
      | some v =>
        let r := s.draw
        (r.2.modSess 0 (fun x => { x with version := v, at_ := s.rc })).reply (to_ 0)
          (failBody 1 v 4 .ok ++ natBe 16 r.1 ++ natBe 4 0)
    | .net p ip udp mac =>
      match v, (List.range 17).find? (fun k => k != 0 && (s.sess k).isNone) with
      | none, _ => s.reply (to_ 0) (failBody 1 0 0 .version ++ natBe 20 0)
      | some _, none => s.reply (to_ 0) (failBody 1 0 0 .busy ++ natBe 20 0)
      | some v, some ss =>
          let r := s.draw
          let q := r.2.draw
          let id := 1 + r.1 % (2 ^ 32 - 1)
          let role := s.rd Reg.kdpCfgAnonObserver
          let x : Session := { id := id, version := v, role := role, port := p, ip := ip, udp := udp, mac := mac
                               nonceC := m.body.drop 4, nonceD := natBe 16 q.1, at_ := s.rc, born := s.rc
                               idle := s.rd Reg.kdpCfgIdleTimeout }
          let s := ((q.2.setSess ss (some x)).bump Reg.kdpSessionsOpened 1).post 0xD001 3 [pack [(0, ss), (5, 1)]]
          s.reply (to_ id) (failBody 1 v role .ok ++ natBe 16 q.1 ++ natBe 2 (limit (s.frameCfg p) false - 46) ++ natBe 2 (s.maxPart p))

/-- Session 0 as it stands at start (R381). -/
def State.hostReset (s : State) : State :=
  { s with
    kdp := { s.kdp with host := { role := 4, at_ := s.rc }, subs := s.kdp.subs.filter (fun b => b.ss != 0) }
    host := { s.host with notify := [] } }

/-- HELLO with OP 1 or 2 (R375, R380, R381). -/
def State.helloOther (s : State) (ss : Nat) (x : Session) (body : List Byte) : List Byte × State :=
  if at_ body 3 1 != 0 || body.length != 4 then (failBody 1 x.version x.role .badType, s)
  else if 2 < at_ body 0 1 then (failBody 1 x.version x.role .outOfRange, s)
  else if at_ body 0 1 = 1 then
    (if ss = 0 then (failBody 1 0x10 4 .ok, s.hostReset)
      else (failBody 1 x.version x.role .ok, { s with kdp := { s.kdp with closing := some 0 } }))
  else (failBody 1 x.version x.role .ok, s)

/-- The session key of a slot (R377). -/
def State.sessionKey (s : State) (x : Session) (slot : Nat) : List Byte :=
  hmac (blobBytes 8 (s.get (Reg.key slot).key)) (ascii "KDPS" ++ x.nonceC ++ x.nonceD ++ natBe 4 x.id)

/-- AUTH (R377): the reply body, its MAC key, and the state. -/
def State.kdpAuth (s : State) (ss : Nat) (x : Session) (m : KdpMsg) : List Byte × Option (List Byte) × State :=
  let slot := at_ m.body 0 1
  let sk := s.sessionKey x slot
  let good := ss != 0 && m.seq == 1 && bit m.flags 2 && m.body.length == 4 && at_ m.body 1 3 == 0 && slot < 8
    && s.on (Reg.keyStatusLoaded slot) && s.on (Reg.keyCfgRole slot) && m.mac == kdpMac sk 0 m.head m.body
  if good then
    let role := s.rd (Reg.keyCfgRole slot)
    (natBe 1 0 ++ natBe 1 role ++ natBe 2 0, some sk,
      s.setSess ss (some { x with authed := true, role := role, slot := slot, sk := sk, high := 1, seen := 1 }))
  else
    let s := s.authFailed slot x.ip
    (failBody 2 0 0 .authFail, none, if ss = 0 then s else { s with kdp := { s.kdp with closing := some 5 } })

/-! Service. -/

/-- The session a message names, bound to its sender (R374, R380, R381). -/
def State.sessionOf (s : State) (src : Sender) (m : KdpMsg) : Option Nat :=
  match src with
  | .host => if m.session = 0 then some 0 else none
  | .net p ip udp _ =>
    s.openSessions.find? (fun k => match s.sess k with
      | some x => x.id == m.session && x.port == p && x.ip == ip && x.udp == udp
      | none => false)

/-- The request of a session is done: the session closes where something in it says so (R380, R398). -/
def State.served (s : State) (ss : Nat) : State :=
  let c := s.kdp.closing
  let s := { s with kdp := { s.kdp with serving := none, closing := none } }
  match c with | some cause => s.sessEnd ss cause | none => s

/-- A message that passed every check of R374 is served. A GET whose reply would take more than 255 parts is answered TOO_LARGE and reads
nothing (R368, R392; log entry 26). What a failed AUTH posts it posts at one moment (R377, R421). -/
def State.kdpDo (s : State) (src : Sender) (ss : Nat) (x : Session) (m : KdpMsg) : State :=
  let sk := if x.authed then some x.sk else none
  let to_ : ReplyTo := { src := src, version := if m.ty = 1 then 0x10 else x.version, ty := m.ty, sid := x.id, seq := m.seq, sk := sk }
  let s := { s with kdp := { s.kdp with serving := some ss } }
  let s := s.catchUp
  match m.ty with
  | 2 => s.together fun s => let r := s.kdpAuth ss x m; (r.2.2.reply { to_ with sk := r.2.1 } r.1).served ss
  | _ =>
    let s := match m.ty with
    | 1 => let r := s.helloOther ss x m.body; r.2.reply to_ r.1
    | 3 =>
      let r := s.kdpGet x.who m.body
      if s.overParts to_ r.1 then s.reply to_ (failBody 3 0 0 .tooLarge) else r.2.reply to_ r.1
    | 4 => let r := s.kdpSet ss x 4 (bit m.flags 3) m.body; r.2.reply to_ r.1
    | 5 => let r := s.kdpGetbulk x.who m.body; r.2.reply to_ r.1
    | 6 => let r := s.kdpSet ss x 6 false m.body; r.2.reply to_ r.1
    | 7 => let r := s.kdpSubscribe ss x m.body; r.2.reply to_ r.1
    | _ => let r := s.kdpCommit ss x m.seq m.body; match r.1 with | some b => r.2.reply to_ b | none => r.2
    s.served ss

/-- A received message, through the checks of R374 in their order. -/
def State.kdpServe (s : State) (src : Sender) (l : List Byte) : State :=
  let s := s.bump Reg.kdpRxMsgs 1
  let host := match src with | .host => true | _ => false
  match parseKdp l host with
  | none => s.bump Reg.kdpMalformed 1
  | some m =>
    if s.ignored src m then s
    else if m.ty = 1 && at_ m.body 0 1 = 0 && m.body.length != 0 then s.helloOpen src m
    else
      match (s.sessionOf src m).bind (fun k => (s.sess k).map (fun x => (k, x))) with
      | none =>
        (s.bump Reg.kdpNoSession 1).reply
          { src := src, version := if m.ty = 1 then 0x10 else m.version, ty := m.ty, sid := m.session, seq := m.seq, sk := none }
          (failBody m.ty 0 (helloRole src) .noSession)
      | some (ss, x) =>
        if x.authed && !(bit m.flags 2 && m.mac == kdpMac x.sk 0 m.head m.body) then s.bump Reg.kdpMacFail 1
        else if ss != 0 && !x.seqOk m.seq then s.bump Reg.kdpReplay 1
        else
          let x := if ss = 0 then x else x.seqTake m.seq
          if m.ty != 1 && m.version != x.version then
            (s.setSess ss (some x)).reply
              { src := src, version := x.version, ty := m.ty, sid := x.id, seq := m.seq, sk := if x.authed then some x.sk else none }
              (failBody m.ty x.version x.role .version)
          else
            let x := { x with at_ := s.rc }
            (s.setSess ss (some x)).kdpDo src ss x m

/-- Whether the engine listens on port `p` (R371, R435). -/
def State.kdpListens (s : State) (p : Nat) : Bool :=
  (if p = 0 then s.on Reg.kdpCfgListenA else if p = 1 then s.on Reg.kdpCfgListenB else s.on Reg.kdpCfgListenM)
    && s.on (Reg.portIpv4Addr p) && s.portRuns p && s.on Reg.deviceStatusChipReady

/-- The request the host port holds is served (R382, R408). -/
def State.serveHost (s : State) : State :=
  match s.host.request with
  | some l => let s := s.kdpServe .host l; { s with host := { s.host with request := none } }
  | none => s

/-- Which row of the table a message is: by its type and operation; 0 for none. -/
def kdpKind (l : List Byte) : Nat :=
  let op := at_ l 16 1
  match at_ l 2 1 with
  | 1 => if op ≤ 2 then 1 + op else 0
  | 2 => 4
  | 3 => 5
  | 4 => if bit (at_ l 3 1) 3 then 9 else 7
  | 5 => 6
  | 6 => 8
  | 7 => if op ≤ 2 then 15 + op else 0
  | 9 =>
    match op with
    | 0 => 10
    | 1 => if at_ l 20 12 = 0 then 11 else 12
    | 2 => if at_ l 18 1 = 0 then 13 else 14
    | _ => 0
  | _ => 0

/-- A KDP row: a message of its kind reaches the engine, the held request over the host port or a datagram over a port that is
listened on. -/
def State.kdpRow (s : State) (k : Nat) (src : Sender) (l : List Byte) : State :=
  if kdpKind l != k then s
  else
    match src with
    | .host => if s.host.request = some l then s.serveHost else s
    | .net p _ _ _ => if s.kdpListens p then s.serveHost.kdpServe src l else s

/-- KDP_HELLO_OPEN (R375). -/
def execKdpHelloOpen (src : Sender) (msg : List Byte) (s : State) : Done := .next (s.kdpRow 1 src msg)

/-- KDP_HELLO_CLOSE (R380, R381). -/
def execKdpHelloClose (src : Sender) (msg : List Byte) (s : State) : Done := .next (s.kdpRow 2 src msg)

/-- KDP_HELLO_KEEPALIVE (R375). -/
def execKdpHelloKeepalive (src : Sender) (msg : List Byte) (s : State) : Done := .next (s.kdpRow 3 src msg)

/-- KDP_AUTH (R377). -/
def execKdpAuth (src : Sender) (msg : List Byte) (s : State) : Done := .next (s.kdpRow 4 src msg)

/-- KDP_GET (R383). -/
def execKdpGet (src : Sender) (msg : List Byte) (s : State) : Done := .next (s.kdpRow 5 src msg)

/-- KDP_GETBULK (R385). -/
def execKdpGetbulk (src : Sender) (msg : List Byte) (s : State) : Done := .next (s.kdpRow 6 src msg)

/-- KDP_SET (R386). -/
def execKdpSet (src : Sender) (msg : List Byte) (s : State) : Done := .next (s.kdpRow 7 src msg)

/-- KDP_SETBULK (R387). -/
def execKdpSetbulk (src : Sender) (msg : List Byte) (s : State) : Done := .next (s.kdpRow 8 src msg)

/-- KDP_SET_STAGE (R388). -/
def execKdpSetStage (src : Sender) (msg : List Byte) (s : State) : Done := .next (s.kdpRow 9 src msg)

/-- KDP_COMMIT_BEGIN (R388). -/
def execKdpCommitBegin (src : Sender) (msg : List Byte) (s : State) : Done := .next (s.kdpRow 10 src msg)

/-- KDP_COMMIT_APPLY (R388). -/
def execKdpCommitApply (src : Sender) (msg : List Byte) (s : State) : Done := .next (s.kdpRow 11 src msg)

/-- KDP_COMMIT_TIMED_APPLY (R389). -/
def execKdpCommitTimedApply (src : Sender) (msg : List Byte) (s : State) : Done := .next (s.kdpRow 12 src msg)

/-- KDP_COMMIT_DISCARD (R388). -/
def execKdpCommitDiscard (src : Sender) (msg : List Byte) (s : State) : Done := .next (s.kdpRow 13 src msg)

/-- KDP_COMMIT_DISCARD_WAITING (R389). -/
def execKdpCommitDiscardWaiting (src : Sender) (msg : List Byte) (s : State) : Done := .next (s.kdpRow 14 src msg)

/-- KDP_SUBSCRIBE_LIST (R391). -/
def execKdpSubscribeList (src : Sender) (msg : List Byte) (s : State) : Done := .next (s.kdpRow 15 src msg)

/-- KDP_SUBSCRIBE_RANGE (R391). -/
def execKdpSubscribeRange (src : Sender) (msg : List Byte) (s : State) : Done := .next (s.kdpRow 16 src msg)

/-- KDP_SUBSCRIBE_REMOVE (R391). -/
def execKdpSubscribeRemove (src : Sender) (msg : List Byte) (s : State) : Done := .next (s.kdpRow 17 src msg)

/-- COMMIT_TIMED_APPLY_DUE: the view of a waiting group reaches its time; the group is judged and applied, and its reply sent
(R389, R408, R426). -/
def execCommitTimedApplyDue (ss : Nat) (s : State) : Done :=
  .next (s.together fun s => match (s.sess ss).bind (fun x => x.waiting.map (fun w => (x, w))) with
    | none => s
    | some (x, w) =>
      let s := s.advance (s.viewReaches w.view w.at_ s.rc)
      if !s.viewReached w.view w.at_ then s
      else
        let s := s.modSess ss (fun x => { x with waiting := none })
        let r := State.setBulk { s with kdp := { s.kdp with serving := some ss } } x.who w.items
        let src : Sender := if ss = 0 then .host else .net x.port x.ip x.udp x.mac
        let s := r.2.reply { src := src, version := x.version, ty := 9, sid := x.id, seq := w.seq, sk := if x.authed then some x.sk else none }
          (resultBody .ok w.items r.1)
        let s := s.served ss
        if ss = 0 then s.post 0xD502 4 [w.seq, (firstBad .ok r.1).code] else s)

/-- COMMIT_GROUP_TIMEOUT: RC reaches 60 s after its BEGIN, and an open group is discarded (R388). -/
def execCommitGroupTimeout (ss : Nat) (s : State) : Done :=
  .next (match (s.sess ss).bind (fun x => x.group.map (fun g => (x, g))) with
    | some (x, g) =>
      ((s.advance (g.since + 60 * rcSecond)).setSess ss (some { x with group := none })).bump Reg.kdpGroupsDiscarded 1
    | none => s)

end Sys2Proof.Machine
end

