-- ==== Sys2Proof/Machine/Frames.lean ====
section
/-! DEFINITION. Frames on the ports: receipt, classification and consumers, the end of a transmission, and ESMC (R130 to R138,
R146, R149, R371, R446). PTP messages on the wire follow IEEE 1588-2019 (PRESUMED, log entry 9). -/

namespace Sys2Proof.Machine

/-- A UDP datagram of IPv4 in a frame: source and destination address, source and destination port, payload, and whether it is a
fragment. Without a UDP header in the frame there is none (R135, R371). -/
structure Datagram where
  src : Nat
  dst : Nat
  sport : Nat
  dport : Nat
  data : List Byte
  frag : Bool

/-- The datagram a frame carries. -/
def datagramOf (l : List Byte) : Option Datagram :=
  let o := ipOff l
  let ihl := at_ l o 1 % 16 * 4
  let ip := (l.drop o).take (at_ l (o + 2) 2)
  if at_ l (o - 2) 2 = 0x0800 && at_ l o 1 / 16 = 4 && 20 ≤ ihl && at_ ip 9 1 = 17 && ihl + 8 ≤ ip.length
      && at_ ip 6 2 % 0x2000 = 0 then
    some { src := at_ ip 12 4, dst := at_ ip 16 4, sport := at_ ip ihl 2, dport := at_ ip (ihl + 2) 2
           data := ((ip.drop ihl).take (at_ ip (ihl + 4) 2)).drop 8, frag := at_ ip 6 2 % 0x4000 != 0 }
  else none

/-- A timestamp of a PTP message in units of 2^-16 ns. -/
def ptpTime (l : List Byte) (i : Nat) : Nat := (at_ l i 6 * 1000000000 + at_ l (i + 6) 4) * 65536

/-- The path trace TLV among the TLVs of an Announce from place `i` on, of at most `n` TLVs (IEEE 802.1AS-2020). -/
def pathTrace (l : List Byte) : Nat → Nat → List Nat
  | 0, _ => []
  | n + 1, i =>
    let k := at_ l (i + 2) 2
    if l.length < i + 4 + k then []
    else if at_ l i 2 = 8 then (List.range (k / 8)).map (fun j => at_ l (i + 4 + 8 * j) 8)
    else pathTrace l n (i + 4 + k)

/-- A PTP message from its bytes and its far end; none for the kinds R72 does not list as acted on. -/
def parsePtp (l : List Byte) (unicast : Bool) (ip mac : Nat) : Option PtpMsg :=
  let kind := at_ l 0 1 % 16
  let known := (kind ≤ 3 || (8 ≤ kind && kind ≤ 11)) && at_ l 1 1 % 16 == 2
  let need := if kind = 11 then 64 else if kind = 3 || kind = 9 || kind = 10 then 54 else 44
  if known && need ≤ l.length then
    some { kind := kind, domain := at_ l 4 1, src := at_ l 20 10, seq := at_ l 30 2, corr := sext 64 (at_ l 8 8), time := ptpTime l 34
           twoStep := bit (at_ l 6 1) 1, req := if kind = 3 || kind = 9 || kind = 10 then at_ l 44 10 else 0
           ann := if kind = 11 then
               { gm := at_ l 53 8, prio1 := at_ l 47 1, cls := at_ l 48 1, acc := at_ l 49 1, var := at_ l 50 2, prio2 := at_ l 52 1
                 steps := at_ l 61 2, utc := at_ l 44 2, flags := at_ l 7 1 % 64, tsrc := at_ l 63 1 }
             else {}
           unicast := unicast, logInt := sext 8 (at_ l 33 1)
           path := if kind = 11 then pathTrace (l.take (at_ l 2 2)) l.length 64 else [], ip := ip, mac := mac }
  else none

/-- The PTP message a frame on port `p` carries over the transport of its profile, to an address of R72 or to the port itself (R72,
R135). -/
def State.ptpOf (s : State) (p : Nat) (l : List Byte) : Option PtpMsg :=
  let uni := !bit (at_ l 0 1) 0
  let dst := at_ l 0 6
  if !(p < 2 && s.on (Reg.ptpPortCfgEnable p)) then none
  else if s.profile p = 4 then
    (if at_ l (ipOff l - 2) 2 = 0x88F7 && (dst == 0x011B19000000 || dst == 0x0180C200000E || dst == s.rd (Reg.portMacMac p)) then
        parsePtp (l.drop (ipOff l)) uni 0 (at_ l 6 6)
      else none)
  else
    match datagramOf l with
    | some g =>
      if !g.frag && (g.dst == 0xE0000181 || g.dst == 0xE000006B || g.dst == s.rd (Reg.portIpv4Addr p)) then
        match parsePtp g.data uni g.src (at_ l 6 6) with
        | some m => if g.dport = (if m.kind < 8 then 319 else 320) then some m else none
        | none => none
      else none
    | none => none

/-- What a row of this model makes of a PTP message. -/
def State.ptpRow (s : State) (p : Nat) (m : PtpMsg) (q : Nat) : State :=
  let d : Done := match m.kind with
    | 0 => execPtpSyncRx p m q s
    | 1 => execPtpDelayReqRx p m q s
    | 2 => execPtpPdelayReqRx p m q s
    | 3 => execPtpPdelayRespRx p m q s
    | 8 => execPtpFollowUpRx p m s
    | 9 => execPtpDelayRespRx p m s
    | 10 => execPtpPdelayRespFollowUpRx p m s
    | _ => execPtpAnnounceRx p m s
  match d with | .next t => t | _ => s

/-- Whether a frame is an ARP request for the port's address that the port answers (R130). -/
def State.arpFor (s : State) (p cfg : Nat) (l : List Byte) : Bool :=
  let o := ipOff l
  let ip := s.rd (Reg.portIpv4Addr p)
  ip != 0 && bit cfg 2 && at_ l (o - 2) 2 == 0x0806 && at_ l o 8 == 0x0001080006040001
    && at_ l (o + 24) 4 == ip && o + 28 ≤ l.length

/-- The port's answer to an ARP request (R130; the frame is RFC 826's, PRESUMED, log entry 9). -/
def State.arpReply (s : State) (p : Nat) (l : List Byte) : State :=
  let o := ipOff l
  let mac := natBe 6 (s.rd (Reg.portMacMac p))
  let from_ := (l.drop (o + 8)).take 6
  s.sendOwn p (from_ ++ mac ++ (l.drop 12).take (o - 12) ++ natBe 8 0x0001080006040002 ++ mac
    ++ natBe 4 (s.rd (Reg.portIpv4Addr p)) ++ from_ ++ (l.drop (o + 14)).take 4) none

/-- Whether a frame passes the host filter under a FRAME_CFG (R135, R136). -/
def State.hostFilter (s : State) (p cfg : Nat) (l : List Byte) : Bool :=
  let dst := at_ l 0 6
  bit cfg 4 || dst == s.rd (Reg.portMacMac p) || (dst == 2 ^ 48 - 1 && bit cfg 3)
    || (List.range 32).any (fun f => s.on (Reg.mcFilterValid p f) && s.rd (Reg.mcFilterAddr p f) == dst)

/-- A slow-protocols frame of subtype 0x0A on a media port: parsed where it is addressed to the group of R146, and copied to the
host where FRAME_CFG says so (R135, R146). -/
def State.esmcFrame (s : State) (p cfg : Nat) (l : List Byte) : State :=
  let s := if at_ l 0 6 = 0x0180C2000002 then
      (if esmcValid l then (s.esmc p l).esmcFresh p else s.esmc p l)
    else s
  if bit cfg 5 then s.toRing p l else s

/-- An accepted frame goes, under a FRAME_CFG, to the first consumer of R135 that matches. -/
def State.classify (s : State) (p cfg q : Nat) (l : List Byte) : State :=
  let host (s : State) : State := if s.hostFilter p cfg l then s.toRing p l else s.bump (Reg.portRxFiltered p) 1
  let g := datagramOf l
  let ctx : Option Nat := if p < 2 then g.bind (fun g => s.rxFor p g.dst g.dport g.src) else none
  let kdp := match g with
    | some g => s.kdpListens p && g.dst == s.rd (Reg.portIpv4Addr p) && g.dport == 30210
    | none => false
  if at_ l 12 2 = 0x8808 then s.macControl p l
  else if p < 2 && at_ l 12 2 = 0x8809 && at_ l 14 1 = 0x0A then s.esmcFrame p cfg l
  else
    match s.ptpOf p l, ctx, g with
    | some m, _, _ => s.ptpRow p m q
    | none, some c, _ => s.rxPacket c p l
    | none, none, some g =>
      if kdp then
        (if g.frag then s.bump Reg.kdpMalformed 1
          else s.serveHost.kdpServe (.net p g.src g.sport (at_ l 6 6)) g.data)
      else host s
    | none, none, none => if s.arpFor p cfg l then s.arpReply p l else host s

/-- What the line brought counts: error blocks or symbols on every port, FEC blocks and codewords on A and B with a FEC (R126, R158). -/
def State.lineCounts (s : State) (p : Nat) (f : FrameIn) : State :=
  let s := s.bump (Reg.portRxCodeErr p) f.codeErr
  if p < 2 && s.rd (Reg.portCfgFec p) != 0 then
    (s.bump (Reg.portFecCorrected p) f.fecFixed).bump (Reg.portFecUncorrected p) f.fecLost
  else s

/-- A frame received whole: sorted by length and FCS, counted, and classified where it is accepted, by the FRAME_CFG at its
first byte (R131, R132, R134, R158). -/
def State.frameTake (s : State) (p : Nat) (f : FrameIn) : State :=
  let n := f.bytes.length + 4
  let cfg := s.frameCfgAt p f.q
  let slow := p == 2 && s.rd (Reg.portStatusSpeed 2) != 2
  if n ≤ 63 then s.bump (Reg.portRxRunt p) 1
  else if limit cfg (tagged cfg f.bytes) < n then s.bump (Reg.portRxOversize p) 1
  else if !f.fcsOk then s.bump (if slow && f.odd then Reg.portRxAlignErr p else Reg.portRxFcsErr p) 1
  else ((s.bump (Reg.portRxFrames p) 1).bump (Reg.portRxOctets p) n).classify p cfg f.q f.bytes

/-- FRAME_RX: a frame arrives on a port that runs with its link up; loopbacks 1 to 3 ignore what the wire brings (R132, R446). -/
def execFrameRx (p : Nat) (f : FrameIn) (s : State) : Done :=
  .next (s.together fun s => if p < 3 && s.portRuns p && s.linkUp p && (s.rd (Reg.portLoopMode p) == 0 || s.rd (Reg.portLoopMode p) == 4) then
      ((s.advance (f.q / 4)).lineCounts p f).frameTake p f
    else s)

/-- ESMC_PDU_RX: a slow-protocols frame of subtype 0x0A on a media port, sorted and counted as every frame (R132, R146). -/
def execEsmcPduRx (p : Nat) (f : FrameIn) (s : State) : Done :=
  .next (s.together fun s => if p < 2 && s.portRuns p && s.linkUp p && (s.rd (Reg.portLoopMode p) == 0 || s.rd (Reg.portLoopMode p) == 4)
      && at_ f.bytes 12 2 = 0x8809 && at_ f.bytes 14 1 = 0x0A then
      ((s.advance (f.q / 4)).lineCounts p f).frameTake p f
    else s)

/-- A frame of the port has left at a timestamp point: counted, its timestamp used, and looped back where the port's loopback says so
(R72, R73, R137, R138, R149, R158, R446). -/
def State.frameSent (s : State) (p q : Nat) (f : TxFrame) : State :=
  let l := s.leaving p q f
  let l := l ++ List.replicate (60 - l.length) 0
  let x := s.port p
  let s := (s.bump (Reg.portTxFrames p) 1).bump (Reg.portTxOctets p) (l.length + 4)
  let s := s.setPort p { x with wire := none, hd := .idle, sent := l }
  let s := if s.halfDuplex p then
      (s.bumpIf (x.hdAttempts == 1) (Reg.portTxSingleColl p)).bumpIf (2 ≤ x.hdAttempts) (Reg.portTxMultiColl p)
    else s
  let s := match f.ptp with | some m => s.ptpSent p m q | none => s
  let s := if s.rd (Reg.portLoopMode p) = 2 || s.rd (Reg.portLoopMode p) = 3 then s.frameTake p { bytes := l, q := q } else s
  s.txStart p

/-- FRAME_TX_END: the frame on the wire of port `p` finishes; `q` is its timestamp point in quarter counts (R138). With the clocks
stopped it stays where it stands (R439). -/
def execFrameTxEnd (p q : Nat) (s : State) : Done :=
  .next (s.together fun s => match (s.port p).wire with
    | some f => if p < 3 && (s.port p).hd = .sending && s.locked then (s.advance (q / 4)).frameSent p q f else s
    | none => s)

end Sys2Proof.Machine
end

