-- ==== Sys2Proof/Machine/HostPort.lean ====
section
/-! DEFINITION. The host port: its transactions, checked in the order of R407, and what each opcode does (R402 to R410). -/

namespace Sys2Proof.Machine

/-- A command phase up to its CRC (R403). -/
def hpCommand (op flags arg : Nat) (data : List Byte) : List Byte :=
  natBe 1 op ++ natBe 1 flags ++ natBe 2 arg ++ natBe 4 data.length ++ data

/-- The bytes of a response (R403); one whose STATUS is not OK carries no data (R407). -/
def hpResponse (st : Nat) (data : List Byte) : List Byte :=
  let d := if st = 0 then data else []
  let l := natBe 1 st ++ natBe 3 0 ++ natBe 4 d.length ++ d
  l ++ natBe 4 (crc32c l)

/-- Whether FLAGS, ARG and DLEN lie within the opcode's row of R406. -/
def hpAllowed (op flags arg len : Nat) : Bool :=
  match op with
  | 1 => flags == 0 && arg == 0 && 16 ≤ len && len ≤ 262160
  | 2 | 3 | 7 | 8 | 9 => flags == 0 && arg == 0 && len == 0
  | 4 => flags == 0 && len == 0
  | 5 => flags ≤ 1 && 1 ≤ arg && arg ≤ 64 && len == 0
  | 6 => flags == 0 && arg ≤ 512 && len == 0
  | 10 => flags == 0 && arg == 0 && 1 ≤ len && len ≤ 4096
  | _ => false

/-- The STATUS that turns a transaction away before its opcode is looked at; 0 where none does (R407). -/
def State.hpGate (s : State) (op flags arg : Nat) (data : List Byte) (crc : Nat) : Nat :=
  if crc != crc32c (hpCommand op flags arg data) then 1
  else if !hpAllowed op flags arg data.length then 3
  else if !s.on Reg.deviceStatusChipReady && op != 9 && op != 10 then 7
  else if op == 1 && s.host.request.isSome then 2
  else 0

/-- The response goes out, and what its STATUS counts is counted (R405, R425). -/
def State.hpRespond (s : State) (st : Nat) (data : List Byte) : State :=
  let s := match st with
    | 1 => s.bump Reg.hpHpCrcErr 1
    | 2 => s.bump Reg.hpHpBusy 1
    | 3 => s.bump Reg.hpHpBad 1
    | _ => s
  { s with host := { s.host with status := st, response := hpResponse st data } }

/-- What HOST_IO3 to HOST_IO0 carry: high impedance (`none`) while RESET_N is low and outside a response phase; at clock `k` of
the response phase that the last transaction ended with, that nibble of its response, the high nibble of a byte first, HOST_IO3
the most significant bit (R402, R403, R436). -/
def State.hostIo (s : State) (phase : Option Nat) : Option (BitVec 4) :=
  if s.boot.low then none
  else phase.bind fun k => s.host.response[k / 2]?.map fun b => BitVec.ofNat 4 (b.toNat / (if k % 2 = 0 then 16 else 1))

/-- The data of a STATUS response (R410). -/
def State.hpStatusData (s : State) : List Byte :=
  natBe 1 (pack [(0, b2n (s.on Reg.deviceStatusChipReady)), (1, b2n s.host.request.isSome), (2, b2n s.host.reply.isSome),
    (3, b2n (!s.host.notify.isEmpty)), (4, b2n (s.lb.depth != 0))])
    ++ natBe 3 0 ++ natBe 4 (match s.host.reply with | some l => l.length | none => 0)

/-- REQUEST: the message is held for the engine, and the current reply is discarded (R408). -/
def State.hpTake (s : State) (msg : List Byte) : State :=
  { s with host := { s.host with request := some msg, reply := none, replyRead := false } }

/-- A transaction of opcode `op` that nothing turns away does `f`; one turned away does nothing (R405 to R407). While RESET_N is
low the port does not answer (R428). -/
def State.hpRun (s : State) (op flags arg : Nat) (data : List Byte) (crc : Nat) (f : State → State) : State :=
  if s.boot.low then s
  else if s.hpGate op flags arg data crc = 0 then f s
  else s.hpRespond (s.hpGate op flags arg data crc) []

/-- HP_REQUEST (R408). -/
def execHpRequest (flags arg : Nat) (data : List Byte) (crc : Nat) (s : State) : Done :=
  .next (s.hpRun 1 flags arg data crc fun s => (s.hpTake data).hpRespond 0 [])

/-- HP_REPLY (R408): the reply stays. -/
def execHpReply (flags arg : Nat) (data : List Byte) (crc : Nat) (s : State) : Done :=
  .next (s.hpRun 2 flags arg data crc fun s =>
    match s.host.reply with
    | some l => State.hpRespond { s with host := { s.host with replyRead := true } } 0 l
    | none => s.hpRespond 4 [])

/-- HP_NOTIFY (R409): the oldest stays. -/
def execHpNotify (flags arg : Nat) (data : List Byte) (crc : Nat) (s : State) : Done :=
  .next (s.hpRun 3 flags arg data crc fun s =>
    match s.host.notify with
    | p :: _ => s.hpRespond 0 p.2
    | [] => s.hpRespond 4 [])

/-- HP_NOTIFY_RELEASE (R409). -/
def execHpNotifyRelease (flags arg : Nat) (data : List Byte) (crc : Nat) (s : State) : Done :=
  .next (s.hpRun 4 flags arg data crc fun s =>
    match s.host.notify with
    | p :: r =>
      if p.1 % 2 ^ 16 = arg then State.hpRespond { s with host := { s.host with notify := r } } 0 [] else s.hpRespond 6 []
    | [] => s.hpRespond 6 [])

/-- HP_POP (R416, R420). -/
def execHpPop (flags arg : Nat) (data : List Byte) (crc : Nat) (s : State) : Done :=
  .next (s.hpRun 5 flags arg data crc fun s =>
    let r := s.lb.pop arg (bit flags 0)
    State.hpRespond { s with lb := r.2 } 0 r.1)

/-- HP_RELEASE (R417); a draining bank left empty swaps at once (R413, R421). -/
def execHpRelease (flags arg : Nat) (data : List Byte) (crc : Nat) (s : State) : Done :=
  .next (s.hpRun 6 flags arg data crc fun s =>
    match s.lb.release arg with
    | some b => (State.lbSwapIfDue { s with lb := b }).hpRespond 0 []
    | none => s.hpRespond 6 [])

/-- HP_MARK (R418). -/
def execHpMark (flags arg : Nat) (data : List Byte) (crc : Nat) (s : State) : Done :=
  .next (s.hpRun 7 flags arg data crc fun s =>
    State.hpRespond { s with lb := { s.lb with mark := some s.lb.cursor } } 0 [])

/-- HP_REWIND (R418). -/
def execHpRewind (flags arg : Nat) (data : List Byte) (crc : Nat) (s : State) : Done :=
  .next (s.hpRun 8 flags arg data crc fun s =>
    match s.lb.mark with
    | some m => State.hpRespond { s with lb := { s.lb with cursor := m } } 0 []
    | none => s.hpRespond 5 [])

/-- HP_STATUS (R410). -/
def execHpStatus (flags arg : Nat) (data : List Byte) (crc : Nat) (s : State) : Done :=
  .next (s.hpRun 9 flags arg data crc fun s => s.hpRespond 0 s.hpStatusData)

/-- HP_ECHO (R406). -/
def execHpEcho (flags arg : Nat) (data : List Byte) (crc : Nat) (s : State) : Done :=
  .next (s.hpRun 10 flags arg data crc fun s => s.hpRespond 0 data)

/-- HP_TRANSACTION_ABORT: a transaction cut short does nothing, has no response, and is counted (R405). -/
def execHpTransactionAbort (s : State) : Done :=
  .next (if s.boot.low then s else
    let s := s.bump Reg.hpHpAbort 1
    { s with host := { s.host with response := [] } })

/-- HP_BAD_OPCODE: a transaction that R406 does not allow is answered BAD, or CRC where that is wrong too; an allowed one is not
of this row. -/
def execHpBadOpcode (op flags arg : Nat) (data : List Byte) (crc : Nat) (s : State) : Done :=
  .next (if hpAllowed op flags arg data.length then s else s.hpRun op flags arg data crc fun s => s)

/-- What happens with no command waiting: a request that the host port holds is served (R408); else, while the PLL is locked, RC
counts one on (R57) and what is due at its new value happens; else nothing (log entry 1). -/
def State.idle (s : State) : State :=
  if s.host.request.isSome then s.serveHost
  else if s.locked then s.advance (s.rc + 1)
  else s

end Sys2Proof.Machine
end

