-- ==== Sys2Proof/Machine/Startup.lean ====
section
/-! DEFINITION. Reset, the boot modes, the clocks and the load of saved state (R397, R427 to R440). -/

namespace Sys2Proof.Machine

/-! Reset and boot. -/

/-- RESET_ASSERT: RESET_N low returns every part to its reset state; fuses and flash stay, and so do the levels of the pins that
others drive and the VID drive once VDD_PLL is up (R428, R429, R436). -/
def execResetAssert (s : State) : Done :=
  .next { State.reset with fuse := s.fuse, flash := s.flash, free := s.free, pending := s.pending
                           volt := { pgHigh := s.volt.pgHigh, driven := s.volt.driven } }

/-- VDD_PLL_UP: VDD_PLL reaches 90 % of nominal and the device drives VID code 30 (R429). -/
def execVddPllUp (s : State) : Done := .next { s with volt := { s.volt with driven := true } }

/-- RESET_RELEASE: RESET_N rises; the straps BOOT_MODE1, BOOT_MODE0 are sampled and the voltage of each TDM bank is detected (VOLT
codes of the banks that are supplied), and LO_CLK is watched (R225, R428, R430 to R432). -/
def execResetRelease (straps : Nat) (volts : List Nat) (s : State) : Done :=
  .next (if !s.boot.low then s
    else
      let s := s.wr Reg.deviceStatusBootMode (straps % 4)
      let s := s.units 4 fun s b => s.wr (Reg.bankStatusVolt b) (volts.getD b 0)
      { s with boot := { s.boot with low := false, detect := true }, volt := { s.volt with driven := true } })

/-- CHIP_READY goes to 1 where the boot mode says so (R431). -/
def State.readyCheck (s : State) : State :=
  let mode := s.rd Reg.deviceStatusBootMode
  let host := mode = 0 || mode = 3 || s.on Reg.deviceStatusCfgInvalid
  if s.boot.fabric && (host || (s.locked && !s.boot.load)) then s.wr Reg.deviceStatusChipReady 1 else s

/-- LO_DETECT: 100 µs after RESET_N has risen LO_CLK has shown `edges` edges; it, or the crystal, is the local oscillator, and
modes 1 and 2 go on to read the boot record (R432, R433). -/
def execLoDetect (edges : Nat) (s : State) : Done :=
  .next (if !s.boot.detect then s
    else
      let mode := s.rd Reg.deviceStatusBootMode
      let s := s.flag Reg.deviceStatusLoInput (500 ≤ edges)
      { s with boot := { s.boot with detect := false, record := mode == 1 || mode == 2 } })

/-- The LO_CFG that a boot record gives, where it is valid (R432, R433; that the reserved bytes are not looked at is DEDUCED, log
entry 31). -/
def bootRecord (l : List Byte) (loClk : Bool) : Option Nat :=
  let freq := at_ l 5 1
  let div := at_ l 6 1
  let flags := at_ l 7 1
  if l.length = 64 && at_ l 0 4 = 0x52564243 && at_ l 4 1 = 1 && at_ l 60 4 = crc32c (l.take 60) && freq ≤ 9 && 7 ≤ div && div ≤ 50
      && flags ≤ 1 && (loClk || 2 ≤ freq) then
    some (pack [(0, freq), (4, div), (12, flags)])
  else none

/-- The clocks start to lock under a configuration (R434). -/
def State.lockWith (s : State) (cfg : Nat) : State :=
  ((s.put Reg.loCfgLoFreq.key cfg).put Reg.loFreq.key (cfg % 16)).wr Reg.deviceStatusClockState 1

/-- BOOT_RECORD_READ: 64 bytes have come from flash address 0, or no flash has answered (R433). -/
def execBootRecordRead (rec : Option (List Byte)) (s : State) : Done :=
  .next (if !s.boot.record then s
    else
      let mode := s.rd Reg.deviceStatusBootMode
      let s := { s with boot := { s.boot with record := false } }
      match rec.bind (fun l => bootRecord l (s.on Reg.deviceStatusLoInput)) with
      | some cfg => ({ s with boot := { s.boot with load := mode == 1 } }).lockWith cfg
      | none => (s.wr Reg.deviceStatusCfgInvalid 1).readyCheck)

/-- PLL_LOCK: the fixed-ratio PLL locks: RC, the views and DPLL time start from 0, MD0 starts, and the ports run (R57, R435, R437,
R440). -/
def execPllLock (s : State) : Done :=
  .next (s.together fun s => if s.rd Reg.deviceStatusClockState != 1 then s
    else
      let s := { s.wr Reg.deviceStatusClockState 2 with rc := 0 }
      let s := s.setDpll { rate := rateOf (sext 32 (s.rd Reg.dpllFreqFreq)) }
      let s := if s.on (Reg.mdCtrlEnable 0) then s.domainStart 0 else s
      let s := { s with boot := { s.boot with testWant := s.rd Reg.deviceStatusBootMode == 3 && !s.boot.tested } }
      let s := ((s.linkOwn 0).linkOwn 1).linkOwn 2
      s.readyCheck)

/-- PLL_LOCK_TIMEOUT: the PLL has not locked within 2 ms (R434). -/
def execPllLockTimeout (s : State) : Done :=
  .next (if s.rd Reg.deviceStatusClockState = 1 then s.wr Reg.deviceStatusClockState 3 else s)

/-- LO_LOST: the oscillator has no edge for 1 µs or the PLL loses lock: RC and every clock made from it stop where they stand, and
the work of the ticks in progress runs to its end (R37, R439). -/
def execLoLost (s : State) : Done :=
  .next (s.together fun s => if s.boot.low || s.boot.detect || s.on Reg.deviceStatusLoLost then s
    else
      let s := s.units 4 fun s d => if s.running d then s.domainHalt d else s
      let s := (s.wr Reg.deviceStatusClockState 3).wr Reg.deviceStatusLoLost 1
      s.post 0x0001 7 [])

/-- What stays while fabric initialisation runs again in test mode (R440; DEDUCED, log entry 32): the clocks, LO_CFG, DEVICE_STATUS
and BANK_STATUS, the results, the fenced cores, the VID request, the host port with session 0, MD0's ticks. -/
def State.reinit (s : State) : State :=
  let keep := [Reg.deviceStatusChipReady.key, Reg.loCfgLoFreq.key, Reg.loFreq.key, Reg.selftestResultDone.key,
    (Reg.bankStatusVolt 0).key, (Reg.bankStatusVolt 1).key, (Reg.bankStatusVolt 2).key, (Reg.bankStatusVolt 3).key,
    Reg.vidStatusCodeNow.key]
  let t : State := { State.reset with
    fuse := s.fuse, flash := s.flash, free := s.free, pending := s.pending, rc := s.rc, boot := s.boot, host := s.host
    kdp := { host := s.kdp.host }, volt := { pgHigh := s.volt.pgHigh, driven := s.volt.driven, goal := s.volt.goal }
    guard := { cores := s.guard.cores }, hearth := { dpll := s.hearth.dpll }
    path := { ticks := s.path.ticks.filter (fun p => p.1 == 0) } }
  let t := t.each keep fun t k => t.put k (s.get k)
  let t := (t.put (Reg.tickCount 0).key (s.get (Reg.tickCount 0).key)).wr (Reg.domainRunRunning 0) (s.rd (Reg.domainRunRunning 0))
  let t := t.each ((List.range 18).filter (fun c => (t.core c).service == 3)) fun t c => t.displace c
  ((t.linkOwn 0).linkOwn 1).linkOwn 2

/-- FABRIC_INIT_DONE: fabric initialisation is complete (R431); in test mode it runs again after the production self-tests (R440). -/
def execFabricInitDone (s : State) : Done :=
  .next (s.together fun s => if s.boot.low || s.boot.fabric then s
    else
      let s := if s.boot.tested then s.reinit else s
      State.readyCheck { s with boot := { s.boot with fabric := true } })

/-! The load of saved state. -/

/-- A key joins a rising list of keys. -/
def insertKey (k : Nat) : List Nat → List Nat
  | [] => [k]
  | a :: r => if k < a then k :: a :: r else if k = a then a :: r else a :: insertKey k r

/-- The unit numbers of an entry. -/
def EntDesc.unitsOf (d : EntDesc) : List (Nat × Nat) :=
  match d.dims with
  | [] => [(0, 0)]
  | [(_, n)] => (List.range n).map (fun a => (a, 0))
  | (_, n) :: (_, m) :: _ => (List.range n).flatMap (fun a => (List.range m).map (fun b => (a, b)))

/-- The entries that an image of a part holds, sinks and gains apart, in ascending index and subindex (R395, R397). -/
def Image.keys (x : Image) : List Nat :=
  let l := (entTable.filter (fun d => d.saved && d.ent != .sinkSource && d.ent != .gain)).flatMap (fun d =>
    (d.unitsOf.filter (fun u => x.fuse.present d.ent u.1 u.2)).map (fun u => d.keyOf u.1 u.2))
  l.foldr insertKey []

/-- The value an image holds for an entry: listed, or the reset value of the part that saved it (R395). A key slot that is not
listed, or whose key the part cannot unwrap, gives no key. -/
def Image.item (x : Image) (f : Fuses) (k : Nat) : Option (EntDesc × Nat × Nat × Nat) :=
  let v := Sparse.get (fun _ => 2 ^ 600) x.regs k
  match locate k with
  | some (d, a, b) =>
    if d.ent = .key then (x.key f a).map (fun w => (d, a, b, w))
    else if v = 2 ^ 600 then some (d, a, b, rwOnly d.fields (resetOf x.fuse k))
    else some (d, a, b, v)
  | none => none

/-- Whether an image holds a key for an entry that the part cannot unwrap: refused, as an entry of another die (DEDUCED, log entry 27). -/
def Image.foreignKey (x : Image) (f : Fuses) (k : Nat) : Bool :=
  match locate k with
  | some (d, a, _) => d.ent == .key && !(Sparse.get (fun _ => []) x.wraps a).isEmpty && (x.key f a).isNone
  | none => false

/-- The start field of an entry (R397). -/
def startField (e : Ent) (a b : Nat) : Option Fld :=
  match e with
  | .ttCtrl => some (Reg.ttCtrlArm a)
  | .rxCtrl => some (Reg.rxCtrlEnable a)
  | .txCtrl => some (Reg.txCtrlEnable a)
  | .sideCtrl => some (Reg.sideCtrlEnable a b)
  | .asrcCfg => some (Reg.asrcCfgEnable a)
  | .roomCtrl => some (Reg.roomCtrlEnable a)
  | .dlyCfg => some (Reg.dlyCfgEnable a)
  | .recCfg => some Reg.recCfgMode
  | _ => none

/-- One SET of the load, with host rights; a refused one is skipped and counted where `count` (R397). -/
def State.loadSet (s : State) (d : EntDesc) (k v : Nat) (count : Bool) : State :=
  let r := s.setItem .host { key := k, ty := tyCode d.ty, raw := bytesFor d.ty d.maxLen v }
  if r.1 = .ok then r.2 else s.bumpIf count Reg.kdpLoadSkipped

/-- Pass 1: the memories of one room, through ROOM_LOAD (R397). -/
def State.loadRoom (s : State) (r : Nat) (m : Sparse Nat × Sparse Nat × Sparse Nat) : State :=
  if !s.fuse.hasRoom r || s.fuse.isGuest r then s.bump Reg.kdpLoadSkipped 1
  else
    let rm := s.room r
    s.setRoom r { rm with core := { rm.core with p := m.1, x := m.2.1.filter (fun p => p.1 < 0x3F00), y := m.2.2 } }

/-- Pass 2: one entry, its start field 0, with what R397 adds to MD_CTRL, SLOT_MASK and DDR_CFG. `step`: how LPDDR4X training
ends. -/
def State.loadEntry (s : State) (x : Image) (step k : Nat) : State :=
  match x.item s.fuse k with
  | none => s.bumpIf (x.foreignKey s.fuse k) Reg.kdpLoadSkipped
  | some (d, a, b, v) =>
    let v := match startField d.ent a b with | some f => setField v f.lo f.w 0 | none => v
    let s := if d.ent = .mdCtrl && field v 1 3 != s.rd (Reg.mdCtrlRate a) then s.loadSet d k (setField v 0 1 0) false else s
    let s := s.loadSet d k v true
    match d.ent with
    | .slotMask => if s.fuse.present .maskCommit a b then applyMaskCommit s a b else s
    | .ddrCfg => match execDdrTrainingDone step s with | .next t => t | _ => s
    | _ => s

/-- Pass 2: the gains of every tile, through GAIN, and the commits that follow the last of them; then every tile READY (R250,
R397). -/
def State.loadGains (s : State) (x : Image) : State :=
  let s := s.units 1024 fun s t =>
    let img := (List.range 1024).foldl (fun m q =>
      let g := Sparse.get (fun _ => 0) x.gains (t / 32 * 32768 + t % 32 * 32 + q / 32 * 1024 + q % 32)
      Sparse.put (fun _ => 0) m q g) ([] : Sparse Nat)
    let y := s.tile t
    s.setTile t { y.setBank y.shadow (bankOf img) with dirty := true }
  let s := s.units 1024 fun s t => s.commitTile t 0
  s.units 1024 fun s t => s.copyEnd t

/-- Pass 3: the sinks with a source; those of units this part has not are skipped and counted like every entry (R397). -/
def State.loadSinks (s : State) (x : Image) : State :=
  let keys := (x.regs.keysIn 0x70000000 0x74020000).filter (fun k => k % 256 == 1)
  let lost := ((List.range 0x40200).filter (fun o => x.fuse.present .sinkSource o 0 && !s.fuse.present .sinkSource o 0
    && !keys.contains (Reg.sinkSourceSource o).key)).length
  let s := s.each keys fun s k => match x.item s.fuse k with | some (d, _, _, v) => s.loadSet d k v true | none => s
  s.bump Reg.kdpLoadSkipped lost

/-- Pass 4: the starts (R397). -/
def State.loadStart (s : State) (x : Image) (k : Nat) : State :=
  match x.item s.fuse k with
  | some (d, a, b, v) =>
    match startField d.ent a b with
    | some f => if field v f.lo f.w = 0 then s else s.loadSet d k v true
    | none => s
  | none => s

/-- An image is applied in its four passes (R397). -/
def State.loadImage (s : State) (x : Image) (step : Nat) : State :=
  let s := s.units 18 fun s r =>
    if x.fuse.hasRoom r then s.loadRoom r (Sparse.get (fun _ => ([], [], [])) x.mems r) else s
  let keys := x.keys
  let s := s.each (keys.filter (· < 0x90000000)) fun s k => s.loadEntry x step k
  let s := s.loadGains x
  let s := s.each (keys.filter (0x90000000 ≤ ·)) fun s k => s.loadEntry x step k
  let s := s.loadSinks x
  s.each keys fun s k => s.loadStart x k

/-- BOOT_LOAD: a boot in mode 1 with a valid record loads the newest valid image, once the fabric is initialised and the clocks are
locked; event 0xD004, and CHIP_READY (R397, R401, R431). `step` is how LPDDR4X training ends in the load (0: READY). -/
def execBootLoad (step : Nat) (s : State) : Done :=
  .next (s.together fun s => if s.boot.load && s.boot.fabric && s.locked then
      let s := match s.flash.newest with
        | some (slot, x) =>
          let s := s.loadImage x step
          let s := ((s.wr Reg.saveStatusLoaded 1).wr Reg.saveStatusSlot slot).wr Reg.saveStatusGeneration x.gen
          s.post 0xD004 5 [pack [(0, 1), (1, slot)], s.rd Reg.kdpLoadSkipped]
        | none => s.post 0xD004 5 [0, s.rd Reg.kdpLoadSkipped]
      State.readyCheck { s with boot := { s.boot with load := false } }
    else s)

end Sys2Proof.Machine
end

