-- ==== Sys2Proof/Machine/Sets.lean ====
section
/-! DEFINITION. The commands that set or read one dictionary entry, one per row: by whom, which unit, which value. Each is one item
of a SET, judged and applied as every item is (R364 to R369, R386); a command whose value belongs to another row does nothing.
A request is served from CHIP_READY on (R431, R435). -/

namespace Sys2Proof.Machine

/-- One item of a SET of entry `e` at `key`, whose value is `mine`; the answer is its status (R368, R369, R386). -/
def State.setAs (s : State) (e : Ent) (key : Nat) (who : Role) (v : Val) (mine : Nat → Bool) : State :=
  if !s.on Reg.deviceStatusChipReady then s
  else
    match locate key with
    | none => s.say .absent
    | some (d, _, _) =>
      let i : Item := { key := key, ty := tyCode v.ty, raw := v.raw }
      if d.ent = e && mine (d.valueIn i) then
        let r := s.catchUp.setItem who i
        r.2.say r.1
      else s

/-- A GET of entry `e` at `key`: the answer is its status and value, and what the read clears is cleared (R367, R383). -/
def State.getAs (s : State) (mine : EntDesc → Bool) (key : Nat) (who : Role) : State :=
  if !s.on Reg.deviceStatusChipReady then s
  else
    match locate key with
    | none => s.say .absent
    | some (d, _, _) =>
      if mine d then
        let r := s.catchUp.readEntry who key true
        { r.2 with answer := { status := r.1.1, bytes := r.1.2.2 } }
      else s

/-- SINK_SOURCE_SET: a sink's source (R23, R25). -/
def execSinkSourceSet (who : Role) (o : Nat) (v : Val) (s : State) : Done :=
  .next (s.setAs .sinkSource (Reg.sinkSourceSource o).key who v (fun _ => true))

/-- TONE_CTRL_SET: a generator's mode and domain (R29). -/
def execToneCtrlSet (who : Role) (g : Nat) (v : Val) (s : State) : Done :=
  .next (s.setAs .toneCtrl (Reg.toneCtrlMode g).key who v (fun _ => true))

/-- TONE_FREQ_SET: a generator's frequency (R29). -/
def execToneFreqSet (who : Role) (g : Nat) (v : Val) (s : State) : Done :=
  .next (s.setAs .toneFreq (Reg.toneFreqFreq g).key who v (fun _ => true))

/-- VID_MODE_SET: the VID mode (R55, R56). -/
def execVidModeSet (who : Role) (v : Val) (s : State) : Done :=
  .next (s.setAs .vidMode Reg.vidMode.key who v (fun _ => true))

/-- VID_FIXED_SET: the fixed VID code (R50). -/
def execVidFixedSet (who : Role) (v : Val) (s : State) : Done :=
  .next (s.setAs .vidFixed Reg.vidFixedCode.key who v (fun _ => true))

/-- HM_WINDOW_SET: the headroom window (R46). -/
def execHmWindowSet (who : Role) (v : Val) (s : State) : Done :=
  .next (s.setAs .hmWindow Reg.hmWindow.key who v (fun _ => true))

/-- TV_SCHEDULE_SET: a schedule with a rate or a step (R63, R65). -/
def execTvScheduleSet (who : Role) (v : Nat) (x : Val) (s : State) : Done :=
  .next (s.setAs .tvSchedule (Reg.tvScheduleRcApply v).key who x (fun n => field n 112 2 != 0))

/-- TV_SCHEDULE_CANCEL: a schedule with neither rate nor step cancels the pending one (R64). -/
def execTvScheduleCancel (who : Role) (v : Nat) (x : Val) (s : State) : Done :=
  .next (s.setAs .tvSchedule (Reg.tvScheduleRcApply v).key who x (fun n => field n 112 2 == 0))

/-- TV_SOURCE_SET: a view's steering owner (R66). -/
def execTvSourceSet (who : Role) (v : Nat) (x : Val) (s : State) : Done :=
  .next (s.setAs .tvSource (Reg.tvSource v).key who x (fun _ => true))

/-- PTP_PORT_CFG_SET: a PTP port's settings (R74, R77, R82). -/
def execPtpPortCfgSet (who : Role) (p : Nat) (v : Val) (s : State) : Done :=
  .next (s.setAs .ptpPortCfg (Reg.ptpPortCfgEnable p).key who v (fun _ => true))

/-- PTP_CLOCK_ID_SET: a PTP port's clock identity (R82). -/
def execPtpClockIdSet (who : Role) (p : Nat) (v : Val) (s : State) : Done :=
  .next (s.setAs .ptpClockId (Reg.ptpClockIdClockId p).key who v (fun _ => true))

/-- PTP_BC_SET: the boundary clock (R81). -/
def execPtpBcSet (who : Role) (v : Val) (s : State) : Done :=
  .next (s.setAs .ptpBc Reg.ptpBcBcEnable.key who v (fun _ => true))

/-- TT_CTRL_SET: a timed trigger is armed or disarmed (R83). -/
def execTtCtrlSet (who : Role) (tt : Nat) (v : Val) (s : State) : Done :=
  .next (s.setAs .ttCtrl (Reg.ttCtrlArm tt).key who v (fun _ => true))

/-- EVT_CFG_SET: an event input's settings (R88). -/
def execEvtCfgSet (who : Role) (i : Nat) (v : Val) (s : State) : Done :=
  .next (s.setAs .evtCfg (Reg.evtCfgEdge i).key who v (fun _ => true))

/-- REF_CFG_SET: a Hearth candidate's settings (R93, R99). -/
def execRefCfgSet (who : Role) (c : Nat) (v : Val) (s : State) : Done :=
  .next (s.setAs .refCfg (Reg.refCfgEnable c).key who v (fun _ => true))

/-- REF_CMD_END_WTR: REF_CMD 1 (R99). -/
def execRefCmdEndWtr (who : Role) (c : Nat) (v : Val) (s : State) : Done :=
  .next (s.setAs .refCmd (Reg.refCmdCmd c).key who v (fun n => n == 1))

/-- REF_CMD_CLEAR_FAILED: REF_CMD 2 (R99). -/
def execRefCmdClearFailed (who : Role) (c : Nat) (v : Val) (s : State) : Done :=
  .next (s.setAs .refCmd (Reg.refCmdCmd c).key who v (fun n => n == 2))

/-- SEL_MODE_SET: HEARTH_CTRL with another SEL_MODE (R107). -/
def execSelModeSet (who : Role) (v : Val) (s : State) : Done :=
  .next (s.setAs .hearthCtrl Reg.hearthCtrlSelMode.key who v (fun n => field n 0 3 != s.rd Reg.hearthCtrlSelMode))

/-- MANUAL_REF_SET: HEARTH_CTRL with SEL_MODE as it stands (R106). -/
def execManualRefSet (who : Role) (v : Val) (s : State) : Done :=
  .next (s.setAs .hearthCtrl Reg.hearthCtrlSelMode.key who v (fun n => field n 0 3 == s.rd Reg.hearthCtrlSelMode))

/-- HEARTH_CMD_CLEAR_HISTORY: HEARTH_CMD 1 (R110). -/
def execHearthCmdClearHistory (who : Role) (v : Val) (s : State) : Done :=
  .next (s.setAs .hearthCmd Reg.hearthCmdCmd.key who v (fun n => n == 1))

/-- MD_CTRL_SET: a domain's rate and APLL (R122). -/
def execMdCtrlSet (who : Role) (d : Nat) (v : Val) (s : State) : Done :=
  .next (s.setAs .mdCtrl (Reg.mdCtrlEnable d).key who v (fun _ => true))

/-- PORT_CFG_SET: a media port's settings (R127). -/
def execPortCfgSet (who : Role) (p : Nat) (v : Val) (s : State) : Done :=
  .next (s.setAs .portCfg (Reg.portCfgEnable p).key who v (fun _ => true))

/-- RXR_RELEASE_SET: the oldest frame of a receive ring is released (R155). -/
def execRxrReleaseSet (who : Role) (p : Nat) (v : Val) (s : State) : Done :=
  .next (s.setAs .rxrRelease (Reg.rxrReleaseSeq p).key who v (fun _ => true))

/-- TXQ_SEND_SET: a frame or a segmented send joins a queue (R141, R150). -/
def execTxqSendSet (who : Role) (p q : Nat) (v : Val) (s : State) : Done :=
  .next (s.setAs .txqSend (Reg.txqSendSegSize p q).key who v (fun _ => true))

/-- STREAM_RX_ENABLE: RX_CTRL with ENABLE 1 (R189 to R191). -/
def execStreamRxEnable (who : Role) (c : Nat) (v : Val) (s : State) : Done :=
  .next (s.setAs .rxCtrl (Reg.rxCtrlEnable c).key who v (fun n => bit n 0))

/-- STREAM_RX_DISABLE: RX_CTRL with ENABLE 0 (R191). -/
def execStreamRxDisable (who : Role) (c : Nat) (v : Val) (s : State) : Done :=
  .next (s.setAs .rxCtrl (Reg.rxCtrlEnable c).key who v (fun n => !bit n 0))

/-- STREAM_TX_ENABLE: TX_CTRL with ENABLE 1 (R189, R190, R192). -/
def execStreamTxEnable (who : Role) (c : Nat) (v : Val) (s : State) : Done :=
  .next (s.setAs .txCtrl (Reg.txCtrlEnable c).key who v (fun n => bit n 0))

/-- STREAM_TX_DISABLE: TX_CTRL with ENABLE 0 (R192). -/
def execStreamTxDisable (who : Role) (c : Nat) (v : Val) (s : State) : Done :=
  .next (s.setAs .txCtrl (Reg.txCtrlEnable c).key who v (fun n => !bit n 0))

/-- TDM_SIDE_ENABLE: SIDE_CTRL with ENABLE 1 (R216, R217). -/
def execTdmSideEnable (who : Role) (p b : Nat) (v : Val) (s : State) : Done :=
  .next (s.setAs .sideCtrl (Reg.sideCtrlEnable p b).key who v (fun n => bit n 0))

/-- TDM_SIDE_DISABLE: SIDE_CTRL with ENABLE 0 (R216, R219). -/
def execTdmSideDisable (who : Role) (p b : Nat) (v : Val) (s : State) : Done :=
  .next (s.setAs .sideCtrl (Reg.sideCtrlEnable p b).key who v (fun n => !bit n 0))

/-- MASK_COMMIT: the shadow slot mask is committed (R212). -/
def execMaskCommit (who : Role) (p b : Nat) (v : Val) (s : State) : Done :=
  .next (s.setAs .maskCommit (Reg.maskCommitCmd p b).key who v (fun _ => true))

/-- ASRC_ENABLE: ASRC_CFG with ENABLE 1 (R229 to R233). -/
def execAsrcEnable (who : Role) (c : Nat) (v : Val) (s : State) : Done :=
  .next (s.setAs .asrcCfg (Reg.asrcCfgEnable c).key who v (fun n => bit n 0))

/-- ASRC_DISABLE: ASRC_CFG with ENABLE 0 (R233). -/
def execAsrcDisable (who : Role) (c : Nat) (v : Val) (s : State) : Done :=
  .next (s.setAs .asrcCfg (Reg.asrcCfgEnable c).key who v (fun n => !bit n 0))

/-- GAIN_SET: one crosspoint of a shadow bank (R249). -/
def execGainSet (who : Role) (x : Nat) (v : Val) (s : State) : Done :=
  .next (s.setAs .gain (Reg.gainG x).key who v (fun _ => true))

/-- TILE_SHADOW_SET: a whole shadow bank (R249). -/
def execTileShadowSet (who : Role) (t : Nat) (v : Val) (s : State) : Done :=
  .next (s.setAs .tileShadow (Reg.tileShadowImage t).key who v (fun _ => true))

/-- TILE_COMMIT: TILE_CMD 1 (R250). -/
def execTileCommit (who : Role) (t : Nat) (v : Val) (s : State) : Done :=
  .next (s.setAs .tileCmd (Reg.tileCmdOp t).key who v (fun n => field n 0 2 == 1))

/-- TILE_REVERT: TILE_CMD 2 (R249). -/
def execTileRevert (who : Role) (t : Nat) (v : Val) (s : State) : Done :=
  .next (s.setAs .tileCmd (Reg.tileCmdOp t).key who v (fun n => field n 0 2 == 2))

/-- HALL_COMMIT: every READY tile with DIRTY 1 is committed (R250). -/
def execHallCommit (who : Role) (v : Val) (s : State) : Done :=
  .next (s.setAs .hallCommit Reg.hallCommitFade.key who v (fun _ => true))

/-- HALL_CFG_SET: the Hall's domain and the scrubber (R258). -/
def execHallCfgSet (who : Role) (v : Val) (s : State) : Done :=
  .next (s.setAs .hallCfg Reg.hallCfgDomainValid.key who v (fun _ => true))

/-- ROOM_ENABLE: ROOM_CTRL with ENABLE 1 (R291, R294). -/
def execRoomEnable (who : Role) (r : Nat) (v : Val) (s : State) : Done :=
  .next (s.setAs .roomCtrl (Reg.roomCtrlEnable r).key who v (fun n => bit n 0))

/-- ROOM_DISABLE: ROOM_CTRL with ENABLE 0 (R291, R293). -/
def execRoomDisable (who : Role) (r : Nat) (v : Val) (s : State) : Done :=
  .next (s.setAs .roomCtrl (Reg.roomCtrlEnable r).key who v (fun n => !bit n 0))

/-- ROOM_LOAD_SET: words for a room's memory (R295, R296). -/
def execRoomLoadSet (who : Role) (r : Nat) (v : Val) (s : State) : Done :=
  .next (s.setAs .roomLoad (Reg.roomLoadSpace r).key who v (fun _ => true))

/-- ROOM_CMD_CLEAR: ROOM_CMD 1 (R298). -/
def execRoomCmdClear (who : Role) (r : Nat) (v : Val) (s : State) : Done :=
  .next (s.setAs .roomCmd (Reg.roomCmdCmd r).key who v (fun n => n == 1))

/-- ROOM_MBOX_IN_SET: a word for a room's mailbox (R286). -/
def execRoomMboxInSet (who : Role) (r : Nat) (v : Val) (s : State) : Done :=
  .next (s.setAs .roomMboxIn (Reg.roomMboxInWord r).key who v (fun _ => true))

/-- GUEST_CMD_REJOIN: GUEST_CMD 1 (R344). -/
def execGuestCmdRejoin (who : Role) (v : Val) (s : State) : Done :=
  .next (s.setAs .guestCmd Reg.guestCmdCmd.key who v (fun n => field n 0 4 == 1))

/-- GUEST_CMD_SELFTEST: GUEST_CMD 2 (R344). -/
def execGuestCmdSelftest (who : Role) (v : Val) (s : State) : Done :=
  .next (s.setAs .guestCmd Reg.guestCmdCmd.key who v (fun n => field n 0 4 == 2))

/-- ROOM_GUARD_SET: a room's guarding (R328). -/
def execRoomGuardSet (who : Role) (r : Nat) (v : Val) (s : State) : Done :=
  .next (s.setAs .roomGuard (Reg.roomGuardGuard r).key who v (fun _ => true))

/-- MON_CFG_SET: the temperature levels (R342). -/
def execMonCfgSet (who : Role) (v : Val) (s : State) : Done :=
  .next (s.setAs .monCfg Reg.monCfgWarn.key who v (fun _ => true))

/-- CELLAR_PART_SET: the SRAM's regions (R348). -/
def execCellarPartSet (who : Role) (v : Val) (s : State) : Done :=
  .next (s.setAs .cellarPart Reg.cellarPartJb.key who v (fun _ => true))

/-- DLY_ENABLE: DLY_CFG with ENABLE 1 (R352). -/
def execDlyEnable (who : Role) (n : Nat) (v : Val) (s : State) : Done :=
  .next (s.setAs .dlyCfg (Reg.dlyCfgEnable n).key who v (fun v => bit v 0))

/-- DLY_DISABLE: DLY_CFG with ENABLE 0 (R352). -/
def execDlyDisable (who : Role) (n : Nat) (v : Val) (s : State) : Done :=
  .next (s.setAs .dlyCfg (Reg.dlyCfgEnable n).key who v (fun v => !bit v 0))

/-- DLY_TIME_SET: a line's delay (R353). -/
def execDlyTimeSet (who : Role) (n : Nat) (v : Val) (s : State) : Done :=
  .next (s.setAs .dlyTime (Reg.dlyTimeDelay n).key who v (fun _ => true))

/-- REC_MODE_RECORD: REC_CFG with MODE 1 (R355). -/
def execRecModeRecord (who : Role) (v : Val) (s : State) : Done :=
  .next (s.setAs .recCfg Reg.recCfgMode.key who v (fun n => field n 0 2 == 1))

/-- REC_MODE_HOLD: REC_CFG with MODE 2 (R356). -/
def execRecModeHold (who : Role) (v : Val) (s : State) : Done :=
  .next (s.setAs .recCfg Reg.recCfgMode.key who v (fun n => field n 0 2 == 2))

/-- REC_MODE_OFF: REC_CFG with MODE 0 (R355). -/
def execRecModeOff (who : Role) (v : Val) (s : State) : Done :=
  .next (s.setAs .recCfg Reg.recCfgMode.key who v (fun n => field n 0 2 == 0))

/-- DDR_ENABLE: DDR_CFG with ENABLE 1 (R358). -/
def execDdrEnable (who : Role) (v : Val) (s : State) : Done :=
  .next (s.setAs .ddrCfg Reg.ddrCfgEnable.key who v (fun n => bit n 0))

/-- DDR_DISABLE: DDR_CFG with ENABLE 0 (R359). -/
def execDdrDisable (who : Role) (v : Val) (s : State) : Done :=
  .next (s.setAs .ddrCfg Reg.ddrCfgEnable.key who v (fun n => !bit n 0))

/-- KDP_CFG_SET: what the engine listens to and offers (R398). -/
def execKdpCfgSet (who : Role) (v : Val) (s : State) : Done :=
  .next (s.setAs .kdpCfg Reg.kdpCfgListenM.key who v (fun _ => true))

/-- KEY_SET: a key slot's key (R399). -/
def execKeySet (who : Role) (k : Nat) (v : Val) (s : State) : Done :=
  .next (s.setAs .key (Reg.key k).key who v (fun _ => true))

/-- KEY_CFG_SET: a key slot's role (R399). -/
def execKeyCfgSet (who : Role) (k : Nat) (v : Val) (s : State) : Done :=
  .next (s.setAs .keyCfg (Reg.keyCfgRole k).key who v (fun _ => true))

/-- SESSION_CLOSE: a network session is closed (R380). -/
def execSessionClose (who : Role) (ss : Nat) (v : Val) (s : State) : Done :=
  .next (s.setAs .sessionClose (Reg.sessionCloseCmd ss).key who v (fun _ => true))

/-- SAVE_CMD: a save starts (R396). -/
def execSaveCmd (who : Role) (v : Val) (s : State) : Done :=
  .next (s.setAs .saveCmd Reg.saveCmdOp.key who v (fun _ => true))

/-- LB_CODE_FILTER_SET: a code's threshold (R424). -/
def execLbCodeFilterSet (who : Role) (f : Nat) (v : Val) (s : State) : Done :=
  .next (s.setAs .lbCodeFilter (Reg.lbCodeFilterCode f).key who v (fun _ => true))

/-- LO_CFG_SET: the clocks start to lock (R434). -/
def execLoCfgSet (who : Role) (v : Val) (s : State) : Done :=
  .next (s.setAs .loCfg Reg.loCfgLoFreq.key who v (fun _ => true))

/-- TDM_LOOP_SET: a TDM port's loopback (R445). -/
def execTdmLoopSet (who : Role) (p : Nat) (v : Val) (s : State) : Done :=
  .next (s.setAs .tdmLoop (Reg.tdmLoopMode p).key who v (fun _ => true))

/-- PORT_LOOP_SET: a network port's loopback (R447). -/
def execPortLoopSet (who : Role) (p : Nat) (v : Val) (s : State) : Done :=
  .next (s.setAs .portLoop (Reg.portLoopMode p).key who v (fun _ => true))

/-- HEARTH_LOOP_SET: the Hearth's loopbacks (R448). -/
def execHearthLoopSet (who : Role) (v : Val) (s : State) : Done :=
  .next (s.setAs .hearthLoop Reg.hearthLoopLoop0.key who v (fun _ => true))

/-- DW_TEST_SET: a dumbwaiter self-compare starts (R449, R450). -/
def execDwTestSet (who : Role) (v : Val) (s : State) : Done :=
  .next (s.setAs .dwTest Reg.dwTestRoom.key who v (fun _ => true))

/-- DDR_TEST_START: DDR_TEST 1 (R451). -/
def execDdrTestStart (who : Role) (v : Val) (s : State) : Done :=
  .next (s.setAs .ddrTest Reg.ddrTestCmd.key who v (fun n => n == 1))

/-- DDR_TEST_ABORT: DDR_TEST 2 (R451). -/
def execDdrTestAbort (who : Role) (v : Val) (s : State) : Done :=
  .next (s.setAs .ddrTest Reg.ddrTestCmd.key who v (fun n => n == 2))

/-- HALL_TEST_SET: a Hall tile test starts (R452). -/
def execHallTestSet (who : Role) (v : Val) (s : State) : Done :=
  .next (s.setAs .hallTest Reg.hallTestFirst.key who v (fun _ => true))

/-- The entries with a row of their own. -/
def ownRow (e : Ent) : Bool :=
  [.asrcCfg, .cellarPart, .ddrCfg, .ddrTest, .dlyCfg, .dlyTime, .dwTest, .evtCfg, .gain, .guestCmd, .hallCfg,
    .hallCommit, .hallTest, .hearthCmd, .hearthCtrl, .hearthLoop, .hmWindow, .kdpCfg, .key, .keyCfg, .lbCmd,
    .lbCodeFilter, .loCfg, .maskCommit, .mdCtrl, .monCfg, .portCfg, .portLoop, .ptpBc, .ptpClockId, .ptpPortCfg,
    .recCfg, .refCfg, .refCmd, .roomCmd, .roomCtrl, .roomGuard, .roomLoad, .roomMboxIn, .rxCtrl, .rxrRelease,
    .saveCmd, .sessionClose, .sideCtrl, .sinkSource, .tdmLoop, .tileCmd, .tileShadow, .toneCtrl, .toneFreq,
    .ttCtrl, .tvSchedule, .tvSource, .txCtrl, .txqSend, .vidCeil, .vidFixed, .vidFloor, .vidMode].contains e

/-- REGISTER_WRITE: an entry without a row of its own (R364). -/
def execRegisterWrite (who : Role) (key : Nat) (v : Val) (s : State) : Done :=
  .next (match locate key with
    | some (d, _, _) => if ownRow d.ent then s else s.setAs d.ent key who v (fun _ => true)
    | none => s.setAs .siliconRev key who v (fun _ => true))

/-- VID_BOUNDS_SET: the floor, or the ceiling, of the VID code (R55). -/
def execVidBoundsSet (who : Role) (ceil : Bool) (v : Val) (s : State) : Done :=
  .next (if ceil then s.setAs .vidCeil Reg.vidCeilCode.key who v (fun _ => true)
    else s.setAs .vidFloor Reg.vidFloorCode.key who v (fun _ => true))

/-- LB_FLUSH: LB_CMD 1, while the producers of the items with codes `mid` are in the middle of them, and those of `last` lack only the
last word, which comes together with the flush (R419, R421). -/
def execLbFlush (who : Role) (v : Val) (mid last : List Nat) (s : State) : Done :=
  .next (let begun := mid.map (fun c => (c, true)) ++ last.map (fun c => (c, false))
    ((s.assembles (some begun)).setAs .lbCmd Reg.lbCmdCmd.key who v (fun _ => true)).assembles none)

/-- RC_ENTRY_GET: an entry with fields that a read clears (R367). -/
def execRcEntryGet (who : Role) (key : Nat) (s : State) : Done :=
  .next (s.getAs (fun d => d.fields.any (fun f => f.acc == .rc)) key who)

/-- EVT_CAPTURE_GET: the oldest capture of a pin is read and removed (R89). -/
def execEvtCaptureGet (who : Role) (i : Nat) (s : State) : Done :=
  .next (s.getAs (fun d => d.ent == .evtCapture) (Reg.evtCaptureT i).key who)

/-- ROOM_MBOX_OUT_GET: a room's word is read, and MBO_NEW clears (R286). -/
def execRoomMboxOutGet (who : Role) (r : Nat) (s : State) : Done :=
  .next (s.getAs (fun d => d.ent == .roomMboxOut) (Reg.roomMboxOutWord r).key who)

end Sys2Proof.Machine
end

