-- ==== Sys2Proof/Machine/Dispatch.lean ====
section
/-! DEFINITION. The meaning of every command: one arm per constructor of Instr, each one call of its own meaning. -/

namespace Sys2Proof.Machine

/-- The effect of a command on everything but the queue. -/
def exec (i : Instr) (s : State) : Host.Outcome State Fault Refusal :=
  match i with
  | .tickEdge d slack w => Sys2Proof.Machine.execTickEdge d slack w s
  | .tickDeadline d => Sys2Proof.Machine.execTickDeadline d s
  | .dlHoldoffEnd d cause => Sys2Proof.Machine.execDlHoldoffEnd d cause s
  | .sinkSourceSet who o v => Sys2Proof.Machine.execSinkSourceSet who o v s
  | .toneCtrlSet who g v => Sys2Proof.Machine.execToneCtrlSet who g v s
  | .toneFreqSet who g v => Sys2Proof.Machine.execToneFreqSet who g v s
  | .registerWrite who key v => Sys2Proof.Machine.execRegisterWrite who key v s
  | .rcEntryGet who key => Sys2Proof.Machine.execRcEntryGet who key s
  | .hmWindowEnd d => Sys2Proof.Machine.execHmWindowEnd d s
  | .vidIdleLower => Sys2Proof.Machine.execVidIdleLower s
  | .vidSettleEnd => Sys2Proof.Machine.execVidSettleEnd s
  | .vidModeSet who v => Sys2Proof.Machine.execVidModeSet who v s
  | .vidFixedSet who v => Sys2Proof.Machine.execVidFixedSet who v s
  | .vidBoundsSet who ceil v => Sys2Proof.Machine.execVidBoundsSet who ceil v s
  | .hmWindowSet who v => Sys2Proof.Machine.execHmWindowSet who v s
  | .pwrGoodChange high => Sys2Proof.Machine.execPwrGoodChange high s
  | .pwrGoodLost => Sys2Proof.Machine.execPwrGoodLost s
  | .pwrGoodResume => Sys2Proof.Machine.execPwrGoodResume s
  | .tvScheduleSet who v x => Sys2Proof.Machine.execTvScheduleSet who v x s
  | .tvScheduleCancel who v x => Sys2Proof.Machine.execTvScheduleCancel who v x s
  | .tvScheduleApply v => Sys2Proof.Machine.execTvScheduleApply v s
  | .tvSourceSet who v x => Sys2Proof.Machine.execTvSourceSet who v x s
  | .ptpSyncRx p m q => Sys2Proof.Machine.execPtpSyncRx p m q s
  | .ptpFollowUpRx p m => Sys2Proof.Machine.execPtpFollowUpRx p m s
  | .ptpDelayReqRx p m q => Sys2Proof.Machine.execPtpDelayReqRx p m q s
  | .ptpDelayRespRx p m => Sys2Proof.Machine.execPtpDelayRespRx p m s
  | .ptpPdelayReqRx p m q => Sys2Proof.Machine.execPtpPdelayReqRx p m q s
  | .ptpPdelayRespRx p m q => Sys2Proof.Machine.execPtpPdelayRespRx p m q s
  | .ptpPdelayRespFollowUpRx p m => Sys2Proof.Machine.execPtpPdelayRespFollowUpRx p m s
  | .ptpAnnounceRx p m => Sys2Proof.Machine.execPtpAnnounceRx p m s
  | .ptpSyncInterval p => Sys2Proof.Machine.execPtpSyncInterval p s
  | .ptpAnnounceInterval p => Sys2Proof.Machine.execPtpAnnounceInterval p s
  | .ptpDelayReqInterval p => Sys2Proof.Machine.execPtpDelayReqInterval p s
  | .announceReceiptTimeout p => Sys2Proof.Machine.execAnnounceReceiptTimeout p s
  | .syncReceiptTimeout p => Sys2Proof.Machine.execSyncReceiptTimeout p s
  | .ptpPortCfgSet who p v => Sys2Proof.Machine.execPtpPortCfgSet who p v s
  | .ptpClockIdSet who p v => Sys2Proof.Machine.execPtpClockIdSet who p v s
  | .ptpBcSet who v => Sys2Proof.Machine.execPtpBcSet who v s
  | .ttCtrlSet who tt v => Sys2Proof.Machine.execTtCtrlSet who tt v s
  | .triggerFire tt => Sys2Proof.Machine.execTriggerFire tt s
  | .trigOutPulseEnd o => Sys2Proof.Machine.execTrigOutPulseEnd o s
  | .evtInEdge pin rising short q => Sys2Proof.Machine.execEvtInEdge pin rising short q s
  | .evtCaptureGet who pin => Sys2Proof.Machine.execEvtCaptureGet who pin s
  | .evtCfgSet who pin v => Sys2Proof.Machine.execEvtCfgSet who pin v s
  | .refCfgSet who c v => Sys2Proof.Machine.execRefCfgSet who c v s
  | .refNoSignal c => Sys2Proof.Machine.execRefNoSignal c s
  | .refMonitorSecond meas => Sys2Proof.Machine.execRefMonitorSecond meas s
  | .refFastCheck meas => Sys2Proof.Machine.execRefFastCheck meas s
  | .refQualExpiry c => Sys2Proof.Machine.execRefQualExpiry c s
  | .refWtrExpiry c => Sys2Proof.Machine.execRefWtrExpiry c s
  | .refCmdEndWtr who c v => Sys2Proof.Machine.execRefCmdEndWtr who c v s
  | .refCmdClearFailed who c v => Sys2Proof.Machine.execRefCmdClearFailed who c v s
  | .esmcPduRx p f => Sys2Proof.Machine.execEsmcPduRx p f s
  | .esmcTimeout p => Sys2Proof.Machine.execEsmcTimeout p s
  | .selModeSet who v => Sys2Proof.Machine.execSelModeSet who v s
  | .manualRefSet who v => Sys2Proof.Machine.execManualRefSet who v s
  | .manWaitExpiry => Sys2Proof.Machine.execManWaitExpiry s
  | .dpllStageEnd => Sys2Proof.Machine.execDpllStageEnd s
  | .histRecordSecond freq => Sys2Proof.Machine.execHistRecordSecond freq s
  | .hoSpecExpiry => Sys2Proof.Machine.execHoSpecExpiry s
  | .hearthCmdClearHistory who v => Sys2Proof.Machine.execHearthCmdClearHistory who v s
  | .outSlewEnd o => Sys2Proof.Machine.execOutSlewEnd o s
  | .hearthViewUpdate => Sys2Proof.Machine.execHearthViewUpdate s
  | .mdCtrlSet who d v => Sys2Proof.Machine.execMdCtrlSet who d v s
  | .portCfgSet who p v => Sys2Proof.Machine.execPortCfgSet who p v s
  | .linkUp p => Sys2Proof.Machine.execLinkUp p s
  | .linkDown p cause => Sys2Proof.Machine.execLinkDown p cause s
  | .mInbandStatus up speed full => Sys2Proof.Machine.execMInbandStatus up speed full s
  | .frameRx p f => Sys2Proof.Machine.execFrameRx p f s
  | .ringDropWindowEnd p => Sys2Proof.Machine.execRingDropWindowEnd p s
  | .rxrReleaseSet who p v => Sys2Proof.Machine.execRxrReleaseSet who p v s
  | .txqSendSet who p q v => Sys2Proof.Machine.execTxqSendSet who p q v s
  | .frameTxEnd p q => Sys2Proof.Machine.execFrameTxEnd p q s
  | .hdCollision bits => Sys2Proof.Machine.execHdCollision bits s
  | .hdBackoffEnd => Sys2Proof.Machine.execHdBackoffEnd s
  | .hdCarrierIdle deferred => Sys2Proof.Machine.execHdCarrierIdle deferred s
  | .pauseExpiry p c => Sys2Proof.Machine.execPauseExpiry p c s
  | .pauseWdTrip p c => Sys2Proof.Machine.execPauseWdTrip p c s
  | .pauseWdHoldEnd p c => Sys2Proof.Machine.execPauseWdHoldEnd p c s
  | .streamRxEnable who c v => Sys2Proof.Machine.execStreamRxEnable who c v s
  | .streamRxDisable who c v => Sys2Proof.Machine.execStreamRxDisable who c v s
  | .streamTxEnable who c v => Sys2Proof.Machine.execStreamTxEnable who c v s
  | .streamTxDisable who c v => Sys2Proof.Machine.execStreamTxDisable who c v s
  | .streamPathTimeout c path => Sys2Proof.Machine.execStreamPathTimeout c path s
  | .streamHoldExpiry isTx c => Sys2Proof.Machine.execStreamHoldExpiry isTx c s
  | .naHoldExpiry c k => Sys2Proof.Machine.execNaHoldExpiry c k s
  | .streamStateWindowEnd c => Sys2Proof.Machine.execStreamStateWindowEnd c s
  | .tdmSideEnable who p b v => Sys2Proof.Machine.execTdmSideEnable who p b v s
  | .tdmSideDisable who p b v => Sys2Proof.Machine.execTdmSideDisable who p b v s
  | .maskCommit who p b v => Sys2Proof.Machine.execMaskCommit who p b v s
  | .tdmFrameStart p b count quarter bclks lane0 lane1 late => Sys2Proof.Machine.execTdmFrameStart p b count quarter bclks lane0 lane1 late s
  | .tdmSlaveLock p b => Sys2Proof.Machine.execTdmSlaveLock p b s
  | .tdmSlaveLockLoss p b silent => Sys2Proof.Machine.execTdmSlaveLockLoss p b silent s
  | .tdmLeadEnd p b => Sys2Proof.Machine.execTdmLeadEnd p b s
  | .tdmTailEnd p b => Sys2Proof.Machine.execTdmTailEnd p b s
  | .tdmSlipWindowEnd p b kind => Sys2Proof.Machine.execTdmSlipWindowEnd p b kind s
  | .asrcEnable who c v => Sys2Proof.Machine.execAsrcEnable who c v s
  | .asrcDisable who c v => Sys2Proof.Machine.execAsrcDisable who c v s
  | .asrcAcquireDone c ratio phi => Sys2Proof.Machine.execAsrcAcquireDone c ratio phi s
  | .asrcNarrow c => Sys2Proof.Machine.execAsrcNarrow c s
  | .asrcLock c => Sys2Proof.Machine.execAsrcLock c s
  | .asrcEdgeTimeout c out => Sys2Proof.Machine.execAsrcEdgeTimeout c out s
  | .asrcEventWindowEnd c => Sys2Proof.Machine.execAsrcEventWindowEnd c s
  | .gainSet who x v => Sys2Proof.Machine.execGainSet who x v s
  | .tileShadowSet who t v => Sys2Proof.Machine.execTileShadowSet who t v s
  | .tileCommit who t v => Sys2Proof.Machine.execTileCommit who t v s
  | .tileRevert who t v => Sys2Proof.Machine.execTileRevert who t v s
  | .hallCommit who v => Sys2Proof.Machine.execHallCommit who v s
  | .hallCfgSet who v => Sys2Proof.Machine.execHallCfgSet who v s
  | .tileCopyDone t damage => Sys2Proof.Machine.execTileCopyDone t damage s
  | .hallCsumWindowEnd t => Sys2Proof.Machine.execHallCsumWindowEnd t s
  | .hallSatWindowEnd => Sys2Proof.Machine.execHallSatWindowEnd s
  | .roomEnable who r v => Sys2Proof.Machine.execRoomEnable who r v s
  | .roomDisable who r v => Sys2Proof.Machine.execRoomDisable who r v s
  | .roomFault r => Sys2Proof.Machine.execRoomFault r s
  | .roomLoadSet who r v => Sys2Proof.Machine.execRoomLoadSet who r v s
  | .roomLoadDeferredWrite r => Sys2Proof.Machine.execRoomLoadDeferredWrite r s
  | .roomCmdClear who r v => Sys2Proof.Machine.execRoomCmdClear who r v s
  | .roomMboxInSet who r v => Sys2Proof.Machine.execRoomMboxInSet who r v s
  | .roomMboxOutGet who r => Sys2Proof.Machine.execRoomMboxOutGet who r s
  | .interruptEntry r => Sys2Proof.Machine.execInterruptEntry r s
  | .nop r => Sys2Proof.Machine.execNop r s
  | .bra r => Sys2Proof.Machine.execBra r s
  | .call r => Sys2Proof.Machine.execCall r s
  | .ret r => Sys2Proof.Machine.execRet r s
  | .rti r => Sys2Proof.Machine.execRti r s
  | .dbnz r => Sys2Proof.Machine.execDbnz r s
  | .rep r => Sys2Proof.Machine.execRep r s
  | .endBlock r w => Sys2Proof.Machine.execEndBlock r w s
  | .swi r => Sys2Proof.Machine.execSwi r s
  | .parallelMove r => Sys2Proof.Machine.execParallelMove r s
  | .longMove r => Sys2Proof.Machine.execLongMove r s
  | .ldi r => Sys2Proof.Machine.execLdi r s
  | .move r => Sys2Proof.Machine.execMove r s
  | .mpy r => Sys2Proof.Machine.execMpy r s
  | .mpyn r => Sys2Proof.Machine.execMpyn r s
  | .mac r => Sys2Proof.Machine.execMac r s
  | .macn r => Sys2Proof.Machine.execMacn r s
  | .mpyi r => Sys2Proof.Machine.execMpyi r s
  | .lda r => Sys2Proof.Machine.execLda r s
  | .cpa r => Sys2Proof.Machine.execCpa r s
  | .add r => Sys2Proof.Machine.execAdd r s
  | .sub r => Sys2Proof.Machine.execSub r s
  | .adda r => Sys2Proof.Machine.execAdda r s
  | .suba r => Sys2Proof.Machine.execSuba r s
  | .clr r => Sys2Proof.Machine.execClr r s
  | .neg r => Sys2Proof.Machine.execNeg r s
  | .absAcc r => Sys2Proof.Machine.execAbsAcc r s
  | .maxAcc r => Sys2Proof.Machine.execMaxAcc r s
  | .minAcc r => Sys2Proof.Machine.execMinAcc r s
  | .cmp r => Sys2Proof.Machine.execCmp r s
  | .tst r => Sys2Proof.Machine.execTst r s
  | .sat r => Sys2Proof.Machine.execSat r s
  | .asl r => Sys2Proof.Machine.execAsl r s
  | .asr r => Sys2Proof.Machine.execAsr r s
  | .ash r => Sys2Proof.Machine.execAsh r s
  | .ashr r => Sys2Proof.Machine.execAshr r s
  | .norm r => Sys2Proof.Machine.execNorm r s
  | .expAcc r => Sys2Proof.Machine.execExpAcc r s
  | .expReg r => Sys2Proof.Machine.execExpReg r s
  | .andAcc r => Sys2Proof.Machine.execAndAcc r s
  | .orAcc r => Sys2Proof.Machine.execOrAcc r s
  | .xorAcc r => Sys2Proof.Machine.execXorAcc r s
  | .illegalInstruction r => Sys2Proof.Machine.execIllegalInstruction r s
  | .parityError c space addr flip => Sys2Proof.Machine.execParityError c space addr flip s
  | .guestWarmupDone k => Sys2Proof.Machine.execGuestWarmupDone k s
  | .voteDone r agree => Sys2Proof.Machine.execVoteDone r agree s
  | .rotatePeriodExpiry => Sys2Proof.Machine.execRotatePeriodExpiry s
  | .selftestDone c pass => Sys2Proof.Machine.execSelftestDone c pass s
  | .snapshotPeriod r => Sys2Proof.Machine.execSnapshotPeriod r s
  | .snapshotDone r => Sys2Proof.Machine.execSnapshotDone r s
  | .coldRestoreDone r => Sys2Proof.Machine.execColdRestoreDone r s
  | .guestCmdRejoin who v => Sys2Proof.Machine.execGuestCmdRejoin who v s
  | .guestCmdSelftest who v => Sys2Proof.Machine.execGuestCmdSelftest who v s
  | .roomGuardSet who r v => Sys2Proof.Machine.execRoomGuardSet who r v s
  | .tempSample t => Sys2Proof.Machine.execTempSample t s
  | .monCfgSet who v => Sys2Proof.Machine.execMonCfgSet who v s
  | .supplySample c mv => Sys2Proof.Machine.execSupplySample c mv s
  | .supplyWindowEnd c => Sys2Proof.Machine.execSupplyWindowEnd c s
  | .cellarPartSet who v => Sys2Proof.Machine.execCellarPartSet who v s
  | .dlyEnable who n v => Sys2Proof.Machine.execDlyEnable who n v s
  | .dlyDisable who n v => Sys2Proof.Machine.execDlyDisable who n v s
  | .dlyTimeSet who n v => Sys2Proof.Machine.execDlyTimeSet who n v s
  | .recModeRecord who v => Sys2Proof.Machine.execRecModeRecord who v s
  | .recModeHold who v => Sys2Proof.Machine.execRecModeHold who v s
  | .recModeOff who v => Sys2Proof.Machine.execRecModeOff who v s
  | .recDone => Sys2Proof.Machine.execRecDone s
  | .ddrEnable who v => Sys2Proof.Machine.execDdrEnable who v s
  | .ddrDisable who v => Sys2Proof.Machine.execDdrDisable who v s
  | .ddrTrainingDone step => Sys2Proof.Machine.execDdrTrainingDone step s
  | .ddrMr4Poll mr4 => Sys2Proof.Machine.execDdrMr4Poll mr4 s
  | .kdpHelloOpen src msg => Sys2Proof.Machine.execKdpHelloOpen src msg s
  | .kdpHelloClose src msg => Sys2Proof.Machine.execKdpHelloClose src msg s
  | .kdpHelloKeepalive src msg => Sys2Proof.Machine.execKdpHelloKeepalive src msg s
  | .kdpAuth src msg => Sys2Proof.Machine.execKdpAuth src msg s
  | .kdpGet src msg => Sys2Proof.Machine.execKdpGet src msg s
  | .kdpGetbulk src msg => Sys2Proof.Machine.execKdpGetbulk src msg s
  | .kdpSet src msg => Sys2Proof.Machine.execKdpSet src msg s
  | .kdpSetbulk src msg => Sys2Proof.Machine.execKdpSetbulk src msg s
  | .kdpSetStage src msg => Sys2Proof.Machine.execKdpSetStage src msg s
  | .kdpCommitBegin src msg => Sys2Proof.Machine.execKdpCommitBegin src msg s
  | .kdpCommitApply src msg => Sys2Proof.Machine.execKdpCommitApply src msg s
  | .kdpCommitTimedApply src msg => Sys2Proof.Machine.execKdpCommitTimedApply src msg s
  | .kdpCommitDiscard src msg => Sys2Proof.Machine.execKdpCommitDiscard src msg s
  | .kdpCommitDiscardWaiting src msg => Sys2Proof.Machine.execKdpCommitDiscardWaiting src msg s
  | .commitTimedApplyDue ss => Sys2Proof.Machine.execCommitTimedApplyDue ss s
  | .commitGroupTimeout ss => Sys2Proof.Machine.execCommitGroupTimeout ss s
  | .kdpSubscribeList src msg => Sys2Proof.Machine.execKdpSubscribeList src msg s
  | .kdpSubscribeRange src msg => Sys2Proof.Machine.execKdpSubscribeRange src msg s
  | .kdpSubscribeRemove src msg => Sys2Proof.Machine.execKdpSubscribeRemove src msg s
  | .subscriptionPeriod ss id => Sys2Proof.Machine.execSubscriptionPeriod ss id s
  | .sessionIdleTimeout ss => Sys2Proof.Machine.execSessionIdleTimeout ss s
  | .sessionAuthTimeout ss => Sys2Proof.Machine.execSessionAuthTimeout ss s
  | .authLockoutEnd ip => Sys2Proof.Machine.execAuthLockoutEnd ip s
  | .kdpCfgSet who v => Sys2Proof.Machine.execKdpCfgSet who v s
  | .keySet who k v => Sys2Proof.Machine.execKeySet who k v s
  | .keyCfgSet who k v => Sys2Proof.Machine.execKeyCfgSet who k v s
  | .sessionClose who ss v => Sys2Proof.Machine.execSessionClose who ss v s
  | .saveCmd who v => Sys2Proof.Machine.execSaveCmd who v s
  | .saveDone cause => Sys2Proof.Machine.execSaveDone cause s
  | .bootLoad step => Sys2Proof.Machine.execBootLoad step s
  | .hpRequest flags arg data crc => Sys2Proof.Machine.execHpRequest flags arg data crc s
  | .hpReply flags arg data crc => Sys2Proof.Machine.execHpReply flags arg data crc s
  | .hpNotify flags arg data crc => Sys2Proof.Machine.execHpNotify flags arg data crc s
  | .hpNotifyRelease flags arg data crc => Sys2Proof.Machine.execHpNotifyRelease flags arg data crc s
  | .hpPop flags arg data crc => Sys2Proof.Machine.execHpPop flags arg data crc s
  | .hpRelease flags arg data crc => Sys2Proof.Machine.execHpRelease flags arg data crc s
  | .hpMark flags arg data crc => Sys2Proof.Machine.execHpMark flags arg data crc s
  | .hpRewind flags arg data crc => Sys2Proof.Machine.execHpRewind flags arg data crc s
  | .hpStatus flags arg data crc => Sys2Proof.Machine.execHpStatus flags arg data crc s
  | .hpEcho flags arg data crc => Sys2Proof.Machine.execHpEcho flags arg data crc s
  | .hpTransactionAbort => Sys2Proof.Machine.execHpTransactionAbort s
  | .lbFlush who v mid last => Sys2Proof.Machine.execLbFlush who v mid last s
  | .lbCodeFilterSet who f v => Sys2Proof.Machine.execLbCodeFilterSet who f v s
  | .resetAssert => Sys2Proof.Machine.execResetAssert s
  | .resetRelease straps volts => Sys2Proof.Machine.execResetRelease straps volts s
  | .loDetect edges => Sys2Proof.Machine.execLoDetect edges s
  | .bootRecordRead rec => Sys2Proof.Machine.execBootRecordRead rec s
  | .loCfgSet who v => Sys2Proof.Machine.execLoCfgSet who v s
  | .pllLock => Sys2Proof.Machine.execPllLock s
  | .pllLockTimeout => Sys2Proof.Machine.execPllLockTimeout s
  | .fabricInitDone => Sys2Proof.Machine.execFabricInitDone s
  | .loLost => Sys2Proof.Machine.execLoLost s
  | .productionSelftestStart => Sys2Proof.Machine.execProductionSelftestStart s
  | .productionSelftestDone cellar hallSram hallEngines asrc failed => Sys2Proof.Machine.execProductionSelftestDone cellar hallSram hallEngines asrc failed s
  | .tdmLoopSet who p v => Sys2Proof.Machine.execTdmLoopSet who p v s
  | .portLoopSet who p v => Sys2Proof.Machine.execPortLoopSet who p v s
  | .hearthLoopSet who v => Sys2Proof.Machine.execHearthLoopSet who v s
  | .dwTestSet who v => Sys2Proof.Machine.execDwTestSet who v s
  | .dwTestDone timeout => Sys2Proof.Machine.execDwTestDone timeout s
  | .ddrTestStart who v => Sys2Proof.Machine.execDdrTestStart who v s
  | .ddrTestAbort who v => Sys2Proof.Machine.execDdrTestAbort who v s
  | .ddrTestDone errors addr dq => Sys2Proof.Machine.execDdrTestDone errors addr dq s
  | .hallTestSet who v => Sys2Proof.Machine.execHallTestSet who v s
  | .hallTestDone => Sys2Proof.Machine.execHallTestDone s
  | .ppsOutSecond => Sys2Proof.Machine.execPpsOutSecond s
  | .ppsOutPulseEnd => Sys2Proof.Machine.execPpsOutPulseEnd s
  | .ptpQualificationTimeout p => Sys2Proof.Machine.execPtpQualificationTimeout p s
  | .authFailWindowEnd => Sys2Proof.Machine.execAuthFailWindowEnd s
  | .hpBadOpcode op flags arg data crc => Sys2Proof.Machine.execHpBadOpcode op flags arg data crc s
  | .hallTestTileDone fail => Sys2Proof.Machine.execHallTestTileDone fail s
  | .vddPllUp => Sys2Proof.Machine.execVddPllUp s

end Sys2Proof.Machine
end

