-- ==== Sys2Proof/Safety.lean ====
section
/-! DEFINITION. What counts as a sound state of the device, and the terms in which statements speak of commands: a command
completes, a SET is accepted, a GET is served. -/

namespace Sys2Proof.Machine

/-- The Letterbox stands as R411 to R418 have it: each bank holds at most 512 words; the draining bank stands in its read order
(R413); the cursor lies within it and the mark at or before the cursor (R416 to R418); and a filling bank with items has been
swapped where the draining one holds none (R413). -/
def Letterbox.ok (b : Letterbox) : Bool :=
  lbWords b.drain ≤ 512 && lbWords b.fill ≤ 512
    && decide (b.drain.Pairwise (fun x y => y.prio ≤ x.prio))
    && b.cursor ≤ b.drain.length && b.mark.all (· ≤ b.cursor)
    && (!b.drain.isEmpty || b.fill.isEmpty)

/-- A sound state: the dictionary's store is in its canonical form, no pair saying what an unlisted entry reads as, and the
Letterbox stands as its rules have it. -/
def State.inv (s : State) : Bool := Sparse.wf (resetOf s.fuse) s.regs && s.lb.ok

/-- The keys of the Letterbox's own counters, which posting an event counts in (R422, R425). -/
def lbKeys : List Nat :=
  [Reg.hpLbPosted.key, Reg.hpLbDropped.key, Reg.hpLbDisplaced.key, Reg.hpLbFiltered.key, Reg.hpLbSwaps.key,
    Reg.hpLbSwallowed.key]

/-- The keys of HEARTH_STATUS and of every REF_STATUS, which show what follows from the candidates (R94 to R109). -/
def refKeys : List Nat := Reg.hearthStatusState.key :: (List.range 10).map (fun c => (Reg.refStatusState c).key)

/-- The command completes: exec answers a next state, of which `Q` holds. -/
def Completes (c : Instr) (s : State) (Q : State → Prop) : Prop := ∃ t, exec c s = .next t ∧ Q t

/-- The item of a SET that writes `v` to the entry at `key`. -/
def itemOf (key : Nat) (v : Val) : Item := { key := key, ty := tyCode v.ty, raw := v.raw }

/-- The entry, the units and the number that a SET of `v` at `key` names. -/
def State.named (s : State) (key : Nat) (v : Val) : Option (Ent × Nat × Nat × Nat) :=
  (s.entryAt key).map (fun x => (x.1.ent, x.2.1, x.2.2, x.1.valueIn (itemOf key v)))

/-- A SET of `v` at `key` by `who` is accepted in `s`, and writes `n` to unit (`a`, `b`) of entry `e`: requests are served (R431),
no schedule waits to be applied at the present instant (R62), the part has the unit (R9), and every check of R369 passes. -/
structure State.Accepts (s : State) (who : Role) (key : Nat) (v : Val) (e : Ent) (a b n : Nat) : Prop where
  ready : s.on Reg.deviceStatusChipReady = true
  quiet : s.catchUp = s
  entry : s.named key v = some (e, a, b, n)
  judged : s.judge who (itemOf key v) = .ok

/-- A row that sets an entry: the command, the entry, its key, and the values that are of this row. -/
structure SetRow where
  cmd : Instr
  ent : Ent
  key : Nat
  mine : Nat → Bool

/-- The rows that set unit (`a`, `b`) of an entry to `v`, part 0. -/
def SetRows0 (s : State) (who : Role) (a b : Nat) (v : Val) (r : SetRow) : Prop := r ∈ [
  ⟨.sinkSourceSet who a v, .sinkSource, (Reg.sinkSourceSource a).key, fun _ => true⟩,
  ⟨.toneCtrlSet who a v, .toneCtrl, (Reg.toneCtrlMode a).key, fun _ => true⟩,
  ⟨.toneFreqSet who a v, .toneFreq, (Reg.toneFreqFreq a).key, fun _ => true⟩,
  ⟨.vidModeSet who v, .vidMode, Reg.vidMode.key, fun _ => true⟩,
  ⟨.vidFixedSet who v, .vidFixed, Reg.vidFixedCode.key, fun _ => true⟩,
  ⟨.hmWindowSet who v, .hmWindow, Reg.hmWindow.key, fun _ => true⟩,
  ⟨.tvScheduleSet who a v, .tvSchedule, (Reg.tvScheduleRcApply a).key, fun n => field n 112 2 != 0⟩,
  ⟨.tvScheduleCancel who a v, .tvSchedule, (Reg.tvScheduleRcApply a).key, fun n => field n 112 2 == 0⟩,
  ⟨.tvSourceSet who a v, .tvSource, (Reg.tvSource a).key, fun _ => true⟩,
  ⟨.ptpPortCfgSet who a v, .ptpPortCfg, (Reg.ptpPortCfgEnable a).key, fun _ => true⟩,
  ⟨.ptpClockIdSet who a v, .ptpClockId, (Reg.ptpClockIdClockId a).key, fun _ => true⟩,
  ⟨.ptpBcSet who v, .ptpBc, Reg.ptpBcBcEnable.key, fun _ => true⟩,
  ⟨.ttCtrlSet who a v, .ttCtrl, (Reg.ttCtrlArm a).key, fun _ => true⟩,
  ⟨.evtCfgSet who a v, .evtCfg, (Reg.evtCfgEdge a).key, fun _ => true⟩,
  ⟨.refCfgSet who a v, .refCfg, (Reg.refCfgEnable a).key, fun _ => true⟩,
  ⟨.refCmdEndWtr who a v, .refCmd, (Reg.refCmdCmd a).key, fun n => n == 1⟩,
  ⟨.refCmdClearFailed who a v, .refCmd, (Reg.refCmdCmd a).key, fun n => n == 2⟩,
  ⟨.selModeSet who v, .hearthCtrl, Reg.hearthCtrlSelMode.key, fun n => field n 0 3 != s.rd Reg.hearthCtrlSelMode⟩,
  ⟨.manualRefSet who v, .hearthCtrl, Reg.hearthCtrlSelMode.key, fun n => field n 0 3 == s.rd Reg.hearthCtrlSelMode⟩,
  ⟨.hearthCmdClearHistory who v, .hearthCmd, Reg.hearthCmdCmd.key, fun n => n == 1⟩,
  ⟨.mdCtrlSet who a v, .mdCtrl, (Reg.mdCtrlEnable a).key, fun _ => true⟩,
  ⟨.portCfgSet who a v, .portCfg, (Reg.portCfgEnable a).key, fun _ => true⟩,
  ⟨.rxrReleaseSet who a v, .rxrRelease, (Reg.rxrReleaseSeq a).key, fun _ => true⟩,
  ⟨.txqSendSet who a b v, .txqSend, (Reg.txqSendSegSize a b).key, fun _ => true⟩]

/-- The rows that set unit (`a`, `b`) of an entry to `v`, part 1. -/
def SetRows1 (who : Role) (a b : Nat) (v : Val) (r : SetRow) : Prop := r ∈ [
  ⟨.streamRxEnable who a v, .rxCtrl, (Reg.rxCtrlEnable a).key, fun n => bit n 0⟩,
  ⟨.streamRxDisable who a v, .rxCtrl, (Reg.rxCtrlEnable a).key, fun n => !bit n 0⟩,
  ⟨.streamTxEnable who a v, .txCtrl, (Reg.txCtrlEnable a).key, fun n => bit n 0⟩,
  ⟨.streamTxDisable who a v, .txCtrl, (Reg.txCtrlEnable a).key, fun n => !bit n 0⟩,
  ⟨.tdmSideEnable who a b v, .sideCtrl, (Reg.sideCtrlEnable a b).key, fun n => bit n 0⟩,
  ⟨.tdmSideDisable who a b v, .sideCtrl, (Reg.sideCtrlEnable a b).key, fun n => !bit n 0⟩,
  ⟨.maskCommit who a b v, .maskCommit, (Reg.maskCommitCmd a b).key, fun _ => true⟩,
  ⟨.asrcEnable who a v, .asrcCfg, (Reg.asrcCfgEnable a).key, fun n => bit n 0⟩,
  ⟨.asrcDisable who a v, .asrcCfg, (Reg.asrcCfgEnable a).key, fun n => !bit n 0⟩,
  ⟨.gainSet who a v, .gain, (Reg.gainG a).key, fun _ => true⟩,
  ⟨.tileShadowSet who a v, .tileShadow, (Reg.tileShadowImage a).key, fun _ => true⟩,
  ⟨.tileCommit who a v, .tileCmd, (Reg.tileCmdOp a).key, fun n => field n 0 2 == 1⟩,
  ⟨.tileRevert who a v, .tileCmd, (Reg.tileCmdOp a).key, fun n => field n 0 2 == 2⟩,
  ⟨.hallCommit who v, .hallCommit, Reg.hallCommitFade.key, fun _ => true⟩,
  ⟨.hallCfgSet who v, .hallCfg, Reg.hallCfgDomainValid.key, fun _ => true⟩,
  ⟨.roomEnable who a v, .roomCtrl, (Reg.roomCtrlEnable a).key, fun n => bit n 0⟩,
  ⟨.roomDisable who a v, .roomCtrl, (Reg.roomCtrlEnable a).key, fun n => !bit n 0⟩,
  ⟨.roomLoadSet who a v, .roomLoad, (Reg.roomLoadSpace a).key, fun _ => true⟩,
  ⟨.roomCmdClear who a v, .roomCmd, (Reg.roomCmdCmd a).key, fun n => n == 1⟩,
  ⟨.roomMboxInSet who a v, .roomMboxIn, (Reg.roomMboxInWord a).key, fun _ => true⟩,
  ⟨.guestCmdRejoin who v, .guestCmd, Reg.guestCmdCmd.key, fun n => field n 0 4 == 1⟩,
  ⟨.guestCmdSelftest who v, .guestCmd, Reg.guestCmdCmd.key, fun n => field n 0 4 == 2⟩,
  ⟨.roomGuardSet who a v, .roomGuard, (Reg.roomGuardGuard a).key, fun _ => true⟩,
  ⟨.monCfgSet who v, .monCfg, Reg.monCfgWarn.key, fun _ => true⟩]

/-- The rows that set unit (`a`, `b`) of an entry to `v`, part 2. -/
def SetRows2 (who : Role) (a : Nat) (v : Val) (r : SetRow) : Prop := r ∈ [
  ⟨.cellarPartSet who v, .cellarPart, Reg.cellarPartJb.key, fun _ => true⟩,
  ⟨.dlyEnable who a v, .dlyCfg, (Reg.dlyCfgEnable a).key, fun n => bit n 0⟩,
  ⟨.dlyDisable who a v, .dlyCfg, (Reg.dlyCfgEnable a).key, fun n => !bit n 0⟩,
  ⟨.dlyTimeSet who a v, .dlyTime, (Reg.dlyTimeDelay a).key, fun _ => true⟩,
  ⟨.recModeRecord who v, .recCfg, Reg.recCfgMode.key, fun n => field n 0 2 == 1⟩,
  ⟨.recModeHold who v, .recCfg, Reg.recCfgMode.key, fun n => field n 0 2 == 2⟩,
  ⟨.recModeOff who v, .recCfg, Reg.recCfgMode.key, fun n => field n 0 2 == 0⟩,
  ⟨.ddrEnable who v, .ddrCfg, Reg.ddrCfgEnable.key, fun n => bit n 0⟩,
  ⟨.ddrDisable who v, .ddrCfg, Reg.ddrCfgEnable.key, fun n => !bit n 0⟩,
  ⟨.kdpCfgSet who v, .kdpCfg, Reg.kdpCfgListenM.key, fun _ => true⟩,
  ⟨.keySet who a v, .key, (Reg.key a).key, fun _ => true⟩,
  ⟨.keyCfgSet who a v, .keyCfg, (Reg.keyCfgRole a).key, fun _ => true⟩,
  ⟨.sessionClose who a v, .sessionClose, (Reg.sessionCloseCmd a).key, fun _ => true⟩,
  ⟨.saveCmd who v, .saveCmd, Reg.saveCmdOp.key, fun _ => true⟩,
  ⟨.lbCodeFilterSet who a v, .lbCodeFilter, (Reg.lbCodeFilterCode a).key, fun _ => true⟩,
  ⟨.loCfgSet who v, .loCfg, Reg.loCfgLoFreq.key, fun _ => true⟩,
  ⟨.tdmLoopSet who a v, .tdmLoop, (Reg.tdmLoopMode a).key, fun _ => true⟩,
  ⟨.portLoopSet who a v, .portLoop, (Reg.portLoopMode a).key, fun _ => true⟩,
  ⟨.hearthLoopSet who v, .hearthLoop, Reg.hearthLoopLoop0.key, fun _ => true⟩,
  ⟨.dwTestSet who v, .dwTest, Reg.dwTestRoom.key, fun _ => true⟩,
  ⟨.ddrTestStart who v, .ddrTest, Reg.ddrTestCmd.key, fun n => n == 1⟩,
  ⟨.ddrTestAbort who v, .ddrTest, Reg.ddrTestCmd.key, fun n => n == 2⟩,
  ⟨.hallTestSet who v, .hallTest, Reg.hallTestFirst.key, fun _ => true⟩]

/-- The rows that set an entry of their choice: REGISTER_WRITE one that has no row of its own, VID_BOUNDS_SET the floor or the ceiling
(R55, R364). -/
def SetRows3 (who : Role) (v : Val) (r : SetRow) : Prop :=
  (∃ key e, ownRow e = false ∧ r = ⟨.registerWrite who key v, e, key, fun _ => true⟩)
  ∨ r ∈ [⟨.vidBoundsSet who true v, .vidCeil, Reg.vidCeilCode.key, fun _ => true⟩,
    ⟨.vidBoundsSet who false v, .vidFloor, Reg.vidFloorCode.key, fun _ => true⟩]

/-- The rows that set an entry, each by its unit (R364); LB_FLUSH, which names the items in assembly beside its entry, stands apart. -/
def SetRows (s : State) (who : Role) (a b : Nat) (v : Val) (r : SetRow) : Prop :=
  SetRows0 s who a b v r ∨ SetRows1 who a b v r ∨ SetRows2 who a v r ∨ SetRows3 who v r

/-- A GET of the entry at `key` by `who` is served in `s`, and reads unit (`a`, `b`) of the entry that `d` describes (R365, R367,
R431). -/
structure State.Reads (s : State) (who : Role) (key : Nat) (d : EntDesc) (a b : Nat) : Prop where
  ready : s.on Reg.deviceStatusChipReady = true
  quiet : s.catchUp = s
  entry : s.entryAt key = some (d, a, b)
  right : holds who d.rd = true

/-- The fields of the entry at a key, as the spec's table gives them. -/
def fieldsAt (key : Nat) : List FieldD := ((locate key).map (fun x => x.1.fields)).getD []

/-- The entry at `key` takes the RW and WO fields of `n` as sent (R365). -/
def State.takes (s : State) (key n : Nat) : State := s.put key (stored (fieldsAt key) (s.get key) n)

end Sys2Proof.Machine
end

