-- ==== Sys2Proof/Certificates/Slice0/Obligations.lean ====
section
/-! DEFINITION. The statements for the provers. -/

open Sys2Proof Sys2Proof.Machine

/-! The machine: the queue, reset, and what every command keeps. -/

/-- O1. A step runs the command at the front of the queue. -/
def Obligations.StepRunsFrontCommand : Prop :=
  ∀ (c : Instr) (rest : List Instr) (s : State),
    step { s with pending := c :: rest } = exec c { s with pending := rest }

/-- O2. With no command waiting and no request at the host port the device idles: nothing changes while the PLL is not locked;
RC counts one on while it is, and nothing else changes while no schedule waits. The model's choice (log entry 1). -/
def Obligations.EmptyQueueIdles : Prop :=
  ∀ s : State, s.pending = [] → s.host.request = none →
    (s.locked = false → step s = .next s)
    ∧ (s.locked = true → (∀ v < 4, (s.view v).sched = none) → step s = .next { s with rc := s.rc + 1 })

/-- O3. A sound state: the state after reset is one. -/
def Obligations.ResetIsSound : Prop := State.reset.inv = true

/-- O4. Every step keeps a sound state: the dictionary's store keeps its canonical form; each Letterbox bank keeps within 512 words
(R411), in its read order (R413), with its cursor and mark in their places (R416 to R418), and the filling bank is swapped whenever
the draining one is empty (R413). -/
def Obligations.StepKeepsSound : Prop :=
  ∀ s t : State, s.inv = true → step s = .next t → t.inv = true

/-- O5. Every command completes in every sound state, none touches the production data or the queue, and none but reset and the
lock of the PLL makes RC run back (R57). -/
def Obligations.CommandsCompleteAndRcRises : Prop :=
  ∀ (c : Instr) (s : State), s.inv = true →
    ∃ t, exec c s = .next t ∧ t.fuse = s.fuse ∧ t.pending = s.pending
      ∧ (c ≠ .resetAssert → c ≠ .pllLock → s.rc ≤ t.rc)

/-- O6. Every field of every entry that the part has reads at reset as its table gives it, but for the entries whose reset value
the spec gives by the unit or by the part's production data. RESET_N low returns every part of the device to its reset state, RC
included; fuses are not affected (R428). What the model keeps beside them is its own choice (log entry 40): the flash, outside the
device; the levels that others drive on its pins; the model's own counter of free values; the queue. -/
def Obligations.ResetReadsTheTables : Prop :=
    (∀ d ∈ entTable, ∀ a b, locate (d.keyOf a b) = some (d, a, b) →
      (∀ base, resetRule {} d.ent a b base = base) → ∀ f ∈ d.fields, 0 < f.w →
        State.reset.rd ⟨d.keyOf a b, f.lo, f.w⟩ = f.reset)
  ∧ (∀ s : State, exec .resetAssert s = .next { State.reset with
      fuse := s.fuse, flash := s.flash, free := s.free, pending := s.pending
      volt := { pgHigh := s.volt.pgHigh, driven := s.volt.driven } })

/-! The dictionary: what every SET and GET row does. -/

/-- O7. The rows whose entry is a setting that nothing but the work it steers looks at: an accepted SET stores its RW and WO fields
as sent, answers OK, and changes nothing else. REGISTER_WRITE does so for every entry without a row of its own, but for the eleven
that act when they are set. -/
def Obligations.SettingsAreStored : Prop :=
  ∀ (s : State) (who : Role) (a : Nat) (v : Val) (n key : Nat),
    (s.Accepts who (Reg.sinkSourceSource a).key v .sinkSource a 0 n →
      exec (.sinkSourceSet who a v) s = .next ((s.takes (Reg.sinkSourceSource a).key n).say .ok))
    ∧ (s.Accepts who (Reg.toneFreqFreq a).key v .toneFreq a 0 n →
      exec (.toneFreqSet who a v) s = .next ((s.takes (Reg.toneFreqFreq a).key n).say .ok))
    ∧ (s.Accepts who Reg.cellarPartJb.key v .cellarPart 0 0 n →
      exec (.cellarPartSet who v) s = .next ((s.takes Reg.cellarPartJb.key n).say .ok))
    ∧ (s.Accepts who (Reg.dlyTimeDelay a).key v .dlyTime a 0 n →
      exec (.dlyTimeSet who a v) s = .next ((s.takes (Reg.dlyTimeDelay a).key n).say .ok))
    ∧ (s.Accepts who (Reg.lbCodeFilterCode a).key v .lbCodeFilter a 0 n →
      exec (.lbCodeFilterSet who a v) s = .next ((s.takes (Reg.lbCodeFilterCode a).key n).say .ok))
    ∧ (s.Accepts who (Reg.tdmLoopMode a).key v .tdmLoop a 0 n →
      exec (.tdmLoopSet who a v) s = .next ((s.takes (Reg.tdmLoopMode a).key n).say .ok))
    ∧ (s.Accepts who (Reg.portLoopMode a).key v .portLoop a 0 n →
      exec (.portLoopSet who a v) s = .next ((s.takes (Reg.portLoopMode a).key n).say .ok))
    ∧ (∀ e b, s.Accepts who key v e a b n → ownRow e = false →
      e ∉ [.ptpLocalQuality, .trigOutCfg, .dpllCfg, .holdoverCfg, .wclkOutCfg, .ppsOutCfg, .mCfg, .frameCfg, .txqPfcClass, .rxTiming,
        .slackTarget] →
      exec (.registerWrite who key v) s = .next ((s.takes key n).say .ok))

/-- O8. An accepted SET of HEARTH_LOOP is stored, and the Hearth decides anew with what it reads (R105): a candidate that takes
the Hearth's own output is not eligible after it (R448); every other entry keeps its value but those the decision may change. The
entries that REGISTER_WRITE sets and that act at once, first part. PTP_LOCAL_QUALITY: a change runs the BMCA (R76) and one
decision on the candidates follows. TRIG_OUT_CFG: mode 0 leaves the pin inactive, mode 3 active, mode 1 lets a running pulse go
on, mode 2 keeps the level (R86; what a pulse and the level do at a change is log entry 45, DEDUCED). DPLL_CFG: every slewing
output has as far to go as before (R117). HOLDOVER_CFG: HIST_VALID says whether at least 10 records are in the span it now
selects, and HIST_FREQ is their mean but in HOLDOVER or with no record (R110). WCLK_OUT_CFG: an output whose setting changes is
low, without an edge, and slews no more; PPS_OUT_CFG: so is the output where it is disabled. The entries that REGISTER_WRITE sets
and that act at once, second part. M_CFG: port M disabled has its link down and no frame queued (R142); enabled with IN_BAND 0,
and running, its link is up with SPEED and DUPLEX as set (R147). FRAME_CFG: frames under way on the line go by the value before
(R134; log entry 42). TXQ_PFC_CLASS: PAUSED of PORT_STATUS tells whether a queue is now paused (R143, R158), and a queue that is
free to send may start. RX_TIMING: a change of P has a context that is not OFF re-timed at its next capture stage (R173, R178).
SLACK_TARGET: taken at once outside a settle interval; in one the loop goes on by the value before until it ends (R55; log entry
8, DEDUCED). -/
def Obligations.ActingWrites : Prop :=
    (∀ (s : State) (who : Role) (v : Val) (n : Nat), s.Accepts who Reg.hearthLoopLoop0.key v .hearthLoop 0 0 n →
      exec (.hearthLoopSet who v) s =
        .next ((s.together fun u => (u.takes Reg.hearthLoopLoop0.key n).settleRefs).say .ok)
      ∧ Completes (.hearthLoopSet who v) s fun t =>
        t.rd Reg.hearthLoopLoop0 = field n 0 1 ∧ t.rd Reg.hearthLoopLoop1 = field n 1 1
        ∧ (field n 0 1 = 1 → t.rd (Reg.refStatusEligible 4) = 0) ∧ (field n 1 1 = 1 → t.rd (Reg.refStatusEligible 5) = 0))
  ∧ (∀ (s u : State) (who : Role) (key a n : Nat) (v : Val) (b : Nat),
      u = s.takes key n →
      (s.Accepts who key v .ptpLocalQuality a b n →
        exec (.registerWrite who key v) s = .next ((s.together fun w =>
          (if s.get key = n then w.takes key n else (w.takes key n).bmca).settleRefs).say .ok))
      ∧ (s.Accepts who key v .trigOutCfg a b n → ∀ m, m = u.rd (Reg.trigOutCfgMode a) →
        exec (.registerWrite who key v) s = .next (State.say (
          if m = 0 then u.setOut a {} else if m = 3 then u.setOut a { active := true }
          else if m = 1 then (if (s.out a).pulse = true then u else u.setOut a {})
          else u.setOut a { s.out a with pulse := false }) .ok))
      ∧ (s.Accepts who key v .dpllCfg a b n →
        Completes (.registerWrite who key v) s fun t =>
          t.get key = u.get key ∧ t.rc = s.rc
          ∧ (∀ o < 3, (t.outSlew o).left t.slewMax (4 * t.rc) = (s.outSlew o).left s.slewMax (4 * s.rc))
          ∧ ∀ k, k ≠ key → k ≠ Reg.outSlewStatusTdm.key → (∀ p side, k ≠ (Reg.sideStatusSlewing p side).key) → k ∉ refKeys →
            t.get k = s.get k)
      ∧ (s.Accepts who key v .holdoverCfg a b n → ∀ l, l = u.histSpan →
        Completes (.registerWrite who key v) s fun t =>
          t.get key = u.get key ∧ t.rd Reg.hearthStatusHistValid = b2n (decide (10 ≤ l.length))
          ∧ t.rd Reg.histFreqFreq = (if s.rd Reg.hearthStatusState = 3 ∨ l = [] then s.rd Reg.histFreqFreq
              else ofInt 32 (l.sum / (l.length : Int)))
          ∧ ∀ k, k ≠ key → k ≠ Reg.histFreqFreq.key → k ∉ refKeys → t.get k = s.get k)
      ∧ (s.Accepts who key v .wclkOutCfg a b n →
        exec (.registerWrite who key v) s = .next (State.say (if s.get key = n then u else State.setOutSlew
          { u with hearth := { u.hearth with wclk := Sparse.put (fun _ => none) u.hearth.wclk a none } } a {}) .ok))
      ∧ (s.Accepts who key v .ppsOutCfg a b n →
        exec (.registerWrite who key v) s = .next (State.say (if u.on Reg.ppsOutCfgEnable = true then u else State.setOutSlew
          { u with hearth := { u.hearth with pps := none } } 2 {}) .ok)))
  ∧ (∀ (s u : State) (who : Role) (key a n : Nat) (v : Val) (b : Nat),
      u = s.takes key n →
      (s.Accepts who key v .mCfg a b n →
        exec (.registerWrite who key v) s = .next ((s.together fun w => (applyMCfg (w.takes key n) (s.get key)).settleRefs).say .ok)
        ∧ ∀ w, w = applyMCfg u (s.get key) →
          (u.portEnabled 2 = false → bit (s.get key) 0 = true → w.linkUp 2 = false ∧ (w.port 2).queues = [] ∧ (w.port 2).wire = none)
          ∧ (u.portRuns 2 = true → u.rd (Reg.portLoopMode 2) = 0 → u.on Reg.mCfgInBand = false →
            w.linkUp 2 = true ∧ w.rd (Reg.portStatusSpeed 2) = u.rd Reg.mCfgSpeed
            ∧ w.on (Reg.portStatusFullDuplex 2) = u.on Reg.mCfgDuplex))
      ∧ (s.Accepts who key v .frameCfg a b n →
        exec (.registerWrite who key v) s = .next (State.say (if s.get key = n then u else u.setPort a { u.port a with
          frameCfgs := (s.get key, s.rc) :: (u.port a).frameCfgs.filter (fun y => s.rc ≤ y.2 + 5000000) }) .ok))
      ∧ (s.Accepts who key v .txqPfcClass a b n →
        exec (.registerWrite who key v) s = .next (((u.pauseStatus a).txStart a).say .ok)
        ∧ (u.pauseStatus a).on (Reg.portStatusPaused a) = (List.range (queueCount a)).any (u.queuePaused a))
      ∧ (s.Accepts who key v .rxTiming a b n →
        exec (.registerWrite who key v) s = .next (State.say (
          if u.rxState a = 0 ∨ field (s.get key) 0 13 = field n 0 13 then u
          else if u.rxState a = 1 then u.setRx a { u.rx a with retime := true }
          else u.setRx a { u.rx a with
            retime := true
            next := ((u.pair (u.rd (Reg.rxCtrlDomain a)) (u.rd (Reg.rxCtrlView a))).e : Int) + 1 - field n 0 13
            bytes := jbBytes (u.rd (Reg.rxCtrlChannels a)) (field n 0 13) (u.rxS a) }) .ok))
      ∧ (s.Accepts who key v .slackTarget a b n →
        exec (.registerWrite who key v) s = .next (State.say (
          if s.get key = n ∨ u.on Reg.vidStatusSettling = false then u
          else { u with volt := { u.volt with kept := some (u.vidKept .slackTarget (s.get key)) } }) .ok)
        ∧ (s.get key ≠ n → u.on Reg.vidStatusSettling = true → s.volt.kept = none →
          ∀ t, exec (.registerWrite who key v) s = .next t → t.vidSet = s.vidSet)))

/-- O9. What an accepted SET stores: each RW or WO field of its entry reads as sent, and every other field as it stood (R365).
What the entry's own effect does after that is stated with its rows. -/
def Obligations.StoredFieldsReadAsSent : Prop :=
  ∀ (s : State) (key n a b : Nat) (d : EntDesc), locate key = some (d, a, b) → ∀ f ∈ d.fields, 0 < f.w →
    (s.takes key n).rd ⟨key, f.lo, f.w⟩ =
      if f.acc = .rw ∨ f.acc = .wo then field n f.lo f.w else s.rd ⟨key, f.lo, f.w⟩

/-- O10. A SET that a check of R369 turns away changes nothing, whichever row it is, REGISTER_WRITE, VID_BOUNDS_SET and LB_FLUSH
among them: the answer is its status. (A send turned away is counted, TX_REFUSED: TXQ_SEND_SET has a statement of its own.) So
does an LB_FLUSH that a check turns away, whatever stands in assembly (R369, R419). A SET that names an entry the part has not is
answered ABSENT, and changes nothing (R9, R369), by REGISTER_WRITE or by a row of its own. -/
def Obligations.RefusedSetChangesNothing : Prop :=
    (∀ (s : State) (who : Role) (a b : Nat) (v : Val) (r : SetRow), SetRows s who a b v r →
      s.on Reg.deviceStatusChipReady = true → s.catchUp = s →
      ∀ x y n, s.named r.key v = some (r.ent, x, y, n) → r.mine n = true → r.ent ≠ .txqSend →
        s.judge who (itemOf r.key v) ≠ .ok → exec r.cmd s = .next (s.say (s.judge who (itemOf r.key v))))
  ∧ (∀ (s : State) (who : Role) (v : Val) (mid last : List Nat),
      s.on Reg.deviceStatusChipReady = true → s.catchUp = s → s.lb.begun = none →
      ∀ x y n, s.named Reg.lbCmdCmd.key v = some (.lbCmd, x, y, n) →
        s.judge who (itemOf Reg.lbCmdCmd.key v) ≠ .ok →
          exec (.lbFlush who v mid last) s = .next (s.say (s.judge who (itemOf Reg.lbCmdCmd.key v))))
  ∧ (∀ (s : State) (who : Role) (key : Nat) (v : Val),
      s.on Reg.deviceStatusChipReady = true → s.catchUp = s → s.entryAt key = none →
      ((∀ d a b, locate key = some (d, a, b) → ownRow d.ent = false) →
        exec (.registerWrite who key v) s = .next (s.say .absent))
      ∧ (∀ a b r, SetRows s who a b v r → r.key = key →
        (∀ d x y, locate key = some (d, x, y) → d.ent = r.ent ∧ r.mine (d.valueIn (itemOf key v)) = true) →
          exec r.cmd s = .next (s.say .absent)))

/-- O11. A GET that is served answers OK with the entry's value; it clears the RC fields of the entry where the reader holds the
clear right, and changes nothing else where it does not (R365, R367). A read of a pin's captures takes the oldest away (R89); a read
of a room's word clears MBO_NEW (R286). -/
def Obligations.GetsAnswerAndClear : Prop :=
  ∀ (s : State) (who : Role) (key a b : Nat) (d : EntDesc),
    (s.Reads who key d a b → d.ent ≠ .evtCapture → d.ent ≠ .roomMboxOut →
      d.fields.any (fun f => f.acc == .rc) = true →
      (d.clr ≠ 0 → holds who d.clr = false →
        exec (.rcEntryGet who key) s = .next { s with answer := { status := .ok, bytes := s.entryBytes d a b key } })
      ∧ (d.clr = 0 ∨ holds who d.clr = true → Completes (.rcEntryGet who key) s fun t =>
          t.answer = { status := .ok, bytes := s.entryBytes d a b key }
          ∧ (∀ f ∈ d.fields, 0 < f.w → t.rd ⟨key, f.lo, f.w⟩ = if f.acc = .rc then 0 else s.rd ⟨key, f.lo, f.w⟩)
          ∧ ∀ k, k ≠ key → t.get k = s.get k))
    ∧ (s.Reads who (Reg.evtCaptureT a).key d a 0 → d.ent = .evtCapture →
      exec (.evtCaptureGet who a) s = .next
        { s.setEvt a { s.evt a with fifo := (s.evt a).fifo.drop 1 } with
          answer := { status := .ok, bytes := s.entryBytes d a 0 (Reg.evtCaptureT a).key } })
    ∧ (s.Reads who (Reg.roomMboxOutWord a).key d a 0 → d.ent = .roomMboxOut →
      exec (.roomMboxOutGet who a) s = .next
        { s.wr (Reg.roomStatusMboNew a) 0 with
          answer := { status := .ok, bytes := s.entryBytes d a 0 (Reg.roomMboxOutWord a).key } })

/-- O12. If several statuses apply to one item, the first of ABSENT, DENIED, BAD_TYPE, OUT_OF_RANGE, CONFLICT, BUSY is its status
(R369): `entState` is what its entry's own checks say, and `n` the number it writes. -/
def Obligations.FirstStatusOfTheOrder : Prop :=
  ∀ (s : State) (who : Role) (i : Item), (s.entryAt i.key = none → s.judge who i = .absent)
    ∧ ∀ d a b, s.entryAt i.key = some (d, a, b) → ∀ n st, n = d.valueIn i → st = s.entState d.ent a b i.key n i.raw →
      let absent := d.fits i = true ∧ st = .absent
      let denied := holds who d.wr = false
      let badType := d.fits i = false
      let outOfRange := (d.ty = .bool ∧ 1 < n) ∨ fieldsOk d.fields n = false ∨ entRange s.fuse d.ent a n i.raw = false
        ∨ st = .outOfRange
      (absent → s.judge who i = .absent)
      ∧ (¬absent → denied → s.judge who i = .denied)
      ∧ (¬absent → ¬denied → badType → s.judge who i = .badType)
      ∧ (¬absent → ¬denied → ¬badType → outOfRange → s.judge who i = .outOfRange)
      ∧ (¬absent → ¬denied → ¬badType → ¬outOfRange → st = .conflict → s.judge who i = .conflict)
      ∧ (¬absent → ¬denied → ¬badType → ¬outOfRange → st = .busy ∨ (st = .ok ∧ s.gated i.key = true) →
        s.judge who i = .busy)
      ∧ (¬absent → ¬denied → ¬badType → ¬outOfRange → st = .ok → s.gated i.key = false → s.judge who i = .ok)

/-! Ticks, tone generators and domains. -/

/-- O13. TICK_EDGE of a running domain, once RC has come to the instant of its next edge on the grid of DPLL time (R113), begins
a tick: late work of the tick before is closed first (R36), the count goes on by one, or to 0 at the first edge (R15), the word
clocks take their edges (R119), launch of the tick that ends and capture of the one that begins act (R17), and the five stages
of its work follow in R17's order, all at one moment for the Letterbox (R421). That a tick's work acts with its edge, with what
will be late noted there, is the model's choice (log entry 29), and so is that the command moves RC to the edge's instant (log
entry 41). An edge of a domain that is not running does nothing (R37). A copy that is done in a fill stage gives its sink, where
that has no delay line, what its source presents, and no other sink changes (R17, R25); a late one leaves every sink as it was
(R36). -/
def Obligations.TickEdgeBeginsTick : Prop :=
  ∀ s : State, (∀ (d slack : Nat) (w : TickWork), d < 4 →
    (s.running d = false → exec (.tickEdge d slack w) s = .next (s.scatter s.gather))
    ∧ (s.running d = true → ∀ a q, a = s.gather.advance (s.edgeAt d (s.tick d).next / 4) → q = a.edgeAt d (a.tick d).next →
      (4 * a.rc + 3 < q → exec (.tickEdge d slack w) s = .next (s.scatter a))
      ∧ (q ≤ 4 * a.rc + 3 → ∀ c u n v x, c = a.tickClose d → u = c.each (c.roomsIn d) State.faultDue →
        n = (if (u.tick d).open_ then u.rd (Reg.tickCount d) + 1 else 0) →
        v = (u.put (Reg.tickCount d).key n).wclkEdges d (u.tick d).next q → x = v.edgeStages d q (u.tick d).open_ →
        exec (.tickEdge d slack w) s = .next (s.scatter ((x.setTick d
          { open_ := true, late := v.anyLate d w, slack := slack, edge := q, next := (u.tick d).next + 1 }).workStages d n q w)))))
    ∧ s.scatter s.gather = s
    ∧ (∀ (o : Nat) (v : Nat × Option Nat), s.lineOf o = none →
      Sparse.get (fun _ => 0) (s.copyTo o v).path.sink o = v.1
      ∧ ∀ k, k ≠ o → Sparse.get (fun _ => 0) (s.copyTo o v).path.sink k = Sparse.get (fun _ => 0) s.path.sink k)
    ∧ ∀ x : LateCopy, (s.copyMissed x).path = s.path

/-- O14. TICK_DEADLINE, once RC has come to 1 µs before the domain's next edge: the launch is done with the sinks as they stand,
and late copies, converters and recording are abandoned (R36; how, log entry 29); a tick with late work counts one miss and has
slack 0, one without has the slack its work left (R36, R37, R44); the blocks still running that must have ended are judged late
(R45). A deadline before its instant, or with no tick in progress, does nothing more. -/
def Obligations.TickDeadlineCloses : Prop :=
  ∀ (s a u m : State) (d : Nat) (t : DomTick), d < 4 → s.running d = true →
    a = s.gather.advance ((s.edgeAt d (s.tick d).next - 2000) / 4) → t = a.tick d →
    (4 * a.rc + 3 < a.edgeAt d t.next - 2000 ∨ t.open_ = false ∨ t.launched = true →
      exec (.tickDeadline d) s = .next (s.scatter a))
    ∧ (a.edgeAt d t.next - 2000 ≤ 4 * a.rc + 3 → t.open_ = true → t.launched = false →
      u = (a.abandonWork d).setTick d { t with launched := true, fill2 := [], fill4 := [], asrc := [], recorder := none } →
      (t.late = false → exec (.tickDeadline d) s =
          .next (s.scatter ((u.tickResult d t.slack false).blocksLate d (u.rd (Reg.tickCount d)))))
      ∧ (t.late = true → m = u.dlMiss d 0 0 →
        exec (.tickDeadline d) s = .next (s.scatter ((m.tickResult d 0 true).blocksLate d (m.rd (Reg.tickCount d))))))

/-- O15. A miss of domain `d` counts in DL_MISS with its tick in DL_LAST where tick work was late, in ROOM_LATE otherwise, saturating
(R33, R36); outside a hold-off it posts event 0x7001 and opens one, and within its DL_HOLDOFF ticks it is only counted (R39, R475).
DL_HOLDOFF_END, once those ticks are over: with occurrences counted, one event 0x7001 reports the latest, its room too, and their
count, and a window of as many ticks follows; with none the window closes and nothing is posted. Before that it does nothing. Which
room several misses are reported under, and that the window that follows begins behind the last tick of the one before, is log entry
49 (DESIGN CHOICE, DEDUCED). -/
def Obligations.MissesAreCountedAndReported : Prop :=
  ∀ (s : State) (d cause room n len : Nat) (h : Hold),
    h = s.dlHold d cause → n = s.rd (Reg.tickCount d) → len = s.rd (Reg.dlHoldoff d) →
    (d < 4 → cause < 4 →
      ((s.dlMiss d 0 room).rd (Reg.dlMiss d) = min (s.rd (Reg.dlMiss d) + 1) (2 ^ 32 - 1)
        ∧ (s.dlMiss d 0 room).rd (Reg.dlLast d) = n
        ∧ (s.dlMiss d 0 room).rd (Reg.roomLate d) = s.rd (Reg.roomLate d))
      ∧ (cause ≠ 0 → (s.dlMiss d cause room).rd (Reg.roomLate d) = min (s.rd (Reg.roomLate d) + 1) (2 ^ 32 - 1)
        ∧ (s.dlMiss d cause room).rd (Reg.dlMiss d) = s.rd (Reg.dlMiss d)
        ∧ (s.dlMiss d cause room).rd (Reg.dlLast d) = s.rd (Reg.dlLast d))
      ∧ (h.active = true → (n : Int) ≤ h.since + len →
        (s.dlMiss d cause room).dlHold d cause = { h with count := h.count + 1, info := room, at_ := n }
        ∧ (s.dlMiss d cause room).lb = s.lb)
      ∧ (h.active = false ∨ (h.count = 0 ∧ h.since + len < n) →
        (s.dlMiss d cause room).dlHold d cause = { active := true, count := 0, info := room, at_ := n, since := n }
        ∧ ∃ u : State, u.lb = s.lb ∧ s.dlMiss d cause room = u.post 0x7001 6
            [d + cause * 2 ^ 4 + room * 2 ^ 8 + 1 * 2 ^ 16, n / 2 ^ 32, n % 2 ^ 32]))
    ∧ (h.active = true → h.since + len < n → h.count ≠ 0 →
      exec (.dlHoldoffEnd d cause) s = .next ((s.setDlHold d cause { active := true, since := h.since + len }).post 0x7001 6
        [d + cause * 2 ^ 4 + h.info * 2 ^ 8 + min h.count 0xFFFF * 2 ^ 16, h.at_ / 2 ^ 32, h.at_ % 2 ^ 32]))
    ∧ (h.active = true → h.since + len < n → h.count = 0 → exec (.dlHoldoffEnd d cause) s = .next (s.setDlHold d cause {}))
    ∧ (h.active = false ∨ (n : Int) ≤ h.since + len → exec (.dlHoldoffEnd d cause) s = .next s)

/-- O16. TONE_CTRL_SET restarts the generator at phase 0 where it joins a domain, changes domain or becomes a sine, and otherwise
only stores (R29). MD_CTRL_SET: ENABLE going to 1 starts the domain with TICK_COUNT 0 and RUNNING 1, its edges from the next point of
the grid of DPLL time on, while every other entry keeps its value (R40, R113); going to 0 stops it, and where no tick's work is
unfinished every entry but RUNNING, the flags of slewing outputs and its master sides' LOCKED keeps its value (R37, R40); any other
change only stores. -/
def Obligations.ToneAndDomainSets : Prop :=
  ∀ (s : State) (who : Role) (a : Nat) (v : Val) (n : Nat),
    (∀ k u, k = (Reg.toneCtrlMode a).key → s.Accepts who k v .toneCtrl a 0 n → u = s.takes k n →
      ((field (s.get k) 2 1 = 0 ∧ u.rd (Reg.toneCtrlDomainValid a) = 1) ∨ field (s.get k) 3 2 ≠ u.rd (Reg.toneCtrlDomain a)
          ∨ (field (s.get k) 0 2 ≠ 1 ∧ u.rd (Reg.toneCtrlMode a) = 1) →
        exec (.toneCtrlSet who a v) s = .next ((u.setTone a { u.tone a with restart := true }).say .ok))
      ∧ (¬((field (s.get k) 2 1 = 0 ∧ u.rd (Reg.toneCtrlDomainValid a) = 1) ∨ field (s.get k) 3 2 ≠ u.rd (Reg.toneCtrlDomain a)
          ∨ (field (s.get k) 0 2 ≠ 1 ∧ u.rd (Reg.toneCtrlMode a) = 1)) →
        exec (.toneCtrlSet who a v) s = .next (u.say .ok)))
    ∧ (∀ k u, k = (Reg.mdCtrlEnable a).key → s.Accepts who k v .mdCtrl a 0 n → u = s.takes k n →
      (bit (s.get k) 0 = false → u.on (Reg.mdCtrlEnable a) = true → Completes (.mdCtrlSet who a v) s fun t =>
          t.rd (Reg.domainRunRunning a) = 1 ∧ t.get (Reg.tickCount a).key = 0 ∧ t.answer.status = .ok
          ∧ t.tick a = { next := u.gridNow a }
          ∧ ∀ j, j ≠ (Reg.domainRunRunning a).key → j ≠ (Reg.tickCount a).key → t.get j = u.get j)
      ∧ (bit (s.get k) 0 = true → u.on (Reg.mdCtrlEnable a) = false → Completes (.mdCtrlSet who a v) s fun t =>
          t.rd (Reg.domainRunRunning a) = 0 ∧ t.tick a = {} ∧ t.answer.status = .ok
          ∧ t.get (Reg.tickCount a).key = u.get (Reg.tickCount a).key
          ∧ ((s.tick a).open_ = false ∨ (s.tick a).launched = true → ∀ j, j ≠ (Reg.domainRunRunning a).key →
            j ≠ Reg.outSlewStatusTdm.key → (∀ p b, p < 48 → b < 2 → j ≠ (Reg.sideStatusLocked p b).key) → t.get j = u.get j))
      ∧ (bit (s.get k) 0 = u.on (Reg.mdCtrlEnable a) → exec (.mdCtrlSet who a v) s = .next (u.say .ok)))

/-! The core voltage. -/

/-- O17. A move of the VID code, where one is due and allowed: at most 4 codes toward the goal, counted in VID_MOVES, with SETTLING
set (R49). A frozen or held loop, or one that settles, moves nothing (R53, R54), in fixed mode and under the thermal clamp too (log
entry 44, DEDUCED); nor does one at its goal. -/
def Obligations.VidMovesAtMostFour : Prop :=
  ∀ s : State,
    (s.volt.frozen = true ∨ s.volt.pgHold = true ∨ s.on Reg.vidStatusSettling = true → s.vidDrive = s)
    ∧ (s.volt.frozen = false → s.volt.pgHold = false → s.on Reg.vidStatusSettling = false →
      (s.vidGoal = s.rd Reg.vidStatusCodeNow → s.vidDrive = { s with volt := { s.volt with goal := s.vidGoal } })
      ∧ (s.vidGoal ≠ s.rd Reg.vidStatusCodeNow →
        s.vidDrive.rd Reg.vidStatusCodeNow = vidMove (s.rd Reg.vidStatusCodeNow) s.vidGoal
        ∧ s.vidDrive.rd Reg.vidStatusCodeNow ≤ s.rd Reg.vidStatusCodeNow + 4
        ∧ s.rd Reg.vidStatusCodeNow ≤ s.vidDrive.rd Reg.vidStatusCodeNow + 4
        ∧ s.vidDrive.rd Reg.vidStatusCodeNow ≠ s.rd Reg.vidStatusCodeNow
        ∧ s.vidDrive.on Reg.vidStatusSettling = true
        ∧ s.vidDrive.rd Reg.vidMoves = min (s.rd Reg.vidMoves + 1) (2 ^ 32 - 1)
        ∧ ∀ k, k ≠ Reg.vidStatusCodeNow.key → k ≠ Reg.vidMoves.key → s.vidDrive.get k = s.get k))

/-- O18. What the pins and timers of the core supply do. VID_SETTLE_END clears SETTLING and starts the headroom windows afresh;
with PWR_GOOD low, or the code frozen, the code stays; else it moves on toward its goal, if it is not there (R46, R49, R54);
settings that waited are taken then (R55). VID_IDLE_LOWER lowers the code by 1 where nothing runs and its bounds allow it (R51).
PWR_GOOD_CHANGE takes the level, and a high one ends the hold of R54; low for 10 µs it freezes the code, sets PG_LOST and posts
0xB002, and high for 1 ms it lets the loop go on (R53). That the hold of R54 takes in fixed mode and the clamp too is log entry
44 (DEDUCED). -/
def Obligations.SupplyEvents : Prop :=
  ∀ (s u : State) (high : Bool) (code : Nat), code = s.rd Reg.vidStatusCodeNow →
    (s.on Reg.vidStatusSettling = true → s.volt.kept = none →
      u = { s.wr Reg.vidStatusSettling 0 with volt := { s.volt with wins := [], pgHold := !s.volt.pgHigh } } →
      exec .vidSettleEnd s = .next u.vidDrive.idleArm
      ∧ (s.volt.pgHigh = false ∨ s.volt.frozen = true → exec .vidSettleEnd s = .next u.idleArm)
      ∧ (s.volt.pgHigh = true → s.volt.frozen = false → Completes .vidSettleEnd s fun t => t.volt.pgHold = false ∧ t.volt.wins = []
        ∧ (s.vidGoal = code → t.on Reg.vidStatusSettling = false ∧ t.rd Reg.vidStatusCodeNow = code)
        ∧ (s.vidGoal ≠ code → t.on Reg.vidStatusSettling = true ∧ t.rd Reg.vidStatusCodeNow = vidMove code s.vidGoal)))
    ∧ (s.on Reg.vidStatusSettling = true → s.volt.kept ≠ none → exec .vidSettleEnd s = .next
      (State.vidReconfigure { s.wr Reg.vidStatusSettling 0 with
        volt := { s.volt with wins := [], pgHold := !s.volt.pgHigh, kept := none } }).vidDrive.idleArm)
    ∧ (s.on Reg.vidStatusSettling = false → exec .vidSettleEnd s = .next s)
    ∧ (s.volt.idleArmed = true → s.vidIdle = true → s.loopOn = true → s.vidLow + 1 ≤ code → code ≤ s.vidHigh.1 + 1 →
      Completes .vidIdleLower s fun t => t.rd Reg.vidStatusCodeNow = code - 1 ∧ t.on Reg.vidStatusSettling = true
        ∧ t.rd Reg.vidMoves = min (s.rd Reg.vidMoves + 1) (2 ^ 32 - 1) ∧ t.volt.idleArmed = false
        ∧ ∀ k, k ≠ Reg.vidStatusCodeNow.key → k ≠ Reg.vidMoves.key → t.get k = s.get k)
    ∧ (s.volt.idleArmed = true → s.vidIdle = true → s.loopOn = true → code ≤ s.vidLow →
      exec .vidIdleLower s = .next { s with volt := { s.volt with idleArmed := false } })
    ∧ (¬(s.volt.idleArmed = true ∧ s.vidIdle = true ∧ s.loopOn = true) → exec .vidIdleLower s = .next s)
    ∧ (high = false ∨ s.volt.pgHold = false →
      exec (.pwrGoodChange high) s = .next { s with volt := { s.volt with pgHigh := high } })
    ∧ (s.volt.pgHold = true → exec (.pwrGoodChange true) s = .next
        (State.vidDrive { s with volt := { s.volt with pgHigh := true, pgHold := false } }).idleArm)
    ∧ (s.volt.pgHold = true → s.volt.frozen = false → s.on Reg.vidStatusSettling = false →
      Completes (.pwrGoodChange true) s fun t => t.volt.pgHigh = true ∧ t.volt.pgHold = false
        ∧ (s.vidGoal = code → t.on Reg.vidStatusSettling = false ∧ t.rd Reg.vidStatusCodeNow = code)
        ∧ (s.vidGoal ≠ code → t.on Reg.vidStatusSettling = true ∧ t.rd Reg.vidStatusCodeNow = vidMove code s.vidGoal))
    ∧ (s.volt.pgHigh = false → s.boot.low = false → Completes .pwrGoodLost s fun t =>
      t.volt = { s.volt with frozen := true } ∧ t.on Reg.vidStatusPgLost = true
      ∧ t.rd Reg.vidStatusCodeNow = code ∧ (∃ w : State, w.lb = s.lb ∧ t = w.post 0xB002 7 [code])
      ∧ ∀ k, k ≠ Reg.vidStatusPgLost.key → k ∉ lbKeys → t.get k = s.get k)
    ∧ (s.volt.pgHigh = true ∨ s.boot.low = true → exec .pwrGoodLost s = .next s)
    ∧ (s.volt.pgHigh = true → exec .pwrGoodResume s = .next
        (State.vidDrive { s with volt := { s.volt with frozen := false, pgHold := false } }).idleArm)
    ∧ (s.volt.pgHigh = true → s.on Reg.vidStatusSettling = false →
      Completes .pwrGoodResume s fun t => t.volt.frozen = false ∧ t.volt.pgHold = false
        ∧ (s.vidGoal = code → t.on Reg.vidStatusSettling = false ∧ t.rd Reg.vidStatusCodeNow = code)
        ∧ (s.vidGoal ≠ code → t.on Reg.vidStatusSettling = true ∧ t.rd Reg.vidStatusCodeNow = vidMove code s.vidGoal))
    ∧ (s.volt.pgHigh = false → exec .pwrGoodResume s = .next s)

/-- O19. A SET of VID_MODE, VID_FIXED, VID_FLOOR or VID_CEIL that changes it acts at once, but in a settle interval, where it is
stored and answered at once and the loop goes by the settings before it until the interval ends (R55; log entry 8, DEDUCED); a
new HM_WINDOW starts every window afresh (R46). One that changes nothing only stores. -/
def Obligations.VoltageSettings : Prop :=
  ∀ (s u : State) (who : Role) (v : Val) (n : Nat) (c : Instr) (e : Ent) (k : Nat),
    ((c, e, k) = (.vidModeSet who v, .vidMode, Reg.vidMode.key) ∨ (c, e, k) = (.vidFixedSet who v, .vidFixed, Reg.vidFixedCode.key)
      ∨ (c, e, k) = (.vidBoundsSet who false v, .vidFloor, Reg.vidFloorCode.key)
      ∨ (c, e, k) = (.vidBoundsSet who true v, .vidCeil, Reg.vidCeilCode.key) →
      s.Accepts who k v e 0 0 n → u = s.takes k n →
      (s.get k = n → exec c s = .next (u.say .ok))
      ∧ (s.get k ≠ n → u.on Reg.vidStatusSettling = true →
        exec c s = .next (State.say { u with volt := { s.volt with kept := some (u.vidKept e (s.get k)) } } .ok))
      ∧ (s.get k ≠ n → u.on Reg.vidStatusSettling = false →
        exec c s = .next (u.vidReconfigure.vidDrive.idleArm.say .ok)))
    ∧ (s.Accepts who Reg.hmWindow.key v .hmWindow 0 0 n → u = s.takes Reg.hmWindow.key n →
      (s.get Reg.hmWindow.key = n → exec (.hmWindowSet who v) s = .next (u.say .ok))
      ∧ (s.get Reg.hmWindow.key ≠ n →
        exec (.hmWindowSet who v) s = .next (State.say { u with volt := { s.volt with wins := [] } } .ok)))

/-- O20. The end of a running domain's headroom window latches its least and mean slack, its late count and the window's number,
and those of its active rooms, and of its guest rooms, that ended a block in it; the next window starts afresh (R46, R47; which
rooms are active, log entry 11, and that a room with no block in the window latches nothing, log entry 44). Before its ticks are
over, or in a domain that is not running, nothing happens. -/
def Obligations.HeadroomWindowLatches : Prop :=
  ∀ (s : State) (d : Nat), d < 4 →
    (s.running d = false ∨ s.windowDue d = false → exec (.hmWindowEnd d) s = .next s)
    ∧ (s.running d = true → s.windowDue d = true → Completes (.hmWindowEnd d) s fun t =>
      t.get (Reg.domainHmResultMinSlack d).key = hmLatch (s.hmWin d) (s.rd (Reg.domainHmResultWindowSeq d))
      ∧ (∀ r < 18, r ∈ s.roomsOf d → s.roomActive r = true → (s.hmWin (16 + r)).dom = d → (s.hmWin (16 + r)).n ≠ 0 →
        t.get (Reg.roomHmResultMinSlack r).key = hmLatch (s.hmWin (16 + r)) (s.rd (Reg.roomHmResultWindowSeq r)))
      ∧ (∀ r < 18, r ∈ s.guestsOf d → (s.hmWin (16 + r)).dom = d → (s.hmWin (16 + r)).n ≠ 0 →
        t.get (Reg.roomHmResultMinSlack r).key = hmLatch (s.hmWin (16 + r)) (s.rd (Reg.roomHmResultWindowSeq r)))
      ∧ (∀ r < 18, (s.hmWin (16 + r)).dom ≠ d ∨ (s.hmWin (16 + r)).n = 0 →
        t.get (Reg.roomHmResultMinSlack r).key = s.get (Reg.roomHmResultMinSlack r).key)
      ∧ t.hmWin d = {})

/-! Time views, timed triggers, event inputs. -/

/-- O21. TV_SCHEDULE_SET leaves one schedule pending, at its point, or at the next RC where it asks for that or its point is reached,
which sets APPLIED_LATE (R63, R64); TV_SCHEDULE_CANCEL removes it: that a schedule with neither rate nor step is the cancel is log
entry 10, DEDUCED. A SET of TV_SOURCE that changes the owner removes it too (R66); the ports choose their states anew, since what the
view serves is a local setting of theirs (R76, R77), and one decision on the candidates follows (R105). -/
def Obligations.ViewSchedulesAreSet : Prop :=
  ∀ (s u : State) (who : Role) (a : Nat) (v : Val) (n k : Nat),
    (k = (Reg.tvScheduleRcApply a).key → s.Accepts who k v .tvSchedule a 0 n → u = s.takes k n →
      (field n 112 2 ≠ 0 → Completes (.tvScheduleSet who a v) s fun t =>
        (t.view a).sched = some { at_ := if field n 114 1 = 1 ∨ field n 0 64 ≤ s.rc then s.rc + 1 else field n 0 64
                                  rate := if field n 112 1 = 1 then some (field n 64 48) else none
                                  step := if field n 113 1 = 1 then some (field n 128 96) else none
                                  owner := u.rd (Reg.tvSource a) == 0 }
        ∧ t.rd (Reg.tvStatusPending a) = 1 ∧ t.answer.status = .ok
        ∧ (field n 114 1 ≠ 1 → field n 0 64 ≤ s.rc → t.rd (Reg.tvStatusAppliedLate a) = 1)
        ∧ ∀ b, b ≠ a → t.view b = s.view b)
      ∧ (field n 112 2 = 0 → exec (.tvScheduleCancel who a v) s = .next
        (((u.setView a { u.view a with sched := none }).wr (Reg.tvStatusPending a) 0).say .ok)))
    ∧ (k = (Reg.tvSource a).key → s.Accepts who k v .tvSource a 0 n →
      (s.get k = n → exec (.tvSourceSet who a v) s = .next ((s.together fun w => (w.takes k n).settleRefs).say .ok))
      ∧ (s.get k ≠ n → exec (.tvSourceSet who a v) s = .next ((s.together fun w =>
        ((((w.takes k n).setView a { w.view a with sched := none }).wr (Reg.tvStatusPending a) 0).bmca).settleRefs).say .ok)))

/-- O22. TV_SCHEDULE_APPLY: RC comes to the point A of a view's pending schedule, and every schedule whose point it comes to applies,
the earliest first. Where no other view has one, no PTP candidate is selected, and a step falls on a view that Hearth does not own:
RATE takes the new rate, OFFSET keeps the view continuous at A but for the step, PENDING clears and LAST_APPLY is A (R62). With none
pending nothing happens. -/
def Obligations.ScheduleApplies : Prop :=
  ∀ (s : State) (v : Nat), v < 4 →
    ((s.view v).sched = none → exec (.tvScheduleApply v) s = .next s)
    ∧ ∀ c, (s.view v).sched = some c → exec (.tvScheduleApply v) s = .next (s.scatter (s.gather.advance c.at_))
      ∧ (s.locked = true ∨ c.at_ ≤ s.rc → (∀ w < 4, w ≠ v → (s.view w).sched = none) → 2 ≤ s.selected →
        c.step = none ∨ s.rd (Reg.tvSource v) ≠ 2 → Completes (.tvScheduleApply v) s fun t =>
          t.rd (Reg.tvRateRate v) = c.rate.getD (s.rd (Reg.tvRateRate v)) % 2 ^ 48
          ∧ t.rd (Reg.tvOffsetOffset v) = newOffset (s.rd (Reg.tvOffsetOffset v)) (s.rd (Reg.tvRateRate v))
              (c.rate.getD (s.rd (Reg.tvRateRate v))) c.at_ (c.step.getD 0) % 2 ^ 96
          ∧ t.rd (Reg.tvStatusPending v) = 0 ∧ t.rd (Reg.tvLastApplyA v) = c.at_ % 2 ^ 64 ∧ (t.view v).sched = none
          ∧ t.rc = (if s.locked then max s.rc c.at_ else s.rc))

/-- O23. TT_CTRL_SET: ARM going to 1 takes the target, sets ARMED and clears MISSED; LATE is set where the view has reached the
target already, and stands as it stood where it has not; ARM going to 0 clears ARMED, and one that does not change ARM only stores
(R83, R84). TRIGGER_FIRE: RC comes to the value that an armed trigger converts to; where a schedule on the way moves its view so
that the value is still to come, nothing more happens, and one not armed does nothing (R83). Else it makes the request its ACTION
names, of the unit its TARGET names, unless another trigger makes the same request at this RC value (R85), and LAST_RC holds the
value (R84). A single one then clears ARMED and ARM. A periodic one goes on to the first multiple of its period behind its target
that is still to come, MISSED counting those it skips. Event 0x2006 tells of one that was late when it was armed and of skipped
ones (R84, R90). -/
def Obligations.TimedTriggers : Prop :=
    (∀ (s u : State) (who : Role) (a : Nat) (v : Val) (n k target : Nat), a < 32 → k = (Reg.ttCtrlArm a).key →
      s.Accepts who k v .ttCtrl a 0 n → u = s.takes k n → target = ofTime (u.get (Reg.ttTargetT a).key) →
        (bit (s.get k) 0 = false → u.on (Reg.ttCtrlArm a) = true → ∀ late, late = u.viewReached (u.rd (Reg.ttCtrlView a)) target →
          Completes (.ttCtrlSet who a v) s fun t =>
            t.rd (Reg.ttStatusArmed a) = 1 ∧ t.rd (Reg.ttStatusMissed a) = 0 ∧ t.answer.status = .ok
            ∧ t.rd (Reg.ttStatusLate a) = (if late then 1 else s.rd (Reg.ttStatusLate a))
            ∧ t.trig a = { target := target, conv := u.viewReaches (u.rd (Reg.ttCtrlView a)) target s.rc, late := late }
            ∧ ∀ j, j ≠ k → j ≠ (Reg.ttStatusArmed a).key → t.get j = s.get j)
        ∧ (bit (s.get k) 0 = true → u.on (Reg.ttCtrlArm a) = false →
          exec (.ttCtrlSet who a v) s = .next ((u.wr (Reg.ttStatusArmed a) 0).say .ok))
        ∧ (bit (s.get k) 0 = u.on (Reg.ttCtrlArm a) → exec (.ttCtrlSet who a v) s = .next (u.say .ok)))
  ∧ (∀ (s u r w : State) (a at_ period unit : Nat) (x : Trig), a < 32 →
      (s.on (Reg.ttStatusArmed a) = false → exec (.triggerFire a) s = .next s)
      ∧ (s.on (Reg.ttStatusArmed a) = true → u = s.gather.advance (s.trig a).conv → x = u.trig a → at_ = x.conv →
        period = u.get (Reg.ttPeriodPeriod a).key → unit = u.rd (Reg.ttCtrlTarget a) →
        (u.on (Reg.ttStatusArmed a) = false ∨ u.rc < at_ → exec (.triggerFire a) s = .next (s.scatter u))
        ∧ (u.on (Reg.ttStatusArmed a) = true → at_ ≤ u.rc →
          r = (if u.trigTwin a at_ = true then u else
            match u.rd (Reg.ttCtrlAction a) with
            | 1 => u.sideRequest unit 0
            | 2 => u.sideRequest unit 1
            | 3 => u.txRequest unit
            | 4 => u.rxRequest unit
            | 5 => u.roomRequest unit
            | 6 => u.trigOut unit (u.firePoint a)
            | _ => u) → w = r.wr (Reg.ttLastRc a) at_ →
          (period = 0 → ∀ z, z = ((w.wr (Reg.ttStatusArmed a) 0).wr (Reg.ttCtrlArm a) 0).setTrig a { x with late := false } →
            exec (.triggerFire a) s = .next (s.scatter (if x.late then z.post 0x2006 3 [pack [(0, a), (5, 1)]] else z)))
          ∧ ∀ skip target now, 0 < period → now = (w.viewAt (u.rd (Reg.ttCtrlView a)) (4 * at_) % (timeMod : Int)).toNat →
            target = x.target + (skip + 1) * period → now < target → (skip = 0 ∨ target ≤ now + period) →
            ∀ y z, y = w.bump (Reg.ttStatusMissed a) skip →
            z = y.setTrig a { target := target, conv := y.viewReaches (u.rd (Reg.ttCtrlView a)) target at_ } →
            exec (.triggerFire a) s = .next (s.scatter (if x.late = true ∨ skip ≠ 0 then
              z.post 0x2006 3 [pack [(0, a), (5, b2n x.late), (16, min skip 65535)]] else z)))))

/-- O24. EVT_IN_EDGE: RC comes to the instant of the edge. One of a selected direction is captured with its instant in the pin's
view (R88), and event 0x2005 is posted where the pin asks for it (R90); one within 200 quarter counts of the last captured, or
with 16 captures waiting, is counted in MISSED alone (R89); one not selected, or of a pulse too short, does nothing. EVT_CFG_SET
clears MISSED. TRIG_OUT_PULSE_END ends a pulse WIDTH times 8 ns after the edge that began it, or began it again (R86). -/
def Obligations.EventPins : Prop :=
  ∀ (s u w : State) (i q : Nat) (rising short : Bool), i < 4 →
    (u = s.gather.advance (q / 4) →
      (short = true ∨ edgeSelected (u.rd (Reg.evtCfgEdge i)) rising = false →
        exec (.evtInEdge i rising short q) s = .next (s.scatter u))
      ∧ (short = false → edgeSelected (u.rd (Reg.evtCfgEdge i)) rising = true →
        ((∃ l, (u.evt i).last = some l ∧ q < l + 200) ∨ 16 ≤ (u.evt i).fifo.length →
          exec (.evtInEdge i rising short q) s = .next (s.scatter (u.bump (Reg.evtCfgMissed i) 1)))
        ∧ ((∀ l, (u.evt i).last = some l → l + 200 ≤ q) → (u.evt i).fifo.length < 16 →
          w = u.setEvt i { fifo := (u.evt i).fifo ++ [{ t := toTime (u.viewAt (u.rd (Reg.evtCfgView i)) q), q := q % 2 ^ 66
                                                        rising := rising, seq := (u.evt i).seq }]
                           seq := ((u.evt i).seq + 1) % 256, last := some q } →
          exec (.evtInEdge i rising short q) s = .next (s.scatter (if u.on (Reg.evtCfgPost i) = true then
            w.post 0x2005 (u.rd (Reg.evtCfgPriority i)) [pack [(0, i), (8, (u.evt i).seq)]] else w))
          ∧ ∀ t, exec (.evtInEdge i rising short q) s = .next t →
            t.evt i = w.evt i ∧ ∀ k, k ∉ lbKeys → t.get k = u.get k)))
    ∧ (∀ who v n k, k = (Reg.evtCfgEdge i).key → s.Accepts who k v .evtCfg i 0 n →
      exec (.evtCfgSet who i v) s = .next (((s.takes k n).wr (Reg.evtCfgMissed i) 0).say .ok))
    ∧ (∀ t, t = (s.out i).edge + 16 * s.rd (Reg.trigOutCfgWidth i) → (s.out i).pulse = true →
      exec (.trigOutPulseEnd i) s = .next ((s.advance ((t + 3) / 4)).setOut i { edge := t }))
    ∧ ((s.out i).pulse = false → exec (.trigOutPulseEnd i) s = .next s)

/-! PTP. -/

/-- O25. What a slave takes from its parent: a one-step Sync gives a sample to the servo at once, a two-step Sync waits for its
Follow_Up, which gives it (R72); a Delay_Resp to the port's own request joins the mean path delay (R79); the responses of a peer
delay exchange complete it (R75). How the turnarounds and corrections combine is log entry 9 (PRESUMED: the standard's). A
message of another parent, another request or another sequence number changes nothing. A mean path delay measurement is kept,
PTP_PATH_DELAY shows the average of the last 2^DELAY_AVG, rounded down and shown truncated (R79; log entry 33, DEDUCED), and the
other port's average stays. -/
def Obligations.PtpMeasurements : Prop :=
  ∀ (s g u w : State) (p q : Nat) (m : PtpMsg), g = s.gather → u = g.advance (q / 4) → w = g.catchUp →
    (u.ptpTakes p m = true → u.fromParent p m = true →
      (m.twoStep = true → exec (.ptpSyncRx p m q) s =
        .next (s.scatter (u.setPtp p { u.ptpPort p with twoStep := some (m.seq, u.ingress p q, m.corr) })))
      ∧ (m.twoStep = false → exec (.ptpSyncRx p m q) s =
        .next (s.scatter (u.servoSync p m.time (u.ingress p q) m.corr).settleRefs)))
    ∧ (u.ptpTakes p m = false ∨ u.fromParent p m = false → exec (.ptpSyncRx p m q) s = .next (s.scatter u))
    ∧ (∀ t2 c, w.ptpTakes p m = true → w.fromParent p m = true → (w.ptpPort p).twoStep = some (m.seq, t2, c) →
      exec (.ptpFollowUpRx p m) s =
        .next (s.scatter ((w.setPtp p { w.ptpPort p with twoStep := none }).servoSync p m.time t2 (m.corr + c)).settleRefs))
    ∧ (w.ptpTakes p m = false ∨ w.fromParent p m = false ∨ (∀ t2 c, (w.ptpPort p).twoStep ≠ some (m.seq, t2, c)) →
      exec (.ptpFollowUpRx p m) s = .next (s.scatter w))
    ∧ (∀ t3, (s.ptpPort p).reqSent = some t3 → s.ptpTakes p m = true → s.fromParent p m = true → m.req = s.portId p →
      m.seq = (s.ptpPort p).reqSeq → s.p2p p = false → (s.ptpPort p).syncs ≠ 0 →
      exec (.ptpDelayRespRx p m) s =
        .next (s.scatter ((g.setPtp p { s.ptpPort p with reqSent := none, answered := true }).delayTaken p
          ((timeDiff (s.ptpPort p).last.2.1 t3 + timeDiff m.time (s.ptpPort p).last.1 - (s.ptpPort p).last.2.2 - m.corr) / 2))))
    ∧ (s.ptpTakes p m = false ∨ (s.ptpPort p).reqSent = none ∨ m.seq ≠ (s.ptpPort p).reqSeq ∨ m.req ≠ s.portId p →
      exec (.ptpDelayRespRx p m) s = .next s)
    ∧ (∀ t1, (u.ptpPort p).reqSent = some t1 → u.ptpTakes p m = true → u.p2p p = true →
      m.req = u.portId p → m.seq = (u.ptpPort p).reqSeq →
      (m.twoStep = true → exec (.ptpPdelayRespRx p m q) s =
        .next (s.scatter (u.setPtp p { u.ptpPort p with resp := some (m.seq, u.ingress p q, m.time, m.corr) })))
      ∧ (m.twoStep = false → exec (.ptpPdelayRespRx p m q) s =
        .next (s.scatter (u.pdelayDone p t1 m.time m.time (u.ingress p q) m.corr))))
    ∧ (u.ptpTakes p m = false ∨ u.p2p p = false ∨ (u.ptpPort p).reqSent = none ∨ m.seq ≠ (u.ptpPort p).reqSeq ∨ m.req ≠ u.portId p →
      exec (.ptpPdelayRespRx p m q) s = .next (s.scatter u))
    ∧ (∀ t1 t4 t2 c, (s.ptpPort p).reqSent = some t1 → (s.ptpPort p).resp = some (m.seq, t4, t2, c) →
      s.ptpTakes p m = true → m.req = s.portId p →
      exec (.ptpPdelayRespFollowUpRx p m) s = .next (s.scatter (g.pdelayDone p t1 t2 m.time t4 (c + m.corr))))
    ∧ (s.ptpTakes p m = false ∨ (s.ptpPort p).reqSent = none ∨ (s.ptpPort p).resp = none ∨ m.req ≠ s.portId p →
      exec (.ptpPdelayRespFollowUpRx p m) s = .next s)
    ∧ ∀ d : Int, ((s.delayTaken p d).ptpPort p).delays = (d :: (s.ptpPort p).delays).take 64
      ∧ (s.delayTaken p d).rd (Reg.ptpPathDelayMpd p) =
          (clampInt 0 4294967295 (Int.tdiv ((s.delayTaken p d).ptpPort p).mpd 16384)).toNat
      ∧ (∀ k, k ≠ p → (s.delayTaken p d).ptpPort k = s.ptpPort k)
      ∧ ∀ k, k ≠ (Reg.ptpPathDelayMpd p).key → (s.delayTaken p d).get k = s.get k

/-- O26. What a port sends: a master answers a Delay_Req, and a peer-to-peer port a Pdelay_Req, with the time the request came
in (R72); a master sends Sync and Announce by their intervals, and a slave Delay_Req, each with the next sequence number (R74,
R78). Where the correction fields and the turnaround stand, and the messages' details, are log entries 9 (PRESUMED) and 47
(DESIGN CHOICE). -/
def Obligations.PtpSends : Prop :=
  ∀ (s u : State) (p q t : Nat) (m : PtpMsg), u = s.advance (q / 4) → t = (u.ingress p q % (timeMod : Int)).toNat →
    (u.ptpTakes p m = true → u.ptpState p = 6 → u.p2p p = false → exec (.ptpDelayReqRx p m q) s = .next (u.ptpSend p
      { kind := 9, seq := m.seq, req := m.src, time := t / 65536 * 65536, corr := m.corr - (t % 65536 : Nat)
        unicast := m.unicast, ip := m.ip, mac := m.mac }))
    ∧ (u.ptpTakes p m = false ∨ u.ptpState p ≠ 6 ∨ u.p2p p = true → exec (.ptpDelayReqRx p m q) s = .next u)
    ∧ (u.ptpTakes p m = true → u.p2p p = true → u.on (Reg.ptpPortCfgTwoStep p) = true →
      exec (.ptpPdelayReqRx p m q) s = .next (u.ptpSend p { kind := 3, seq := m.seq, req := m.src, twoStep := true
                                                            time := t / 65536 * 65536, corr := m.corr - (t % 65536 : Nat) }))
    ∧ (u.ptpTakes p m = true → u.p2p p = true → u.on (Reg.ptpPortCfgTwoStep p) = false →
      exec (.ptpPdelayReqRx p m q) s =
        .next (u.ptpSend p { kind := 3, seq := m.seq, req := m.src, twoStep := false, time := t, corr := m.corr }))
    ∧ (u.ptpTakes p m = false ∨ u.p2p p = false → exec (.ptpPdelayReqRx p m q) s = .next u)
    ∧ (s.on (Reg.ptpPortCfgEnable p) = true → s.ptpState p = 6 → s.asBlocked p = false →
      exec (.ptpSyncInterval p) s = .next
        ((s.setPtp p { s.ptpPort p with seqSync := ((s.ptpPort p).seqSync + 1) % 65536 }).ptpSend p
          { kind := 0, seq := (s.ptpPort p).seqSync, twoStep := s.on (Reg.ptpPortCfgTwoStep p) })
      ∧ exec (.ptpAnnounceInterval p) s = .next
        ((s.setPtp p { s.ptpPort p with seqAnn := ((s.ptpPort p).seqAnn + 1) % 65536 }).ptpSend p
          { kind := 11, seq := (s.ptpPort p).seqAnn, ann := s.annOut p, path := if s.profile p = 4 then s.pathOut p else [] }))
    ∧ (s.on (Reg.ptpPortCfgEnable p) = false ∨ s.ptpState p ≠ 6 ∨ s.asBlocked p = true →
      exec (.ptpSyncInterval p) s = .next s ∧ exec (.ptpAnnounceInterval p) s = .next s)
    ∧ (s.on (Reg.ptpPortCfgEnable p) = true → s.p2p p = false → s.ptpState p = 8 ∨ s.ptpState p = 9 →
      exec (.ptpDelayReqInterval p) s = .next
        ((s.setPtp p { s.ptpPort p with reqSeq := ((s.ptpPort p).reqSeq + 1) % 65536, reqSent := none, resp := none
                                        answered := false }).ptpSend p
          { kind := 1, seq := ((s.ptpPort p).reqSeq + 1) % 65536, unicast := s.on (Reg.ptpPortCfgHybrid p)
            ip := (s.ptpPort p).parentIp, mac := (s.ptpPort p).parentMac }))
    ∧ (s.on (Reg.ptpPortCfgEnable p) = true → s.p2p p = true → 4 ≤ s.ptpState p →
      ∀ w, w = (if (s.ptpPort p).answered then s else s.asJudge p false) →
      exec (.ptpDelayReqInterval p) s = .next
        ((w.setPtp p { s.ptpPort p with reqSeq := ((s.ptpPort p).reqSeq + 1) % 65536, reqSent := none, resp := none
                                        answered := false, okRun := (w.ptpPort p).okRun
                                        failRun := (w.ptpPort p).failRun }).ptpSend p
          { kind := 2, seq := ((s.ptpPort p).reqSeq + 1) % 65536 }))
    ∧ (s.on (Reg.ptpPortCfgEnable p) = false ∨ s.ptpState p < 4 → exec (.ptpDelayReqInterval p) s = .next s)

/-- O27. An Announce that the port takes joins its foreign masters, and where its sender qualifies the ports choose their states
(R76); one that the port does not take changes nothing. A slave whose parent's Announces end drops it, its view runs free and
its servo goes to FREE; the ports choose anew, and one with no master left goes to MASTER, or to LISTENING where it is slave
only (R67, R75, R76, R80). A port that loses its Syncs goes to FREE and its view runs free (R67, R80); a port in PRE_MASTER
enters MASTER at the end of its qualification (R75). That a distance of 255 steps and this clock in the path trace shut an
Announce out is log entry 9 (PRESUMED: the standards'), and how FREE is left is log entry 47 (DESIGN CHOICE). -/
def Obligations.PtpAnnounceAndTimeouts : Prop :=
  ∀ (s g u : State) (p : Nat) (m : PtpMsg), g = s.gather →
    (s.ptpTakes p m = true → s.asBlocked p = false → m.ann.steps < 255 → s.profile p ≠ 4 ∨ m.path.contains (s.clockId p) = false →
      u = g.setPtp p { s.ptpPort p with foreign := foreignPut (s.ptpPort p).foreign m s.rc } →
      (((u.ptpPort p).foreign.filter (fun f => f.src == m.src)).any u.qualified = true →
        exec (.ptpAnnounceRx p m) s = .next (s.scatter u.bmca.settleRefs))
      ∧ (((u.ptpPort p).foreign.filter (fun f => f.src == m.src)).any u.qualified = false →
        exec (.ptpAnnounceRx p m) s = .next (s.scatter u)))
    ∧ (s.ptpTakes p m = false ∨ s.asBlocked p = true ∨ 255 ≤ m.ann.steps → exec (.ptpAnnounceRx p m) s = .next s)
    ∧ (∀ w, w = g.catchUp →
      (w.on (Reg.ptpPortCfgEnable p) = false ∨ w.ptpState p < 4 ∨ w.ptpState p = 5 ∨ w.ptpState p = 6 →
        exec (.announceReceiptTimeout p) s = .next (s.scatter w))
      ∧ (w.on (Reg.ptpPortCfgEnable p) = true → w.ptpState p = 4 ∨ 7 ≤ w.ptpState p →
        u = (if w.slaving p then ((w.setPtp p { w.ptpPort p with
            foreign := (w.ptpPort p).foreign.filter (fun f => f.src != (w.ptpPort p).parent), parent := 0 }).viewFree p).servoGo p 3
          else w) →
        ((u.erBest p).isSome = true → exec (.announceReceiptTimeout p) s = .next (s.scatter u.bmca.settleRefs))
        ∧ (u.erBest p = none → u.on (Reg.ptpPortCfgSlaveOnly p) = true →
          exec (.announceReceiptTimeout p) s = .next (s.scatter (u.ptpGo p 4).bmca.settleRefs))
        ∧ (u.erBest p = none → u.on (Reg.ptpPortCfgSlaveOnly p) = false →
          exec (.announceReceiptTimeout p) s =
            .next (s.scatter ((if (u.bc && u.slaving (1 - p)) = true then u else u.parentOwn p).ptpGo p 6).bmca.settleRefs))))
    ∧ (s.ptpState p = 8 ∨ s.ptpState p = 9 → exec (.syncReceiptTimeout p) s = .next (s.scatter
      (((g.setPtp p { s.ptpPort p with syncs := 0, keepI := true, below := 0 }).viewFree p).servoGo p 3).settleRefs))
    ∧ (s.ptpState p ≠ 8 → s.ptpState p ≠ 9 → exec (.syncReceiptTimeout p) s = .next s)
    ∧ (s.ptpState p = 5 → exec (.ptpQualificationTimeout p) s = .next (s.scatter (g.ptpGo p 6)))
    ∧ (s.ptpState p ≠ 5 → exec (.ptpQualificationTimeout p) s = .next s)

/-- O28. A SET of PTP_PORT_CFG or PTP_CLOCK_ID that changes it starts the port anew (both of them where they are one boundary
clock and it is port A's), and one of PTP_BC starts both (R77, R81, R82); the ports choose their states by what remains (R76), a
PTP candidate whose port no longer follows fails, and one decision on the candidates follows (R105). One that changes nothing
only stores. -/
def Obligations.PtpSettings : Prop :=
  ∀ (s : State) (who : Role) (a : Nat) (v : Val) (n k : Nat) (anew : State → State),
    (∀ w : State, anew w = State.signalFail (State.bmca (if w.bc = true ∧ a = 0 then (w.ptpInit 0).ptpInit 1 else w.ptpInit a))) →
    (k = (Reg.ptpPortCfgEnable a).key → s.Accepts who k v .ptpPortCfg a 0 n →
      exec (.ptpPortCfgSet who a v) s = .next ((s.together fun w =>
        (if s.get k = n then w.takes k n else anew (w.takes k n)).settleRefs).say .ok))
    ∧ (k = (Reg.ptpClockIdClockId a).key → s.Accepts who k v .ptpClockId a 0 n →
      exec (.ptpClockIdSet who a v) s = .next ((s.together fun w =>
        (if s.get k = n then w.takes k n else anew (w.takes k n)).settleRefs).say .ok))
    ∧ (k = Reg.ptpBcBcEnable.key → s.Accepts who k v .ptpBc 0 0 n →
      exec (.ptpBcSet who v) s = .next ((s.together fun w =>
        (if s.get k = n then w.takes k n else (((w.takes k n).ptpInit 0).ptpInit 1).bmca.signalFail).settleRefs).say .ok))

/-! The Hearth. -/

/-- O29. A candidate enters a state: STATE and TIMER read as given, CAUSE as the cause of a failure, else it stays; where the state is
another one event 0x1001 names the old, the new and the cause. Nothing else of the candidate, in its REF_STATUS or beside it, changes,
nor anything of another one or of the Hearth (R99, R124). -/
def Obligations.CandidateEntersState : Prop :=
  ∀ (s : State) (c new timer : Nat) (cause : Option Nat), c < 10 →
    (s.refGo c new cause timer).rd (Reg.refStatusState c) = new % 2 ^ (Reg.refStatusState c).w
    ∧ (∀ k, cause = some k → (s.refGo c new cause timer).rd (Reg.refStatusCause c) = k % 2 ^ (Reg.refStatusCause c).w)
    ∧ (cause = none → (s.refGo c new cause timer).rd (Reg.refStatusCause c) = s.rd (Reg.refStatusCause c))
    ∧ (s.refGo c new cause timer).rd (Reg.refStatusTimer c) = timer % 2 ^ (Reg.refStatusTimer c).w
    ∧ (∀ f ∈ [Reg.refStatusDegraded c, Reg.refStatusHasFailed c, Reg.refStatusSelected c, Reg.refStatusEligible c, Reg.refStatusRank c,
        Reg.refStatusQlRaw c], (s.refGo c new cause timer).rd f = s.rd f)
    ∧ (s.refGo c new cause timer).hearth = s.hearth
    ∧ (∀ k, k ≠ (Reg.refStatusState c).key → k ∉ lbKeys → (s.refGo c new cause timer).get k = s.get k)
    ∧ (s.rd (Reg.refStatusState c) = new → (s.refGo c new cause timer).lb = s.lb)
    ∧ (s.rd (Reg.refStatusState c) ≠ new → ∃ u : State, u.lb = s.lb ∧ s.refGo c new cause timer = u.post 0x1001 4
        [pack [(0, c), (4, new), (7, s.rd (Reg.refStatusState c)), (10, u.rd (Reg.refStatusCause c))]])

/-- O30. What ends a candidate's wait or fails it: loss of its signal; the 100 ms check against twice HARD; expiry of
qualification (to wait-to-restore where it has failed before, else to AVAILABLE) and of wait-to-restore; REF_CMD 1 and 2; and
the ESMC timeout of a candidate whose quality ESMC brings; then the selection settles (R92, R95, R97, R99, R105). In another
state each does nothing more. -/
def Obligations.CandidateEvents : Prop :=
  ∀ (s g u : State) (c : Nat), g = s.gather →
    (u = g.setCand c { s.cand c with signal := false, offs := [] } →
      exec (.refNoSignal c) s = .next (s.scatter ((u.wr (Reg.refFreqOffset c) 0).refFail c 1).settleRefs))
    ∧ (s.rd (Reg.refStatusState c) = 2 → s.on (Reg.refStatusHasFailed c) = true →
      exec (.refQualExpiry c) s = .next (s.scatter (g.refGo c 3 none (s.rd (Reg.refMonCfgWtr c))).settleRefs))
    ∧ (s.rd (Reg.refStatusState c) = 2 → s.on (Reg.refStatusHasFailed c) = false →
      exec (.refQualExpiry c) s = .next (s.scatter (g.refGo c 4 none 0).settleRefs))
    ∧ (s.rd (Reg.refStatusState c) ≠ 2 → exec (.refQualExpiry c) s = .next s)
    ∧ (s.rd (Reg.refStatusState c) = 3 → exec (.refWtrExpiry c) s = .next (s.scatter (g.refGo c 4 none 0).settleRefs))
    ∧ (s.rd (Reg.refStatusState c) ≠ 3 → exec (.refWtrExpiry c) s = .next s)
    ∧ (∀ (meas : List (Nat × Int)) (off : State → Nat → Option Int), (∀ (t : State) x, off t x =
        if x < 2 then some (t.ptpOff x)
        else if t.looped x = true then some (t.loopOff x)
        else (meas.find? (fun m => m.1 == x)).map (fun m => m.2)) →
      exec (.refFastCheck meas) s = .next (s.scatter (g.units 10 fun t x =>
        if (off t x).any (fun y => decide (t.rd (Reg.refMonCfgHard x) * 20 < y.natAbs)) then t.refFail x 2 else t).settleRefs))
    ∧ (u = g.setCand (c + 2) { s.cand (c + 2) with esmcOut := true } →
      (s.rd (Reg.refCfgQlSrc (c + 2)) = 1 → exec (.esmcTimeout c) s = .next (s.scatter (u.refFail (c + 2) 4).settleRefs))
      ∧ (s.rd (Reg.refCfgQlSrc (c + 2)) ≠ 1 → exec (.esmcTimeout c) s = .next (s.scatter u)))
    ∧ (∀ who v n k, k = (Reg.refCmdCmd c).key → s.Accepts who k v .refCmd c 0 n →
      (n = 1 → s.rd (Reg.refStatusState c) = 3 →
        exec (.refCmdEndWtr who c v) s = .next ((s.together fun w => ((w.takes k n).refGo c 4 none 0).settleRefs).say .ok))
      ∧ (n = 1 → s.rd (Reg.refStatusState c) ≠ 3 →
        exec (.refCmdEndWtr who c v) s = .next ((s.together fun w => (w.takes k n).settleRefs).say .ok))
      ∧ (n = 2 → exec (.refCmdClearFailed who c v) s =
        .next ((s.together fun w => ((w.takes k n).wr (Reg.refStatusHasFailed c) 0).settleRefs).say .ok)))

/-- O31. The monitor's second: each candidate with a measurement has its REF_FREQ and flags renewed, PTP's from its view and a
looped word clock's from its output, with that output's edge; the selection settles, and the DPLL moves on as its state has it
(R97, R98, R105, R448). One that is OFF is not touched (R93); one without a signal fails. REF_FREQ is the mean over the last
WINDOW seconds measured, rounded down (log entry 12, DEDUCED). DEGRADED is set where the mean lies beyond SOFT, cleared within
nine tenths of it, and else stays (R98). A mean beyond HARD fails the candidate with cause 2 (R98); one FAILED whose mean lies
within nine tenths of HARD, whose rank is below 6 and whose ESMC is not out goes to QUALIFYING for QUAL_TIME (R99); of another
its timer counts down. -/
def Obligations.MonitorSecond : Prop :=
  ∀ s : State, (∀ meas : List RefMeas,
      exec (.refMonitorSecond meas) s = .next (s.scatter ((s.gather.units 10 fun t c =>
        if c < 2 then t.monitor c true (t.ptpOff c) 0
        else if t.looped c = true then
          t.monitor c true (t.loopOff c) ((Sparse.get (fun _ => none) t.hearth.wclk (c - 4)).getD (t.cand c).edge)
        else ((meas.find? (fun m => m.c == c)).map (fun m => t.monitor c m.present m.off m.edge)).getD t).settleRefs).dpllSecond))
    ∧ (∀ c present off edge, c < 10 →
      (s.rd (Reg.refStatusState c) = 0 → s.monitor c present off edge = s)
      ∧ (s.rd (Reg.refStatusState c) ≠ 0 → s.rd (Reg.refStatusTimer c) ≤ 1 → present = false ∨ s.signalOk c = false →
        s.monitor c present off edge = (s.noSignal c).refFail c 1)
      ∧ (s.rd (Reg.refStatusState c) ≠ 0 → present = true → s.signalOk c = true →
        ∀ (l : List Int) (mean : Int) (t : State), l = ((off :: (s.cand c).offs).take 64).take (s.rd (Reg.refMonCfgWindow c)) →
        mean = clampInt (-2147483648) 2147483647 (l.sum / (l.length : Int)) → t = s.monitor c present off edge →
        t.rd (Reg.refFreqOffset c) = ofInt 32 mean
        ∧ (∀ soft : Int, soft = s.rd (Reg.refMonCfgSoft c) * 10 → t.rd (Reg.refStatusDegraded c) =
          if soft < mean.natAbs then 1 else if (mean.natAbs : Int) * 10 ≤ soft * 9 then 0 else s.rd (Reg.refStatusDegraded c))
        ∧ (∀ hard : Int, hard = s.rd (Reg.refMonCfgHard c) * 10 →
          (hard < mean.natAbs → t.rd (Reg.refStatusState c) = 1
            ∧ (2 ≤ s.rd (Reg.refStatusState c) → t.rd (Reg.refStatusCause c) = 2)
            ∧ (3 ≤ s.rd (Reg.refStatusState c) → t.rd (Reg.refStatusHasFailed c) = 1))
          ∧ ((mean.natAbs : Int) * 10 ≤ hard * 9 → s.rd (Reg.refStatusState c) = 1 → s.rank c < 6 →
            (s.cand c).esmcOut = false ∨ s.rd (Reg.refCfgQlSrc c) ≠ 1 →
              t.rd (Reg.refStatusState c) = 2 ∧ t.rd (Reg.refStatusTimer c) = s.rd (Reg.refMonCfgQualTime c) % 2 ^ 10)
          ∧ ((mean.natAbs : Int) ≤ hard → s.rd (Reg.refStatusState c) ≠ 1 ∨ hard * 9 < (mean.natAbs : Int) * 10 ∨ 6 ≤ s.rank c
              ∨ ((s.cand c).esmcOut = true ∧ s.rd (Reg.refCfgQlSrc c) = 1) →
            t.rd (Reg.refStatusState c) = s.rd (Reg.refStatusState c)
            ∧ t.rd (Reg.refStatusTimer c) =
              if 1 < s.rd (Reg.refStatusTimer c) then s.rd (Reg.refStatusTimer c) - 1 else s.rd (Reg.refStatusTimer c)))
        ∧ ∀ x < 10, x ≠ c → t.rd (Reg.refStatusState x) = s.rd (Reg.refStatusState x)))

/-- O32. The DPLL: a stage gives way to the next, and the last to LOCKED, where deferred decisions are taken (R103, R109); a second
in LOCKED joins the history (R110), which HEARTH_CMD 1 clears; HO_SPEC seconds after HOLDOVER was entered HO_IN_SPEC falls and
event 0x1005 is posted (R111), whatever the state is by then; a manual reference is waited for no longer when its wait expires
(R106). In other states each does nothing. That HO_IN_SPEC falls in any state, and that the measured frequency is the record's,
are log entry 46 (DEDUCED). The DPLL's second: in HOLDOVER and FREE_RUN DPLL_FREQ moves by at most 1 ppm toward HIST_FREQ or
FREE_TRIM, and DPLL time runs at that frequency (R111, R112); where it runs so already nothing changes. -/
def Obligations.DpllEvents : Prop :=
    (∀ (s u : State) (freq : Int) (who : Role) (v : Val) (n : Nat),
      (s.rd Reg.hearthStatusState = 1 → s.rd Reg.hearthStatusStage + 1 < (s.stages s.selected).1.length →
        exec .dpllStageEnd s = .next (s.scatter (s.gather.wr Reg.hearthStatusStage (s.rd Reg.hearthStatusStage + 1))))
      ∧ (s.rd Reg.hearthStatusState = 1 → (s.stages s.selected).1.length ≤ s.rd Reg.hearthStatusStage + 1 →
        exec .dpllStageEnd s = .next (s.scatter ((s.gather.hearthGo 2 s.selected 0).refRefresh.select).refRefresh))
      ∧ (s.rd Reg.hearthStatusState ≠ 1 → exec .dpllStageEnd s = .next s)
      ∧ (s.rd Reg.hearthStatusState = 2 → 2 ≤ s.selected → u = s.wr Reg.dpllFreqFreq (ofInt 32 freq) →
        exec (.histRecordSecond freq) s = .next (State.histRefresh { u with hearth := { s.hearth with
          history := (freq :: s.hearth.history).take (s.rd Reg.holdoverCfgHistLen + s.rd Reg.holdoverCfgGuard) } }))
      ∧ (s.rd Reg.hearthStatusState = 2 → s.selected < 2 →
        exec (.histRecordSecond freq) s = .next (State.histRefresh { s with hearth := { s.hearth with
          history := (s.ptpOff s.selected :: s.hearth.history).take
            (s.rd Reg.holdoverCfgHistLen + s.rd Reg.holdoverCfgGuard) } }))
      ∧ (s.rd Reg.hearthStatusState ≠ 2 → exec (.histRecordSecond freq) s = .next s)
      ∧ (s.on Reg.hearthStatusHoInSpec = true →
        exec .hoSpecExpiry s = .next ((s.wr Reg.hearthStatusHoInSpec 0).post 0x1005 5 [s.hearth.lastCand]).refRefresh)
      ∧ (s.on Reg.hearthStatusHoInSpec = false → exec .hoSpecExpiry s = .next s)
      ∧ (s.hearth.waiting = true → Completes .manWaitExpiry s fun t =>
        t.hearth = { s.hearth with waiting := false, deferred := false } ∧ t.rd Reg.hearthCtrlManualRef = 15
        ∧ (∃ w : State, w.lb = s.lb ∧ t = w.post 0x1004 5 [s.rd Reg.hearthCtrlManualRef])
        ∧ ∀ k, k ≠ Reg.hearthCtrlManualRef.key → k ∉ lbKeys → t.get k = s.get k)
      ∧ (s.hearth.waiting = false → exec .manWaitExpiry s = .next s)
      ∧ (s.Accepts who Reg.hearthCmdCmd.key v .hearthCmd 0 0 n → n = 1 → u = s.takes Reg.hearthCmdCmd.key n →
        exec (.hearthCmdClearHistory who v) s =
          .next ((State.histRefresh { u with hearth := { u.hearth with history := [] } }).say .ok)))
  ∧ (∀ (s : State) (f g : Int), f = sext 32 (s.rd Reg.dpllFreqFreq) →
      (s.rd Reg.hearthStatusState = 3 ∧ g = sext 32 (s.rd Reg.histFreqFreq))
        ∨ (s.rd Reg.hearthStatusState = 0 ∧ g = sext 24 (s.rd Reg.holdoverCfgFreeTrim) * 10) →
      s.dpllSecond.rd Reg.dpllFreqFreq = ofInt 32 (clampInt (f - 10000) (f + 10000) g)
      ∧ s.dpllSecond.hearth.dpll.rate = rateOf (clampInt (f - 10000) (f + 10000) g)
      ∧ s.dpllSecond.hearth.dpll.time (4 * s.rc) = s.dpllNow
      ∧ (f = g → s.hearth.dpll.rate = rateOf g → s.dpllSecond = s))

/-- O33. DPLL time and what follows it. A domain that starts has its first edge at the next point of the grid of DPLL time, and
a step moves the edges by what it leaves of a tick, at most half of one (R113, R115). The word clock outputs of a domain rise
with its edges, in base-rate mode with every second or fourth of them (R119). A slew that ends clears its flag (R117). The view
the Hearth steers is written, for the first RC after RC has moved on by one, with the DPLL's rate, and stepped where it is off
DPLL time by more than 2 ns modulo whole seconds; that write replaces a pending schedule, and takes with it a step the Hearth
itself left for the same RC (R63 to R65, R118; how they combine is log entry 46, DEDUCED). PPS_OUT asserts at the nearest point
of its 8 ns grid to a whole second of its view (R120; the nearest one is log entry 46), and returns inactive after its width. -/
def Obligations.HearthOutputs : Prop :=
  ∀ (s u : State), (∀ d, 0 < s.domRate d →
      s.dpllNow * s.domRate d ≤ s.gridNow d * secondU ∧ s.gridNow d * secondU < s.dpllNow * s.domRate d + secondU)
    ∧ (∀ (d : Nat) (x : Int), -(secondU : Int) < 2 * (x * s.domRate d - s.gridShift d x * secondU)
      ∧ 2 * (x * s.domRate d - s.gridShift d x * secondU) ≤ secondU)
    ∧ (∀ (d q w : Nat) (k : Int), w < 2 →
      (s.wclkRuns w = true → s.rd (Reg.wclkOutCfgDomain w) = d → k % (s.wclkHz w).2 = 0 →
        Sparse.get (fun _ => none) (s.wclkEdges d k q).hearth.wclk w =
          some ((q : Int) + (s.outSlew w).left s.slewMax q / 32768).toNat)
      ∧ (s.wclkRuns w = false ∨ s.rd (Reg.wclkOutCfgDomain w) ≠ d ∨ k % (s.wclkHz w).2 ≠ 0 →
        Sparse.get (fun _ => none) (s.wclkEdges d k q).hearth.wclk w = Sparse.get (fun _ => none) s.hearth.wclk w))
    ∧ (∀ o < 3, ((s.outSlew o).err = 0 → exec (.outSlewEnd o) s = .next s)
      ∧ ((s.outSlew o).err ≠ 0 → Completes (.outSlewEnd o) s fun t =>
        t = (s.advance (((s.outSlew o).ends s.slewMax + 3) / 4)).setOutSlew o {}
        ∧ t.rd (slewFlag o) = 0 ∧ t.outSlew o = {}))
    ∧ (∀ p < 48, ∀ b < 2, ((s.side p b).slew.err = 0 → exec (.outSlewEnd (3 + (p * 2 + b))) s = .next s)
      ∧ ((s.side p b).slew.err ≠ 0 → Completes (.outSlewEnd (3 + (p * 2 + b))) s fun t =>
        t = (s.advance (((s.side p b).slew.ends s.slewMax + 3) / 4)).setSideSlew (p * 2 + b) {}
        ∧ t.rd (Reg.sideStatusSlewing p b) = 0 ∧ (t.side p b).slew = {}))
    ∧ ((∀ v < 4, s.rd (Reg.tvSource v) ≠ 2) → exec .hearthViewUpdate s = .next (s.scatter (s.gather.advance (s.rc + 1))))
    ∧ (∀ v < 4, s.rd (Reg.tvSource v) = 2 → (∀ w < 4, w ≠ v → s.rd (Reg.tvSource w) ≠ 2) →
      ∀ (r x : Nat) (own d : Int) (w : State), u = s.gather.advance (s.rc + 1) → r = u.hearth.dpll.rate → x = 4 * (u.rc + 1) →
      own = (match (u.view v).sched with
        | some c => if c.owner = true ∧ c.at_ = u.rc + 1 then sext 96 (c.step.getD 0) else 0
        | none => 0) → w = u.schedule v none (some r) (if own = 0 then none else some (ofInt 96 own)) true →
      d = reduceHalf (u.hearth.dpll.time x - w.viewAt v x) secondU →
      (d.natAbs ≤ 131072 → exec .hearthViewUpdate s = .next (s.scatter w))
      ∧ (131072 < d.natAbs → exec .hearthViewUpdate s = .next
        (s.scatter (u.schedule v none (some r) (if d + own = 0 then none else some (ofInt 96 (d + own))) true))))
    ∧ (s.on Reg.ppsOutCfgEnable = false → exec .ppsOutSecond s = .next s)
    ∧ (s.on Reg.ppsOutCfgEnable = true → ∀ (v x : Nat) (e t : Int) (p : Nat × Nat), v = s.rd Reg.ppsOutCfgView →
      e = (s.outSlew 2).left s.slewMax (4 * s.rc) → t = ((s.viewNow v - e) / secondU + 1) * secondU + e →
      p = s.viewParams v (4 * s.rc) → x = lineReaches (sext 96 p.1) p.2 t → u = s.advance ((max ((x + 8) / 16 * 16) x + 3) / 4) →
      (t ≤ u.viewAt v x →
        exec .ppsOutSecond s = .next { u with hearth := { u.hearth with pps := some ((x + 8) / 16 * 16) } })
      ∧ (u.viewAt v x < t → exec .ppsOutSecond s = .next u))
    ∧ (∀ x, s.hearth.pps = some x → u = s.advance (x / 4 + 4 * s.rd Reg.ppsOutCfgWidth) →
      exec .ppsOutPulseEnd s = .next { u with hearth := { u.hearth with pps := none } })
    ∧ (s.hearth.pps = none → exec .ppsOutPulseEnd s = .next s)

/-- O34. A SET of REF_CFG: a candidate disabled goes to OFF with its flags and frequency cleared, one enabled starts its
monitoring, and one whose mode, source or port changes is qualified afresh; candidates of rank 6 fail; then the selection
settles (R93, R95, R99, R105, R106). A SET of HEARTH_CTRL with another SEL_MODE enters it, mode 2 with the selected candidate as
MANUAL_REF, 3 with holdover, 4 with the free run (R102, R107); one with SEL_MODE as it stands chooses, in mode 2, the candidate
it names (R106). That event 0x1004 says failed where the awaited candidate is set OFF or configured anew is log entry 46 (DESIGN
CHOICE); that modes 3 and 4 act during a switch too is log entry 12 (DEDUCED). -/
def Obligations.HearthSettings : Prop :=
  ∀ (s : State) (who : Role) (c : Nat) (v : Val) (n k : Nat),
    (k = (Reg.refCfgEnable c).key → s.Accepts who k v .refCfg c 0 n →
      (field (s.get k) 0 1 = 1 → field n 0 1 ≠ 1 → exec (.refCfgSet who c v) s = .next ((s.together fun z =>
        let u := (z.takes k n).wr (Reg.refStatusHasFailed c) 0
        let w := if u.on (Reg.refStatusDegraded c) then
          (u.wr (Reg.refStatusDegraded c) 0).post 0x1003 4 [c, u.get (Reg.refFreqOffset c).key] else u
        let x := (w.refGo c 0 none 0).noSignal c
        (if u.hearth.waiting && u.rd Reg.hearthCtrlManualRef == c then x.abandon true else x).dnuFail.settleRefs).say .ok))
      ∧ (field (s.get k) 0 1 ≠ 1 → field n 0 1 = 1 → exec (.refCfgSet who c v) s = .next ((s.together fun z =>
        ((((z.takes k n).noSignal c).refGo c 1 (some 1) 0).dnuFail).settleRefs).say .ok))
      ∧ (field (s.get k) 0 1 ≠ 1 → field n 0 1 ≠ 1 →
        exec (.refCfgSet who c v) s = .next ((s.together fun z => (z.takes k n).dnuFail.settleRefs).say .ok))
      ∧ (field (s.get k) 0 1 = 1 → field n 0 1 = 1 → field (s.get k) 10 9 = field n 10 9 → field (s.get k) 19 6 = field n 19 6 →
        field (s.get k) 5 2 = field n 5 2 →
        exec (.refCfgSet who c v) s = .next ((s.together fun z => (z.takes k n).dnuFail.settleRefs).say .ok))
      ∧ (field (s.get k) 0 1 = 1 → field n 0 1 = 1 → (field (s.get k) 10 9 ≠ field n 10 9 ∨ field (s.get k) 19 6 ≠ field n 19 6
          ∨ field (s.get k) 5 2 ≠ field n 5 2) → exec (.refCfgSet who c v) s = .next ((s.together fun z =>
        let u := z.takes k n
        let w := if 2 ≤ u.rd (Reg.refStatusState c) ∧ u.hearth.waiting = true ∧ u.rd Reg.hearthCtrlManualRef = c then u.abandon true
          else u
        (((w.noSignal c).refGo c 1 (some 1) 0).dnuFail).settleRefs).say .ok)))
    ∧ (k = Reg.hearthCtrlSelMode.key → s.Accepts who k v .hearthCtrl 0 0 n → field n 0 3 ≠ s.rd Reg.hearthCtrlSelMode →
      ∀ enter : State → State, (∀ w : State, (field n 0 3 = 2 → enter w = w.wr Reg.hearthCtrlManualRef w.selected)
        ∧ (field n 0 3 = 3 → enter w = w.holdover) ∧ (field n 0 3 = 4 → enter w = w.freeRun)
        ∧ (field n 0 3 < 2 ∨ 4 < field n 0 3 → enter w = w)) →
      exec (.selModeSet who v) s = .next ((s.together fun z => (enter ((z.takes k n).setChoice false false)).settleRefs).say .ok))
    ∧ (k = Reg.hearthCtrlSelMode.key → s.Accepts who k v .hearthCtrl 0 0 n → field n 0 3 = s.rd Reg.hearthCtrlSelMode →
      (field n 0 3 = 2 → exec (.manualRefSet who v) s = .next ((s.together fun z =>
        ((z.takes k n).setChoice false (decide (field n 4 4 < 10) && field n 4 4 != z.selected)).settleRefs).say .ok))
      ∧ (field n 0 3 ≠ 2 → exec (.manualRefSet who v) s = .next ((s.together fun z => (z.takes k n).settleRefs).say .ok)))

/-! The network ports. -/

/-- O35. Pauses, rings and half duplex: a pause expires and its queue starts again (R143); a pause that has held for WD_TIME is
ignored, counted and reported (R145), until WD_HOLD ends; dropped frames of a hold-off are reported at its end (R156); a
collision ends the attempt, the sixteenth or a late one discards the frame, any other backs off for a free number of slots below
2^min(attempts, 10) (R149), nothing of which moves while the clocks stand (R439); RXR_RELEASE removes the oldest frame of the
ring (R155). -/
def Obligations.PortEvents : Prop :=
  ∀ (s : State) (p c bits : Nat) (deferred : Bool),
    exec (.pauseExpiry p c) s = .next (((s.setPause p c { s.pause p c with on := false, quanta := 0 }).pauseStatus p).txStart p)
    ∧ (s.on (Reg.pauseCfgWdEn p) = true → s.pauseHolds p c = true →
      exec (.pauseWdTrip p c) s = .next
        (((((s.setPause p c { s.pause p c with ignored := true }).bump (Reg.portPauseWdTrips p) 1).post 0x3003 5
          [if c < 8 then p + 2 ^ 2 + c * 2 ^ 8 else p]).pauseStatus p).txStart p))
    ∧ (s.on (Reg.pauseCfgWdEn p) = false ∨ s.pauseHolds p c = false → exec (.pauseWdTrip p c) s = .next s)
    ∧ exec (.pauseWdHoldEnd p c) s = .next ((s.setPause p c { s.pause p c with ignored := false }).pauseStatus p)
    ∧ ((s.port p).ringHold.active = false → exec (.ringDropWindowEnd p) s = .next s)
    ∧ ((s.port p).ringHold.active = true → (s.port p).ringHold.count = 0 →
      exec (.ringDropWindowEnd p) s = .next (s.setPort p { s.port p with ringHold := {} }))
    ∧ ((s.port p).ringHold.active = true → (s.port p).ringHold.count ≠ 0 →
      exec (.ringDropWindowEnd p) s = .next ((s.setPort p { s.port p with ringHold := { active := true } }).post 0x3002 3
        [p + min (s.port p).ringHold.count 0xFFFF * 2 ^ 16]))
    ∧ ((s.port 2).hd = .sending → (s.port 2).wire.isSome = true → s.halfDuplex 2 = true → s.locked = true →
      (512 ≤ bits → exec (.hdCollision bits) s = .next
        (((s.bump (Reg.portTxLateColl 2) 1).setPort 2 { s.port 2 with wire := none, hd := .idle }).txStart 2))
      ∧ (bits < 512 → (s.port 2).hdAttempts = 15 → exec (.hdCollision bits) s = .next
        (((s.bump (Reg.portTxExcessColl 2) 1).setPort 2 { s.port 2 with wire := none, hd := .idle }).txStart 2))
      ∧ (bits < 512 → (s.port 2).hdAttempts ≠ 15 → Completes (.hdCollision bits) s fun t =>
        (t.port 2).hd = .backoff ∧ (t.port 2).hdAttempts = (s.port 2).hdAttempts + 1
        ∧ (t.port 2).hdSlots < 2 ^ min ((s.port 2).hdAttempts + 1) 10 ∧ (t.port 2).wire = (s.port 2).wire ∧ t.regs = s.regs))
    ∧ ((s.port 2).hd ≠ .sending ∨ (s.port 2).wire = none ∨ s.halfDuplex 2 = false ∨ s.locked = false → exec (.hdCollision bits) s = .next s)
    ∧ ((s.port 2).hd = .backoff → s.locked = true → exec .hdBackoffEnd s = .next (s.setPort 2 { s.port 2 with hd := .carrier }))
    ∧ ((s.port 2).hd ≠ .backoff ∨ s.locked = false → exec .hdBackoffEnd s = .next s)
    ∧ ((s.port 2).hd = .carrier → s.locked = true → exec (.hdCarrierIdle deferred) s = .next
      (((if deferred = true ∧ (s.port 2).hdAttempts = 0 then s.bump (Reg.portTxDeferred 2) 1 else s)).setPort 2
        { s.port 2 with hd := .sending }))
    ∧ ((s.port 2).hd ≠ .carrier ∨ s.locked = false → exec (.hdCarrierIdle deferred) s = .next s)
    ∧ (∀ who v n k u, k = (Reg.rxrReleaseSeq p).key → s.Accepts who k v .rxrRelease p 0 n → u = s.takes k n →
      exec (.rxrReleaseSet who p v) s = .next ((u.setPort p { u.port p with ring := (u.port p).ring.drop 1 }).say .ok))

/-- O36. Links: a media port gains its link with block lock, and loses it with the lock it loses or with hi_ber (R128); port M
follows what its PHY reports, link, speed and duplex, 1000 Mb/s half duplex counting as down (R147, R148). A SET of PORT_CFG that
disables a port drops its queues and its lock (R127, R142). What a change of link is: LINK, SPEED and FULL_DUPLEX of PORT_STATUS
read as given. Where LINK stays, nothing else changes. Where it changes event 0x3001 tells of it (R128, R159); a link that goes
down counts in LINK_DOWNS, and no frame is queued or waits any more: each is counted in TX_LINK_DROP, the one that waits for the
carrier or a backoff among them (R142, R149). That a pause in force goes on is log entry 50 (DESIGN CHOICE). PTP's port and the
Hearth's candidates follow the link (R75, R92). -/
def Obligations.LinksFollowTheirPorts : Prop :=
    (∀ (s g : State) (p speed : Nat) (up full : Bool), g = s.gather →
      (p < 2 → s.portRuns p = true → s.rd (Reg.portLoopMode p) ≠ 1 → s.rd (Reg.portLoopMode p) ≠ 3 →
        exec (.linkUp p) s =
          .next (s.scatter ((g.pcs p true false true).linkGo p true (mediaSpeed (s.rd (Reg.portCfgRate p))) true).settleRefs))
      ∧ (s.portRuns p = false ∨ s.rd (Reg.portLoopMode p) = 1 ∨ s.rd (Reg.portLoopMode p) = 3 → exec (.linkUp p) s = .next s)
      ∧ (p < 2 → s.linkUp p = true → s.rd (Reg.portLoopMode p) ≠ 3 →
        exec (.linkDown p 0) s = .next (s.scatter ((g.pcs p false false false).linkLost p).settleRefs)
        ∧ exec (.linkDown p 1) s = .next (s.scatter ((g.pcs p true false false).linkLost p).settleRefs)
        ∧ exec (.linkDown p 2) s = .next (s.scatter ((g.pcs p true true (s.on (Reg.portStatusAmLock p))).linkLost p).settleRefs))
      ∧ (∀ cause, s.linkUp p = false ∨ s.rd (Reg.portLoopMode p) = 3 → exec (.linkDown p cause) s = .next s)
      ∧ (s.portRuns 2 = true → s.on Reg.mCfgInBand = true → s.rd (Reg.portLoopMode 2) = 0 → speed < 3 →
        exec (.mInbandStatus up speed full) s =
          .next (s.scatter (g.linkGo 2 (decide (up = true ∧ ¬(speed = 2 ∧ full = false))) speed full)))
      ∧ (s.portRuns 2 = false ∨ s.on Reg.mCfgInBand = false ∨ s.rd (Reg.portLoopMode 2) ≠ 0 →
        exec (.mInbandStatus up speed full) s = .next s)
      ∧ (∀ who v n k, k = (Reg.portCfgEnable p).key → s.Accepts who k v .portCfg p 0 n →
        exec (.portCfgSet who p v) s = .next ((s.together fun z =>
          let u := z.takes k n
          ((if bit (s.get k) 0 = true ∧ u.portEnabled p = false then
            (u.dropQueues p).pcs p false false false else u).linkOwn p).settleRefs).say .ok)))
  ∧ (∀ (s t : State) (p speed n : Nat) (up full : Bool), p < 3 → speed < 4 → t = s.setLink p up speed full →
      n = ((List.range (queueCount p)).map (fun q => ((s.queue p q).map (fun x => x.frames.length)).sum)).sum
        + (if (s.port p).wire.isSome = true ∧ ((s.port p).hd = .carrier ∨ (s.port p).hd = .backoff) then 1 else 0) →
      t.linkUp p = up ∧ t.rd (Reg.portStatusSpeed p) = speed ∧ t.on (Reg.portStatusFullDuplex p) = full
      ∧ (s.linkUp p = up → t.ports = s.ports ∧ t.lb = s.lb ∧ ∀ k, k ≠ (Reg.portStatusLink p).key → t.get k = s.get k)
      ∧ (s.linkUp p ≠ up → ∃ u : State, u.lb = s.lb
        ∧ t = u.post 0x3001 5 [pack [(0, p), (2, b2n up), (3, speed), (5, b2n full)]])
      ∧ (s.linkUp p = true → up = false →
        t.rd (Reg.portLinkDowns p) = min (s.rd (Reg.portLinkDowns p) + 1) (2 ^ 64 - 1)
        ∧ t.rd (Reg.portTxLinkDrop p) = min (s.rd (Reg.portTxLinkDrop p) + n) (2 ^ 64 - 1)
        ∧ (t.port p).wire = none ∧ (∀ q, t.queue p q = []) ∧ (t.port p).pauses = (s.port p).pauses
        ∧ (∀ x, x ≠ p → t.port x = s.port x)
        ∧ ∀ k, k ∉ [(Reg.portStatusLink p).key, (Reg.portLinkDowns p).key, (Reg.portTxLinkDrop p).key] → k ∉ lbKeys →
          t.get k = s.get k)
      ∧ (s.linkUp p = false → up = true → t.ports = s.ports
        ∧ (p < 2 → t.rd (Reg.esmcStatusSeen p) = 0)
        ∧ ∀ k, k ≠ (Reg.portStatusLink p).key → k ≠ (Reg.esmcStatusSeen p).key → k ∉ lbKeys → t.get k = s.get k)
      ∧ (s.linkGo p up speed full = if s.linkUp p = up then t else (t.ptpLink p up).signalFail)
      ∧ s.linkLost p = s.linkGo p false (s.rd (Reg.portStatusSpeed p)) (s.on (Reg.portStatusFullDuplex p)))

/-- O37. FRAME_RX of a port with link: a frame below 64 bytes with its FCS is a runt, one above the port's limit oversize, one
with a wrong FCS is counted as that, or on a slow port M with an odd nibble as an alignment error; each is discarded and counted
once, and any other is counted with its octets and goes on to its place (R132, R135, R158); the limit is that of FRAME_CFG as it
stood when its first byte came (R131, R134). ESMC_PDU_RX does so for a frame of the slow protocol. FRAME_TX_END takes the frame
off the wire (R138); with the clocks stopped nothing leaves (R439). A port without link receives nothing. What the line brought
counts in RX_CODE_ERR and, with a FEC, in FEC_CORRECTED and FEC_UNCORRECTED (R158): that it counts with the frame that comes
next is log entry 42 (DESIGN CHOICE). -/
def Obligations.FramesAreSorted : Prop :=
  ∀ (s u : State) (p n cfg : Nat) (f : FrameIn), n = f.bytes.length + 4 → u = (s.gather.advance (f.q / 4)).lineCounts p f →
    cfg = u.frameCfgAt p f.q →
    (p < 3 → s.portRuns p = true → s.linkUp p = true → s.rd (Reg.portLoopMode p) = 0 ∨ s.rd (Reg.portLoopMode p) = 4 →
      (n < 64 → exec (.frameRx p f) s = .next (s.scatter (u.bump (Reg.portRxRunt p) 1)))
      ∧ (64 ≤ n → limit cfg (tagged cfg f.bytes) < n → exec (.frameRx p f) s = .next (s.scatter (u.bump (Reg.portRxOversize p) 1)))
      ∧ (64 ≤ n → n ≤ limit cfg (tagged cfg f.bytes) → f.fcsOk = false →
        (p = 2 → u.rd (Reg.portStatusSpeed 2) ≠ 2 → f.odd = true → 
          exec (.frameRx p f) s = .next (s.scatter (u.bump (Reg.portRxAlignErr p) 1)))
        ∧ (p ≠ 2 ∨ u.rd (Reg.portStatusSpeed 2) = 2 ∨ f.odd = false →
          exec (.frameRx p f) s = .next (s.scatter (u.bump (Reg.portRxFcsErr p) 1))))
      ∧ (64 ≤ n → n ≤ limit cfg (tagged cfg f.bytes) → f.fcsOk = true → exec (.frameRx p f) s =
        .next (s.scatter (((u.bump (Reg.portRxFrames p) 1).bump (Reg.portRxOctets p) n).classify p cfg f.q f.bytes)))
      ∧ (p < 2 → at_ f.bytes 12 2 = 0x8809 → at_ f.bytes 14 1 = 0x0A → exec (.esmcPduRx p f) s = exec (.frameRx p f) s
        ∧ exec (.esmcPduRx p f) s = .next (s.scatter (u.frameTake p f))))
    ∧ (s.portRuns p = false ∨ s.linkUp p = false → exec (.frameRx p f) s = .next s ∧ exec (.esmcPduRx p f) s = .next s)
    ∧ (∀ q w, p < 3 → (s.port p).wire = some w → (s.port p).hd = .sending → s.locked = true →
      exec (.frameTxEnd p q) s = .next (s.scatter ((s.gather.advance (q / 4)).frameSent p q w)))
    ∧ (∀ q, (s.port p).wire = none ∨ (s.port p).hd ≠ .sending ∨ s.locked = false → exec (.frameTxEnd p q) s = .next s)
    ∧ (p < 3 → (s.lineCounts p f).rd (Reg.portRxCodeErr p) = min (s.rd (Reg.portRxCodeErr p) + f.codeErr) (2 ^ 64 - 1))
    ∧ (p < 2 → s.rd (Reg.portCfgFec p) ≠ 0 →
      (s.lineCounts p f).rd (Reg.portFecCorrected p) = min (s.rd (Reg.portFecCorrected p) + f.fecFixed) (2 ^ 64 - 1)
      ∧ (s.lineCounts p f).rd (Reg.portFecUncorrected p) = min (s.rd (Reg.portFecUncorrected p) + f.fecLost) (2 ^ 64 - 1))

/-- O38. TXQ_SEND_SET: a send that is accepted joins its queue behind what waits there, with the space of its bytes (R141), and the
port starts where it is idle: an unsegmented one as its frame, filled up to 60 bytes with zeros (R133), a segmented one as its
segments (R150). One refused as out of range, in conflict or busy is counted in TX_REFUSED and answered so (R158). The segments of
a send that R150 allows: as many as its payload has parts of SEG_SIZE bytes, one at least (R150); each repeats the headers, with
its own part of the payload behind them, in order; its IPv4 total length is its own, its identification counts up by one from
segment to segment, and a TCP segment's sequence number by the payload bytes before it (R151). -/
def Obligations.SendsAreQueued : Prop :=
    (∀ (s : State) (who : Role) (p q n : Nat) (v : Val) (k : Nat), k = (Reg.txqSendSegSize p q).key →
      (s.Accepts who k v .txqSend p q n → ∀ (u : State) (h : Nat) (l : List Byte), u = s.takes k n → h = blobNat (v.raw.take 4) →
        l = v.raw.drop 4 →
        (field h 30 1 = 1 → exec (.txqSendSet who p q v) s = .next (((u.setQueue p q (u.queue p q ++
          [{ frames := segments l (field h 29 1 == 1) (field h 0 14), space := l.length }])).txStart p).say .ok))
        ∧ (field h 30 1 = 0 → exec (.txqSendSet who p q v) s = .next (((u.setQueue p q (u.queue p q ++
          [{ frames := [{ bytes := l ++ List.replicate (60 - l.length) 0 }], space := l.length }])).txStart p).say .ok)))
      ∧ (s.on Reg.deviceStatusChipReady = true → s.catchUp = s → s.named k v = some (.txqSend, p, q, n) →
        ∀ st, s.judge who (itemOf k v) = st → st = .outOfRange ∨ st = .conflict ∨ st = .busy →
        exec (.txqSendSet who p q v) s = .next ((s.bump (Reg.portTxRefused p) 1).say st)))
  ∧ (∀ (l : List Byte) (tcp : Bool) (size a b o t h : Nat), segOk l tcp size a b = true → o = ipOff l →
      t = o + at_ l o 1 % 16 * 4 → h = t + (if tcp then at_ l (t + 12) 1 / 16 * 4 else 8) →
      (segments l tcp size).length = max 1 ((l.length - h + size - 1) / size)
      ∧ ∀ k, (hk : k < (segments l tcp size).length) → ∀ g part, g = ((segments l tcp size)[k]).bytes →
        part = ((l.drop h).drop (k * size)).take size →
        g.drop h = part ∧ g.take o = l.take o
        ∧ at_ g (o + 2) 2 = (h - o + part.length) % 65536
        ∧ at_ g (o + 4) 2 = (at_ l (o + 4) 2 + k) % 65536
        ∧ (tcp = true → at_ g (t + 4) 4 = (at_ l (t + 4) 4 + k * size) % 2 ^ 32)
        ∧ (tcp = false → at_ g (t + 4) 2 = (8 + part.length) % 65536))


/-! The stream engine. -/

/-- O39. RX_CTRL and TX_CTRL. With ENABLE 1 a context in OFF starts, or is armed where START_MODE says so; one that stops takes the
stop back, a receive context in STOPPING to RUN or UNDERRUN, one in HOLD again to WAIT or START (R189, R191 to R193). With ENABLE
0 a context ARMED goes to OFF, one in OFF stays, and one that runs begins to stop (R191, R192). That ENABLE 0 sends a transmit
context in START, for which R192 has no row, to STOPPING is log entry 51 (DEDUCED). The stream engine's times: a path without a
valid packet goes down, with event 0x4002 where it was up (R183, R197); a context in HOLD goes to OFF when STOP_HOLD has passed
(R191, R192); a pair of channels of PCM without a preamble for NA_HOLD loses its flags (R185); the hold-off of changes between RUN
and UNDERRUN ends with event 0x4001 where changes were held back (R198). -/
def Obligations.StreamSettings : Prop :=
    (∀ (s : State) (who : Role) (c : Nat) (v : Val) (n k : Nat) (u : State), u = s.takes k n →
      (k = (Reg.rxCtrlEnable c).key → s.Accepts who k v .rxCtrl c 0 n →
        (bit n 0 = true →
          (u.rxState c = 0 → bit n 1 = false → exec (.streamRxEnable who c v) s = .next ((u.rxStart c).say .ok))
          ∧ (u.rxState c = 0 → bit n 1 = true → exec (.streamRxEnable who c v) s = .next ((u.rxGo c 1).say .ok))
          ∧ (u.rxState c = 5 → bit (s.get k) 0 = false → ((u.rx c).here = true → exec (.streamRxEnable who c v) s = .next ((u.rxGo c 3).say .ok))
            ∧ ((u.rx c).here = false →
              exec (.streamRxEnable who c v) s = .next (((u.rxGo c 4).bump (Reg.rxRxUnderruns c) 1).say .ok)))
          ∧ (u.rxState c = 5 → bit (s.get k) 0 = true → exec (.streamRxEnable who c v) s = .next (u.say .ok))
          ∧ (u.rxState c = 6 → exec (.streamRxEnable who c v) s = .next ((u.rxGo c 2).say .ok))
          ∧ (1 ≤ u.rxState c → u.rxState c < 5 → exec (.streamRxEnable who c v) s = .next (u.say .ok)))
        ∧ (bit n 0 = false →
          (u.rxState c = 1 → exec (.streamRxDisable who c v) s = .next ((u.rxOff c).say .ok))
          ∧ (2 ≤ u.rxState c → u.rxState c < 5 → exec (.streamRxDisable who c v) s = .next ((u.rxGo c 5).say .ok))
          ∧ (u.rxState c = 0 ∨ u.rxState c = 5 ∨ u.rxState c = 6 → exec (.streamRxDisable who c v) s = .next (u.say .ok))))
      ∧ (k = (Reg.txCtrlEnable c).key → s.Accepts who k v .txCtrl c 0 n →
        (bit n 0 = true →
          (u.txState c = 0 → bit n 1 = false → exec (.streamTxEnable who c v) s = .next ((u.txStartGo c).say .ok))
          ∧ (u.txState c = 0 → bit n 1 = true → exec (.streamTxEnable who c v) s = .next ((u.txGo c 1).say .ok))
          ∧ (u.txState c = 4 → exec (.streamTxEnable who c v) s = .next ((u.txGo c 3).say .ok))
          ∧ (u.txState c = 5 → exec (.streamTxEnable who c v) s =
            .next (((u.setTx c { u.tx c with silent := 0, begun := false }).txGo c 2).say .ok))
          ∧ (1 ≤ u.txState c → u.txState c < 4 → exec (.streamTxEnable who c v) s = .next (u.say .ok)))
        ∧ (bit n 0 = false →
          (u.txState c = 1 → exec (.streamTxDisable who c v) s = .next ((u.txGo c 0).say .ok))
          ∧ (u.txState c = 2 ∨ u.txState c = 3 → exec (.streamTxDisable who c v) s = .next ((u.txGo c 4).say .ok))
          ∧ (u.txState c = 0 ∨ u.txState c = 4 ∨ u.txState c = 5 → exec (.streamTxDisable who c v) s = .next (u.say .ok)))))
  ∧ (∀ (s g : State) (c k path : Nat) (f : Fld), g = s.gather → f = (if path = 0 then Reg.rxStatusPathA c else Reg.rxStatusPathB c) →
      (s.on f = true → exec (.streamPathTimeout c path) s =
        .next ((s.wr f 0).post 0x4002 4 [pack [(0, c), (8, path), (9, 0)]]))
      ∧ (s.on f = false → exec (.streamPathTimeout c path) s = .next s)
      ∧ (s.txState c = 5 → exec (.streamHoldExpiry true c) s = .next (s.scatter ((g.txGo c 0).setTx c {})))
      ∧ (s.txState c ≠ 5 → exec (.streamHoldExpiry true c) s = .next s)
      ∧ (s.rxState c = 6 → exec (.streamHoldExpiry false c) s = .next (s.scatter (g.rxOff c)))
      ∧ (s.rxState c ≠ 6 → exec (.streamHoldExpiry false c) s = .next s)
      ∧ (∀ run hold : Nat, run = Sparse.get (fun _ => 0) (s.rx c).naRun k →
        hold = s.rd Reg.seCfgNaHold * s.domRate (s.rd (Reg.rxCtrlDomain c)) / 1000 →
        (s.rd (Reg.rxCtrlFormat c) = 3 ∨ run < hold → exec (.naHoldExpiry c k) s = .next s)
        ∧ (s.rd (Reg.rxCtrlFormat c) ≠ 3 → hold ≤ run → Completes (.naHoldExpiry c k) s fun t =>
          (2 * k + 1 < 64 → bit (t.rd (Reg.rxNaNa c)) (2 * k) = false ∧ bit (t.rd (Reg.rxNaNa c)) (2 * k + 1) = false)
          ∧ Sparse.get (fun _ => 0) (t.rx c).naRun k = 0 ∧ ∀ x, x ≠ (Reg.rxNaNa c).key → x ∉ lbKeys → t.get x = s.get x))
      ∧ ((s.rx c).hold.active = false → exec (.streamStateWindowEnd c) s = .next s)
      ∧ ((s.rx c).hold.active = true → (s.rx c).hold.count = 0 →
        exec (.streamStateWindowEnd c) s = .next (s.setRx c { s.rx c with hold := {} }))
      ∧ ((s.rx c).hold.active = true → (s.rx c).hold.count ≠ 0 →
        exec (.streamStateWindowEnd c) s = .next ((s.setRx c { s.rx c with hold := { active := true } }).post 0x4001 4
          [pack [(0, c), (8, s.rxState c), (12, (s.rx c).hold.info), (16, min (s.rx c).hold.count 0xFFFF)]])))
/-! The TDM ports. -/

/-- O40. SIDE_CTRL and MASK_COMMIT. With ENABLE 1 a side in OFF starts, or is armed where START_MODE says so, and one in TAIL
will go on; with ENABLE 0 one ARMED or in SYNC goes to OFF, one in LEAD or RUN to TAIL, and one in TAIL stays in it (R216, R217,
R219); then one decision is made on the Hearth's candidates, of which one may take the side's frame sync (R105, R224). A mask
commit applies at once in OFF, ARMED and SYNC; else it stands pending, unless none is and the shadow equals the active mask
(R212, R215). -/
def Obligations.TdmSettings : Prop :=
  ∀ (s : State) (who : Role) (p b : Nat) (v : Val) (n k : Nat) (u : State), u = s.takes k n →
    (k = (Reg.sideCtrlEnable p b).key → s.Accepts who k v .sideCtrl p b n → ∀ act : State → State,
      (bit n 0 = true → (∀ z : State,
        (u.sideState p b = 0 → u.on (Reg.sideCtrlStartMode p b) = false → act z = z.sideStart p b)
        ∧ (u.sideState p b = 0 → u.on (Reg.sideCtrlStartMode p b) = true → act z = z.sideGo p b 1)
        ∧ (u.sideState p b = 5 → act z = z.setSide p b { z.side p b with resume := true })
        ∧ (u.sideState p b ≠ 0 → u.sideState p b ≠ 5 → act z = z)) →
        exec (.tdmSideEnable who p b v) s = .next ((s.together fun z => (act (z.takes k n)).settleRefs).say .ok))
      ∧ (bit n 0 = false → (∀ z : State,
        (u.sideState p b = 0 → act z = z)
        ∧ (u.sideState p b = 1 ∨ u.sideState p b = 2 → act z = z.sideGo p b 0)
        ∧ (u.sideState p b = 5 → act z = z.setSide p b { z.side p b with resume := false })
        ∧ (3 ≤ u.sideState p b → u.sideState p b ≠ 5 → act z = z.sideGo p b 5)) →
        exec (.tdmSideDisable who p b v) s = .next ((s.together fun z => (act (z.takes k n)).settleRefs).say .ok)))
    ∧ (k = (Reg.maskCommitCmd p b).key → s.Accepts who k v .maskCommit p b n →
      ∀ m, m = u.get (Reg.slotMaskLane0 p b).key →
      (u.sideState p b < 3 → exec (.maskCommit who p b v) s = .next ((u.wr (Reg.maskActiveMask p b) m).say .ok))
      ∧ (3 ≤ u.sideState p b → (u.side p b).commit ≠ none ∨ m ≠ u.rd (Reg.maskActiveMask p b) →
        exec (.maskCommit who p b v) s = .next
          (((u.wr (Reg.sideStatusCommitPending p b) 1).setSide p b { u.side p b with commit := some m }).say .ok))
      ∧ (3 ≤ u.sideState p b → (u.side p b).commit = none → m = u.rd (Reg.maskActiveMask p b) →
        exec (.maskCommit who p b v) s = .next (u.say .ok)))

/-- O41. A frame that begins on a side in LEAD, RUN or TAIL: a pending commit applies; the frame is counted in RUN, LOCKED reads 1,
and the data of the frame follow (R209, R212, R213, R216). That with CLK_LEAD 0 the frame of LEAD is counted and has its data too
is log entry 18 (DEDUCED). On a transmit lane each slot's value stands in its bit periods, most significant bit first, also those
that fall into the frames after (R202 to R204). TDM_FRAME_START. In OFF and ARMED, and on a master in a domain that does not run,
nothing happens. A master's frame starts where its own clocks bring it, a slave's at the RC count and quarter given (R208, R209).
In SYNC the ended frame is judged and the one that begins is kept; in the other states the frame begins. A looped receive side
ignores the frame start edges of its own balls; it has the transmit side's instead, a slave's also while that side is OFF or
ARMED, with the transmit side's values on its lanes (R444, R445). -/
def Obligations.FramesBegin : Prop :=
    (∀ (w y x : State) (p b e : Nat) (words late : List Nat),
      (y = w.applyCommit p b → y.sideState p b ≠ 5 ∨ (y.side p b).resume = false →
        ∀ run, run = decide (y.sideState p b = 4 ∨ (y.sideState p b = 3 ∧ y.rd (Reg.sideTimingClkLead p b) = 0)) →
        x = (if run then y.bump (Reg.sideFrames p b) 1 else y).wr (Reg.sideStatusLocked p b) 1 →
        w.frameBegin p b e words late = (x.setSide p b { x.side p b with
          begun := (x.side p b).begun + 1, data := run, nextFrame := (x.side p b).nextFrame + 1 }).sideData
            p b e (w.rd (Reg.maskActiveMask p b)) words late)
      ∧ (∀ (ctrl : Nat) (l : List Nat) (lane k j : Nat), vcSideCtrl ctrl = true → k < field ctrl 17 6 → j < field ctrl 11 6 →
        slotBits ctrl l lane (slotStart ctrl k + j) = bit (l.getD (32 * lane + k) 0) (31 - j))
      ∧ ∀ (lane i f : Nat), f = frameBclks (w.rd (Reg.sideCtrlFrameCode p 0)) →
        (w.laneDriven p lane = true → i < f → ∀ ctrl, ctrl = w.get (Reg.sideCtrlEnable p 0).key →
          (w.laneOut p lane i = some true ↔ slotBits ctrl (w.side p 0).vals lane i = true
            ∨ ∃ j, ∃ h : j < (w.side p 0).prev.length, slotBits ctrl ((w.side p 0).prev[j]) lane (i + (j + 1) * f) = true))
        ∧ (w.laneDriven p lane = false → w.laneOut p lane i = none))
  ∧ (∀ (s g a : State) (p b q e count quarter bclks : Nat) (words lane0 lane1 late : List Nat),
      g = s.gather → q = 4 * count + quarter → words = laneWords lane0 lane1 →
      a = g.advance (s.frameStart p b q / 4) → e = a.frameStart p b q →
      (b = 1 → 2 ≤ s.rd (Reg.tdmLoopMode p) → exec (.tdmFrameStart p b count quarter bclks lane0 lane1 late) s = .next s)
      ∧ (s.sideState p b < 2 →
        b ≠ 0 ∨ s.on (Reg.sideCtrlMaster p b) = true ∨ s.rd (Reg.tdmLoopMode p) < 2 ∨ s.sideState p 1 < 2 →
        exec (.tdmFrameStart p b count quarter bclks lane0 lane1 late) s = .next s)
      ∧ (s.sideState p 0 < 2 → s.on (Reg.sideCtrlMaster p 0) = false → 2 ≤ s.rd (Reg.tdmLoopMode p) → 2 ≤ s.sideState p 1 →
        exec (.tdmFrameStart p 0 count quarter bclks lane0 lane1 late) s =
          .next (s.scatter ((g.advance count).loopEdge p bclks q words late)))
      ∧ (b = 0 ∨ s.rd (Reg.tdmLoopMode p) < 2 → 2 ≤ s.sideState p b → s.frameRuns p b = false →
        exec (.tdmFrameStart p b count quarter bclks lane0 lane1 late) s = .next s)
      ∧ (b = 0 ∨ s.rd (Reg.tdmLoopMode p) < 2 → 2 ≤ s.sideState p b → s.frameRuns p b = true →
        (s.on (Reg.sideCtrlMaster p b) = true → 4 * a.rc + 3 < e →
          exec (.tdmFrameStart p b count quarter bclks lane0 lane1 late) s = .next (s.scatter a))
        ∧ (s.on (Reg.sideCtrlMaster p b) = false ∨ e ≤ 4 * a.rc + 3 →
          ∀ w n, w = a.sideEdge p b bclks e words late →
          n = (if s.on (Reg.sideCtrlMaster p b) = true then frameBclks (w.rd (Reg.sideCtrlFrameCode p 0)) else bclks) →
          exec (.tdmFrameStart p b count quarter bclks lane0 lane1 late) s =
            .next (s.scatter (if b = 0 then w.loopEdge p n e words late else w))))
      ∧ (∀ x z : State, x = z.sideJudge p b bclks e → ∀ w, w = x.setSide p b { x.side p b with last := some e } →
        (w.sideState p b = 2 → z.sideEdge p b bclks e words late =
          w.setSide p b { w.side p b with frames := [{ start := e, live := false, mask := 0, words := words }] })
        ∧ (w.sideState p b ≠ 2 → z.sideEdge p b bclks e words late = w.frameBegin p b e words late))
      ∧ ∀ z : State, (2 ≤ z.rd (Reg.tdmLoopMode p) → 2 ≤ z.sideState p 1 → z.loopEdge p bclks e words late =
          z.sideEdge p 1 bclks e ((List.range 64).map fun i =>
            if z.rd (Reg.tdmLoopMode p) = 2 ∨ z.laneDriven p (i / 32) = true then (z.side p 0).vals.getD i 0 else words.getD i 0) late)
        ∧ (z.rd (Reg.tdmLoopMode p) < 2 ∨ z.sideState p 1 < 2 → z.loopEdge p bclks e words late = z))

/-- O42. A TDM side's own changes: a slave in SYNC with four good frames locks and begins LEAD with its pairing chosen; that the
frame that locks is the first of LEAD, with its data where CLK_LEAD is 0, is log entry 18 (DEDUCED). One that has lost its
clocks, by four frame errors in a row or with RC four nominal frame periods past its last edge, goes back to SYNC, or in TAIL to
OFF, from where it makes the full start if its stop was cancelled, counted (R209, R216, R219). LEAD ends in RUN and TAIL in OFF
when their frames have begun, one at least (R216; the counting at frame edges is log entry 18). The slip hold-off ends with
event 0x5002 where slips were held back (R227, R475). In other states each does nothing. -/
def Obligations.TdmSides : Prop :=
  ∀ (s g : State) (p b kind : Nat) (silent : Bool) (h : Hold), g = s.gather →
    h = Sparse.get (fun _ => {}) s.tdm.holds ((p * 2 + b) * 4 + kind) →
    (s.sideState p b = 2 → s.on (Reg.sideCtrlMaster p b) = false → 4 ≤ (s.side p b).good →
      ∀ u w, u = ((g.sideGo p b 3).pair_ p b).wr (Reg.sideStatusLocked p b) 1 →
        w = (u.bumpIf (u.rd (Reg.sideTimingClkLead p b) == 0) (Reg.sideFrames p b)) →
        ∀ y, y = w.setSide p b { w.side p b with begun := 1, data := u.rd (Reg.sideTimingClkLead p b) == 0 } →
        exec (.tdmSlaveLock p b) s = .next (s.scatter (y.sideData p b ((y.side p b).last.getD 0) (y.rd (Reg.maskActiveMask p b))
          (((s.side p b).frames.getLast?.map (·.words)).getD []) [])))
    ∧ (s.sideState p b ≠ 2 ∨ s.on (Reg.sideCtrlMaster p b) = true ∨ (s.side p b).good < 4 →
      exec (.tdmSlaveLock p b) s = .next s)
    ∧ (∀ z : State, z.lockGone p b = true ↔ 4 ≤ (z.side p b).badRun
      ∨ ∃ q, (z.side p b).last = some q ∧ q + ceilDiv 8000000000 ((z.portRate p).getD 48000) ≤ 4 * z.rc + 3)
    ∧ (3 ≤ s.sideState p b → s.on (Reg.sideCtrlMaster p b) = false →
      ∀ a l, a = (if silent = true then g.advance ((s.silentAt p b).getD 0 / 4) else g) → l = a.bump (Reg.sideLockLoss p b) 1 →
      (a.lockGone p b = false → exec (.tdmSlaveLockLoss p b silent) s = .next (s.scatter a))
      ∧ (a.lockGone p b = true → a.sideState p b ≠ 5 →
        exec (.tdmSlaveLockLoss p b silent) s = .next (s.scatter (l.sideGo p b 2).settleRefs))
      ∧ (a.lockGone p b = true → a.sideState p b = 5 → ∀ o, o = l.sideGo p b 0 →
        ((a.side p b).resume = false ∨ o.sideStartOk p b (o.get (Reg.sideCtrlEnable p b).key) = false →
          exec (.tdmSlaveLockLoss p b silent) s = .next (s.scatter o.settleRefs))
        ∧ ((a.side p b).resume = true → o.sideStartOk p b (o.get (Reg.sideCtrlEnable p b).key) = true →
          exec (.tdmSlaveLockLoss p b silent) s = .next (s.scatter (applySideCtrl o p b).settleRefs))))
    ∧ (s.sideState p b < 3 ∨ s.on (Reg.sideCtrlMaster p b) = true → exec (.tdmSlaveLockLoss p b silent) s = .next s)
    ∧ (s.sideState p b = 3 → max 1 (s.rd (Reg.sideTimingClkLead p b)) ≤ (s.side p b).begun →
      exec (.tdmLeadEnd p b) s = .next (s.scatter (g.sideGo p b 4)))
    ∧ (s.sideState p b ≠ 3 ∨ (s.side p b).begun < max 1 (s.rd (Reg.sideTimingClkLead p b)) →
      exec (.tdmLeadEnd p b) s = .next s)
    ∧ (s.sideState p b = 5 → (s.side p b).resume = false → max 1 (s.rd (Reg.sideTimingClkTail p b)) ≤ (s.side p b).begun →
      exec (.tdmTailEnd p b) s = .next (s.scatter (g.sideGo p b 0).settleRefs))
    ∧ (s.sideState p b ≠ 5 ∨ (s.side p b).resume = true ∨ (s.side p b).begun < max 1 (s.rd (Reg.sideTimingClkTail p b)) →
      exec (.tdmTailEnd p b) s = .next s)
    ∧ (∀ u, u = { s with tdm := { s.tdm with holds := Sparse.put (fun _ => {}) s.tdm.holds ((p * 2 + b) * 4 + kind) h.lapse.1 } } →
      (h.active = true → h.count ≠ 0 → exec (.tdmSlipWindowEnd p b kind) s =
        .next (u.post 0x5002 3 [pack [(0, p), (6, b), (8, kind), (16, min h.count 0xFFFF)]]))
      ∧ (h.count = 0 → exec (.tdmSlipWindowEnd p b kind) s = .next u))

/-! The converters. -/

/-- O43. The converters: ENABLE 1 of one that is OFF starts its measurement, ENABLE 0 sends it to OFF (R233). With 256 edges of
the slower side measured, a ratio within 1/8 to 8 brings SETTLE with D set, any other acquires again with cause 3 (R232, R233,
R235); at their times the loop narrows in SETTLE, and one that is narrow and has been calm locks; a side without an edge for 4
nominal periods, up to which RC has come, acquires again with its cause (R233); the limit on postings ends with event 0x6001
where changes were held back (R240, R475). In other states each does nothing. The blocks of 256 edges and the instants of NARROW
and LOCK are log entry 17 (DESIGN CHOICE), the rounding of D log entry 16 and its phase log entry 34 (DEDUCED). -/
def Obligations.Converters : Prop :=
  ∀ (s w : State) (c ratio phi due : Nat) (out : Bool),
    (∀ who v n k u, k = (Reg.asrcCfgEnable c).key → s.Accepts who k v .asrcCfg c 0 n → u = s.takes k n →
      (bit n 0 = true → u.on (Reg.asrcCfgEnable c) = true →
        (u.convState c = 0 → exec (.asrcEnable who c v) s = .next ((u.convAcquire c 0).say .ok))
        ∧ (u.convState c ≠ 0 → exec (.asrcEnable who c v) s = .next (u.say .ok)))
      ∧ (bit n 0 = false → u.on (Reg.asrcCfgEnable c) = false →
        exec (.asrcDisable who c v) s = .next ((u.convOff c).say .ok)))
    ∧ (∀ x, x = s.conv c → w = s.putRatio c x.ratio →
      (s.convState c = 1 → x.measured = true → x.ratio < 2 ^ 57 ∨ 2 ^ 63 < x.ratio →
        exec (.asrcAcquireDone c ratio phi) s = .next (w.convAcquire c 3))
      ∧ (s.convState c = 1 → x.measured = true → 2 ^ 57 ≤ x.ratio → x.ratio ≤ 2 ^ 63 →
        exec (.asrcAcquireDone c ratio phi) s = .next ((((w.setConv c { x.renew x.outPeriod with
          delay := x.newDelay, pos := x.outSide.last - x.newDelay, err := 0, calm := none, settled := 4 * s.rc }).wr
            (Reg.asrcDelayD c) (nearest (x.newDelay.toNat, 131072))).wr (Reg.asrcStatusNarrow c) 0).convGo c 2))
      ∧ (s.convState c ≠ 1 ∨ x.measured = false → exec (.asrcAcquireDone c ratio phi) s = .next s))
    ∧ (s.convState c = 2 → s.on (Reg.asrcStatusNarrow c) = false →
      due = (s.conv c).settled + 40000000000000 / s.convBw c → w = s.advance ((due + 3) / 4) →
      (due ≤ 4 * w.rc → exec (.asrcNarrow c) s = .next (w.wr (Reg.asrcStatusNarrow c) 1))
      ∧ (4 * w.rc < due → exec (.asrcNarrow c) s = .next w))
    ∧ (s.convState c ≠ 2 ∨ s.on (Reg.asrcStatusNarrow c) = true → exec (.asrcNarrow c) s = .next s)
    ∧ (∀ t, s.convState c = 2 → (s.conv c).calm = some t →
      due = t + 8000000000000 / s.convBw c → w = s.advance ((due + 3) / 4) →
      (due ≤ 4 * w.rc → exec (.asrcLock c) s = .next (w.convGo c 3))
      ∧ (4 * w.rc < due → exec (.asrcLock c) s = .next w))
    ∧ (s.convState c ≠ 2 ∨ (s.conv c).calm = none → exec (.asrcLock c) s = .next s)
    ∧ (s.convState c ≠ 0 → ∀ m : Meter, m = (if out = true then (s.conv c).outSide else (s.conv c).inSide) →
      due = (if m.n = 0 then (s.conv c).settled else m.last.toNat / 65536) + ceilDiv 8000000000 (s.convRate c out) →
      w = s.advance ((due + 3) / 4) →
      (due ≤ 4 * w.rc → exec (.asrcEdgeTimeout c out) s = .next (w.convAcquire c (if out = true then 2 else 1)))
      ∧ (4 * w.rc < due → exec (.asrcEdgeTimeout c out) s = .next w))
    ∧ (s.convState c = 0 → exec (.asrcEdgeTimeout c out) s = .next s)
    ∧ (∀ h, h = (s.conv c).hold →
      (h.active = true → h.count ≠ 0 → exec (.asrcEventWindowEnd c) s =
        .next ((s.setConv c { s.conv c with hold := h.lapse.1 }).post 0x6001 4
          [pack [(0, c), (8, s.convState c), (12, h.info), (16, s.rd (Reg.asrcStatusCause c))]]))
      ∧ (h.count = 0 → exec (.asrcEventWindowEnd c) s = .next (s.setConv c { s.conv c with hold := h.lapse.1 })))

/-! The Hall. -/

/-- O44. The Hall's settings. GAIN writes one crosspoint of its tile's shadow bank, marks the tile dirty, and touches neither another
crosspoint nor what any crosspoint mixes with; TILE_SHADOW replaces the whole shadow bank and clears SHADOW_BAD (R249). TILE_CMD 1
of a tile READY and dirty swaps its banks at the next tick with a crossfade of 16 x 2^FADE ticks, of one FAILED without one, and at
once where the Hall does not run; TILE_CMD 2 starts a COPY of a dirty tile (R249, R250). HALL_COMMIT does as TILE_CMD 1 to every
dirty tile (R250). That DIRTY falls at the acknowledgement also for a tile FAILED is log entry 19 (DEDUCED). A HALL_CFG that moves the
Hall clears what it presents (R241, R258). -/
def Obligations.HallSettings : Prop :=
  ∀ (s u : State) (who : Role) (t : Nat) (v : Val) (n k : Nat), u = s.takes k n →
    (k = (Reg.gainG t).key → s.Accepts who k v .gain t 0 n → n < 2 ^ 24 → Completes (.gainSet who t v) s fun w =>
      w = (applyGain s t n).say .ok ∧ w.gain t = n ∧ (w.tile (xpointTile t).1).dirty = true
      ∧ (∀ y < 2 ^ 20, t < 2 ^ 20 → y ≠ t → w.gain y = s.gain y) ∧ (∀ y, w.gainActive y = s.gainActive y) ∧ w.regs = s.regs)
    ∧ (k = (Reg.tileShadowImage t).key → s.Accepts who k v .tileShadow t 0 n → v.raw.length = 3072 →
      Completes (.tileShadowSet who t v) s fun w => w = (applyTileShadow s t v.raw).say .ok
        ∧ (∀ q < 1024, ((w.tile t).bank (w.tile t).shadow).read q = beNat ((v.raw.drop (3 * q)).take 3))
        ∧ (w.tile t).dirty = true ∧ (w.tile t).shadowBad = false ∧ (∀ y ≠ t, w.tile y = s.tile y))
    ∧ (k = (Reg.tileCmdOp t).key → s.Accepts who k v .tileCmd t 0 n →
      (field n 0 2 = 1 →
        ((u.tile t).state = 0 → (u.tile t).dirty = false → exec (.tileCommit who t v) s = .next (u.say .ok))
        ∧ (u.hallRuns = true → (u.tile t).state = 0 → (u.tile t).dirty = true → exec (.tileCommit who t v) s =
          .next ((u.setTile t { u.tile t with state := 1, dirty := false, fade := 16 * 2 ^ field n 2 2, gone := 0, swap := true }).say .ok))
        ∧ (u.hallRuns = true → (u.tile t).state ≠ 0 → exec (.tileCommit who t v) s =
          .next ((u.setTile t { u.tile t with swap := true, dirty := false }).say .ok))
        ∧ (u.hallRuns = false → (u.tile t).state ≠ 0 ∨ (u.tile t).dirty = true → exec (.tileCommit who t v) s =
          .next (((u.swapBanks t).setTile t { (u.swapBanks t).tile t with state := 2, dirty := false, refresh := false }).say .ok)))
      ∧ (field n 0 2 = 2 →
        ((u.tile t).state = 0 → (u.tile t).dirty = true → exec (.tileRevert who t v) s =
          .next ((u.setTile t { u.tile t with state := 2, refresh := false }).say .ok))
        ∧ ((u.tile t).dirty = false → exec (.tileRevert who t v) s = .next (u.say .ok))))
    ∧ (k = Reg.hallCommitFade.key → s.Accepts who k v .hallCommit 0 0 n →
      exec (.hallCommit who v) s = .next ((u.each u.dirtyTiles fun w t => w.commitTile t (field n 0 2)).say .ok))
    ∧ (k = Reg.hallCfgDomainValid.key → s.Accepts who k v .hallCfg 0 0 n →
      (field n 0 3 = field (s.get k) 0 3 → exec (.hallCfgSet who v) s = .next (u.say .ok))
      ∧ (field n 0 3 ≠ field (s.get k) 0 3 → exec (.hallCfgSet who v) s =
        .next ({ u with hall := { u.hall with out := [], next := [], acc := [], left := [], rest := none } }.say .ok)))

/-- O45. What ends in the Hall. A COPY that has read an active bank that passes leaves the tile READY and clean, its shadow bank
a copy, and one that fails leaves it FAILED with SHADOW_BAD; a REPAIR that has read a shadow bank that passes makes the tile
READY again, counted and reported, and one that fails leaves it FAILED (R249, R254, R478). The hold-offs end with events 0x9001
and 0x9003 where failures or saturations were held back (R260, R475). -/
def Obligations.HallEndings : Prop :=
  ∀ (s u : State) (t : Nat) (damage : List HallHit) (x : Tile), u = s.gather.hallDamages damage → x = u.tile t →
    ((∀ w, u.hallTest = some w → w.cur ≠ some t) →
      (x.state = 2 → (x.bank x.active).passes t x.active = true → Completes (.tileCopyDone t damage) s fun w =>
        w.tile t = { x.setBank x.shadow (x.bank x.active).copyOf with
          state := 0, dirty := false, shadowBad := false, lastFail := false, refresh := false }
        ∧ (x.refresh = false → w.lb = (s.scatter u).lb ∧ w.regs = u.regs))
      ∧ (x.state = 2 → (x.bank x.active).passes t x.active = false → Completes (.tileCopyDone t damage) s fun w =>
        (w.tile t).state = 4 ∧ (w.tile t).shadowBad = true ∧ (w.tile t).dirty = true ∧ (w.tile t).active = x.active)
      ∧ (x.state = 3 → (x.bank x.shadow).passes t x.shadow = true → exec (.tileCopyDone t damage) s =
        .next (s.scatter (((u.setTile t { x.setBank x.active (x.bank x.shadow).copyOf with state := 0 }).bump Reg.hallRepairs 1).post
          0x9002 4 [pack [(0, t)]])))
      ∧ (x.state = 3 → (x.bank x.shadow).passes t x.shadow = false → Completes (.tileCopyDone t damage) s fun w =>
        (w.tile t).state = 4)
      ∧ (x.state ≠ 2 → x.state ≠ 3 → exec (.tileCopyDone t damage) s = .next (s.scatter u)))
    ∧ (∀ w, u.hallTest = some w → w.cur = some t → exec (.tileCopyDone t damage) s = .next (s.scatter u))
    ∧ (∀ h : Hold, h = Sparse.get (fun _ => {}) s.hall.holds t →
      ∀ w, w = { s with hall := { s.hall with holds := Sparse.put (fun _ => {}) s.hall.holds t h.lapse.1 } } →
      (h.active = true → h.count ≠ 0 →
        exec (.hallCsumWindowEnd t) s = .next (w.post 0x9001 6 [h.info + min h.count 0xFFFF * 2 ^ 16]))
      ∧ (h.count = 0 → exec (.hallCsumWindowEnd t) s = .next w))
    ∧ (s.hall.satHold.active = true → s.hall.satHold.count ≠ 0 → exec .hallSatWindowEnd s =
      .next ({ s with hall := { s.hall with satHold := { active := true, info := s.hall.satHold.info } } }.post 0x9003 3
        [pack [(0, s.hall.satHold.info), (16, min s.hall.satHold.count 0xFFFF)]]))
    ∧ (s.hall.satHold.count = 0 → exec .hallSatWindowEnd s = .next { s with hall := { s.hall with satHold := {} } })

/-! The rooms. -/

/-- O46. What the host does to a room. ENABLE 1 starts one in OFF (R291); ENABLE 0 stops one in RUN that has run a block, sends to OFF
one that has run none, one ARMED and one in FAULT, whatever ENABLE read (R289, R291, R293). A ROOM_LOAD is written at once, and word i
of it reads so, or waits for END where a block runs, counted (R296). ROOM_CMD 1 clears every register and ICTL and leaves the
memories, and is a conflict unless the room is OFF or FAULT (R298). A word for the mailbox reads as sent and is pending, one that was
still pending being counted (R286). SKIP_LIMIT skipped triggers in a row are a FAULT (R289). An interrupt that is due is taken: the pc
goes to IVEC, IPC keeps it, and the handler's register set is in use (R282). -/
def Obligations.RoomsAndTheHost : Prop :=
  ∀ (s u : State) (who : Role) (r : Nat) (v : Val) (n k : Nat), u = s.takes k n →
    (k = (Reg.roomCtrlEnable r).key → s.Accepts who k v .roomCtrl r 0 n →
      (bit n 0 = true → u.on (Reg.roomCtrlEnable r) = true →
        (bit (s.get k) 0 = false → u.roomState r = 0 → exec (.roomEnable who r v) s = .next ((u.roomStart r).say .ok))
        ∧ (bit (s.get k) 0 = true ∨ u.roomState r ≠ 0 → exec (.roomEnable who r v) s = .next (u.say .ok)))
      ∧ (bit n 0 = false → u.on (Reg.roomCtrlEnable r) = false →
        (u.roomState r = 4 → exec (.roomDisable who r v) s = .next ((u.roomGo r 0).say .ok))
        ∧ (bit (s.get k) 0 = false → u.roomState r ≠ 4 → exec (.roomDisable who r v) s = .next (u.say .ok))
        ∧ (bit (s.get k) 0 = true →
          (u.roomState r = 2 → (u.room r).started = true → exec (.roomDisable who r v) s = .next ((u.roomGo r 3).say .ok))
          ∧ (u.roomState r = 2 → (u.room r).started = false → exec (.roomDisable who r v) s =
            .next (((u.setRoom r { u.room r with waiting := false }).roomGo r 0).say .ok))
          ∧ (u.roomState r = 1 → exec (.roomDisable who r v) s = .next ((u.roomGo r 0).say .ok))
          ∧ (u.roomState r = 0 ∨ u.roomState r = 3 → exec (.roomDisable who r v) s = .next (u.say .ok)))))
    ∧ (k = (Reg.roomLoadSpace r).key → s.Accepts who k v .roomLoad r 0 n →
      ((u.room r).block = true → u.roomState r = 2 ∨ u.roomState r = 3 → exec (.roomLoadSet who r v) s =
        .next (((u.bumpRoom r Reg.roomHostDeferred).setRoom r
          { u.room r with loads := (u.room r).loads ++ [roomLoadOf v.raw] }).say .ok))
      ∧ ((u.room r).block = false → Completes (.roomLoadSet who r v) s fun t =>
        (t.room r).core = (u.room r).writeLoads.core.load (roomLoadOf v.raw) ∧ (t.room r).loads = []
        ∧ (∀ i < (roomLoadOf v.raw).words.length, ∀ a, a = (roomLoadOf v.raw).addr + i →
          Sparse.get (fun _ => 0) (match (roomLoadOf v.raw).space with
            | 0 => (t.room r).core.p | 1 => (t.room r).core.x | _ => (t.room r).core.y) a = (roomLoadOf v.raw).words.getD i 0)
        ∧ (∀ q ≠ r, t.room q = s.room q)))
    ∧ ((s.room r).block = true → exec (.roomLoadDeferredWrite r) s = .next s)
    ∧ ((s.room r).block = false → exec (.roomLoadDeferredWrite r) s =
      .next ((s.setRoom r (s.room r).writeLoads).guestLoad r (s.room r).loads))
    ∧ (k = (Reg.roomCmdCmd r).key → s.Accepts who k v .roomCmd r 0 n → n = 1 → Completes (.roomCmdClear who r v) s fun t =>
      (∀ j, (t.room r).core.raw j = 0) ∧ (t.room r).core.inIrq = false ∧ (t.room r).core.mboxPend = false
      ∧ (t.room r).core.p = (s.room r).core.p ∧ (t.room r).core.x = (s.room r).core.x
      ∧ (t.room r).core.y = (s.room r).core.y ∧ (∀ q ≠ r, t.room q = s.room q))
    ∧ (s.roomState r ≠ 0 → s.roomState r ≠ 4 → ∀ key m raw, s.entState .roomCmd r 0 key m raw = .conflict)
    ∧ (k = (Reg.roomMboxInWord r).key → s.Accepts who k v .roomMboxIn r 0 n → Completes (.roomMboxInSet who r v) s fun t =>
      (t.room r).core = { (s.room r).core with mbi := n, mboxPend := true } ∧ (∀ q ≠ r, t.room q = s.room q)
      ∧ t.rd (Reg.roomMboxOverwrite r) =
        min (u.rd (Reg.roomMboxOverwrite r) + b2n (s.room r).core.mboxPend) (2 ^ (Reg.roomMboxOverwrite r).w - 1))
    ∧ ((s.roomState r = 2 ∨ s.roomState r = 3) → s.rd (Reg.roomCtrlSkipLimit r) ≤ (s.room r).skips →
      exec (.roomFault r) s = .next (s.scatter (s.gather.roomFault r)))
    ∧ (s.roomState r < 2 ∨ 3 < s.roomState r ∨ (s.room r).skips < s.rd (Reg.roomCtrlSkipLimit r) →
      exec (.roomFault r) s = .next s)
    ∧ (s.roomLive r = true → s.roomIrq r = true → Completes (.interruptEntry r) s fun t =>
      (t.room r).core.pc = s.rd (Reg.roomEntryIvec r) ∧ (t.room r).core.raw 0x35 = (s.room r).core.pc
      ∧ (t.room r).core.inIrq = true ∧ (t.room r).core.swi = false
      ∧ (∀ e, e ≠ 0x35 → (t.room r).core.raw e = (s.room r).core.raw e) ∧ (∀ q ≠ r, t.room q = s.room q))
    ∧ (s.roomLive r = false ∨ s.roomIrq r = false → exec (.interruptEntry r) s = .next s)

/-- O47. A room's control instructions and moves, each where it is the legal one at the pc: BRA, CALL and RET branch where their
condition holds, CALL pushing the address behind its delay slots and RET popping one (R311 to R313); RTI continues at IPC
(R282); DBNZ lowers a pointer and branches where it is not 0 then; REP repeats a body, 0 counting as 4096 (R279, R311); SWI
makes the interrupt pending (R285); an illegal one acts as NOP, sets ILL and counts (R277, R318); END ends the block (R287). A
command that is not the instruction at the pc does nothing. -/
def Obligations.RoomControl : Prop :=
  ∀ (s : State) (r : Nat) (rm : Room), rm = s.room r →
    (s.roomReady r .nop = some .nop → exec (.nop r) s = .next (s.roomDone r (rm.next none none) []))
    ∧ (∀ cond t, s.roomReady r .bra = some (.bra cond t) → exec (.bra r) s =
      .next (s.roomDone r (rm.next (some (if s.roomCond r cond then some t else none, false)) none) []))
    ∧ (∀ cond t, s.roomReady r .call = some (.call cond t) →
      (s.roomCond r cond = true → exec (.call r) s = .next (s.roomDone r (Room.next { rm with core := { rm.core with
        stack := (rm.core.pc + 3) % 8192 :: rm.core.stack } } (some (some t, false)) none) []))
      ∧ (s.roomCond r cond = false → exec (.call r) s = .next (s.roomDone r (rm.next (some (none, false)) none) [])))
    ∧ (∀ cond, s.roomReady r .ret = some (.ret cond) →
      (s.roomCond r cond = true → exec (.ret r) s = .next (s.roomDone r (Room.next { rm with core := { rm.core with
        stack := rm.core.stack.drop 1 } } (some (rm.core.stack.head?, false)) none) []))
      ∧ (s.roomCond r cond = false → exec (.ret r) s = .next (s.roomDone r (rm.next (some (none, false)) none) [])))
    ∧ (s.roomReady r .rti = some .rti → exec (.rti r) s =
      .next (s.roomDone r (rm.next (some (some (rm.core.read 0x35 .control), true)) none) []))
    ∧ (∀ i t p, s.roomReady r .dbnz = some (.dbnz i t) → p = (rm.core.read (0x10 + i) .address + 16383) % 16384 →
      exec (.dbnz r) s = .next (s.roomDone r (Room.next { rm with core := rm.core.write (0x10 + i) p .postUpdate }
        (some (if p = 0 then none else some t, false)) none) []))
    ∧ (∀ body i n, (s.roomReady r .rep = some (.repImm body i) ∧ n = i)
        ∨ (∃ e, s.roomReady r .rep = some (.repReg body e)
          ∧ n = if e < 8 then rm.core.read (rm.core.key e) .operand else rm.core.read e .address) →
      exec (.rep r) s = .next (s.roomDone r (rm.next none (some
        { start := (rm.core.pc + 1) % 8192, body := body, left := (if n % 4096 = 0 then 4096 else n % 4096), pos := 0 })) []))
    ∧ (s.roomReady r .swi = some .swi → exec (.swi r) s =
      .next (s.roomDone r (Room.next { rm with core := { rm.core with swi := true } } none none) []))
    ∧ (∀ c op, (c, op) ∈ [(Instr.parallelMove r, RoomOp.par), (.longMove r, .long), (.ldi r, .ldi), (.move r, .move)] →
      (∀ i, s.roomReady r op = some i → exec c s = .next (s.roomData r i {} fun _ => {}))
      ∧ (s.roomReady r op = none → exec c s = .next s))
    ∧ (∀ c op, (c, op) ∈ [(Instr.nop r, RoomOp.nop), (.bra r, .bra), (.call r, .call), (.ret r, .ret), (.rti r, .rti), (.dbnz r, .dbnz),
        (.rep r, .rep), (.swi r, .swi)] → s.roomReady r op = none → exec c s = .next s)
    ∧ (∀ w u, u = s.gather.setRoom r (rm.next none none) → s.roomReady r .endBlock = some .endBlock →
      (s.dwOn r = false → exec (.endBlock r w) s = .next (s.scatter (u.roomEnd r rm.core.pc w)))
      ∧ (∀ t, s.dw = some t → t.room = r → exec (.endBlock r w) s = .next (s.scatter (u.dwEnd t rm.core.pc w))))
    ∧ (∀ w, s.roomReady r .endBlock = none → exec (.endBlock r w) s = .next s)
    ∧ (s.roomFetching r = true → rm.legal (s.roomIo r) = none →
      ((∀ t, rm.illAt = some t → s.rc < t + 50000000) → rm.illAt ≠ none → exec (.illegalInstruction r) s =
        .next (((s.wr (Reg.roomStatusIll r) 1).bumpRoom r Reg.roomIllCount).roomDone r (rm.next none none) []))
      ∧ (rm.illAt = none ∨ (∃ t, rm.illAt = some t ∧ t + 50000000 ≤ s.rc) → exec (.illegalInstruction r) s =
        .next ((((s.wr (Reg.roomStatusIll r) 1).bumpRoom r Reg.roomIllCount).post 0xA002 5 [pack [(0, r), (16, rm.core.pc)]]).roomDone r
          (Room.next { rm with illAt := if s.threshold 0xA002 ≤ 5 then some s.rc else rm.illAt } none none) [])))
    ∧ (s.roomFetching r = false ∨ rm.legal (s.roomIo r) ≠ none → exec (.illegalInstruction r) s = .next s)

/-- The arithmetic rows of a room: the command, its operation code, and its effect on an accumulator and the flags as R314 gives
it. -/
def ArithRows (r : Nat) (c : Instr) (op : Nat) (f : ArithIn → ArithOut) : Prop :=
  (c, op, f) ∈ [
    (Instr.mpy r, 0x01, fun i => accWrite i (product i) false), (.mpyn r, 0x02, fun i => accWrite i (-product i) false),
    (.mac r, 0x03, fun i => accWrite i (accVal i.ad + product i) (carryOf i.ad (product i))),
    (.macn r, 0x04, fun i => accWrite i (accVal i.ad - product i) (borrowOf i.ad (product i))),
    (.mpyi r, 0x05, fun i => accWrite i (sext 32 i.a * sext 32 i.b) false),
    (.lda r, 0x06, fun i => accWrite i (sext 32 i.a * 2 ^ 32) false), (.cpa r, 0x07, fun i => accWrite i (accVal i.ao) false),
    (.add r, 0x08, fun i => accWrite i (accVal i.ad + accOf i.a) (carryOf i.ad (accOf i.a))),
    (.sub r, 0x09, fun i => accWrite i (accVal i.ad - accOf i.a) (borrowOf i.ad (accOf i.a))),
    (.adda r, 0x0A, fun i => accWrite i (accVal i.ad + accVal i.ao) (carryOf i.ad (accVal i.ao))),
    (.suba r, 0x0B, fun i => accWrite i (accVal i.ad - accVal i.ao) (borrowOf i.ad (accVal i.ao))),
    (.clr r, 0x0C, fun i => accWrite i 0 false), (.neg r, 0x0D, fun i => accWrite i (-accVal i.ad) (borrowOf 0 (accVal i.ad))),
    (.absAcc r, 0x0E, fun i => accWrite i (accVal i.ad).natAbs false),
    (.maxAcc r, 0x0F, fun i => accWrite i (max (accVal i.ad) (accVal i.ao)) false),
    (.minAcc r, 0x10, fun i => accWrite i (min (accVal i.ad) (accVal i.ao)) false),
    (.cmp r, 0x11, fun i => accTest i (accVal i.ad - accOf i.a) (borrowOf i.ad (accOf i.a))),
    (.tst r, 0x12, fun i => accTest i (accVal i.ad) false),
    (.sat r, 0x13, fun i => accWrite { i with sat := true } (accVal i.ad) false),
    (.asl r, 0x14, fun i => accShift i i.k), (.asr r, 0x15, fun i => accShift i (-(i.k : Int))),
    (.ash r, 0x16, fun i => accShift i (sext 32 i.a)), (.ashr r, 0x17, fun i => accShift i (-sext 32 i.a)),
    (.norm r, 0x18, accNorm), (.expAcc r, 0x19, fun i => { count := some (ofInt 32 (normCount (accVal i.ad))) }),
    (.expReg r, 0x1A, fun i => { count := some (ofInt 32 (normCount (accOf i.a))) }),
    (.andAcc r, 0x1B, fun i => accLogic i (· &&& ·)), (.orAcc r, 0x1C, fun i => accLogic i (· ||| ·)),
    (.xorAcc r, 0x1D, fun i => accLogic i (· ^^^ ·))]

/-- O48. A room's arithmetic (R314). Each instruction runs with its moves; without moves it changes, beside the control of the
core, only the accumulator D, the register of its count and SR, whose bit L is kept beside it and only ever set, and nothing of
another room, of the dictionary or of the Letterbox. A result that is written wraps to 72 bits, or with .S saturates to Q1.31; C
is the carry, V says that bits 71 to 63 differ, Z and N are of the result, L and E are sticky (R268, R270, R315). The shifts, NORM
and EXP. A shift left multiplies, one right divides and drops what falls below (R271); C is the last bit shifted out, 0 with a
count of 0 or a left shift beyond 72 (R315). NORM finds the count that brings an accumulator to normal Q1.31 form, from -8 to 31,
31 where more would be needed or for 0, shifts by it and gives it; EXP gives it and changes nothing else (R316, R317). -/
def Obligations.RoomArithmetic : Prop :=
    ((∀ (s : State) (r op : Nat) (c : Instr) (f : ArithIn → ArithOut), ArithRows r c op f →
      (∀ x ms l, s.roomReady r (.ar op) = some (.data x ms l) → exec c s = .next (s.roomData r (.data x ms l) x f))
      ∧ (s.roomReady r (.ar op) = none → exec c s = .next s)
      ∧ (∀ x l, s.roomReady r (.ar op) = some (.data x [] l) → (s.room r).waiting = false → Completes c s fun t =>
        ∀ (k : Core) (o : ArithOut), k = (s.room r).core → o = f (k.arithIn x) →
        (∀ e, (t.room r).core.raw e = if e = k.key 0x30 ∧ o.sr.isSome = true then setField (o.sr.getD 0) 4 1 0
          else if e = limitKey (k.key 0x30) ∧ o.sr.any (fun sr => bit sr 4) = true then 1
          else if e = k.key x.b ∧ o.count.isSome = true then o.count.getD 0
          else if e = k.key (8 + x.d) ∧ o.acc.isSome = true then o.acc.getD 0 else k.raw e)
        ∧ (t.room r).core.p = k.p ∧ (t.room r).core.x = k.x ∧ (t.room r).core.y = k.y ∧ (t.room r).blocks = (s.room r).blocks
        ∧ (∀ q ≠ r, t.room q = s.room q) ∧ t.regs = s.regs ∧ t.lb = s.lb))
    ∧ ∀ (i : ArithIn) (v : Int) (c : Bool) (w : Nat), (i.sat = true → -(2 ^ 63) ≤ v → v < 2 ^ 63 → w = ofInt 72 v) →
      (i.sat = false → w = ofInt 72 v) → (i.sat = true → v < -(2 ^ 63) → w = ofInt 72 (-(2 ^ 63)))
      → (i.sat = true → 2 ^ 63 ≤ v → w = ofInt 72 (2 ^ 63 - 1)) →
      (accWrite i v c).acc = some w ∧ ∃ sr, (accWrite i v c).sr = some sr ∧ bit sr 0 = c
        ∧ (bit sr 1 = false ↔ -(2 ^ 63) ≤ sext 72 w ∧ sext 72 w < 2 ^ 63) ∧ (bit sr 2 = true ↔ w = 0) ∧ bit sr 3 = bit w 71
        ∧ (bit sr 4 = true ↔ bit i.sr 4 = true ∨ (i.sat = true ∧ (v < -(2 ^ 63) ∨ 2 ^ 63 ≤ v)))
        ∧ (bit sr 5 = true ↔ bit i.sr 5 = true ∨ (i.sat = false ∧ (v < -(2 ^ 71) ∨ 2 ^ 71 ≤ v))))
  ∧ ((∀ (i : ArithIn) (n : Int),
      (n = 0 → accShift i n = accWrite i (accVal i.ad) false)
      ∧ (0 < n → accShift i n = accWrite i (accVal i.ad * 2 ^ n.toNat) (decide (n ≤ 72) && bit i.ad (72 - n.toNat)))
      ∧ (n < 0 → accShift i n = accWrite i (accVal i.ad / 2 ^ n.natAbs) (bit i.ad (min (n.natAbs - 1) 71))))
    ∧ ∀ (i : ArithIn) (v c w : Int), v = accVal i.ad → c = normCount v → w = (if 0 ≤ c then v * 2 ^ c.toNat else v / 2 ^ c.natAbs) →
      (v = 0 → c = 31) ∧ -8 ≤ c ∧ c ≤ 31 ∧ inQ31 w = true ∧ (v ≠ 0 → c < 31 → inQ31 (2 * w) = false)
      ∧ (accNorm i).acc = some (ofInt 72 w) ∧ (accNorm i).count = some (ofInt 32 c)
      ∧ (∃ sr, (accNorm i).sr = some sr ∧ bit sr 0 = false))

/-- What register `j` of a core holds, having held `old`, once E code `e` has taken the word `v` in a block of `n` ticks: data
registers take it whole; an accumulator as Q1.31, its parts their own bits; pointers and their like their low bits; the control
registers what R281 lets them take, SR's bit L standing beside it (R267, R281, R302, R303). -/
def roomTaken (k : Core) (n e v j old : Nat) : Nat :=
  if e < 0x10 then
    if j = k.key e then
      (if e < 8 then v
      else match e / 2 with
        | 4 => ofInt 72 (sext 32 v * 2 ^ 32)
        | 5 => setField (k.raw j) 32 32 v
        | 6 => setField (k.raw j) 0 32 v
        | _ => setField (k.raw j) 64 8 v)
    else old
  else if e < 0x30 then (if j = e then v % (if e < 0x18 ∨ (0x20 ≤ e ∧ e < 0x28) then 2 ^ 14 else 2 ^ 15) else old)
  else match e with
    | 0x30 => if j = k.key 0x30 then setField (v % 64) 4 1 0 else if j = limitKey (k.key 0x30) then field v 4 1 else old
    | 0x31 => if j = 0x31 then v % 2 else old
    | 0x32 => if j = 0x32 then min (v % 64) n else old
    | 0x35 => if j = 0x35 then v % 2 ^ 13 else old
    | _ => old

/-- O49. Where a memory operand lies and what its pointer takes (R272, R273): a step wraps in the 16384 addresses where L is 0, and
else stays in the buffer of L words from B on; reverse-carry adds with the carry running from bit 13 down. The exposed pipeline: a
register written by an instruction reads so from the distance of R275 on, and as it stood before that instruction up to it, where
no write before that is still on its way; a stored word is loaded from 4 instructions on. The distances are those of R275 and
R307, and 4 where neither names a pair. An instruction with one move into a register: a load takes the word at its address, in X's
top places the window's at position IOP; a transfer and MOVE take a register's value, limited where it is an accumulator, which
sets SR.L; LDI its word. The register takes it as R303 has it, and wins over the update of the load's pointer (R274); nothing else
of the registers and nothing of the memories changes; a word for MBO goes to ROOM_MBOX_OUT, and a read of MBI takes its word
(R281, R286, R302, R303, R305, R308 to R310). An instruction with one move, a store: the word at its address takes the register's
value, limited where it is an accumulator, which sets SR.L; no other word changes, and of the registers the pointer alone that the
address updates; a store to the window goes to the output position IOP while a block runs, if that is not released (R263, R265,
R268, R272, R305, R308). Two loads beside an arithmetic instruction: all three read the core as it stood before (R306); of two
loads into one register the Y move's stands, and the arithmetic's result goes into its accumulator (R278). -/
def Obligations.RoomDataMoves : Prop :=
    ((∀ (p b l : Nat) (st : Int), (stepPtr p b 0 st : Int) = ((p : Int) + st) % 16384
      ∧ (0 < l → ∃ x < l, stepPtr p b l st = (b + x) % 16384 ∧ ((p : Int) - b + st - x) % l = 0))
    ∧ (∀ x i : Nat, i < 14 → bit (rev14 x) i = bit x (13 - i))
    ∧ ∀ (c : Core) (ptr p : Nat) (n : Int) (to_ : Int → Nat), p = c.read (0x10 + ptr) .address →
      n = sext 15 (c.read (0x18 + ptr) .address) →
      (∀ st, to_ st = stepPtr p (c.read (0x20 + ptr) .address) (c.read (0x28 + ptr) .address) st) →
      c.address ptr 0 = (p, none) ∧ c.address ptr 1 = (p, some (to_ 1)) ∧ c.address ptr 2 = (p, some (to_ (-1)))
      ∧ c.address ptr 3 = (p, some (to_ n)) ∧ c.address ptr 4 = (to_ n, none)
      ∧ (p < 16384 → ∃ q, c.address ptr 5 = (p, some q) ∧ q < 16384
        ∧ rev14 q = (rev14 p + rev14 (c.read (0x18 + ptr) .address % 16384)) % 16384))
  ∧ ((∀ (c t : Core) (key v d : Nat) (how : Wrote) (use : RoomUse), t = { c.write key v how with count := c.count + d } →
      (distance how use ≤ d → t.read key use = v)
      ∧ (d < distance how use → (∀ w ∈ c.hist, w.key = key → w.at_ + distance w.how use ≤ c.count + d) → t.read key use = c.raw key))
    ∧ (∀ (c t : Core) (y : Bool) (a v d : Nat), a < 16384 → t = { c.memWrite y a v with count := c.count + d } →
      (4 ≤ d → t.memRead y a = v)
      ∧ (d < 4 → (∀ w ∈ c.mem, w.key = b2n y * 16384 + a → w.at_ + 4 ≤ c.count + d) → t.memRead y a = c.memRaw y a))
    ∧ distance .arith .accArith = 1 ∧ distance .arith .accMove = 2 ∧ distance .arith .flags = 2 ∧ distance .load .operand = 2
    ∧ distance .regMove .operand = 1 ∧ distance .postUpdate .address = 1 ∧ distance .ptrMove .address = 3
    ∧ (∀ use, distance .ctl use = 2) ∧ distance .load .address = 4 ∧ distance .regMove .address = 4)
  ∧ (∀ (s : State) (r e v : Nat) (c : Instr) (op : RoomOp) (i : RoomInstr) (lim mbi : Bool) (upd : Option (Nat × Nat)) (rm : Room)
      (m : RoomMove) (long : Bool) (src imm : Nat), rm = s.room r → rm.waiting = false → s.roomReady r op = some i →
      (c, op) ∈ [(Instr.parallelMove r, RoomOp.par), (.longMove r, .long), (.ldi r, .ldi), (.move r, .move)] →
      (i = .data {} [m] long ∧ m.kind = 1 ∧ e = m.reg ∧ lim = false ∧ mbi = false
        ∧ (∀ a, a = (match m.abs with | some x => (x, none) | none => rm.core.address m.ptr m.mode) →
          v = (if m.y = false ∧ 0x3F00 ≤ a.1 then rm.winRead (s.roomIo r) (a.1 - 0x3F00) else rm.core.memRead m.y a.1)
          ∧ upd = a.2.map (fun p => (0x10 + m.ptr, p))))
      ∨ (i = .data {} [m] long ∧ m.kind = 3 ∧ e = m.reg ∧ (v, lim) = rm.source (s.roomIo r) m.src ∧ mbi = (m.src == 0x33) ∧ upd = none)
      ∨ (i = .ldi e imm ∧ v = imm ∧ lim = false ∧ mbi = false ∧ upd = none)
      ∨ (i = .move e src ∧ (v, lim) = rm.source (s.roomIo r) src ∧ mbi = (src == 0x33) ∧ upd = none) →
      Completes c s fun t => ∀ k, k = (t.room r).core →
        (∀ j, k.raw j = if lim = true ∧ e ≠ 0x30 ∧ j = limitKey (rm.core.key 0x30) then 1
          else roomTaken rm.core (s.blockLen r) e v j (((upd.filter (fun p => p.1 == j)).map (fun p => p.2)).getD
            (rm.core.raw j)))
        ∧ k.p = rm.core.p ∧ k.x = rm.core.x ∧ k.y = rm.core.y ∧ k.mboxPend = (rm.core.mboxPend && !mbi)
        ∧ (e ≠ 0x32 → (t.room r).blocks = rm.blocks) ∧ (∀ q ≠ r, t.room q = s.room q)
        ∧ (e ≠ 0x34 → t.regs = s.regs ∧ t.lb = s.lb)
        ∧ (e = 0x34 → r < 32 → t.rd (Reg.roomMboxOutWord r) = v % 2 ^ 32 ∧ t.rd (Reg.roomStatusMboNew r) = 1))
  ∧ ((∀ (s : State) (r v : Nat) (c : Instr) (op : RoomOp) (lim : Bool) (rm : Room) (m : RoomMove) (long : Bool) (a : Nat × Option Nat),
      rm = s.room r → rm.waiting = false → s.roomReady r op = some (.data {} [m] long) → m.kind = 2 →
      (c, op) ∈ [(Instr.parallelMove r, RoomOp.par), (.longMove r, .long)] →
      (v, lim) = rm.source (s.roomIo r) m.reg →
      a = (match m.abs with | some x => (x, none) | none => rm.core.address m.ptr m.mode) →
      Completes c s fun t => ∀ k, k = (t.room r).core →
        (∀ j, k.raw j = if lim = true ∧ j = limitKey (rm.core.key 0x30) then 1
          else if (a.2.isSome = true ∧ j = 0x10 + m.ptr) then a.2.getD 0 else rm.core.raw j)
        ∧ k.p = rm.core.p
        ∧ (m.y = true ∨ a.1 < 0x3F00 →
          (∀ y x, k.memRaw y x = if y = m.y ∧ x = a.1 then v else rm.core.memRaw y x) ∧ (t.room r).blocks = rm.blocks)
        ∧ (m.y = false → 0x3F00 ≤ a.1 → k.x = rm.core.x ∧ k.y = rm.core.y
          ∧ (t.room r).blocks = (rm.winWrite (s.roomIo r) (a.1 - 0x3F00) v).blocks)
        ∧ k.mboxPend = (rm.core.mboxPend && m.reg != 0x33) ∧ (∀ q ≠ r, t.room q = s.room q) ∧ t.regs = s.regs ∧ t.lb = s.lb)
    ∧ ∀ (rm : Room) (io : RoomIo) (a v p : Nat) (b : Block), p = rm.core.read 0x32 .control → rm.current = some b →
      (rm.block = true → 128 ≤ a → p < io.n → b.released ≤ p →
        (rm.winWrite io a v).current = some { b with vals := Sparse.put (fun _ => 0) b.vals (p * 128 + (a - 128)) v })
      ∧ (rm.block = false ∨ a < 128 ∨ io.n ≤ p ∨ p < b.released → rm.winWrite io a v = rm))
  ∧ (∀ (s : State) (r op : Nat) (c : Instr) (f : ArithIn → ArithOut) (x : RoomArith) (m1 m2 : RoomMove) (long : Bool) (k : Core),
      ArithRows r c op f → s.roomReady r (.ar op) = some (.data x [m1, m2] long) → (s.room r).waiting = false → k = (s.room r).core →
      m1.kind = 1 → m2.kind = 1 → m1.reg < 8 → m2.reg < 8 → m1.abs = none → m2.abs = none →
      (f (k.arithIn x)).count = none →
      ∀ a1 a2, a1 = (k.address m1.ptr m1.mode).1 → a2 = (k.address m2.ptr m2.mode).1 →
        m1.y = true ∨ a1 < 0x3F00 → m2.y = true ∨ a2 < 0x3F00 →
        Completes c s fun t => ((t.room r).core.raw (k.key m2.reg) = k.memRead m2.y a2)
          ∧ (m1.reg ≠ m2.reg → (t.room r).core.raw (k.key m1.reg) = k.memRead m1.y a1)
          ∧ (∀ w, (f (k.arithIn x)).acc = some w → (t.room r).core.raw (k.key (8 + x.d)) = w))


/-! Guarding. -/

/-- O50. Guarding: a parity error in a core in service counts, and goes to the room it backs or to the guest it runs (R333, R336,
R337); in an active core whose room has a guest IN_STEP, outside a vote, the guest takes over; a complete warm-up brings its guest in
step with the next block (R327); a vote's end has its outcome (R332); the rotation period marks clean guests for their swap and tests
the cores of idle ones (R338 to R341); a self-test ends (R336, R340); a COLD room's snapshot is taken at a block boundary, and done it
replaces the older one (R335); a restore ends (R336); GUEST_CMD sends a core to its self-test (R344), and ROOM_GUARD clears COLD
(R328). That a room with GUARD 1 and no guest IN_STEP runs on with the word as it reads, that a room left without a core takes a free
guest core, and that the mailbox keeps its word over a restore, are log entry 22 (DEDUCED and DESIGN CHOICE). -/
def Obligations.Guarding : Prop :=
  ∀ (s : State) (c r space addr flip slot agree : Nat) (pass : Bool) (g : Guarded) (h : State), g = s.guarded r →
    h = s.gather →
    (s.fuse.hasRoom c = false → exec (.parityError c space addr flip) s = .next s)
    ∧ (s.fuse.hasRoom c = true → ∀ u, u = h.bump Reg.supParityErrors 1 →
      (u.roomOfCore c = some r → (u.core c).service = 1 →
        exec (.parityError c space addr flip) s = .next (s.scatter (u.parityRoom r space addr flip))
        ∧ (∀ k, (u.guarded r).next = none → (u.room r).restoring = false → u.guard.vote = none → u.inStep r = some k →
          exec (.parityError c space addr flip) s = .next (s.scatter (u.takeover r k 4))))
      ∧ (u.roomOfCore c = none → (u.core c).service = 1 → ∀ k, u.slotOfCore c = some k →
        ((u.slot k).state = 4 → exec (.parityError c space addr flip) s = .next (s.scatter (u.guestLeave k)))
        ∧ ((u.slot k).state ≠ 4 → exec (.parityError c space addr flip) s = .next (s.scatter u)))
      ∧ ((u.core c).service ≠ 1 ∨ (u.roomOfCore c = none ∧ u.slotOfCore c = none) →
        exec (.parityError c space addr flip) s = .next (s.scatter u)))
    ∧ (slot < 2 → (s.slot slot).state = 3 → (s.slot slot).left = 0 →
      exec (.guestWarmupDone slot) s = .next (s.setSlot slot { s.slot slot with ready := true }))
    ∧ (2 ≤ slot ∨ (s.slot slot).state ≠ 3 ∨ (s.slot slot).left ≠ 0 → exec (.guestWarmupDone slot) s = .next s)
    ∧ (∀ v, s.guard.vote = some v → v.room = r → agree < 3 → exec (.voteDone r agree) s = .next (s.scatter (h.voteEnd v agree)))
    ∧ (s.guard.vote = none → exec (.voteDone r agree) s = .next s)
    ∧ ((∀ k < 2, (s.slot k).state = 4) → Completes .rotatePeriodExpiry s fun t => ∀ k < 2, t.slot k = { s.slot k with
      swap := (s.slot k).swap || (s.on Reg.guestCfgRotateEn && decide (4096 ≤ (s.slot k).clean) && s.guard.vote.isNone) })
    ∧ (∀ a b, (s.slot 0).state = 1 → (s.slot 1).state = 1 → (s.slot 0).core = some a → (s.slot 1).core = some b →
      exec .rotatePeriodExpiry s = .next (s.scatter ((((h.selftest a).setSlot 0 { s.slot 0 with state := 2 }).selftest b).setSlot 1
        { s.slot 1 with state := 2 })))
    ∧ ((s.core c).service = 2 → s.fuse.hasRoom c = true → ∀ (back : Bool) (u w : State),
      back = (pass && (!(s.core c).lost || (s.core c).rejoin || s.on Reg.guestCfgAutoRejoin)) →
      u = State.post ((State.bumpIf (h.bump (if pass then Reg.supSelftestsPassed else Reg.supSelftestsFailed) 1)
        (!pass && !(s.core c).counted) Reg.supFences).setCore c
        (if back then {} else { service := 3, lost := (s.core c).lost, counted := true })) 0xB006
        (if pass then 4 else 6) [pack [(0, c), (5, b2n pass)]] →
      (u.slotOfCore c = none → w = u) → (∀ k, u.slotOfCore c = some k → w = (if (u.slot k).state = 2 then
        { u.setSlot k { u.slot k with state := 1, own := {}, junk := some u.free } with free := u.free + 40960 } else u)) →
      exec (.selftestDone c pass) s = .next (s.scatter (if back then w.place c else w.displace c).refit.seekBoth))
    ∧ ((s.core c).service ≠ 2 ∨ s.fuse.hasRoom c = false → exec (.selftestDone c pass) s = .next s)
    ∧ (s.isCold r = false ∨ s.fuse.isGuest r = true ∨ (s.room r).restoring = true ∨ g.snapTaking ≠ none →
      exec (.snapshotPeriod r) s = .next s)
    ∧ (s.isCold r = true → s.fuse.isGuest r = false → s.fuse.hasRoom r = true → (s.room r).restoring = false → g.snapTaking = none →
      (s.snapPlace r = none → g.snap = none → g.noRoom = false → exec (.snapshotPeriod r) s =
        .next ((s.setGuarded r { g with noRoom := true }).guardNote r false false))
      ∧ (∀ u w, s.snapPlace r = some u → w = u.setGuarded r { u.guarded r with noRoom := false } →
        ((w.room r).block = false → (w.room r).waiting = false → exec (.snapshotPeriod r) s = .next (w.snapBegin r))
        ∧ ((w.room r).block = true ∨ (w.room r).waiting = true →
          exec (.snapshotPeriod r) s = .next (w.setGuarded r { w.guarded r with snapWant := true }))))
    ∧ (g.snapTaking = none → exec (.snapshotDone r) s = .next s)
    ∧ (∀ x u, g.snapTaking = some x → u = (h.setGuarded r { g with
        snapTaking := none, snapOld := g.snap, snap := some x, bufs := g.bufs.reverse }).bump Reg.supSnapshots 1 →
      (g.snap = none → exec (.snapshotDone r) s = .next (s.scatter (u.guardNote r false false)))
      ∧ (g.snap ≠ none → exec (.snapshotDone r) s = .next (s.scatter u)))
    ∧ (∀ x f, g.restore = some c → g.snap = some x → s.coreOf r = some f → c ≠ 31 → (s.core c).service = 1 →
      (s.room r).restoring = true → Completes (.coldRestoreDone r) s fun t =>
        (t.room r).core = { x.1.flush with mboxPend := (s.room r).core.mboxPend, mbi := (s.room r).core.mbi }
        ∧ (t.room r).restoring = false ∧ (t.room r).mute = s.rd (Reg.roomCtrlStartMute r))
    ∧ (g.restore = none ∨ (s.room r).restoring = false → exec (.coldRestoreDone r) s = .next s)
    ∧ (∀ who v n k u w, k = Reg.guestCmdCmd.key → s.Accepts who k v .guestCmd 0 0 n → u = s.takes k n → c = field n 8 5 →
      (u.slotOfCore c = none → w = u)
        → (∀ j, u.slotOfCore c = some j → w = (u.shadowEnd j).setSlot j { (u.shadowEnd j).slot j with state := 2 }) →
      (field n 0 4 = 1 → exec (.guestCmdRejoin who v) s =
        .next ((w.setCore c { w.core c with service := 2, rejoin := true }).seekBoth.say .ok))
      ∧ (field n 0 4 = 2 → exec (.guestCmdSelftest who v) s =
        .next ((w.setCore c { w.core c with service := 2, rejoin := false }).seekBoth.say .ok)))
    ∧ (∀ who v n k u, k = (Reg.roomGuardGuard r).key → s.Accepts who k v .roomGuard r 0 n → u = s.takes k n →
      exec (.roomGuardSet who r v) s = .next ((applyRoomGuard u r (field (s.get k) 0 2 == 2)).say .ok)
      ∧ ((applyRoomGuard u r (field (s.get k) 0 2 == 2)).guarded r).cold = false)

/-! The monitors and the Cellar. -/

/-- O51. The monitors. TEMP_SAMPLE: TEMP_MAX and SENSOR name the hottest reading. Of WARN and CRIT each goes above where
TEMP_MAX reaches its level and below where it falls 5 °C under it; each change posts event 0xB009 at once (R342, R346). The
thermal clamp engages above 95 °C and lets go below 90 °C (R50). A level that MON_CFG changes is judged at once, and goes below
only under more than 5 °C. SUPPLY_SAMPLE: SUPPLY_MV is the mean of the samples; one inside the window ends a run; the tenth in a
row outside is an excursion: SUPPLY_EXCURSIONS counts it, and event 0xB00A gives the extreme of these ten, but not within 100 ms
of the last (R343; that it is the extreme of the ten, and that the mean is of the samples so far, is log entry 24, DEDUCED); the
end of these reports what was held back (R475). The nominal voltage of VDD_CORE is that of CODE_NOW, and its samples in a settle
interval are ignored; channels 4 and 5 are absent without LPDDR4X (R343). -/
def Obligations.Monitors : Prop :=
  ∀ (s : State) (a : Int) (l : List Int) (c mv : Nat) (x : Supply), x = s.supply c →
    (exec (.tempSample []) s = .next s)
    ∧ (∀ m u, m = hottest (l.take 7) 1 (a, 0) →
      u = (s.gather.wr Reg.tempStatusTempMax (ofInt 12 (clampInt (-2048) 2047 m.1))).wr Reg.tempStatusSensor m.2 →
      exec (.tempSample (a :: l)) s = .next (s.scatter ((u.tempLevel false).tempLevel true).tempClamp)
      ∧ a ≤ m.1 ∧ (∀ b ∈ l.take 7, b ≤ m.1) ∧ (a :: l)[m.2]? = some m.1)
    ∧ (∀ (u : State) (crit up above : Bool) (level : Int), above = (if crit then u.guard.crit else u.guard.warn) →
      level = 4 * (u.rd (if crit then Reg.monCfgCrit else Reg.monCfgWarn) : Nat) →
      (above = false → level ≤ u.tempMax → u.tempLevel crit = u.tempGo crit true ∧ u.tempRelevel crit = u.tempGo crit true)
      ∧ (above = true → u.tempMax ≤ level - 20 → u.tempLevel crit = u.tempGo crit false)
      ∧ (above = true → u.tempMax < level - 20 → u.tempRelevel crit = u.tempGo crit false)
      ∧ (above = true → level - 20 < u.tempMax → u.tempLevel crit = u)
      ∧ (above = true → level - 20 ≤ u.tempMax → u.tempRelevel crit = u)
      ∧ (above = false → u.tempMax < level → u.tempLevel crit = u ∧ u.tempRelevel crit = u)
      ∧ u.tempGo crit up = State.post { u with guard := (if crit then { u.guard with crit := up } else { u.guard with warn := up }) }
          0xB009 (if crit then 7 else 6) [pack [(0, u.rd Reg.tempStatusTempMax), (12, b2n crit), (13, b2n up)]])
    ∧ (∀ u : State, (u.tempClamp).on Reg.vidStatusThermalClamp =
      if u.on Reg.vidStatusThermalClamp then decide (360 ≤ u.tempMax) else decide (380 < u.tempMax))
    ∧ (∀ who v n k u w, k = Reg.monCfgWarn.key → s.Accepts who k v .monCfg 0 0 n → u = s.takes k n →
      w = (if field (s.get k) 0 8 = u.rd Reg.monCfgWarn then u else u.tempRelevel false) →
      exec (.monCfgSet who v) s = .next ((if field (s.get k) 8 8 = w.rd Reg.monCfgCrit then w else w.tempRelevel true).say .ok))
    ∧ (11 ≤ c → exec (.supplySample c mv) s = .next s)
    ∧ (c = 4 ∨ c = 5 → s.fuse.grade ≠ .f → exec (.supplySample c mv) s = .next s)
    ∧ (c = 0 → s.on Reg.vidStatusSettling = true → exec (.supplySample c mv) s = .next s)
    ∧ (s.nominal 0 = some (600 + 5 * s.rd Reg.vidStatusCodeNow) ∧ s.nominal 1 = some 800 ∧ s.nominal 2 = some 850
      ∧ s.nominal 3 = some 1200 ∧ s.nominal 6 = some 1800 ∧ (s.fuse.grade = .f → s.nominal 4 = some 1100 ∧ s.nominal 5 = some 600)
      ∧ ∀ b < 4, s.rd (Reg.bankStatusVolt b) < 4 →
        s.nominal (7 + b) = [none, some 1800, some 2500, some 3300].getD (s.rd (Reg.bankStatusVolt b)) none)
    ∧ (c < 11 → (c = 0 → s.on Reg.vidStatusSettling = false) → (c = 4 ∨ c = 5 → s.fuse.grade = .f) →
      ∀ t m, t = (mv :: x.samples).take 1000 → m = s.wr (Reg.supplyMvMv c) (t.sum / t.length) →
      (s.nominal c = none → exec (.supplySample c mv) s = .next (m.setSupply c { x with samples := t, run := 0 }))
      ∧ ∀ nom win high low, s.nominal c = some nom → win = nom * s.rd Reg.monCfgSupWin →
        high = decide (nom * 100 + win < mv * 100) → low = decide (mv * 100 + win < nom * 100) →
        ((high || low) = false → exec (.supplySample c mv) s = .next (m.setSupply c { x with samples := t, run := 0 }))
        ∧ ((high || low) = true →
          (x.run ≠ 9 → exec (.supplySample c mv) s = .next (m.setSupply c { x with samples := t, run := min (x.run + 1) 11 }))
          ∧ (x.run = 9 → ∀ ext ∈ t.take 10, (∀ z ∈ t.take 10, if high then z ≤ ext else ext ≤ z) →
            ∀ w, w = (m.bump Reg.supSupplyExcursions 1).setSupply c { x with
                samples := t, run := 10, high := high, extreme := ext
                hold := if x.hold.active then { x.hold with count := x.hold.count + 1 } else { active := true } } →
              exec (.supplySample c mv) s = .next (if x.hold.active then w else
                w.post 0xB00A 7 [pack [(0, c), (4, b2n high), (16, 1)], ext]))))
    ∧ (x.hold.count = 0 → exec (.supplyWindowEnd c) s = .next (s.setSupply c { x with hold := {} }))
    ∧ (x.hold.active = true → x.hold.count ≠ 0 → exec (.supplyWindowEnd c) s =
      .next ((s.setSupply c { x with hold := { active := true } }).supplyPost c x.hold.count x))

/-- O52. The Cellar. A delay line enabled anew, or disabled, holds nothing (R350, R352). A change of the recorder's MODE to 1 or
0 drops what it held, 1 taking its pages and 0 giving them back, one to 2 keeps it (from OFF an empty one: log entry 21,
DEDUCED); whichever the change, what the recorder has not done of the tick in progress is dropped, for it begins at the next
tick (R355, R356); a recording that is full is DONE (R356). DDR_CFG starts training from OFF or FAILED or turns the interface
off (R358, R359); training ends in READY or, with the step that failed, in FAILED, each change with event 0xC001 (R358, R360);
what MR4 asks for is taken (R359). -/
def Obligations.Cellar : Prop :=
  ∀ (s : State) (who : Role) (l : Nat) (v : Val) (n k step mr4 : Nat) (u : State), u = s.takes k n →
    (k = (Reg.dlyCfgEnable l).key → s.Accepts who k v .dlyCfg l 0 n →
      ∀ w, w = { u with cellar := { u.cellar with lines := Sparse.put (fun _ => []) u.cellar.lines l [] } } →
      (bit n 0 = true → bit (s.get k) 0 = false → exec (.dlyEnable who l v) s = .next (w.say .ok))
      ∧ (bit n 0 = true → u.on (Reg.dlyCfgEnable l) = true → bit (s.get k) 0 = true →
        exec (.dlyEnable who l v) s = .next (u.say .ok))
      ∧ (bit n 0 = false → u.on (Reg.dlyCfgEnable l) = false → exec (.dlyDisable who l v) s = .next (w.say .ok)))
    ∧ (k = Reg.recCfgMode.key → s.Accepts who k v .recCfg 0 0 n → u.rd Reg.recCfgMode = field n 0 2 →
      ∀ w, w = u.units 4 (fun z d => z.setTick d { z.tick d with recorder := none }) →
      (field n 0 2 = 1 → field (s.get k) 0 2 ≠ 1 → exec (.recModeRecord who v) s =
        .next ((State.recNote { w.wr Reg.recStatusState 1 with cellar := { u.cellar with taken := [], recPages := true } }).say .ok))
      ∧ (field n 0 2 = 2 → field (s.get k) 0 2 ≠ 2 → exec (.recModeHold who v) s =
        .next ((w.wr Reg.recStatusState 3).recNote.say .ok))
      ∧ (field n 0 2 = 0 → field (s.get k) 0 2 ≠ 0 → exec (.recModeOff who v) s =
        .next ((State.recNote { w.wr Reg.recStatusState 0 with cellar := { u.cellar with taken := [], recPages := false } }).say .ok))
      ∧ (field (s.get k) 0 2 = field n 0 2 → (field n 0 2 = 1 → exec (.recModeRecord who v) s = .next (u.say .ok))
        ∧ (field n 0 2 = 2 → exec (.recModeHold who v) s = .next (u.say .ok))
        ∧ (field n 0 2 = 0 → exec (.recModeOff who v) s = .next (u.say .ok))))
    ∧ (s.rd Reg.recStatusState = 2 → s.on Reg.recCfgRing = false → s.rd Reg.recCfgLength ≤ s.cellar.taken.length →
      exec .recDone s = .next (s.wr Reg.recStatusState 3))
    ∧ (s.rd Reg.recStatusState ≠ 2 ∨ s.on Reg.recCfgRing = true ∨ s.cellar.taken.length < s.rd Reg.recCfgLength →
      exec .recDone s = .next s)
    ∧ (k = Reg.ddrCfgEnable.key → s.Accepts who k v .ddrCfg 0 0 n →
      (bit n 0 = true → u.on Reg.ddrCfgEnable = true →
        (u.rd Reg.ddrStatusState = 0 ∨ u.rd Reg.ddrStatusState = 3 → exec (.ddrEnable who v) s = .next ((u.ddrGo 1 0).say .ok))
        ∧ (u.rd Reg.ddrStatusState = 1 ∨ u.rd Reg.ddrStatusState = 2 → exec (.ddrEnable who v) s = .next (u.say .ok)))
      ∧ (bit n 0 = false → u.on Reg.ddrCfgEnable = false → exec (.ddrDisable who v) s =
        .next ((State.ddrGo { u with cellar := { u.cellar with mr4 := 0 } } 0 0).say .ok)))
    ∧ (s.rd Reg.ddrStatusState = 1 → step < 8 →
      (step = 0 → exec (.ddrTrainingDone step) s =
        .next (((s.wr Reg.ddrStatusState 2).wr Reg.ddrStatusFailStep 0).post 0xC001 5 [pack [(0, 2), (2, 0)]]))
      ∧ (step ≠ 0 → exec (.ddrTrainingDone step) s =
        .next (((s.wr Reg.ddrStatusState 3).wr Reg.ddrStatusFailStep step).post 0xC001 5 [pack [(0, 3), (2, step)]])))
    ∧ (s.rd Reg.ddrStatusState ≠ 1 → exec (.ddrTrainingDone step) s = .next s)
    ∧ (s.rd Reg.ddrStatusState = 2 → exec (.ddrMr4Poll mr4) s = .next { s with cellar := { s.cellar with mr4 := mr4 } })
    ∧ (s.rd Reg.ddrStatusState ≠ 2 → exec (.ddrMr4Poll mr4) s = .next s)

/-! The dictionary engine over KDP. -/

/-- The rows that are KDP messages: the command, and the kind of message it is. -/
def KdpRows (src : Sender) (msg : List Byte) (c : Instr) (k : Nat) : Prop :=
  (c, k) ∈ [(Instr.kdpHelloOpen src msg, 1), (.kdpHelloClose src msg, 2), (.kdpHelloKeepalive src msg, 3), (.kdpAuth src msg, 4),
    (.kdpGet src msg, 5), (.kdpGetbulk src msg, 6), (.kdpSet src msg, 7), (.kdpSetbulk src msg, 8), (.kdpSetStage src msg, 9),
    (.kdpCommitBegin src msg, 10), (.kdpCommitApply src msg, 11), (.kdpCommitTimedApply src msg, 12), (.kdpCommitDiscard src msg, 13),
    (.kdpCommitDiscardWaiting src msg, 14), (.kdpSubscribeList src msg, 15), (.kdpSubscribeRange src msg, 16),
    (.kdpSubscribeRemove src msg, 17)]

/-- O53. A KDP message reaches the engine as the request the host port holds, or as a datagram over a port that is listened on
(R371, R408), and goes through the checks of R374 in their order: its form, its session, its MAC, its sequence number, its
version; the first that fails counts, with an answer for a missing session or another version alone. HELLOs from an address
whose HELLOs are ignored go no further (R377), and one of OP 0 needs no session (R375). One that passes is served by its TYPE,
its reply goes to its client, and a session that it closes closes after the reply (R380, R382, R392); an AUTH does all it does
at one moment (R377, R421). What the replies to a missing session and to another version hold is log entry 26 (DEDUCED). -/
def Obligations.KdpRequests : Prop :=
  (∀ (s : State) (src : Sender) (msg : List Byte) (c : Instr) (k : Nat), KdpRows src msg c k →
    (kdpKind msg ≠ k → exec c s = .next s)
    ∧ (src = .host → s.host.request ≠ some msg → exec c s = .next s)
    ∧ (kdpKind msg = k → src = .host → s.host.request = some msg → ∀ t, t = s.kdpServe .host msg →
      exec c s = .next { t with host := { t.host with request := none } })
    ∧ (∀ p ip udp mac, src = .net p ip udp mac →
      (s.kdpListens p = false → exec c s = .next s)
      ∧ (kdpKind msg = k → s.kdpListens p = true → exec c s = .next (s.serveHost.kdpServe src msg))))
  ∧ ∀ (s u : State) (src : Sender) (msg : List Byte), u = s.bump Reg.kdpRxMsgs 1 →
    (parseKdp msg (decide (src = .host)) = none → s.kdpServe src msg = u.bump Reg.kdpMalformed 1)
    ∧ (∀ m, parseKdp msg (decide (src = .host)) = some m →
      (u.ignored src m = true ↔ ∃ p ip udp mac, src = .net p ip udp mac ∧ m.ty = 1 ∧ u.lockout ip ≠ none)
      ∧ (u.ignored src m = true → s.kdpServe src msg = u)
      ∧ (u.ignored src m = false → m.ty = 1 → at_ m.body 0 1 = 0 → m.body ≠ [] → s.kdpServe src msg = u.helloOpen src m))
    ∧ (∀ m, parseKdp msg (decide (src = .host)) = some m → u.ignored src m = false →
      ¬(m.ty = 1 ∧ at_ m.body 0 1 = 0 ∧ m.body ≠ []) →
      (u.sessionOf src m = none → s.kdpServe src msg = (u.bump Reg.kdpNoSession 1).reply
        ⟨src, if m.ty = 1 then 0x10 else m.version, m.ty, m.session, m.seq, none⟩ (failBody m.ty 0 (helloRole src) .noSession))
      ∧ (∀ ss x, u.sessionOf src m = some ss → u.sess ss = some x →
        (x.authed = true → bit m.flags 2 = false ∨ m.mac ≠ kdpMac x.sk 0 m.head m.body → s.kdpServe src msg = u.bump Reg.kdpMacFail 1)
        ∧ ((x.authed = false ∨ (bit m.flags 2 = true ∧ m.mac = kdpMac x.sk 0 m.head m.body)) →
          (ss ≠ 0 → x.seqOk m.seq = false → s.kdpServe src msg = u.bump Reg.kdpReplay 1)
          ∧ (∀ y, y = (if ss = 0 then x else x.seqTake m.seq) → ss = 0 ∨ x.seqOk m.seq = true →
            (m.ty ≠ 1 → m.version ≠ x.version → s.kdpServe src msg = (u.setSess ss (some y)).reply
              ⟨src, y.version, m.ty, y.id, m.seq, if y.authed then some y.sk else none⟩ (failBody m.ty y.version y.role .version))
            ∧ (m.ty = 1 ∨ m.version = x.version → s.kdpServe src msg =
              (u.setSess ss (some { y with at_ := u.rc })).kdpDo src ss { y with at_ := u.rc } m)))))
  ∧ ∀ (s u : State) (src : Sender) (ss : Nat) (x : Session) (m : KdpMsg) (sk : Option (List Byte)) (to_ : ReplyTo),
    u = { s with kdp := { s.kdp with serving := some ss } } → u.catchUp = u → sk = (if x.authed then some x.sk else none) →
    to_ = ⟨src, if m.ty = 1 then 0x10 else x.version, m.ty, x.id, m.seq, sk⟩ →
    (∀ v l, (m.ty = 1 ∧ (l, v) = u.helloOther ss x m.body) ∨ (m.ty = 4 ∧ (l, v) = u.kdpSet ss x 4 (bit m.flags 3) m.body)
      ∨ (m.ty = 5 ∧ (l, v) = u.kdpGetbulk x.who m.body) ∨ (m.ty = 6 ∧ (l, v) = u.kdpSet ss x 6 false m.body)
      ∨ (m.ty = 7 ∧ (l, v) = u.kdpSubscribe ss x m.body) ∨ (m.ty = 9 ∧ (some l, v) = u.kdpCommit ss x m.seq m.body)
      ∨ (m.ty = 3 ∧ (l, v) = (if u.overParts to_ (u.kdpGet x.who m.body).1 then (failBody 3 0 0 .tooLarge, u) else u.kdpGet x.who m.body)) →
      s.kdpDo src ss x m = (v.reply to_ l).served ss)
    ∧ (∀ v, m.ty = 9 → (none, v) = u.kdpCommit ss x m.seq m.body → s.kdpDo src ss x m = v.served ss)
    ∧ (m.ty = 2 → s.kdpDo src ss x m = u.together fun z =>
      (State.reply (z.kdpAuth ss x m).2.2 { to_ with sk := (z.kdpAuth ss x m).2.1 } (z.kdpAuth ss x m).1).served ss)
    ∧ ∀ z : State, z.kdp.closing = none → z.served ss = { z with kdp := { z.kdp with serving := none } }

/-- O54. What a served request does. A HELLO agrees the higher common version; over the network it opens the lowest session
free, with the role, nonces and IDLE_TIMEOUT of its moment, and event 0xD001; over the host port it keeps session 0, which OP 1
returns to its start (R375, R381, R398, R401). AUTH with the key of a slot gives its role; one that fails counts, closes the
session, and the fifth from an address within 10 s locks it out (R377). SUBSCRIBE adds a list or a run of entries that the role
may read, or takes one away; the number is the model's choice (R391; log entry 28). GET reads each entry it names in turn, with
META set nothing being cleared (R383, R384), and refuses more than 64 as TOO_LARGE; GETBULK of a run with a fault answers the
first entry that has one and reads nothing (R385). SET applies its items one by one (R386); SETBULK applies all or none: with
one refused, every other is NOT_APPLIED (R387). SET with GROUP stages: nothing but the session's group changes, and without one
it is a CONFLICT (R388). COMMIT opens a group, applies it, discards it, or lets it wait for its time; where that is already
reached it applies at once, over the host port with event 0xD502 (R388, R389, R408, R426). The bodies of error replies, what
answers a malformed HELLO, an OP or a SUB_ID that is not there, and which session number is taken, are log entry 26 (DEDUCED).
-/
def Obligations.KdpOperations : Prop :=
  (∀ (s : State) (src : Sender) (m : KdpMsg) (v : Nat) (to_ : Nat → ReplyTo), v = min (at_ m.body 2 1) (s.rd Reg.kdpCfgVmax) →
    to_ = (fun id => ⟨src, 0x10, 1, id, m.seq, none⟩) →
    (m.body.length ≠ 20 ∨ at_ m.body 3 1 ≠ 0 → s.helloOpen src m = s.reply (to_ 0) (failBody 1 0 (helloRole src) .badType))
    ∧ (m.body.length = 20 → at_ m.body 3 1 = 0 →
      (v < at_ m.body 1 1 ∨ v < s.rd Reg.kdpCfgVmin →
        s.helloOpen src m = s.reply (to_ 0) (failBody 1 0 (helloRole src) .version ++ natBe 20 0))
      ∧ (at_ m.body 1 1 ≤ v → s.rd Reg.kdpCfgVmin ≤ v →
        (src = .host → ∃ nonce, s.helloOpen src m = State.reply { s with
            free := s.free + 1, kdp := { s.kdp with host := { s.kdp.host with version := v, at_ := s.rc } } } (to_ 0)
          (failBody 1 v 4 .ok ++ natBe 16 nonce ++ natBe 4 0))
        ∧ ∀ p ip udp mac, src = .net p ip udp mac →
          ((∀ k, 1 ≤ k → k ≤ 16 → s.sess k ≠ none) → s.helloOpen src m = s.reply (to_ 0) (failBody 1 0 0 .busy ++ natBe 20 0))
          ∧ ∀ k role, 1 ≤ k → k ≤ 16 → s.sess k = none → (∀ j, 1 ≤ j → j < k → s.sess j ≠ none) → role = s.rd Reg.kdpCfgAnonObserver →
            ∃ id nonce, 1 ≤ id ∧ id < 2 ^ 32 ∧ s.helloOpen src m = State.reply
              (State.post (State.bump (State.setSess { s with free := s.free + 2 } k (some {
                id := id, version := v, role := role, port := p, ip := ip, udp := udp, mac := mac
                nonceC := m.body.drop 4, nonceD := natBe 16 nonce, at_ := s.rc, born := s.rc
                idle := s.rd Reg.kdpCfgIdleTimeout })) Reg.kdpSessionsOpened 1) 0xD001 3 [pack [(0, k), (5, 1)]]) (to_ id)
              (failBody 1 v role .ok ++ natBe 16 nonce ++ natBe 2 (limit (s.frameCfg p) false - 46) ++ natBe 2 (s.maxPart p)))))
  ∧ (∀ (s : State) (ss slot role : Nat) (x : Session) (m : KdpMsg) (body sk : List Byte) (t : State),
    (body.length ≠ 4 ∨ at_ body 3 1 ≠ 0 → s.helloOther ss x body = (failBody 1 x.version x.role .badType, s))
    ∧ (body.length = 4 → at_ body 3 1 = 0 →
      (at_ body 0 1 = 1 → ss = 0 → s.helloOther ss x body = (failBody 1 0x10 4 .ok, { s with
        kdp := { s.kdp with host := { role := 4, at_ := s.rc }, subs := s.kdp.subs.filter (fun b => b.ss != 0) }
        host := { s.host with notify := [] } }))
      ∧ (at_ body 0 1 = 1 → ss ≠ 0 → s.helloOther ss x body = (failBody 1 x.version x.role .ok, { s with kdp := { s.kdp with closing := some 0 } }))
      ∧ (at_ body 0 1 = 2 → s.helloOther ss x body = (failBody 1 x.version x.role .ok, s)))
    ∧ (slot = at_ m.body 0 1 → sk = hmac (blobBytes 8 (s.get (Reg.key slot).key)) (ascii "KDPS" ++ x.nonceC ++ x.nonceD ++ natBe 4 x.id) →
      role = s.rd (Reg.keyCfgRole slot) → ∀ good : Prop,
      good = (ss ≠ 0 ∧ m.seq = 1 ∧ bit m.flags 2 = true ∧ m.body.length = 4 ∧ at_ m.body 1 3 = 0 ∧ slot < 8
        ∧ s.on (Reg.keyStatusLoaded slot) = true ∧ s.on (Reg.keyCfgRole slot) = true ∧ m.mac = kdpMac sk 0 m.head m.body) →
      (good → s.kdpAuth ss x m = (natBe 1 0 ++ natBe 1 role ++ natBe 2 0, some sk,
        s.setSess ss (some { x with authed := true, role := role, slot := slot, sk := sk, high := 1, seen := 1 })))
      ∧ (¬good → ∀ w, w = s.authFailed slot x.ip → s.kdpAuth ss x m = (failBody 2 0 0 .authFail, none,
        if ss = 0 then w else { w with kdp := { w.kdp with closing := some 5 } })))
    ∧ (t = s.authFailed slot x.ip →
      t.rd Reg.kdpAuthFails = min (s.rd Reg.kdpAuthFails + 1) (2 ^ Reg.kdpAuthFails.w - 1)
      ∧ t.kdp.fails = s.kdp.fails.filter (fun p => decide (s.rc - p.2 < 10 * rcSecond)) ++ [(x.ip, s.rc)]
      ∧ (5 ≤ (t.kdp.fails.filter (fun p => p.1 == x.ip)).length → t.lockout x.ip ≠ none)
      ∧ ((t.kdp.fails.filter (fun p => p.1 == x.ip)).length < 5 → t.kdp.locked = s.kdp.locked)
      ∧ (s.kdp.hold.active = true → t.lb = s.lb ∧ t.kdp.hold.count = s.kdp.hold.count + 1)
      ∧ (s.kdp.hold.active = false → ∃ z : State, t = z.post 0xD002 5 [pack [(0, slot % 8), (16, 1)], x.ip])))
  ∧ (∀ (s : State) (ss period id n : Nat) (x : Session) (body : List Byte) (keys : List Nat), id = s.newSub ss →
    (at_ body 1 1 = 0 → at_ body 0 1 = 0 → 12 ≤ body.length → at_ body 10 2 = 0 → n = at_ body 8 2 →
      (64 < n → s.kdpSubscribe ss x body = (failBody 7 0 0 .tooLarge, s))
      ∧ (1 ≤ n → n ≤ 64 → body.length = 12 + 4 * n →
        s.kdpSubscribe ss x body = s.subAdd ss x (at_ body 4 4) ((List.range n).map (fun k => refAt body (12 + 4 * k)))))
    ∧ (at_ body 1 1 = 0 → at_ body 0 1 = 1 → 4 ≤ body.length → x.version = 0x10 → s.kdpSubscribe ss x body = (failBody 7 0 0 .outOfRange, s))
    ∧ (at_ body 1 1 = 0 → at_ body 0 1 = 1 → x.version ≠ 0x10 → body.length = 20 → at_ body 15 1 = 0 → n = at_ body 16 4 →
      1 ≤ n → n ≤ 65536 → 1 ≤ at_ body 12 3 →
      s.kdpSubscribe ss x body = s.subAdd ss x (at_ body 4 4) (runKeys (refAt body 8) (at_ body 12 3) n))
    ∧ (at_ body 1 1 = 0 → at_ body 0 1 = 2 → body.length = 4 → n = at_ body 2 2 →
      ((∀ b ∈ s.kdp.subs, b.ss ≠ ss ∨ b.id ≠ n) → s.kdpSubscribe ss x body = (failBody 7 0 0 .conflict, s))
      ∧ ((∃ b ∈ s.kdp.subs, b.ss = ss ∧ b.id = n) → s.kdpSubscribe ss x body = (natBe 1 0 ++ natBe 1 0 ++ natBe 2 n,
        { s with kdp := { s.kdp with subs := s.kdp.subs.filter (fun b => !(b.ss == ss && b.id == n)) } })))
    ∧ (period < 10 ∨ 60000 < period → s.subAdd ss x period keys = (failBody 7 0 0 .outOfRange, s))
    ∧ (10 ≤ period → period ≤ 60000 →
      (∀ st, s.unreadable x.who keys = some st → s.subAdd ss x period keys = (failBody 7 0 0 st, s))
      ∧ (s.unreadable x.who keys = none →
        (16 ≤ (s.kdp.subs.filter (fun b => b.ss == ss)).length ∨ 64 ≤ s.kdp.subs.length
          ∨ 65536 < (s.kdp.subs.map (fun b => b.keys.length)).sum + keys.length → s.subAdd ss x period keys = (failBody 7 0 0 .tooLarge, s))
        ∧ ((s.kdp.subs.filter (fun b => b.ss == ss)).length < 16 → s.kdp.subs.length < 64 →
          (s.kdp.subs.map (fun b => b.keys.length)).sum + keys.length ≤ 65536 →
          (∀ b ∈ s.kdp.subs, b.ss ≠ ss ∨ b.id ≠ id) ∧ s.subAdd ss x period keys = (natBe 1 0 ++ natBe 1 0 ++ natBe 2 id,
            { s with kdp := { s.kdp with subs := s.kdp.subs ++ [{
              ss := ss, id := id, keys := keys, period := period, due := s.rc + period * 500000 }] } })))))
  ∧ ∀ (s : State) (who : Role) (ss n : Nat) (x : Session) (body : List Byte),
    (4 ≤ body.length → n = at_ body 0 2 →
      (64 < n → s.kdpGet who body = (failBody 3 0 0 .tooLarge, s))
      ∧ (1 ≤ n → n ≤ 64 → body.length = 4 + 4 * n → at_ body 3 1 = 0 → ∀ keys, keys = (List.range n).map (fun k => refAt body (4 + 4 * k)) →
        (at_ body 2 1 = 0 → (s.kdpGet who body).2 = (s.readAll who false keys).2)
        ∧ (at_ body 2 1 = 1 → (s.kdpGet who body).2 = s)))
    ∧ (∀ i st, body.length = 12 → 1 ≤ at_ body 8 4 → at_ body 8 4 ≤ 65536 → 1 ≤ at_ body 4 3 → at_ body 7 1 = 0 →
      refAt body 0 / 256 + (at_ body 8 4 - 1) * at_ body 4 3 ≤ 0xFFFFFF →
      s.runFault who none 0 (runKeys (refAt body 0) (at_ body 4 3) (at_ body 8 4)) = some (i, st) →
      s.kdpGetbulk who body = (natBe 1 st.code ++ natBe 11 0 ++ natBe 4 i, s))
    ∧ (∀ l, 4 ≤ body.length → 1 ≤ at_ body 0 2 → at_ body 0 2 ≤ 64 → at_ body 2 2 = 0 → readItems (at_ body 0 2) (body.drop 4) = some l →
      (s.kdpSet ss x 4 false body).2 = (s.setEach x.who l).2
      ∧ (∀ t, s.setAll x.who (bulkOrder (placed l)) = .ok t → (s.kdpSet ss x 6 false body).2 = t)
      ∧ (∀ k i st, s.setAll x.who (bulkOrder (placed l)) = .error (k, i, st) →
        s.kdpSet ss x 6 false body = (resultBody .ok l ((placed l).map (fun y => if y.1 = k then st else .notApplied)), s.noteRefused i st))
      ∧ (x.group = none → s.kdpSet ss x 4 true body = (resultBody .conflict l (l.map (fun _ => .conflict)), s))
      ∧ (∀ g, x.group = some g → ∃ h, s.kdpSet ss x 4 true body =
        (resultBody .staged l (s.stageAll x.who s.groupBytes g l).1, s.setSess ss (some { x with group := some h }))
        ∧ (s.stageAll x.who s.groupBytes g l).1.length = l.length))
    ∧ (∀ seq, body.length = 16 → at_ body 3 1 = 0 → at_ body 1 1 ≤ 3 → at_ body 2 1 ≤ 1 → timeOk (at_ body 4 12) = true →
      (x.version = 0x10 → at_ body 1 1 = 0 ∧ at_ body 2 1 = 0 ∧ at_ body 4 12 = 0) →
      (at_ body 0 1 = 0 → x.group = none →
        s.kdpCommit ss x seq body = (some (failBody 9 0 0 .ok), s.setSess ss (some { x with group := some { since := s.rc } })))
      ∧ (at_ body 0 1 = 0 → x.group ≠ none → s.kdpCommit ss x seq body = (some (failBody 9 0 0 .conflict), s))
      ∧ (at_ body 0 1 = 1 → x.group = none → s.kdpCommit ss x seq body = (some (failBody 9 0 0 .conflict), s))
      ∧ (∀ g u, at_ body 0 1 = 1 → x.group = some g → u = s.setSess ss (some { x with group := none }) →
        (at_ body 4 12 = 0 →
          (g.failed = true → s.kdpCommit ss x seq body = (some (failBody 9 0 0 .conflict), u))
          ∧ (g.failed = false → s.kdpCommit ss x seq body =
            (some (resultBody .ok g.items (u.setBulk x.who g.items).1), (u.setBulk x.who g.items).2)))
        ∧ (at_ body 4 12 ≠ 0 → ofTime (at_ body 4 12) ≤ (s.viewNow (at_ body 1 1) % (timeMod : Int)).toNat + 2000000000 * 65536 →
          g.failed = false → x.waiting = none → s.viewReached (at_ body 1 1) (ofTime (at_ body 4 12)) = false →
          s.kdpCommit ss x seq body = (if ss = 0 then some (failBody 9 0 0 .staged) else none, s.setSess ss (some { x with
            group := none, waiting := some { items := g.items, view := at_ body 1 1, at_ := ofTime (at_ body 4 12), seq := seq } })))
        ∧ (at_ body 4 12 ≠ 0 → g.failed = false → x.waiting = none → s.viewReached (at_ body 1 1) (ofTime (at_ body 4 12)) = true →
          ofTime (at_ body 4 12) ≤ (s.viewNow (at_ body 1 1) % (timeMod : Int)).toNat + 2000000000 * 65536 →
          ∀ st z, (st, z) = u.setBulk x.who g.items → s.kdpCommit ss x seq body = (some (resultBody .ok g.items st),
            if ss = 0 then z.post 0xD502 4 [seq, (firstBad .ok st).code] else z)))
      ∧ (at_ body 0 1 = 2 → at_ body 2 1 = 0 → x.group ≠ none →
        s.kdpCommit ss x seq body = (some (failBody 9 0 0 .ok), s.setSess ss (some { x with group := none })))
      ∧ (at_ body 0 1 = 2 → at_ body 2 1 = 1 → x.waiting ≠ none →
        s.kdpCommit ss x seq body = (some (failBody 9 0 0 .ok), s.setSess ss (some { x with waiting := none }))))

/-- O55. The engine's times, settings and saves. A waiting group whose time is reached is applied and answered, over the host
port with event 0xD502 (R389, R426); an open group is discarded 60 s after it was opened (R388); at the end of a period a
subscription sends what has changed, at first every entry (R391); sessions close by idleness, without a role, by SESSION_CLOSE,
with a port no longer listened on or a key replaced (R377, R380, R398, R399); a lockout and the second after a failure end
(R377, R401, R475); a save takes the slot without the newest image, and its end is reported, with a valid image and the next
generation (R396, R401). Which cause a session without a role closes with is a free value, one of those of R401 (log entry 3).
That a session whose own request closes it closes after the reply is log entry 25 (DEDUCED); the slot and the generation of a
first image are log entry 27. -/
def Obligations.KdpTimes : Prop :=
  ∀ (s u : State) (ss ip cause k n : Nat) (who : Role) (v : Val), u = s.takes k n →
    ((s.sess ss).bind (·.waiting) = none → exec (.commitTimedApplyDue ss) s = .next s)
    ∧ (∀ x w, s.sess ss = some x → x.waiting = some w → ∀ a, a = s.gather.advance (s.viewReaches w.view w.at_ s.rc) →
      (a.viewReached w.view w.at_ = false → exec (.commitTimedApplyDue ss) s = .next (s.scatter a))
      ∧ (a.viewReached w.view w.at_ = true → ∀ b r, b = a.modSess ss (fun x => { x with waiting := none }) →
        r = State.setBulk { b with kdp := { b.kdp with serving := some ss } } x.who w.items →
        (ss ≠ 0 → exec (.commitTimedApplyDue ss) s = .next (s.scatter (State.served (r.2.reply
          ⟨.net x.port x.ip x.udp x.mac, x.version, 9, x.id, w.seq, if x.authed then some x.sk else none⟩ (resultBody .ok w.items r.1)) ss)))
        ∧ (ss = 0 → exec (.commitTimedApplyDue ss) s = .next (s.scatter ((State.served (r.2.reply
          ⟨.host, x.version, 9, x.id, w.seq, if x.authed then some x.sk else none⟩ (resultBody .ok w.items r.1)) 0).post 0xD502 4
          [w.seq, (firstBad .ok r.1).code])))))
    ∧ (∀ x g, s.sess ss = some x → x.group = some g → exec (.commitGroupTimeout ss) s =
      .next (((s.advance (g.since + 60 * rcSecond)).setSess ss (some { x with group := none })).bump Reg.kdpGroupsDiscarded 1))
    ∧ ((s.sess ss).bind (·.group) = none → exec (.commitGroupTimeout ss) s = .next s)
    ∧ (∀ id, s.sess ss = none ∨ (∀ b ∈ s.kdp.subs, b.ss ≠ ss ∨ b.id ≠ id) → exec (.subscriptionPeriod ss id) s = .next s)
    ∧ (∀ id b x l flat t a, s.kdp.subs.find? (fun b => b.ss == ss && b.id == id) = some b → s.sess ss = some x →
      a = s.advance b.due → l = b.keys.map (fun k => (a.readEntry x.who k false).1) →
      flat = l.map (fun v => (v.2.1, v.1.code, v.2.2)) →
      t = { a with kdp := { a.kdp with subs := a.kdp.subs.map (fun c => if c.ss == ss && c.id == id then
        { c with last := some flat, due := b.due + b.period * (rcSecond / 1000) } else c) } } →
      (b.last = some flat → exec (.subscriptionPeriod ss id) s = .next t)
      ∧ (b.last = none → exec (.subscriptionPeriod ss id) s = .next (t.each (notifyBodies id (t.notifyRoom x)
        ((b.keys.zip l).map (fun p => itemBytes p.1 p.2)) []) fun w body => w.notifyOut ss body)))
    ∧ (ss = 0 ∨ s.sess ss = none → exec (.sessionIdleTimeout ss) s = .next s)
    ∧ (∀ x, ss ≠ 0 → s.sess ss = some x → exec (.sessionIdleTimeout ss) s =
      .next (((s.advance (x.at_ + x.idle * rcSecond)).bump Reg.kdpSessionTimeouts 1).sessEnd ss 1))
    ∧ (∀ x, ss ≠ 0 → s.sess ss = some x → x.authed = false → x.role = 0 → ∀ a, a = s.advance (x.born + 5 * rcSecond) →
      Completes (.sessionAuthTimeout ss) s fun t =>
        (∃ cause ≤ 5, t = (State.bump { a with free := a.free + 1 } Reg.kdpSessionTimeouts 1).sessEnd ss cause)
        ∧ t.sess ss = none ∧ (∀ j, j ≠ ss → t.sess j = a.sess j) ∧ (∀ b ∈ t.kdp.subs, b.ss ≠ ss))
    ∧ (∀ x, s.sess ss = some x → x.authed = true ∨ x.role ≠ 0 → exec (.sessionAuthTimeout ss) s = .next s)
    ∧ (ss = 0 ∨ s.sess ss = none → exec (.sessionAuthTimeout ss) s = .next s)
    ∧ (∀ t, s.lockout ip = some t → Completes (.authLockoutEnd ip) s fun w => w.lockout ip = none
      ∧ ∀ a, a = s.advance (t + 10 * rcSecond) → w = { a with kdp := { a.kdp with locked := a.kdp.locked.filter (fun p => p.1 != ip) } })
    ∧ (s.lockout ip = none → exec (.authLockoutEnd ip) s = .next s)
    ∧ (s.kdp.hold.active = true → s.kdp.hold.count ≠ 0 → exec .authFailWindowEnd s =
      .next ({ s with kdp := { s.kdp with hold := { s.kdp.hold with count := 0 } } }.authPost s.kdp.hold.info s.kdp.hold.count s.kdp.hold.at_))
    ∧ (s.kdp.hold.count = 0 → exec .authFailWindowEnd s =
      .next { s with kdp := { s.kdp with hold := { s.kdp.hold with active := false, count := 0 } } })
    ∧ (k = Reg.kdpCfgListenM.key → s.Accepts who k v .kdpCfg 0 0 n →
      exec (.kdpCfgSet who v) s = .next ((applyKdpCfg u (s.get k)).say .ok))
    ∧ (k = (Reg.key ss).key → s.Accepts who k v .key ss 0 n → exec (.keySet who ss v) s =
      .next (((u.wr (Reg.keyStatusLoaded ss) 1).sessCloseIf (fun x => x.authed && x.slot == ss) 4).say .ok))
    ∧ (k = (Reg.keyCfgRole ss).key → s.Accepts who k v .keyCfg ss 0 n → exec (.keyCfgSet who ss v) s =
      .next ((u.sessCloseIf (fun x => x.authed && x.slot == ss) 4).say .ok))
    ∧ (k = (Reg.sessionCloseCmd ss).key → s.Accepts who k v .sessionClose ss 0 n →
      (s.kdp.serving ≠ some ss → exec (.sessionClose who ss v) s = .next ((u.sessEnd ss 2).say .ok))
      ∧ (s.kdp.serving = some ss → ss ≠ 0 → exec (.sessionClose who ss v) s =
        .next ({ u with kdp := { u.kdp with closing := some 2 } }.say .ok)))
    ∧ (k = Reg.saveCmdOp.key → s.Accepts who k v .saveCmd 0 0 n → Completes (.saveCmd who v) s fun t => ∃ slot,
      t.kdp.save = some { slot := slot, freeze := field n 2 1 == 1 } ∧ t.flash = s.flash.set slot none
      ∧ (∀ j x, s.flash.newest = some (j, x) → slot = 1 - j) ∧ t.rd Reg.saveStatusState = 1 ∧ t.rd Reg.saveStatusCause = 0)
    ∧ (s.kdp.save = none → exec (.saveDone cause) s = .next s)
    ∧ (∀ w j x, s.kdp.save = some w → s.flash.newest = some (j, x) → Completes (.saveDone cause) s fun t =>
      t.kdp.save = none ∧ t.rd Reg.saveStatusState = (if cause % 8 = 0 then 2 else 3) ∧ t.rd Reg.saveStatusCause = cause % 8
      ∧ (cause % 8 ≠ 0 → t.flash = s.flash)
      ∧ (cause % 8 = 0 → ∃ y, t.flash = s.flash.set w.slot (some y) ∧ y.gen = (x.gen + 1) % 2 ^ 32
        ∧ y.valid = true
        ∧ t.rd Reg.saveStatusGeneration = y.gen ∧ t.rd Reg.saveStatusSlot = w.slot % 2))

/-! The Letterbox and the host port. -/

/-- O56. Posting an event: below its code's threshold it is counted in LB_FILTERED and nothing else happens (R422). Else it
takes the next SEQ (R411); where the filling bank has room it joins it as the newest item, and where both banks were empty the
banks swap, so that it stands alone in the draining one (R413). Where there is no room, items of lower priority are removed, the
lowest first and among equals the latest, no more than are needed; where that is not enough it is lost and counted (R414). While
a moment lasts it stands in an assembly register; at the end of the moment the arbiter takes what stands there in ascending
order of CODE (R412, R421; which commands are one moment is log entry 14). An item that a flush cut takes no SEQ, and is counted
as swallowed (R419). A swap gives the draining bank its read order and, after a loss, puts the overflow item first into the
filling one (R413, R415). Nothing beside the Letterbox and its counters changes. -/
def Obligations.PostingAnEvent : Prop :=
  ∀ (s t : State) (code prio : Nat) (words : List Nat) (e : LbEvent) (i : LbItem), t = s.post code prio words →
    e = { code := code, prio := prio, words := words.map (· % 2 ^ 32) } →
    i = { code := code, prio := prio, seq := s.lb.seqNext % 256, words := e.words } →
    (prio < s.threshold code → t = s.bump Reg.hpLbFiltered 1)
    ∧ (∀ l, s.threshold code ≤ prio → s.lb.asm = some l → t = { s with lb := { s.lb with asm := some (l ++ [e]) } })
    ∧ (∀ p, s.threshold code ≤ prio → s.lb.asm = none → s.lb.cut.find? (fun p => p.1 == code) = some p →
      t.lb = { s.lb with cut := s.lb.cut.erase p }
      ∧ t.rd Reg.hpLbSwallowed = min (s.rd Reg.hpLbSwallowed + b2n p.2) (2 ^ Reg.hpLbSwallowed.w - 1))
    ∧ (s.threshold code ≤ prio → s.lb.asm = none → (∀ p ∈ s.lb.cut, p.1 ≠ code) →
      (lbWords s.lb.fill + i.size ≤ 512 →
        (s.lb.drain ≠ [] → t.lb = { s.lb with fill := s.lb.fill ++ [i], seqNext := (s.lb.seqNext + 1) % 256 })
        ∧ (s.lb.drain = [] → s.lb.fill = [] → s.lb.dropped = 0 → s.lb.displaced = 0 → t.lb =
          { s.lb with bank := 1 - s.lb.bank, drain := [i], cursor := 0, mark := none, seqNext := (s.lb.seqNext + 1) % 256
                      firstLost := none })
        ∧ t.rd Reg.hpLbPosted =
          min (s.rd Reg.hpLbPosted + 1 + (if s.lb.drain = [] ∧ s.lb.lossy = true then 1 else 0)) (2 ^ Reg.hpLbPosted.w - 1))
      ∧ (s.lb.drain ≠ [] → 512 < lbWords s.lb.fill + i.size →
        (512 < lbWords (s.lb.fill.filter (fun j => prio ≤ j.prio)) + i.size →
          t.lb = { s.lb with seqNext := (s.lb.seqNext + 1) % 256, dropped := s.lb.dropped + 1
                             firstLost := some (s.lb.firstLost.getD i.seq) }
          ∧ t.rd Reg.hpLbDropped = min (s.rd Reg.hpLbDropped + 1) (2 ^ Reg.hpLbDropped.w - 1))
        ∧ (lbWords (s.lb.fill.filter (fun j => prio ≤ j.prio)) + i.size ≤ 512 → ∃ kept gone : List LbItem,
          t.lb = { s.lb with fill := kept ++ [i], seqNext := (s.lb.seqNext + 1) % 256
                             displaced := s.lb.displaced + gone.length
                             firstLost := some (s.lb.firstLost.getD ((gone.head?.map (·.seq)).getD 0)) }
          ∧ kept.Sublist s.lb.fill ∧ (kept ++ gone).Perm s.lb.fill ∧ (∀ g ∈ gone, g.prio < prio ∧ ∀ k ∈ kept, g.prio ≤ k.prio)
          ∧ (∀ q, kept.filter (fun k => k.prio == q) <+: s.lb.fill.filter (fun k => k.prio == q))
          ∧ (∀ g, gone.getLast? = some g → 512 < lbWords kept + g.size + i.size)
          ∧ t.rd Reg.hpLbPosted = min (s.rd Reg.hpLbPosted + 1) (2 ^ Reg.hpLbPosted.w - 1)
          ∧ t.rd Reg.hpLbDisplaced = min (s.rd Reg.hpLbDisplaced + gone.length) (2 ^ Reg.hpLbDisplaced.w - 1))))
    ∧ (∀ (u : State) (l : List LbEvent), s.lb.asm = none → u.lb.asm = some l → ∃ m : List LbEvent, m.Perm l
      ∧ m.Pairwise (fun x y => x.code ≤ y.code) ∧ (∀ c, m.filter (fun x => x.code == c) = l.filter (fun x => x.code == c))
      ∧ ∀ v, v = m.foldl State.lbSend { u with lb := { u.lb with asm := some [] } } →
        s.scatter u = { v with lb := { v.lb with asm := none } })
    ∧ (s.lb.drain = [] → s.lb.fill ≠ [] → ∀ u, u = s.lbSwapIfDue → u.lb.bank = 1 - s.lb.bank ∧ u.lb.cursor = 0 ∧ u.lb.mark = none
      ∧ u.lb.drain.Perm s.lb.fill ∧ u.lb.drain.Pairwise (fun x y => y.prio ≤ x.prio)
      ∧ (∀ q, u.lb.drain.filter (fun k => k.prio == q) = s.lb.fill.filter (fun k => k.prio == q))
      ∧ u.lb.dropped = 0 ∧ u.lb.displaced = 0 ∧ u.lb.firstLost = none
      ∧ (s.lb.dropped = 0 → s.lb.displaced = 0 → u.lb.fill = [] ∧ u.lb.seqNext = s.lb.seqNext)
      ∧ (0 < s.lb.dropped ∨ 0 < s.lb.displaced → u.lb.seqNext = (s.lb.seqNext + 1) % 256 ∧ u.lb.fill = [{
        code := 0xD501, prio := 7, seq := s.lb.seqNext % 256
        words := [min s.lb.dropped 0xFFFF + min s.lb.displaced 0xFFFF * 65536, s.lb.firstLost.getD 0] }]))
    ∧ (∀ k, k ∉ lbKeys → t.get k = s.get k) ∧ t = { s with regs := t.regs, lb := t.lb }

/-- The host port's transactions with an opcode of their own: the command, and its opcode (R406). -/
def HpRows (flags arg : Nat) (data : List Byte) (crc : Nat) (c : Instr) (op : Nat) : Prop :=
  (c, op) ∈ [(Instr.hpRequest flags arg data crc, 1), (.hpReply flags arg data crc, 2), (.hpNotify flags arg data crc, 3),
    (.hpNotifyRelease flags arg data crc, 4), (.hpPop flags arg data crc, 5), (.hpRelease flags arg data crc, 6),
    (.hpMark flags arg data crc, 7), (.hpRewind flags arg data crc, 8), (.hpStatus flags arg data crc, 9),
    (.hpEcho flags arg data crc, 10)]

/-- O57. The host port. A transaction that a check of R407 turns away, in the order CRC, BAD, NOT_READY, BUSY, is answered so,
without data, and has no effect. Otherwise REQUEST hands its message to the engine and discards the reply, REPLY and NOTIFY
return the oldest without removing it, and NOTIFY_RELEASE removes the NOTIFY it names (R408, R409); POP returns items and moves
the cursor (R416, R420); STATUS and ECHO change nothing (R406, R410). LB_FLUSH empties both banks, discards what is in assembly,
which the command names, and cuts it, so that its later words are swallowed (R419; log entry 14). A transaction cut short is
counted and has no response (R405). -/
def Obligations.HostPort : Prop :=
  ∀ (s : State) (op flags arg crc : Nat) (data : List Byte),
    (∀ c, HpRows flags arg data crc c op →
      (s.boot.low = true → exec c s = .next s)
      ∧ (s.boot.low = false → s.hpGate op flags arg data crc ≠ 0 → exec c s = .next (s.hpRespond (s.hpGate op flags arg data crc) [])))
    ∧ ((crc ≠ crc32c (hpCommand op flags arg data) → s.hpGate op flags arg data crc = 1)
      ∧ (crc = crc32c (hpCommand op flags arg data) → hpAllowed op flags arg data.length = false → s.hpGate op flags arg data crc = 3)
      ∧ (crc = crc32c (hpCommand op flags arg data) → hpAllowed op flags arg data.length = true →
        s.on Reg.deviceStatusChipReady = false → op < 9 → s.hpGate op flags arg data crc = 7)
      ∧ (crc = crc32c (hpCommand op flags arg data) → hpAllowed op flags arg data.length = true →
        s.on Reg.deviceStatusChipReady = true → op = 1 → s.host.request ≠ none → s.hpGate op flags arg data crc = 2))
    ∧ (s.boot.low = false → s.hpGate op flags arg data crc = 0 →
      (op = 1 → exec (.hpRequest flags arg data crc) s = .next (State.hpRespond
        { s with host := { s.host with request := some data, reply := none, replyRead := false } } 0 []))
      ∧ (op = 2 → (∀ l, s.host.reply = some l → exec (.hpReply flags arg data crc) s =
          .next (State.hpRespond { s with host := { s.host with replyRead := true } } 0 l))
        ∧ (s.host.reply = none → exec (.hpReply flags arg data crc) s = .next (s.hpRespond 4 [])))
      ∧ (op = 3 → (∀ p l, s.host.notify = p :: l → exec (.hpNotify flags arg data crc) s = .next (s.hpRespond 0 p.2))
        ∧ (s.host.notify = [] → exec (.hpNotify flags arg data crc) s = .next (s.hpRespond 4 [])))
      ∧ (op = 4 → (∀ p l, s.host.notify = p :: l → p.1 % 2 ^ 16 = arg → exec (.hpNotifyRelease flags arg data crc) s =
          .next (State.hpRespond { s with host := { s.host with notify := l } } 0 []))
        ∧ ((∀ p l, s.host.notify = p :: l → p.1 % 2 ^ 16 ≠ arg) → exec (.hpNotifyRelease flags arg data crc) s = .next (s.hpRespond 6 [])))
      ∧ (op = 5 → ∀ l, l = (s.lb.drain.drop s.lb.cursor).take arg → exec (.hpPop flags arg data crc) s = .next (State.hpRespond
          { s with lb := { s.lb with cursor := s.lb.cursor + l.length
                                     mark := if bit flags 0 then some s.lb.cursor else s.lb.mark } } 0
          (if l = [] then [0, 0, 0, 0] else l.flatMap fun i => (i.head :: i.words).flatMap (natBe 4))))
      ∧ (op = 9 → exec (.hpStatus flags arg data crc) s = .next (s.hpRespond 0 s.hpStatusData))
      ∧ (op = 10 → exec (.hpEcho flags arg data crc) s = .next (s.hpRespond 0 data)))
    ∧ (hpAllowed op flags arg data.length = true → exec (.hpBadOpcode op flags arg data crc) s = .next s)
    ∧ (hpAllowed op flags arg data.length = false → s.boot.low = false → exec (.hpBadOpcode op flags arg data crc) s =
      .next (s.hpRespond (if crc = crc32c (hpCommand op flags arg data) then 3 else 1) []))
    ∧ (s.boot.low = false → ∀ t, t = s.bump Reg.hpHpAbort 1 →
      exec .hpTransactionAbort s = .next { t with host := { t.host with response := [] } })
    ∧ (∀ who v n u mid last, s.Accepts who Reg.lbCmdCmd.key v .lbCmd 0 0 n → u = s.takes Reg.lbCmdCmd.key n →
      Completes (.lbFlush who v mid last) s fun t => t.lb = { s.lb with
          asm := s.lb.asm.map (fun _ => []), begun := none, drain := [], cursor := 0, mark := none, fill := []
          cut := s.lb.cut ++ (mid.map (fun c => (c, true)) ++ last.map (fun c => (c, false))) }
        ∧ t.rd Reg.hpLbFlushed = min (s.rd Reg.hpLbFlushed + (s.lb.drain.length + s.lb.fill.length + (s.lb.asm.getD []).length
          + (mid.length + last.length))) (2 ^ Reg.hpLbFlushed.w - 1) ∧ t.answer.status = .ok)

/-- O58. RELEASE with ARG n frees the first n unreleased items in read order, with ARG 0 every popped item, and moves a mark
that lies before the first unreleased item to that item; more than were popped is CONFLICT and frees nothing (R417). MARK sets
the mark to the cursor; REWIND moves the cursor back to it, so that the items from there on are popped again, and without a mark
answers NO_MARK (R418). -/
def Obligations.ReleaseMarkRewind : Prop :=
  ∀ (s : State) (op flags arg crc : Nat) (data : List Byte), s.boot.low = false → s.hpGate op flags arg data crc = 0 →
    (op = 6 → (s.lb.cursor < arg → exec (.hpRelease flags arg data crc) s = .next (s.hpRespond 6 []))
      ∧ (arg ≤ s.lb.cursor → ∀ k, k = (if arg = 0 then s.lb.cursor else arg) → exec (.hpRelease flags arg data crc) s =
        .next ((State.lbSwapIfDue { s with lb := { s.lb with
          drain := s.lb.drain.drop k, cursor := s.lb.cursor - k, mark := s.lb.mark.map (· - k) } }).hpRespond 0 [])))
    ∧ (op = 7 → exec (.hpMark flags arg data crc) s = .next (State.hpRespond { s with lb := { s.lb with mark := some s.lb.cursor } } 0 []))
    ∧ (op = 8 → (∀ m, s.lb.mark = some m → exec (.hpRewind flags arg data crc) s =
        .next (State.hpRespond { s with lb := { s.lb with cursor := m } } 0 []))
      ∧ (s.lb.mark = none → exec (.hpRewind flags arg data crc) s = .next (s.hpRespond 5 [])))

/-! Startup and self-tests. -/

/-- O59. Startup. VDD_PLL_UP drives the VID code (R429). RESET_RELEASE samples the straps and the bank voltages (R225, R430);
100 µs later LO_CLK has at least 500 edges or the crystal is the oscillator (R432). A valid boot record starts the lock with its
LO_CFG, any other boot record sets CFG_INVALID (R433, R434). PLL_LOCK makes RC 0 and starts MD0 where it is enabled (R57, R437);
a lock that fails or an oscillator lost stops the clocks, the latter with event 0x0001: RC stands, every domain that ran stops
with its TICK_COUNT, and the work of the tick in progress runs to its end (R37, R434, R439). FABRIC_INIT_DONE and the load of
saved state lead to CHIP_READY, the load with event 0xD004 (R397, R431). What a boot record is judged by is log entry 31, that
the first FABRIC_INIT_DONE changes nothing but readiness log entry 39, and what the second one keeps log entry 32 (all DEDUCED).
-/
def Obligations.Startup : Prop :=
  ∀ (s : State) (straps edges step n : Nat) (volts : List Nat) (who : Role) (v : Val) (rec : Option (List Byte)),
    exec .vddPllUp s = .next { s with volt := { s.volt with driven := true } }
    ∧ (s.boot.low = false → exec (.resetRelease straps volts) s = .next s)
    ∧ (s.boot.low = true → Completes (.resetRelease straps volts) s fun t =>
      t.rd Reg.deviceStatusBootMode = straps % 4 ∧ (∀ b < 4, t.rd (Reg.bankStatusVolt b) = volts.getD b 0 % 4)
      ∧ t.boot = { s.boot with low := false, detect := true }
      ∧ ∀ k, k ≠ Reg.deviceStatusBootMode.key → (∀ b < 4, k ≠ (Reg.bankStatusVolt b).key) → t.get k = s.get k)
    ∧ (s.boot.detect = true → exec (.loDetect edges) s = .next
      { s.wr Reg.deviceStatusLoInput (b2n (decide (500 ≤ edges))) with boot := { s.boot with
        detect := false, record := s.rd Reg.deviceStatusBootMode == 1 || s.rd Reg.deviceStatusBootMode == 2 } })
    ∧ (s.boot.detect = false → exec (.loDetect edges) s = .next s)
    ∧ (s.boot.record = true → ∀ u, u = { s with boot := { s.boot with record := false } } →
      (∀ cfg, rec.bind (fun l => bootRecord l (s.on Reg.deviceStatusLoInput)) = some cfg → exec (.bootRecordRead rec) s =
        .next ((((State.put { u with boot := { u.boot with load := s.rd Reg.deviceStatusBootMode == 1 } } Reg.loCfgLoFreq.key cfg).put
          Reg.loFreq.key (cfg % 16)).wr Reg.deviceStatusClockState 1)))
      ∧ (rec.bind (fun l => bootRecord l (s.on Reg.deviceStatusLoInput)) = none →
        exec (.bootRecordRead rec) s = .next (u.wr Reg.deviceStatusCfgInvalid 1).readyCheck))
    ∧ (s.boot.record = false → exec (.bootRecordRead rec) s = .next s)
    ∧ (s.Accepts who Reg.loCfgLoFreq.key v .loCfg 0 0 n → ∀ u, u = s.takes Reg.loCfgLoFreq.key n →
      exec (.loCfgSet who v) s = .next (((u.put Reg.loFreq.key (n % 16)).wr Reg.deviceStatusClockState 1).say .ok))
    ∧ (s.rd Reg.deviceStatusClockState = 1 → Completes .pllLock s fun t =>
      t.rc = 0 ∧ t.rd Reg.deviceStatusClockState = 2
      ∧ (s.on (Reg.mdCtrlEnable 0) = true → t.rd (Reg.domainRunRunning 0) = 1 ∧ t.get (Reg.tickCount 0).key = 0)
      ∧ (s.rd Reg.deviceStatusBootMode = 1 → s.boot.load = true → s.on Reg.deviceStatusCfgInvalid = false →
        t.on Reg.deviceStatusChipReady = s.on Reg.deviceStatusChipReady))
    ∧ (s.rd Reg.deviceStatusClockState ≠ 1 → exec .pllLock s = .next s)
    ∧ (s.rd Reg.deviceStatusClockState = 1 → exec .pllLockTimeout s = .next (s.wr Reg.deviceStatusClockState 3))
    ∧ (s.rd Reg.deviceStatusClockState ≠ 1 → exec .pllLockTimeout s = .next s)
    ∧ (s.boot.low = true ∨ s.boot.detect = true ∨ s.on Reg.deviceStatusLoLost = true → exec .loLost s = .next s)
    ∧ (s.boot.low = false → s.boot.detect = false → s.on Reg.deviceStatusLoLost = false →
      exec .loLost s = .next (s.scatter (State.post (State.wr (State.wr (s.gather.units 4 fun z d =>
        if z.running d = true then z.domainHalt d else z) Reg.deviceStatusClockState 3) Reg.deviceStatusLoLost 1) 0x0001 7 []))
      ∧ Completes .loLost s fun t => t.rc = s.rc ∧ t.locked = false ∧ t.rd Reg.deviceStatusClockState = 3
        ∧ t.rd Reg.deviceStatusLoLost = 1
        ∧ ∀ d < 4, t.running d = false ∧ t.get (Reg.tickCount d).key = s.get (Reg.tickCount d).key)
    ∧ (∀ (u z : State) (d : Nat), z = (if (u.tick d).open_ = true ∧ (u.tick d).launched = false then u.finishWork d else u) →
      (u.domainHalt d).tick d = {} ∧ (u.domainHalt d).rooms = z.rooms ∧ (u.domainHalt d).hall = z.hall
      ∧ (u.domainHalt d).cellar = z.cellar ∧ (u.domainHalt d).lb = z.lb)
    ∧ (s.boot.low = false → s.boot.fabric = false → s.boot.tested = false →
      exec .fabricInitDone s = .next (State.readyCheck { s with boot := { s.boot with fabric := true } }))
    ∧ (s.boot.low = false → s.boot.fabric = false → s.boot.tested = true →
      exec .fabricInitDone s = .next (s.scatter (State.readyCheck
        { s.gather.reinit with boot := { s.gather.reinit.boot with fabric := true } })))
    ∧ (s.boot.low = true ∨ s.boot.fabric = true → exec .fabricInitDone s = .next s)
    ∧ (s.boot.load = true → s.boot.fabric = true → s.locked = true →
      (s.flash.newest = none → ∀ u, u = s.gather.post 0xD004 5 [0, s.rd Reg.kdpLoadSkipped] →
        exec (.bootLoad step) s = .next (s.scatter (State.readyCheck { u with boot := { u.boot with load := false } })))
      ∧ (∀ slot x u w, s.flash.newest = some (slot, x) →
        u = (((s.gather.loadImage x step).wr Reg.saveStatusLoaded 1).wr Reg.saveStatusSlot slot).wr Reg.saveStatusGeneration x.gen →
        w = u.post 0xD004 5 [pack [(0, 1), (1, slot)], u.rd Reg.kdpLoadSkipped] →
        exec (.bootLoad step) s = .next (s.scatter (State.readyCheck { w with boot := { w.boot with load := false } }))))
    ∧ (s.boot.load = false ∨ s.boot.fabric = false ∨ s.locked = false → exec (.bootLoad step) s = .next s)
    ∧ (s.boot.fabric = true → s.rd Reg.deviceStatusBootMode = 0 → s.readyCheck = s.wr Reg.deviceStatusChipReady 1)
    ∧ (s.boot.fabric = false → s.readyCheck = s)

/-- O60. The self-tests. DW_TEST takes a free guest core, loads it with the room's state and starts the first block (R449); that
it takes a core being loaded for a restore where there is no other is log entry 22 (DEDUCED). Its end is reported with event
0xE001, by a block that differed or took too long as FAILED, and the guest core self-tests (R449, R453). DDR_TEST starts, and is
aborted, with what it has found by then (a free value, log entry 3), or ends with what it found (R451, R453). HALL_TEST tests
its tiles one by one, back to back where the Hall's domain does not run, and is reported when each has had its turn (R452,
R453). The production self-tests start in test mode once locked, and fence the cores that failed (R440). The form of the LFSR is
log entry 23 (PRESUMED), the first block without the time of a warm-up log entry 36 (DESIGN CHOICE), a DDR_TEST started anew log
entry 37 (DEDUCED). -/
def Obligations.SelfTests : Prop :=
  ∀ (s : State) (who : Role) (v : Val) (n errors addr dq k : Nat) (u : State), u = s.takes k n →
    (k = Reg.dwTestRoom.key → s.Accepts who k v .dwTest 0 0 n → ∀ j w, u.dwSlot = some j →
      w = (State.put (State.restoreAgain ((u.shadowEnd j).setSlot j { (u.shadowEnd j).slot j with
        state := 2, own := ((u.shadowEnd j).room (field n 0 5)).core, junk := none }) j) Reg.dwTestStatusState.key 1).seekBoth →
      (u.slotFree 0 = true → j = 0) ∧ (u.slotFree 0 = false → u.slotFree 1 = true → j = 1)
      ∧ exec (.dwTestSet who v) s = .next ((w.dwBlock { room := field n 0 5, slot := j, blocks := field n 8 24, lfsr := field n 32 32 }).say .ok))
    ∧ (s.dw = none → ∀ b, exec (.dwTestDone b) s = .next s)
    ∧ (∀ t, s.dw = some t → t.ended = false → exec (.dwTestDone false) s = .next s)
    ∧ (∀ t b first, s.dw = some t → t.ended = true ∨ b = true →
      first = (if t.ended then s.rd Reg.dwTestStatusFirstFail else s.rd Reg.dwTestStatusBlocksDone + 1) →
      first < 2 ^ Reg.dwTestStatusFirstFail.w → ∃ w : State,
      exec (.dwTestDone b) s = .next (s.scatter (w.post 0xE001 4 [pack [(0, 1), (4, if first = 0 then 0 else 1)], first]))
      ∧ w.dw = none ∧ w.rd Reg.dwTestStatusState = (if first = 0 then 2 else 3) ∧ w.rd Reg.dwTestStatusFirstFail = first
      ∧ w.rd Reg.dwTestStatusTimeout = (if t.ended then s.rd Reg.dwTestStatusTimeout else 1)
      ∧ (w.room t.room).block = false ∧ (w.room t.room).blocks = [] ∧ (∀ r ≠ t.room, w.room r = s.room r)
      ∧ ∀ c, (s.slot t.slot).core = some c → (w.core c).service = 2)
    ∧ (k = Reg.ddrTestCmd.key → s.Accepts who k v .ddrTest 0 0 n →
      (n = 1 → exec (.ddrTestStart who v) s = .next
        ({ (u.put Reg.ddrTestStatusState.key 1).put Reg.ddrTestDqDq.key 0 with ddrTest := true }.say .ok))
      ∧ (n = 2 → s.ddrTest = true → ∃ found : Nat × Nat × Nat, ∀ z, z = u.ddrReport found →
        exec (.ddrTestAbort who v) s = .next ((State.post { z.wr Reg.ddrTestStatusState 4 with ddrTest := false }
          0xE001 4 [pack [(0, 2), (4, 2)], z.rd Reg.ddrTestStatusErrors]).say .ok))
      ∧ (n = 2 → s.ddrTest = false → exec (.ddrTestAbort who v) s = .next (u.say .ok)))
    ∧ (s.ddrTest = false → exec (.ddrTestDone errors addr dq) s = .next s)
    ∧ (s.ddrTest = true → Completes (.ddrTestDone errors addr dq) s fun t =>
      (∃ w : State, t = w.post 0xE001 4 [pack [(0, 2), (4, if errors = 0 then 0 else 1)], min errors 0xFFFFFF])
      ∧ t.ddrTest = false ∧ t.rd Reg.ddrTestStatusErrors = min errors 0xFFFFFF
      ∧ t.rd Reg.ddrTestStatusState = (if errors = 0 then 2 else 3)
      ∧ (errors ≠ 0 → t.rd Reg.ddrTestStatusFirstAddr = addr % 2 ^ Reg.ddrTestStatusFirstAddr.w
        ∧ t.rd Reg.ddrTestDqDq = dq % 2 ^ Reg.ddrTestDqDq.w))
    ∧ (k = Reg.hallTestFirst.key → s.Accepts who k v .hallTest 0 0 n →
      ∀ w, w = { u.put Reg.hallTestStatusState.key 1 with hallTest := some { first := field n 0 10, count := field n 10 11 } } →
      (w.hallRuns = true → exec (.hallTestSet who v) s = .next (w.say .ok))
      ∧ (w.hallRuns = false → exec (.hallTestSet who v) s = .next ((State.hallTurns 1025 w).say .ok)))
    ∧ (∀ w b, s.hallTest = some w → s.hallRuns = false →
      exec (.hallTestTileDone b) s = .next (s.scatter (State.hallTurns 1025 (s.gather.hallTileDone b))))
    ∧ (∀ b, s.hallTest = none ∨ s.hallRuns = true → exec (.hallTestTileDone b) s = .next s)
    ∧ (∀ w, s.hallTest = some w → w.count ≤ w.turn → w.cur = none → exec .hallTestDone s = .next
      (State.post { s.wr Reg.hallTestStatusState (if s.rd Reg.hallTestStatusFailed = 0 then 2 else 3) with hallTest := none } 0xE001 4
        [pack [(0, 3), (4, if s.rd Reg.hallTestStatusFailed = 0 then 0 else 1)], s.rd Reg.hallTestStatusFailed]))
    ∧ (∀ w, s.hallTest = some w → w.turn < w.count ∨ w.cur ≠ none → exec .hallTestDone s = .next s)
    ∧ (s.hallTest = none → exec .hallTestDone s = .next s)
    ∧ (s.boot.testWant = true → s.locked = true → exec .productionSelftestStart s =
      .next { s with boot := { s.boot with testWant := false, testing := true } })
    ∧ (s.boot.testWant = false ∨ s.locked = false → exec .productionSelftestStart s = .next s)
    ∧ (∀ a b c d l, s.boot.testing = false → exec (.productionSelftestDone a b c d l) s = .next s)
    ∧ (∀ a b c d, s.boot.testing = true → Completes (.productionSelftestDone a b c d []) s fun t =>
      t.rd Reg.selftestResultDone = 1 ∧ t.get Reg.selftestResultDone.key = pack [(0, 1), (1, b2n a), (2, b2n b), (3, b2n c), (4, 1), (5, b2n d)]
      ∧ t.boot = { s.boot with testing := false, tested := true, fabric := false })
    ∧ (∀ a b c d r, s.boot.testing = true → s.fuse.hasRoom r = true → Completes (.productionSelftestDone a b c d [r]) s fun t =>
      (t.core r).service = 3 ∧ (∀ q, q ≠ r → t.core q = s.core q)
      ∧ t.boot = { s.boot with testing := false, tested := true, fabric := false })
end

