-- ==== Sys2Proof/Laws/Store.lean ====
section
/-! SUPPORT. The laws of the canonical sparse store: what a read after a write gives, and that a write keeps the canonical form. -/

namespace Sys2Proof.Machine

variable {α : Type}

theorem Sparse.get_nil (d : Nat → α) (k : Nat) : Sparse.get d [] k = d k := rfl

theorem Sparse.get_cons (d : Nat → α) (a : Nat) (v : α) (r : Sparse α) (k : Nat) :
    Sparse.get d ((a, v) :: r) k = if a = k then v else if k < a then d k else Sparse.get d r k := rfl

/-- Dropping the pairs at or below `k` changes no read above `k`. -/
theorem Sparse.get_dropWhile (d : Nat → α) {k j : Nat} (h : k < j) (m : Sparse α) :
    Sparse.get d (m.dropWhile (fun p => decide (p.1 ≤ k))) j = Sparse.get d m j := by
  induction m with
  | nil => rfl
  | cons p r ih =>
    obtain ⟨a, v⟩ := p
    by_cases ha : a ≤ k
    · rw [List.dropWhile_cons_of_pos (by simpa using ha), ih, Sparse.get_cons, if_neg (by omega), if_neg (by omega)]
    · rw [List.dropWhile_cons_of_neg (by simpa using ha)]

/-- After the pairs at or below `k` are dropped, keys up to `k` read as unlisted. -/
theorem Sparse.get_dropWhile_le (d : Nat → α) {k j : Nat} (h : j ≤ k) (m : Sparse α) :
    Sparse.get d (m.dropWhile (fun p => decide (p.1 ≤ k))) j = d j := by
  induction m with
  | nil => rfl
  | cons p r ih =>
    obtain ⟨a, v⟩ := p
    by_cases ha : a ≤ k
    · rw [List.dropWhile_cons_of_pos (by simpa using ha), ih]
    · rw [List.dropWhile_cons_of_neg (by simpa using ha), Sparse.get_cons, if_neg (by omega), if_pos (by omega)]

variable [DecidableEq α]

/-- A read of the key just written gives the value written. -/
@[simp] theorem Sparse.get_put_same (d : Nat → α) (m : Sparse α) (k : Nat) (v : α) :
    Sparse.get d (Sparse.put d m k v) k = v := by
  induction m with
  | nil => unfold Sparse.put; split <;> simp_all [Sparse.get]
  | cons p r ih =>
    obtain ⟨a, w⟩ := p
    unfold Sparse.put
    split
    · split
      · simp_all [Sparse.get]; omega
      · simp [Sparse.get]
    · split
      · split
        · rw [Sparse.get_dropWhile_le d (Nat.le_refl k)]; symm; assumption
        · simp [Sparse.get]
      · rw [Sparse.get_cons, if_neg (by assumption), if_neg (by assumption), ih]

/-- A read of any other key is unchanged by a write. -/
theorem Sparse.get_put_ne (d : Nat → α) (m : Sparse α) {k j : Nat} (v : α) (h : j ≠ k) :
    Sparse.get d (Sparse.put d m k v) j = Sparse.get d m j := by
  induction m with
  | nil => unfold Sparse.put; split <;> simp [Sparse.get]; intro e; exact absurd e.symm h
  | cons p r ih =>
    obtain ⟨a, w⟩ := p
    unfold Sparse.put
    split
    · rename_i hk
      split
      · rfl
      · have h' : ¬ k = j := fun e => h e.symm
        by_cases hj : j < k
        · simp [Sparse.get_cons, h', hj, show ¬ a = j by omega, show j < a by omega]
        · simp [Sparse.get_cons, h', hj]
    · split
      · rename_i hk e
        subst e
        have h' : ¬ a = j := fun e => h e.symm
        by_cases hj : j < a
        · split <;> simp [Sparse.get_cons, h', hj, Sparse.get_dropWhile_le d (Nat.le_of_lt hj)]
        · split <;> simp [Sparse.get_cons, h', hj, Sparse.get_dropWhile d (show a < j by omega)]
      · rw [Sparse.get_cons, Sparse.get_cons, ih]

omit [DecidableEq α] in
/-- A rising list rises from a lower bound too. -/
theorem Sparse.sorted_weaken {a b : Nat} (h : b ≤ a) :
    (m : Sparse α) → Sparse.sorted (some a) m = true → Sparse.sorted (some b) m = true
  | [], _ => rfl
  | (c, _) :: r, hs => by
    simp only [Sparse.sorted, Bool.and_eq_true, decide_eq_true_eq] at hs ⊢
    exact ⟨by omega, hs.2⟩

omit [DecidableEq α] in
/-- A rising list rises without a bound. -/
theorem Sparse.sorted_none {a : Nat} : (m : Sparse α) → Sparse.sorted (some a) m = true → Sparse.sorted none m = true
  | [], _ => rfl
  | (c, _) :: r, hs => by
    simp only [Sparse.sorted, Bool.and_eq_true, decide_eq_true_eq] at hs ⊢
    exact hs.2

omit [DecidableEq α] in
/-- Nothing is dropped from a list that lies above `k`. -/
theorem Sparse.dropWhile_above {k : Nat} :
    (m : Sparse α) → Sparse.sorted (some k) m = true → m.dropWhile (fun p => decide (p.1 ≤ k)) = m
  | [], _ => rfl
  | (c, _) :: r, hs => by
    simp only [Sparse.sorted, Bool.and_eq_true, decide_eq_true_eq] at hs
    exact List.dropWhile_cons_of_neg (by simpa using hs.1)

/-- A write keeps the keys rising above any bound below them. -/
theorem Sparse.sorted_put (d : Nat → α) (k : Nat) (v : α) : (m : Sparse α) → (b : Nat) → b < k →
    Sparse.sorted (some b) m = true → Sparse.sorted (some b) (Sparse.put d m k v) = true
  | [], b, hb, _ => by unfold Sparse.put; split <;> simp [Sparse.sorted, hb]
  | (a, w) :: r, b, hb, hs => by
    simp only [Sparse.sorted, Bool.and_eq_true, decide_eq_true_eq] at hs
    unfold Sparse.put
    split
    · split <;> simp_all [Sparse.sorted]
    · split
      · rename_i e; subst e
        rw [Sparse.dropWhile_above r hs.2]
        split
        · exact Sparse.sorted_weaken (by omega) r hs.2
        · simp [Sparse.sorted, hb, hs.2]
      · simp only [Sparse.sorted, Bool.and_eq_true, decide_eq_true_eq]
        exact ⟨hs.1, Sparse.sorted_put d k v r a (by omega) hs.2⟩

/-- A write keeps the keys rising. -/
theorem Sparse.sorted_put_none (d : Nat → α) (k : Nat) (v : α) (m : Sparse α) (hs : Sparse.sorted none m = true) :
    Sparse.sorted none (Sparse.put d m k v) = true := by
  cases m with
  | nil => unfold Sparse.put; split <;> simp [Sparse.sorted]
  | cons p r =>
    obtain ⟨a, w⟩ := p
    simp only [Sparse.sorted] at hs
    unfold Sparse.put
    split
    · split <;> simp_all [Sparse.sorted]
    · split
      · rename_i e; subst e
        rw [Sparse.dropWhile_above r hs]
        split
        · exact Sparse.sorted_none r hs
        · simpa [Sparse.sorted] using hs
      · exact Sparse.sorted_put d k v r a (by omega) hs

/-- A write leaves no pair that says what an unlisted key reads as. -/
theorem Sparse.proper_put (d : Nat → α) (k : Nat) (v : α) : (m : Sparse α) →
    (∀ p ∈ m, p.2 ≠ d p.1) → ∀ p ∈ Sparse.put d m k v, p.2 ≠ d p.1
  | [], _ => by unfold Sparse.put; split <;> simp_all
  | (a, w) :: r, h => by
    have hr : ∀ p ∈ r, p.2 ≠ d p.1 := fun p hp => h p (List.mem_cons_of_mem _ hp)
    have hd : ∀ p ∈ r.dropWhile (fun p => decide (p.1 ≤ k)), p.2 ≠ d p.1 :=
      fun p hp => hr p (List.dropWhile_suffix _ |>.subset hp)
    unfold Sparse.put
    split
    · split
      · exact h
      · intro p hp
        rcases List.mem_cons.mp hp with rfl | hp
        · assumption
        · exact h p hp
    · split
      · split
        · exact hd
        · intro p hp
          rcases List.mem_cons.mp hp with rfl | hp
          · assumption
          · exact hd p hp
      · intro p hp
        rcases List.mem_cons.mp hp with rfl | hp
        · exact h _ (List.mem_cons_self ..)
        · exact Sparse.proper_put d k v r hr p hp

/-- A write keeps the canonical form. -/
theorem Sparse.wf_put (d : Nat → α) (m : Sparse α) (k : Nat) (v : α) (h : Sparse.wf d m = true) :
    Sparse.wf d (Sparse.put d m k v) = true := by
  simp only [Sparse.wf, Bool.and_eq_true, List.all_eq_true, decide_eq_true_eq] at h ⊢
  exact ⟨Sparse.sorted_put_none d k v m h.1, Sparse.proper_put d k v m h.2⟩

end Sys2Proof.Machine
end

