-- ==== Sys2Proof/Laws/State.lean ====
section
/-! SUPPORT. The laws of the state: one lemma per field per update, what a read of an entry or field gives after a write, and
what each unit's table gives after its setter. -/

namespace Sys2Proof.Machine

@[simp] theorem State.put_fuse (s : State) (key v : Nat) : (s.put key v).fuse = s.fuse := rfl
@[simp] theorem State.put_rc (s : State) (key v : Nat) : (s.put key v).rc = s.rc := rfl
@[simp] theorem State.put_path (s : State) (key v : Nat) : (s.put key v).path = s.path := rfl
@[simp] theorem State.put_volt (s : State) (key v : Nat) : (s.put key v).volt = s.volt := rfl
@[simp] theorem State.put_time (s : State) (key v : Nat) : (s.put key v).time = s.time := rfl
@[simp] theorem State.put_ports (s : State) (key v : Nat) : (s.put key v).ports = s.ports := rfl
@[simp] theorem State.put_hearth (s : State) (key v : Nat) : (s.put key v).hearth = s.hearth := rfl
@[simp] theorem State.put_ptp (s : State) (key v : Nat) : (s.put key v).ptp = s.ptp := rfl
@[simp] theorem State.put_stream (s : State) (key v : Nat) : (s.put key v).stream = s.stream := rfl
@[simp] theorem State.put_asrc (s : State) (key v : Nat) : (s.put key v).asrc = s.asrc := rfl
@[simp] theorem State.put_tdm (s : State) (key v : Nat) : (s.put key v).tdm = s.tdm := rfl
@[simp] theorem State.put_hall (s : State) (key v : Nat) : (s.put key v).hall = s.hall := rfl
@[simp] theorem State.put_rooms (s : State) (key v : Nat) : (s.put key v).rooms = s.rooms := rfl
@[simp] theorem State.put_guard (s : State) (key v : Nat) : (s.put key v).guard = s.guard := rfl
@[simp] theorem State.put_cellar (s : State) (key v : Nat) : (s.put key v).cellar = s.cellar := rfl
@[simp] theorem State.put_dw (s : State) (key v : Nat) : (s.put key v).dw = s.dw := rfl
@[simp] theorem State.put_kdp (s : State) (key v : Nat) : (s.put key v).kdp = s.kdp := rfl
@[simp] theorem State.put_flash (s : State) (key v : Nat) : (s.put key v).flash = s.flash := rfl
@[simp] theorem State.put_boot (s : State) (key v : Nat) : (s.put key v).boot = s.boot := rfl
@[simp] theorem State.put_hallTest (s : State) (key v : Nat) : (s.put key v).hallTest = s.hallTest := rfl
@[simp] theorem State.put_ddrTest (s : State) (key v : Nat) : (s.put key v).ddrTest = s.ddrTest := rfl
@[simp] theorem State.put_lb (s : State) (key v : Nat) : (s.put key v).lb = s.lb := rfl
@[simp] theorem State.put_host (s : State) (key v : Nat) : (s.put key v).host = s.host := rfl
@[simp] theorem State.put_answer (s : State) (key v : Nat) : (s.put key v).answer = s.answer := rfl
@[simp] theorem State.put_free (s : State) (key v : Nat) : (s.put key v).free = s.free := rfl
@[simp] theorem State.put_pending (s : State) (key v : Nat) : (s.put key v).pending = s.pending := rfl

@[simp] theorem State.wr_fuse (s : State) (f : Fld) (v : Nat) : (s.wr f v).fuse = s.fuse := rfl
@[simp] theorem State.wr_rc (s : State) (f : Fld) (v : Nat) : (s.wr f v).rc = s.rc := rfl
@[simp] theorem State.wr_path (s : State) (f : Fld) (v : Nat) : (s.wr f v).path = s.path := rfl
@[simp] theorem State.wr_volt (s : State) (f : Fld) (v : Nat) : (s.wr f v).volt = s.volt := rfl
@[simp] theorem State.wr_time (s : State) (f : Fld) (v : Nat) : (s.wr f v).time = s.time := rfl
@[simp] theorem State.wr_ports (s : State) (f : Fld) (v : Nat) : (s.wr f v).ports = s.ports := rfl
@[simp] theorem State.wr_hearth (s : State) (f : Fld) (v : Nat) : (s.wr f v).hearth = s.hearth := rfl
@[simp] theorem State.wr_ptp (s : State) (f : Fld) (v : Nat) : (s.wr f v).ptp = s.ptp := rfl
@[simp] theorem State.wr_stream (s : State) (f : Fld) (v : Nat) : (s.wr f v).stream = s.stream := rfl
@[simp] theorem State.wr_asrc (s : State) (f : Fld) (v : Nat) : (s.wr f v).asrc = s.asrc := rfl
@[simp] theorem State.wr_tdm (s : State) (f : Fld) (v : Nat) : (s.wr f v).tdm = s.tdm := rfl
@[simp] theorem State.wr_hall (s : State) (f : Fld) (v : Nat) : (s.wr f v).hall = s.hall := rfl
@[simp] theorem State.wr_rooms (s : State) (f : Fld) (v : Nat) : (s.wr f v).rooms = s.rooms := rfl
@[simp] theorem State.wr_guard (s : State) (f : Fld) (v : Nat) : (s.wr f v).guard = s.guard := rfl
@[simp] theorem State.wr_cellar (s : State) (f : Fld) (v : Nat) : (s.wr f v).cellar = s.cellar := rfl
@[simp] theorem State.wr_dw (s : State) (f : Fld) (v : Nat) : (s.wr f v).dw = s.dw := rfl
@[simp] theorem State.wr_kdp (s : State) (f : Fld) (v : Nat) : (s.wr f v).kdp = s.kdp := rfl
@[simp] theorem State.wr_flash (s : State) (f : Fld) (v : Nat) : (s.wr f v).flash = s.flash := rfl
@[simp] theorem State.wr_boot (s : State) (f : Fld) (v : Nat) : (s.wr f v).boot = s.boot := rfl
@[simp] theorem State.wr_hallTest (s : State) (f : Fld) (v : Nat) : (s.wr f v).hallTest = s.hallTest := rfl
@[simp] theorem State.wr_ddrTest (s : State) (f : Fld) (v : Nat) : (s.wr f v).ddrTest = s.ddrTest := rfl
@[simp] theorem State.wr_lb (s : State) (f : Fld) (v : Nat) : (s.wr f v).lb = s.lb := rfl
@[simp] theorem State.wr_host (s : State) (f : Fld) (v : Nat) : (s.wr f v).host = s.host := rfl
@[simp] theorem State.wr_answer (s : State) (f : Fld) (v : Nat) : (s.wr f v).answer = s.answer := rfl
@[simp] theorem State.wr_free (s : State) (f : Fld) (v : Nat) : (s.wr f v).free = s.free := rfl
@[simp] theorem State.wr_pending (s : State) (f : Fld) (v : Nat) : (s.wr f v).pending = s.pending := rfl

@[simp] theorem State.bump_fuse (s : State) (f : Fld) (n : Nat) : (s.bump f n).fuse = s.fuse := rfl
@[simp] theorem State.bump_rc (s : State) (f : Fld) (n : Nat) : (s.bump f n).rc = s.rc := rfl
@[simp] theorem State.bump_path (s : State) (f : Fld) (n : Nat) : (s.bump f n).path = s.path := rfl
@[simp] theorem State.bump_volt (s : State) (f : Fld) (n : Nat) : (s.bump f n).volt = s.volt := rfl
@[simp] theorem State.bump_time (s : State) (f : Fld) (n : Nat) : (s.bump f n).time = s.time := rfl
@[simp] theorem State.bump_ports (s : State) (f : Fld) (n : Nat) : (s.bump f n).ports = s.ports := rfl
@[simp] theorem State.bump_hearth (s : State) (f : Fld) (n : Nat) : (s.bump f n).hearth = s.hearth := rfl
@[simp] theorem State.bump_ptp (s : State) (f : Fld) (n : Nat) : (s.bump f n).ptp = s.ptp := rfl
@[simp] theorem State.bump_stream (s : State) (f : Fld) (n : Nat) : (s.bump f n).stream = s.stream := rfl
@[simp] theorem State.bump_asrc (s : State) (f : Fld) (n : Nat) : (s.bump f n).asrc = s.asrc := rfl
@[simp] theorem State.bump_tdm (s : State) (f : Fld) (n : Nat) : (s.bump f n).tdm = s.tdm := rfl
@[simp] theorem State.bump_hall (s : State) (f : Fld) (n : Nat) : (s.bump f n).hall = s.hall := rfl
@[simp] theorem State.bump_rooms (s : State) (f : Fld) (n : Nat) : (s.bump f n).rooms = s.rooms := rfl
@[simp] theorem State.bump_guard (s : State) (f : Fld) (n : Nat) : (s.bump f n).guard = s.guard := rfl
@[simp] theorem State.bump_cellar (s : State) (f : Fld) (n : Nat) : (s.bump f n).cellar = s.cellar := rfl
@[simp] theorem State.bump_dw (s : State) (f : Fld) (n : Nat) : (s.bump f n).dw = s.dw := rfl
@[simp] theorem State.bump_kdp (s : State) (f : Fld) (n : Nat) : (s.bump f n).kdp = s.kdp := rfl
@[simp] theorem State.bump_flash (s : State) (f : Fld) (n : Nat) : (s.bump f n).flash = s.flash := rfl
@[simp] theorem State.bump_boot (s : State) (f : Fld) (n : Nat) : (s.bump f n).boot = s.boot := rfl
@[simp] theorem State.bump_hallTest (s : State) (f : Fld) (n : Nat) : (s.bump f n).hallTest = s.hallTest := rfl
@[simp] theorem State.bump_ddrTest (s : State) (f : Fld) (n : Nat) : (s.bump f n).ddrTest = s.ddrTest := rfl
@[simp] theorem State.bump_lb (s : State) (f : Fld) (n : Nat) : (s.bump f n).lb = s.lb := rfl
@[simp] theorem State.bump_host (s : State) (f : Fld) (n : Nat) : (s.bump f n).host = s.host := rfl
@[simp] theorem State.bump_answer (s : State) (f : Fld) (n : Nat) : (s.bump f n).answer = s.answer := rfl
@[simp] theorem State.bump_free (s : State) (f : Fld) (n : Nat) : (s.bump f n).free = s.free := rfl
@[simp] theorem State.bump_pending (s : State) (f : Fld) (n : Nat) : (s.bump f n).pending = s.pending := rfl

@[simp] theorem State.flag_fuse (s : State) (f : Fld) (b : Bool) : (s.flag f b).fuse = s.fuse := rfl
@[simp] theorem State.flag_rc (s : State) (f : Fld) (b : Bool) : (s.flag f b).rc = s.rc := rfl
@[simp] theorem State.flag_path (s : State) (f : Fld) (b : Bool) : (s.flag f b).path = s.path := rfl
@[simp] theorem State.flag_volt (s : State) (f : Fld) (b : Bool) : (s.flag f b).volt = s.volt := rfl
@[simp] theorem State.flag_time (s : State) (f : Fld) (b : Bool) : (s.flag f b).time = s.time := rfl
@[simp] theorem State.flag_ports (s : State) (f : Fld) (b : Bool) : (s.flag f b).ports = s.ports := rfl
@[simp] theorem State.flag_hearth (s : State) (f : Fld) (b : Bool) : (s.flag f b).hearth = s.hearth := rfl
@[simp] theorem State.flag_ptp (s : State) (f : Fld) (b : Bool) : (s.flag f b).ptp = s.ptp := rfl
@[simp] theorem State.flag_stream (s : State) (f : Fld) (b : Bool) : (s.flag f b).stream = s.stream := rfl
@[simp] theorem State.flag_asrc (s : State) (f : Fld) (b : Bool) : (s.flag f b).asrc = s.asrc := rfl
@[simp] theorem State.flag_tdm (s : State) (f : Fld) (b : Bool) : (s.flag f b).tdm = s.tdm := rfl
@[simp] theorem State.flag_hall (s : State) (f : Fld) (b : Bool) : (s.flag f b).hall = s.hall := rfl
@[simp] theorem State.flag_rooms (s : State) (f : Fld) (b : Bool) : (s.flag f b).rooms = s.rooms := rfl
@[simp] theorem State.flag_guard (s : State) (f : Fld) (b : Bool) : (s.flag f b).guard = s.guard := rfl
@[simp] theorem State.flag_cellar (s : State) (f : Fld) (b : Bool) : (s.flag f b).cellar = s.cellar := rfl
@[simp] theorem State.flag_dw (s : State) (f : Fld) (b : Bool) : (s.flag f b).dw = s.dw := rfl
@[simp] theorem State.flag_kdp (s : State) (f : Fld) (b : Bool) : (s.flag f b).kdp = s.kdp := rfl
@[simp] theorem State.flag_flash (s : State) (f : Fld) (b : Bool) : (s.flag f b).flash = s.flash := rfl
@[simp] theorem State.flag_boot (s : State) (f : Fld) (b : Bool) : (s.flag f b).boot = s.boot := rfl
@[simp] theorem State.flag_hallTest (s : State) (f : Fld) (b : Bool) : (s.flag f b).hallTest = s.hallTest := rfl
@[simp] theorem State.flag_ddrTest (s : State) (f : Fld) (b : Bool) : (s.flag f b).ddrTest = s.ddrTest := rfl
@[simp] theorem State.flag_lb (s : State) (f : Fld) (b : Bool) : (s.flag f b).lb = s.lb := rfl
@[simp] theorem State.flag_host (s : State) (f : Fld) (b : Bool) : (s.flag f b).host = s.host := rfl
@[simp] theorem State.flag_answer (s : State) (f : Fld) (b : Bool) : (s.flag f b).answer = s.answer := rfl
@[simp] theorem State.flag_free (s : State) (f : Fld) (b : Bool) : (s.flag f b).free = s.free := rfl
@[simp] theorem State.flag_pending (s : State) (f : Fld) (b : Bool) : (s.flag f b).pending = s.pending := rfl

@[simp] theorem State.say_fuse (s : State) (st : Status) : (s.say st).fuse = s.fuse := rfl
@[simp] theorem State.say_regs (s : State) (st : Status) : (s.say st).regs = s.regs := rfl
@[simp] theorem State.say_rc (s : State) (st : Status) : (s.say st).rc = s.rc := rfl
@[simp] theorem State.say_path (s : State) (st : Status) : (s.say st).path = s.path := rfl
@[simp] theorem State.say_volt (s : State) (st : Status) : (s.say st).volt = s.volt := rfl
@[simp] theorem State.say_time (s : State) (st : Status) : (s.say st).time = s.time := rfl
@[simp] theorem State.say_ports (s : State) (st : Status) : (s.say st).ports = s.ports := rfl
@[simp] theorem State.say_hearth (s : State) (st : Status) : (s.say st).hearth = s.hearth := rfl
@[simp] theorem State.say_ptp (s : State) (st : Status) : (s.say st).ptp = s.ptp := rfl
@[simp] theorem State.say_stream (s : State) (st : Status) : (s.say st).stream = s.stream := rfl
@[simp] theorem State.say_asrc (s : State) (st : Status) : (s.say st).asrc = s.asrc := rfl
@[simp] theorem State.say_tdm (s : State) (st : Status) : (s.say st).tdm = s.tdm := rfl
@[simp] theorem State.say_hall (s : State) (st : Status) : (s.say st).hall = s.hall := rfl
@[simp] theorem State.say_rooms (s : State) (st : Status) : (s.say st).rooms = s.rooms := rfl
@[simp] theorem State.say_guard (s : State) (st : Status) : (s.say st).guard = s.guard := rfl
@[simp] theorem State.say_cellar (s : State) (st : Status) : (s.say st).cellar = s.cellar := rfl
@[simp] theorem State.say_dw (s : State) (st : Status) : (s.say st).dw = s.dw := rfl
@[simp] theorem State.say_kdp (s : State) (st : Status) : (s.say st).kdp = s.kdp := rfl
@[simp] theorem State.say_flash (s : State) (st : Status) : (s.say st).flash = s.flash := rfl
@[simp] theorem State.say_boot (s : State) (st : Status) : (s.say st).boot = s.boot := rfl
@[simp] theorem State.say_hallTest (s : State) (st : Status) : (s.say st).hallTest = s.hallTest := rfl
@[simp] theorem State.say_ddrTest (s : State) (st : Status) : (s.say st).ddrTest = s.ddrTest := rfl
@[simp] theorem State.say_lb (s : State) (st : Status) : (s.say st).lb = s.lb := rfl
@[simp] theorem State.say_host (s : State) (st : Status) : (s.say st).host = s.host := rfl
@[simp] theorem State.say_free (s : State) (st : Status) : (s.say st).free = s.free := rfl
@[simp] theorem State.say_pending (s : State) (st : Status) : (s.say st).pending = s.pending := rfl

@[simp] theorem State.setConv_fuse (s : State) (c : Nat) (x : Asrc) : (s.setConv c x).fuse = s.fuse := rfl
@[simp] theorem State.setConv_regs (s : State) (c : Nat) (x : Asrc) : (s.setConv c x).regs = s.regs := rfl
@[simp] theorem State.setConv_rc (s : State) (c : Nat) (x : Asrc) : (s.setConv c x).rc = s.rc := rfl
@[simp] theorem State.setConv_path (s : State) (c : Nat) (x : Asrc) : (s.setConv c x).path = s.path := rfl
@[simp] theorem State.setConv_volt (s : State) (c : Nat) (x : Asrc) : (s.setConv c x).volt = s.volt := rfl
@[simp] theorem State.setConv_time (s : State) (c : Nat) (x : Asrc) : (s.setConv c x).time = s.time := rfl
@[simp] theorem State.setConv_ports (s : State) (c : Nat) (x : Asrc) : (s.setConv c x).ports = s.ports := rfl
@[simp] theorem State.setConv_hearth (s : State) (c : Nat) (x : Asrc) : (s.setConv c x).hearth = s.hearth := rfl
@[simp] theorem State.setConv_ptp (s : State) (c : Nat) (x : Asrc) : (s.setConv c x).ptp = s.ptp := rfl
@[simp] theorem State.setConv_stream (s : State) (c : Nat) (x : Asrc) : (s.setConv c x).stream = s.stream := rfl
@[simp] theorem State.setConv_tdm (s : State) (c : Nat) (x : Asrc) : (s.setConv c x).tdm = s.tdm := rfl
@[simp] theorem State.setConv_hall (s : State) (c : Nat) (x : Asrc) : (s.setConv c x).hall = s.hall := rfl
@[simp] theorem State.setConv_rooms (s : State) (c : Nat) (x : Asrc) : (s.setConv c x).rooms = s.rooms := rfl
@[simp] theorem State.setConv_guard (s : State) (c : Nat) (x : Asrc) : (s.setConv c x).guard = s.guard := rfl
@[simp] theorem State.setConv_cellar (s : State) (c : Nat) (x : Asrc) : (s.setConv c x).cellar = s.cellar := rfl
@[simp] theorem State.setConv_dw (s : State) (c : Nat) (x : Asrc) : (s.setConv c x).dw = s.dw := rfl
@[simp] theorem State.setConv_kdp (s : State) (c : Nat) (x : Asrc) : (s.setConv c x).kdp = s.kdp := rfl
@[simp] theorem State.setConv_flash (s : State) (c : Nat) (x : Asrc) : (s.setConv c x).flash = s.flash := rfl
@[simp] theorem State.setConv_boot (s : State) (c : Nat) (x : Asrc) : (s.setConv c x).boot = s.boot := rfl
@[simp] theorem State.setConv_hallTest (s : State) (c : Nat) (x : Asrc) : (s.setConv c x).hallTest = s.hallTest := rfl
@[simp] theorem State.setConv_ddrTest (s : State) (c : Nat) (x : Asrc) : (s.setConv c x).ddrTest = s.ddrTest := rfl
@[simp] theorem State.setConv_lb (s : State) (c : Nat) (x : Asrc) : (s.setConv c x).lb = s.lb := rfl
@[simp] theorem State.setConv_host (s : State) (c : Nat) (x : Asrc) : (s.setConv c x).host = s.host := rfl
@[simp] theorem State.setConv_answer (s : State) (c : Nat) (x : Asrc) : (s.setConv c x).answer = s.answer := rfl
@[simp] theorem State.setConv_free (s : State) (c : Nat) (x : Asrc) : (s.setConv c x).free = s.free := rfl
@[simp] theorem State.setConv_pending (s : State) (c : Nat) (x : Asrc) : (s.setConv c x).pending = s.pending := rfl
@[simp] theorem State.setConv_get (s : State) (c : Nat) (x : Asrc) (j : Nat) : (s.setConv c x).get j = s.get j := (rfl)
@[simp] theorem State.setConv_rd (s : State) (c : Nat) (x : Asrc) (fl : Fld) : (s.setConv c x).rd fl = s.rd fl := (rfl)

@[simp] theorem State.setGuarded_fuse (s : State) (r : Nat) (x : Guarded) : (s.setGuarded r x).fuse = s.fuse := rfl
@[simp] theorem State.setGuarded_regs (s : State) (r : Nat) (x : Guarded) : (s.setGuarded r x).regs = s.regs := rfl
@[simp] theorem State.setGuarded_rc (s : State) (r : Nat) (x : Guarded) : (s.setGuarded r x).rc = s.rc := rfl
@[simp] theorem State.setGuarded_path (s : State) (r : Nat) (x : Guarded) : (s.setGuarded r x).path = s.path := rfl
@[simp] theorem State.setGuarded_volt (s : State) (r : Nat) (x : Guarded) : (s.setGuarded r x).volt = s.volt := rfl
@[simp] theorem State.setGuarded_time (s : State) (r : Nat) (x : Guarded) : (s.setGuarded r x).time = s.time := rfl
@[simp] theorem State.setGuarded_ports (s : State) (r : Nat) (x : Guarded) : (s.setGuarded r x).ports = s.ports := rfl
@[simp] theorem State.setGuarded_hearth (s : State) (r : Nat) (x : Guarded) : (s.setGuarded r x).hearth = s.hearth := rfl
@[simp] theorem State.setGuarded_ptp (s : State) (r : Nat) (x : Guarded) : (s.setGuarded r x).ptp = s.ptp := rfl
@[simp] theorem State.setGuarded_stream (s : State) (r : Nat) (x : Guarded) : (s.setGuarded r x).stream = s.stream := rfl
@[simp] theorem State.setGuarded_asrc (s : State) (r : Nat) (x : Guarded) : (s.setGuarded r x).asrc = s.asrc := rfl
@[simp] theorem State.setGuarded_tdm (s : State) (r : Nat) (x : Guarded) : (s.setGuarded r x).tdm = s.tdm := rfl
@[simp] theorem State.setGuarded_hall (s : State) (r : Nat) (x : Guarded) : (s.setGuarded r x).hall = s.hall := rfl
@[simp] theorem State.setGuarded_rooms (s : State) (r : Nat) (x : Guarded) : (s.setGuarded r x).rooms = s.rooms := rfl
@[simp] theorem State.setGuarded_cellar (s : State) (r : Nat) (x : Guarded) : (s.setGuarded r x).cellar = s.cellar := rfl
@[simp] theorem State.setGuarded_dw (s : State) (r : Nat) (x : Guarded) : (s.setGuarded r x).dw = s.dw := rfl
@[simp] theorem State.setGuarded_kdp (s : State) (r : Nat) (x : Guarded) : (s.setGuarded r x).kdp = s.kdp := rfl
@[simp] theorem State.setGuarded_flash (s : State) (r : Nat) (x : Guarded) : (s.setGuarded r x).flash = s.flash := rfl
@[simp] theorem State.setGuarded_boot (s : State) (r : Nat) (x : Guarded) : (s.setGuarded r x).boot = s.boot := rfl
@[simp] theorem State.setGuarded_hallTest (s : State) (r : Nat) (x : Guarded) : (s.setGuarded r x).hallTest = s.hallTest := rfl
@[simp] theorem State.setGuarded_ddrTest (s : State) (r : Nat) (x : Guarded) : (s.setGuarded r x).ddrTest = s.ddrTest := rfl
@[simp] theorem State.setGuarded_lb (s : State) (r : Nat) (x : Guarded) : (s.setGuarded r x).lb = s.lb := rfl
@[simp] theorem State.setGuarded_host (s : State) (r : Nat) (x : Guarded) : (s.setGuarded r x).host = s.host := rfl
@[simp] theorem State.setGuarded_answer (s : State) (r : Nat) (x : Guarded) : (s.setGuarded r x).answer = s.answer := rfl
@[simp] theorem State.setGuarded_free (s : State) (r : Nat) (x : Guarded) : (s.setGuarded r x).free = s.free := rfl
@[simp] theorem State.setGuarded_pending (s : State) (r : Nat) (x : Guarded) : (s.setGuarded r x).pending = s.pending := rfl
@[simp] theorem State.setGuarded_get (s : State) (r : Nat) (x : Guarded) (j : Nat) : (s.setGuarded r x).get j = s.get j := (rfl)
@[simp] theorem State.setGuarded_rd (s : State) (r : Nat) (x : Guarded) (fl : Fld) : (s.setGuarded r x).rd fl = s.rd fl := (rfl)

@[simp] theorem State.setDlHold_fuse (s : State) (d c : Nat) (h : Hold) : (s.setDlHold d c h).fuse = s.fuse := rfl
@[simp] theorem State.setDlHold_regs (s : State) (d c : Nat) (h : Hold) : (s.setDlHold d c h).regs = s.regs := rfl
@[simp] theorem State.setDlHold_rc (s : State) (d c : Nat) (h : Hold) : (s.setDlHold d c h).rc = s.rc := rfl
@[simp] theorem State.setDlHold_volt (s : State) (d c : Nat) (h : Hold) : (s.setDlHold d c h).volt = s.volt := rfl
@[simp] theorem State.setDlHold_time (s : State) (d c : Nat) (h : Hold) : (s.setDlHold d c h).time = s.time := rfl
@[simp] theorem State.setDlHold_ports (s : State) (d c : Nat) (h : Hold) : (s.setDlHold d c h).ports = s.ports := rfl
@[simp] theorem State.setDlHold_hearth (s : State) (d c : Nat) (h : Hold) : (s.setDlHold d c h).hearth = s.hearth := rfl
@[simp] theorem State.setDlHold_ptp (s : State) (d c : Nat) (h : Hold) : (s.setDlHold d c h).ptp = s.ptp := rfl
@[simp] theorem State.setDlHold_stream (s : State) (d c : Nat) (h : Hold) : (s.setDlHold d c h).stream = s.stream := rfl
@[simp] theorem State.setDlHold_asrc (s : State) (d c : Nat) (h : Hold) : (s.setDlHold d c h).asrc = s.asrc := rfl
@[simp] theorem State.setDlHold_tdm (s : State) (d c : Nat) (h : Hold) : (s.setDlHold d c h).tdm = s.tdm := rfl
@[simp] theorem State.setDlHold_hall (s : State) (d c : Nat) (h : Hold) : (s.setDlHold d c h).hall = s.hall := rfl
@[simp] theorem State.setDlHold_rooms (s : State) (d c : Nat) (h : Hold) : (s.setDlHold d c h).rooms = s.rooms := rfl
@[simp] theorem State.setDlHold_guard (s : State) (d c : Nat) (h : Hold) : (s.setDlHold d c h).guard = s.guard := rfl
@[simp] theorem State.setDlHold_cellar (s : State) (d c : Nat) (h : Hold) : (s.setDlHold d c h).cellar = s.cellar := rfl
@[simp] theorem State.setDlHold_dw (s : State) (d c : Nat) (h : Hold) : (s.setDlHold d c h).dw = s.dw := rfl
@[simp] theorem State.setDlHold_kdp (s : State) (d c : Nat) (h : Hold) : (s.setDlHold d c h).kdp = s.kdp := rfl
@[simp] theorem State.setDlHold_flash (s : State) (d c : Nat) (h : Hold) : (s.setDlHold d c h).flash = s.flash := rfl
@[simp] theorem State.setDlHold_boot (s : State) (d c : Nat) (h : Hold) : (s.setDlHold d c h).boot = s.boot := rfl
@[simp] theorem State.setDlHold_hallTest (s : State) (d c : Nat) (h : Hold) : (s.setDlHold d c h).hallTest = s.hallTest := rfl
@[simp] theorem State.setDlHold_ddrTest (s : State) (d c : Nat) (h : Hold) : (s.setDlHold d c h).ddrTest = s.ddrTest := rfl
@[simp] theorem State.setDlHold_lb (s : State) (d c : Nat) (h : Hold) : (s.setDlHold d c h).lb = s.lb := rfl
@[simp] theorem State.setDlHold_host (s : State) (d c : Nat) (h : Hold) : (s.setDlHold d c h).host = s.host := rfl
@[simp] theorem State.setDlHold_answer (s : State) (d c : Nat) (h : Hold) : (s.setDlHold d c h).answer = s.answer := rfl
@[simp] theorem State.setDlHold_free (s : State) (d c : Nat) (h : Hold) : (s.setDlHold d c h).free = s.free := rfl
@[simp] theorem State.setDlHold_pending (s : State) (d c : Nat) (h : Hold) : (s.setDlHold d c h).pending = s.pending := rfl
@[simp] theorem State.setDlHold_get (s : State) (d c : Nat) (h : Hold) (j : Nat) : (s.setDlHold d c h).get j = s.get j := (rfl)
@[simp] theorem State.setDlHold_rd (s : State) (d c : Nat) (h : Hold) (fl : Fld) : (s.setDlHold d c h).rd fl = s.rd fl := (rfl)

@[simp] theorem State.setRoom_fuse (s : State) (r : Nat) (x : Room) : (s.setRoom r x).fuse = s.fuse := rfl
@[simp] theorem State.setRoom_regs (s : State) (r : Nat) (x : Room) : (s.setRoom r x).regs = s.regs := rfl
@[simp] theorem State.setRoom_rc (s : State) (r : Nat) (x : Room) : (s.setRoom r x).rc = s.rc := rfl
@[simp] theorem State.setRoom_path (s : State) (r : Nat) (x : Room) : (s.setRoom r x).path = s.path := rfl
@[simp] theorem State.setRoom_volt (s : State) (r : Nat) (x : Room) : (s.setRoom r x).volt = s.volt := rfl
@[simp] theorem State.setRoom_time (s : State) (r : Nat) (x : Room) : (s.setRoom r x).time = s.time := rfl
@[simp] theorem State.setRoom_ports (s : State) (r : Nat) (x : Room) : (s.setRoom r x).ports = s.ports := rfl
@[simp] theorem State.setRoom_hearth (s : State) (r : Nat) (x : Room) : (s.setRoom r x).hearth = s.hearth := rfl
@[simp] theorem State.setRoom_ptp (s : State) (r : Nat) (x : Room) : (s.setRoom r x).ptp = s.ptp := rfl
@[simp] theorem State.setRoom_stream (s : State) (r : Nat) (x : Room) : (s.setRoom r x).stream = s.stream := rfl
@[simp] theorem State.setRoom_asrc (s : State) (r : Nat) (x : Room) : (s.setRoom r x).asrc = s.asrc := rfl
@[simp] theorem State.setRoom_tdm (s : State) (r : Nat) (x : Room) : (s.setRoom r x).tdm = s.tdm := rfl
@[simp] theorem State.setRoom_hall (s : State) (r : Nat) (x : Room) : (s.setRoom r x).hall = s.hall := rfl
@[simp] theorem State.setRoom_guard (s : State) (r : Nat) (x : Room) : (s.setRoom r x).guard = s.guard := rfl
@[simp] theorem State.setRoom_cellar (s : State) (r : Nat) (x : Room) : (s.setRoom r x).cellar = s.cellar := rfl
@[simp] theorem State.setRoom_dw (s : State) (r : Nat) (x : Room) : (s.setRoom r x).dw = s.dw := rfl
@[simp] theorem State.setRoom_kdp (s : State) (r : Nat) (x : Room) : (s.setRoom r x).kdp = s.kdp := rfl
@[simp] theorem State.setRoom_flash (s : State) (r : Nat) (x : Room) : (s.setRoom r x).flash = s.flash := rfl
@[simp] theorem State.setRoom_boot (s : State) (r : Nat) (x : Room) : (s.setRoom r x).boot = s.boot := rfl
@[simp] theorem State.setRoom_hallTest (s : State) (r : Nat) (x : Room) : (s.setRoom r x).hallTest = s.hallTest := rfl
@[simp] theorem State.setRoom_ddrTest (s : State) (r : Nat) (x : Room) : (s.setRoom r x).ddrTest = s.ddrTest := rfl
@[simp] theorem State.setRoom_lb (s : State) (r : Nat) (x : Room) : (s.setRoom r x).lb = s.lb := rfl
@[simp] theorem State.setRoom_host (s : State) (r : Nat) (x : Room) : (s.setRoom r x).host = s.host := rfl
@[simp] theorem State.setRoom_answer (s : State) (r : Nat) (x : Room) : (s.setRoom r x).answer = s.answer := rfl
@[simp] theorem State.setRoom_free (s : State) (r : Nat) (x : Room) : (s.setRoom r x).free = s.free := rfl
@[simp] theorem State.setRoom_pending (s : State) (r : Nat) (x : Room) : (s.setRoom r x).pending = s.pending := rfl
@[simp] theorem State.setRoom_get (s : State) (r : Nat) (x : Room) (j : Nat) : (s.setRoom r x).get j = s.get j := (rfl)
@[simp] theorem State.setRoom_rd (s : State) (r : Nat) (x : Room) (fl : Fld) : (s.setRoom r x).rd fl = s.rd fl := (rfl)

@[simp] theorem State.setSlot_fuse (s : State) (k : Nat) (g : Guest) : (s.setSlot k g).fuse = s.fuse := rfl
@[simp] theorem State.setSlot_regs (s : State) (k : Nat) (g : Guest) : (s.setSlot k g).regs = s.regs := rfl
@[simp] theorem State.setSlot_rc (s : State) (k : Nat) (g : Guest) : (s.setSlot k g).rc = s.rc := rfl
@[simp] theorem State.setSlot_path (s : State) (k : Nat) (g : Guest) : (s.setSlot k g).path = s.path := rfl
@[simp] theorem State.setSlot_volt (s : State) (k : Nat) (g : Guest) : (s.setSlot k g).volt = s.volt := rfl
@[simp] theorem State.setSlot_time (s : State) (k : Nat) (g : Guest) : (s.setSlot k g).time = s.time := rfl
@[simp] theorem State.setSlot_ports (s : State) (k : Nat) (g : Guest) : (s.setSlot k g).ports = s.ports := rfl
@[simp] theorem State.setSlot_hearth (s : State) (k : Nat) (g : Guest) : (s.setSlot k g).hearth = s.hearth := rfl
@[simp] theorem State.setSlot_ptp (s : State) (k : Nat) (g : Guest) : (s.setSlot k g).ptp = s.ptp := rfl
@[simp] theorem State.setSlot_stream (s : State) (k : Nat) (g : Guest) : (s.setSlot k g).stream = s.stream := rfl
@[simp] theorem State.setSlot_asrc (s : State) (k : Nat) (g : Guest) : (s.setSlot k g).asrc = s.asrc := rfl
@[simp] theorem State.setSlot_tdm (s : State) (k : Nat) (g : Guest) : (s.setSlot k g).tdm = s.tdm := rfl
@[simp] theorem State.setSlot_hall (s : State) (k : Nat) (g : Guest) : (s.setSlot k g).hall = s.hall := rfl
@[simp] theorem State.setSlot_rooms (s : State) (k : Nat) (g : Guest) : (s.setSlot k g).rooms = s.rooms := rfl
@[simp] theorem State.setSlot_cellar (s : State) (k : Nat) (g : Guest) : (s.setSlot k g).cellar = s.cellar := rfl
@[simp] theorem State.setSlot_dw (s : State) (k : Nat) (g : Guest) : (s.setSlot k g).dw = s.dw := rfl
@[simp] theorem State.setSlot_kdp (s : State) (k : Nat) (g : Guest) : (s.setSlot k g).kdp = s.kdp := rfl
@[simp] theorem State.setSlot_flash (s : State) (k : Nat) (g : Guest) : (s.setSlot k g).flash = s.flash := rfl
@[simp] theorem State.setSlot_boot (s : State) (k : Nat) (g : Guest) : (s.setSlot k g).boot = s.boot := rfl
@[simp] theorem State.setSlot_hallTest (s : State) (k : Nat) (g : Guest) : (s.setSlot k g).hallTest = s.hallTest := rfl
@[simp] theorem State.setSlot_ddrTest (s : State) (k : Nat) (g : Guest) : (s.setSlot k g).ddrTest = s.ddrTest := rfl
@[simp] theorem State.setSlot_lb (s : State) (k : Nat) (g : Guest) : (s.setSlot k g).lb = s.lb := rfl
@[simp] theorem State.setSlot_host (s : State) (k : Nat) (g : Guest) : (s.setSlot k g).host = s.host := rfl
@[simp] theorem State.setSlot_answer (s : State) (k : Nat) (g : Guest) : (s.setSlot k g).answer = s.answer := rfl
@[simp] theorem State.setSlot_free (s : State) (k : Nat) (g : Guest) : (s.setSlot k g).free = s.free := rfl
@[simp] theorem State.setSlot_pending (s : State) (k : Nat) (g : Guest) : (s.setSlot k g).pending = s.pending := rfl
@[simp] theorem State.setSlot_get (s : State) (k : Nat) (g : Guest) (j : Nat) : (s.setSlot k g).get j = s.get j := (rfl)
@[simp] theorem State.setSlot_rd (s : State) (k : Nat) (g : Guest) (fl : Fld) : (s.setSlot k g).rd fl = s.rd fl := (rfl)

@[simp] theorem State.setCore_fuse (s : State) (c : Nat) (x : CoreHealth) : (s.setCore c x).fuse = s.fuse := rfl
@[simp] theorem State.setCore_regs (s : State) (c : Nat) (x : CoreHealth) : (s.setCore c x).regs = s.regs := rfl
@[simp] theorem State.setCore_rc (s : State) (c : Nat) (x : CoreHealth) : (s.setCore c x).rc = s.rc := rfl
@[simp] theorem State.setCore_path (s : State) (c : Nat) (x : CoreHealth) : (s.setCore c x).path = s.path := rfl
@[simp] theorem State.setCore_volt (s : State) (c : Nat) (x : CoreHealth) : (s.setCore c x).volt = s.volt := rfl
@[simp] theorem State.setCore_time (s : State) (c : Nat) (x : CoreHealth) : (s.setCore c x).time = s.time := rfl
@[simp] theorem State.setCore_ports (s : State) (c : Nat) (x : CoreHealth) : (s.setCore c x).ports = s.ports := rfl
@[simp] theorem State.setCore_hearth (s : State) (c : Nat) (x : CoreHealth) : (s.setCore c x).hearth = s.hearth := rfl
@[simp] theorem State.setCore_ptp (s : State) (c : Nat) (x : CoreHealth) : (s.setCore c x).ptp = s.ptp := rfl
@[simp] theorem State.setCore_stream (s : State) (c : Nat) (x : CoreHealth) : (s.setCore c x).stream = s.stream := rfl
@[simp] theorem State.setCore_asrc (s : State) (c : Nat) (x : CoreHealth) : (s.setCore c x).asrc = s.asrc := rfl
@[simp] theorem State.setCore_tdm (s : State) (c : Nat) (x : CoreHealth) : (s.setCore c x).tdm = s.tdm := rfl
@[simp] theorem State.setCore_hall (s : State) (c : Nat) (x : CoreHealth) : (s.setCore c x).hall = s.hall := rfl
@[simp] theorem State.setCore_rooms (s : State) (c : Nat) (x : CoreHealth) : (s.setCore c x).rooms = s.rooms := rfl
@[simp] theorem State.setCore_cellar (s : State) (c : Nat) (x : CoreHealth) : (s.setCore c x).cellar = s.cellar := rfl
@[simp] theorem State.setCore_dw (s : State) (c : Nat) (x : CoreHealth) : (s.setCore c x).dw = s.dw := rfl
@[simp] theorem State.setCore_kdp (s : State) (c : Nat) (x : CoreHealth) : (s.setCore c x).kdp = s.kdp := rfl
@[simp] theorem State.setCore_flash (s : State) (c : Nat) (x : CoreHealth) : (s.setCore c x).flash = s.flash := rfl
@[simp] theorem State.setCore_boot (s : State) (c : Nat) (x : CoreHealth) : (s.setCore c x).boot = s.boot := rfl
@[simp] theorem State.setCore_hallTest (s : State) (c : Nat) (x : CoreHealth) : (s.setCore c x).hallTest = s.hallTest := rfl
@[simp] theorem State.setCore_ddrTest (s : State) (c : Nat) (x : CoreHealth) : (s.setCore c x).ddrTest = s.ddrTest := rfl
@[simp] theorem State.setCore_lb (s : State) (c : Nat) (x : CoreHealth) : (s.setCore c x).lb = s.lb := rfl
@[simp] theorem State.setCore_host (s : State) (c : Nat) (x : CoreHealth) : (s.setCore c x).host = s.host := rfl
@[simp] theorem State.setCore_answer (s : State) (c : Nat) (x : CoreHealth) : (s.setCore c x).answer = s.answer := rfl
@[simp] theorem State.setCore_free (s : State) (c : Nat) (x : CoreHealth) : (s.setCore c x).free = s.free := rfl
@[simp] theorem State.setCore_pending (s : State) (c : Nat) (x : CoreHealth) : (s.setCore c x).pending = s.pending := rfl
@[simp] theorem State.setCore_get (s : State) (c : Nat) (x : CoreHealth) (j : Nat) : (s.setCore c x).get j = s.get j := (rfl)
@[simp] theorem State.setCore_rd (s : State) (c : Nat) (x : CoreHealth) (fl : Fld) : (s.setCore c x).rd fl = s.rd fl := (rfl)

@[simp] theorem State.setTile_fuse (s : State) (t : Nat) (x : Tile) : (s.setTile t x).fuse = s.fuse := rfl
@[simp] theorem State.setTile_regs (s : State) (t : Nat) (x : Tile) : (s.setTile t x).regs = s.regs := rfl
@[simp] theorem State.setTile_rc (s : State) (t : Nat) (x : Tile) : (s.setTile t x).rc = s.rc := rfl
@[simp] theorem State.setTile_path (s : State) (t : Nat) (x : Tile) : (s.setTile t x).path = s.path := rfl
@[simp] theorem State.setTile_volt (s : State) (t : Nat) (x : Tile) : (s.setTile t x).volt = s.volt := rfl
@[simp] theorem State.setTile_time (s : State) (t : Nat) (x : Tile) : (s.setTile t x).time = s.time := rfl
@[simp] theorem State.setTile_ports (s : State) (t : Nat) (x : Tile) : (s.setTile t x).ports = s.ports := rfl
@[simp] theorem State.setTile_hearth (s : State) (t : Nat) (x : Tile) : (s.setTile t x).hearth = s.hearth := rfl
@[simp] theorem State.setTile_ptp (s : State) (t : Nat) (x : Tile) : (s.setTile t x).ptp = s.ptp := rfl
@[simp] theorem State.setTile_stream (s : State) (t : Nat) (x : Tile) : (s.setTile t x).stream = s.stream := rfl
@[simp] theorem State.setTile_asrc (s : State) (t : Nat) (x : Tile) : (s.setTile t x).asrc = s.asrc := rfl
@[simp] theorem State.setTile_tdm (s : State) (t : Nat) (x : Tile) : (s.setTile t x).tdm = s.tdm := rfl
@[simp] theorem State.setTile_rooms (s : State) (t : Nat) (x : Tile) : (s.setTile t x).rooms = s.rooms := rfl
@[simp] theorem State.setTile_guard (s : State) (t : Nat) (x : Tile) : (s.setTile t x).guard = s.guard := rfl
@[simp] theorem State.setTile_cellar (s : State) (t : Nat) (x : Tile) : (s.setTile t x).cellar = s.cellar := rfl
@[simp] theorem State.setTile_dw (s : State) (t : Nat) (x : Tile) : (s.setTile t x).dw = s.dw := rfl
@[simp] theorem State.setTile_kdp (s : State) (t : Nat) (x : Tile) : (s.setTile t x).kdp = s.kdp := rfl
@[simp] theorem State.setTile_flash (s : State) (t : Nat) (x : Tile) : (s.setTile t x).flash = s.flash := rfl
@[simp] theorem State.setTile_boot (s : State) (t : Nat) (x : Tile) : (s.setTile t x).boot = s.boot := rfl
@[simp] theorem State.setTile_hallTest (s : State) (t : Nat) (x : Tile) : (s.setTile t x).hallTest = s.hallTest := rfl
@[simp] theorem State.setTile_ddrTest (s : State) (t : Nat) (x : Tile) : (s.setTile t x).ddrTest = s.ddrTest := rfl
@[simp] theorem State.setTile_lb (s : State) (t : Nat) (x : Tile) : (s.setTile t x).lb = s.lb := rfl
@[simp] theorem State.setTile_host (s : State) (t : Nat) (x : Tile) : (s.setTile t x).host = s.host := rfl
@[simp] theorem State.setTile_answer (s : State) (t : Nat) (x : Tile) : (s.setTile t x).answer = s.answer := rfl
@[simp] theorem State.setTile_free (s : State) (t : Nat) (x : Tile) : (s.setTile t x).free = s.free := rfl
@[simp] theorem State.setTile_pending (s : State) (t : Nat) (x : Tile) : (s.setTile t x).pending = s.pending := rfl
@[simp] theorem State.setTile_get (s : State) (t : Nat) (x : Tile) (j : Nat) : (s.setTile t x).get j = s.get j := (rfl)
@[simp] theorem State.setTile_rd (s : State) (t : Nat) (x : Tile) (fl : Fld) : (s.setTile t x).rd fl = s.rd fl := (rfl)

@[simp] theorem State.hpTake_fuse (s : State) (m : List Byte) : (s.hpTake m).fuse = s.fuse := rfl
@[simp] theorem State.hpTake_regs (s : State) (m : List Byte) : (s.hpTake m).regs = s.regs := rfl
@[simp] theorem State.hpTake_rc (s : State) (m : List Byte) : (s.hpTake m).rc = s.rc := rfl
@[simp] theorem State.hpTake_path (s : State) (m : List Byte) : (s.hpTake m).path = s.path := rfl
@[simp] theorem State.hpTake_volt (s : State) (m : List Byte) : (s.hpTake m).volt = s.volt := rfl
@[simp] theorem State.hpTake_time (s : State) (m : List Byte) : (s.hpTake m).time = s.time := rfl
@[simp] theorem State.hpTake_ports (s : State) (m : List Byte) : (s.hpTake m).ports = s.ports := rfl
@[simp] theorem State.hpTake_hearth (s : State) (m : List Byte) : (s.hpTake m).hearth = s.hearth := rfl
@[simp] theorem State.hpTake_ptp (s : State) (m : List Byte) : (s.hpTake m).ptp = s.ptp := rfl
@[simp] theorem State.hpTake_stream (s : State) (m : List Byte) : (s.hpTake m).stream = s.stream := rfl
@[simp] theorem State.hpTake_asrc (s : State) (m : List Byte) : (s.hpTake m).asrc = s.asrc := rfl
@[simp] theorem State.hpTake_tdm (s : State) (m : List Byte) : (s.hpTake m).tdm = s.tdm := rfl
@[simp] theorem State.hpTake_hall (s : State) (m : List Byte) : (s.hpTake m).hall = s.hall := rfl
@[simp] theorem State.hpTake_rooms (s : State) (m : List Byte) : (s.hpTake m).rooms = s.rooms := rfl
@[simp] theorem State.hpTake_guard (s : State) (m : List Byte) : (s.hpTake m).guard = s.guard := rfl
@[simp] theorem State.hpTake_cellar (s : State) (m : List Byte) : (s.hpTake m).cellar = s.cellar := rfl
@[simp] theorem State.hpTake_dw (s : State) (m : List Byte) : (s.hpTake m).dw = s.dw := rfl
@[simp] theorem State.hpTake_kdp (s : State) (m : List Byte) : (s.hpTake m).kdp = s.kdp := rfl
@[simp] theorem State.hpTake_flash (s : State) (m : List Byte) : (s.hpTake m).flash = s.flash := rfl
@[simp] theorem State.hpTake_boot (s : State) (m : List Byte) : (s.hpTake m).boot = s.boot := rfl
@[simp] theorem State.hpTake_hallTest (s : State) (m : List Byte) : (s.hpTake m).hallTest = s.hallTest := rfl
@[simp] theorem State.hpTake_ddrTest (s : State) (m : List Byte) : (s.hpTake m).ddrTest = s.ddrTest := rfl
@[simp] theorem State.hpTake_lb (s : State) (m : List Byte) : (s.hpTake m).lb = s.lb := rfl
@[simp] theorem State.hpTake_answer (s : State) (m : List Byte) : (s.hpTake m).answer = s.answer := rfl
@[simp] theorem State.hpTake_free (s : State) (m : List Byte) : (s.hpTake m).free = s.free := rfl
@[simp] theorem State.hpTake_pending (s : State) (m : List Byte) : (s.hpTake m).pending = s.pending := rfl
@[simp] theorem State.hpTake_get (s : State) (m : List Byte) (j : Nat) : (s.hpTake m).get j = s.get j := (rfl)
@[simp] theorem State.hpTake_rd (s : State) (m : List Byte) (fl : Fld) : (s.hpTake m).rd fl = s.rd fl := (rfl)

@[simp] theorem State.setSupply_fuse (s : State) (c : Nat) (x : Supply) : (s.setSupply c x).fuse = s.fuse := rfl
@[simp] theorem State.setSupply_regs (s : State) (c : Nat) (x : Supply) : (s.setSupply c x).regs = s.regs := rfl
@[simp] theorem State.setSupply_rc (s : State) (c : Nat) (x : Supply) : (s.setSupply c x).rc = s.rc := rfl
@[simp] theorem State.setSupply_path (s : State) (c : Nat) (x : Supply) : (s.setSupply c x).path = s.path := rfl
@[simp] theorem State.setSupply_volt (s : State) (c : Nat) (x : Supply) : (s.setSupply c x).volt = s.volt := rfl
@[simp] theorem State.setSupply_time (s : State) (c : Nat) (x : Supply) : (s.setSupply c x).time = s.time := rfl
@[simp] theorem State.setSupply_ports (s : State) (c : Nat) (x : Supply) : (s.setSupply c x).ports = s.ports := rfl
@[simp] theorem State.setSupply_hearth (s : State) (c : Nat) (x : Supply) : (s.setSupply c x).hearth = s.hearth := rfl
@[simp] theorem State.setSupply_ptp (s : State) (c : Nat) (x : Supply) : (s.setSupply c x).ptp = s.ptp := rfl
@[simp] theorem State.setSupply_stream (s : State) (c : Nat) (x : Supply) : (s.setSupply c x).stream = s.stream := rfl
@[simp] theorem State.setSupply_asrc (s : State) (c : Nat) (x : Supply) : (s.setSupply c x).asrc = s.asrc := rfl
@[simp] theorem State.setSupply_tdm (s : State) (c : Nat) (x : Supply) : (s.setSupply c x).tdm = s.tdm := rfl
@[simp] theorem State.setSupply_hall (s : State) (c : Nat) (x : Supply) : (s.setSupply c x).hall = s.hall := rfl
@[simp] theorem State.setSupply_rooms (s : State) (c : Nat) (x : Supply) : (s.setSupply c x).rooms = s.rooms := rfl
@[simp] theorem State.setSupply_cellar (s : State) (c : Nat) (x : Supply) : (s.setSupply c x).cellar = s.cellar := rfl
@[simp] theorem State.setSupply_dw (s : State) (c : Nat) (x : Supply) : (s.setSupply c x).dw = s.dw := rfl
@[simp] theorem State.setSupply_kdp (s : State) (c : Nat) (x : Supply) : (s.setSupply c x).kdp = s.kdp := rfl
@[simp] theorem State.setSupply_flash (s : State) (c : Nat) (x : Supply) : (s.setSupply c x).flash = s.flash := rfl
@[simp] theorem State.setSupply_boot (s : State) (c : Nat) (x : Supply) : (s.setSupply c x).boot = s.boot := rfl
@[simp] theorem State.setSupply_hallTest (s : State) (c : Nat) (x : Supply) : (s.setSupply c x).hallTest = s.hallTest := rfl
@[simp] theorem State.setSupply_ddrTest (s : State) (c : Nat) (x : Supply) : (s.setSupply c x).ddrTest = s.ddrTest := rfl
@[simp] theorem State.setSupply_lb (s : State) (c : Nat) (x : Supply) : (s.setSupply c x).lb = s.lb := rfl
@[simp] theorem State.setSupply_host (s : State) (c : Nat) (x : Supply) : (s.setSupply c x).host = s.host := rfl
@[simp] theorem State.setSupply_answer (s : State) (c : Nat) (x : Supply) : (s.setSupply c x).answer = s.answer := rfl
@[simp] theorem State.setSupply_free (s : State) (c : Nat) (x : Supply) : (s.setSupply c x).free = s.free := rfl
@[simp] theorem State.setSupply_pending (s : State) (c : Nat) (x : Supply) : (s.setSupply c x).pending = s.pending := rfl
@[simp] theorem State.setSupply_get (s : State) (c : Nat) (x : Supply) (j : Nat) : (s.setSupply c x).get j = s.get j := (rfl)
@[simp] theorem State.setSupply_rd (s : State) (c : Nat) (x : Supply) (fl : Fld) : (s.setSupply c x).rd fl = s.rd fl := (rfl)

@[simp] theorem State.setPort_fuse (s : State) (p : Nat) (x : Port) : (s.setPort p x).fuse = s.fuse := rfl
@[simp] theorem State.setPort_regs (s : State) (p : Nat) (x : Port) : (s.setPort p x).regs = s.regs := rfl
@[simp] theorem State.setPort_rc (s : State) (p : Nat) (x : Port) : (s.setPort p x).rc = s.rc := rfl
@[simp] theorem State.setPort_path (s : State) (p : Nat) (x : Port) : (s.setPort p x).path = s.path := rfl
@[simp] theorem State.setPort_volt (s : State) (p : Nat) (x : Port) : (s.setPort p x).volt = s.volt := rfl
@[simp] theorem State.setPort_time (s : State) (p : Nat) (x : Port) : (s.setPort p x).time = s.time := rfl
@[simp] theorem State.setPort_hearth (s : State) (p : Nat) (x : Port) : (s.setPort p x).hearth = s.hearth := rfl
@[simp] theorem State.setPort_ptp (s : State) (p : Nat) (x : Port) : (s.setPort p x).ptp = s.ptp := rfl
@[simp] theorem State.setPort_stream (s : State) (p : Nat) (x : Port) : (s.setPort p x).stream = s.stream := rfl
@[simp] theorem State.setPort_asrc (s : State) (p : Nat) (x : Port) : (s.setPort p x).asrc = s.asrc := rfl
@[simp] theorem State.setPort_tdm (s : State) (p : Nat) (x : Port) : (s.setPort p x).tdm = s.tdm := rfl
@[simp] theorem State.setPort_hall (s : State) (p : Nat) (x : Port) : (s.setPort p x).hall = s.hall := rfl
@[simp] theorem State.setPort_rooms (s : State) (p : Nat) (x : Port) : (s.setPort p x).rooms = s.rooms := rfl
@[simp] theorem State.setPort_guard (s : State) (p : Nat) (x : Port) : (s.setPort p x).guard = s.guard := rfl
@[simp] theorem State.setPort_cellar (s : State) (p : Nat) (x : Port) : (s.setPort p x).cellar = s.cellar := rfl
@[simp] theorem State.setPort_dw (s : State) (p : Nat) (x : Port) : (s.setPort p x).dw = s.dw := rfl
@[simp] theorem State.setPort_kdp (s : State) (p : Nat) (x : Port) : (s.setPort p x).kdp = s.kdp := rfl
@[simp] theorem State.setPort_flash (s : State) (p : Nat) (x : Port) : (s.setPort p x).flash = s.flash := rfl
@[simp] theorem State.setPort_boot (s : State) (p : Nat) (x : Port) : (s.setPort p x).boot = s.boot := rfl
@[simp] theorem State.setPort_hallTest (s : State) (p : Nat) (x : Port) : (s.setPort p x).hallTest = s.hallTest := rfl
@[simp] theorem State.setPort_ddrTest (s : State) (p : Nat) (x : Port) : (s.setPort p x).ddrTest = s.ddrTest := rfl
@[simp] theorem State.setPort_lb (s : State) (p : Nat) (x : Port) : (s.setPort p x).lb = s.lb := rfl
@[simp] theorem State.setPort_host (s : State) (p : Nat) (x : Port) : (s.setPort p x).host = s.host := rfl
@[simp] theorem State.setPort_answer (s : State) (p : Nat) (x : Port) : (s.setPort p x).answer = s.answer := rfl
@[simp] theorem State.setPort_free (s : State) (p : Nat) (x : Port) : (s.setPort p x).free = s.free := rfl
@[simp] theorem State.setPort_pending (s : State) (p : Nat) (x : Port) : (s.setPort p x).pending = s.pending := rfl
@[simp] theorem State.setPort_get (s : State) (p : Nat) (x : Port) (j : Nat) : (s.setPort p x).get j = s.get j := (rfl)
@[simp] theorem State.setPort_rd (s : State) (p : Nat) (x : Port) (fl : Fld) : (s.setPort p x).rd fl = s.rd fl := (rfl)

@[simp] theorem State.setPtp_fuse (s : State) (p : Nat) (x : PtpPort) : (s.setPtp p x).fuse = s.fuse := rfl
@[simp] theorem State.setPtp_regs (s : State) (p : Nat) (x : PtpPort) : (s.setPtp p x).regs = s.regs := rfl
@[simp] theorem State.setPtp_rc (s : State) (p : Nat) (x : PtpPort) : (s.setPtp p x).rc = s.rc := rfl
@[simp] theorem State.setPtp_path (s : State) (p : Nat) (x : PtpPort) : (s.setPtp p x).path = s.path := rfl
@[simp] theorem State.setPtp_volt (s : State) (p : Nat) (x : PtpPort) : (s.setPtp p x).volt = s.volt := rfl
@[simp] theorem State.setPtp_time (s : State) (p : Nat) (x : PtpPort) : (s.setPtp p x).time = s.time := rfl
@[simp] theorem State.setPtp_ports (s : State) (p : Nat) (x : PtpPort) : (s.setPtp p x).ports = s.ports := rfl
@[simp] theorem State.setPtp_hearth (s : State) (p : Nat) (x : PtpPort) : (s.setPtp p x).hearth = s.hearth := rfl
@[simp] theorem State.setPtp_stream (s : State) (p : Nat) (x : PtpPort) : (s.setPtp p x).stream = s.stream := rfl
@[simp] theorem State.setPtp_asrc (s : State) (p : Nat) (x : PtpPort) : (s.setPtp p x).asrc = s.asrc := rfl
@[simp] theorem State.setPtp_tdm (s : State) (p : Nat) (x : PtpPort) : (s.setPtp p x).tdm = s.tdm := rfl
@[simp] theorem State.setPtp_hall (s : State) (p : Nat) (x : PtpPort) : (s.setPtp p x).hall = s.hall := rfl
@[simp] theorem State.setPtp_rooms (s : State) (p : Nat) (x : PtpPort) : (s.setPtp p x).rooms = s.rooms := rfl
@[simp] theorem State.setPtp_guard (s : State) (p : Nat) (x : PtpPort) : (s.setPtp p x).guard = s.guard := rfl
@[simp] theorem State.setPtp_cellar (s : State) (p : Nat) (x : PtpPort) : (s.setPtp p x).cellar = s.cellar := rfl
@[simp] theorem State.setPtp_dw (s : State) (p : Nat) (x : PtpPort) : (s.setPtp p x).dw = s.dw := rfl
@[simp] theorem State.setPtp_kdp (s : State) (p : Nat) (x : PtpPort) : (s.setPtp p x).kdp = s.kdp := rfl
@[simp] theorem State.setPtp_flash (s : State) (p : Nat) (x : PtpPort) : (s.setPtp p x).flash = s.flash := rfl
@[simp] theorem State.setPtp_boot (s : State) (p : Nat) (x : PtpPort) : (s.setPtp p x).boot = s.boot := rfl
@[simp] theorem State.setPtp_hallTest (s : State) (p : Nat) (x : PtpPort) : (s.setPtp p x).hallTest = s.hallTest := rfl
@[simp] theorem State.setPtp_ddrTest (s : State) (p : Nat) (x : PtpPort) : (s.setPtp p x).ddrTest = s.ddrTest := rfl
@[simp] theorem State.setPtp_lb (s : State) (p : Nat) (x : PtpPort) : (s.setPtp p x).lb = s.lb := rfl
@[simp] theorem State.setPtp_host (s : State) (p : Nat) (x : PtpPort) : (s.setPtp p x).host = s.host := rfl
@[simp] theorem State.setPtp_answer (s : State) (p : Nat) (x : PtpPort) : (s.setPtp p x).answer = s.answer := rfl
@[simp] theorem State.setPtp_free (s : State) (p : Nat) (x : PtpPort) : (s.setPtp p x).free = s.free := rfl
@[simp] theorem State.setPtp_pending (s : State) (p : Nat) (x : PtpPort) : (s.setPtp p x).pending = s.pending := rfl
@[simp] theorem State.setPtp_get (s : State) (p : Nat) (x : PtpPort) (j : Nat) : (s.setPtp p x).get j = s.get j := (rfl)
@[simp] theorem State.setPtp_rd (s : State) (p : Nat) (x : PtpPort) (fl : Fld) : (s.setPtp p x).rd fl = s.rd fl := (rfl)

@[simp] theorem State.setRx_fuse (s : State) (c : Nat) (x : RxCtx) : (s.setRx c x).fuse = s.fuse := rfl
@[simp] theorem State.setRx_regs (s : State) (c : Nat) (x : RxCtx) : (s.setRx c x).regs = s.regs := rfl
@[simp] theorem State.setRx_rc (s : State) (c : Nat) (x : RxCtx) : (s.setRx c x).rc = s.rc := rfl
@[simp] theorem State.setRx_path (s : State) (c : Nat) (x : RxCtx) : (s.setRx c x).path = s.path := rfl
@[simp] theorem State.setRx_volt (s : State) (c : Nat) (x : RxCtx) : (s.setRx c x).volt = s.volt := rfl
@[simp] theorem State.setRx_time (s : State) (c : Nat) (x : RxCtx) : (s.setRx c x).time = s.time := rfl
@[simp] theorem State.setRx_ports (s : State) (c : Nat) (x : RxCtx) : (s.setRx c x).ports = s.ports := rfl
@[simp] theorem State.setRx_hearth (s : State) (c : Nat) (x : RxCtx) : (s.setRx c x).hearth = s.hearth := rfl
@[simp] theorem State.setRx_ptp (s : State) (c : Nat) (x : RxCtx) : (s.setRx c x).ptp = s.ptp := rfl
@[simp] theorem State.setRx_asrc (s : State) (c : Nat) (x : RxCtx) : (s.setRx c x).asrc = s.asrc := rfl
@[simp] theorem State.setRx_tdm (s : State) (c : Nat) (x : RxCtx) : (s.setRx c x).tdm = s.tdm := rfl
@[simp] theorem State.setRx_hall (s : State) (c : Nat) (x : RxCtx) : (s.setRx c x).hall = s.hall := rfl
@[simp] theorem State.setRx_rooms (s : State) (c : Nat) (x : RxCtx) : (s.setRx c x).rooms = s.rooms := rfl
@[simp] theorem State.setRx_guard (s : State) (c : Nat) (x : RxCtx) : (s.setRx c x).guard = s.guard := rfl
@[simp] theorem State.setRx_cellar (s : State) (c : Nat) (x : RxCtx) : (s.setRx c x).cellar = s.cellar := rfl
@[simp] theorem State.setRx_dw (s : State) (c : Nat) (x : RxCtx) : (s.setRx c x).dw = s.dw := rfl
@[simp] theorem State.setRx_kdp (s : State) (c : Nat) (x : RxCtx) : (s.setRx c x).kdp = s.kdp := rfl
@[simp] theorem State.setRx_flash (s : State) (c : Nat) (x : RxCtx) : (s.setRx c x).flash = s.flash := rfl
@[simp] theorem State.setRx_boot (s : State) (c : Nat) (x : RxCtx) : (s.setRx c x).boot = s.boot := rfl
@[simp] theorem State.setRx_hallTest (s : State) (c : Nat) (x : RxCtx) : (s.setRx c x).hallTest = s.hallTest := rfl
@[simp] theorem State.setRx_ddrTest (s : State) (c : Nat) (x : RxCtx) : (s.setRx c x).ddrTest = s.ddrTest := rfl
@[simp] theorem State.setRx_lb (s : State) (c : Nat) (x : RxCtx) : (s.setRx c x).lb = s.lb := rfl
@[simp] theorem State.setRx_host (s : State) (c : Nat) (x : RxCtx) : (s.setRx c x).host = s.host := rfl
@[simp] theorem State.setRx_answer (s : State) (c : Nat) (x : RxCtx) : (s.setRx c x).answer = s.answer := rfl
@[simp] theorem State.setRx_free (s : State) (c : Nat) (x : RxCtx) : (s.setRx c x).free = s.free := rfl
@[simp] theorem State.setRx_pending (s : State) (c : Nat) (x : RxCtx) : (s.setRx c x).pending = s.pending := rfl
@[simp] theorem State.setRx_get (s : State) (c : Nat) (x : RxCtx) (j : Nat) : (s.setRx c x).get j = s.get j := (rfl)
@[simp] theorem State.setRx_rd (s : State) (c : Nat) (x : RxCtx) (fl : Fld) : (s.setRx c x).rd fl = s.rd fl := (rfl)

@[simp] theorem State.setTx_fuse (s : State) (c : Nat) (x : TxCtx) : (s.setTx c x).fuse = s.fuse := rfl
@[simp] theorem State.setTx_regs (s : State) (c : Nat) (x : TxCtx) : (s.setTx c x).regs = s.regs := rfl
@[simp] theorem State.setTx_rc (s : State) (c : Nat) (x : TxCtx) : (s.setTx c x).rc = s.rc := rfl
@[simp] theorem State.setTx_path (s : State) (c : Nat) (x : TxCtx) : (s.setTx c x).path = s.path := rfl
@[simp] theorem State.setTx_volt (s : State) (c : Nat) (x : TxCtx) : (s.setTx c x).volt = s.volt := rfl
@[simp] theorem State.setTx_time (s : State) (c : Nat) (x : TxCtx) : (s.setTx c x).time = s.time := rfl
@[simp] theorem State.setTx_ports (s : State) (c : Nat) (x : TxCtx) : (s.setTx c x).ports = s.ports := rfl
@[simp] theorem State.setTx_hearth (s : State) (c : Nat) (x : TxCtx) : (s.setTx c x).hearth = s.hearth := rfl
@[simp] theorem State.setTx_ptp (s : State) (c : Nat) (x : TxCtx) : (s.setTx c x).ptp = s.ptp := rfl
@[simp] theorem State.setTx_asrc (s : State) (c : Nat) (x : TxCtx) : (s.setTx c x).asrc = s.asrc := rfl
@[simp] theorem State.setTx_tdm (s : State) (c : Nat) (x : TxCtx) : (s.setTx c x).tdm = s.tdm := rfl
@[simp] theorem State.setTx_hall (s : State) (c : Nat) (x : TxCtx) : (s.setTx c x).hall = s.hall := rfl
@[simp] theorem State.setTx_rooms (s : State) (c : Nat) (x : TxCtx) : (s.setTx c x).rooms = s.rooms := rfl
@[simp] theorem State.setTx_guard (s : State) (c : Nat) (x : TxCtx) : (s.setTx c x).guard = s.guard := rfl
@[simp] theorem State.setTx_cellar (s : State) (c : Nat) (x : TxCtx) : (s.setTx c x).cellar = s.cellar := rfl
@[simp] theorem State.setTx_dw (s : State) (c : Nat) (x : TxCtx) : (s.setTx c x).dw = s.dw := rfl
@[simp] theorem State.setTx_kdp (s : State) (c : Nat) (x : TxCtx) : (s.setTx c x).kdp = s.kdp := rfl
@[simp] theorem State.setTx_flash (s : State) (c : Nat) (x : TxCtx) : (s.setTx c x).flash = s.flash := rfl
@[simp] theorem State.setTx_boot (s : State) (c : Nat) (x : TxCtx) : (s.setTx c x).boot = s.boot := rfl
@[simp] theorem State.setTx_hallTest (s : State) (c : Nat) (x : TxCtx) : (s.setTx c x).hallTest = s.hallTest := rfl
@[simp] theorem State.setTx_ddrTest (s : State) (c : Nat) (x : TxCtx) : (s.setTx c x).ddrTest = s.ddrTest := rfl
@[simp] theorem State.setTx_lb (s : State) (c : Nat) (x : TxCtx) : (s.setTx c x).lb = s.lb := rfl
@[simp] theorem State.setTx_host (s : State) (c : Nat) (x : TxCtx) : (s.setTx c x).host = s.host := rfl
@[simp] theorem State.setTx_answer (s : State) (c : Nat) (x : TxCtx) : (s.setTx c x).answer = s.answer := rfl
@[simp] theorem State.setTx_free (s : State) (c : Nat) (x : TxCtx) : (s.setTx c x).free = s.free := rfl
@[simp] theorem State.setTx_pending (s : State) (c : Nat) (x : TxCtx) : (s.setTx c x).pending = s.pending := rfl
@[simp] theorem State.setTx_get (s : State) (c : Nat) (x : TxCtx) (j : Nat) : (s.setTx c x).get j = s.get j := (rfl)
@[simp] theorem State.setTx_rd (s : State) (c : Nat) (x : TxCtx) (fl : Fld) : (s.setTx c x).rd fl = s.rd fl := (rfl)

@[simp] theorem State.setPair_fuse (s : State) (d v : Nat) (x : Pair) : (s.setPair d v x).fuse = s.fuse := rfl
@[simp] theorem State.setPair_regs (s : State) (d v : Nat) (x : Pair) : (s.setPair d v x).regs = s.regs := rfl
@[simp] theorem State.setPair_rc (s : State) (d v : Nat) (x : Pair) : (s.setPair d v x).rc = s.rc := rfl
@[simp] theorem State.setPair_path (s : State) (d v : Nat) (x : Pair) : (s.setPair d v x).path = s.path := rfl
@[simp] theorem State.setPair_volt (s : State) (d v : Nat) (x : Pair) : (s.setPair d v x).volt = s.volt := rfl
@[simp] theorem State.setPair_time (s : State) (d v : Nat) (x : Pair) : (s.setPair d v x).time = s.time := rfl
@[simp] theorem State.setPair_ports (s : State) (d v : Nat) (x : Pair) : (s.setPair d v x).ports = s.ports := rfl
@[simp] theorem State.setPair_hearth (s : State) (d v : Nat) (x : Pair) : (s.setPair d v x).hearth = s.hearth := rfl
@[simp] theorem State.setPair_ptp (s : State) (d v : Nat) (x : Pair) : (s.setPair d v x).ptp = s.ptp := rfl
@[simp] theorem State.setPair_asrc (s : State) (d v : Nat) (x : Pair) : (s.setPair d v x).asrc = s.asrc := rfl
@[simp] theorem State.setPair_tdm (s : State) (d v : Nat) (x : Pair) : (s.setPair d v x).tdm = s.tdm := rfl
@[simp] theorem State.setPair_hall (s : State) (d v : Nat) (x : Pair) : (s.setPair d v x).hall = s.hall := rfl
@[simp] theorem State.setPair_rooms (s : State) (d v : Nat) (x : Pair) : (s.setPair d v x).rooms = s.rooms := rfl
@[simp] theorem State.setPair_guard (s : State) (d v : Nat) (x : Pair) : (s.setPair d v x).guard = s.guard := rfl
@[simp] theorem State.setPair_cellar (s : State) (d v : Nat) (x : Pair) : (s.setPair d v x).cellar = s.cellar := rfl
@[simp] theorem State.setPair_dw (s : State) (d v : Nat) (x : Pair) : (s.setPair d v x).dw = s.dw := rfl
@[simp] theorem State.setPair_kdp (s : State) (d v : Nat) (x : Pair) : (s.setPair d v x).kdp = s.kdp := rfl
@[simp] theorem State.setPair_flash (s : State) (d v : Nat) (x : Pair) : (s.setPair d v x).flash = s.flash := rfl
@[simp] theorem State.setPair_boot (s : State) (d v : Nat) (x : Pair) : (s.setPair d v x).boot = s.boot := rfl
@[simp] theorem State.setPair_hallTest (s : State) (d v : Nat) (x : Pair) : (s.setPair d v x).hallTest = s.hallTest := rfl
@[simp] theorem State.setPair_ddrTest (s : State) (d v : Nat) (x : Pair) : (s.setPair d v x).ddrTest = s.ddrTest := rfl
@[simp] theorem State.setPair_lb (s : State) (d v : Nat) (x : Pair) : (s.setPair d v x).lb = s.lb := rfl
@[simp] theorem State.setPair_host (s : State) (d v : Nat) (x : Pair) : (s.setPair d v x).host = s.host := rfl
@[simp] theorem State.setPair_answer (s : State) (d v : Nat) (x : Pair) : (s.setPair d v x).answer = s.answer := rfl
@[simp] theorem State.setPair_free (s : State) (d v : Nat) (x : Pair) : (s.setPair d v x).free = s.free := rfl
@[simp] theorem State.setPair_pending (s : State) (d v : Nat) (x : Pair) : (s.setPair d v x).pending = s.pending := rfl
@[simp] theorem State.setPair_get (s : State) (d v : Nat) (x : Pair) (j : Nat) : (s.setPair d v x).get j = s.get j := (rfl)
@[simp] theorem State.setPair_rd (s : State) (d v : Nat) (x : Pair) (fl : Fld) : (s.setPair d v x).rd fl = s.rd fl := (rfl)

@[simp] theorem State.setSide_fuse (s : State) (p b : Nat) (x : TdmSide) : (s.setSide p b x).fuse = s.fuse := rfl
@[simp] theorem State.setSide_regs (s : State) (p b : Nat) (x : TdmSide) : (s.setSide p b x).regs = s.regs := rfl
@[simp] theorem State.setSide_rc (s : State) (p b : Nat) (x : TdmSide) : (s.setSide p b x).rc = s.rc := rfl
@[simp] theorem State.setSide_path (s : State) (p b : Nat) (x : TdmSide) : (s.setSide p b x).path = s.path := rfl
@[simp] theorem State.setSide_volt (s : State) (p b : Nat) (x : TdmSide) : (s.setSide p b x).volt = s.volt := rfl
@[simp] theorem State.setSide_time (s : State) (p b : Nat) (x : TdmSide) : (s.setSide p b x).time = s.time := rfl
@[simp] theorem State.setSide_ports (s : State) (p b : Nat) (x : TdmSide) : (s.setSide p b x).ports = s.ports := rfl
@[simp] theorem State.setSide_hearth (s : State) (p b : Nat) (x : TdmSide) : (s.setSide p b x).hearth = s.hearth := rfl
@[simp] theorem State.setSide_ptp (s : State) (p b : Nat) (x : TdmSide) : (s.setSide p b x).ptp = s.ptp := rfl
@[simp] theorem State.setSide_stream (s : State) (p b : Nat) (x : TdmSide) : (s.setSide p b x).stream = s.stream := rfl
@[simp] theorem State.setSide_asrc (s : State) (p b : Nat) (x : TdmSide) : (s.setSide p b x).asrc = s.asrc := rfl
@[simp] theorem State.setSide_hall (s : State) (p b : Nat) (x : TdmSide) : (s.setSide p b x).hall = s.hall := rfl
@[simp] theorem State.setSide_rooms (s : State) (p b : Nat) (x : TdmSide) : (s.setSide p b x).rooms = s.rooms := rfl
@[simp] theorem State.setSide_guard (s : State) (p b : Nat) (x : TdmSide) : (s.setSide p b x).guard = s.guard := rfl
@[simp] theorem State.setSide_cellar (s : State) (p b : Nat) (x : TdmSide) : (s.setSide p b x).cellar = s.cellar := rfl
@[simp] theorem State.setSide_dw (s : State) (p b : Nat) (x : TdmSide) : (s.setSide p b x).dw = s.dw := rfl
@[simp] theorem State.setSide_kdp (s : State) (p b : Nat) (x : TdmSide) : (s.setSide p b x).kdp = s.kdp := rfl
@[simp] theorem State.setSide_flash (s : State) (p b : Nat) (x : TdmSide) : (s.setSide p b x).flash = s.flash := rfl
@[simp] theorem State.setSide_boot (s : State) (p b : Nat) (x : TdmSide) : (s.setSide p b x).boot = s.boot := rfl
@[simp] theorem State.setSide_hallTest (s : State) (p b : Nat) (x : TdmSide) : (s.setSide p b x).hallTest = s.hallTest := rfl
@[simp] theorem State.setSide_ddrTest (s : State) (p b : Nat) (x : TdmSide) : (s.setSide p b x).ddrTest = s.ddrTest := rfl
@[simp] theorem State.setSide_lb (s : State) (p b : Nat) (x : TdmSide) : (s.setSide p b x).lb = s.lb := rfl
@[simp] theorem State.setSide_host (s : State) (p b : Nat) (x : TdmSide) : (s.setSide p b x).host = s.host := rfl
@[simp] theorem State.setSide_answer (s : State) (p b : Nat) (x : TdmSide) : (s.setSide p b x).answer = s.answer := rfl
@[simp] theorem State.setSide_free (s : State) (p b : Nat) (x : TdmSide) : (s.setSide p b x).free = s.free := rfl
@[simp] theorem State.setSide_pending (s : State) (p b : Nat) (x : TdmSide) : (s.setSide p b x).pending = s.pending := rfl
@[simp] theorem State.setSide_get (s : State) (p b : Nat) (x : TdmSide) (j : Nat) : (s.setSide p b x).get j = s.get j := (rfl)
@[simp] theorem State.setSide_rd (s : State) (p b : Nat) (x : TdmSide) (fl : Fld) : (s.setSide p b x).rd fl = s.rd fl := (rfl)

@[simp] theorem State.putSink_fuse (s : State) (o v : Nat) (l : Option Nat) : (s.putSink o v l).fuse = s.fuse := rfl
@[simp] theorem State.putSink_regs (s : State) (o v : Nat) (l : Option Nat) : (s.putSink o v l).regs = s.regs := rfl
@[simp] theorem State.putSink_rc (s : State) (o v : Nat) (l : Option Nat) : (s.putSink o v l).rc = s.rc := rfl
@[simp] theorem State.putSink_volt (s : State) (o v : Nat) (l : Option Nat) : (s.putSink o v l).volt = s.volt := rfl
@[simp] theorem State.putSink_time (s : State) (o v : Nat) (l : Option Nat) : (s.putSink o v l).time = s.time := rfl
@[simp] theorem State.putSink_ports (s : State) (o v : Nat) (l : Option Nat) : (s.putSink o v l).ports = s.ports := rfl
@[simp] theorem State.putSink_hearth (s : State) (o v : Nat) (l : Option Nat) : (s.putSink o v l).hearth = s.hearth := rfl
@[simp] theorem State.putSink_ptp (s : State) (o v : Nat) (l : Option Nat) : (s.putSink o v l).ptp = s.ptp := rfl
@[simp] theorem State.putSink_stream (s : State) (o v : Nat) (l : Option Nat) : (s.putSink o v l).stream = s.stream := rfl
@[simp] theorem State.putSink_asrc (s : State) (o v : Nat) (l : Option Nat) : (s.putSink o v l).asrc = s.asrc := rfl
@[simp] theorem State.putSink_tdm (s : State) (o v : Nat) (l : Option Nat) : (s.putSink o v l).tdm = s.tdm := rfl
@[simp] theorem State.putSink_hall (s : State) (o v : Nat) (l : Option Nat) : (s.putSink o v l).hall = s.hall := rfl
@[simp] theorem State.putSink_rooms (s : State) (o v : Nat) (l : Option Nat) : (s.putSink o v l).rooms = s.rooms := rfl
@[simp] theorem State.putSink_guard (s : State) (o v : Nat) (l : Option Nat) : (s.putSink o v l).guard = s.guard := rfl
@[simp] theorem State.putSink_cellar (s : State) (o v : Nat) (l : Option Nat) : (s.putSink o v l).cellar = s.cellar := rfl
@[simp] theorem State.putSink_dw (s : State) (o v : Nat) (l : Option Nat) : (s.putSink o v l).dw = s.dw := rfl
@[simp] theorem State.putSink_kdp (s : State) (o v : Nat) (l : Option Nat) : (s.putSink o v l).kdp = s.kdp := rfl
@[simp] theorem State.putSink_flash (s : State) (o v : Nat) (l : Option Nat) : (s.putSink o v l).flash = s.flash := rfl
@[simp] theorem State.putSink_boot (s : State) (o v : Nat) (l : Option Nat) : (s.putSink o v l).boot = s.boot := rfl
@[simp] theorem State.putSink_hallTest (s : State) (o v : Nat) (l : Option Nat) : (s.putSink o v l).hallTest = s.hallTest := rfl
@[simp] theorem State.putSink_ddrTest (s : State) (o v : Nat) (l : Option Nat) : (s.putSink o v l).ddrTest = s.ddrTest := rfl
@[simp] theorem State.putSink_lb (s : State) (o v : Nat) (l : Option Nat) : (s.putSink o v l).lb = s.lb := rfl
@[simp] theorem State.putSink_host (s : State) (o v : Nat) (l : Option Nat) : (s.putSink o v l).host = s.host := rfl
@[simp] theorem State.putSink_answer (s : State) (o v : Nat) (l : Option Nat) : (s.putSink o v l).answer = s.answer := rfl
@[simp] theorem State.putSink_free (s : State) (o v : Nat) (l : Option Nat) : (s.putSink o v l).free = s.free := rfl
@[simp] theorem State.putSink_pending (s : State) (o v : Nat) (l : Option Nat) : (s.putSink o v l).pending = s.pending := rfl
@[simp] theorem State.putSink_get (s : State) (o v : Nat) (l : Option Nat) (j : Nat) : (s.putSink o v l).get j = s.get j := (rfl)
@[simp] theorem State.putSink_rd (s : State) (o v : Nat) (l : Option Nat) (fl : Fld) : (s.putSink o v l).rd fl = s.rd fl := (rfl)

@[simp] theorem State.setView_fuse (s : State) (v : Nat) (w : View) : (s.setView v w).fuse = s.fuse := rfl
@[simp] theorem State.setView_regs (s : State) (v : Nat) (w : View) : (s.setView v w).regs = s.regs := rfl
@[simp] theorem State.setView_rc (s : State) (v : Nat) (w : View) : (s.setView v w).rc = s.rc := rfl
@[simp] theorem State.setView_path (s : State) (v : Nat) (w : View) : (s.setView v w).path = s.path := rfl
@[simp] theorem State.setView_volt (s : State) (v : Nat) (w : View) : (s.setView v w).volt = s.volt := rfl
@[simp] theorem State.setView_ports (s : State) (v : Nat) (w : View) : (s.setView v w).ports = s.ports := rfl
@[simp] theorem State.setView_hearth (s : State) (v : Nat) (w : View) : (s.setView v w).hearth = s.hearth := rfl
@[simp] theorem State.setView_ptp (s : State) (v : Nat) (w : View) : (s.setView v w).ptp = s.ptp := rfl
@[simp] theorem State.setView_stream (s : State) (v : Nat) (w : View) : (s.setView v w).stream = s.stream := rfl
@[simp] theorem State.setView_asrc (s : State) (v : Nat) (w : View) : (s.setView v w).asrc = s.asrc := rfl
@[simp] theorem State.setView_tdm (s : State) (v : Nat) (w : View) : (s.setView v w).tdm = s.tdm := rfl
@[simp] theorem State.setView_hall (s : State) (v : Nat) (w : View) : (s.setView v w).hall = s.hall := rfl
@[simp] theorem State.setView_rooms (s : State) (v : Nat) (w : View) : (s.setView v w).rooms = s.rooms := rfl
@[simp] theorem State.setView_guard (s : State) (v : Nat) (w : View) : (s.setView v w).guard = s.guard := rfl
@[simp] theorem State.setView_cellar (s : State) (v : Nat) (w : View) : (s.setView v w).cellar = s.cellar := rfl
@[simp] theorem State.setView_dw (s : State) (v : Nat) (w : View) : (s.setView v w).dw = s.dw := rfl
@[simp] theorem State.setView_kdp (s : State) (v : Nat) (w : View) : (s.setView v w).kdp = s.kdp := rfl
@[simp] theorem State.setView_flash (s : State) (v : Nat) (w : View) : (s.setView v w).flash = s.flash := rfl
@[simp] theorem State.setView_boot (s : State) (v : Nat) (w : View) : (s.setView v w).boot = s.boot := rfl
@[simp] theorem State.setView_hallTest (s : State) (v : Nat) (w : View) : (s.setView v w).hallTest = s.hallTest := rfl
@[simp] theorem State.setView_ddrTest (s : State) (v : Nat) (w : View) : (s.setView v w).ddrTest = s.ddrTest := rfl
@[simp] theorem State.setView_lb (s : State) (v : Nat) (w : View) : (s.setView v w).lb = s.lb := rfl
@[simp] theorem State.setView_host (s : State) (v : Nat) (w : View) : (s.setView v w).host = s.host := rfl
@[simp] theorem State.setView_answer (s : State) (v : Nat) (w : View) : (s.setView v w).answer = s.answer := rfl
@[simp] theorem State.setView_free (s : State) (v : Nat) (w : View) : (s.setView v w).free = s.free := rfl
@[simp] theorem State.setView_pending (s : State) (v : Nat) (w : View) : (s.setView v w).pending = s.pending := rfl
@[simp] theorem State.setView_get (s : State) (v : Nat) (w : View) (j : Nat) : (s.setView v w).get j = s.get j := (rfl)
@[simp] theorem State.setView_rd (s : State) (v : Nat) (w : View) (fl : Fld) : (s.setView v w).rd fl = s.rd fl := (rfl)

@[simp] theorem State.setTrig_fuse (s : State) (tt : Nat) (t : Trig) : (s.setTrig tt t).fuse = s.fuse := rfl
@[simp] theorem State.setTrig_regs (s : State) (tt : Nat) (t : Trig) : (s.setTrig tt t).regs = s.regs := rfl
@[simp] theorem State.setTrig_rc (s : State) (tt : Nat) (t : Trig) : (s.setTrig tt t).rc = s.rc := rfl
@[simp] theorem State.setTrig_path (s : State) (tt : Nat) (t : Trig) : (s.setTrig tt t).path = s.path := rfl
@[simp] theorem State.setTrig_volt (s : State) (tt : Nat) (t : Trig) : (s.setTrig tt t).volt = s.volt := rfl
@[simp] theorem State.setTrig_ports (s : State) (tt : Nat) (t : Trig) : (s.setTrig tt t).ports = s.ports := rfl
@[simp] theorem State.setTrig_hearth (s : State) (tt : Nat) (t : Trig) : (s.setTrig tt t).hearth = s.hearth := rfl
@[simp] theorem State.setTrig_ptp (s : State) (tt : Nat) (t : Trig) : (s.setTrig tt t).ptp = s.ptp := rfl
@[simp] theorem State.setTrig_stream (s : State) (tt : Nat) (t : Trig) : (s.setTrig tt t).stream = s.stream := rfl
@[simp] theorem State.setTrig_asrc (s : State) (tt : Nat) (t : Trig) : (s.setTrig tt t).asrc = s.asrc := rfl
@[simp] theorem State.setTrig_tdm (s : State) (tt : Nat) (t : Trig) : (s.setTrig tt t).tdm = s.tdm := rfl
@[simp] theorem State.setTrig_hall (s : State) (tt : Nat) (t : Trig) : (s.setTrig tt t).hall = s.hall := rfl
@[simp] theorem State.setTrig_rooms (s : State) (tt : Nat) (t : Trig) : (s.setTrig tt t).rooms = s.rooms := rfl
@[simp] theorem State.setTrig_guard (s : State) (tt : Nat) (t : Trig) : (s.setTrig tt t).guard = s.guard := rfl
@[simp] theorem State.setTrig_cellar (s : State) (tt : Nat) (t : Trig) : (s.setTrig tt t).cellar = s.cellar := rfl
@[simp] theorem State.setTrig_dw (s : State) (tt : Nat) (t : Trig) : (s.setTrig tt t).dw = s.dw := rfl
@[simp] theorem State.setTrig_kdp (s : State) (tt : Nat) (t : Trig) : (s.setTrig tt t).kdp = s.kdp := rfl
@[simp] theorem State.setTrig_flash (s : State) (tt : Nat) (t : Trig) : (s.setTrig tt t).flash = s.flash := rfl
@[simp] theorem State.setTrig_boot (s : State) (tt : Nat) (t : Trig) : (s.setTrig tt t).boot = s.boot := rfl
@[simp] theorem State.setTrig_hallTest (s : State) (tt : Nat) (t : Trig) : (s.setTrig tt t).hallTest = s.hallTest := rfl
@[simp] theorem State.setTrig_ddrTest (s : State) (tt : Nat) (t : Trig) : (s.setTrig tt t).ddrTest = s.ddrTest := rfl
@[simp] theorem State.setTrig_lb (s : State) (tt : Nat) (t : Trig) : (s.setTrig tt t).lb = s.lb := rfl
@[simp] theorem State.setTrig_host (s : State) (tt : Nat) (t : Trig) : (s.setTrig tt t).host = s.host := rfl
@[simp] theorem State.setTrig_answer (s : State) (tt : Nat) (t : Trig) : (s.setTrig tt t).answer = s.answer := rfl
@[simp] theorem State.setTrig_free (s : State) (tt : Nat) (t : Trig) : (s.setTrig tt t).free = s.free := rfl
@[simp] theorem State.setTrig_pending (s : State) (tt : Nat) (t : Trig) : (s.setTrig tt t).pending = s.pending := rfl
@[simp] theorem State.setTrig_get (s : State) (tt : Nat) (t : Trig) (j : Nat) : (s.setTrig tt t).get j = s.get j := (rfl)
@[simp] theorem State.setTrig_rd (s : State) (tt : Nat) (t : Trig) (fl : Fld) : (s.setTrig tt t).rd fl = s.rd fl := (rfl)

@[simp] theorem State.markStep_fuse (s : State) (d v : Nat) : (s.markStep d v).fuse = s.fuse := rfl
@[simp] theorem State.markStep_regs (s : State) (d v : Nat) : (s.markStep d v).regs = s.regs := rfl
@[simp] theorem State.markStep_rc (s : State) (d v : Nat) : (s.markStep d v).rc = s.rc := rfl
@[simp] theorem State.markStep_path (s : State) (d v : Nat) : (s.markStep d v).path = s.path := rfl
@[simp] theorem State.markStep_volt (s : State) (d v : Nat) : (s.markStep d v).volt = s.volt := rfl
@[simp] theorem State.markStep_ports (s : State) (d v : Nat) : (s.markStep d v).ports = s.ports := rfl
@[simp] theorem State.markStep_hearth (s : State) (d v : Nat) : (s.markStep d v).hearth = s.hearth := rfl
@[simp] theorem State.markStep_ptp (s : State) (d v : Nat) : (s.markStep d v).ptp = s.ptp := rfl
@[simp] theorem State.markStep_stream (s : State) (d v : Nat) : (s.markStep d v).stream = s.stream := rfl
@[simp] theorem State.markStep_asrc (s : State) (d v : Nat) : (s.markStep d v).asrc = s.asrc := rfl
@[simp] theorem State.markStep_tdm (s : State) (d v : Nat) : (s.markStep d v).tdm = s.tdm := rfl
@[simp] theorem State.markStep_hall (s : State) (d v : Nat) : (s.markStep d v).hall = s.hall := rfl
@[simp] theorem State.markStep_rooms (s : State) (d v : Nat) : (s.markStep d v).rooms = s.rooms := rfl
@[simp] theorem State.markStep_guard (s : State) (d v : Nat) : (s.markStep d v).guard = s.guard := rfl
@[simp] theorem State.markStep_cellar (s : State) (d v : Nat) : (s.markStep d v).cellar = s.cellar := rfl
@[simp] theorem State.markStep_dw (s : State) (d v : Nat) : (s.markStep d v).dw = s.dw := rfl
@[simp] theorem State.markStep_kdp (s : State) (d v : Nat) : (s.markStep d v).kdp = s.kdp := rfl
@[simp] theorem State.markStep_flash (s : State) (d v : Nat) : (s.markStep d v).flash = s.flash := rfl
@[simp] theorem State.markStep_boot (s : State) (d v : Nat) : (s.markStep d v).boot = s.boot := rfl
@[simp] theorem State.markStep_hallTest (s : State) (d v : Nat) : (s.markStep d v).hallTest = s.hallTest := rfl
@[simp] theorem State.markStep_ddrTest (s : State) (d v : Nat) : (s.markStep d v).ddrTest = s.ddrTest := rfl
@[simp] theorem State.markStep_lb (s : State) (d v : Nat) : (s.markStep d v).lb = s.lb := rfl
@[simp] theorem State.markStep_host (s : State) (d v : Nat) : (s.markStep d v).host = s.host := rfl
@[simp] theorem State.markStep_answer (s : State) (d v : Nat) : (s.markStep d v).answer = s.answer := rfl
@[simp] theorem State.markStep_free (s : State) (d v : Nat) : (s.markStep d v).free = s.free := rfl
@[simp] theorem State.markStep_pending (s : State) (d v : Nat) : (s.markStep d v).pending = s.pending := rfl
@[simp] theorem State.markStep_get (s : State) (d v : Nat) (j : Nat) : (s.markStep d v).get j = s.get j := (rfl)
@[simp] theorem State.markStep_rd (s : State) (d v : Nat) (fl : Fld) : (s.markStep d v).rd fl = s.rd fl := (rfl)

@[simp] theorem State.setEvt_fuse (s : State) (i : Nat) (p : EvtPin) : (s.setEvt i p).fuse = s.fuse := rfl
@[simp] theorem State.setEvt_regs (s : State) (i : Nat) (p : EvtPin) : (s.setEvt i p).regs = s.regs := rfl
@[simp] theorem State.setEvt_rc (s : State) (i : Nat) (p : EvtPin) : (s.setEvt i p).rc = s.rc := rfl
@[simp] theorem State.setEvt_path (s : State) (i : Nat) (p : EvtPin) : (s.setEvt i p).path = s.path := rfl
@[simp] theorem State.setEvt_volt (s : State) (i : Nat) (p : EvtPin) : (s.setEvt i p).volt = s.volt := rfl
@[simp] theorem State.setEvt_ports (s : State) (i : Nat) (p : EvtPin) : (s.setEvt i p).ports = s.ports := rfl
@[simp] theorem State.setEvt_hearth (s : State) (i : Nat) (p : EvtPin) : (s.setEvt i p).hearth = s.hearth := rfl
@[simp] theorem State.setEvt_ptp (s : State) (i : Nat) (p : EvtPin) : (s.setEvt i p).ptp = s.ptp := rfl
@[simp] theorem State.setEvt_stream (s : State) (i : Nat) (p : EvtPin) : (s.setEvt i p).stream = s.stream := rfl
@[simp] theorem State.setEvt_asrc (s : State) (i : Nat) (p : EvtPin) : (s.setEvt i p).asrc = s.asrc := rfl
@[simp] theorem State.setEvt_tdm (s : State) (i : Nat) (p : EvtPin) : (s.setEvt i p).tdm = s.tdm := rfl
@[simp] theorem State.setEvt_hall (s : State) (i : Nat) (p : EvtPin) : (s.setEvt i p).hall = s.hall := rfl
@[simp] theorem State.setEvt_rooms (s : State) (i : Nat) (p : EvtPin) : (s.setEvt i p).rooms = s.rooms := rfl
@[simp] theorem State.setEvt_guard (s : State) (i : Nat) (p : EvtPin) : (s.setEvt i p).guard = s.guard := rfl
@[simp] theorem State.setEvt_cellar (s : State) (i : Nat) (p : EvtPin) : (s.setEvt i p).cellar = s.cellar := rfl
@[simp] theorem State.setEvt_dw (s : State) (i : Nat) (p : EvtPin) : (s.setEvt i p).dw = s.dw := rfl
@[simp] theorem State.setEvt_kdp (s : State) (i : Nat) (p : EvtPin) : (s.setEvt i p).kdp = s.kdp := rfl
@[simp] theorem State.setEvt_flash (s : State) (i : Nat) (p : EvtPin) : (s.setEvt i p).flash = s.flash := rfl
@[simp] theorem State.setEvt_boot (s : State) (i : Nat) (p : EvtPin) : (s.setEvt i p).boot = s.boot := rfl
@[simp] theorem State.setEvt_hallTest (s : State) (i : Nat) (p : EvtPin) : (s.setEvt i p).hallTest = s.hallTest := rfl
@[simp] theorem State.setEvt_ddrTest (s : State) (i : Nat) (p : EvtPin) : (s.setEvt i p).ddrTest = s.ddrTest := rfl
@[simp] theorem State.setEvt_lb (s : State) (i : Nat) (p : EvtPin) : (s.setEvt i p).lb = s.lb := rfl
@[simp] theorem State.setEvt_host (s : State) (i : Nat) (p : EvtPin) : (s.setEvt i p).host = s.host := rfl
@[simp] theorem State.setEvt_answer (s : State) (i : Nat) (p : EvtPin) : (s.setEvt i p).answer = s.answer := rfl
@[simp] theorem State.setEvt_free (s : State) (i : Nat) (p : EvtPin) : (s.setEvt i p).free = s.free := rfl
@[simp] theorem State.setEvt_pending (s : State) (i : Nat) (p : EvtPin) : (s.setEvt i p).pending = s.pending := rfl
@[simp] theorem State.setEvt_get (s : State) (i : Nat) (p : EvtPin) (j : Nat) : (s.setEvt i p).get j = s.get j := (rfl)
@[simp] theorem State.setEvt_rd (s : State) (i : Nat) (p : EvtPin) (fl : Fld) : (s.setEvt i p).rd fl = s.rd fl := (rfl)

@[simp] theorem State.setOut_fuse (s : State) (o : Nat) (p : OutPin) : (s.setOut o p).fuse = s.fuse := rfl
@[simp] theorem State.setOut_regs (s : State) (o : Nat) (p : OutPin) : (s.setOut o p).regs = s.regs := rfl
@[simp] theorem State.setOut_rc (s : State) (o : Nat) (p : OutPin) : (s.setOut o p).rc = s.rc := rfl
@[simp] theorem State.setOut_path (s : State) (o : Nat) (p : OutPin) : (s.setOut o p).path = s.path := rfl
@[simp] theorem State.setOut_volt (s : State) (o : Nat) (p : OutPin) : (s.setOut o p).volt = s.volt := rfl
@[simp] theorem State.setOut_ports (s : State) (o : Nat) (p : OutPin) : (s.setOut o p).ports = s.ports := rfl
@[simp] theorem State.setOut_hearth (s : State) (o : Nat) (p : OutPin) : (s.setOut o p).hearth = s.hearth := rfl
@[simp] theorem State.setOut_ptp (s : State) (o : Nat) (p : OutPin) : (s.setOut o p).ptp = s.ptp := rfl
@[simp] theorem State.setOut_stream (s : State) (o : Nat) (p : OutPin) : (s.setOut o p).stream = s.stream := rfl
@[simp] theorem State.setOut_asrc (s : State) (o : Nat) (p : OutPin) : (s.setOut o p).asrc = s.asrc := rfl
@[simp] theorem State.setOut_tdm (s : State) (o : Nat) (p : OutPin) : (s.setOut o p).tdm = s.tdm := rfl
@[simp] theorem State.setOut_hall (s : State) (o : Nat) (p : OutPin) : (s.setOut o p).hall = s.hall := rfl
@[simp] theorem State.setOut_rooms (s : State) (o : Nat) (p : OutPin) : (s.setOut o p).rooms = s.rooms := rfl
@[simp] theorem State.setOut_guard (s : State) (o : Nat) (p : OutPin) : (s.setOut o p).guard = s.guard := rfl
@[simp] theorem State.setOut_cellar (s : State) (o : Nat) (p : OutPin) : (s.setOut o p).cellar = s.cellar := rfl
@[simp] theorem State.setOut_dw (s : State) (o : Nat) (p : OutPin) : (s.setOut o p).dw = s.dw := rfl
@[simp] theorem State.setOut_kdp (s : State) (o : Nat) (p : OutPin) : (s.setOut o p).kdp = s.kdp := rfl
@[simp] theorem State.setOut_flash (s : State) (o : Nat) (p : OutPin) : (s.setOut o p).flash = s.flash := rfl
@[simp] theorem State.setOut_boot (s : State) (o : Nat) (p : OutPin) : (s.setOut o p).boot = s.boot := rfl
@[simp] theorem State.setOut_hallTest (s : State) (o : Nat) (p : OutPin) : (s.setOut o p).hallTest = s.hallTest := rfl
@[simp] theorem State.setOut_ddrTest (s : State) (o : Nat) (p : OutPin) : (s.setOut o p).ddrTest = s.ddrTest := rfl
@[simp] theorem State.setOut_lb (s : State) (o : Nat) (p : OutPin) : (s.setOut o p).lb = s.lb := rfl
@[simp] theorem State.setOut_host (s : State) (o : Nat) (p : OutPin) : (s.setOut o p).host = s.host := rfl
@[simp] theorem State.setOut_answer (s : State) (o : Nat) (p : OutPin) : (s.setOut o p).answer = s.answer := rfl
@[simp] theorem State.setOut_free (s : State) (o : Nat) (p : OutPin) : (s.setOut o p).free = s.free := rfl
@[simp] theorem State.setOut_pending (s : State) (o : Nat) (p : OutPin) : (s.setOut o p).pending = s.pending := rfl
@[simp] theorem State.setOut_get (s : State) (o : Nat) (p : OutPin) (j : Nat) : (s.setOut o p).get j = s.get j := (rfl)
@[simp] theorem State.setOut_rd (s : State) (o : Nat) (p : OutPin) (fl : Fld) : (s.setOut o p).rd fl = s.rd fl := (rfl)

@[simp] theorem State.setTone_fuse (s : State) (g : Nat) (x : Tone) : (s.setTone g x).fuse = s.fuse := rfl
@[simp] theorem State.setTone_regs (s : State) (g : Nat) (x : Tone) : (s.setTone g x).regs = s.regs := rfl
@[simp] theorem State.setTone_rc (s : State) (g : Nat) (x : Tone) : (s.setTone g x).rc = s.rc := rfl
@[simp] theorem State.setTone_volt (s : State) (g : Nat) (x : Tone) : (s.setTone g x).volt = s.volt := rfl
@[simp] theorem State.setTone_time (s : State) (g : Nat) (x : Tone) : (s.setTone g x).time = s.time := rfl
@[simp] theorem State.setTone_ports (s : State) (g : Nat) (x : Tone) : (s.setTone g x).ports = s.ports := rfl
@[simp] theorem State.setTone_hearth (s : State) (g : Nat) (x : Tone) : (s.setTone g x).hearth = s.hearth := rfl
@[simp] theorem State.setTone_ptp (s : State) (g : Nat) (x : Tone) : (s.setTone g x).ptp = s.ptp := rfl
@[simp] theorem State.setTone_stream (s : State) (g : Nat) (x : Tone) : (s.setTone g x).stream = s.stream := rfl
@[simp] theorem State.setTone_asrc (s : State) (g : Nat) (x : Tone) : (s.setTone g x).asrc = s.asrc := rfl
@[simp] theorem State.setTone_tdm (s : State) (g : Nat) (x : Tone) : (s.setTone g x).tdm = s.tdm := rfl
@[simp] theorem State.setTone_hall (s : State) (g : Nat) (x : Tone) : (s.setTone g x).hall = s.hall := rfl
@[simp] theorem State.setTone_rooms (s : State) (g : Nat) (x : Tone) : (s.setTone g x).rooms = s.rooms := rfl
@[simp] theorem State.setTone_guard (s : State) (g : Nat) (x : Tone) : (s.setTone g x).guard = s.guard := rfl
@[simp] theorem State.setTone_cellar (s : State) (g : Nat) (x : Tone) : (s.setTone g x).cellar = s.cellar := rfl
@[simp] theorem State.setTone_dw (s : State) (g : Nat) (x : Tone) : (s.setTone g x).dw = s.dw := rfl
@[simp] theorem State.setTone_kdp (s : State) (g : Nat) (x : Tone) : (s.setTone g x).kdp = s.kdp := rfl
@[simp] theorem State.setTone_flash (s : State) (g : Nat) (x : Tone) : (s.setTone g x).flash = s.flash := rfl
@[simp] theorem State.setTone_boot (s : State) (g : Nat) (x : Tone) : (s.setTone g x).boot = s.boot := rfl
@[simp] theorem State.setTone_hallTest (s : State) (g : Nat) (x : Tone) : (s.setTone g x).hallTest = s.hallTest := rfl
@[simp] theorem State.setTone_ddrTest (s : State) (g : Nat) (x : Tone) : (s.setTone g x).ddrTest = s.ddrTest := rfl
@[simp] theorem State.setTone_lb (s : State) (g : Nat) (x : Tone) : (s.setTone g x).lb = s.lb := rfl
@[simp] theorem State.setTone_host (s : State) (g : Nat) (x : Tone) : (s.setTone g x).host = s.host := rfl
@[simp] theorem State.setTone_answer (s : State) (g : Nat) (x : Tone) : (s.setTone g x).answer = s.answer := rfl
@[simp] theorem State.setTone_free (s : State) (g : Nat) (x : Tone) : (s.setTone g x).free = s.free := rfl
@[simp] theorem State.setTone_pending (s : State) (g : Nat) (x : Tone) : (s.setTone g x).pending = s.pending := rfl
@[simp] theorem State.setTone_get (s : State) (g : Nat) (x : Tone) (j : Nat) : (s.setTone g x).get j = s.get j := (rfl)
@[simp] theorem State.setTone_rd (s : State) (g : Nat) (x : Tone) (fl : Fld) : (s.setTone g x).rd fl = s.rd fl := (rfl)

@[simp] theorem State.setHmWin_fuse (s : State) (k : Nat) (w : HmWin) : (s.setHmWin k w).fuse = s.fuse := rfl
@[simp] theorem State.setHmWin_regs (s : State) (k : Nat) (w : HmWin) : (s.setHmWin k w).regs = s.regs := rfl
@[simp] theorem State.setHmWin_rc (s : State) (k : Nat) (w : HmWin) : (s.setHmWin k w).rc = s.rc := rfl
@[simp] theorem State.setHmWin_path (s : State) (k : Nat) (w : HmWin) : (s.setHmWin k w).path = s.path := rfl
@[simp] theorem State.setHmWin_time (s : State) (k : Nat) (w : HmWin) : (s.setHmWin k w).time = s.time := rfl
@[simp] theorem State.setHmWin_ports (s : State) (k : Nat) (w : HmWin) : (s.setHmWin k w).ports = s.ports := rfl
@[simp] theorem State.setHmWin_hearth (s : State) (k : Nat) (w : HmWin) : (s.setHmWin k w).hearth = s.hearth := rfl
@[simp] theorem State.setHmWin_ptp (s : State) (k : Nat) (w : HmWin) : (s.setHmWin k w).ptp = s.ptp := rfl
@[simp] theorem State.setHmWin_stream (s : State) (k : Nat) (w : HmWin) : (s.setHmWin k w).stream = s.stream := rfl
@[simp] theorem State.setHmWin_asrc (s : State) (k : Nat) (w : HmWin) : (s.setHmWin k w).asrc = s.asrc := rfl
@[simp] theorem State.setHmWin_tdm (s : State) (k : Nat) (w : HmWin) : (s.setHmWin k w).tdm = s.tdm := rfl
@[simp] theorem State.setHmWin_hall (s : State) (k : Nat) (w : HmWin) : (s.setHmWin k w).hall = s.hall := rfl
@[simp] theorem State.setHmWin_rooms (s : State) (k : Nat) (w : HmWin) : (s.setHmWin k w).rooms = s.rooms := rfl
@[simp] theorem State.setHmWin_guard (s : State) (k : Nat) (w : HmWin) : (s.setHmWin k w).guard = s.guard := rfl
@[simp] theorem State.setHmWin_cellar (s : State) (k : Nat) (w : HmWin) : (s.setHmWin k w).cellar = s.cellar := rfl
@[simp] theorem State.setHmWin_dw (s : State) (k : Nat) (w : HmWin) : (s.setHmWin k w).dw = s.dw := rfl
@[simp] theorem State.setHmWin_kdp (s : State) (k : Nat) (w : HmWin) : (s.setHmWin k w).kdp = s.kdp := rfl
@[simp] theorem State.setHmWin_flash (s : State) (k : Nat) (w : HmWin) : (s.setHmWin k w).flash = s.flash := rfl
@[simp] theorem State.setHmWin_boot (s : State) (k : Nat) (w : HmWin) : (s.setHmWin k w).boot = s.boot := rfl
@[simp] theorem State.setHmWin_hallTest (s : State) (k : Nat) (w : HmWin) : (s.setHmWin k w).hallTest = s.hallTest := rfl
@[simp] theorem State.setHmWin_ddrTest (s : State) (k : Nat) (w : HmWin) : (s.setHmWin k w).ddrTest = s.ddrTest := rfl
@[simp] theorem State.setHmWin_lb (s : State) (k : Nat) (w : HmWin) : (s.setHmWin k w).lb = s.lb := rfl
@[simp] theorem State.setHmWin_host (s : State) (k : Nat) (w : HmWin) : (s.setHmWin k w).host = s.host := rfl
@[simp] theorem State.setHmWin_answer (s : State) (k : Nat) (w : HmWin) : (s.setHmWin k w).answer = s.answer := rfl
@[simp] theorem State.setHmWin_free (s : State) (k : Nat) (w : HmWin) : (s.setHmWin k w).free = s.free := rfl
@[simp] theorem State.setHmWin_pending (s : State) (k : Nat) (w : HmWin) : (s.setHmWin k w).pending = s.pending := rfl
@[simp] theorem State.setHmWin_get (s : State) (k : Nat) (w : HmWin) (j : Nat) : (s.setHmWin k w).get j = s.get j := (rfl)
@[simp] theorem State.setHmWin_rd (s : State) (k : Nat) (w : HmWin) (fl : Fld) : (s.setHmWin k w).rd fl = s.rd fl := (rfl)

@[simp] theorem State.hmRestart_fuse (s : State) : (s.hmRestart).fuse = s.fuse := rfl
@[simp] theorem State.hmRestart_regs (s : State) : (s.hmRestart).regs = s.regs := rfl
@[simp] theorem State.hmRestart_rc (s : State) : (s.hmRestart).rc = s.rc := rfl
@[simp] theorem State.hmRestart_path (s : State) : (s.hmRestart).path = s.path := rfl
@[simp] theorem State.hmRestart_time (s : State) : (s.hmRestart).time = s.time := rfl
@[simp] theorem State.hmRestart_ports (s : State) : (s.hmRestart).ports = s.ports := rfl
@[simp] theorem State.hmRestart_hearth (s : State) : (s.hmRestart).hearth = s.hearth := rfl
@[simp] theorem State.hmRestart_ptp (s : State) : (s.hmRestart).ptp = s.ptp := rfl
@[simp] theorem State.hmRestart_stream (s : State) : (s.hmRestart).stream = s.stream := rfl
@[simp] theorem State.hmRestart_asrc (s : State) : (s.hmRestart).asrc = s.asrc := rfl
@[simp] theorem State.hmRestart_tdm (s : State) : (s.hmRestart).tdm = s.tdm := rfl
@[simp] theorem State.hmRestart_hall (s : State) : (s.hmRestart).hall = s.hall := rfl
@[simp] theorem State.hmRestart_rooms (s : State) : (s.hmRestart).rooms = s.rooms := rfl
@[simp] theorem State.hmRestart_guard (s : State) : (s.hmRestart).guard = s.guard := rfl
@[simp] theorem State.hmRestart_cellar (s : State) : (s.hmRestart).cellar = s.cellar := rfl
@[simp] theorem State.hmRestart_dw (s : State) : (s.hmRestart).dw = s.dw := rfl
@[simp] theorem State.hmRestart_kdp (s : State) : (s.hmRestart).kdp = s.kdp := rfl
@[simp] theorem State.hmRestart_flash (s : State) : (s.hmRestart).flash = s.flash := rfl
@[simp] theorem State.hmRestart_boot (s : State) : (s.hmRestart).boot = s.boot := rfl
@[simp] theorem State.hmRestart_hallTest (s : State) : (s.hmRestart).hallTest = s.hallTest := rfl
@[simp] theorem State.hmRestart_ddrTest (s : State) : (s.hmRestart).ddrTest = s.ddrTest := rfl
@[simp] theorem State.hmRestart_lb (s : State) : (s.hmRestart).lb = s.lb := rfl
@[simp] theorem State.hmRestart_host (s : State) : (s.hmRestart).host = s.host := rfl
@[simp] theorem State.hmRestart_answer (s : State) : (s.hmRestart).answer = s.answer := rfl
@[simp] theorem State.hmRestart_free (s : State) : (s.hmRestart).free = s.free := rfl
@[simp] theorem State.hmRestart_pending (s : State) : (s.hmRestart).pending = s.pending := rfl
@[simp] theorem State.hmRestart_get (s : State) (j : Nat) : (s.hmRestart).get j = s.get j := (rfl)
@[simp] theorem State.hmRestart_rd (s : State) (fl : Fld) : (s.hmRestart).rd fl = s.rd fl := (rfl)

@[simp] theorem State.idleArm_fuse (s : State) : (s.idleArm).fuse = s.fuse := rfl
@[simp] theorem State.idleArm_regs (s : State) : (s.idleArm).regs = s.regs := rfl
@[simp] theorem State.idleArm_rc (s : State) : (s.idleArm).rc = s.rc := rfl
@[simp] theorem State.idleArm_path (s : State) : (s.idleArm).path = s.path := rfl
@[simp] theorem State.idleArm_time (s : State) : (s.idleArm).time = s.time := rfl
@[simp] theorem State.idleArm_ports (s : State) : (s.idleArm).ports = s.ports := rfl
@[simp] theorem State.idleArm_hearth (s : State) : (s.idleArm).hearth = s.hearth := rfl
@[simp] theorem State.idleArm_ptp (s : State) : (s.idleArm).ptp = s.ptp := rfl
@[simp] theorem State.idleArm_stream (s : State) : (s.idleArm).stream = s.stream := rfl
@[simp] theorem State.idleArm_asrc (s : State) : (s.idleArm).asrc = s.asrc := rfl
@[simp] theorem State.idleArm_tdm (s : State) : (s.idleArm).tdm = s.tdm := rfl
@[simp] theorem State.idleArm_hall (s : State) : (s.idleArm).hall = s.hall := rfl
@[simp] theorem State.idleArm_rooms (s : State) : (s.idleArm).rooms = s.rooms := rfl
@[simp] theorem State.idleArm_guard (s : State) : (s.idleArm).guard = s.guard := rfl
@[simp] theorem State.idleArm_cellar (s : State) : (s.idleArm).cellar = s.cellar := rfl
@[simp] theorem State.idleArm_dw (s : State) : (s.idleArm).dw = s.dw := rfl
@[simp] theorem State.idleArm_kdp (s : State) : (s.idleArm).kdp = s.kdp := rfl
@[simp] theorem State.idleArm_flash (s : State) : (s.idleArm).flash = s.flash := rfl
@[simp] theorem State.idleArm_boot (s : State) : (s.idleArm).boot = s.boot := rfl
@[simp] theorem State.idleArm_hallTest (s : State) : (s.idleArm).hallTest = s.hallTest := rfl
@[simp] theorem State.idleArm_ddrTest (s : State) : (s.idleArm).ddrTest = s.ddrTest := rfl
@[simp] theorem State.idleArm_lb (s : State) : (s.idleArm).lb = s.lb := rfl
@[simp] theorem State.idleArm_host (s : State) : (s.idleArm).host = s.host := rfl
@[simp] theorem State.idleArm_answer (s : State) : (s.idleArm).answer = s.answer := rfl
@[simp] theorem State.idleArm_free (s : State) : (s.idleArm).free = s.free := rfl
@[simp] theorem State.idleArm_pending (s : State) : (s.idleArm).pending = s.pending := rfl
@[simp] theorem State.idleArm_get (s : State) (j : Nat) : (s.idleArm).get j = s.get j := (rfl)
@[simp] theorem State.idleArm_rd (s : State) (fl : Fld) : (s.idleArm).rd fl = s.rd fl := (rfl)

@[simp] theorem State.say_get (s : State) (st : Status) (j : Nat) : (s.say st).get j = s.get j := (rfl)
@[simp] theorem State.say_rd (s : State) (st : Status) (g : Fld) : (s.say st).rd g = s.rd g := (rfl)
@[simp] theorem State.say_answer (s : State) (st : Status) : (s.say st).answer = { status := st } := rfl

/-- An entry reads as it was last written. -/
@[simp] theorem State.get_put_same (s : State) (key v : Nat) : (s.put key v).get key = v :=
  Sparse.get_put_same _ _ _ _

/-- A write of one entry leaves every other one. -/
theorem State.get_put_ne (s : State) {key j : Nat} (v : Nat) (h : j ≠ key) : (s.put key v).get j = s.get j :=
  Sparse.get_put_ne _ _ _ h

theorem State.get_wr_ne (s : State) {f : Fld} {j : Nat} (v : Nat) (h : j ≠ f.key) : (s.wr f v).get j = s.get j :=
  Sparse.get_put_ne _ _ _ h

theorem State.get_bump_ne (s : State) {f : Fld} {j : Nat} (n : Nat) (h : j ≠ f.key) : (s.bump f n).get j = s.get j :=
  Sparse.get_put_ne _ _ _ h

theorem State.get_flag_ne (s : State) {f : Fld} {j : Nat} (b : Bool) (h : j ≠ f.key) : (s.flag f b).get j = s.get j :=
  Sparse.get_put_ne _ _ _ h

@[simp] theorem State.get_wr_same (s : State) (f : Fld) (v : Nat) :
    (s.wr f v).get f.key = setField (s.get f.key) f.lo f.w v := State.get_put_same ..

/-- A field read back from the word it was written to. -/
theorem field_setField_same (n lo w v : Nat) : field (setField n lo w v) lo w = v % 2 ^ w := by
  have h1 : n % 2 ^ lo < 2 ^ lo := Nat.mod_lt _ (Nat.two_pow_pos lo)
  unfold field setField
  rw [Nat.add_mul_div_right _ _ (Nat.two_pow_pos lo), Nat.div_eq_of_lt h1, Nat.zero_add, Nat.add_mul_mod_self_right, Nat.mod_mod]

/-- Bit `i` of a word with a field written. -/
theorem testBit_setField (n lo w v i : Nat) :
    (setField n lo w v).testBit i =
      if i < lo then n.testBit i else if i < lo + w then v.testBit (i - lo) else n.testBit i := by
  unfold setField
  have e : n % 2 ^ lo + (v % 2 ^ w + n / 2 ^ (lo + w) * 2 ^ w) * 2 ^ lo
      = 2 ^ lo * (2 ^ w * (n / 2 ^ (lo + w)) + v % 2 ^ w) + n % 2 ^ lo := by ring
  rw [e, Nat.testBit_two_pow_mul_add _ (Nat.mod_lt _ (Nat.two_pow_pos lo))]
  split
  · simp [Nat.testBit_mod_two_pow, *]
  · rw [Nat.testBit_two_pow_mul_add _ (Nat.mod_lt _ (Nat.two_pow_pos w))]
    split
    · rw [if_pos (by omega)]; simp [Nat.testBit_mod_two_pow, *]
    · rw [if_neg (by omega), Nat.testBit_div_two_pow]; congr 1; omega

/-- Bit `i` of a field. -/
theorem testBit_field (n lo w i : Nat) : (field n lo w).testBit i = (decide (i < w) && n.testBit (i + lo)) := by
  unfold field
  rw [Nat.testBit_mod_two_pow, Nat.testBit_div_two_pow]

/-- A field apart from the one written is as it was. -/
theorem field_setField_ne (n lo w v lo' w' : Nat) (h : lo' + w' ≤ lo ∨ lo + w ≤ lo') :
    field (setField n lo w v) lo' w' = field n lo' w' := by
  apply Nat.eq_of_testBit_eq
  intro i
  rw [testBit_field, testBit_field, testBit_setField]
  by_cases hi : i < w'
  · rcases h with h | h
    · rw [if_pos (by omega)]
    · rw [if_neg (by omega), if_neg (by omega)]
  · simp [hi]

/-- A field reads as it was last written, cut to its width. -/
@[simp] theorem State.rd_wr_same (s : State) (f : Fld) (v : Nat) : (s.wr f v).rd f = v % 2 ^ f.w := by
  unfold State.rd
  rw [State.get_wr_same, field_setField_same]

/-- A write of one field leaves a field of another entry. -/
theorem State.rd_wr_ne (s : State) {f g : Fld} (v : Nat) (h : g.key ≠ f.key) : (s.wr f v).rd g = s.rd g := by
  unfold State.rd; rw [State.get_wr_ne s v h]

/-- A write of one field leaves a field of the same entry that lies apart from it. -/
theorem State.rd_wr_apart (s : State) {f g : Fld} (v : Nat) (h : g.lo + g.w ≤ f.lo ∨ f.lo + f.w ≤ g.lo) :
    (s.wr f v).rd g = s.rd g := by
  by_cases hk : g.key = f.key
  · unfold State.rd; rw [hk, State.get_wr_same, field_setField_ne _ _ _ _ _ _ h]
  · exact State.rd_wr_ne s v hk

theorem State.rd_put_ne (s : State) {key : Nat} {g : Fld} (v : Nat) (h : g.key ≠ key) : (s.put key v).rd g = s.rd g := by
  unfold State.rd; rw [State.get_put_ne s v h]

theorem State.rd_bump_ne (s : State) {f g : Fld} (n : Nat) (h : g.key ≠ f.key) : (s.bump f n).rd g = s.rd g :=
  State.rd_wr_ne s _ h

theorem State.rd_flag_ne (s : State) {f g : Fld} (b : Bool) (h : g.key ≠ f.key) : (s.flag f b).rd g = s.rd g :=
  State.rd_wr_ne s _ h

/-- A field is below two to its width. -/
theorem State.rd_lt (s : State) (f : Fld) : s.rd f < 2 ^ f.w := Nat.mod_lt _ (Nat.two_pow_pos _)

/-- A counter counts on by `n`, saturating (R226 and every counter table). -/
@[simp] theorem State.rd_bump_same (s : State) (f : Fld) (n : Nat) : (s.bump f n).rd f = min (s.rd f + n) (2 ^ f.w - 1) := by
  unfold State.bump
  rw [State.rd_wr_same, Nat.mod_eq_of_lt]
  have := Nat.two_pow_pos f.w
  omega

/-- A flag reads as it was last set. -/
@[simp] theorem State.on_flag_same (s : State) (f : Fld) (b : Bool) (h : 0 < f.w) : (s.flag f b).on f = b := by
  unfold State.on State.flag
  rw [State.rd_wr_same]
  have : 1 < 2 ^ f.w := Nat.one_lt_two_pow (by omega)
  cases b <;> simp [b2n, Nat.mod_eq_of_lt this]

/-- Room `r` reads as it was last set. -/
@[simp] theorem State.room_setRoom (s : State) (r : Nat) (x : Room) : (s.setRoom r x).room r = x := Sparse.get_put_same _ _ _ _
theorem State.room_setRoom_ne (s : State) {r k : Nat} (x : Room) (h : k ≠ r) : (s.setRoom r x).room k = s.room k :=
  Sparse.get_put_ne _ _ _ h
@[simp] theorem State.tile_setTile (s : State) (t : Nat) (x : Tile) : (s.setTile t x).tile t = x := Sparse.get_put_same _ _ _ _
theorem State.tile_setTile_ne (s : State) {t k : Nat} (x : Tile) (h : k ≠ t) : (s.setTile t x).tile k = s.tile k :=
  Sparse.get_put_ne _ _ _ h
@[simp] theorem State.side_setSide (s : State) (p b : Nat) (x : TdmSide) : (s.setSide p b x).side p b = x :=
  Sparse.get_put_same _ _ _ _
@[simp] theorem State.view_setView (s : State) (v : Nat) (w : View) : (s.setView v w).view v = w := Sparse.get_put_same _ _ _ _
theorem State.view_setView_ne (s : State) {v k : Nat} (w : View) (h : k ≠ v) : (s.setView v w).view k = s.view k :=
  Sparse.get_put_ne _ _ _ h
@[simp] theorem State.trig_setTrig (s : State) (v : Nat) (w : Trig) : (s.setTrig v w).trig v = w := Sparse.get_put_same _ _ _ _
@[simp] theorem State.port_setPort (s : State) (p : Nat) (x : Port) : (s.setPort p x).port p = x := Sparse.get_put_same _ _ _ _
@[simp] theorem State.hmWin_setHmWin (s : State) (k : Nat) (w : HmWin) : (s.setHmWin k w).hmWin k = w :=
  Sparse.get_put_same _ _ _ _
@[simp] theorem State.dlHold_setDlHold (s : State) (d c : Nat) (h : Hold) : (s.setDlHold d c h).dlHold d c = h :=
  Sparse.get_put_same _ _ _ _
@[simp] theorem State.slot_setSlot (s : State) (k : Nat) (g : Guest) : (s.setSlot k g).slot k = g := Sparse.get_put_same _ _ _ _
@[simp] theorem State.guarded_setGuarded (s : State) (r : Nat) (x : Guarded) : (s.setGuarded r x).guarded r = x :=
  Sparse.get_put_same _ _ _ _
@[simp] theorem State.core_setCore (s : State) (c : Nat) (x : CoreHealth) : (s.setCore c x).core c = x := Sparse.get_put_same _ _ _ _
theorem State.slot_setSlot_ne (s : State) {k j : Nat} (g : Guest) (h : j ≠ k) : (s.setSlot k g).slot j = s.slot j :=
  Sparse.get_put_ne _ _ _ h
theorem State.guarded_setGuarded_ne (s : State) {r j : Nat} (x : Guarded) (h : j ≠ r) : (s.setGuarded r x).guarded j = s.guarded j :=
  Sparse.get_put_ne _ _ _ h
theorem State.core_setCore_ne (s : State) {c j : Nat} (x : CoreHealth) (h : j ≠ c) : (s.setCore c x).core j = s.core j :=
  Sparse.get_put_ne _ _ _ h
@[simp] theorem State.setSlot_on (s : State) (k : Nat) (g : Guest) (f : Fld) : (s.setSlot k g).on f = s.on f := (rfl)
@[simp] theorem State.setSlot_vote (s : State) (k : Nat) (g : Guest) : (s.setSlot k g).guard.vote = s.guard.vote := rfl
@[simp] theorem State.setSlot_core (s : State) (k : Nat) (g : Guest) (c : Nat) : (s.setSlot k g).core c = s.core c := rfl
@[simp] theorem State.setSlot_guarded (s : State) (k : Nat) (g : Guest) (r : Nat) : (s.setSlot k g).guarded r = s.guarded r := rfl
@[simp] theorem State.setCore_slot (s : State) (c : Nat) (x : CoreHealth) (k : Nat) : (s.setCore c x).slot k = s.slot k := rfl
@[simp] theorem State.setCore_guarded (s : State) (c : Nat) (x : CoreHealth) (r : Nat) : (s.setCore c x).guarded r = s.guarded r :=
  rfl
@[simp] theorem State.setGuarded_slot (s : State) (r : Nat) (x : Guarded) (k : Nat) : (s.setGuarded r x).slot k = s.slot k := rfl
@[simp] theorem State.setGuarded_core (s : State) (r : Nat) (x : Guarded) (c : Nat) : (s.setGuarded r x).core c = s.core c := rfl

end Sys2Proof.Machine
end

