-- ==== Sys2Proof/Laws/Post.lean ====
section
/-! SUPPORT. What posting an event leaves unchanged: everything but the Letterbox and its counters (R411 to R415, R422). -/

namespace Sys2Proof.Machine

/-- The state with another Letterbox, and with registers changed at the Letterbox's counters alone. -/
structure OnlyLb (s t : State) : Prop where
  regs : ∀ k, k ∉ lbKeys → t.get k = s.get k
  fuse : t.fuse = s.fuse
  rc : t.rc = s.rc
  path : t.path = s.path
  volt : t.volt = s.volt
  time : t.time = s.time
  ports : t.ports = s.ports
  hearth : t.hearth = s.hearth
  ptp : t.ptp = s.ptp
  stream : t.stream = s.stream
  asrc : t.asrc = s.asrc
  tdm : t.tdm = s.tdm
  hall : t.hall = s.hall
  rooms : t.rooms = s.rooms
  guard : t.guard = s.guard
  cellar : t.cellar = s.cellar
  dw : t.dw = s.dw
  kdp : t.kdp = s.kdp
  flash : t.flash = s.flash
  boot : t.boot = s.boot
  hallTest : t.hallTest = s.hallTest
  ddrTest : t.ddrTest = s.ddrTest
  host : t.host = s.host
  answer : t.answer = s.answer
  free : t.free = s.free
  pending : t.pending = s.pending

theorem OnlyLb.refl (s : State) : OnlyLb s s := ⟨fun _ _ => rfl, rfl, rfl, rfl, rfl, rfl, rfl, rfl, rfl, rfl, rfl, rfl, rfl, rfl, rfl, rfl, rfl, rfl, rfl, rfl, rfl, rfl, rfl, rfl, rfl, rfl⟩

theorem OnlyLb.bump {s t : State} (h : OnlyLb s t) {f : Fld} (n : Nat) (hf : f.key ∈ lbKeys) : OnlyLb s (t.bump f n) :=
  ⟨fun k hk => (State.get_bump_ne t n (by rintro rfl; exact hk hf)).trans (h.regs k hk), h.fuse, h.rc, h.path, h.volt, h.time, h.ports, h.hearth, h.ptp, h.stream, h.asrc, h.tdm, h.hall, h.rooms, h.guard, h.cellar, h.dw, h.kdp, h.flash, h.boot, h.hallTest, h.ddrTest, h.host, h.answer, h.free, h.pending⟩

theorem OnlyLb.bumpIf {s t : State} (h : OnlyLb s t) {f : Fld} (b : Bool) (hf : f.key ∈ lbKeys) : OnlyLb s (t.bumpIf b f) := by
  unfold State.bumpIf; split
  · exact h.bump 1 hf
  · exact h

theorem OnlyLb.lb {s t : State} (h : OnlyLb s t) (b : Letterbox) : OnlyLb s { t with lb := b } :=
  ⟨h.regs, h.fuse, h.rc, h.path, h.volt, h.time, h.ports, h.hearth, h.ptp, h.stream, h.asrc, h.tdm, h.hall, h.rooms, h.guard, h.cellar, h.dw, h.kdp, h.flash, h.boot, h.hallTest, h.ddrTest, h.host, h.answer, h.free, h.pending⟩

theorem OnlyLb.swap {s t : State} (h : OnlyLb s t) : OnlyLb s t.lbSwapIfDue := by
  unfold State.lbSwapIfDue
  split
  · exact ((h.bump 1 (by decide)).bumpIf _ (by decide)).lb _
  · exact h

theorem OnlyLb.push {s t : State} (h : OnlyLb s t) (i : LbItem) : OnlyLb s (t.lbPush i) := by
  unfold State.lbPush
  have h1 : OnlyLb s (if lbWords t.lb.fill + i.size ≤ 512 then t else t.lbSwapIfDue) := by split; exacts [h, h.swap]
  generalize (if lbWords t.lb.fill + i.size ≤ 512 then t else t.lbSwapIfDue) = u at h1
  dsimp only
  split
  · exact (((h1.bump 1 (by decide)).bump _ (by decide)).lb _).swap
  · exact (h1.bump 1 (by decide)).lb _

theorem OnlyLb.send {s t : State} (h : OnlyLb s t) (e : LbEvent) : OnlyLb s (t.lbSend e) := by
  unfold State.lbSend
  split
  · exact (h.lb _).bumpIf _ (by decide)
  · exact (h.lb _).push _

theorem OnlyLb.post {s t : State} (h : OnlyLb s t) (code prio : Nat) (words : List Nat) : OnlyLb s (t.post code prio words) := by
  unfold State.post
  split
  · dsimp only
    split
    · exact h.lb _
    · exact h.send _
  · exact h.bump 1 (by decide)

/-- What stands in the assembly registers changes the Letterbox and its counters alone when it is sent (R412, R421). -/
theorem OnlyLb.deliver {s t : State} (h : OnlyLb s t) : OnlyLb s t.lbDeliver := by
  unfold State.lbDeliver
  split
  · exact h
  · rename_i l _
    generalize l.foldl (fun acc e => lbByCode e acc) [] = m
    have : ∀ (m : List LbEvent) (u : State), OnlyLb s u → OnlyLb s (m.foldl State.lbSend u) := by
      intro m
      induction m with
      | nil => exact fun _ hu => hu
      | cons a m ih => exact fun u hu => ih _ (hu.send a)
    exact this m _ (h.lb _)

/-- The end of a moment changes the Letterbox and its counters alone (R421). -/
theorem OnlyLb.scatter {s t : State} (h : OnlyLb s t) (s₀ : State) : OnlyLb s (s₀.scatter t) := by
  unfold State.scatter
  split
  · exact h
  · exact h.deliver.lb _

theorem State.post_only (s : State) (c p : Nat) (w : List Nat) : OnlyLb s (s.post c p w) := (OnlyLb.refl s).post c p w

/-- An event leaves every register but the Letterbox's counters. -/
theorem State.post_get (s : State) (c p : Nat) (w : List Nat) {k : Nat} (h : k ∉ lbKeys) : (s.post c p w).get k = s.get k :=
  (s.post_only c p w).regs k h
theorem State.post_rd (s : State) (c p : Nat) (w : List Nat) {f : Fld} (h : f.key ∉ lbKeys) : (s.post c p w).rd f = s.rd f := by
  unfold State.rd; rw [State.post_get s c p w h]
theorem State.post_on (s : State) (c p : Nat) (w : List Nat) {f : Fld} (h : f.key ∉ lbKeys) : (s.post c p w).on f = s.on f := by
  unfold State.on; rw [State.post_rd s c p w h]

@[simp] theorem State.post_fuse (s : State) (c p : Nat) (w : List Nat) : (s.post c p w).fuse = s.fuse := (s.post_only c p w).fuse
@[simp] theorem State.post_rc (s : State) (c p : Nat) (w : List Nat) : (s.post c p w).rc = s.rc := (s.post_only c p w).rc
@[simp] theorem State.post_path (s : State) (c p : Nat) (w : List Nat) : (s.post c p w).path = s.path := (s.post_only c p w).path
@[simp] theorem State.post_volt (s : State) (c p : Nat) (w : List Nat) : (s.post c p w).volt = s.volt := (s.post_only c p w).volt
@[simp] theorem State.post_time (s : State) (c p : Nat) (w : List Nat) : (s.post c p w).time = s.time := (s.post_only c p w).time
@[simp] theorem State.post_ports (s : State) (c p : Nat) (w : List Nat) : (s.post c p w).ports = s.ports := (s.post_only c p w).ports
@[simp] theorem State.post_hearth (s : State) (c p : Nat) (w : List Nat) : (s.post c p w).hearth = s.hearth := (s.post_only c p w).hearth
@[simp] theorem State.post_ptp (s : State) (c p : Nat) (w : List Nat) : (s.post c p w).ptp = s.ptp := (s.post_only c p w).ptp
@[simp] theorem State.post_stream (s : State) (c p : Nat) (w : List Nat) : (s.post c p w).stream = s.stream := (s.post_only c p w).stream
@[simp] theorem State.post_asrc (s : State) (c p : Nat) (w : List Nat) : (s.post c p w).asrc = s.asrc := (s.post_only c p w).asrc
@[simp] theorem State.post_tdm (s : State) (c p : Nat) (w : List Nat) : (s.post c p w).tdm = s.tdm := (s.post_only c p w).tdm
@[simp] theorem State.post_hall (s : State) (c p : Nat) (w : List Nat) : (s.post c p w).hall = s.hall := (s.post_only c p w).hall
@[simp] theorem State.post_rooms (s : State) (c p : Nat) (w : List Nat) : (s.post c p w).rooms = s.rooms := (s.post_only c p w).rooms
@[simp] theorem State.post_guard (s : State) (c p : Nat) (w : List Nat) : (s.post c p w).guard = s.guard := (s.post_only c p w).guard
@[simp] theorem State.post_cellar (s : State) (c p : Nat) (w : List Nat) : (s.post c p w).cellar = s.cellar := (s.post_only c p w).cellar
@[simp] theorem State.post_dw (s : State) (c p : Nat) (w : List Nat) : (s.post c p w).dw = s.dw := (s.post_only c p w).dw
@[simp] theorem State.post_kdp (s : State) (c p : Nat) (w : List Nat) : (s.post c p w).kdp = s.kdp := (s.post_only c p w).kdp
@[simp] theorem State.post_flash (s : State) (c p : Nat) (w : List Nat) : (s.post c p w).flash = s.flash := (s.post_only c p w).flash
@[simp] theorem State.post_boot (s : State) (c p : Nat) (w : List Nat) : (s.post c p w).boot = s.boot := (s.post_only c p w).boot
@[simp] theorem State.post_hallTest (s : State) (c p : Nat) (w : List Nat) : (s.post c p w).hallTest = s.hallTest := (s.post_only c p w).hallTest
@[simp] theorem State.post_ddrTest (s : State) (c p : Nat) (w : List Nat) : (s.post c p w).ddrTest = s.ddrTest := (s.post_only c p w).ddrTest
@[simp] theorem State.post_host (s : State) (c p : Nat) (w : List Nat) : (s.post c p w).host = s.host := (s.post_only c p w).host
@[simp] theorem State.post_answer (s : State) (c p : Nat) (w : List Nat) : (s.post c p w).answer = s.answer := (s.post_only c p w).answer
@[simp] theorem State.post_free (s : State) (c p : Nat) (w : List Nat) : (s.post c p w).free = s.free := (s.post_only c p w).free
@[simp] theorem State.post_pending (s : State) (c p : Nat) (w : List Nat) : (s.post c p w).pending = s.pending := (s.post_only c p w).pending

/-! A moment (R421): what a state reads as does not depend on one having begun. -/

@[simp] theorem State.gather_fuse (s : State) : s.gather.fuse = s.fuse := rfl
@[simp] theorem State.gather_regs (s : State) : s.gather.regs = s.regs := rfl
@[simp] theorem State.gather_rc (s : State) : s.gather.rc = s.rc := rfl
@[simp] theorem State.gather_path (s : State) : s.gather.path = s.path := rfl
@[simp] theorem State.gather_volt (s : State) : s.gather.volt = s.volt := rfl
@[simp] theorem State.gather_time (s : State) : s.gather.time = s.time := rfl
@[simp] theorem State.gather_ports (s : State) : s.gather.ports = s.ports := rfl
@[simp] theorem State.gather_hearth (s : State) : s.gather.hearth = s.hearth := rfl
@[simp] theorem State.gather_ptp (s : State) : s.gather.ptp = s.ptp := rfl
@[simp] theorem State.gather_stream (s : State) : s.gather.stream = s.stream := rfl
@[simp] theorem State.gather_asrc (s : State) : s.gather.asrc = s.asrc := rfl
@[simp] theorem State.gather_tdm (s : State) : s.gather.tdm = s.tdm := rfl
@[simp] theorem State.gather_hall (s : State) : s.gather.hall = s.hall := rfl
@[simp] theorem State.gather_rooms (s : State) : s.gather.rooms = s.rooms := rfl
@[simp] theorem State.gather_guard (s : State) : s.gather.guard = s.guard := rfl
@[simp] theorem State.gather_cellar (s : State) : s.gather.cellar = s.cellar := rfl
@[simp] theorem State.gather_dw (s : State) : s.gather.dw = s.dw := rfl
@[simp] theorem State.gather_kdp (s : State) : s.gather.kdp = s.kdp := rfl
@[simp] theorem State.gather_flash (s : State) : s.gather.flash = s.flash := rfl
@[simp] theorem State.gather_boot (s : State) : s.gather.boot = s.boot := rfl
@[simp] theorem State.gather_hallTest (s : State) : s.gather.hallTest = s.hallTest := rfl
@[simp] theorem State.gather_ddrTest (s : State) : s.gather.ddrTest = s.ddrTest := rfl
@[simp] theorem State.gather_host (s : State) : s.gather.host = s.host := rfl
@[simp] theorem State.gather_answer (s : State) : s.gather.answer = s.answer := rfl
@[simp] theorem State.gather_free (s : State) : s.gather.free = s.free := rfl
@[simp] theorem State.gather_pending (s : State) : s.gather.pending = s.pending := rfl
@[simp] theorem State.gather_get (s : State) (k : Nat) : s.gather.get k = s.get k := rfl
@[simp] theorem State.gather_rd (s : State) (f : Fld) : s.gather.rd f = s.rd f := rfl
@[simp] theorem State.gather_on (s : State) (f : Fld) : s.gather.on f = s.on f := rfl
@[simp] theorem State.gather_view (s : State) (v : Nat) : s.gather.view v = s.view v := rfl
@[simp] theorem State.gather_room (s : State) (r : Nat) : s.gather.room r = s.room r := rfl
@[simp] theorem State.gather_core (s : State) (c : Nat) : s.gather.core c = s.core c := rfl
@[simp] theorem State.gather_slot (s : State) (k : Nat) : s.gather.slot k = s.slot k := rfl
@[simp] theorem State.gather_guarded (s : State) (r : Nat) : s.gather.guarded r = s.guarded r := rfl
@[simp] theorem State.gather_coreOf (s : State) (r : Nat) : s.gather.coreOf r = s.coreOf r := rfl
@[simp] theorem State.gather_slotOfCore (s : State) (c : Nat) : s.gather.slotOfCore c = s.slotOfCore c := rfl
@[simp] theorem State.gather_roomOfCore (s : State) (c : Nat) : s.gather.roomOfCore c = s.roomOfCore c := rfl
@[simp] theorem State.gather_inStep (s : State) (r : Nat) : s.gather.inStep r = s.inStep r := rfl
@[simp] theorem State.gather_port (s : State) (p : Nat) : s.gather.port p = s.port p := rfl
@[simp] theorem State.gather_sess (s : State) (k : Nat) : s.gather.sess k = s.sess k := rfl
@[simp] theorem State.gather_tile (s : State) (t : Nat) : s.gather.tile t = s.tile t := rfl
@[simp] theorem State.gather_trig (s : State) (a : Nat) : s.gather.trig a = s.trig a := rfl
@[simp] theorem State.gather_rx (s : State) (c : Nat) : s.gather.rx c = s.rx c := rfl
@[simp] theorem State.gather_tx (s : State) (c : Nat) : s.gather.tx c = s.tx c := rfl
@[simp] theorem State.gather_cand (s : State) (c : Nat) : s.gather.cand c = s.cand c := rfl
@[simp] theorem State.gather_supply (s : State) (c : Nat) : s.gather.supply c = s.supply c := rfl
@[simp] theorem State.gather_locked (s : State) : s.gather.locked = s.locked := rfl
@[simp] theorem State.gather_selected (s : State) : s.gather.selected = s.selected := rfl
@[simp] theorem State.gather_hallRuns (s : State) : s.gather.hallRuns = s.hallRuns := rfl
@[simp] theorem State.gather_running (s : State) (d : Nat) : s.gather.running d = s.running d := rfl
@[simp] theorem State.gather_roomState (s : State) (r : Nat) : s.gather.roomState r = s.roomState r := rfl
@[simp] theorem State.gather_tick (s : State) (d : Nat) : s.gather.tick d = s.tick d := rfl
@[simp] theorem State.gather_edgeAt (s : State) (d : Nat) (k : Int) : s.gather.edgeAt d k = s.edgeAt d k := rfl
@[simp] theorem State.gather_nextDue (s : State) (rc : Nat) : s.gather.nextDue rc = s.nextDue rc := rfl
@[simp] theorem State.gather_viewReaches (s : State) (v target rc : Nat) : s.gather.viewReaches v target rc = s.viewReaches v target rc := rfl
@[simp] theorem State.gather_viewReached (s : State) (v target : Nat) : s.gather.viewReached v target = s.viewReached v target := rfl
@[simp] theorem State.gather_lockout (s : State) (ip : Nat) : s.gather.lockout ip = s.lockout ip := rfl
@[simp] theorem State.gather_linkUp (s : State) (p : Nat) : s.gather.linkUp p = s.linkUp p := rfl
@[simp] theorem State.gather_portRuns (s : State) (p : Nat) : s.gather.portRuns p = s.portRuns p := rfl
@[simp] theorem State.gather_frameCfg (s : State) (p : Nat) : s.gather.frameCfg p = s.frameCfg p := rfl

/-- A moment at which nothing happens changes nothing. -/
theorem State.together_id (s : State) : s.together (fun u => u) = s := by
  unfold State.together State.scatter State.gather
  cases h : s.lb.asm with
  | none => simp [State.lbDeliver]; rw [← h]
  | some l => simp; rw [← h]

@[simp] theorem State.scatter_gather (s : State) : s.scatter s.gather = s := s.together_id

end Sys2Proof.Machine
end

