-- ==== Sys2Proof/Laws/Sets.lean ====
section
/-! SUPPORT. What an accepted SET does: it stores its entry, and the entry's own effect follows. -/

namespace Sys2Proof.Machine

/-- A key's descriptor stands in the table. -/
theorem locateIn_mem {d : EntDesc} {a b key : Nat} : {l : List EntDesc} → locateIn l key = some (d, a, b) → d ∈ l
  | [], h => by cases h
  | x :: r, h => by
    unfold locateIn at h
    split at h
    · split at h
      · cases h; exact List.mem_cons_self
      · exact List.mem_cons_of_mem _ (locateIn_mem h)
    · exact List.mem_cons_of_mem _ (locateIn_mem h)

theorem State.entryAt_mem {s : State} {key a b : Nat} {d : EntDesc} (h : s.entryAt key = some (d, a, b)) :
    d ∈ entTable ∧ locate key = some (d, a, b) := by
  unfold State.entryAt at h
  split at h
  · rename_i e
    split at h
    · cases h; exact ⟨locateIn_mem e, e⟩
    · cases h
  · cases h

@[simp] theorem State.takes_fuse (s : State) (key n : Nat) : (s.takes key n).fuse = s.fuse := rfl
@[simp] theorem State.takes_rc (s : State) (key n : Nat) : (s.takes key n).rc = s.rc := rfl
@[simp] theorem State.takes_path (s : State) (key n : Nat) : (s.takes key n).path = s.path := rfl
@[simp] theorem State.takes_volt (s : State) (key n : Nat) : (s.takes key n).volt = s.volt := rfl
@[simp] theorem State.takes_time (s : State) (key n : Nat) : (s.takes key n).time = s.time := rfl
@[simp] theorem State.takes_ports (s : State) (key n : Nat) : (s.takes key n).ports = s.ports := rfl
@[simp] theorem State.takes_hearth (s : State) (key n : Nat) : (s.takes key n).hearth = s.hearth := rfl
@[simp] theorem State.takes_ptp (s : State) (key n : Nat) : (s.takes key n).ptp = s.ptp := rfl
@[simp] theorem State.takes_stream (s : State) (key n : Nat) : (s.takes key n).stream = s.stream := rfl
@[simp] theorem State.takes_asrc (s : State) (key n : Nat) : (s.takes key n).asrc = s.asrc := rfl
@[simp] theorem State.takes_tdm (s : State) (key n : Nat) : (s.takes key n).tdm = s.tdm := rfl
@[simp] theorem State.takes_hall (s : State) (key n : Nat) : (s.takes key n).hall = s.hall := rfl
@[simp] theorem State.takes_rooms (s : State) (key n : Nat) : (s.takes key n).rooms = s.rooms := rfl
@[simp] theorem State.takes_guard (s : State) (key n : Nat) : (s.takes key n).guard = s.guard := rfl
@[simp] theorem State.takes_cellar (s : State) (key n : Nat) : (s.takes key n).cellar = s.cellar := rfl
@[simp] theorem State.takes_dw (s : State) (key n : Nat) : (s.takes key n).dw = s.dw := rfl
@[simp] theorem State.takes_kdp (s : State) (key n : Nat) : (s.takes key n).kdp = s.kdp := rfl
@[simp] theorem State.takes_flash (s : State) (key n : Nat) : (s.takes key n).flash = s.flash := rfl
@[simp] theorem State.takes_boot (s : State) (key n : Nat) : (s.takes key n).boot = s.boot := rfl
@[simp] theorem State.takes_hallTest (s : State) (key n : Nat) : (s.takes key n).hallTest = s.hallTest := rfl
@[simp] theorem State.takes_ddrTest (s : State) (key n : Nat) : (s.takes key n).ddrTest = s.ddrTest := rfl
@[simp] theorem State.takes_lb (s : State) (key n : Nat) : (s.takes key n).lb = s.lb := rfl
@[simp] theorem State.takes_host (s : State) (key n : Nat) : (s.takes key n).host = s.host := rfl
@[simp] theorem State.takes_answer (s : State) (key n : Nat) : (s.takes key n).answer = s.answer := rfl
@[simp] theorem State.takes_free (s : State) (key n : Nat) : (s.takes key n).free = s.free := rfl
@[simp] theorem State.takes_pending (s : State) (key n : Nat) : (s.takes key n).pending = s.pending := rfl

/-- An entry that a SET stores reads as it was sent (R365); no other entry changes. -/
theorem State.takes_get_ne (s : State) {key j : Nat} (n : Nat) (h : j ≠ key) : (s.takes key n).get j = s.get j :=
  State.get_put_ne _ _ h

/-- With no schedule waiting none is applied (R62). -/
theorem State.catchUp_none (s : State) (h : ∀ v < 4, (s.view v).sched = none) : s.catchUp = s := by
  have hd : ∀ rc, s.nextDue rc = none := fun rc => by
    unfold State.nextDue
    simp [List.range, List.range.loop, h]
  have ha : ∀ rc, s.applyDue 8 rc = s := fun rc => by simp only [State.applyDue, hd]
  unfold State.catchUp State.advance State.reach
  rw [ha]
  split
  · rw [Nat.max_self]
  · rfl

/-- An accepted SET of a row: its item takes effect, with one decision on the candidates at the same moment where the entry is one of
theirs, and the answer is OK (R105, R364, R386, R421). -/
theorem State.Accepts.setAs {s : State} {who : Role} {key : Nat} {v : Val} {e : Ent} {a b n : Nat} {mine : Nat → Bool}
    (h : s.Accepts who key v e a b n) (hm : mine n = true) :
    s.setAs e key who v mine = (if decides e then s.together (fun u => (u.applyItem (itemOf key v)).settleRefs)
      else s.applyItem (itemOf key v)).say .ok := by
  obtain ⟨hr, hq, he, hj⟩ := h
  unfold State.named at he
  rw [Option.map_eq_some_iff] at he
  obtain ⟨⟨d, a', b'⟩, he, h2⟩ := he
  simp only [Prod.mk.injEq] at h2
  obtain ⟨h1, rfl, rfl, h3⟩ := h2
  unfold State.setAs
  rw [(State.entryAt_mem he).2]
  have hk : refItem (itemOf key v) = decides e := by
    unfold refItem; rw [show (itemOf key v).key = key from rfl, (State.entryAt_mem he).2]; simp only [h1]
  have h4 : State.setItem s who (itemOf key v) = (.ok, if decides e then
      s.together (fun u => (u.applyItem (itemOf key v)).settleRefs) else s.applyItem (itemOf key v)) := by
    unfold State.setItem State.change; rw [hj, hk]
  have h5 : d.valueIn { key := key, ty := tyCode v.ty, raw := v.raw } = n := h3
  simp only [hr, h1, h5, hm, hq, Bool.and_true, decide_true, if_true, Bool.not_true, Bool.false_eq_true, if_false]
  unfold itemOf at h4
  rw [h4]
  rfl

/-- An accepted item, in a state of the same part: the entry takes what was sent where it keeps its value, then its own effect follows
(R364, R365). -/
theorem State.Accepts.applyItem {s u : State} {who : Role} {key : Nat} {v : Val} {e : Ent} {a b n : Nat}
    (h : s.Accepts who key v e a b n) (hu : u.fuse = s.fuse) :
    u.applyItem (itemOf key v) = (if keeps e then u.takes key n else u).entApply e a b (u.get key) n v.raw := by
  obtain ⟨hr, hq, he, hj⟩ := h
  unfold State.named at he
  rw [Option.map_eq_some_iff] at he
  obtain ⟨⟨d, a', b'⟩, he, h2⟩ := he
  simp only [Prod.mk.injEq] at h2
  obtain ⟨rfl, rfl, rfl, rfl⟩ := h2
  have he' : u.entryAt (itemOf key v).key = some (d, a', b') := by unfold State.entryAt at he ⊢; rw [hu]; exact he
  unfold State.applyItem State.takes fieldsAt
  rw [he']
  have hk := (State.entryAt_mem he).2
  simp only [hk]
  rfl

end Sys2Proof.Machine
end

