-- ==== Sys2Proof/Laws/Sound.lean ====
section
/-! SUPPORT. What every command keeps: the production data, the queue, RC not running back, and the sound state of Safety. Here
the predicate, and the operations of Ops. -/

namespace Sys2Proof.Machine

/-- `t` has production data `f` and queue `q`, its RC is at least `r`, and it is sound. -/
structure Sound (f : Fuses) (q : List Instr) (r : Nat) (t : State) : Prop where
  fuse : t.fuse = f
  pending : t.pending = q
  rc : r ≤ t.rc
  regs : Sparse.wf (resetOf f) t.regs = true
  lb : t.lb.ok = true

variable {f : Fuses} {q : List Instr} {r : Nat} {s : State}

/-- A sound state is so with its own data. -/
theorem Sound.of_inv (h : s.inv = true) : Sound s.fuse s.pending s.rc s := by
  simp only [State.inv, Bool.and_eq_true] at h
  exact ⟨rfl, rfl, Nat.le_refl _, h.1, h.2⟩

theorem Sound.inv (h : Sound f q r s) : s.inv = true := by
  simp only [State.inv, Bool.and_eq_true]
  exact ⟨by rw [h.fuse]; exact h.regs, h.lb⟩

/-- Any other field may change. -/
theorem Sound.keep (h : Sound f q r s) {path volt time ports hearth ptp stream asrc tdm hall rooms guard cellar dw kdp flash boot
    hallTest ddrTest host answer free} :
    Sound f q r ⟨s.fuse, s.regs, s.rc, path, volt, time, ports, hearth, ptp, stream, asrc, tdm, hall, rooms, guard, cellar, dw,
      kdp, flash, boot, hallTest, ddrTest, s.lb, host, answer, free, s.pending⟩ :=
  ⟨h.fuse, h.pending, h.rc, h.regs, h.lb⟩

theorem Sound.put (h : Sound f q r s) {k v : Nat} : Sound f q r (s.put k v) :=
  ⟨h.fuse, h.pending, h.rc, by
    show Sparse.wf (resetOf f) (Sparse.put (resetOf s.fuse) s.regs k v) = true
    rw [h.fuse]; exact Sparse.wf_put _ _ _ _ h.regs, h.lb⟩

theorem Sound.wr (h : Sound f q r s) {g : Fld} {v : Nat} : Sound f q r (s.wr g v) := h.put
theorem Sound.bump (h : Sound f q r s) {g : Fld} {v : Nat} : Sound f q r (s.bump g v) := h.put
theorem Sound.flag (h : Sound f q r s) {g : Fld} {b : Bool} : Sound f q r (s.flag g b) := h.put
theorem Sound.bumpIf (h : Sound f q r s) {g : Fld} {b : Bool} : Sound f q r (s.bumpIf b g) := by
  unfold State.bumpIf; split
  · exact h.bump
  · exact h
theorem Sound.draw (h : Sound f q r s) : Sound f q r s.draw.2 := h.keep
theorem Sound.say (h : Sound f q r s) {st : Status} : Sound f q r (s.say st) := h.keep
theorem Sound.reach (h : Sound f q r s) {rc : Nat} : Sound f q r (s.reach rc) := by
  unfold State.reach; split
  · exact ⟨h.fuse, h.pending, le_trans h.rc (le_max_left _ _), h.regs, h.lb⟩
  · exact h

theorem Sound.each {α : Type} {l : List α} {g : State → α → State} (h : Sound f q r s)
    (hg : ∀ t a, Sound f q r t → Sound f q r (g t a)) : Sound f q r (s.each l g) := by
  unfold State.each
  induction l generalizing s with
  | nil => exact h
  | cons a l ih => exact ih (hg s a h)

theorem Sound.foldl {α : Type} {l : List α} {g : State → α → State} (h : Sound f q r s)
    (hg : ∀ t a, Sound f q r t → Sound f q r (g t a)) : Sound f q r (l.foldl g s) := Sound.each (l := l) h hg

theorem Sound.foldFst {α β : Type} {l : List α} {g : State × β → α → State × β} {x : State × β} (h : Sound f q r x.1)
    (hg : ∀ x a, Sound f q r x.1 → Sound f q r (g x a).1) : Sound f q r (l.foldl g x).1 := by
  induction l generalizing x with
  | nil => exact h
  | cons a l ih => exact ih (hg x a h)

theorem Sound.foldSnd {α β : Type} {l : List α} {g : β × State → α → β × State} {x : β × State} (h : Sound f q r x.2)
    (hg : ∀ x a, Sound f q r x.2 → Sound f q r (g x a).2) : Sound f q r (l.foldl g x).2 := by
  induction l generalizing x with
  | nil => exact h
  | cons a l ih => exact ih (hg x a h)

theorem Sound.units {n : Nat} {g : State → Nat → State} (h : Sound f q r s)
    (hg : ∀ t a, Sound f q r t → Sound f q r (g t a)) : Sound f q r (s.units n g) := h.each hg

theorem Sound.ite {c : Prop} [Decidable c] {a b : State} (ha : Sound f q r a) (hb : Sound f q r b) :
    Sound f q r (if c then a else b) := by split <;> assumption

/-! The Letterbox. -/

/-- What `Letterbox.ok` says, as a proposition. -/
theorem Letterbox.ok_iff (b : Letterbox) : b.ok = true ↔
    lbWords b.drain ≤ 512 ∧ lbWords b.fill ≤ 512 ∧ b.drain.Pairwise (fun x y => y.prio ≤ x.prio)
      ∧ b.cursor ≤ b.drain.length ∧ (∀ m, b.mark = some m → m ≤ b.cursor) ∧ (b.drain = [] → b.fill = []) := by
  unfold Letterbox.ok
  cases hm : b.mark <;> cases b.drain <;> cases b.fill <;> simp [and_assoc]

theorem lbWords_cons (i : LbItem) (l : List LbItem) : lbWords (i :: l) = i.size + lbWords l := by simp [lbWords]
theorem lbWords_append (l m : List LbItem) : lbWords (l ++ m) = lbWords l + lbWords m := by simp [lbWords]

theorem mem_lbInsert (i x : LbItem) : (l : List LbItem) → (x ∈ lbInsert i l ↔ x = i ∨ x ∈ l)
  | [] => by simp [lbInsert]
  | a :: r => by
    unfold lbInsert; split
    · simp only [List.mem_cons, mem_lbInsert i x r]; tauto
    · simp only [List.mem_cons]

theorem lbWords_lbInsert (i : LbItem) : (l : List LbItem) → lbWords (lbInsert i l) = i.size + lbWords l
  | [] => rfl
  | a :: r => by
    unfold lbInsert; split
    · rw [lbWords_cons, lbWords_lbInsert i r, lbWords_cons]; omega
    · simp [lbWords_cons]

theorem length_lbInsert (i : LbItem) : (l : List LbItem) → (lbInsert i l).length = l.length + 1
  | [] => rfl
  | a :: r => by unfold lbInsert; split <;> simp [length_lbInsert i r]

/-- An item is inserted in the read order of R413. -/
theorem lbInsert_pairwise (i : LbItem) : (l : List LbItem) → l.Pairwise (fun x y => y.prio ≤ x.prio) →
    (lbInsert i l).Pairwise (fun x y => y.prio ≤ x.prio)
  | [], _ => by simp [lbInsert]
  | a :: r, h => by
    rw [List.pairwise_cons] at h
    unfold lbInsert; split
    · rw [List.pairwise_cons]
      refine ⟨fun x hx => ?_, lbInsert_pairwise i r h.2⟩
      rcases (mem_lbInsert i x r).mp hx with rfl | hx
      · assumption
      · exact h.1 x hx
    · rw [List.pairwise_cons]
      refine ⟨fun x hx => ?_, List.pairwise_cons.mpr h⟩
      rcases List.mem_cons.mp hx with rfl | hx
      · omega
      · have := h.1 x hx; omega

theorem lbOrder_aux (l acc : List LbItem) (h : acc.Pairwise (fun x y => y.prio ≤ x.prio)) :
    (l.foldl (fun acc i => lbInsert i acc) acc).Pairwise (fun x y => y.prio ≤ x.prio)
      ∧ lbWords (l.foldl (fun acc i => lbInsert i acc) acc) = lbWords l + lbWords acc
      ∧ (l.foldl (fun acc i => lbInsert i acc) acc).length = l.length + acc.length := by
  induction l generalizing acc with
  | nil => simp [h, lbWords]
  | cons a l ih =>
    have := ih (lbInsert a acc) (lbInsert_pairwise a acc h)
    rw [lbWords_lbInsert, length_lbInsert] at this
    simp only [List.foldl_cons, lbWords_cons, List.length_cons]
    exact ⟨this.1, by omega, by omega⟩

/-- A swap puts the bank in its read order and keeps its words (R413). -/
theorem lbOrder_spec (l : List LbItem) : (lbOrder l).Pairwise (fun x y => y.prio ≤ x.prio) ∧ lbWords (lbOrder l) = lbWords l
    ∧ (lbOrder l).length = l.length := by
  have := lbOrder_aux l [] List.Pairwise.nil
  unfold lbOrder
  simpa [lbWords] using this

/-- A state whose Letterbox changes to one that stands as its rules have it. -/
theorem Sound.setLb (h : Sound f q r s) {b : Letterbox} (hb : b.ok = true) : Sound f q r { s with lb := b } :=
  ⟨h.fuse, h.pending, h.rc, h.regs, hb⟩

/-- All of `Letterbox.ok` but the swap. -/
def Letterbox.almost (b : Letterbox) : Prop :=
  lbWords b.drain ≤ 512 ∧ lbWords b.fill ≤ 512 ∧ b.drain.Pairwise (fun x y => y.prio ≤ x.prio)
    ∧ b.cursor ≤ b.drain.length ∧ (∀ m, b.mark = some m → m ≤ b.cursor)

/-- Everything of `Sound` but the Letterbox. -/
structure Base (f : Fuses) (q : List Instr) (r : Nat) (t : State) : Prop where
  fuse : t.fuse = f
  pending : t.pending = q
  rc : r ≤ t.rc
  regs : Sparse.wf (resetOf f) t.regs = true

theorem Sound.base (h : Sound f q r s) : Base f q r s := ⟨h.fuse, h.pending, h.rc, h.regs⟩

theorem Base.bump (h : Base f q r s) {g : Fld} {v : Nat} : Base f q r (s.bump g v) :=
  ⟨h.fuse, h.pending, h.rc, by
    show Sparse.wf (resetOf f) (Sparse.put (resetOf s.fuse) s.regs _ _) = true
    rw [h.fuse]; exact Sparse.wf_put _ _ _ _ h.regs⟩

theorem Base.bumpIf (h : Base f q r s) {g : Fld} {b : Bool} : Base f q r (s.bumpIf b g) := by
  unfold State.bumpIf; split
  · exact h.bump
  · exact h

@[simp] theorem State.bumpIf_lb (s : State) (b : Bool) (g : Fld) : (s.bumpIf b g).lb = s.lb := by cases b <;> rfl

theorem Base.withLb (h : Base f q r s) (hb : s.lb.swap.ok = true) : Sound f q r { s with lb := s.lb.swap } :=
  ⟨h.fuse, h.pending, h.rc, h.regs, hb⟩

/-- The swap where it is due makes the Letterbox stand as its rules have it. -/
theorem Sound.lbSwapIfDue (h : Base f q r s) (h5 : s.lb.almost) : Sound f q r s.lbSwapIfDue := by
  obtain ⟨ha, hb, hc, hd, he⟩ := h5
  unfold State.lbSwapIfDue
  split
  · rename_i hc
    simp only [Bool.and_eq_true, Bool.not_eq_eq_eq_not, Bool.not_true, List.isEmpty_iff, List.isEmpty_eq_false_iff] at hc
    have ho := lbOrder_spec s.lb.fill
    have hl : (s.lb.swap).ok = true := by
      rw [Letterbox.ok_iff]
      unfold Letterbox.swap
      refine ⟨by simpa [ho.2.1] using hb, ?_, ho.1, Nat.zero_le _, by simp, ?_⟩
      · dsimp only; split <;> simp [lbWords, lbOverflow, LbItem.size]
      · dsimp only; intro h0
        have := ho.2.2; rw [h0] at this
        exact absurd (List.length_eq_zero_iff.mp this.symm) hc.2
    exact Base.withLb (h.bump.bumpIf) (by rw [State.bumpIf_lb]; exact hl)
  · rename_i hn
    refine ⟨h.fuse, h.pending, h.rc, h.regs, ?_⟩
    rw [Letterbox.ok_iff]
    refine ⟨ha, hb, hc, hd, he, fun h0 => ?_⟩
    by_contra hf
    exact hn (by cases hq : s.lb.fill <;> simp_all)

theorem lbMakeRoom_spec : (n need prio : Nat) → (l gone : List LbItem) → (x : List LbItem × List LbItem) →
    lbMakeRoom n need prio l gone = some x → lbWords x.1 + need ≤ 512
  | 0, need, _, l, gone, x, h => by
    unfold lbMakeRoom at h
    split at h
    · cases h; assumption
    · cases h
  | n + 1, need, prio, l, gone, x, h => by
    unfold lbMakeRoom at h
    split at h
    · cases h; assumption
    · split at h
      · split at h
        · exact lbMakeRoom_spec n need prio _ _ x h
        · cases h
      · cases h

theorem Letterbox.ok.almost {b : Letterbox} (h : b.ok = true) : b.almost := by
  obtain ⟨h1, h2, h3, h4, h5, _⟩ := (Letterbox.ok_iff b).mp h
  exact ⟨h1, h2, h3, h4, h5⟩

theorem Sound.lbPush (h : Sound f q r s) {i : LbItem} : Sound f q r (s.lbPush i) := by
  unfold State.lbPush
  have h1 : Sound f q r (if lbWords s.lb.fill + i.size ≤ 512 then s else s.lbSwapIfDue) := by
    split
    · exact h
    · exact Sound.lbSwapIfDue h.base (Letterbox.ok.almost h.lb)
  generalize (if lbWords s.lb.fill + i.size ≤ 512 then s else s.lbSwapIfDue) = t at h1
  dsimp only
  split
  · rename_i l gone hm
    have hw := lbMakeRoom_spec _ _ _ _ _ _ hm
    have h2 : Sound f q r ((t.bump Reg.hpLbPosted 1).bump Reg.hpLbDisplaced gone.length) := (h1.bump).bump
    obtain ⟨a1, a2, a3, a4, a5⟩ := Letterbox.ok.almost h2.lb
    refine Sound.lbSwapIfDue ⟨h2.fuse, h2.pending, h2.rc, h2.regs⟩ ⟨a1, ?_, a3, a4, a5⟩
    show lbWords (l ++ [i]) ≤ 512
    rw [lbWords_append]
    simpa [lbWords] using hw
  · have h2 : Sound f q r (t.bump Reg.hpLbDropped 1) := h1.bump
    exact h2.setLb (by simpa [Letterbox.ok] using h2.lb)

theorem Sound.lbSend (h : Sound f q r s) {e : LbEvent} : Sound f q r (s.lbSend e) := by
  unfold State.lbSend
  split
  · exact Sound.bumpIf (h.setLb (by simpa [Letterbox.ok] using h.lb))
  · exact Sound.lbPush (h.setLb (by simpa [Letterbox.ok] using h.lb))

/-- The assembly registers may hold anything. -/
theorem Sound.setAsm (h : Sound f q r s) {l : Option (List LbEvent)} : Sound f q r { s with lb := { s.lb with asm := l } } :=
  h.setLb (by simpa [Letterbox.ok] using h.lb)

theorem Sound.post (h : Sound f q r s) {code prio : Nat} {words : List Nat} : Sound f q r (s.post code prio words) := by
  unfold State.post
  split
  · dsimp only
    split
    · exact h.setAsm
    · exact h.lbSend
  · exact h.bump

theorem Sound.lbDeliver (h : Sound f q r s) : Sound f q r s.lbDeliver := by
  unfold State.lbDeliver
  split
  · exact h
  · exact Sound.foldl h.setAsm (fun _ _ ht => ht.lbSend)

theorem Sound.gather (h : Sound f q r s) : Sound f q r s.gather := h.setAsm

theorem Sound.scatter {s₀ : State} (h : Sound f q r s) : Sound f q r (s₀.scatter s) := by
  unfold State.scatter
  split
  · exact h
  · exact h.lbDeliver.setAsm

/-- What happens at one moment is sound where each part is. -/
theorem Sound.together {g : State → State} (h : Sound f q r s) (hg : ∀ t, Sound f q r t → Sound f q r (g t)) :
    Sound f q r (s.together g) := (hg _ h.gather).scatter

theorem Sound.apart {g : State → State} (h : Sound f q r s) (hg : ∀ t, Sound f q r t → Sound f q r (g t)) :
    Sound f q r (s.apart g) := by
  unfold State.apart
  split
  · exact h.together hg
  · exact (hg _ h.lbDeliver).lbDeliver

end Sys2Proof.Machine
end

