-- ==== Sys2Proof/Laws/SoundPorts.lean ====
section
/-! SUPPORT. What every command keeps: the functions of Machine/Ports.lean. -/

namespace Sys2Proof.Machine

set_option linter.unusedTactic false
set_option linter.unreachableTactic false

variable {φ : Fuses} {κ : List Instr} {ρ : Nat} {s : State}

theorem Sound.setPort (h : Sound φ κ ρ s) {p : Nat} {x : Port} : Sound φ κ ρ (Sys2Proof.Machine.State.setPort s p x) := by
  unfold Sys2Proof.Machine.State.setPort
  repeat' first
    | with_reducible assumption
    | with_reducible apply Sound.put
    | fail_if_no_progress with_reducible apply Sound.keep
    | (intro _ _ _)
    | (intro _ _)
    | split
    | dsimp only

theorem Sound.applyFrameCfg (h : Sound φ κ ρ s) {p : Nat} {old : Nat} : Sound φ κ ρ (Sys2Proof.Machine.applyFrameCfg s p old) := by
  unfold Sys2Proof.Machine.applyFrameCfg
  repeat' first
    | with_reducible assumption
    | with_reducible apply Sound.setPort
    | fail_if_no_progress with_reducible apply Sound.keep
    | (intro _ _ _)
    | (intro _ _)
    | split
    | dsimp only

theorem Sound.setQueue (h : Sound φ κ ρ s) {p : Nat} {q : Nat} {l : List Send} : Sound φ κ ρ (Sys2Proof.Machine.State.setQueue s p q l) := by
  unfold Sys2Proof.Machine.State.setQueue
  repeat' first
    | with_reducible assumption
    | with_reducible apply Sound.put
    | with_reducible apply Sound.setPort
    | fail_if_no_progress with_reducible apply Sound.keep
    | (intro _ _ _)
    | (intro _ _)
    | split
    | dsimp only

theorem Sound.setPause (h : Sound φ κ ρ s) {p : Nat} {c : Nat} {x : Pause} : Sound φ κ ρ (Sys2Proof.Machine.State.setPause s p c x) := by
  unfold Sys2Proof.Machine.State.setPause
  repeat' first
    | with_reducible assumption
    | with_reducible apply Sound.put
    | with_reducible apply Sound.setPort
    | fail_if_no_progress with_reducible apply Sound.keep
    | (intro _ _ _)
    | (intro _ _)
    | split
    | dsimp only

theorem Sound.pauseSettle (h : Sound φ κ ρ s) {p : Nat} : Sound φ κ ρ (Sys2Proof.Machine.State.pauseSettle s p) := by
  unfold Sys2Proof.Machine.State.pauseSettle
  repeat' first
    | with_reducible assumption
    | with_reducible apply Sound.bump
    | with_reducible apply Sound.setPort
    | fail_if_no_progress with_reducible apply Sound.keep
    | (intro _ _ _)
    | (intro _ _)
    | split
    | dsimp only

theorem Sound.pauseStatus (h : Sound φ κ ρ s) {p : Nat} : Sound φ κ ρ (Sys2Proof.Machine.State.pauseStatus s p) := by
  unfold Sys2Proof.Machine.State.pauseStatus
  repeat' first
    | with_reducible assumption
    | with_reducible apply Sound.flag
    | with_reducible apply Sound.setPort
    | with_reducible apply Sound.pauseSettle
    | with_reducible apply Sound.ite
    | fail_if_no_progress with_reducible apply Sound.keep
    | (intro _ _ _)
    | (intro _ _)
    | split
    | dsimp only

theorem Sound.dropStale (h : Sound φ κ ρ s) {p : Nat} : Sound φ κ ρ (Sys2Proof.Machine.State.dropStale s p) := by
  unfold Sys2Proof.Machine.State.dropStale
  repeat' first
    | with_reducible assumption
    | with_reducible apply Sound.bump
    | with_reducible apply Sound.each
    | with_reducible apply Sound.setQueue
    | with_reducible apply Sound.ite
    | fail_if_no_progress with_reducible apply Sound.keep
    | (intro _ _ _)
    | (intro _ _)
    | split
    | dsimp only

theorem Sound.txStart (h : Sound φ κ ρ s) {p : Nat} : Sound φ κ ρ (Sys2Proof.Machine.State.txStart s p) := by
  unfold Sys2Proof.Machine.State.txStart
  repeat' first
    | with_reducible assumption
    | with_reducible apply Sound.setPort
    | with_reducible apply Sound.setQueue
    | with_reducible apply Sound.dropStale
    | with_reducible apply Sound.ite
    | fail_if_no_progress with_reducible apply Sound.keep
    | (intro _ _ _)
    | (intro _ _)
    | split
    | dsimp only

theorem Sound.enqueue (h : Sound φ κ ρ s) {p : Nat} {q : Nat} {frames : List TxFrame} {space : Nat} : Sound φ κ ρ (Sys2Proof.Machine.State.enqueue s p q frames space) := by
  unfold Sys2Proof.Machine.State.enqueue
  repeat' first
    | with_reducible assumption
    | with_reducible apply Sound.setQueue
    | with_reducible apply Sound.txStart
    | fail_if_no_progress with_reducible apply Sound.keep
    | (intro _ _ _)
    | (intro _ _)
    | split
    | dsimp only

theorem Sound.sendOwn (h : Sound φ κ ρ s) {p : Nat} {bytes : List Byte} {lost : Option Fld} : Sound φ κ ρ (Sys2Proof.Machine.State.sendOwn s p bytes lost) := by
  unfold Sys2Proof.Machine.State.sendOwn
  repeat' first
    | with_reducible assumption
    | with_reducible apply Sound.bump
    | with_reducible apply Sound.enqueue
    | with_reducible apply Sound.ite
    | fail_if_no_progress with_reducible apply Sound.keep
    | (intro _ _ _)
    | (intro _ _)
    | split
    | dsimp only

theorem Sound.dropQueues (h : Sound φ κ ρ s) {p : Nat} : Sound φ κ ρ (Sys2Proof.Machine.State.dropQueues s p) := by
  unfold Sys2Proof.Machine.State.dropQueues
  repeat' first
    | with_reducible assumption
    | with_reducible apply Sound.bump
    | with_reducible apply Sound.setPort
    | fail_if_no_progress with_reducible apply Sound.keep
    | (intro _ _ _)
    | (intro _ _)
    | split
    | dsimp only

theorem Sound.setLink (h : Sound φ κ ρ s) {p : Nat} {up : Bool} {speed : Nat} {full : Bool} : Sound φ κ ρ (Sys2Proof.Machine.State.setLink s p up speed full) := by
  unfold Sys2Proof.Machine.State.setLink
  repeat' first
    | with_reducible assumption
    | with_reducible apply Sound.wr
    | with_reducible apply Sound.bump
    | with_reducible apply Sound.flag
    | with_reducible apply Sound.post
    | with_reducible apply Sound.dropQueues
    | with_reducible apply Sound.ite
    | fail_if_no_progress with_reducible apply Sound.keep
    | (intro _ _ _)
    | (intro _ _)
    | split
    | dsimp only

theorem Sound.udpFrame (h : Sound φ κ ρ s) {p : Nat} {mac : Nat} {ip : Nat} {sport : Nat} {dport : Nat} {sum : Bool} {data : List Byte} : Sound φ κ ρ (Sys2Proof.Machine.State.udpFrame s p mac ip sport dport sum data).2 := by
  unfold Sys2Proof.Machine.State.udpFrame
  repeat' first
    | with_reducible assumption
    | with_reducible apply Sound.draw
    | with_reducible apply Sound.ite
    | fail_if_no_progress with_reducible apply Sound.keep
    | (intro _ _ _)
    | (intro _ _)
    | split
    | dsimp only

theorem Sound.txqSend (h : Sound φ κ ρ s) {p : Nat} {q : Nat} {raw : List Byte} : Sound φ κ ρ (Sys2Proof.Machine.State.txqSend s p q raw) := by
  unfold Sys2Proof.Machine.State.txqSend
  repeat' first
    | with_reducible assumption
    | with_reducible apply Sound.enqueue
    | with_reducible apply Sound.ite
    | fail_if_no_progress with_reducible apply Sound.keep
    | (intro _ _ _)
    | (intro _ _)
    | split
    | dsimp only

theorem Sound.toRing (h : Sound φ κ ρ s) {p : Nat} {l : List Byte} : Sound φ κ ρ (Sys2Proof.Machine.State.toRing s p l) := by
  unfold Sys2Proof.Machine.State.toRing
  repeat' first
    | with_reducible assumption
    | with_reducible apply Sound.bump
    | with_reducible apply Sound.post
    | with_reducible apply Sound.setPort
    | with_reducible apply Sound.ite
    | fail_if_no_progress with_reducible apply Sound.keep
    | (intro _ _ _)
    | (intro _ _)
    | split
    | dsimp only

theorem Sound.execRingDropWindowEnd (h : Sound φ κ ρ s) {p : Nat} : ∃ τ, Sys2Proof.Machine.execRingDropWindowEnd p s = .next τ ∧ Sound φ κ ρ τ := by
  refine ⟨_, rfl, ?_⟩
  repeat' first
    | with_reducible assumption
    | with_reducible apply Sound.post
    | with_reducible apply Sound.setPort
    | with_reducible apply Sound.ite
    | fail_if_no_progress with_reducible apply Sound.keep
    | (intro _ _ _)
    | (intro _ _)
    | split
    | dsimp only

theorem Sound.applyRxrRelease (h : Sound φ κ ρ s) {p : Nat} : Sound φ κ ρ (Sys2Proof.Machine.applyRxrRelease s p) := by
  unfold Sys2Proof.Machine.applyRxrRelease
  repeat' first
    | with_reducible assumption
    | with_reducible apply Sound.setPort
    | fail_if_no_progress with_reducible apply Sound.keep
    | (intro _ _ _)
    | (intro _ _)
    | split
    | dsimp only

theorem Sound.macControl (h : Sound φ κ ρ s) {p : Nat} {l : List Byte} : Sound φ κ ρ (Sys2Proof.Machine.State.macControl s p l) := by
  unfold Sys2Proof.Machine.State.macControl
  repeat' first
    | with_reducible assumption
    | with_reducible apply Sound.bump
    | with_reducible apply Sound.units
    | with_reducible apply Sound.setPause
    | with_reducible apply Sound.pauseStatus
    | with_reducible apply Sound.txStart
    | with_reducible apply Sound.ite
    | fail_if_no_progress with_reducible apply Sound.keep
    | (intro _ _ _)
    | (intro _ _)
    | split
    | dsimp only

theorem Sound.applyTxqPfcClass (h : Sound φ κ ρ s) {p : Nat} : Sound φ κ ρ (Sys2Proof.Machine.applyTxqPfcClass s p) := by
  unfold Sys2Proof.Machine.applyTxqPfcClass
  repeat' first
    | with_reducible assumption
    | with_reducible apply Sound.pauseStatus
    | with_reducible apply Sound.txStart
    | fail_if_no_progress with_reducible apply Sound.keep
    | (intro _ _ _)
    | (intro _ _)
    | split
    | dsimp only

theorem Sound.execPauseExpiry (h : Sound φ κ ρ s) {p : Nat} {c : Nat} : ∃ τ, Sys2Proof.Machine.execPauseExpiry p c s = .next τ ∧ Sound φ κ ρ τ := by
  refine ⟨_, rfl, ?_⟩
  repeat' first
    | with_reducible assumption
    | with_reducible apply Sound.setPause
    | with_reducible apply Sound.pauseStatus
    | with_reducible apply Sound.txStart
    | fail_if_no_progress with_reducible apply Sound.keep
    | (intro _ _ _)
    | (intro _ _)
    | split
    | dsimp only

theorem Sound.execPauseWdTrip (h : Sound φ κ ρ s) {p : Nat} {c : Nat} : ∃ τ, Sys2Proof.Machine.execPauseWdTrip p c s = .next τ ∧ Sound φ κ ρ τ := by
  refine ⟨_, rfl, ?_⟩
  repeat' first
    | with_reducible assumption
    | with_reducible apply Sound.bump
    | with_reducible apply Sound.post
    | with_reducible apply Sound.setPause
    | with_reducible apply Sound.pauseStatus
    | with_reducible apply Sound.txStart
    | with_reducible apply Sound.ite
    | fail_if_no_progress with_reducible apply Sound.keep
    | (intro _ _ _)
    | (intro _ _)
    | split
    | dsimp only

theorem Sound.execPauseWdHoldEnd (h : Sound φ κ ρ s) {p : Nat} {c : Nat} : ∃ τ, Sys2Proof.Machine.execPauseWdHoldEnd p c s = .next τ ∧ Sound φ κ ρ τ := by
  refine ⟨_, rfl, ?_⟩
  repeat' first
    | with_reducible assumption
    | with_reducible apply Sound.setPause
    | with_reducible apply Sound.pauseStatus
    | fail_if_no_progress with_reducible apply Sound.keep
    | (intro _ _ _)
    | (intro _ _)
    | split
    | dsimp only

theorem Sound.execHdCollision (h : Sound φ κ ρ s) {bits : Nat} : ∃ τ, Sys2Proof.Machine.execHdCollision bits s = .next τ ∧ Sound φ κ ρ τ := by
  refine ⟨_, rfl, ?_⟩
  repeat' first
    | with_reducible assumption
    | with_reducible apply Sound.bump
    | with_reducible apply Sound.draw
    | with_reducible apply Sound.setPort
    | with_reducible apply Sound.txStart
    | with_reducible apply Sound.ite
    | fail_if_no_progress with_reducible apply Sound.keep
    | (intro _ _ _)
    | (intro _ _)
    | split
    | dsimp only

theorem Sound.execHdBackoffEnd (h : Sound φ κ ρ s) : ∃ τ, Sys2Proof.Machine.execHdBackoffEnd s = .next τ ∧ Sound φ κ ρ τ := by
  refine ⟨_, rfl, ?_⟩
  repeat' first
    | with_reducible assumption
    | with_reducible apply Sound.setPort
    | with_reducible apply Sound.ite
    | fail_if_no_progress with_reducible apply Sound.keep
    | (intro _ _ _)
    | (intro _ _)
    | split
    | dsimp only

theorem Sound.execHdCarrierIdle (h : Sound φ κ ρ s) {deferred : Bool} : ∃ τ, Sys2Proof.Machine.execHdCarrierIdle deferred s = .next τ ∧ Sound φ κ ρ τ := by
  refine ⟨_, rfl, ?_⟩
  repeat' first
    | with_reducible assumption
    | with_reducible apply Sound.bumpIf
    | with_reducible apply Sound.setPort
    | with_reducible apply Sound.ite
    | fail_if_no_progress with_reducible apply Sound.keep
    | (intro _ _ _)
    | (intro _ _)
    | split
    | dsimp only

theorem Sound.esmc (h : Sound φ κ ρ s) {p : Nat} {l : List Byte} : Sound φ κ ρ (Sys2Proof.Machine.State.esmc s p l) := by
  unfold Sys2Proof.Machine.State.esmc
  repeat' first
    | with_reducible assumption
    | with_reducible apply Sound.wr
    | with_reducible apply Sound.bump
    | with_reducible apply Sound.flag
    | with_reducible apply Sound.setPort
    | with_reducible apply Sound.ite
    | fail_if_no_progress with_reducible apply Sound.keep
    | (intro _ _ _)
    | (intro _ _)
    | split
    | dsimp only

end Sys2Proof.Machine
end

