-- ==== Sys2Proof/Laws/SoundTime.lean ====
section
/-! SUPPORT. What every command keeps: the functions of Machine/Time.lean. -/

namespace Sys2Proof.Machine

set_option linter.unusedTactic false
set_option linter.unreachableTactic false

variable {φ : Fuses} {κ : List Instr} {ρ : Nat} {s : State}

theorem Sound.setView (h : Sound φ κ ρ s) {v : Nat} {w : View} : Sound φ κ ρ (Sys2Proof.Machine.State.setView s v w) := by
  unfold Sys2Proof.Machine.State.setView
  repeat' first
    | with_reducible assumption
    | with_reducible apply Sound.put
    | fail_if_no_progress with_reducible apply Sound.keep
    | (intro _ _ _)
    | (intro _ _)
    | split
    | dsimp only

theorem Sound.setTrig (h : Sound φ κ ρ s) {tt : Nat} {t : Trig} : Sound φ κ ρ (Sys2Proof.Machine.State.setTrig s tt t) := by
  unfold Sys2Proof.Machine.State.setTrig
  repeat' first
    | with_reducible assumption
    | with_reducible apply Sound.put
    | fail_if_no_progress with_reducible apply Sound.keep
    | (intro _ _ _)
    | (intro _ _)
    | split
    | dsimp only

theorem Sound.reconvert (h : Sound φ κ ρ s) {v : Nat} {a : Nat} : Sound φ κ ρ (Sys2Proof.Machine.State.reconvert s v a) := by
  unfold Sys2Proof.Machine.State.reconvert
  repeat' first
    | with_reducible assumption
    | with_reducible apply Sound.units
    | with_reducible apply Sound.setTrig
    | with_reducible apply Sound.ite
    | fail_if_no_progress with_reducible apply Sound.keep
    | (intro _ _ _)
    | (intro _ _)
    | split
    | dsimp only

theorem Sound.schedule (h : Sound φ κ ρ s) {v : Nat} {at_ : Option Nat} {rate : Option Nat} {step : Option Nat} {owner : Bool} : Sound φ κ ρ (Sys2Proof.Machine.State.schedule s v at_ rate step owner) := by
  unfold Sys2Proof.Machine.State.schedule
  repeat' first
    | with_reducible assumption
    | with_reducible apply Sound.wr
    | with_reducible apply Sound.setView
    | with_reducible apply Sound.ite
    | fail_if_no_progress with_reducible apply Sound.keep
    | (intro _ _ _)
    | (intro _ _)
    | split
    | dsimp only

theorem Sound.unschedule (h : Sound φ κ ρ s) {v : Nat} : Sound φ κ ρ (Sys2Proof.Machine.State.unschedule s v) := by
  unfold Sys2Proof.Machine.State.unschedule
  repeat' first
    | with_reducible assumption
    | with_reducible apply Sound.wr
    | with_reducible apply Sound.setView
    | fail_if_no_progress with_reducible apply Sound.keep
    | (intro _ _ _)
    | (intro _ _)
    | split
    | dsimp only

theorem Sound.markStep (h : Sound φ κ ρ s) {d : Nat} {v : Nat} : Sound φ κ ρ (Sys2Proof.Machine.State.markStep s d v) := by
  unfold Sys2Proof.Machine.State.markStep
  repeat' first
    | with_reducible assumption
    | with_reducible apply Sound.put
    | fail_if_no_progress with_reducible apply Sound.keep
    | (intro _ _ _)
    | (intro _ _)
    | split
    | dsimp only

theorem Sound.changeView (h : Sound φ κ ρ s) {v : Nat} {c : Sched} : Sound φ κ ρ (Sys2Proof.Machine.State.changeView s v c) := by
  unfold Sys2Proof.Machine.State.changeView
  repeat' first
    | with_reducible assumption
    | with_reducible apply Sound.wr
    | with_reducible apply Sound.units
    | with_reducible apply Sound.setView
    | with_reducible apply Sound.reconvert
    | with_reducible apply Sound.markStep
    | with_reducible apply Sound.ite
    | fail_if_no_progress with_reducible apply Sound.keep
    | (intro _ _ _)
    | (intro _ _)
    | split
    | dsimp only

theorem Sound.applySchedule (h : Sound φ κ ρ s) {v : Nat} {c : Sched} : Sound φ κ ρ (Sys2Proof.Machine.State.applySchedule s v c) := by
  unfold Sys2Proof.Machine.State.applySchedule
  repeat' first
    | with_reducible assumption
    | with_reducible apply Sound.reach
    | with_reducible apply Sound.unschedule
    | with_reducible apply Sound.changeView
    | fail_if_no_progress with_reducible apply Sound.keep
    | (intro _ _ _)
    | (intro _ _)
    | split
    | dsimp only

theorem Sound.applyTvSchedule (h : Sound φ κ ρ s) {v : Nat} {n : Nat} : Sound φ κ ρ (Sys2Proof.Machine.applyTvSchedule s v n) := by
  unfold Sys2Proof.Machine.applyTvSchedule
  repeat' first
    | with_reducible assumption
    | with_reducible apply Sound.schedule
    | with_reducible apply Sound.unschedule
    | with_reducible apply Sound.ite
    | fail_if_no_progress with_reducible apply Sound.keep
    | (intro _ _ _)
    | (intro _ _)
    | split
    | dsimp only

theorem Sound.setEvt (h : Sound φ κ ρ s) {i : Nat} {p : EvtPin} : Sound φ κ ρ (Sys2Proof.Machine.State.setEvt s i p) := by
  unfold Sys2Proof.Machine.State.setEvt
  repeat' first
    | with_reducible assumption
    | with_reducible apply Sound.put
    | fail_if_no_progress with_reducible apply Sound.keep
    | (intro _ _ _)
    | (intro _ _)
    | split
    | dsimp only

theorem Sound.captureTake (h : Sound φ κ ρ s) {i : Nat} : Sound φ κ ρ (Sys2Proof.Machine.State.captureTake s i) := by
  unfold Sys2Proof.Machine.State.captureTake
  repeat' first
    | with_reducible assumption
    | with_reducible apply Sound.setEvt
    | fail_if_no_progress with_reducible apply Sound.keep
    | (intro _ _ _)
    | (intro _ _)
    | split
    | dsimp only

theorem Sound.setOut (h : Sound φ κ ρ s) {o : Nat} {p : OutPin} : Sound φ κ ρ (Sys2Proof.Machine.State.setOut s o p) := by
  unfold Sys2Proof.Machine.State.setOut
  repeat' first
    | with_reducible assumption
    | with_reducible apply Sound.put
    | fail_if_no_progress with_reducible apply Sound.keep
    | (intro _ _ _)
    | (intro _ _)
    | split
    | dsimp only

theorem Sound.trigOut (h : Sound φ κ ρ s) {o : Nat} {q : Nat} : Sound φ κ ρ (Sys2Proof.Machine.State.trigOut s o q) := by
  unfold Sys2Proof.Machine.State.trigOut
  repeat' first
    | with_reducible assumption
    | with_reducible apply Sound.setOut
    | fail_if_no_progress with_reducible apply Sound.keep
    | (intro _ _ _)
    | (intro _ _)
    | split
    | dsimp only

theorem Sound.applyTrigOutCfg (h : Sound φ κ ρ s) {o : Nat} : Sound φ κ ρ (Sys2Proof.Machine.applyTrigOutCfg s o) := by
  unfold Sys2Proof.Machine.applyTrigOutCfg
  repeat' first
    | with_reducible assumption
    | with_reducible apply Sound.setOut
    | with_reducible apply Sound.ite
    | fail_if_no_progress with_reducible apply Sound.keep
    | (intro _ _ _)
    | (intro _ _)
    | split
    | dsimp only

end Sys2Proof.Machine
end

