-- ==== Sys2Proof/Laws/SoundHearth.lean ====
section
/-! SUPPORT. What every command keeps: the functions of Machine/Hearth.lean. -/

namespace Sys2Proof.Machine

set_option linter.unusedTactic false
set_option linter.unreachableTactic false

variable {φ : Fuses} {κ : List Instr} {ρ : Nat} {s : State}

theorem Sound.setDpll (h : Sound φ κ ρ s) {l : Line} : Sound φ κ ρ (Sys2Proof.Machine.State.setDpll s l) := by
  unfold Sys2Proof.Machine.State.setDpll
  repeat' first
    | with_reducible assumption
    | fail_if_no_progress with_reducible apply Sound.keep
    | (intro _ _ _)
    | (intro _ _)
    | split
    | dsimp only

theorem Sound.setTick (h : Sound φ κ ρ s) {d : Nat} {t : DomTick} : Sound φ κ ρ (Sys2Proof.Machine.State.setTick s d t) := by
  unfold Sys2Proof.Machine.State.setTick
  repeat' first
    | with_reducible assumption
    | with_reducible apply Sound.put
    | fail_if_no_progress with_reducible apply Sound.keep
    | (intro _ _ _)
    | (intro _ _)
    | split
    | dsimp only

theorem Sound.setCand (h : Sound φ κ ρ s) {c : Nat} {x : Cand} : Sound φ κ ρ (Sys2Proof.Machine.State.setCand s c x) := by
  unfold Sys2Proof.Machine.State.setCand
  repeat' first
    | with_reducible assumption
    | with_reducible apply Sound.put
    | fail_if_no_progress with_reducible apply Sound.keep
    | (intro _ _ _)
    | (intro _ _)
    | split
    | dsimp only

theorem Sound.setOutSlew (h : Sound φ κ ρ s) {o : Nat} {e : Slew} : Sound φ κ ρ (Sys2Proof.Machine.State.setOutSlew s o e) := by
  unfold Sys2Proof.Machine.State.setOutSlew
  repeat' first
    | with_reducible assumption
    | with_reducible apply Sound.put
    | with_reducible apply Sound.flag
    | fail_if_no_progress with_reducible apply Sound.keep
    | (intro _ _ _)
    | (intro _ _)
    | split
    | dsimp only

theorem Sound.slewOut (h : Sound φ κ ρ s) {o : Nat} {d : Int} {hz : Nat} : Sound φ κ ρ (Sys2Proof.Machine.State.slewOut s o d hz) := by
  unfold Sys2Proof.Machine.State.slewOut
  repeat' first
    | with_reducible assumption
    | with_reducible apply Sound.setOutSlew
    | fail_if_no_progress with_reducible apply Sound.keep
    | (intro _ _ _)
    | (intro _ _)
    | split
    | dsimp only

theorem Sound.setSideSlew (h : Sound φ κ ρ s) {k : Nat} {e : Slew} : Sound φ κ ρ (Sys2Proof.Machine.State.setSideSlew s k e) := by
  unfold Sys2Proof.Machine.State.setSideSlew
  repeat' first
    | with_reducible assumption
    | with_reducible apply Sound.put
    | with_reducible apply Sound.flag
    | fail_if_no_progress with_reducible apply Sound.keep
    | (intro _ _ _)
    | (intro _ _)
    | split
    | dsimp only

theorem Sound.hearthWrite (h : Sound φ κ ρ s) {v : Nat} {rate : Option Nat} {d : Int} : Sound φ κ ρ (Sys2Proof.Machine.State.hearthWrite s v rate d) := by
  unfold Sys2Proof.Machine.State.hearthWrite
  repeat' first
    | with_reducible assumption
    | with_reducible apply Sound.schedule
    | with_reducible apply Sound.ite
    | fail_if_no_progress with_reducible apply Sound.keep
    | (intro _ _ _)
    | (intro _ _)
    | split
    | dsimp only

theorem Sound.convStep (h : Sound φ κ ρ s) {c : Nat} {d : Int} : Sound φ κ ρ (Sys2Proof.Machine.State.convStep s c d) := by
  unfold Sys2Proof.Machine.State.convStep
  repeat' first
    | with_reducible assumption
    | with_reducible apply Sound.put
    | with_reducible apply Sound.ite
    | fail_if_no_progress with_reducible apply Sound.keep
    | (intro _ _ _)
    | (intro _ _)
    | split
    | dsimp only

theorem Sound.hearthStep (h : Sound φ κ ρ s) {d : Int} {moveView : Bool} : Sound φ κ ρ (Sys2Proof.Machine.State.hearthStep s d moveView) := by
  unfold Sys2Proof.Machine.State.hearthStep
  repeat' first
    | with_reducible assumption
    | with_reducible apply Sound.put
    | with_reducible apply Sound.units
    | with_reducible apply Sound.markStep
    | with_reducible apply Sound.setTick
    | with_reducible apply Sound.slewOut
    | with_reducible apply Sound.setSideSlew
    | with_reducible apply Sound.hearthWrite
    | with_reducible apply Sound.convStep
    | with_reducible apply Sound.ite
    | fail_if_no_progress with_reducible apply Sound.keep
    | (intro _ _ _)
    | (intro _ _)
    | split
    | dsimp only

theorem Sound.histRefresh (h : Sound φ κ ρ s) : Sound φ κ ρ (Sys2Proof.Machine.State.histRefresh s) := by
  unfold Sys2Proof.Machine.State.histRefresh
  repeat' first
    | with_reducible assumption
    | with_reducible apply Sound.wr
    | with_reducible apply Sound.flag
    | with_reducible apply Sound.ite
    | fail_if_no_progress with_reducible apply Sound.keep
    | (intro _ _ _)
    | (intro _ _)
    | split
    | dsimp only

theorem Sound.refRefresh (h : Sound φ κ ρ s) : Sound φ κ ρ (Sys2Proof.Machine.State.refRefresh s) := by
  unfold Sys2Proof.Machine.State.refRefresh
  repeat' first
    | with_reducible assumption
    | with_reducible apply Sound.wr
    | with_reducible apply Sound.flag
    | with_reducible apply Sound.units
    | with_reducible apply Sound.ite
    | fail_if_no_progress with_reducible apply Sound.keep
    | (intro _ _ _)
    | (intro _ _)
    | split
    | dsimp only

theorem Sound.hearthGo (h : Sound φ κ ρ s) {state : Nat} {cand : Nat} {step : Int} : Sound φ κ ρ (Sys2Proof.Machine.State.hearthGo s state cand step) := by
  unfold Sys2Proof.Machine.State.hearthGo
  repeat' first
    | with_reducible assumption
    | with_reducible apply Sound.wr
    | with_reducible apply Sound.bump
    | with_reducible apply Sound.post
    | with_reducible apply Sound.histRefresh
    | with_reducible apply Sound.ite
    | fail_if_no_progress with_reducible apply Sound.keep
    | (intro _ _ _)
    | (intro _ _)
    | split
    | dsimp only

theorem Sound.dpllTurn (h : Sound φ κ ρ s) {rate : Nat} : Sound φ κ ρ (Sys2Proof.Machine.State.dpllTurn s rate) := by
  unfold Sys2Proof.Machine.State.dpllTurn
  repeat' first
    | with_reducible assumption
    | with_reducible apply Sound.units
    | with_reducible apply Sound.setDpll
    | with_reducible apply Sound.hearthWrite
    | with_reducible apply Sound.ite
    | fail_if_no_progress with_reducible apply Sound.keep
    | (intro _ _ _)
    | (intro _ _)
    | split
    | dsimp only

theorem Sound.dpllTune (h : Sound φ κ ρ s) {f : Int} : Sound φ κ ρ (Sys2Proof.Machine.State.dpllTune s f) := by
  unfold Sys2Proof.Machine.State.dpllTune
  repeat' first
    | with_reducible assumption
    | with_reducible apply Sound.wr
    | with_reducible apply Sound.dpllTurn
    | fail_if_no_progress with_reducible apply Sound.keep
    | (intro _ _ _)
    | (intro _ _)
    | split
    | dsimp only

theorem Sound.dpllFollow (h : Sound φ κ ρ s) : Sound φ κ ρ (Sys2Proof.Machine.State.dpllFollow s) := by
  unfold Sys2Proof.Machine.State.dpllFollow
  repeat' first
    | with_reducible assumption
    | with_reducible apply Sound.wr
    | with_reducible apply Sound.setDpll
    | with_reducible apply Sound.dpllTurn
    | with_reducible apply Sound.ite
    | fail_if_no_progress with_reducible apply Sound.keep
    | (intro _ _ _)
    | (intro _ _)
    | split
    | dsimp only

theorem Sound.acquire (h : Sound φ κ ρ s) {c : Nat} : Sound φ κ ρ (Sys2Proof.Machine.State.acquire s c) := by
  unfold Sys2Proof.Machine.State.acquire
  repeat' first
    | with_reducible assumption
    | with_reducible apply Sound.wr
    | with_reducible apply Sound.setDpll
    | with_reducible apply Sound.hearthStep
    | with_reducible apply Sound.hearthGo
    | with_reducible apply Sound.dpllFollow
    | fail_if_no_progress with_reducible apply Sound.keep
    | (intro _ _ _)
    | (intro _ _)
    | split
    | dsimp only

theorem Sound.holdover (h : Sound φ κ ρ s) : Sound φ κ ρ (Sys2Proof.Machine.State.holdover s) := by
  unfold Sys2Proof.Machine.State.holdover
  repeat' first
    | with_reducible assumption
    | with_reducible apply Sound.flag
    | with_reducible apply Sound.post
    | with_reducible apply Sound.hearthGo
    | with_reducible apply Sound.ite
    | fail_if_no_progress with_reducible apply Sound.keep
    | (intro _ _ _)
    | (intro _ _)
    | split
    | dsimp only

theorem Sound.freeRun (h : Sound φ κ ρ s) : Sound φ κ ρ (Sys2Proof.Machine.State.freeRun s) := by
  unfold Sys2Proof.Machine.State.freeRun
  repeat' first
    | with_reducible assumption
    | with_reducible apply Sound.hearthGo
    | with_reducible apply Sound.ite
    | fail_if_no_progress with_reducible apply Sound.keep
    | (intro _ _ _)
    | (intro _ _)
    | split
    | dsimp only

theorem Sound.noRef (h : Sound φ κ ρ s) : Sound φ κ ρ (Sys2Proof.Machine.State.noRef s) := by
  unfold Sys2Proof.Machine.State.noRef
  repeat' first
    | with_reducible assumption
    | with_reducible apply Sound.holdover
    | with_reducible apply Sound.freeRun
    | with_reducible apply Sound.ite
    | fail_if_no_progress with_reducible apply Sound.keep
    | (intro _ _ _)
    | (intro _ _)
    | split
    | dsimp only

theorem Sound.fallBack (h : Sound φ κ ρ s) : Sound φ κ ρ (Sys2Proof.Machine.State.fallBack s) := by
  unfold Sys2Proof.Machine.State.fallBack
  repeat' first
    | with_reducible assumption
    | with_reducible apply Sound.acquire
    | with_reducible apply Sound.noRef
    | fail_if_no_progress with_reducible apply Sound.keep
    | (intro _ _ _)
    | (intro _ _)
    | split
    | dsimp only

theorem Sound.setChoice (h : Sound φ κ ρ s) {waiting : Bool} {deferred : Bool} : Sound φ κ ρ (Sys2Proof.Machine.State.setChoice s waiting deferred) := by
  unfold Sys2Proof.Machine.State.setChoice
  repeat' first
    | with_reducible assumption
    | fail_if_no_progress with_reducible apply Sound.keep
    | (intro _ _ _)
    | (intro _ _)
    | split
    | dsimp only

theorem Sound.decideManual (h : Sound φ κ ρ s) {f : State → State} (hf : ∀ t, Sound φ κ ρ t → Sound φ κ ρ (f t)) :
    Sound φ κ ρ (s.decideManual f) := by
  unfold Sys2Proof.Machine.State.decideManual
  split
  · exact Sound.ite (Sound.ite h.setChoice h.setChoice.acquire) (hf _ h.setChoice)
  · exact hf _ h

theorem Sound.select (h : Sound φ κ ρ s) : Sound φ κ ρ (Sys2Proof.Machine.State.select s) := by
  unfold Sys2Proof.Machine.State.select
  repeat' first
    | with_reducible assumption
    | with_reducible apply Sound.acquire
    | with_reducible apply Sound.noRef
    | with_reducible apply Sound.setChoice
    | (refine Sound.decideManual ?_ (fun _ _ => ?_))
    | with_reducible apply Sound.ite
    | fail_if_no_progress with_reducible apply Sound.keep
    | (intro _ _ _)
    | (intro _ _)
    | split
    | dsimp only

theorem Sound.abandon (h : Sound φ κ ρ s) {failed : Bool} : Sound φ κ ρ (Sys2Proof.Machine.State.abandon s failed) := by
  unfold Sys2Proof.Machine.State.abandon
  repeat' first
    | with_reducible assumption
    | with_reducible apply Sound.wr
    | with_reducible apply Sound.post
    | with_reducible apply Sound.setChoice
    | fail_if_no_progress with_reducible apply Sound.keep
    | (intro _ _ _)
    | (intro _ _)
    | split
    | dsimp only

theorem Sound.selectedFailed (h : Sound φ κ ρ s) : Sound φ κ ρ (Sys2Proof.Machine.State.selectedFailed s) := by
  unfold Sys2Proof.Machine.State.selectedFailed
  repeat' first
    | with_reducible assumption
    | with_reducible apply Sound.fallBack
    | (refine Sound.decideManual ?_ (fun _ _ => ?_))
    | fail_if_no_progress with_reducible apply Sound.keep
    | (intro _ _ _)
    | (intro _ _)
    | split
    | dsimp only

theorem Sound.refGo (h : Sound φ κ ρ s) {c : Nat} {new : Nat} {cause : Option Nat} {timer : Nat} : Sound φ κ ρ (Sys2Proof.Machine.State.refGo s c new cause timer) := by
  unfold Sys2Proof.Machine.State.refGo
  repeat' first
    | with_reducible assumption
    | with_reducible apply Sound.wr
    | with_reducible apply Sound.post
    | with_reducible apply Sound.ite
    | fail_if_no_progress with_reducible apply Sound.keep
    | (intro _ _ _)
    | (intro _ _)
    | split
    | dsimp only

theorem Sound.noSignal (h : Sound φ κ ρ s) {c : Nat} : Sound φ κ ρ (Sys2Proof.Machine.State.noSignal s c) := by
  unfold Sys2Proof.Machine.State.noSignal
  repeat' first
    | with_reducible assumption
    | with_reducible apply Sound.wr
    | with_reducible apply Sound.setCand
    | fail_if_no_progress with_reducible apply Sound.keep
    | (intro _ _ _)
    | (intro _ _)
    | split
    | dsimp only

theorem Sound.refFail (h : Sound φ κ ρ s) {c : Nat} {cause : Nat} : Sound φ κ ρ (Sys2Proof.Machine.State.refFail s c cause) := by
  unfold Sys2Proof.Machine.State.refFail
  repeat' first
    | with_reducible assumption
    | with_reducible apply Sound.wr
    | with_reducible apply Sound.abandon
    | with_reducible apply Sound.refGo
    | with_reducible apply Sound.ite
    | fail_if_no_progress with_reducible apply Sound.keep
    | (intro _ _ _)
    | (intro _ _)
    | split
    | dsimp only

theorem Sound.settleRefs (h : Sound φ κ ρ s) : Sound φ κ ρ (Sys2Proof.Machine.State.settleRefs s) := by
  unfold Sys2Proof.Machine.State.settleRefs
  repeat' first
    | with_reducible assumption
    | with_reducible apply Sound.refRefresh
    | with_reducible apply Sound.select
    | with_reducible apply Sound.selectedFailed
    | with_reducible apply Sound.ite
    | fail_if_no_progress with_reducible apply Sound.keep
    | (intro _ _ _)
    | (intro _ _)
    | split
    | dsimp only

theorem Sound.dnuFail (h : Sound φ κ ρ s) : Sound φ κ ρ (Sys2Proof.Machine.State.dnuFail s) := by
  unfold Sys2Proof.Machine.State.dnuFail
  repeat' first
    | with_reducible assumption
    | with_reducible apply Sound.units
    | with_reducible apply Sound.refFail
    | with_reducible apply Sound.ite
    | fail_if_no_progress with_reducible apply Sound.keep
    | (intro _ _ _)
    | (intro _ _)
    | split
    | dsimp only

theorem Sound.dnuCheck (h : Sound φ κ ρ s) : Sound φ κ ρ (Sys2Proof.Machine.State.dnuCheck s) := by
  unfold Sys2Proof.Machine.State.dnuCheck
  repeat' first
    | with_reducible assumption
    | with_reducible apply Sound.settleRefs
    | with_reducible apply Sound.dnuFail
    | fail_if_no_progress with_reducible apply Sound.keep
    | (intro _ _ _)
    | (intro _ _)
    | split
    | dsimp only

theorem Sound.signalFail (h : Sound φ κ ρ s) : Sound φ κ ρ (Sys2Proof.Machine.State.signalFail s) := by
  unfold Sys2Proof.Machine.State.signalFail
  repeat' first
    | with_reducible assumption
    | with_reducible apply Sound.units
    | with_reducible apply Sound.noSignal
    | with_reducible apply Sound.refFail
    | with_reducible apply Sound.ite
    | fail_if_no_progress with_reducible apply Sound.keep
    | (intro _ _ _)
    | (intro _ _)
    | split
    | dsimp only

theorem Sound.execRefNoSignal (h : Sound φ κ ρ s) {c : Nat} : ∃ τ, Sys2Proof.Machine.execRefNoSignal c s = .next τ ∧ Sound φ κ ρ τ := by
  refine ⟨_, rfl, ?_⟩
  repeat' first
    | with_reducible assumption
    | with_reducible apply Sound.together
    | with_reducible apply Sound.noSignal
    | with_reducible apply Sound.refFail
    | with_reducible apply Sound.settleRefs
    | fail_if_no_progress with_reducible apply Sound.keep
    | (intro _ _ _)
    | (intro _ _)
    | split
    | dsimp only

theorem Sound.monitor (h : Sound φ κ ρ s) {c : Nat} {present : Bool} {off : Int} {edge : Nat} : Sound φ κ ρ (Sys2Proof.Machine.State.monitor s c present off edge) := by
  unfold Sys2Proof.Machine.State.monitor
  repeat' first
    | with_reducible assumption
    | with_reducible apply Sound.wr
    | with_reducible apply Sound.flag
    | with_reducible apply Sound.post
    | with_reducible apply Sound.setCand
    | with_reducible apply Sound.refGo
    | with_reducible apply Sound.noSignal
    | with_reducible apply Sound.refFail
    | with_reducible apply Sound.ite
    | fail_if_no_progress with_reducible apply Sound.keep
    | (intro _ _ _)
    | (intro _ _)
    | split
    | dsimp only

theorem Sound.dpllSecond (h : Sound φ κ ρ s) : Sound φ κ ρ (Sys2Proof.Machine.State.dpllSecond s) := by
  unfold Sys2Proof.Machine.State.dpllSecond
  repeat' first
    | with_reducible assumption
    | with_reducible apply Sound.wr
    | with_reducible apply Sound.dpllTurn
    | with_reducible apply Sound.dpllTune
    | with_reducible apply Sound.ite
    | fail_if_no_progress with_reducible apply Sound.keep
    | (intro _ _ _)
    | (intro _ _)
    | split
    | dsimp only

theorem Sound.execRefMonitorSecond (h : Sound φ κ ρ s) {meas : List RefMeas} : ∃ τ, Sys2Proof.Machine.execRefMonitorSecond meas s = .next τ ∧ Sound φ κ ρ τ := by
  refine ⟨_, rfl, ?_⟩
  repeat' first
    | with_reducible assumption
    | with_reducible apply Sound.units
    | with_reducible apply Sound.together
    | with_reducible apply Sound.settleRefs
    | with_reducible apply Sound.monitor
    | with_reducible apply Sound.dpllSecond
    | with_reducible apply Sound.ite
    | fail_if_no_progress with_reducible apply Sound.keep
    | (intro _ _ _)
    | (intro _ _)
    | split
    | dsimp only

theorem Sound.execRefFastCheck (h : Sound φ κ ρ s) {meas : List (Nat × Int)} : ∃ τ, Sys2Proof.Machine.execRefFastCheck meas s = .next τ ∧ Sound φ κ ρ τ := by
  refine ⟨_, rfl, ?_⟩
  repeat' first
    | with_reducible assumption
    | with_reducible apply Sound.units
    | with_reducible apply Sound.together
    | with_reducible apply Sound.refFail
    | with_reducible apply Sound.settleRefs
    | with_reducible apply Sound.ite
    | fail_if_no_progress with_reducible apply Sound.keep
    | (intro _ _ _)
    | (intro _ _)
    | split
    | dsimp only

theorem Sound.execRefQualExpiry (h : Sound φ κ ρ s) {c : Nat} : ∃ τ, Sys2Proof.Machine.execRefQualExpiry c s = .next τ ∧ Sound φ κ ρ τ := by
  refine ⟨_, rfl, ?_⟩
  repeat' first
    | with_reducible assumption
    | with_reducible apply Sound.together
    | with_reducible apply Sound.refGo
    | with_reducible apply Sound.settleRefs
    | with_reducible apply Sound.ite
    | fail_if_no_progress with_reducible apply Sound.keep
    | (intro _ _ _)
    | (intro _ _)
    | split
    | dsimp only

theorem Sound.execRefWtrExpiry (h : Sound φ κ ρ s) {c : Nat} : ∃ τ, Sys2Proof.Machine.execRefWtrExpiry c s = .next τ ∧ Sound φ κ ρ τ := by
  refine ⟨_, rfl, ?_⟩
  repeat' first
    | with_reducible assumption
    | with_reducible apply Sound.together
    | with_reducible apply Sound.refGo
    | with_reducible apply Sound.settleRefs
    | with_reducible apply Sound.ite
    | fail_if_no_progress with_reducible apply Sound.keep
    | (intro _ _ _)
    | (intro _ _)
    | split
    | dsimp only

theorem Sound.applyRefCmd (h : Sound φ κ ρ s) {c : Nat} {n : Nat} : Sound φ κ ρ (Sys2Proof.Machine.applyRefCmd s c n) := by
  unfold Sys2Proof.Machine.applyRefCmd
  repeat' first
    | with_reducible assumption
    | with_reducible apply Sound.wr
    | with_reducible apply Sound.refGo
    | with_reducible apply Sound.ite
    | fail_if_no_progress with_reducible apply Sound.keep
    | (intro _ _ _)
    | (intro _ _)
    | split
    | dsimp only

theorem Sound.applyRefCfg (h : Sound φ κ ρ s) {c : Nat} {old : Nat} {n : Nat} : Sound φ κ ρ (Sys2Proof.Machine.applyRefCfg s c old n) := by
  unfold Sys2Proof.Machine.applyRefCfg
  repeat' first
    | with_reducible assumption
    | with_reducible apply Sound.wr
    | with_reducible apply Sound.post
    | with_reducible apply Sound.abandon
    | with_reducible apply Sound.refGo
    | with_reducible apply Sound.noSignal
    | with_reducible apply Sound.dnuFail
    | with_reducible apply Sound.ite
    | fail_if_no_progress with_reducible apply Sound.keep
    | (intro _ _ _)
    | (intro _ _)
    | split
    | dsimp only

theorem Sound.execEsmcTimeout (h : Sound φ κ ρ s) {p : Nat} : ∃ τ, Sys2Proof.Machine.execEsmcTimeout p s = .next τ ∧ Sound φ κ ρ τ := by
  refine ⟨_, rfl, ?_⟩
  repeat' first
    | with_reducible assumption
    | with_reducible apply Sound.together
    | with_reducible apply Sound.setCand
    | with_reducible apply Sound.refFail
    | with_reducible apply Sound.settleRefs
    | with_reducible apply Sound.ite
    | fail_if_no_progress with_reducible apply Sound.keep
    | (intro _ _ _)
    | (intro _ _)
    | split
    | dsimp only

theorem Sound.esmcFresh (h : Sound φ κ ρ s) {p : Nat} : Sound φ κ ρ (Sys2Proof.Machine.State.esmcFresh s p) := by
  unfold Sys2Proof.Machine.State.esmcFresh
  repeat' first
    | with_reducible assumption
    | with_reducible apply Sound.setCand
    | with_reducible apply Sound.dnuCheck
    | fail_if_no_progress with_reducible apply Sound.keep
    | (intro _ _ _)
    | (intro _ _)
    | split
    | dsimp only

theorem Sound.applyHearthCtrl (h : Sound φ κ ρ s) {old : Nat} {n : Nat} : Sound φ κ ρ (Sys2Proof.Machine.applyHearthCtrl s old n) := by
  unfold Sys2Proof.Machine.applyHearthCtrl
  repeat' first
    | with_reducible assumption
    | with_reducible apply Sound.wr
    | with_reducible apply Sound.holdover
    | with_reducible apply Sound.freeRun
    | with_reducible apply Sound.setChoice
    | with_reducible apply Sound.ite
    | fail_if_no_progress with_reducible apply Sound.keep
    | (intro _ _ _)
    | (intro _ _)
    | split
    | dsimp only

theorem Sound.execManWaitExpiry (h : Sound φ κ ρ s) : ∃ τ, Sys2Proof.Machine.execManWaitExpiry s = .next τ ∧ Sound φ κ ρ τ := by
  refine ⟨_, rfl, ?_⟩
  repeat' first
    | with_reducible assumption
    | with_reducible apply Sound.abandon
    | with_reducible apply Sound.ite
    | fail_if_no_progress with_reducible apply Sound.keep
    | (intro _ _ _)
    | (intro _ _)
    | split
    | dsimp only

theorem Sound.execDpllStageEnd (h : Sound φ κ ρ s) : ∃ τ, Sys2Proof.Machine.execDpllStageEnd s = .next τ ∧ Sound φ κ ρ τ := by
  refine ⟨_, rfl, ?_⟩
  repeat' first
    | with_reducible assumption
    | with_reducible apply Sound.wr
    | with_reducible apply Sound.together
    | with_reducible apply Sound.refRefresh
    | with_reducible apply Sound.hearthGo
    | with_reducible apply Sound.select
    | with_reducible apply Sound.ite
    | fail_if_no_progress with_reducible apply Sound.keep
    | (intro _ _ _)
    | (intro _ _)
    | split
    | dsimp only

theorem Sound.execHistRecordSecond (h : Sound φ κ ρ s) {freq : Int} : ∃ τ, Sys2Proof.Machine.execHistRecordSecond freq s = .next τ ∧ Sound φ κ ρ τ := by
  refine ⟨_, rfl, ?_⟩
  repeat' first
    | with_reducible assumption
    | with_reducible apply Sound.wr
    | with_reducible apply Sound.histRefresh
    | with_reducible apply Sound.ite
    | fail_if_no_progress with_reducible apply Sound.keep
    | (intro _ _ _)
    | (intro _ _)
    | split
    | dsimp only

theorem Sound.applyHearthCmd (h : Sound φ κ ρ s) : Sound φ κ ρ (Sys2Proof.Machine.applyHearthCmd s) := by
  unfold Sys2Proof.Machine.applyHearthCmd
  repeat' first
    | with_reducible assumption
    | with_reducible apply Sound.histRefresh
    | fail_if_no_progress with_reducible apply Sound.keep
    | (intro _ _ _)
    | (intro _ _)
    | split
    | dsimp only

theorem Sound.execHoSpecExpiry (h : Sound φ κ ρ s) : ∃ τ, Sys2Proof.Machine.execHoSpecExpiry s = .next τ ∧ Sound φ κ ρ τ := by
  refine ⟨_, rfl, ?_⟩
  repeat' first
    | with_reducible assumption
    | with_reducible apply Sound.wr
    | with_reducible apply Sound.post
    | with_reducible apply Sound.refRefresh
    | with_reducible apply Sound.ite
    | fail_if_no_progress with_reducible apply Sound.keep
    | (intro _ _ _)
    | (intro _ _)
    | split
    | dsimp only

theorem Sound.viewChanged (h : Sound φ κ ρ s) {v : Nat} {d : Int} {owner : Bool} : Sound φ κ ρ (Sys2Proof.Machine.State.viewChanged s v d owner) := by
  unfold Sys2Proof.Machine.State.viewChanged
  repeat' first
    | with_reducible assumption
    | with_reducible apply Sound.setDpll
    | with_reducible apply Sound.slewOut
    | with_reducible apply Sound.hearthStep
    | with_reducible apply Sound.dpllFollow
    | with_reducible apply Sound.ite
    | fail_if_no_progress with_reducible apply Sound.keep
    | (intro _ _ _)
    | (intro _ _)
    | split
    | dsimp only

theorem Sound.applyDue {n rc : Nat} : ∀ {s : State}, Sound φ κ ρ s → Sound φ κ ρ (s.applyDue n rc) := by
  induction n with
  | zero => exact fun h => h
  | succ n ih =>
    intro s h
    unfold Sys2Proof.Machine.State.applyDue
    split
    · dsimp only
      refine ih ?_
      split
      · exact h.apart fun _ ht => ht.applySchedule.viewChanged
      · exact h.together fun _ ht => ht.applySchedule.viewChanged
    · exact h

theorem Sound.advance (h : Sound φ κ ρ s) {rc : Nat} : Sound φ κ ρ (Sys2Proof.Machine.State.advance s rc) := by
  unfold Sys2Proof.Machine.State.advance
  repeat' first
    | with_reducible assumption
    | with_reducible apply Sound.reach
    | with_reducible apply Sound.applyDue
    | with_reducible apply Sound.ite
    | fail_if_no_progress with_reducible apply Sound.keep
    | (intro _ _ _)
    | (intro _ _)
    | split
    | dsimp only

theorem Sound.catchUp (h : Sound φ κ ρ s) : Sound φ κ ρ (Sys2Proof.Machine.State.catchUp s) := by
  unfold Sys2Proof.Machine.State.catchUp
  repeat' first
    | with_reducible assumption
    | with_reducible apply Sound.advance
    | fail_if_no_progress with_reducible apply Sound.keep
    | (intro _ _ _)
    | (intro _ _)
    | split
    | dsimp only

theorem Sound.execTvScheduleApply (h : Sound φ κ ρ s) {v : Nat} : ∃ τ, Sys2Proof.Machine.execTvScheduleApply v s = .next τ ∧ Sound φ κ ρ τ := by
  refine ⟨_, rfl, ?_⟩
  repeat' first
    | with_reducible assumption
    | with_reducible apply Sound.together
    | with_reducible apply Sound.advance
    | fail_if_no_progress with_reducible apply Sound.keep
    | (intro _ _ _)
    | (intro _ _)
    | split
    | dsimp only

theorem Sound.execHearthViewUpdate (h : Sound φ κ ρ s) : ∃ τ, Sys2Proof.Machine.execHearthViewUpdate s = .next τ ∧ Sound φ κ ρ τ := by
  refine ⟨_, rfl, ?_⟩
  repeat' first
    | with_reducible assumption
    | with_reducible apply Sound.units
    | with_reducible apply Sound.together
    | with_reducible apply Sound.hearthWrite
    | with_reducible apply Sound.advance
    | with_reducible apply Sound.ite
    | fail_if_no_progress with_reducible apply Sound.keep
    | (intro _ _ _)
    | (intro _ _)
    | split
    | dsimp only

theorem Sound.execOutSlewEnd (h : Sound φ κ ρ s) {o : Nat} : ∃ τ, Sys2Proof.Machine.execOutSlewEnd o s = .next τ ∧ Sound φ κ ρ τ := by
  refine ⟨_, rfl, ?_⟩
  repeat' first
    | with_reducible assumption
    | with_reducible apply Sound.setOutSlew
    | with_reducible apply Sound.setSideSlew
    | with_reducible apply Sound.advance
    | with_reducible apply Sound.ite
    | fail_if_no_progress with_reducible apply Sound.keep
    | (intro _ _ _)
    | (intro _ _)
    | split
    | dsimp only

theorem Sound.applyDpllCfg (h : Sound φ κ ρ s) {old : Nat} : Sound φ κ ρ (Sys2Proof.Machine.applyDpllCfg s old) := by
  unfold Sys2Proof.Machine.applyDpllCfg
  repeat' first
    | with_reducible assumption
    | with_reducible apply Sound.units
    | with_reducible apply Sound.setOutSlew
    | with_reducible apply Sound.setSideSlew
    | with_reducible apply Sound.refRefresh
    | with_reducible apply Sound.ite
    | fail_if_no_progress with_reducible apply Sound.keep
    | (intro _ _ _)
    | (intro _ _)
    | split
    | dsimp only

theorem Sound.wclkStop (h : Sound φ κ ρ s) {w : Nat} : Sound φ κ ρ (Sys2Proof.Machine.State.wclkStop s w) := by
  unfold Sys2Proof.Machine.State.wclkStop
  repeat' first
    | with_reducible assumption
    | with_reducible apply Sound.put
    | with_reducible apply Sound.setOutSlew
    | fail_if_no_progress with_reducible apply Sound.keep
    | (intro _ _ _)
    | (intro _ _)
    | split
    | dsimp only

theorem Sound.applyWclkOutCfg (h : Sound φ κ ρ s) {w : Nat} {old : Nat} {n : Nat} : Sound φ κ ρ (Sys2Proof.Machine.applyWclkOutCfg s w old n) := by
  unfold Sys2Proof.Machine.applyWclkOutCfg
  repeat' first
    | with_reducible assumption
    | with_reducible apply Sound.wclkStop
    | with_reducible apply Sound.ite
    | fail_if_no_progress with_reducible apply Sound.keep
    | (intro _ _ _)
    | (intro _ _)
    | split
    | dsimp only

theorem Sound.wclkEdges (h : Sound φ κ ρ s) {d : Nat} {k : Int} {q : Nat} : Sound φ κ ρ (Sys2Proof.Machine.State.wclkEdges s d k q) := by
  unfold Sys2Proof.Machine.State.wclkEdges
  repeat' first
    | with_reducible assumption
    | with_reducible apply Sound.put
    | with_reducible apply Sound.units
    | with_reducible apply Sound.ite
    | fail_if_no_progress with_reducible apply Sound.keep
    | (intro _ _ _)
    | (intro _ _)
    | split
    | dsimp only

theorem Sound.execPpsOutSecond (h : Sound φ κ ρ s) : ∃ τ, Sys2Proof.Machine.execPpsOutSecond s = .next τ ∧ Sound φ κ ρ τ := by
  refine ⟨_, rfl, ?_⟩
  repeat' first
    | with_reducible assumption
    | with_reducible apply Sound.advance
    | with_reducible apply Sound.ite
    | fail_if_no_progress with_reducible apply Sound.keep
    | (intro _ _ _)
    | (intro _ _)
    | split
    | dsimp only

theorem Sound.execPpsOutPulseEnd (h : Sound φ κ ρ s) : ∃ τ, Sys2Proof.Machine.execPpsOutPulseEnd s = .next τ ∧ Sound φ κ ρ τ := by
  refine ⟨_, rfl, ?_⟩
  repeat' first
    | with_reducible assumption
    | with_reducible apply Sound.advance
    | fail_if_no_progress with_reducible apply Sound.keep
    | (intro _ _ _)
    | (intro _ _)
    | split
    | dsimp only

theorem Sound.applyPpsOutCfg (h : Sound φ κ ρ s) : Sound φ κ ρ (Sys2Proof.Machine.applyPpsOutCfg s) := by
  unfold Sys2Proof.Machine.applyPpsOutCfg
  repeat' first
    | with_reducible assumption
    | with_reducible apply Sound.setOutSlew
    | with_reducible apply Sound.ite
    | fail_if_no_progress with_reducible apply Sound.keep
    | (intro _ _ _)
    | (intro _ _)
    | split
    | dsimp only

theorem Sound.applyTvSource (h : Sound φ κ ρ s) {v : Nat} : Sound φ κ ρ (Sys2Proof.Machine.applyTvSource s v) := by
  unfold Sys2Proof.Machine.applyTvSource
  repeat' first
    | with_reducible assumption
    | with_reducible apply Sound.unschedule
    | fail_if_no_progress with_reducible apply Sound.keep
    | (intro _ _ _)
    | (intro _ _)
    | split
    | dsimp only

end Sys2Proof.Machine
end

