-- ==== Sys2Proof/Laws/SoundPtp.lean ====
section
/-! SUPPORT. What every command keeps: the functions of Machine/Ptp.lean. -/

namespace Sys2Proof.Machine

set_option linter.unusedTactic false
set_option linter.unreachableTactic false

variable {φ : Fuses} {κ : List Instr} {ρ : Nat} {s : State}

theorem Sound.setPtp (h : Sound φ κ ρ s) {p : Nat} {x : PtpPort} : Sound φ κ ρ (Sys2Proof.Machine.State.setPtp s p x) := by
  unfold Sys2Proof.Machine.State.setPtp
  repeat' first
    | with_reducible assumption
    | with_reducible apply Sound.put
    | fail_if_no_progress with_reducible apply Sound.keep
    | (intro _ _ _)
    | (intro _ _)
    | split
    | dsimp only

theorem Sound.servoGo (h : Sound φ κ ρ s) {p : Nat} {new : Nat} : Sound φ κ ρ (Sys2Proof.Machine.State.servoGo s p new) := by
  unfold Sys2Proof.Machine.State.servoGo
  repeat' first
    | with_reducible assumption
    | with_reducible apply Sound.wr
    | with_reducible apply Sound.post
    | with_reducible apply Sound.signalFail
    | with_reducible apply Sound.ite
    | fail_if_no_progress with_reducible apply Sound.keep
    | (intro _ _ _)
    | (intro _ _)
    | split
    | dsimp only

theorem Sound.viewFree (h : Sound φ κ ρ s) {p : Nat} : Sound φ κ ρ (Sys2Proof.Machine.State.viewFree s p) := by
  unfold Sys2Proof.Machine.State.viewFree
  repeat' first
    | with_reducible assumption
    | with_reducible apply Sound.wr
    | with_reducible apply Sound.ite
    | fail_if_no_progress with_reducible apply Sound.keep
    | (intro _ _ _)
    | (intro _ _)
    | split
    | dsimp only

theorem Sound.servoStart (h : Sound φ κ ρ s) {p : Nat} {keepI : Bool} : Sound φ κ ρ (Sys2Proof.Machine.State.servoStart s p keepI) := by
  unfold Sys2Proof.Machine.State.servoStart
  repeat' first
    | with_reducible assumption
    | with_reducible apply Sound.setPtp
    | with_reducible apply Sound.servoGo
    | fail_if_no_progress with_reducible apply Sound.keep
    | (intro _ _ _)
    | (intro _ _)
    | split
    | dsimp only

theorem Sound.ptpGo (h : Sound φ κ ρ s) {p : Nat} {new : Nat} {keepI : Bool} : Sound φ κ ρ (Sys2Proof.Machine.State.ptpGo s p new keepI) := by
  unfold Sys2Proof.Machine.State.ptpGo
  repeat' first
    | with_reducible assumption
    | with_reducible apply Sound.wr
    | with_reducible apply Sound.post
    | with_reducible apply Sound.servoGo
    | with_reducible apply Sound.viewFree
    | with_reducible apply Sound.servoStart
    | with_reducible apply Sound.ite
    | fail_if_no_progress with_reducible apply Sound.keep
    | (intro _ _ _)
    | (intro _ _)
    | split
    | dsimp only

theorem Sound.ptpInit (h : Sound φ κ ρ s) {p : Nat} : Sound φ κ ρ (Sys2Proof.Machine.State.ptpInit s p) := by
  unfold Sys2Proof.Machine.State.ptpInit
  repeat' first
    | with_reducible assumption
    | with_reducible apply Sound.wr
    | with_reducible apply Sound.setPtp
    | with_reducible apply Sound.servoGo
    | with_reducible apply Sound.ptpGo
    | with_reducible apply Sound.ite
    | fail_if_no_progress with_reducible apply Sound.keep
    | (intro _ _ _)
    | (intro _ _)
    | split
    | dsimp only

theorem Sound.setParent (h : Sound φ κ ρ s) {p : Nat} {a : Announce} {src : Nat} : Sound φ κ ρ (Sys2Proof.Machine.State.setParent s p a src) := by
  unfold Sys2Proof.Machine.State.setParent
  repeat' first
    | with_reducible assumption
    | with_reducible apply Sound.put
    | with_reducible apply Sound.units
    | with_reducible apply Sound.post
    | with_reducible apply Sound.dnuFail
    | with_reducible apply Sound.ite
    | fail_if_no_progress with_reducible apply Sound.keep
    | (intro _ _ _)
    | (intro _ _)
    | split
    | dsimp only

theorem Sound.parentOwn (h : Sound φ κ ρ s) {p : Nat} : Sound φ κ ρ (Sys2Proof.Machine.State.parentOwn s p) := by
  unfold Sys2Proof.Machine.State.parentOwn
  repeat' first
    | with_reducible assumption
    | with_reducible apply Sound.setParent
    | fail_if_no_progress with_reducible apply Sound.keep
    | (intro _ _ _)
    | (intro _ _)
    | split
    | dsimp only

theorem Sound.recMaster (h : Sound φ κ ρ s) {p : Nat} {own : Bool} : Sound φ κ ρ (Sys2Proof.Machine.State.recMaster s p own) := by
  unfold Sys2Proof.Machine.State.recMaster
  repeat' first
    | with_reducible assumption
    | with_reducible apply Sound.ptpGo
    | with_reducible apply Sound.parentOwn
    | with_reducible apply Sound.ite
    | fail_if_no_progress with_reducible apply Sound.keep
    | (intro _ _ _)
    | (intro _ _)
    | split
    | dsimp only

theorem Sound.recSlave (h : Sound φ κ ρ s) {p : Nat} {f : Foreign} : Sound φ κ ρ (Sys2Proof.Machine.State.recSlave s p f) := by
  unfold Sys2Proof.Machine.State.recSlave
  repeat' first
    | with_reducible assumption
    | with_reducible apply Sound.setPtp
    | with_reducible apply Sound.servoStart
    | with_reducible apply Sound.ptpGo
    | with_reducible apply Sound.setParent
    | with_reducible apply Sound.ite
    | fail_if_no_progress with_reducible apply Sound.keep
    | (intro _ _ _)
    | (intro _ _)
    | split
    | dsimp only

theorem Sound.bmcaPort (h : Sound φ κ ρ s) {p : Nat} : Sound φ κ ρ (Sys2Proof.Machine.State.bmcaPort s p) := by
  unfold Sys2Proof.Machine.State.bmcaPort
  repeat' first
    | with_reducible assumption
    | with_reducible apply Sound.ptpGo
    | with_reducible apply Sound.recMaster
    | with_reducible apply Sound.recSlave
    | with_reducible apply Sound.ite
    | fail_if_no_progress with_reducible apply Sound.keep
    | (intro _ _ _)
    | (intro _ _)
    | split
    | dsimp only

theorem Sound.bmca (h : Sound φ κ ρ s) : Sound φ κ ρ (Sys2Proof.Machine.State.bmca s) := by
  unfold Sys2Proof.Machine.State.bmca
  repeat' first
    | with_reducible assumption
    | with_reducible apply Sound.bmcaPort
    | fail_if_no_progress with_reducible apply Sound.keep
    | (intro _ _ _)
    | (intro _ _)
    | split
    | dsimp only

theorem Sound.ptpFrame (h : Sound φ κ ρ s) {p : Nat} {m : PtpMsg} : Sound φ κ ρ (Sys2Proof.Machine.State.ptpFrame s p m).2 := by
  unfold Sys2Proof.Machine.State.ptpFrame
  repeat' first
    | with_reducible assumption
    | with_reducible apply Sound.udpFrame
    | with_reducible apply Sound.ite
    | fail_if_no_progress with_reducible apply Sound.keep
    | (intro _ _ _)
    | (intro _ _)
    | split
    | dsimp only

theorem Sound.ptpSend (h : Sound φ κ ρ s) {p : Nat} {m : PtpMsg} : Sound φ κ ρ (Sys2Proof.Machine.State.ptpSend s p m) := by
  unfold Sys2Proof.Machine.State.ptpSend
  repeat' first
    | with_reducible assumption
    | with_reducible apply Sound.enqueue
    | with_reducible apply Sound.ptpFrame
    | with_reducible apply Sound.ite
    | fail_if_no_progress with_reducible apply Sound.keep
    | (intro _ _ _)
    | (intro _ _)
    | split
    | dsimp only

theorem Sound.showMpd (h : Sound φ κ ρ s) {p : Nat} : Sound φ κ ρ (Sys2Proof.Machine.State.showMpd s p) := by
  unfold Sys2Proof.Machine.State.showMpd
  repeat' first
    | with_reducible assumption
    | with_reducible apply Sound.wr
    | fail_if_no_progress with_reducible apply Sound.keep
    | (intro _ _ _)
    | (intro _ _)
    | split
    | dsimp only

theorem Sound.servoWrite (h : Sound φ κ ρ s) {p : Nat} {y : Int} {step : Option Int} : Sound φ κ ρ (Sys2Proof.Machine.State.servoWrite s p y step) := by
  unfold Sys2Proof.Machine.State.servoWrite
  repeat' first
    | with_reducible assumption
    | with_reducible apply Sound.post
    | with_reducible apply Sound.schedule
    | with_reducible apply Sound.setPtp
    | with_reducible apply Sound.ite
    | fail_if_no_progress with_reducible apply Sound.keep
    | (intro _ _ _)
    | (intro _ _)
    | split
    | dsimp only

theorem Sound.servoSync (h : Sound φ κ ρ s) {p : Nat} {t1 : Int} {t2 : Int} {corr : Int} : Sound φ κ ρ (Sys2Proof.Machine.State.servoSync s p t1 t2 corr) := by
  unfold Sys2Proof.Machine.State.servoSync
  repeat' first
    | with_reducible assumption
    | with_reducible apply Sound.wr
    | with_reducible apply Sound.flag
    | with_reducible apply Sound.setPtp
    | with_reducible apply Sound.servoGo
    | with_reducible apply Sound.ptpGo
    | with_reducible apply Sound.showMpd
    | with_reducible apply Sound.servoWrite
    | with_reducible apply Sound.ite
    | fail_if_no_progress with_reducible apply Sound.keep
    | (intro _ _ _)
    | (intro _ _)
    | split
    | dsimp only

theorem Sound.execPtpSyncRx (h : Sound φ κ ρ s) {p : Nat} {m : PtpMsg} {q : Nat} : ∃ τ, Sys2Proof.Machine.execPtpSyncRx p m q s = .next τ ∧ Sound φ κ ρ τ := by
  refine ⟨_, rfl, ?_⟩
  repeat' first
    | with_reducible assumption
    | with_reducible apply Sound.together
    | with_reducible apply Sound.settleRefs
    | with_reducible apply Sound.advance
    | with_reducible apply Sound.setPtp
    | with_reducible apply Sound.servoSync
    | with_reducible apply Sound.ite
    | fail_if_no_progress with_reducible apply Sound.keep
    | (intro _ _ _)
    | (intro _ _)
    | split
    | dsimp only

theorem Sound.execPtpFollowUpRx (h : Sound φ κ ρ s) {p : Nat} {m : PtpMsg} : ∃ τ, Sys2Proof.Machine.execPtpFollowUpRx p m s = .next τ ∧ Sound φ κ ρ τ := by
  refine ⟨_, rfl, ?_⟩
  repeat' first
    | with_reducible assumption
    | with_reducible apply Sound.together
    | with_reducible apply Sound.settleRefs
    | with_reducible apply Sound.catchUp
    | with_reducible apply Sound.setPtp
    | with_reducible apply Sound.servoSync
    | with_reducible apply Sound.ite
    | fail_if_no_progress with_reducible apply Sound.keep
    | (intro _ _ _)
    | (intro _ _)
    | split
    | dsimp only

theorem Sound.execPtpDelayReqRx (h : Sound φ κ ρ s) {p : Nat} {m : PtpMsg} {q : Nat} : ∃ τ, Sys2Proof.Machine.execPtpDelayReqRx p m q s = .next τ ∧ Sound φ κ ρ τ := by
  refine ⟨_, rfl, ?_⟩
  repeat' first
    | with_reducible assumption
    | with_reducible apply Sound.advance
    | with_reducible apply Sound.ptpSend
    | with_reducible apply Sound.ite
    | fail_if_no_progress with_reducible apply Sound.keep
    | (intro _ _ _)
    | (intro _ _)
    | split
    | dsimp only

theorem Sound.delayTaken (h : Sound φ κ ρ s) {p : Nat} {d : Int} : Sound φ κ ρ (Sys2Proof.Machine.State.delayTaken s p d) := by
  unfold Sys2Proof.Machine.State.delayTaken
  repeat' first
    | with_reducible assumption
    | with_reducible apply Sound.setPtp
    | with_reducible apply Sound.showMpd
    | fail_if_no_progress with_reducible apply Sound.keep
    | (intro _ _ _)
    | (intro _ _)
    | split
    | dsimp only

theorem Sound.execPtpDelayRespRx (h : Sound φ κ ρ s) {p : Nat} {m : PtpMsg} : ∃ τ, Sys2Proof.Machine.execPtpDelayRespRx p m s = .next τ ∧ Sound φ κ ρ τ := by
  refine ⟨_, rfl, ?_⟩
  repeat' first
    | with_reducible assumption
    | with_reducible apply Sound.together
    | with_reducible apply Sound.setPtp
    | with_reducible apply Sound.delayTaken
    | with_reducible apply Sound.ite
    | fail_if_no_progress with_reducible apply Sound.keep
    | (intro _ _ _)
    | (intro _ _)
    | split
    | dsimp only

theorem Sound.execPtpPdelayReqRx (h : Sound φ κ ρ s) {p : Nat} {m : PtpMsg} {q : Nat} : ∃ τ, Sys2Proof.Machine.execPtpPdelayReqRx p m q s = .next τ ∧ Sound φ κ ρ τ := by
  refine ⟨_, rfl, ?_⟩
  repeat' first
    | with_reducible assumption
    | with_reducible apply Sound.advance
    | with_reducible apply Sound.ptpSend
    | with_reducible apply Sound.ite
    | fail_if_no_progress with_reducible apply Sound.keep
    | (intro _ _ _)
    | (intro _ _)
    | split
    | dsimp only

theorem Sound.asJudge (h : Sound φ κ ρ s) {p : Nat} {ok : Bool} : Sound φ κ ρ (Sys2Proof.Machine.State.asJudge s p ok) := by
  unfold Sys2Proof.Machine.State.asJudge
  repeat' first
    | with_reducible assumption
    | with_reducible apply Sound.wr
    | with_reducible apply Sound.setPtp
    | with_reducible apply Sound.ite
    | fail_if_no_progress with_reducible apply Sound.keep
    | (intro _ _ _)
    | (intro _ _)
    | split
    | dsimp only

theorem Sound.pdelayDone (h : Sound φ κ ρ s) {p : Nat} {t1 : Int} {t2 : Int} {t3 : Int} {t4 : Int} {corr : Int} : Sound φ κ ρ (Sys2Proof.Machine.State.pdelayDone s p t1 t2 t3 t4 corr) := by
  unfold Sys2Proof.Machine.State.pdelayDone
  repeat' first
    | with_reducible assumption
    | with_reducible apply Sound.setPtp
    | with_reducible apply Sound.delayTaken
    | with_reducible apply Sound.asJudge
    | fail_if_no_progress with_reducible apply Sound.keep
    | (intro _ _ _)
    | (intro _ _)
    | split
    | dsimp only

theorem Sound.execPtpPdelayRespRx (h : Sound φ κ ρ s) {p : Nat} {m : PtpMsg} {q : Nat} : ∃ τ, Sys2Proof.Machine.execPtpPdelayRespRx p m q s = .next τ ∧ Sound φ κ ρ τ := by
  refine ⟨_, rfl, ?_⟩
  repeat' first
    | with_reducible assumption
    | with_reducible apply Sound.together
    | with_reducible apply Sound.advance
    | with_reducible apply Sound.setPtp
    | with_reducible apply Sound.pdelayDone
    | with_reducible apply Sound.ite
    | fail_if_no_progress with_reducible apply Sound.keep
    | (intro _ _ _)
    | (intro _ _)
    | split
    | dsimp only

theorem Sound.execPtpPdelayRespFollowUpRx (h : Sound φ κ ρ s) {p : Nat} {m : PtpMsg} : ∃ τ, Sys2Proof.Machine.execPtpPdelayRespFollowUpRx p m s = .next τ ∧ Sound φ κ ρ τ := by
  refine ⟨_, rfl, ?_⟩
  repeat' first
    | with_reducible assumption
    | with_reducible apply Sound.together
    | with_reducible apply Sound.pdelayDone
    | with_reducible apply Sound.ite
    | fail_if_no_progress with_reducible apply Sound.keep
    | (intro _ _ _)
    | (intro _ _)
    | split
    | dsimp only

theorem Sound.execPtpAnnounceRx (h : Sound φ κ ρ s) {p : Nat} {m : PtpMsg} : ∃ τ, Sys2Proof.Machine.execPtpAnnounceRx p m s = .next τ ∧ Sound φ κ ρ τ := by
  refine ⟨_, rfl, ?_⟩
  repeat' first
    | with_reducible assumption
    | with_reducible apply Sound.together
    | with_reducible apply Sound.settleRefs
    | with_reducible apply Sound.setPtp
    | with_reducible apply Sound.bmca
    | with_reducible apply Sound.ite
    | fail_if_no_progress with_reducible apply Sound.keep
    | (intro _ _ _)
    | (intro _ _)
    | split
    | dsimp only

theorem Sound.execPtpSyncInterval (h : Sound φ κ ρ s) {p : Nat} : ∃ τ, Sys2Proof.Machine.execPtpSyncInterval p s = .next τ ∧ Sound φ κ ρ τ := by
  refine ⟨_, rfl, ?_⟩
  repeat' first
    | with_reducible assumption
    | with_reducible apply Sound.setPtp
    | with_reducible apply Sound.ptpSend
    | with_reducible apply Sound.ite
    | fail_if_no_progress with_reducible apply Sound.keep
    | (intro _ _ _)
    | (intro _ _)
    | split
    | dsimp only

theorem Sound.execPtpAnnounceInterval (h : Sound φ κ ρ s) {p : Nat} : ∃ τ, Sys2Proof.Machine.execPtpAnnounceInterval p s = .next τ ∧ Sound φ κ ρ τ := by
  refine ⟨_, rfl, ?_⟩
  repeat' first
    | with_reducible assumption
    | with_reducible apply Sound.setPtp
    | with_reducible apply Sound.ptpSend
    | with_reducible apply Sound.ite
    | fail_if_no_progress with_reducible apply Sound.keep
    | (intro _ _ _)
    | (intro _ _)
    | split
    | dsimp only

theorem Sound.execPtpDelayReqInterval (h : Sound φ κ ρ s) {p : Nat} : ∃ τ, Sys2Proof.Machine.execPtpDelayReqInterval p s = .next τ ∧ Sound φ κ ρ τ := by
  refine ⟨_, rfl, ?_⟩
  repeat' first
    | with_reducible assumption
    | with_reducible apply Sound.setPtp
    | with_reducible apply Sound.ptpSend
    | with_reducible apply Sound.asJudge
    | with_reducible apply Sound.ite
    | fail_if_no_progress with_reducible apply Sound.keep
    | (intro _ _ _)
    | (intro _ _)
    | split
    | dsimp only

theorem Sound.ptpSent (h : Sound φ κ ρ s) {p : Nat} {m : PtpMsg} {q : Nat} : Sound φ κ ρ (Sys2Proof.Machine.State.ptpSent s p m q) := by
  unfold Sys2Proof.Machine.State.ptpSent
  repeat' first
    | with_reducible assumption
    | with_reducible apply Sound.setPtp
    | with_reducible apply Sound.ptpSend
    | with_reducible apply Sound.ite
    | fail_if_no_progress with_reducible apply Sound.keep
    | (intro _ _ _)
    | (intro _ _)
    | split
    | dsimp only

theorem Sound.execAnnounceReceiptTimeout (h : Sound φ κ ρ s) {p : Nat} : ∃ τ, Sys2Proof.Machine.execAnnounceReceiptTimeout p s = .next τ ∧ Sound φ κ ρ τ := by
  refine ⟨_, rfl, ?_⟩
  repeat' first
    | with_reducible assumption
    | with_reducible apply Sound.together
    | with_reducible apply Sound.settleRefs
    | with_reducible apply Sound.catchUp
    | with_reducible apply Sound.setPtp
    | with_reducible apply Sound.servoGo
    | with_reducible apply Sound.viewFree
    | with_reducible apply Sound.ptpGo
    | with_reducible apply Sound.parentOwn
    | with_reducible apply Sound.bmca
    | with_reducible apply Sound.ite
    | fail_if_no_progress with_reducible apply Sound.keep
    | (intro _ _ _)
    | (intro _ _)
    | split
    | dsimp only

theorem Sound.execSyncReceiptTimeout (h : Sound φ κ ρ s) {p : Nat} : ∃ τ, Sys2Proof.Machine.execSyncReceiptTimeout p s = .next τ ∧ Sound φ κ ρ τ := by
  refine ⟨_, rfl, ?_⟩
  repeat' first
    | with_reducible assumption
    | with_reducible apply Sound.together
    | with_reducible apply Sound.settleRefs
    | with_reducible apply Sound.setPtp
    | with_reducible apply Sound.servoGo
    | with_reducible apply Sound.viewFree
    | with_reducible apply Sound.ite
    | fail_if_no_progress with_reducible apply Sound.keep
    | (intro _ _ _)
    | (intro _ _)
    | split
    | dsimp only

theorem Sound.execPtpQualificationTimeout (h : Sound φ κ ρ s) {p : Nat} : ∃ τ, Sys2Proof.Machine.execPtpQualificationTimeout p s = .next τ ∧ Sound φ κ ρ τ := by
  refine ⟨_, rfl, ?_⟩
  repeat' first
    | with_reducible assumption
    | with_reducible apply Sound.together
    | with_reducible apply Sound.ptpGo
    | with_reducible apply Sound.ite
    | fail_if_no_progress with_reducible apply Sound.keep
    | (intro _ _ _)
    | (intro _ _)
    | split
    | dsimp only

theorem Sound.ptpRestartBoth (h : Sound φ κ ρ s) : Sound φ κ ρ (Sys2Proof.Machine.State.ptpRestartBoth s) := by
  unfold Sys2Proof.Machine.State.ptpRestartBoth
  repeat' first
    | with_reducible assumption
    | with_reducible apply Sound.signalFail
    | with_reducible apply Sound.ptpInit
    | with_reducible apply Sound.bmca
    | fail_if_no_progress with_reducible apply Sound.keep
    | (intro _ _ _)
    | (intro _ _)
    | split
    | dsimp only

theorem Sound.ptpRestart (h : Sound φ κ ρ s) {p : Nat} : Sound φ κ ρ (Sys2Proof.Machine.State.ptpRestart s p) := by
  unfold Sys2Proof.Machine.State.ptpRestart
  repeat' first
    | with_reducible assumption
    | with_reducible apply Sound.signalFail
    | with_reducible apply Sound.ptpInit
    | with_reducible apply Sound.bmca
    | with_reducible apply Sound.ptpRestartBoth
    | with_reducible apply Sound.ite
    | fail_if_no_progress with_reducible apply Sound.keep
    | (intro _ _ _)
    | (intro _ _)
    | split
    | dsimp only

theorem Sound.ptpLink (h : Sound φ κ ρ s) {p : Nat} {up : Bool} : Sound φ κ ρ (Sys2Proof.Machine.State.ptpLink s p up) := by
  unfold Sys2Proof.Machine.State.ptpLink
  repeat' first
    | with_reducible assumption
    | with_reducible apply Sound.ptpGo
    | with_reducible apply Sound.ptpInit
    | with_reducible apply Sound.ite
    | fail_if_no_progress with_reducible apply Sound.keep
    | (intro _ _ _)
    | (intro _ _)
    | split
    | dsimp only

end Sys2Proof.Machine
end

