-- ==== Sys2Proof/Laws/SoundStream.lean ====
section
/-! SUPPORT. What every command keeps: the functions of Machine/Stream.lean. -/

namespace Sys2Proof.Machine

set_option linter.unusedTactic false
set_option linter.unreachableTactic false

variable {φ : Fuses} {κ : List Instr} {ρ : Nat} {s : State}

theorem Sound.setRx (h : Sound φ κ ρ s) {c : Nat} {x : RxCtx} : Sound φ κ ρ (Sys2Proof.Machine.State.setRx s c x) := by
  unfold Sys2Proof.Machine.State.setRx
  repeat' first
    | with_reducible assumption
    | with_reducible apply Sound.put
    | fail_if_no_progress with_reducible apply Sound.keep
    | (intro _ _ _)
    | (intro _ _)
    | split
    | dsimp only

theorem Sound.setTx (h : Sound φ κ ρ s) {c : Nat} {x : TxCtx} : Sound φ κ ρ (Sys2Proof.Machine.State.setTx s c x) := by
  unfold Sys2Proof.Machine.State.setTx
  repeat' first
    | with_reducible assumption
    | with_reducible apply Sound.put
    | fail_if_no_progress with_reducible apply Sound.keep
    | (intro _ _ _)
    | (intro _ _)
    | split
    | dsimp only

theorem Sound.setPair (h : Sound φ κ ρ s) {d : Nat} {v : Nat} {x : Pair} : Sound φ κ ρ (Sys2Proof.Machine.State.setPair s d v x) := by
  unfold Sys2Proof.Machine.State.setPair
  repeat' first
    | with_reducible assumption
    | with_reducible apply Sound.put
    | fail_if_no_progress with_reducible apply Sound.keep
    | (intro _ _ _)
    | (intro _ _)
    | split
    | dsimp only

theorem Sound.usePair (h : Sound φ κ ρ s) {d : Nat} {v : Nat} : Sound φ κ ρ (Sys2Proof.Machine.State.usePair s d v) := by
  unfold Sys2Proof.Machine.State.usePair
  repeat' first
    | with_reducible assumption
    | with_reducible apply Sound.setPair
    | with_reducible apply Sound.ite
    | fail_if_no_progress with_reducible apply Sound.keep
    | (intro _ _ _)
    | (intro _ _)
    | split
    | dsimp only

theorem Sound.rxGo (h : Sound φ κ ρ s) {c : Nat} {new : Nat} : Sound φ κ ρ (Sys2Proof.Machine.State.rxGo s c new) := by
  unfold Sys2Proof.Machine.State.rxGo
  repeat' first
    | with_reducible assumption
    | with_reducible apply Sound.wr
    | with_reducible apply Sound.post
    | with_reducible apply Sound.setRx
    | with_reducible apply Sound.ite
    | fail_if_no_progress with_reducible apply Sound.keep
    | (intro _ _ _)
    | (intro _ _)
    | split
    | dsimp only

theorem Sound.txGo (h : Sound φ κ ρ s) {c : Nat} {new : Nat} : Sound φ κ ρ (Sys2Proof.Machine.State.txGo s c new) := by
  unfold Sys2Proof.Machine.State.txGo
  repeat' first
    | with_reducible assumption
    | with_reducible apply Sound.wr
    | with_reducible apply Sound.post
    | with_reducible apply Sound.ite
    | fail_if_no_progress with_reducible apply Sound.keep
    | (intro _ _ _)
    | (intro _ _)
    | split
    | dsimp only

theorem Sound.execStreamStateWindowEnd (h : Sound φ κ ρ s) {c : Nat} : ∃ τ, Sys2Proof.Machine.execStreamStateWindowEnd c s = .next τ ∧ Sound φ κ ρ τ := by
  refine ⟨_, rfl, ?_⟩
  repeat' first
    | with_reducible assumption
    | with_reducible apply Sound.post
    | with_reducible apply Sound.setRx
    | with_reducible apply Sound.ite
    | fail_if_no_progress with_reducible apply Sound.keep
    | (intro _ _ _)
    | (intro _ _)
    | split
    | dsimp only

theorem Sound.rxDepth (h : Sound φ κ ρ s) {c : Nat} {cursor : Int} : Sound φ κ ρ (Sys2Proof.Machine.State.rxDepth s c cursor) := by
  unfold Sys2Proof.Machine.State.rxDepth
  repeat' first
    | with_reducible assumption
    | with_reducible apply Sound.wr
    | with_reducible apply Sound.setRx
    | with_reducible apply Sound.ite
    | fail_if_no_progress with_reducible apply Sound.keep
    | (intro _ _ _)
    | (intro _ _)
    | split
    | dsimp only

theorem Sound.naSet (h : Sound φ κ ρ s) {c : Nat} {ch : Nat} {on : Bool} : Sound φ κ ρ (Sys2Proof.Machine.State.naSet s c ch on) := by
  unfold Sys2Proof.Machine.State.naSet
  repeat' first
    | with_reducible assumption
    | with_reducible apply Sound.wr
    | with_reducible apply Sound.bumpIf
    | with_reducible apply Sound.post
    | with_reducible apply Sound.ite
    | fail_if_no_progress with_reducible apply Sound.keep
    | (intro _ _ _)
    | (intro _ _)
    | split
    | dsimp only

theorem Sound.rxOff (h : Sound φ κ ρ s) {c : Nat} : Sound φ κ ρ (Sys2Proof.Machine.State.rxOff s c) := by
  unfold Sys2Proof.Machine.State.rxOff
  repeat' first
    | with_reducible assumption
    | with_reducible apply Sound.units
    | with_reducible apply Sound.setRx
    | with_reducible apply Sound.rxGo
    | with_reducible apply Sound.naSet
    | fail_if_no_progress with_reducible apply Sound.keep
    | (intro _ _ _)
    | (intro _ _)
    | split
    | dsimp only

theorem Sound.naPcm (h : Sound φ κ ρ s) {c : Nat} {smp : List Nat} : Sound φ κ ρ (Sys2Proof.Machine.State.naPcm s c smp) := by
  unfold Sys2Proof.Machine.State.naPcm
  repeat' first
    | with_reducible assumption
    | with_reducible apply Sound.put
    | with_reducible apply Sound.units
    | with_reducible apply Sound.setRx
    | with_reducible apply Sound.naSet
    | with_reducible apply Sound.ite
    | fail_if_no_progress with_reducible apply Sound.keep
    | (intro _ _ _)
    | (intro _ _)
    | split
    | dsimp only

theorem Sound.naAm824 (h : Sound φ κ ρ s) {c : Nat} {ch : Nat} {cursor : Int} {smp : Nat} : Sound φ κ ρ (Sys2Proof.Machine.State.naAm824 s c ch cursor smp) := by
  unfold Sys2Proof.Machine.State.naAm824
  repeat' first
    | with_reducible assumption
    | with_reducible apply Sound.put
    | with_reducible apply Sound.setRx
    | with_reducible apply Sound.naSet
    | with_reducible apply Sound.ite
    | fail_if_no_progress with_reducible apply Sound.keep
    | (intro _ _ _)
    | (intro _ _)
    | split
    | dsimp only

theorem Sound.naDetect (h : Sound φ κ ρ s) {c : Nat} {cursor : Int} {smp : List Nat} : Sound φ κ ρ (Sys2Proof.Machine.State.naDetect s c cursor smp) := by
  unfold Sys2Proof.Machine.State.naDetect
  repeat' first
    | with_reducible assumption
    | with_reducible apply Sound.units
    | with_reducible apply Sound.naPcm
    | with_reducible apply Sound.naAm824
    | with_reducible apply Sound.ite
    | fail_if_no_progress with_reducible apply Sound.keep
    | (intro _ _ _)
    | (intro _ _)
    | split
    | dsimp only

theorem Sound.rxDeliver (h : Sound φ κ ρ s) {c : Nat} {cursor : Int} {smp : List Nat} : Sound φ κ ρ (Sys2Proof.Machine.State.rxDeliver s c cursor smp) := by
  unfold Sys2Proof.Machine.State.rxDeliver
  repeat' first
    | with_reducible assumption
    | with_reducible apply Sound.setRx
    | with_reducible apply Sound.naDetect
    | fail_if_no_progress with_reducible apply Sound.keep
    | (intro _ _ _)
    | (intro _ _)
    | split
    | dsimp only

theorem Sound.rxMiss (h : Sound φ κ ρ s) {c : Nat} : Sound φ κ ρ (Sys2Proof.Machine.State.rxMiss s c) := by
  unfold Sys2Proof.Machine.State.rxMiss
  repeat' first
    | with_reducible assumption
    | with_reducible apply Sound.bump
    | fail_if_no_progress with_reducible apply Sound.keep
    | (intro _ _ _)
    | (intro _ _)
    | split
    | dsimp only

theorem Sound.rxRetime (h : Sound φ κ ρ s) {c : Nat} {k : Int} : Sound φ κ ρ (Sys2Proof.Machine.State.rxRetime s c k) := by
  unfold Sys2Proof.Machine.State.rxRetime
  repeat' first
    | with_reducible assumption
    | with_reducible apply Sound.bump
    | with_reducible apply Sound.post
    | with_reducible apply Sound.setRx
    | with_reducible apply Sound.ite
    | fail_if_no_progress with_reducible apply Sound.keep
    | (intro _ _ _)
    | (intro _ _)
    | split
    | dsimp only

theorem Sound.rxCapture (h : Sound φ κ ρ s) {c : Nat} {k : Int} : Sound φ κ ρ (Sys2Proof.Machine.State.rxCapture s c k) := by
  unfold Sys2Proof.Machine.State.rxCapture
  repeat' first
    | with_reducible assumption
    | with_reducible apply Sound.wr
    | with_reducible apply Sound.bump
    | with_reducible apply Sound.setRx
    | with_reducible apply Sound.rxGo
    | with_reducible apply Sound.rxDepth
    | with_reducible apply Sound.rxOff
    | with_reducible apply Sound.rxDeliver
    | with_reducible apply Sound.rxMiss
    | with_reducible apply Sound.rxRetime
    | with_reducible apply Sound.ite
    | fail_if_no_progress with_reducible apply Sound.keep
    | (intro _ _ _)
    | (intro _ _)
    | split
    | dsimp only

theorem Sound.streamPairs (h : Sound φ κ ρ s) {d : Nat} {q : Nat} : Sound φ κ ρ (Sys2Proof.Machine.State.streamPairs s d q) := by
  unfold Sys2Proof.Machine.State.streamPairs
  repeat' first
    | with_reducible assumption
    | with_reducible apply Sound.put
    | with_reducible apply Sound.bump
    | with_reducible apply Sound.units
    | with_reducible apply Sound.post
    | with_reducible apply Sound.setRx
    | with_reducible apply Sound.setPair
    | with_reducible apply Sound.ite
    | fail_if_no_progress with_reducible apply Sound.keep
    | (intro _ _ _)
    | (intro _ _)
    | split
    | dsimp only

theorem Sound.streamCapture (h : Sound φ κ ρ s) {d : Nat} : Sound φ κ ρ (Sys2Proof.Machine.State.streamCapture s d) := by
  unfold Sys2Proof.Machine.State.streamCapture
  repeat' first
    | with_reducible assumption
    | with_reducible apply Sound.units
    | with_reducible apply Sound.rxCapture
    | with_reducible apply Sound.ite
    | fail_if_no_progress with_reducible apply Sound.keep
    | (intro _ _ _)
    | (intro _ _)
    | split
    | dsimp only

theorem Sound.execStreamHoldExpiry (h : Sound φ κ ρ s) {isTx : Bool} {c : Nat} : ∃ τ, Sys2Proof.Machine.execStreamHoldExpiry isTx c s = .next τ ∧ Sound φ κ ρ τ := by
  refine ⟨_, rfl, ?_⟩
  repeat' first
    | with_reducible assumption
    | with_reducible apply Sound.together
    | with_reducible apply Sound.setTx
    | with_reducible apply Sound.txGo
    | with_reducible apply Sound.rxOff
    | with_reducible apply Sound.ite
    | fail_if_no_progress with_reducible apply Sound.keep
    | (intro _ _ _)
    | (intro _ _)
    | split
    | dsimp only

theorem Sound.execNaHoldExpiry (h : Sound φ κ ρ s) {c : Nat} {k : Nat} : ∃ τ, Sys2Proof.Machine.execNaHoldExpiry c k s = .next τ ∧ Sound φ κ ρ τ := by
  refine ⟨_, rfl, ?_⟩
  repeat' first
    | with_reducible assumption
    | with_reducible apply Sound.put
    | with_reducible apply Sound.setRx
    | with_reducible apply Sound.naSet
    | with_reducible apply Sound.ite
    | fail_if_no_progress with_reducible apply Sound.keep
    | (intro _ _ _)
    | (intro _ _)
    | split
    | dsimp only

theorem Sound.pathGo (h : Sound φ κ ρ s) {c : Nat} {path : Nat} {up : Bool} : Sound φ κ ρ (Sys2Proof.Machine.State.pathGo s c path up) := by
  unfold Sys2Proof.Machine.State.pathGo
  repeat' first
    | with_reducible assumption
    | with_reducible apply Sound.flag
    | with_reducible apply Sound.post
    | with_reducible apply Sound.ite
    | fail_if_no_progress with_reducible apply Sound.keep
    | (intro _ _ _)
    | (intro _ _)
    | split
    | dsimp only

theorem Sound.execStreamPathTimeout (h : Sound φ κ ρ s) {c : Nat} {path : Nat} : ∃ τ, Sys2Proof.Machine.execStreamPathTimeout c path s = .next τ ∧ Sound φ κ ρ τ := by
  refine ⟨_, rfl, ?_⟩
  repeat' first
    | with_reducible assumption
    | with_reducible apply Sound.pathGo
    | fail_if_no_progress with_reducible apply Sound.keep
    | (intro _ _ _)
    | (intro _ _)
    | split
    | dsimp only

theorem Sound.rxStore (h : Sound φ κ ρ s) {c : Nat} {ts : Nat} {smp : List (List Nat)} : Sound φ κ ρ (Sys2Proof.Machine.State.rxStore s c ts smp) := by
  unfold Sys2Proof.Machine.State.rxStore
  repeat' first
    | with_reducible assumption
    | with_reducible apply Sound.put
    | with_reducible apply Sound.bump
    | with_reducible apply Sound.bumpIf
    | with_reducible apply Sound.setRx
    | with_reducible apply Sound.foldFst
    | with_reducible apply Sound.foldl
    | with_reducible apply Sound.foldSnd
    | with_reducible apply Sound.ite
    | fail_if_no_progress with_reducible apply Sound.keep
    | (intro _ _ _)
    | (intro _ _)
    | split
    | dsimp only

theorem Sound.rxPath (h : Sound φ κ ρ s) {c : Nat} {path : Nat} {q : Nat} : Sound φ κ ρ (Sys2Proof.Machine.State.rxPath s c path q) := by
  unfold Sys2Proof.Machine.State.rxPath
  repeat' first
    | with_reducible assumption
    | with_reducible apply Sound.put
    | with_reducible apply Sound.bump
    | with_reducible apply Sound.setRx
    | with_reducible apply Sound.pathGo
    | with_reducible apply Sound.ite
    | fail_if_no_progress with_reducible apply Sound.keep
    | (intro _ _ _)
    | (intro _ _)
    | split
    | dsimp only

theorem Sound.rxMerge (h : Sound φ κ ρ s) {c : Nat} {q : Nat} {ts : Nat} {smp : List (List Nat)} : Sound φ κ ρ (Sys2Proof.Machine.State.rxMerge s c q ts smp) := by
  unfold Sys2Proof.Machine.State.rxMerge
  repeat' first
    | with_reducible assumption
    | with_reducible apply Sound.put
    | with_reducible apply Sound.bump
    | with_reducible apply Sound.setRx
    | with_reducible apply Sound.rxStore
    | with_reducible apply Sound.ite
    | fail_if_no_progress with_reducible apply Sound.keep
    | (intro _ _ _)
    | (intro _ _)
    | split
    | dsimp only

theorem Sound.rxPacket (h : Sound φ κ ρ s) {c : Nat} {p : Nat} {l : List Byte} : Sound φ κ ρ (Sys2Proof.Machine.State.rxPacket s c p l) := by
  unfold Sys2Proof.Machine.State.rxPacket
  repeat' first
    | with_reducible assumption
    | with_reducible apply Sound.bump
    | with_reducible apply Sound.rxPath
    | with_reducible apply Sound.rxMerge
    | with_reducible apply Sound.ite
    | fail_if_no_progress with_reducible apply Sound.keep
    | (intro _ _ _)
    | (intro _ _)
    | split
    | dsimp only

theorem Sound.rxStart (h : Sound φ κ ρ s) {c : Nat} : Sound φ κ ρ (Sys2Proof.Machine.State.rxStart s c) := by
  unfold Sys2Proof.Machine.State.rxStart
  repeat' first
    | with_reducible assumption
    | with_reducible apply Sound.setRx
    | with_reducible apply Sound.usePair
    | with_reducible apply Sound.rxGo
    | fail_if_no_progress with_reducible apply Sound.keep
    | (intro _ _ _)
    | (intro _ _)
    | split
    | dsimp only

theorem Sound.txStartGo (h : Sound φ κ ρ s) {c : Nat} : Sound φ κ ρ (Sys2Proof.Machine.State.txStartGo s c) := by
  unfold Sys2Proof.Machine.State.txStartGo
  repeat' first
    | with_reducible assumption
    | with_reducible apply Sound.wr
    | with_reducible apply Sound.draw
    | with_reducible apply Sound.setTx
    | with_reducible apply Sound.usePair
    | with_reducible apply Sound.txGo
    | fail_if_no_progress with_reducible apply Sound.keep
    | (intro _ _ _)
    | (intro _ _)
    | split
    | dsimp only

theorem Sound.rxRequest (h : Sound φ κ ρ s) {c : Nat} : Sound φ κ ρ (Sys2Proof.Machine.State.rxRequest s c) := by
  unfold Sys2Proof.Machine.State.rxRequest
  repeat' first
    | with_reducible assumption
    | with_reducible apply Sound.rxStart
    | with_reducible apply Sound.ite
    | fail_if_no_progress with_reducible apply Sound.keep
    | (intro _ _ _)
    | (intro _ _)
    | split
    | dsimp only

theorem Sound.txRequest (h : Sound φ κ ρ s) {c : Nat} : Sound φ κ ρ (Sys2Proof.Machine.State.txRequest s c) := by
  unfold Sys2Proof.Machine.State.txRequest
  repeat' first
    | with_reducible assumption
    | with_reducible apply Sound.txStartGo
    | with_reducible apply Sound.ite
    | fail_if_no_progress with_reducible apply Sound.keep
    | (intro _ _ _)
    | (intro _ _)
    | split
    | dsimp only

theorem Sound.applyRxCtrl (h : Sound φ κ ρ s) {c : Nat} {old : Nat} {n : Nat} : Sound φ κ ρ (Sys2Proof.Machine.applyRxCtrl s c old n) := by
  unfold Sys2Proof.Machine.applyRxCtrl
  repeat' first
    | with_reducible assumption
    | with_reducible apply Sound.bump
    | with_reducible apply Sound.rxGo
    | with_reducible apply Sound.rxOff
    | with_reducible apply Sound.rxStart
    | with_reducible apply Sound.ite
    | fail_if_no_progress with_reducible apply Sound.keep
    | (intro _ _ _)
    | (intro _ _)
    | split
    | dsimp only

theorem Sound.applyTxCtrl (h : Sound φ κ ρ s) {c : Nat} {n : Nat} : Sound φ κ ρ (Sys2Proof.Machine.applyTxCtrl s c n) := by
  unfold Sys2Proof.Machine.applyTxCtrl
  repeat' first
    | with_reducible assumption
    | with_reducible apply Sound.setTx
    | with_reducible apply Sound.txGo
    | with_reducible apply Sound.txStartGo
    | with_reducible apply Sound.ite
    | fail_if_no_progress with_reducible apply Sound.keep
    | (intro _ _ _)
    | (intro _ _)
    | split
    | dsimp only

theorem Sound.applyRxTiming (h : Sound φ κ ρ s) {c : Nat} {old : Nat} {n : Nat} : Sound φ κ ρ (Sys2Proof.Machine.applyRxTiming s c old n) := by
  unfold Sys2Proof.Machine.applyRxTiming
  repeat' first
    | with_reducible assumption
    | with_reducible apply Sound.setRx
    | with_reducible apply Sound.ite
    | fail_if_no_progress with_reducible apply Sound.keep
    | (intro _ _ _)
    | (intro _ _)
    | split
    | dsimp only

theorem Sound.txPacket (h : Sound φ κ ρ s) {c : Nat} {start : Nat} {smp : List (List Nat)} : Sound φ κ ρ (Sys2Proof.Machine.State.txPacket s c start smp) := by
  unfold Sys2Proof.Machine.State.txPacket
  repeat' first
    | with_reducible assumption
    | with_reducible apply Sound.wr
    | with_reducible apply Sound.bump
    | with_reducible apply Sound.units
    | with_reducible apply Sound.enqueue
    | with_reducible apply Sound.rxPacket
    | with_reducible apply Sound.ite
    | fail_if_no_progress with_reducible apply Sound.keep
    | (intro _ _ _)
    | (intro _ _)
    | split
    | dsimp only

theorem Sound.txLaunch (h : Sound φ κ ρ s) {c : Nat} {k : Nat} : Sound φ κ ρ (Sys2Proof.Machine.State.txLaunch s c k) := by
  unfold Sys2Proof.Machine.State.txLaunch
  repeat' first
    | with_reducible assumption
    | with_reducible apply Sound.bump
    | with_reducible apply Sound.setTx
    | with_reducible apply Sound.txGo
    | with_reducible apply Sound.txPacket
    | with_reducible apply Sound.ite
    | fail_if_no_progress with_reducible apply Sound.keep
    | (intro _ _ _)
    | (intro _ _)
    | split
    | dsimp only

theorem Sound.streamLaunch (h : Sound φ κ ρ s) {d : Nat} : Sound φ κ ρ (Sys2Proof.Machine.State.streamLaunch s d) := by
  unfold Sys2Proof.Machine.State.streamLaunch
  repeat' first
    | with_reducible assumption
    | with_reducible apply Sound.units
    | with_reducible apply Sound.txLaunch
    | with_reducible apply Sound.ite
    | fail_if_no_progress with_reducible apply Sound.keep
    | (intro _ _ _)
    | (intro _ _)
    | split
    | dsimp only

end Sys2Proof.Machine
end

