-- ==== Sys2Proof/Laws/SoundAsrc.lean ====
section
/-! SUPPORT. What every command keeps: the functions of Machine/Asrc.lean. -/

namespace Sys2Proof.Machine

set_option linter.unusedTactic false
set_option linter.unreachableTactic false

variable {φ : Fuses} {κ : List Instr} {ρ : Nat} {s : State}

theorem Sound.setConv (h : Sound φ κ ρ s) {c : Nat} {x : Asrc} : Sound φ κ ρ (Sys2Proof.Machine.State.setConv s c x) := by
  unfold Sys2Proof.Machine.State.setConv
  repeat' first
    | with_reducible assumption
    | with_reducible apply Sound.put
    | fail_if_no_progress with_reducible apply Sound.keep
    | (intro _ _ _)
    | (intro _ _)
    | split
    | dsimp only

theorem Sound.convGo (h : Sound φ κ ρ s) {c : Nat} {new : Nat} : Sound φ κ ρ (Sys2Proof.Machine.State.convGo s c new) := by
  unfold Sys2Proof.Machine.State.convGo
  repeat' first
    | with_reducible assumption
    | with_reducible apply Sound.wr
    | with_reducible apply Sound.post
    | with_reducible apply Sound.setConv
    | with_reducible apply Sound.ite
    | fail_if_no_progress with_reducible apply Sound.keep
    | (intro _ _ _)
    | (intro _ _)
    | split
    | dsimp only

theorem Sound.convAcquire (h : Sound φ κ ρ s) {c : Nat} {cause : Nat} : Sound φ κ ρ (Sys2Proof.Machine.State.convAcquire s c cause) := by
  unfold Sys2Proof.Machine.State.convAcquire
  repeat' first
    | with_reducible assumption
    | with_reducible apply Sound.wr
    | with_reducible apply Sound.bump
    | with_reducible apply Sound.bumpIf
    | with_reducible apply Sound.setConv
    | with_reducible apply Sound.convGo
    | fail_if_no_progress with_reducible apply Sound.keep
    | (intro _ _ _)
    | (intro _ _)
    | split
    | dsimp only

theorem Sound.convOff (h : Sound φ κ ρ s) {c : Nat} : Sound φ κ ρ (Sys2Proof.Machine.State.convOff s c) := by
  unfold Sys2Proof.Machine.State.convOff
  repeat' first
    | with_reducible assumption
    | with_reducible apply Sound.put
    | with_reducible apply Sound.wr
    | with_reducible apply Sound.setConv
    | with_reducible apply Sound.convGo
    | fail_if_no_progress with_reducible apply Sound.keep
    | (intro _ _ _)
    | (intro _ _)
    | split
    | dsimp only

theorem Sound.putRatio (h : Sound φ κ ρ s) {c : Nat} {r : Nat} : Sound φ κ ρ (Sys2Proof.Machine.State.putRatio s c r) := by
  unfold Sys2Proof.Machine.State.putRatio
  repeat' first
    | with_reducible assumption
    | with_reducible apply Sound.wr
    | fail_if_no_progress with_reducible apply Sound.keep
    | (intro _ _ _)
    | (intro _ _)
    | split
    | dsimp only

theorem Sound.convTrack (h : Sound φ κ ρ s) {c : Nat} : Sound φ κ ρ (Sys2Proof.Machine.State.convTrack s c) := by
  unfold Sys2Proof.Machine.State.convTrack
  repeat' first
    | with_reducible assumption
    | with_reducible apply Sound.setConv
    | with_reducible apply Sound.convAcquire
    | with_reducible apply Sound.putRatio
    | with_reducible apply Sound.ite
    | fail_if_no_progress with_reducible apply Sound.keep
    | (intro _ _ _)
    | (intro _ _)
    | split
    | dsimp only

theorem Sound.convSteps (h : Sound φ κ ρ s) {c : Nat} {kind : Fld} : Sound φ κ ρ (Sys2Proof.Machine.State.convSteps s c kind) := by
  unfold Sys2Proof.Machine.State.convSteps
  repeat' first
    | with_reducible assumption
    | with_reducible apply Sound.bump
    | with_reducible apply Sound.setConv
    | with_reducible apply Sound.ite
    | fail_if_no_progress with_reducible apply Sound.keep
    | (intro _ _ _)
    | (intro _ _)
    | split
    | dsimp only

theorem Sound.convInEdge (h : Sound φ κ ρ s) {c : Nat} {q : Nat} : Sound φ κ ρ (Sys2Proof.Machine.State.convInEdge s c q) := by
  unfold Sys2Proof.Machine.State.convInEdge
  repeat' first
    | with_reducible assumption
    | with_reducible apply Sound.setConv
    | with_reducible apply Sound.convTrack
    | with_reducible apply Sound.convSteps
    | with_reducible apply Sound.ite
    | fail_if_no_progress with_reducible apply Sound.keep
    | (intro _ _ _)
    | (intro _ _)
    | split
    | dsimp only

theorem Sound.convMove (h : Sound φ κ ρ s) {c : Nat} {q : Nat} : Sound φ κ ρ (Sys2Proof.Machine.State.convMove s c q) := by
  unfold Sys2Proof.Machine.State.convMove
  repeat' first
    | with_reducible assumption
    | with_reducible apply Sound.setConv
    | with_reducible apply Sound.convGo
    | with_reducible apply Sound.convAcquire
    | with_reducible apply Sound.ite
    | fail_if_no_progress with_reducible apply Sound.keep
    | (intro _ _ _)
    | (intro _ _)
    | split
    | dsimp only

theorem Sound.convOutEdge (h : Sound φ κ ρ s) {c : Nat} {q : Nat} : Sound φ κ ρ (Sys2Proof.Machine.State.convOutEdge s c q) := by
  unfold Sys2Proof.Machine.State.convOutEdge
  repeat' first
    | with_reducible assumption
    | with_reducible apply Sound.setConv
    | with_reducible apply Sound.convTrack
    | with_reducible apply Sound.convSteps
    | with_reducible apply Sound.convMove
    | with_reducible apply Sound.ite
    | fail_if_no_progress with_reducible apply Sound.keep
    | (intro _ _ _)
    | (intro _ _)
    | split
    | dsimp only

theorem Sound.convInput (h : Sound φ κ ρ s) {c : Nat} {q : Nat} {smp : List Nat} : Sound φ κ ρ (Sys2Proof.Machine.State.convInput s c q smp) := by
  unfold Sys2Proof.Machine.State.convInput
  repeat' first
    | with_reducible assumption
    | with_reducible apply Sound.setConv
    | with_reducible apply Sound.ite
    | fail_if_no_progress with_reducible apply Sound.keep
    | (intro _ _ _)
    | (intro _ _)
    | split
    | dsimp only

theorem Sound.convSample (h : Sound φ κ ρ s) {c : Nat} : Sound φ κ ρ (Sys2Proof.Machine.State.convSample s c) := by
  unfold Sys2Proof.Machine.State.convSample
  repeat' first
    | with_reducible assumption
    | with_reducible apply Sound.setConv
    | with_reducible apply Sound.ite
    | fail_if_no_progress with_reducible apply Sound.keep
    | (intro _ _ _)
    | (intro _ _)
    | split
    | dsimp only

theorem Sound.convOutput (h : Sound φ κ ρ s) {c : Nat} {q : Nat} {late : Bool} : Sound φ κ ρ (Sys2Proof.Machine.State.convOutput s c q late) := by
  unfold Sys2Proof.Machine.State.convOutput
  repeat' first
    | with_reducible assumption
    | with_reducible apply Sound.convOutEdge
    | with_reducible apply Sound.convSample
    | with_reducible apply Sound.ite
    | fail_if_no_progress with_reducible apply Sound.keep
    | (intro _ _ _)
    | (intro _ _)
    | split
    | dsimp only

theorem Sound.execAsrcAcquireDone (h : Sound φ κ ρ s) {c : Nat} {_ratio : Nat} {_phi : Nat} : ∃ τ, Sys2Proof.Machine.execAsrcAcquireDone c _ratio _phi s = .next τ ∧ Sound φ κ ρ τ := by
  refine ⟨_, rfl, ?_⟩
  repeat' first
    | with_reducible assumption
    | with_reducible apply Sound.wr
    | with_reducible apply Sound.setConv
    | with_reducible apply Sound.convGo
    | with_reducible apply Sound.convAcquire
    | with_reducible apply Sound.putRatio
    | with_reducible apply Sound.ite
    | fail_if_no_progress with_reducible apply Sound.keep
    | (intro _ _ _)
    | (intro _ _)
    | split
    | dsimp only

theorem Sound.execAsrcNarrow (h : Sound φ κ ρ s) {c : Nat} : ∃ τ, Sys2Proof.Machine.execAsrcNarrow c s = .next τ ∧ Sound φ κ ρ τ := by
  refine ⟨_, rfl, ?_⟩
  repeat' first
    | with_reducible assumption
    | with_reducible apply Sound.wr
    | with_reducible apply Sound.advance
    | with_reducible apply Sound.ite
    | fail_if_no_progress with_reducible apply Sound.keep
    | (intro _ _ _)
    | (intro _ _)
    | split
    | dsimp only

theorem Sound.execAsrcLock (h : Sound φ κ ρ s) {c : Nat} : ∃ τ, Sys2Proof.Machine.execAsrcLock c s = .next τ ∧ Sound φ κ ρ τ := by
  refine ⟨_, rfl, ?_⟩
  repeat' first
    | with_reducible assumption
    | with_reducible apply Sound.advance
    | with_reducible apply Sound.convGo
    | with_reducible apply Sound.ite
    | fail_if_no_progress with_reducible apply Sound.keep
    | (intro _ _ _)
    | (intro _ _)
    | split
    | dsimp only

theorem Sound.execAsrcEdgeTimeout (h : Sound φ κ ρ s) {c : Nat} {out : Bool} : ∃ τ, Sys2Proof.Machine.execAsrcEdgeTimeout c out s = .next τ ∧ Sound φ κ ρ τ := by
  refine ⟨_, rfl, ?_⟩
  repeat' first
    | with_reducible assumption
    | with_reducible apply Sound.advance
    | with_reducible apply Sound.convAcquire
    | with_reducible apply Sound.ite
    | fail_if_no_progress with_reducible apply Sound.keep
    | (intro _ _ _)
    | (intro _ _)
    | split
    | dsimp only

theorem Sound.execAsrcEventWindowEnd (h : Sound φ κ ρ s) {c : Nat} : ∃ τ, Sys2Proof.Machine.execAsrcEventWindowEnd c s = .next τ ∧ Sound φ κ ρ τ := by
  refine ⟨_, rfl, ?_⟩
  repeat' first
    | with_reducible assumption
    | with_reducible apply Sound.post
    | with_reducible apply Sound.setConv
    | with_reducible apply Sound.ite
    | fail_if_no_progress with_reducible apply Sound.keep
    | (intro _ _ _)
    | (intro _ _)
    | split
    | dsimp only

theorem Sound.convEdges (h : Sound φ κ ρ s) {d : Nat} {q : Nat} {late : List Nat} : Sound φ κ ρ (Sys2Proof.Machine.State.convEdges s d q late) := by
  unfold Sys2Proof.Machine.State.convEdges
  repeat' first
    | with_reducible assumption
    | with_reducible apply Sound.units
    | with_reducible apply Sound.convInEdge
    | with_reducible apply Sound.convOutput
    | with_reducible apply Sound.ite
    | fail_if_no_progress with_reducible apply Sound.keep
    | (intro _ _ _)
    | (intro _ _)
    | split
    | dsimp only

theorem Sound.convInputs (h : Sound φ κ ρ s) {d : Nat} {q : Nat} : Sound φ κ ρ (Sys2Proof.Machine.State.convInputs s d q) := by
  unfold Sys2Proof.Machine.State.convInputs
  repeat' first
    | with_reducible assumption
    | with_reducible apply Sound.units
    | with_reducible apply Sound.convInput
    | with_reducible apply Sound.ite
    | fail_if_no_progress with_reducible apply Sound.keep
    | (intro _ _ _)
    | (intro _ _)
    | split
    | dsimp only

theorem Sound.applyAsrcCfg (h : Sound φ κ ρ s) {c : Nat} : Sound φ κ ρ (Sys2Proof.Machine.applyAsrcCfg s c) := by
  unfold Sys2Proof.Machine.applyAsrcCfg
  repeat' first
    | with_reducible assumption
    | with_reducible apply Sound.convAcquire
    | with_reducible apply Sound.convOff
    | with_reducible apply Sound.ite
    | fail_if_no_progress with_reducible apply Sound.keep
    | (intro _ _ _)
    | (intro _ _)
    | split
    | dsimp only

end Sys2Proof.Machine
end

