-- ==== Sys2Proof/Laws/SoundCellar.lean ====
section
/-! SUPPORT. What every command keeps: the functions of Machine/Cellar.lean. -/

namespace Sys2Proof.Machine

set_option linter.unusedTactic false
set_option linter.unreachableTactic false

variable {φ : Fuses} {κ : List Instr} {ρ : Nat} {s : State}

theorem Sound.setGuarded (h : Sound φ κ ρ s) {r : Nat} {x : Guarded} : Sound φ κ ρ (Sys2Proof.Machine.State.setGuarded s r x) := by
  unfold Sys2Proof.Machine.State.setGuarded
  repeat' first
    | with_reducible assumption
    | with_reducible apply Sound.put
    | fail_if_no_progress with_reducible apply Sound.keep
    | (intro _ _ _)
    | (intro _ _)
    | split
    | dsimp only

theorem Sound.applyDlyCfg (h : Sound φ κ ρ s) {k : Nat} {old : Nat} : Sound φ κ ρ (Sys2Proof.Machine.applyDlyCfg s k old) := by
  unfold Sys2Proof.Machine.applyDlyCfg
  repeat' first
    | with_reducible assumption
    | with_reducible apply Sound.put
    | with_reducible apply Sound.ite
    | fail_if_no_progress with_reducible apply Sound.keep
    | (intro _ _ _)
    | (intro _ _)
    | split
    | dsimp only

theorem Sound.delay (h : Sound φ κ ρ s) {k : Nat} {v : Nat × Option Nat} : Sound φ κ ρ (s.delay k v).2 := h.keep

theorem Sound.recNote (h : Sound φ κ ρ s) : Sound φ κ ρ (Sys2Proof.Machine.State.recNote s) := by
  unfold Sys2Proof.Machine.State.recNote
  repeat' first
    | with_reducible assumption
    | with_reducible apply Sound.put
    | with_reducible apply Sound.wr
    | fail_if_no_progress with_reducible apply Sound.keep
    | (intro _ _ _)
    | (intro _ _)
    | split
    | dsimp only

theorem Sound.applyRecCfg (h : Sound φ κ ρ s) {old : Nat} : Sound φ κ ρ (Sys2Proof.Machine.applyRecCfg s old) := by
  unfold Sys2Proof.Machine.applyRecCfg
  repeat' first
    | with_reducible assumption
    | with_reducible apply Sound.wr
    | with_reducible apply Sound.units
    | with_reducible apply Sound.setTick
    | with_reducible apply Sound.recNote
    | with_reducible apply Sound.ite
    | fail_if_no_progress with_reducible apply Sound.keep
    | (intro _ _ _)
    | (intro _ _)
    | split
    | dsimp only

theorem Sound.recTick (h : Sound φ κ ρ s) {n : Nat} {vals : Option (List Nat)} : Sound φ κ ρ (Sys2Proof.Machine.State.recTick s n vals) := by
  unfold Sys2Proof.Machine.State.recTick
  repeat' first
    | with_reducible assumption
    | with_reducible apply Sound.wr
    | with_reducible apply Sound.draw
    | with_reducible apply Sound.recNote
    | with_reducible apply Sound.ite
    | fail_if_no_progress with_reducible apply Sound.keep
    | (intro _ _ _)
    | (intro _ _)
    | split
    | dsimp only

theorem Sound.execRecDone (h : Sound φ κ ρ s) : ∃ τ, Sys2Proof.Machine.execRecDone s = .next τ ∧ Sound φ κ ρ τ := by
  refine ⟨_, rfl, ?_⟩
  repeat' first
    | with_reducible assumption
    | with_reducible apply Sound.wr
    | with_reducible apply Sound.ite
    | fail_if_no_progress with_reducible apply Sound.keep
    | (intro _ _ _)
    | (intro _ _)
    | split
    | dsimp only

theorem Sound.ddrGo (h : Sound φ κ ρ s) {new : Nat} {step : Nat} : Sound φ κ ρ (Sys2Proof.Machine.State.ddrGo s new step) := by
  unfold Sys2Proof.Machine.State.ddrGo
  repeat' first
    | with_reducible assumption
    | with_reducible apply Sound.wr
    | with_reducible apply Sound.post
    | with_reducible apply Sound.ite
    | fail_if_no_progress with_reducible apply Sound.keep
    | (intro _ _ _)
    | (intro _ _)
    | split
    | dsimp only

theorem Sound.applyDdrCfg (h : Sound φ κ ρ s) : Sound φ κ ρ (Sys2Proof.Machine.applyDdrCfg s) := by
  unfold Sys2Proof.Machine.applyDdrCfg
  repeat' first
    | with_reducible assumption
    | with_reducible apply Sound.ddrGo
    | with_reducible apply Sound.ite
    | fail_if_no_progress with_reducible apply Sound.keep
    | (intro _ _ _)
    | (intro _ _)
    | split
    | dsimp only

theorem Sound.execDdrTrainingDone (h : Sound φ κ ρ s) {step : Nat} : ∃ τ, Sys2Proof.Machine.execDdrTrainingDone step s = .next τ ∧ Sound φ κ ρ τ := by
  refine ⟨_, rfl, ?_⟩
  repeat' first
    | with_reducible assumption
    | with_reducible apply Sound.ddrGo
    | with_reducible apply Sound.ite
    | fail_if_no_progress with_reducible apply Sound.keep
    | (intro _ _ _)
    | (intro _ _)
    | split
    | dsimp only

theorem Sound.execDdrMr4Poll (h : Sound φ κ ρ s) {mr4 : Nat} : ∃ τ, Sys2Proof.Machine.execDdrMr4Poll mr4 s = .next τ ∧ Sound φ κ ρ τ := by
  refine ⟨_, rfl, ?_⟩
  repeat' first
    | with_reducible assumption
    | with_reducible apply Sound.ite
    | fail_if_no_progress with_reducible apply Sound.keep
    | (intro _ _ _)
    | (intro _ _)
    | split
    | dsimp only

end Sys2Proof.Machine
end

