-- ==== Sys2Proof/Laws/SoundDeadline.lean ====
section
/-! SUPPORT. What every command keeps: the functions of Machine/Deadline.lean. -/

namespace Sys2Proof.Machine

set_option linter.unusedTactic false
set_option linter.unreachableTactic false

variable {φ : Fuses} {κ : List Instr} {ρ : Nat} {s : State}

theorem Sound.setDlHold (h : Sound φ κ ρ s) {d : Nat} {cause : Nat} {h : Hold} : Sound φ κ ρ (Sys2Proof.Machine.State.setDlHold s d cause h) := by
  unfold Sys2Proof.Machine.State.setDlHold
  repeat' first
    | with_reducible assumption
    | with_reducible apply Sound.put
    | fail_if_no_progress with_reducible apply Sound.keep
    | (intro _ _ _)
    | (intro _ _)
    | split
    | dsimp only

theorem Sound.dlPost (h : Sound φ κ ρ s) {d : Nat} {cause : Nat} {room : Nat} {count : Nat} {tick : Nat} : Sound φ κ ρ (Sys2Proof.Machine.State.dlPost s d cause room count tick) := by
  unfold Sys2Proof.Machine.State.dlPost
  repeat' first
    | with_reducible assumption
    | with_reducible apply Sound.post
    | fail_if_no_progress with_reducible apply Sound.keep
    | (intro _ _ _)
    | (intro _ _)
    | split
    | dsimp only

theorem Sound.dlLapse (h : Sound φ κ ρ s) {d : Nat} {cause : Nat} : Sound φ κ ρ (Sys2Proof.Machine.State.dlLapse s d cause) := by
  unfold Sys2Proof.Machine.State.dlLapse
  repeat' first
    | with_reducible assumption
    | with_reducible apply Sound.setDlHold
    | with_reducible apply Sound.dlPost
    | with_reducible apply Sound.ite
    | fail_if_no_progress with_reducible apply Sound.keep
    | (intro _ _ _)
    | (intro _ _)
    | split
    | dsimp only

theorem Sound.dlRestart (h : Sound φ κ ρ s) {d : Nat} : Sound φ κ ρ (Sys2Proof.Machine.State.dlRestart s d) := by
  unfold Sys2Proof.Machine.State.dlRestart
  repeat' first
    | with_reducible assumption
    | with_reducible apply Sound.units
    | with_reducible apply Sound.setDlHold
    | with_reducible apply Sound.ite
    | fail_if_no_progress with_reducible apply Sound.keep
    | (intro _ _ _)
    | (intro _ _)
    | split
    | dsimp only

theorem Sound.dlMiss (h : Sound φ κ ρ s) {d : Nat} {cause : Nat} {room : Nat} : Sound φ κ ρ (Sys2Proof.Machine.State.dlMiss s d cause room) := by
  unfold Sys2Proof.Machine.State.dlMiss
  repeat' first
    | with_reducible assumption
    | with_reducible apply Sound.wr
    | with_reducible apply Sound.bump
    | with_reducible apply Sound.setDlHold
    | with_reducible apply Sound.dlPost
    | with_reducible apply Sound.dlLapse
    | with_reducible apply Sound.ite
    | fail_if_no_progress with_reducible apply Sound.keep
    | (intro _ _ _)
    | (intro _ _)
    | split
    | dsimp only

theorem Sound.execDlHoldoffEnd (h : Sound φ κ ρ s) {d : Nat} {cause : Nat} : ∃ τ, Sys2Proof.Machine.execDlHoldoffEnd d cause s = .next τ ∧ Sound φ κ ρ τ := by
  refine ⟨_, rfl, ?_⟩
  repeat' first
    | with_reducible assumption
    | with_reducible apply Sound.dlLapse
    | fail_if_no_progress with_reducible apply Sound.keep
    | (intro _ _ _)
    | (intro _ _)
    | split
    | dsimp only

end Sys2Proof.Machine
end

