-- ==== Sys2Proof/Laws/SoundLetterbox.lean ====
section
/-! SUPPORT. What every command keeps: the functions of Machine/Letterbox.lean. -/

namespace Sys2Proof.Machine

set_option linter.unusedTactic false
set_option linter.unreachableTactic false

variable {φ : Fuses} {κ : List Instr} {ρ : Nat} {s : State}

theorem Sound.assembles (h : Sound φ κ ρ s) {l : Option (List (Nat × Bool))} : Sound φ κ ρ (s.assembles l) :=
  h.setLb (by simpa [Letterbox.ok] using h.lb)

theorem Sound.lbFlush (h : Sound φ κ ρ s) : Sound φ κ ρ s.lbFlush := by
  unfold Sys2Proof.Machine.State.lbFlush
  dsimp only
  split
  · exact Sound.setLb h.bump (by rw [Letterbox.ok_iff]; simp [lbWords])
  · exact Sound.setLb (Sound.bump (Sound.keep h)) (by rw [Letterbox.ok_iff]; simp [lbWords])

end Sys2Proof.Machine
end

