-- ==== Sys2Proof/Laws/SoundVolt.lean ====
section
/-! SUPPORT. What every command keeps: the functions of Machine/Volt.lean. -/

namespace Sys2Proof.Machine

set_option linter.unusedTactic false
set_option linter.unreachableTactic false

variable {φ : Fuses} {κ : List Instr} {ρ : Nat} {s : State}

theorem Sound.setHmWin (h : Sound φ κ ρ s) {k : Nat} {w : HmWin} : Sound φ κ ρ (Sys2Proof.Machine.State.setHmWin s k w) := by
  unfold Sys2Proof.Machine.State.setHmWin
  repeat' first
    | with_reducible assumption
    | with_reducible apply Sound.put
    | fail_if_no_progress with_reducible apply Sound.keep
    | (intro _ _ _)
    | (intro _ _)
    | split
    | dsimp only

theorem Sound.hmRestart (h : Sound φ κ ρ s) : Sound φ κ ρ (Sys2Proof.Machine.State.hmRestart s) := by
  unfold Sys2Proof.Machine.State.hmRestart
  repeat' first
    | with_reducible assumption
    | fail_if_no_progress with_reducible apply Sound.keep
    | (intro _ _ _)
    | (intro _ _)
    | split
    | dsimp only

theorem Sound.ceilCheck (h : Sound φ κ ρ s) : Sound φ κ ρ (Sys2Proof.Machine.State.ceilCheck s) := by
  unfold Sys2Proof.Machine.State.ceilCheck
  repeat' first
    | with_reducible assumption
    | with_reducible apply Sound.wr
    | with_reducible apply Sound.ite
    | fail_if_no_progress with_reducible apply Sound.keep
    | (intro _ _ _)
    | (intro _ _)
    | split
    | dsimp only

theorem Sound.vidDrive (h : Sound φ κ ρ s) : Sound φ κ ρ (Sys2Proof.Machine.State.vidDrive s) := by
  unfold Sys2Proof.Machine.State.vidDrive
  repeat' first
    | with_reducible assumption
    | with_reducible apply Sound.wr
    | with_reducible apply Sound.bump
    | with_reducible apply Sound.ceilCheck
    | with_reducible apply Sound.ite
    | fail_if_no_progress with_reducible apply Sound.keep
    | (intro _ _ _)
    | (intro _ _)
    | split
    | dsimp only

theorem Sound.idleArm (h : Sound φ κ ρ s) : Sound φ κ ρ (Sys2Proof.Machine.State.idleArm s) := by
  unfold Sys2Proof.Machine.State.idleArm
  repeat' first
    | with_reducible assumption
    | fail_if_no_progress with_reducible apply Sound.keep
    | (intro _ _ _)
    | (intro _ _)
    | split
    | dsimp only

theorem Sound.ceilStopped (h : Sound φ κ ρ s) {thermal : Bool} {isRoom : Bool} {who : Nat} {slack : Nat} : Sound φ κ ρ (Sys2Proof.Machine.State.ceilStopped s thermal isRoom who slack) := by
  unfold Sys2Proof.Machine.State.ceilStopped
  repeat' first
    | with_reducible assumption
    | with_reducible apply Sound.wr
    | with_reducible apply Sound.post
    | with_reducible apply Sound.ite
    | fail_if_no_progress with_reducible apply Sound.keep
    | (intro _ _ _)
    | (intro _ _)
    | split
    | dsimp only

theorem Sound.vidRaise (h : Sound φ κ ρ s) {k : Nat} {isRoom : Bool} {who : Nat} {slack : Nat} : Sound φ κ ρ (Sys2Proof.Machine.State.vidRaise s k isRoom who slack) := by
  unfold Sys2Proof.Machine.State.vidRaise
  repeat' first
    | with_reducible assumption
    | with_reducible apply Sound.vidDrive
    | with_reducible apply Sound.ceilStopped
    | with_reducible apply Sound.ite
    | fail_if_no_progress with_reducible apply Sound.keep
    | (intro _ _ _)
    | (intro _ _)
    | split
    | dsimp only

theorem Sound.vidLower (h : Sound φ κ ρ s) : Sound φ κ ρ (Sys2Proof.Machine.State.vidLower s) := by
  unfold Sys2Proof.Machine.State.vidLower
  repeat' first
    | with_reducible assumption
    | with_reducible apply Sound.wr
    | with_reducible apply Sound.vidDrive
    | with_reducible apply Sound.ite
    | fail_if_no_progress with_reducible apply Sound.keep
    | (intro _ _ _)
    | (intro _ _)
    | split
    | dsimp only

theorem Sound.raiseOver (h : Sound φ κ ρ s) {code : Nat} {isRoom : Bool} {who : Nat} : Sound φ κ ρ (Sys2Proof.Machine.State.raiseOver s code isRoom who) := by
  unfold Sys2Proof.Machine.State.raiseOver
  repeat' first
    | with_reducible assumption
    | with_reducible apply Sound.wr
    | with_reducible apply Sound.ceilCheck
    | with_reducible apply Sound.ceilStopped
    | with_reducible apply Sound.ite
    | fail_if_no_progress with_reducible apply Sound.keep
    | (intro _ _ _)
    | (intro _ _)
    | split
    | dsimp only

theorem Sound.lateRaise (h : Sound φ κ ρ s) {isRoom : Bool} {who : Nat} : Sound φ κ ρ (Sys2Proof.Machine.State.lateRaise s isRoom who) := by
  unfold Sys2Proof.Machine.State.lateRaise
  repeat' first
    | with_reducible assumption
    | with_reducible apply Sound.vidRaise
    | with_reducible apply Sound.raiseOver
    | with_reducible apply Sound.ite
    | fail_if_no_progress with_reducible apply Sound.keep
    | (intro _ _ _)
    | (intro _ _)
    | split
    | dsimp only

theorem Sound.hmFresh (h : Sound φ κ ρ s) {d : Nat} : Sound φ κ ρ (Sys2Proof.Machine.State.hmFresh s d) := by
  unfold Sys2Proof.Machine.State.hmFresh
  repeat' first
    | with_reducible assumption
    | fail_if_no_progress with_reducible apply Sound.keep
    | (intro _ _ _)
    | (intro _ _)
    | split
    | dsimp only

theorem Sound.atWindow (h : Sound φ κ ρ s) {f : State → State} (hf : ∀ t, Sound φ κ ρ t → Sound φ κ ρ (f t)) :
    Sound φ κ ρ (s.atWindow f) := by
  unfold Sys2Proof.Machine.State.atWindow
  dsimp only
  have hw : Sound φ κ ρ (f s) := hf s h
  repeat' first
    | exact hw
    | exact Sound.put (by assumption)
    | with_reducible apply Sound.put
    | split
    | apply hf
    | with_reducible assumption
    | fail_if_no_progress with_reducible apply Sound.keep

theorem Sound.windowAction (h : Sound φ κ ρ s) {d : Nat} {rooms : List Nat} {late : Bool} : Sound φ κ ρ (Sys2Proof.Machine.State.windowAction s d rooms late) := by
  unfold Sys2Proof.Machine.State.windowAction
  repeat' first
    | with_reducible assumption
    | with_reducible apply Sound.put
    | with_reducible apply Sound.vidRaise
    | with_reducible apply Sound.vidLower
    | with_reducible apply Sound.atWindow
    | with_reducible apply Sound.ite
    | fail_if_no_progress with_reducible apply Sound.keep
    | (intro _ _ _)
    | (intro _ _)
    | split
    | dsimp only

theorem Sound.windowEnd (h : Sound φ κ ρ s) {d : Nat} : Sound φ κ ρ (Sys2Proof.Machine.State.windowEnd s d) := by
  unfold Sys2Proof.Machine.State.windowEnd
  repeat' first
    | with_reducible assumption
    | with_reducible apply Sound.put
    | with_reducible apply Sound.each
    | with_reducible apply Sound.hmFresh
    | with_reducible apply Sound.windowAction
    | fail_if_no_progress with_reducible apply Sound.keep
    | (intro _ _ _)
    | (intro _ _)
    | split
    | dsimp only

theorem Sound.windowOver (h : Sound φ κ ρ s) {d : Nat} : Sound φ κ ρ (Sys2Proof.Machine.State.windowOver s d) := by
  unfold Sys2Proof.Machine.State.windowOver
  repeat' first
    | with_reducible assumption
    | with_reducible apply Sound.windowEnd
    | with_reducible apply Sound.ite
    | fail_if_no_progress with_reducible apply Sound.keep
    | (intro _ _ _)
    | (intro _ _)
    | split
    | dsimp only

theorem Sound.tickResult (h : Sound φ κ ρ s) {d : Nat} {slack : Nat} {late : Bool} : Sound φ κ ρ (Sys2Proof.Machine.State.tickResult s d slack late) := by
  unfold Sys2Proof.Machine.State.tickResult
  repeat' first
    | with_reducible assumption
    | with_reducible apply Sound.setHmWin
    | with_reducible apply Sound.lateRaise
    | with_reducible apply Sound.windowOver
    | with_reducible apply Sound.ite
    | fail_if_no_progress with_reducible apply Sound.keep
    | (intro _ _ _)
    | (intro _ _)
    | split
    | dsimp only

theorem Sound.blockWindow (h : Sound φ κ ρ s) {d : Nat} {r : Nat} {slack : Nat} {late : Bool} : Sound φ κ ρ (Sys2Proof.Machine.State.blockWindow s d r slack late) := by
  unfold Sys2Proof.Machine.State.blockWindow
  repeat' first
    | with_reducible assumption
    | with_reducible apply Sound.setHmWin
    | with_reducible apply Sound.ite
    | fail_if_no_progress with_reducible apply Sound.keep
    | (intro _ _ _)
    | (intro _ _)
    | split
    | dsimp only

theorem Sound.blockResult (h : Sound φ κ ρ s) {r : Nat} {slack : Nat} {late : Bool} : Sound φ κ ρ (Sys2Proof.Machine.State.blockResult s r slack late) := by
  unfold Sys2Proof.Machine.State.blockResult
  repeat' first
    | with_reducible assumption
    | with_reducible apply Sound.lateRaise
    | with_reducible apply Sound.blockWindow
    | with_reducible apply Sound.ite
    | fail_if_no_progress with_reducible apply Sound.keep
    | (intro _ _ _)
    | (intro _ _)
    | split
    | dsimp only

theorem Sound.vidReconfigure (h : Sound φ κ ρ s) : Sound φ κ ρ (Sys2Proof.Machine.State.vidReconfigure s) := by
  unfold Sys2Proof.Machine.State.vidReconfigure
  repeat' first
    | with_reducible assumption
    | with_reducible apply Sound.hmRestart
    | with_reducible apply Sound.ceilCheck
    | with_reducible apply Sound.ite
    | fail_if_no_progress with_reducible apply Sound.keep
    | (intro _ _ _)
    | (intro _ _)
    | split
    | dsimp only

theorem Sound.vidChanged (h : Sound φ κ ρ s) {e : Ent} {old : Nat} : Sound φ κ ρ (Sys2Proof.Machine.State.vidChanged s e old) := by
  unfold Sys2Proof.Machine.State.vidChanged
  repeat' first
    | with_reducible assumption
    | with_reducible apply Sound.vidDrive
    | with_reducible apply Sound.idleArm
    | with_reducible apply Sound.vidReconfigure
    | with_reducible apply Sound.ite
    | fail_if_no_progress with_reducible apply Sound.keep
    | (intro _ _ _)
    | (intro _ _)
    | split
    | dsimp only

theorem Sound.execHmWindowEnd (h : Sound φ κ ρ s) {d : Nat} : ∃ τ, Sys2Proof.Machine.execHmWindowEnd d s = .next τ ∧ Sound φ κ ρ τ := by
  refine ⟨_, rfl, ?_⟩
  repeat' first
    | with_reducible assumption
    | with_reducible apply Sound.windowEnd
    | with_reducible apply Sound.ite
    | fail_if_no_progress with_reducible apply Sound.keep
    | (intro _ _ _)
    | (intro _ _)
    | split
    | dsimp only

theorem Sound.execVidIdleLower (h : Sound φ κ ρ s) : ∃ τ, Sys2Proof.Machine.execVidIdleLower s = .next τ ∧ Sound φ κ ρ τ := by
  refine ⟨_, rfl, ?_⟩
  repeat' first
    | with_reducible assumption
    | with_reducible apply Sound.vidLower
    | with_reducible apply Sound.ite
    | fail_if_no_progress with_reducible apply Sound.keep
    | (intro _ _ _)
    | (intro _ _)
    | split
    | dsimp only

theorem Sound.execVidSettleEnd (h : Sound φ κ ρ s) : ∃ τ, Sys2Proof.Machine.execVidSettleEnd s = .next τ ∧ Sound φ κ ρ τ := by
  refine ⟨_, rfl, ?_⟩
  repeat' first
    | with_reducible assumption
    | with_reducible apply Sound.wr
    | with_reducible apply Sound.hmRestart
    | with_reducible apply Sound.vidDrive
    | with_reducible apply Sound.idleArm
    | with_reducible apply Sound.vidReconfigure
    | with_reducible apply Sound.ite
    | fail_if_no_progress with_reducible apply Sound.keep
    | (intro _ _ _)
    | (intro _ _)
    | split
    | dsimp only

theorem Sound.execPwrGoodChange (h : Sound φ κ ρ s) {high : Bool} : ∃ τ, Sys2Proof.Machine.execPwrGoodChange high s = .next τ ∧ Sound φ κ ρ τ := by
  refine ⟨_, rfl, ?_⟩
  repeat' first
    | with_reducible assumption
    | with_reducible apply Sound.vidDrive
    | with_reducible apply Sound.idleArm
    | with_reducible apply Sound.ite
    | fail_if_no_progress with_reducible apply Sound.keep
    | (intro _ _ _)
    | (intro _ _)
    | split
    | dsimp only

theorem Sound.execPwrGoodLost (h : Sound φ κ ρ s) : ∃ τ, Sys2Proof.Machine.execPwrGoodLost s = .next τ ∧ Sound φ κ ρ τ := by
  refine ⟨_, rfl, ?_⟩
  repeat' first
    | with_reducible assumption
    | with_reducible apply Sound.wr
    | with_reducible apply Sound.post
    | with_reducible apply Sound.ite
    | fail_if_no_progress with_reducible apply Sound.keep
    | (intro _ _ _)
    | (intro _ _)
    | split
    | dsimp only

theorem Sound.execPwrGoodResume (h : Sound φ κ ρ s) : ∃ τ, Sys2Proof.Machine.execPwrGoodResume s = .next τ ∧ Sound φ κ ρ τ := by
  refine ⟨_, rfl, ?_⟩
  repeat' first
    | with_reducible assumption
    | with_reducible apply Sound.vidDrive
    | with_reducible apply Sound.idleArm
    | with_reducible apply Sound.ite
    | fail_if_no_progress with_reducible apply Sound.keep
    | (intro _ _ _)
    | (intro _ _)
    | split
    | dsimp only

end Sys2Proof.Machine
end

