-- ==== Sys2Proof/Laws/SoundGuard.lean ====
section
/-! SUPPORT. What every command keeps: the functions of Machine/Guard.lean. -/

namespace Sys2Proof.Machine

set_option linter.unusedTactic false
set_option linter.unreachableTactic false

variable {φ : Fuses} {κ : List Instr} {ρ : Nat} {s : State}

theorem Sound.setRoom (h : Sound φ κ ρ s) {r : Nat} {x : Room} : Sound φ κ ρ (Sys2Proof.Machine.State.setRoom s r x) := by
  unfold Sys2Proof.Machine.State.setRoom
  repeat' first
    | with_reducible assumption
    | with_reducible apply Sound.put
    | fail_if_no_progress with_reducible apply Sound.keep
    | (intro _ _ _)
    | (intro _ _)
    | split
    | dsimp only

theorem Sound.setSlot (h : Sound φ κ ρ s) {k : Nat} {g : Guest} : Sound φ κ ρ (Sys2Proof.Machine.State.setSlot s k g) := by
  unfold Sys2Proof.Machine.State.setSlot
  repeat' first
    | with_reducible assumption
    | with_reducible apply Sound.put
    | fail_if_no_progress with_reducible apply Sound.keep
    | (intro _ _ _)
    | (intro _ _)
    | split
    | dsimp only

theorem Sound.setCore (h : Sound φ κ ρ s) {c : Nat} {x : CoreHealth} : Sound φ κ ρ (Sys2Proof.Machine.State.setCore s c x) := by
  unfold Sys2Proof.Machine.State.setCore
  repeat' first
    | with_reducible assumption
    | with_reducible apply Sound.put
    | fail_if_no_progress with_reducible apply Sound.keep
    | (intro _ _ _)
    | (intro _ _)
    | split
    | dsimp only

theorem Sound.bind (h : Sound φ κ ρ s) {r : Nat} {c : Nat} : Sound φ κ ρ (Sys2Proof.Machine.State.bind s r c) := by
  unfold Sys2Proof.Machine.State.bind
  repeat' first
    | with_reducible assumption
    | with_reducible apply Sound.setGuarded
    | with_reducible apply Sound.ite
    | fail_if_no_progress with_reducible apply Sound.keep
    | (intro _ _ _)
    | (intro _ _)
    | split
    | dsimp only

theorem Sound.guardNote (h : Sound φ κ ρ s) {r : Nat} {parity : Bool} {soft : Bool} : Sound φ κ ρ (Sys2Proof.Machine.State.guardNote s r parity soft) := by
  unfold Sys2Proof.Machine.State.guardNote
  repeat' first
    | with_reducible assumption
    | with_reducible apply Sound.post
    | with_reducible apply Sound.setGuarded
    | with_reducible apply Sound.ite
    | fail_if_no_progress with_reducible apply Sound.keep
    | (intro _ _ _)
    | (intro _ _)
    | split
    | dsimp only

theorem Sound.warmUp (h : Sound φ κ ρ s) {k : Nat} {r : Nat} : Sound φ κ ρ (Sys2Proof.Machine.State.warmUp s k r) := by
  unfold Sys2Proof.Machine.State.warmUp
  repeat' first
    | with_reducible assumption
    | with_reducible apply Sound.setSlot
    | fail_if_no_progress with_reducible apply Sound.keep
    | (intro _ _ _)
    | (intro _ _)
    | split
    | dsimp only

theorem Sound.seek (h : Sound φ κ ρ s) {k : Nat} : Sound φ κ ρ (Sys2Proof.Machine.State.seek s k) := by
  unfold Sys2Proof.Machine.State.seek
  repeat' first
    | with_reducible assumption
    | with_reducible apply Sound.warmUp
    | with_reducible apply Sound.ite
    | fail_if_no_progress with_reducible apply Sound.keep
    | (intro _ _ _)
    | (intro _ _)
    | split
    | dsimp only

theorem Sound.seekBoth (h : Sound φ κ ρ s) : Sound φ κ ρ (Sys2Proof.Machine.State.seekBoth s) := by
  unfold Sys2Proof.Machine.State.seekBoth
  repeat' first
    | with_reducible assumption
    | with_reducible apply Sound.seek
    | fail_if_no_progress with_reducible apply Sound.keep
    | (intro _ _ _)
    | (intro _ _)
    | split
    | dsimp only

theorem Sound.shadowEnd (h : Sound φ κ ρ s) {k : Nat} : Sound φ κ ρ (Sys2Proof.Machine.State.shadowEnd s k) := by
  unfold Sys2Proof.Machine.State.shadowEnd
  repeat' first
    | with_reducible assumption
    | with_reducible apply Sound.setGuarded
    | with_reducible apply Sound.setSlot
    | with_reducible apply Sound.guardNote
    | with_reducible apply Sound.ite
    | fail_if_no_progress with_reducible apply Sound.keep
    | (intro _ _ _)
    | (intro _ _)
    | split
    | dsimp only

theorem Sound.rewarm (h : Sound φ κ ρ s) {k : Nat} : Sound φ κ ρ (Sys2Proof.Machine.State.rewarm s k) := by
  unfold Sys2Proof.Machine.State.rewarm
  repeat' first
    | with_reducible assumption
    | with_reducible apply Sound.guardNote
    | with_reducible apply Sound.warmUp
    | with_reducible apply Sound.seek
    | with_reducible apply Sound.shadowEnd
    | with_reducible apply Sound.ite
    | fail_if_no_progress with_reducible apply Sound.keep
    | (intro _ _ _)
    | (intro _ _)
    | split
    | dsimp only

theorem Sound.guestLeave (h : Sound φ κ ρ s) {k : Nat} : Sound φ κ ρ (Sys2Proof.Machine.State.guestLeave s k) := by
  unfold Sys2Proof.Machine.State.guestLeave
  repeat' first
    | with_reducible assumption
    | with_reducible apply Sound.bumpIf
    | with_reducible apply Sound.rewarm
    | fail_if_no_progress with_reducible apply Sound.keep
    | (intro _ _ _)
    | (intro _ _)
    | split
    | dsimp only

theorem Sound.vacate (h : Sound φ κ ρ s) {k : Nat} : Sound φ κ ρ (Sys2Proof.Machine.State.vacate s k) := by
  unfold Sys2Proof.Machine.State.vacate
  repeat' first
    | with_reducible assumption
    | with_reducible apply Sound.setSlot
    | with_reducible apply Sound.shadowEnd
    | fail_if_no_progress with_reducible apply Sound.keep
    | (intro _ _ _)
    | (intro _ _)
    | split
    | dsimp only

theorem Sound.rebindNext (h : Sound φ κ ρ s) {r : Nat} : Sound φ κ ρ (Sys2Proof.Machine.State.rebindNext s r) := by
  unfold Sys2Proof.Machine.State.rebindNext
  repeat' first
    | with_reducible assumption
    | with_reducible apply Sound.setGuarded
    | with_reducible apply Sound.bind
    | with_reducible apply Sound.seekBoth
    | with_reducible apply Sound.vacate
    | fail_if_no_progress with_reducible apply Sound.keep
    | (intro _ _ _)
    | (intro _ _)
    | split
    | dsimp only

theorem Sound.roomGo (h : Sound φ κ ρ s) {r : Nat} {new : Nat} : Sound φ κ ρ (Sys2Proof.Machine.State.roomGo s r new) := by
  unfold Sys2Proof.Machine.State.roomGo
  repeat' first
    | with_reducible assumption
    | with_reducible apply Sound.wr
    | with_reducible apply Sound.post
    | with_reducible apply Sound.idleArm
    | with_reducible apply Sound.seekBoth
    | with_reducible apply Sound.guestLeave
    | with_reducible apply Sound.rebindNext
    | with_reducible apply Sound.ite
    | fail_if_no_progress with_reducible apply Sound.keep
    | (intro _ _ _)
    | (intro _ _)
    | split
    | dsimp only

theorem Sound.fence (h : Sound φ κ ρ s) {c : Nat} : Sound φ κ ρ (Sys2Proof.Machine.State.fence s c) := by
  unfold Sys2Proof.Machine.State.fence
  repeat' first
    | with_reducible assumption
    | with_reducible apply Sound.bump
    | with_reducible apply Sound.setCore
    | fail_if_no_progress with_reducible apply Sound.keep
    | (intro _ _ _)
    | (intro _ _)
    | split
    | dsimp only

theorem Sound.votePost (h : Sound φ κ ρ s) {r : Nat} {outcome : Nat} {fenced : Nat} {now : Nat} : Sound φ κ ρ (Sys2Proof.Machine.State.votePost s r outcome fenced now) := by
  unfold Sys2Proof.Machine.State.votePost
  repeat' first
    | with_reducible assumption
    | with_reducible apply Sound.post
    | fail_if_no_progress with_reducible apply Sound.keep
    | (intro _ _ _)
    | (intro _ _)
    | split
    | dsimp only

theorem Sound.takeover (h : Sound φ κ ρ s) {r : Nat} {k : Nat} {outcome : Nat} : Sound φ κ ρ (Sys2Proof.Machine.State.takeover s r k outcome) := by
  unfold Sys2Proof.Machine.State.takeover
  repeat' first
    | with_reducible assumption
    | with_reducible apply Sound.bump
    | with_reducible apply Sound.setGuarded
    | with_reducible apply Sound.fence
    | with_reducible apply Sound.votePost
    | fail_if_no_progress with_reducible apply Sound.keep
    | (intro _ _ _)
    | (intro _ _)
    | split
    | dsimp only

theorem Sound.rotate (h : Sound φ κ ρ s) {r : Nat} : Sound φ κ ρ (Sys2Proof.Machine.State.rotate s r) := by
  unfold Sys2Proof.Machine.State.rotate
  repeat' first
    | with_reducible assumption
    | with_reducible apply Sound.bump
    | with_reducible apply Sound.post
    | with_reducible apply Sound.setSlot
    | with_reducible apply Sound.setCore
    | with_reducible apply Sound.bind
    | with_reducible apply Sound.seekBoth
    | with_reducible apply Sound.shadowEnd
    | with_reducible apply Sound.ite
    | fail_if_no_progress with_reducible apply Sound.keep
    | (intro _ _ _)
    | (intro _ _)
    | split
    | dsimp only

theorem Sound.roomFault (h : Sound φ κ ρ s) {r : Nat} : Sound φ κ ρ (Sys2Proof.Machine.State.roomFault s r) := by
  unfold Sys2Proof.Machine.State.roomFault
  repeat' first
    | with_reducible assumption
    | with_reducible apply Sound.wr
    | with_reducible apply Sound.bump
    | with_reducible apply Sound.post
    | with_reducible apply Sound.setGuarded
    | with_reducible apply Sound.setRoom
    | with_reducible apply Sound.rebindNext
    | with_reducible apply Sound.roomGo
    | with_reducible apply Sound.ite
    | fail_if_no_progress with_reducible apply Sound.keep
    | (intro _ _ _)
    | (intro _ _)
    | split
    | dsimp only

theorem Sound.bumpRoom (h : Sound φ κ ρ s) {r : Nat} {f : Nat → Fld} : Sound φ κ ρ (Sys2Proof.Machine.State.bumpRoom s r f) := by
  unfold Sys2Proof.Machine.State.bumpRoom
  repeat' first
    | with_reducible assumption
    | with_reducible apply Sound.bump
    | fail_if_no_progress with_reducible apply Sound.keep
    | (intro _ _ _)
    | (intro _ _)
    | split
    | dsimp only

theorem Sound.refit (h : Sound φ κ ρ s) : Sound φ κ ρ (Sys2Proof.Machine.State.refit s) := by
  unfold Sys2Proof.Machine.State.refit
  repeat' first
    | with_reducible assumption
    | with_reducible apply Sound.each
    | with_reducible apply Sound.bind
    | with_reducible apply Sound.vacate
    | fail_if_no_progress with_reducible apply Sound.keep
    | (intro _ _ _)
    | (intro _ _)
    | split
    | dsimp only

theorem Sound.mismatch (h : Sound φ κ ρ s) {r : Nat} {k : Nat} {copied : Bool} {both : Bool} : Sound φ κ ρ (Sys2Proof.Machine.State.mismatch s r k copied both) := by
  unfold Sys2Proof.Machine.State.mismatch
  repeat' first
    | with_reducible assumption
    | with_reducible apply Sound.bump
    | with_reducible apply Sound.post
    | with_reducible apply Sound.setGuarded
    | with_reducible apply Sound.setSlot
    | with_reducible apply Sound.guardNote
    | with_reducible apply Sound.shadowEnd
    | with_reducible apply Sound.rewarm
    | with_reducible apply Sound.votePost
    | with_reducible apply Sound.ite
    | fail_if_no_progress with_reducible apply Sound.keep
    | (intro _ _ _)
    | (intro _ _)
    | split
    | dsimp only

theorem Sound.restoreTake (h : Sound φ κ ρ s) {r : Nat} : Sound φ κ ρ (Sys2Proof.Machine.State.restoreTake s r) := by
  unfold Sys2Proof.Machine.State.restoreTake
  repeat' first
    | with_reducible assumption
    | with_reducible apply Sound.setGuarded
    | with_reducible apply Sound.setSlot
    | with_reducible apply Sound.setCore
    | with_reducible apply Sound.seekBoth
    | with_reducible apply Sound.shadowEnd
    | with_reducible apply Sound.roomFault
    | with_reducible apply Sound.ite
    | fail_if_no_progress with_reducible apply Sound.keep
    | (intro _ _ _)
    | (intro _ _)
    | split
    | dsimp only

theorem Sound.restoreStart (h : Sound φ κ ρ s) {r : Nat} : Sound φ κ ρ (Sys2Proof.Machine.State.restoreStart s r) := by
  unfold Sys2Proof.Machine.State.restoreStart
  repeat' first
    | with_reducible assumption
    | with_reducible apply Sound.setRoom
    | with_reducible apply Sound.restoreTake
    | fail_if_no_progress with_reducible apply Sound.keep
    | (intro _ _ _)
    | (intro _ _)
    | split
    | dsimp only

theorem Sound.restoreWaiting (h : Sound φ κ ρ s) : Sound φ κ ρ (Sys2Proof.Machine.State.restoreWaiting s) := by
  unfold Sys2Proof.Machine.State.restoreWaiting
  repeat' first
    | with_reducible assumption
    | with_reducible apply Sound.each
    | with_reducible apply Sound.restoreTake
    | with_reducible apply Sound.ite
    | fail_if_no_progress with_reducible apply Sound.keep
    | (intro _ _ _)
    | (intro _ _)
    | split
    | dsimp only

theorem Sound.voteEnd (h : Sound φ κ ρ s) {v : Vote} {agree : Nat} : Sound φ κ ρ (Sys2Proof.Machine.State.voteEnd s v agree) := by
  unfold Sys2Proof.Machine.State.voteEnd
  repeat' first
    | with_reducible assumption
    | with_reducible apply Sound.bump
    | with_reducible apply Sound.setGuarded
    | with_reducible apply Sound.setSlot
    | with_reducible apply Sound.seekBoth
    | with_reducible apply Sound.rewarm
    | with_reducible apply Sound.vacate
    | with_reducible apply Sound.rebindNext
    | with_reducible apply Sound.fence
    | with_reducible apply Sound.votePost
    | with_reducible apply Sound.takeover
    | with_reducible apply Sound.refit
    | with_reducible apply Sound.restoreWaiting
    | with_reducible apply Sound.ite
    | fail_if_no_progress with_reducible apply Sound.keep
    | (intro _ _ _)
    | (intro _ _)
    | split
    | dsimp only

theorem Sound.execVoteDone (h : Sound φ κ ρ s) {r : Nat} {agree : Nat} : ∃ τ, Sys2Proof.Machine.execVoteDone r agree s = .next τ ∧ Sound φ κ ρ τ := by
  refine ⟨_, rfl, ?_⟩
  repeat' first
    | with_reducible assumption
    | with_reducible apply Sound.together
    | with_reducible apply Sound.voteEnd
    | with_reducible apply Sound.ite
    | fail_if_no_progress with_reducible apply Sound.keep
    | (intro _ _ _)
    | (intro _ _)
    | split
    | dsimp only

theorem Sound.parityRoom (h : Sound φ κ ρ s) {r : Nat} {space : Nat} {addr : Nat} {flip : Nat} : Sound φ κ ρ (Sys2Proof.Machine.State.parityRoom s r space addr flip) := by
  unfold Sys2Proof.Machine.State.parityRoom
  repeat' first
    | with_reducible assumption
    | with_reducible apply Sound.setRoom
    | with_reducible apply Sound.setSlot
    | with_reducible apply Sound.guardNote
    | with_reducible apply Sound.seekBoth
    | with_reducible apply Sound.takeover
    | with_reducible apply Sound.restoreStart
    | with_reducible apply Sound.restoreWaiting
    | with_reducible apply Sound.ite
    | fail_if_no_progress with_reducible apply Sound.keep
    | (intro _ _ _)
    | (intro _ _)
    | split
    | dsimp only

theorem Sound.execParityError (h : Sound φ κ ρ s) {c : Nat} {space : Nat} {addr : Nat} {flip : Nat} : ∃ τ, Sys2Proof.Machine.execParityError c space addr flip s = .next τ ∧ Sound φ κ ρ τ := by
  refine ⟨_, rfl, ?_⟩
  repeat' first
    | with_reducible assumption
    | with_reducible apply Sound.bump
    | with_reducible apply Sound.together
    | with_reducible apply Sound.guestLeave
    | with_reducible apply Sound.parityRoom
    | with_reducible apply Sound.ite
    | fail_if_no_progress with_reducible apply Sound.keep
    | (intro _ _ _)
    | (intro _ _)
    | split
    | dsimp only

theorem Sound.execGuestWarmupDone (h : Sound φ κ ρ s) {k : Nat} : ∃ τ, Sys2Proof.Machine.execGuestWarmupDone k s = .next τ ∧ Sound φ κ ρ τ := by
  refine ⟨_, rfl, ?_⟩
  repeat' first
    | with_reducible assumption
    | with_reducible apply Sound.setSlot
    | with_reducible apply Sound.ite
    | fail_if_no_progress with_reducible apply Sound.keep
    | (intro _ _ _)
    | (intro _ _)
    | split
    | dsimp only

theorem Sound.selftest (h : Sound φ κ ρ s) {c : Nat} : Sound φ κ ρ (Sys2Proof.Machine.State.selftest s c) := by
  unfold Sys2Proof.Machine.State.selftest
  repeat' first
    | with_reducible assumption
    | with_reducible apply Sound.setCore
    | fail_if_no_progress with_reducible apply Sound.keep
    | (intro _ _ _)
    | (intro _ _)
    | split
    | dsimp only

theorem Sound.execRotatePeriodExpiry (h : Sound φ κ ρ s) : ∃ τ, Sys2Proof.Machine.execRotatePeriodExpiry s = .next τ ∧ Sound φ κ ρ τ := by
  refine ⟨_, rfl, ?_⟩
  repeat' first
    | with_reducible assumption
    | with_reducible apply Sound.each
    | with_reducible apply Sound.together
    | with_reducible apply Sound.setSlot
    | with_reducible apply Sound.selftest
    | with_reducible apply Sound.ite
    | fail_if_no_progress with_reducible apply Sound.keep
    | (intro _ _ _)
    | (intro _ _)
    | split
    | dsimp only

theorem Sound.place (h : Sound φ κ ρ s) {c : Nat} : Sound φ κ ρ (Sys2Proof.Machine.State.place s c) := by
  unfold Sys2Proof.Machine.State.place
  repeat' first
    | with_reducible assumption
    | with_reducible apply Sound.setSlot
    | with_reducible apply Sound.ite
    | fail_if_no_progress with_reducible apply Sound.keep
    | (intro _ _ _)
    | (intro _ _)
    | split
    | dsimp only

theorem Sound.displace (h : Sound φ κ ρ s) {c : Nat} : Sound φ κ ρ (Sys2Proof.Machine.State.displace s c) := by
  unfold Sys2Proof.Machine.State.displace
  repeat' first
    | with_reducible assumption
    | with_reducible apply Sound.bind
    | with_reducible apply Sound.vacate
    | with_reducible apply Sound.roomFault
    | with_reducible apply Sound.refit
    | with_reducible apply Sound.ite
    | fail_if_no_progress with_reducible apply Sound.keep
    | (intro _ _ _)
    | (intro _ _)
    | split
    | dsimp only

theorem Sound.execSelftestDone (h : Sound φ κ ρ s) {c : Nat} {pass : Bool} : ∃ τ, Sys2Proof.Machine.execSelftestDone c pass s = .next τ ∧ Sound φ κ ρ τ := by
  refine ⟨_, rfl, ?_⟩
  repeat' first
    | with_reducible assumption
    | with_reducible apply Sound.bump
    | with_reducible apply Sound.bumpIf
    | with_reducible apply Sound.post
    | with_reducible apply Sound.together
    | with_reducible apply Sound.setSlot
    | with_reducible apply Sound.setCore
    | with_reducible apply Sound.seekBoth
    | with_reducible apply Sound.refit
    | with_reducible apply Sound.place
    | with_reducible apply Sound.displace
    | with_reducible apply Sound.ite
    | fail_if_no_progress with_reducible apply Sound.keep
    | (intro _ _ _)
    | (intro _ _)
    | split
    | dsimp only

theorem Sound.snapPlace (h : Sound φ κ ρ s) {r : Nat} {t : State} (e : s.snapPlace r = some t) : Sound φ κ ρ t := by
  unfold Sys2Proof.Machine.State.snapPlace at e
  dsimp only at e
  repeat' split at e
  all_goals (first | cases e | skip)
  all_goals first
    | exact h
    | exact h.setGuarded

theorem Sound.snapBegin (h : Sound φ κ ρ s) {r : Nat} : Sound φ κ ρ (Sys2Proof.Machine.State.snapBegin s r) := by
  unfold Sys2Proof.Machine.State.snapBegin
  repeat' first
    | with_reducible assumption
    | with_reducible apply Sound.setGuarded
    | fail_if_no_progress with_reducible apply Sound.keep
    | (intro _ _ _)
    | (intro _ _)
    | split
    | dsimp only

theorem Sound.execSnapshotPeriod (h : Sound φ κ ρ s) {r : Nat} : ∃ τ, Sys2Proof.Machine.execSnapshotPeriod r s = .next τ ∧ Sound φ κ ρ τ := by
  refine ⟨_, rfl, ?_⟩
  repeat' first
    | with_reducible assumption
    | with_reducible apply Sound.setGuarded
    | with_reducible apply Sound.guardNote
    | exact Sound.snapPlace (by assumption) (by assumption)
    | with_reducible apply Sound.snapBegin
    | with_reducible apply Sound.ite
    | fail_if_no_progress with_reducible apply Sound.keep
    | (intro _ _ _)
    | (intro _ _)
    | split
    | dsimp only

theorem Sound.execSnapshotDone (h : Sound φ κ ρ s) {r : Nat} : ∃ τ, Sys2Proof.Machine.execSnapshotDone r s = .next τ ∧ Sound φ κ ρ τ := by
  refine ⟨_, rfl, ?_⟩
  repeat' first
    | with_reducible assumption
    | with_reducible apply Sound.bump
    | with_reducible apply Sound.together
    | with_reducible apply Sound.setGuarded
    | with_reducible apply Sound.guardNote
    | with_reducible apply Sound.ite
    | fail_if_no_progress with_reducible apply Sound.keep
    | (intro _ _ _)
    | (intro _ _)
    | split
    | dsimp only

theorem Sound.execColdRestoreDone (h : Sound φ κ ρ s) {r : Nat} : ∃ τ, Sys2Proof.Machine.execColdRestoreDone r s = .next τ ∧ Sound φ κ ρ τ := by
  refine ⟨_, rfl, ?_⟩
  repeat' first
    | with_reducible assumption
    | with_reducible apply Sound.bump
    | with_reducible apply Sound.post
    | with_reducible apply Sound.together
    | with_reducible apply Sound.setGuarded
    | with_reducible apply Sound.setRoom
    | with_reducible apply Sound.setSlot
    | with_reducible apply Sound.bind
    | with_reducible apply Sound.seekBoth
    | with_reducible apply Sound.selftest
    | with_reducible apply Sound.ite
    | fail_if_no_progress with_reducible apply Sound.keep
    | (intro _ _ _)
    | (intro _ _)
    | split
    | dsimp only

theorem Sound.applyGuestCmd (h : Sound φ κ ρ s) {n : Nat} : Sound φ κ ρ (Sys2Proof.Machine.applyGuestCmd s n) := by
  unfold Sys2Proof.Machine.applyGuestCmd
  repeat' first
    | with_reducible assumption
    | with_reducible apply Sound.setSlot
    | with_reducible apply Sound.setCore
    | with_reducible apply Sound.seekBoth
    | with_reducible apply Sound.shadowEnd
    | fail_if_no_progress with_reducible apply Sound.keep
    | (intro _ _ _)
    | (intro _ _)
    | split
    | dsimp only

theorem Sound.applyRoomGuard (h : Sound φ κ ρ s) {r : Nat} {was2 : Bool} : Sound φ κ ρ (Sys2Proof.Machine.applyRoomGuard s r was2) := by
  unfold Sys2Proof.Machine.applyRoomGuard
  repeat' first
    | with_reducible assumption
    | with_reducible apply Sound.setGuarded
    | with_reducible apply Sound.guardNote
    | with_reducible apply Sound.seek
    | with_reducible apply Sound.seekBoth
    | with_reducible apply Sound.shadowEnd
    | with_reducible apply Sound.ite
    | fail_if_no_progress with_reducible apply Sound.keep
    | (intro _ _ _)
    | (intro _ _)
    | split
    | dsimp only

end Sys2Proof.Machine
end

