-- ==== Sys2Proof/Laws/SoundRooms.lean ====
section
/-! SUPPORT. What every command keeps: the functions of Machine/Rooms.lean. -/

namespace Sys2Proof.Machine

set_option linter.unusedTactic false
set_option linter.unreachableTactic false

variable {φ : Fuses} {κ : List Instr} {ρ : Nat} {s : State}

theorem Sound.roomStart (h : Sound φ κ ρ s) {r : Nat} : Sound φ κ ρ (Sys2Proof.Machine.State.roomStart s r) := by
  unfold Sys2Proof.Machine.State.roomStart
  repeat' first
    | with_reducible assumption
    | with_reducible apply Sound.setRoom
    | with_reducible apply Sound.roomGo
    | with_reducible apply Sound.ite
    | fail_if_no_progress with_reducible apply Sound.keep
    | (intro _ _ _)
    | (intro _ _)
    | split
    | dsimp only

theorem Sound.applyRoomCtrl (h : Sound φ κ ρ s) {r : Nat} {old : Nat} : Sound φ κ ρ (Sys2Proof.Machine.applyRoomCtrl s r old) := by
  unfold Sys2Proof.Machine.applyRoomCtrl
  repeat' first
    | with_reducible assumption
    | with_reducible apply Sound.setGuarded
    | with_reducible apply Sound.setRoom
    | with_reducible apply Sound.roomGo
    | with_reducible apply Sound.roomStart
    | with_reducible apply Sound.ite
    | fail_if_no_progress with_reducible apply Sound.keep
    | (intro _ _ _)
    | (intro _ _)
    | split
    | dsimp only

theorem Sound.roomRequest (h : Sound φ κ ρ s) {r : Nat} : Sound φ κ ρ (Sys2Proof.Machine.State.roomRequest s r) := by
  unfold Sys2Proof.Machine.State.roomRequest
  repeat' first
    | with_reducible assumption
    | with_reducible apply Sound.wr
    | with_reducible apply Sound.setRoom
    | with_reducible apply Sound.roomGo
    | with_reducible apply Sound.ite
    | fail_if_no_progress with_reducible apply Sound.keep
    | (intro _ _ _)
    | (intro _ _)
    | split
    | dsimp only

theorem Sound.applyRoomMbox (h : Sound φ κ ρ s) {r : Nat} {w : Nat} : Sound φ κ ρ (Sys2Proof.Machine.applyRoomMbox s r w) := by
  unfold Sys2Proof.Machine.applyRoomMbox
  repeat' first
    | with_reducible assumption
    | with_reducible apply Sound.bumpIf
    | with_reducible apply Sound.setRoom
    | fail_if_no_progress with_reducible apply Sound.keep
    | (intro _ _ _)
    | (intro _ _)
    | split
    | dsimp only

theorem Sound.applyRoomCmd (h : Sound φ κ ρ s) {r : Nat} : Sound φ κ ρ (Sys2Proof.Machine.applyRoomCmd s r) := by
  unfold Sys2Proof.Machine.applyRoomCmd
  repeat' first
    | with_reducible assumption
    | with_reducible apply Sound.setRoom
    | fail_if_no_progress with_reducible apply Sound.keep
    | (intro _ _ _)
    | (intro _ _)
    | split
    | dsimp only

theorem Sound.guestLoad (h : Sound φ κ ρ s) {r : Nat} {l : List RoomLoad} : Sound φ κ ρ (Sys2Proof.Machine.State.guestLoad s r l) := by
  unfold Sys2Proof.Machine.State.guestLoad
  repeat' first
    | with_reducible assumption
    | with_reducible apply Sound.setSlot
    | with_reducible apply Sound.ite
    | fail_if_no_progress with_reducible apply Sound.keep
    | (intro _ _ _)
    | (intro _ _)
    | split
    | dsimp only

theorem Sound.applyRoomLoad (h : Sound φ κ ρ s) {r : Nat} {l : List Byte} : Sound φ κ ρ (Sys2Proof.Machine.applyRoomLoad s r l) := by
  unfold Sys2Proof.Machine.applyRoomLoad
  repeat' first
    | with_reducible assumption
    | with_reducible apply Sound.setRoom
    | with_reducible apply Sound.bumpRoom
    | with_reducible apply Sound.guestLoad
    | with_reducible apply Sound.ite
    | fail_if_no_progress with_reducible apply Sound.keep
    | (intro _ _ _)
    | (intro _ _)
    | split
    | dsimp only

theorem Sound.execRoomLoadDeferredWrite (h : Sound φ κ ρ s) {r : Nat} : ∃ τ, Sys2Proof.Machine.execRoomLoadDeferredWrite r s = .next τ ∧ Sound φ κ ρ τ := by
  refine ⟨_, rfl, ?_⟩
  repeat' first
    | with_reducible assumption
    | with_reducible apply Sound.setRoom
    | with_reducible apply Sound.guestLoad
    | with_reducible apply Sound.ite
    | fail_if_no_progress with_reducible apply Sound.keep
    | (intro _ _ _)
    | (intro _ _)
    | split
    | dsimp only

theorem Sound.guestBlock (h : Sound φ κ ρ s) {r : Nat} : Sound φ κ ρ (Sys2Proof.Machine.State.guestBlock s r) := by
  unfold Sys2Proof.Machine.State.guestBlock
  repeat' first
    | with_reducible assumption
    | with_reducible apply Sound.setSlot
    | with_reducible apply Sound.guardNote
    | with_reducible apply Sound.ite
    | fail_if_no_progress with_reducible apply Sound.keep
    | (intro _ _ _)
    | (intro _ _)
    | split
    | dsimp only

theorem Sound.guestStored (h : Sound φ κ ρ s) {r : Nat} : Sound φ κ ρ (Sys2Proof.Machine.State.guestStored s r) := by
  unfold Sys2Proof.Machine.State.guestStored
  repeat' first
    | with_reducible assumption
    | with_reducible apply Sound.setSlot
    | with_reducible apply Sound.ite
    | fail_if_no_progress with_reducible apply Sound.keep
    | (intro _ _ _)
    | (intro _ _)
    | split
    | dsimp only

theorem Sound.roomBegin (h : Sound φ κ ρ s) {r : Nat} {hold : Bool} : Sound φ κ ρ (Sys2Proof.Machine.State.roomBegin s r hold) := by
  unfold Sys2Proof.Machine.State.roomBegin
  repeat' first
    | with_reducible assumption
    | with_reducible apply Sound.setRoom
    | with_reducible apply Sound.bumpRoom
    | with_reducible apply Sound.guestLoad
    | with_reducible apply Sound.guestBlock
    | with_reducible apply Sound.guestStored
    | fail_if_no_progress with_reducible apply Sound.keep
    | (intro _ _ _)
    | (intro _ _)
    | split
    | dsimp only

theorem Sound.roomSkip (h : Sound φ κ ρ s) {d : Nat} {r : Nat} {n : Nat} : Sound φ κ ρ (Sys2Proof.Machine.State.roomSkip s d r n) := by
  unfold Sys2Proof.Machine.State.roomSkip
  repeat' first
    | with_reducible assumption
    | with_reducible apply Sound.dlMiss
    | with_reducible apply Sound.blockWindow
    | with_reducible apply Sound.blockResult
    | with_reducible apply Sound.setRoom
    | with_reducible apply Sound.bumpRoom
    | fail_if_no_progress with_reducible apply Sound.keep
    | (intro _ _ _)
    | (intro _ _)
    | split
    | dsimp only

theorem Sound.roomTrigger (h : Sound φ κ ρ s) {d : Nat} {r : Nat} {n : Nat} : Sound φ κ ρ (Sys2Proof.Machine.State.roomTrigger s d r n) := by
  unfold Sys2Proof.Machine.State.roomTrigger
  repeat' first
    | with_reducible assumption
    | with_reducible apply Sound.setRoom
    | with_reducible apply Sound.rebindNext
    | with_reducible apply Sound.rotate
    | with_reducible apply Sound.roomBegin
    | with_reducible apply Sound.roomSkip
    | with_reducible apply Sound.ite
    | fail_if_no_progress with_reducible apply Sound.keep
    | (intro _ _ _)
    | (intro _ _)
    | split
    | dsimp only

theorem Sound.faultDue (h : Sound φ κ ρ s) {r : Nat} : Sound φ κ ρ (Sys2Proof.Machine.State.faultDue s r) := by
  unfold Sys2Proof.Machine.State.faultDue
  repeat' first
    | with_reducible assumption
    | with_reducible apply Sound.roomFault
    | with_reducible apply Sound.ite
    | fail_if_no_progress with_reducible apply Sound.keep
    | (intro _ _ _)
    | (intro _ _)
    | split
    | dsimp only

theorem Sound.roomResume (h : Sound φ κ ρ s) {r : Nat} : Sound φ κ ρ (Sys2Proof.Machine.State.roomResume s r) := by
  unfold Sys2Proof.Machine.State.roomResume
  repeat' first
    | with_reducible assumption
    | with_reducible apply Sound.setRoom
    | with_reducible apply Sound.roomGo
    | with_reducible apply Sound.ite
    | fail_if_no_progress with_reducible apply Sound.keep
    | (intro _ _ _)
    | (intro _ _)
    | split
    | dsimp only

theorem Sound.roomTick (h : Sound φ κ ρ s) {d : Nat} {r : Nat} {n : Nat} : Sound φ κ ρ (Sys2Proof.Machine.State.roomTick s d r n) := by
  unfold Sys2Proof.Machine.State.roomTick
  repeat' first
    | with_reducible assumption
    | with_reducible apply Sound.setRoom
    | with_reducible apply Sound.roomTrigger
    | with_reducible apply Sound.ite
    | fail_if_no_progress with_reducible apply Sound.keep
    | (intro _ _ _)
    | (intro _ _)
    | split
    | dsimp only

theorem Sound.roomAfter (h : Sound φ κ ρ s) {r : Nat} {n : Nat} : Sound φ κ ρ (Sys2Proof.Machine.State.roomAfter s r n) := by
  unfold Sys2Proof.Machine.State.roomAfter
  repeat' first
    | with_reducible assumption
    | with_reducible apply Sound.setRoom
    | with_reducible apply Sound.roomGo
    | with_reducible apply Sound.ite
    | fail_if_no_progress with_reducible apply Sound.keep
    | (intro _ _ _)
    | (intro _ _)
    | split
    | dsimp only

theorem Sound.roomPresent (h : Sound φ κ ρ s) {d : Nat} {r : Nat} {n : Nat} {unchecked : Bool} : Sound φ κ ρ (Sys2Proof.Machine.State.roomPresent s d r n unchecked) := by
  unfold Sys2Proof.Machine.State.roomPresent
  repeat' first
    | with_reducible assumption
    | with_reducible apply Sound.put
    | with_reducible apply Sound.bump
    | with_reducible apply Sound.dlMiss
    | with_reducible apply Sound.setRoom
    | with_reducible apply Sound.foldFst
    | with_reducible apply Sound.foldl
    | with_reducible apply Sound.foldSnd
    | with_reducible apply Sound.ite
    | fail_if_no_progress with_reducible apply Sound.keep
    | (intro _ _ _)
    | (intro _ _)
    | split
    | dsimp only

theorem Sound.guestRan (h : Sound φ κ ρ s) {d : Nat} {r : Nat} {k : Nat} {w : EndWork} : Sound φ κ ρ (Sys2Proof.Machine.State.guestRan s d r k w) := by
  unfold Sys2Proof.Machine.State.guestRan
  repeat' first
    | with_reducible assumption
    | with_reducible apply Sound.wr
    | with_reducible apply Sound.blockWindow
    | with_reducible apply Sound.ite
    | fail_if_no_progress with_reducible apply Sound.keep
    | (intro _ _ _)
    | (intro _ _)
    | split
    | dsimp only

theorem Sound.guestEnd (h : Sound φ κ ρ s) {r : Nat} {n : Nat} {words : Nat} {w : EndWork} : Sound φ κ ρ (Sys2Proof.Machine.State.guestEnd s r n words w) := by
  unfold Sys2Proof.Machine.State.guestEnd
  repeat' first
    | with_reducible assumption
    | with_reducible apply Sound.bump
    | with_reducible apply Sound.bumpIf
    | with_reducible apply Sound.setGuarded
    | with_reducible apply Sound.setSlot
    | with_reducible apply Sound.guardNote
    | with_reducible apply Sound.seek
    | with_reducible apply Sound.shadowEnd
    | with_reducible apply Sound.guestLeave
    | with_reducible apply Sound.mismatch
    | with_reducible apply Sound.guestRan
    | with_reducible apply Sound.ite
    | fail_if_no_progress with_reducible apply Sound.keep
    | (intro _ _ _)
    | (intro _ _)
    | split
    | dsimp only

theorem Sound.noteWords (h : Sound φ κ ρ s) {r : Nat} {words : Nat} : Sound φ κ ρ (Sys2Proof.Machine.State.noteWords s r words) := by
  unfold Sys2Proof.Machine.State.noteWords
  repeat' first
    | with_reducible assumption
    | with_reducible apply Sound.setGuarded
    | fail_if_no_progress with_reducible apply Sound.keep
    | (intro _ _ _)
    | (intro _ _)
    | split
    | dsimp only

theorem Sound.roomEnd (h : Sound φ κ ρ s) {r : Nat} {pc : Nat} {w : EndWork} : Sound φ κ ρ (Sys2Proof.Machine.State.roomEnd s r pc w) := by
  unfold Sys2Proof.Machine.State.roomEnd
  repeat' first
    | with_reducible assumption
    | with_reducible apply Sound.wr
    | with_reducible apply Sound.blockResult
    | with_reducible apply Sound.setRoom
    | with_reducible apply Sound.snapBegin
    | with_reducible apply Sound.guestEnd
    | with_reducible apply Sound.noteWords
    | with_reducible apply Sound.ite
    | fail_if_no_progress with_reducible apply Sound.keep
    | (intro _ _ _)
    | (intro _ _)
    | split
    | dsimp only

end Sys2Proof.Machine
end

