-- ==== Sys2Proof/Laws/SoundSelfCompare.lean ====
section
/-! SUPPORT. What every command keeps: the functions of Machine/SelfCompare.lean. -/

namespace Sys2Proof.Machine

set_option linter.unusedTactic false
set_option linter.unreachableTactic false

variable {φ : Fuses} {κ : List Instr} {ρ : Nat} {s : State}

theorem Sound.testPost (h : Sound φ κ ρ s) {test : Nat} {outcome : Nat} {word2 : Nat} : Sound φ κ ρ (Sys2Proof.Machine.State.testPost s test outcome word2) := by
  unfold Sys2Proof.Machine.State.testPost
  repeat' first
    | with_reducible assumption
    | with_reducible apply Sound.post
    | fail_if_no_progress with_reducible apply Sound.keep
    | (intro _ _ _)
    | (intro _ _)
    | split
    | dsimp only

theorem Sound.dwBlock (h : Sound φ κ ρ s) {t : DwTest} : Sound φ κ ρ (Sys2Proof.Machine.State.dwBlock s t) := by
  unfold Sys2Proof.Machine.State.dwBlock
  repeat' first
    | with_reducible assumption
    | with_reducible apply Sound.setRoom
    | with_reducible apply Sound.roomBegin
    | fail_if_no_progress with_reducible apply Sound.keep
    | (intro _ _ _)
    | (intro _ _)
    | split
    | dsimp only

theorem Sound.restoreAgain (h : Sound φ κ ρ s) {k : Nat} : Sound φ κ ρ (Sys2Proof.Machine.State.restoreAgain s k) := by
  unfold Sys2Proof.Machine.State.restoreAgain
  repeat' first
    | with_reducible assumption
    | with_reducible apply Sound.restoreTake
    | fail_if_no_progress with_reducible apply Sound.keep
    | (intro _ _ _)
    | (intro _ _)
    | split
    | dsimp only

theorem Sound.applyDwTest (h : Sound φ κ ρ s) {n : Nat} : Sound φ κ ρ (Sys2Proof.Machine.applyDwTest s n) := by
  unfold Sys2Proof.Machine.applyDwTest
  repeat' first
    | with_reducible assumption
    | with_reducible apply Sound.put
    | with_reducible apply Sound.setSlot
    | with_reducible apply Sound.seekBoth
    | with_reducible apply Sound.shadowEnd
    | with_reducible apply Sound.dwBlock
    | with_reducible apply Sound.restoreAgain
    | fail_if_no_progress with_reducible apply Sound.keep
    | (intro _ _ _)
    | (intro _ _)
    | split
    | dsimp only

theorem Sound.dwEnd (h : Sound φ κ ρ s) {t : DwTest} {pc : Nat} {w : EndWork} : Sound φ κ ρ (Sys2Proof.Machine.State.dwEnd s t pc w) := by
  unfold Sys2Proof.Machine.State.dwEnd
  repeat' first
    | with_reducible assumption
    | with_reducible apply Sound.wr
    | with_reducible apply Sound.bump
    | with_reducible apply Sound.setRoom
    | with_reducible apply Sound.dwBlock
    | with_reducible apply Sound.ite
    | fail_if_no_progress with_reducible apply Sound.keep
    | (intro _ _ _)
    | (intro _ _)
    | split
    | dsimp only

theorem Sound.execDwTestDone (h : Sound φ κ ρ s) {timeout : Bool} : ∃ τ, Sys2Proof.Machine.execDwTestDone timeout s = .next τ ∧ Sound φ κ ρ τ := by
  refine ⟨_, rfl, ?_⟩
  repeat' first
    | with_reducible assumption
    | with_reducible apply Sound.wr
    | with_reducible apply Sound.together
    | with_reducible apply Sound.setRoom
    | with_reducible apply Sound.setSlot
    | with_reducible apply Sound.selftest
    | with_reducible apply Sound.testPost
    | with_reducible apply Sound.ite
    | fail_if_no_progress with_reducible apply Sound.keep
    | (intro _ _ _)
    | (intro _ _)
    | split
    | dsimp only

end Sys2Proof.Machine
end

