-- ==== Sys2Proof/Laws/SoundTdm.lean ====
section
/-! SUPPORT. What every command keeps: the functions of Machine/Tdm.lean. -/

namespace Sys2Proof.Machine

set_option linter.unusedTactic false
set_option linter.unreachableTactic false

variable {φ : Fuses} {κ : List Instr} {ρ : Nat} {s : State}

theorem Sound.setSide (h : Sound φ κ ρ s) {p : Nat} {b : Nat} {x : TdmSide} : Sound φ κ ρ (Sys2Proof.Machine.State.setSide s p b x) := by
  unfold Sys2Proof.Machine.State.setSide
  repeat' first
    | with_reducible assumption
    | with_reducible apply Sound.put
    | fail_if_no_progress with_reducible apply Sound.keep
    | (intro _ _ _)
    | (intro _ _)
    | split
    | dsimp only

theorem Sound.applyCommit (h : Sound φ κ ρ s) {p : Nat} {b : Nat} : Sound φ κ ρ (Sys2Proof.Machine.State.applyCommit s p b) := by
  unfold Sys2Proof.Machine.State.applyCommit
  repeat' first
    | with_reducible assumption
    | with_reducible apply Sound.wr
    | with_reducible apply Sound.bump
    | with_reducible apply Sound.setSide
    | fail_if_no_progress with_reducible apply Sound.keep
    | (intro _ _ _)
    | (intro _ _)
    | split
    | dsimp only

theorem Sound.sideGo (h : Sound φ κ ρ s) {p : Nat} {b : Nat} {new : Nat} : Sound φ κ ρ (Sys2Proof.Machine.State.sideGo s p b new) := by
  unfold Sys2Proof.Machine.State.sideGo
  repeat' first
    | with_reducible assumption
    | with_reducible apply Sound.wr
    | with_reducible apply Sound.post
    | with_reducible apply Sound.setSideSlew
    | with_reducible apply Sound.signalFail
    | with_reducible apply Sound.setSide
    | with_reducible apply Sound.applyCommit
    | with_reducible apply Sound.ite
    | fail_if_no_progress with_reducible apply Sound.keep
    | (intro _ _ _)
    | (intro _ _)
    | split
    | dsimp only

theorem Sound.pair_ (h : Sound φ κ ρ s) {p : Nat} {b : Nat} : Sound φ κ ρ (Sys2Proof.Machine.State.pair_ s p b) := by
  unfold Sys2Proof.Machine.State.pair_
  repeat' first
    | with_reducible assumption
    | with_reducible apply Sound.wr
    | with_reducible apply Sound.setSide
    | with_reducible apply Sound.ite
    | fail_if_no_progress with_reducible apply Sound.keep
    | (intro _ _ _)
    | (intro _ _)
    | split
    | dsimp only

theorem Sound.sideStart (h : Sound φ κ ρ s) {p : Nat} {b : Nat} : Sound φ κ ρ (Sys2Proof.Machine.State.sideStart s p b) := by
  unfold Sys2Proof.Machine.State.sideStart
  repeat' first
    | with_reducible assumption
    | with_reducible apply Sound.flag
    | with_reducible apply Sound.setSide
    | with_reducible apply Sound.sideGo
    | with_reducible apply Sound.pair_
    | with_reducible apply Sound.ite
    | fail_if_no_progress with_reducible apply Sound.keep
    | (intro _ _ _)
    | (intro _ _)
    | split
    | dsimp only

theorem Sound.sideRequest (h : Sound φ κ ρ s) {p : Nat} {b : Nat} : Sound φ κ ρ (Sys2Proof.Machine.State.sideRequest s p b) := by
  unfold Sys2Proof.Machine.State.sideRequest
  repeat' first
    | with_reducible assumption
    | with_reducible apply Sound.sideStart
    | with_reducible apply Sound.ite
    | fail_if_no_progress with_reducible apply Sound.keep
    | (intro _ _ _)
    | (intro _ _)
    | split
    | dsimp only

theorem Sound.applySideCtrl (h : Sound φ κ ρ s) {p : Nat} {b : Nat} : Sound φ κ ρ (Sys2Proof.Machine.applySideCtrl s p b) := by
  unfold Sys2Proof.Machine.applySideCtrl
  repeat' first
    | with_reducible assumption
    | with_reducible apply Sound.setSide
    | with_reducible apply Sound.sideGo
    | with_reducible apply Sound.sideStart
    | with_reducible apply Sound.ite
    | fail_if_no_progress with_reducible apply Sound.keep
    | (intro _ _ _)
    | (intro _ _)
    | split
    | dsimp only

theorem Sound.applyMaskCommit (h : Sound φ κ ρ s) {p : Nat} {b : Nat} : Sound φ κ ρ (Sys2Proof.Machine.applyMaskCommit s p b) := by
  unfold Sys2Proof.Machine.applyMaskCommit
  repeat' first
    | with_reducible assumption
    | with_reducible apply Sound.wr
    | with_reducible apply Sound.setSide
    | with_reducible apply Sound.ite
    | fail_if_no_progress with_reducible apply Sound.keep
    | (intro _ _ _)
    | (intro _ _)
    | split
    | dsimp only

theorem Sound.slip (h : Sound φ κ ρ s) {p : Nat} {b : Nat} {kind : Nat} : Sound φ κ ρ (Sys2Proof.Machine.State.slip s p b kind) := by
  unfold Sys2Proof.Machine.State.slip
  repeat' first
    | with_reducible assumption
    | with_reducible apply Sound.put
    | with_reducible apply Sound.post
    | with_reducible apply Sound.ite
    | fail_if_no_progress with_reducible apply Sound.keep
    | (intro _ _ _)
    | (intro _ _)
    | split
    | dsimp only

theorem Sound.execTdmSlipWindowEnd (h : Sound φ κ ρ s) {p : Nat} {b : Nat} {kind : Nat} : ∃ τ, Sys2Proof.Machine.execTdmSlipWindowEnd p b kind s = .next τ ∧ Sound φ κ ρ τ := by
  refine ⟨_, rfl, ?_⟩
  repeat' first
    | with_reducible assumption
    | with_reducible apply Sound.put
    | with_reducible apply Sound.post
    | with_reducible apply Sound.ite
    | fail_if_no_progress with_reducible apply Sound.keep
    | (intro _ _ _)
    | (intro _ _)
    | split
    | dsimp only

theorem Sound.pairing (h : Sound φ κ ρ s) {p : Nat} {b : Nat} {n : Nat} {ph : Nat × Nat} {steady : Bool} : Sound φ κ ρ (Sys2Proof.Machine.State.pairing s p b n ph steady) := by
  unfold Sys2Proof.Machine.State.pairing
  repeat' first
    | with_reducible assumption
    | with_reducible apply Sound.wr
    | with_reducible apply Sound.bump
    | with_reducible apply Sound.setSide
    | with_reducible apply Sound.slip
    | with_reducible apply Sound.ite
    | fail_if_no_progress with_reducible apply Sound.keep
    | (intro _ _ _)
    | (intro _ _)
    | split
    | dsimp only

theorem Sound.sideCapture (h : Sound φ κ ρ s) {p : Nat} {q : Nat} : Sound φ κ ρ (Sys2Proof.Machine.State.sideCapture s p q) := by
  unfold Sys2Proof.Machine.State.sideCapture
  repeat' first
    | with_reducible assumption
    | with_reducible apply Sound.setSide
    | with_reducible apply Sound.pairing
    | with_reducible apply Sound.ite
    | fail_if_no_progress with_reducible apply Sound.keep
    | (intro _ _ _)
    | (intro _ _)
    | split
    | dsimp only

theorem Sound.tdmCapture (h : Sound φ κ ρ s) {d : Nat} {q : Nat} : Sound φ κ ρ (Sys2Proof.Machine.State.tdmCapture s d q) := by
  unfold Sys2Proof.Machine.State.tdmCapture
  repeat' first
    | with_reducible assumption
    | with_reducible apply Sound.units
    | with_reducible apply Sound.sideCapture
    | with_reducible apply Sound.ite
    | fail_if_no_progress with_reducible apply Sound.keep
    | (intro _ _ _)
    | (intro _ _)
    | split
    | dsimp only

theorem Sound.tdmLaunch (h : Sound φ κ ρ s) {d : Nat} {q : Nat} : Sound φ κ ρ (Sys2Proof.Machine.State.tdmLaunch s d q) := by
  unfold Sys2Proof.Machine.State.tdmLaunch
  repeat' first
    | with_reducible assumption
    | with_reducible apply Sound.units
    | with_reducible apply Sound.setSide
    | with_reducible apply Sound.ite
    | fail_if_no_progress with_reducible apply Sound.keep
    | (intro _ _ _)
    | (intro _ _)
    | split
    | dsimp only

theorem Sound.sideSend (h : Sound φ κ ρ s) {p : Nat} {before : Nat} {v : Option (List Nat)} : Sound φ κ ρ (Sys2Proof.Machine.State.sideSend s p before v) := by
  unfold Sys2Proof.Machine.State.sideSend
  repeat' first
    | with_reducible assumption
    | with_reducible apply Sound.setSide
    | with_reducible apply Sound.ite
    | fail_if_no_progress with_reducible apply Sound.keep
    | (intro _ _ _)
    | (intro _ _)
    | split
    | dsimp only

theorem Sound.sideJudge (h : Sound φ κ ρ s) {p : Nat} {b : Nat} {bclks : Nat} {q : Nat} : Sound φ κ ρ (Sys2Proof.Machine.State.sideJudge s p b bclks q) := by
  unfold Sys2Proof.Machine.State.sideJudge
  repeat' first
    | with_reducible assumption
    | with_reducible apply Sound.wr
    | with_reducible apply Sound.bump
    | with_reducible apply Sound.setSide
    | with_reducible apply Sound.slip
    | with_reducible apply Sound.ite
    | fail_if_no_progress with_reducible apply Sound.keep
    | (intro _ _ _)
    | (intro _ _)
    | split
    | dsimp only

theorem Sound.asyncTake (h : Sound φ κ ρ s) {p : Nat} {q : Nat} {late : List Nat} : Sound φ κ ρ (Sys2Proof.Machine.State.asyncTake s p q late) := by
  unfold Sys2Proof.Machine.State.asyncTake
  repeat' first
    | with_reducible assumption
    | with_reducible apply Sound.bumpIf
    | with_reducible apply Sound.each
    | with_reducible apply Sound.convInEdge
    | with_reducible apply Sound.convInput
    | with_reducible apply Sound.setSide
    | with_reducible apply Sound.ite
    | fail_if_no_progress with_reducible apply Sound.keep
    | (intro _ _ _)
    | (intro _ _)
    | split
    | dsimp only

theorem Sound.asyncGive (h : Sound φ κ ρ s) {p : Nat} {q : Nat} {late : List Nat} : Sound φ κ ρ (Sys2Proof.Machine.State.asyncGive s p q late).2 := by
  unfold Sys2Proof.Machine.State.asyncGive
  repeat' first
    | with_reducible assumption
    | with_reducible apply Sound.bumpIf
    | with_reducible apply Sound.each
    | with_reducible apply Sound.convOutput
    | fail_if_no_progress with_reducible apply Sound.keep
    | (intro _ _ _)
    | (intro _ _)
    | split
    | dsimp only

theorem Sound.sideData (h : Sound φ κ ρ s) {p : Nat} {b : Nat} {q : Nat} {before : Nat} {words : List Nat} {late : List Nat} : Sound φ κ ρ (Sys2Proof.Machine.State.sideData s p b q before words late) := by
  unfold Sys2Proof.Machine.State.sideData
  repeat' first
    | with_reducible assumption
    | with_reducible apply Sound.setSide
    | with_reducible apply Sound.pairing
    | with_reducible apply Sound.sideSend
    | with_reducible apply Sound.asyncTake
    | with_reducible apply Sound.asyncGive
    | with_reducible apply Sound.ite
    | fail_if_no_progress with_reducible apply Sound.keep
    | (intro _ _ _)
    | (intro _ _)
    | split
    | dsimp only

theorem Sound.frameBegin (h : Sound φ κ ρ s) {p : Nat} {b : Nat} {q : Nat} {words : List Nat} {late : List Nat} : Sound φ κ ρ (Sys2Proof.Machine.State.frameBegin s p b q words late) := by
  unfold Sys2Proof.Machine.State.frameBegin
  repeat' first
    | with_reducible assumption
    | with_reducible apply Sound.wr
    | with_reducible apply Sound.flag
    | with_reducible apply Sound.bumpIf
    | with_reducible apply Sound.setSide
    | with_reducible apply Sound.applyCommit
    | with_reducible apply Sound.sideGo
    | with_reducible apply Sound.sideData
    | with_reducible apply Sound.ite
    | fail_if_no_progress with_reducible apply Sound.keep
    | (intro _ _ _)
    | (intro _ _)
    | split
    | dsimp only

theorem Sound.sideEdge (h : Sound φ κ ρ s) {p : Nat} {b : Nat} {bclks : Nat} {q : Nat} {words : List Nat} {late : List Nat} : Sound φ κ ρ (Sys2Proof.Machine.State.sideEdge s p b bclks q words late) := by
  unfold Sys2Proof.Machine.State.sideEdge
  repeat' first
    | with_reducible assumption
    | with_reducible apply Sound.setSide
    | with_reducible apply Sound.sideJudge
    | with_reducible apply Sound.frameBegin
    | with_reducible apply Sound.ite
    | fail_if_no_progress with_reducible apply Sound.keep
    | (intro _ _ _)
    | (intro _ _)
    | split
    | dsimp only

theorem Sound.loopEdge (h : Sound φ κ ρ s) {p : Nat} {bclks : Nat} {q : Nat} {words : List Nat} {late : List Nat} : Sound φ κ ρ (Sys2Proof.Machine.State.loopEdge s p bclks q words late) := by
  unfold Sys2Proof.Machine.State.loopEdge
  repeat' first
    | with_reducible assumption
    | with_reducible apply Sound.sideEdge
    | with_reducible apply Sound.ite
    | fail_if_no_progress with_reducible apply Sound.keep
    | (intro _ _ _)
    | (intro _ _)
    | split
    | dsimp only

theorem Sound.execTdmFrameStart (h : Sound φ κ ρ s) {p : Nat} {b : Nat} {count : Nat} {quarter : Nat} {bclks : Nat} {lane0 : List Nat} {lane1 : List Nat} {late : List Nat} : ∃ τ, Sys2Proof.Machine.execTdmFrameStart p b count quarter bclks lane0 lane1 late s = .next τ ∧ Sound φ κ ρ τ := by
  refine ⟨_, rfl, ?_⟩
  repeat' first
    | with_reducible assumption
    | with_reducible apply Sound.together
    | with_reducible apply Sound.advance
    | with_reducible apply Sound.sideEdge
    | with_reducible apply Sound.loopEdge
    | with_reducible apply Sound.ite
    | fail_if_no_progress with_reducible apply Sound.keep
    | (intro _ _ _)
    | (intro _ _)
    | split
    | dsimp only

theorem Sound.execTdmSlaveLock (h : Sound φ κ ρ s) {p : Nat} {b : Nat} : ∃ τ, Sys2Proof.Machine.execTdmSlaveLock p b s = .next τ ∧ Sound φ κ ρ τ := by
  refine ⟨_, rfl, ?_⟩
  repeat' first
    | with_reducible assumption
    | with_reducible apply Sound.wr
    | with_reducible apply Sound.bumpIf
    | with_reducible apply Sound.together
    | with_reducible apply Sound.setSide
    | with_reducible apply Sound.sideGo
    | with_reducible apply Sound.pair_
    | with_reducible apply Sound.sideData
    | with_reducible apply Sound.ite
    | fail_if_no_progress with_reducible apply Sound.keep
    | (intro _ _ _)
    | (intro _ _)
    | split
    | dsimp only

theorem Sound.execTdmSlaveLockLoss (h : Sound φ κ ρ s) {p : Nat} {b : Nat} {silent : Bool} : ∃ τ, Sys2Proof.Machine.execTdmSlaveLockLoss p b silent s = .next τ ∧ Sound φ κ ρ τ := by
  refine ⟨_, rfl, ?_⟩
  repeat' first
    | with_reducible assumption
    | with_reducible apply Sound.bump
    | with_reducible apply Sound.together
    | with_reducible apply Sound.settleRefs
    | with_reducible apply Sound.advance
    | with_reducible apply Sound.sideGo
    | with_reducible apply Sound.applySideCtrl
    | with_reducible apply Sound.ite
    | fail_if_no_progress with_reducible apply Sound.keep
    | (intro _ _ _)
    | (intro _ _)
    | split
    | dsimp only

theorem Sound.execTdmLeadEnd (h : Sound φ κ ρ s) {p : Nat} {b : Nat} : ∃ τ, Sys2Proof.Machine.execTdmLeadEnd p b s = .next τ ∧ Sound φ κ ρ τ := by
  refine ⟨_, rfl, ?_⟩
  repeat' first
    | with_reducible assumption
    | with_reducible apply Sound.together
    | with_reducible apply Sound.sideGo
    | with_reducible apply Sound.ite
    | fail_if_no_progress with_reducible apply Sound.keep
    | (intro _ _ _)
    | (intro _ _)
    | split
    | dsimp only

theorem Sound.execTdmTailEnd (h : Sound φ κ ρ s) {p : Nat} {b : Nat} : ∃ τ, Sys2Proof.Machine.execTdmTailEnd p b s = .next τ ∧ Sound φ κ ρ τ := by
  refine ⟨_, rfl, ?_⟩
  repeat' first
    | with_reducible assumption
    | with_reducible apply Sound.together
    | with_reducible apply Sound.settleRefs
    | with_reducible apply Sound.sideGo
    | with_reducible apply Sound.ite
    | fail_if_no_progress with_reducible apply Sound.keep
    | (intro _ _ _)
    | (intro _ _)
    | split
    | dsimp only

end Sys2Proof.Machine
end

