-- ==== Sys2Proof/Laws/SoundHall.lean ====
section
/-! SUPPORT. What every command keeps: the functions of Machine/Hall.lean. -/

namespace Sys2Proof.Machine

set_option linter.unusedTactic false
set_option linter.unreachableTactic false

variable {φ : Fuses} {κ : List Instr} {ρ : Nat} {s : State}

theorem Sound.setTile (h : Sound φ κ ρ s) {t : Nat} {x : Tile} : Sound φ κ ρ (Sys2Proof.Machine.State.setTile s t x) := by
  unfold Sys2Proof.Machine.State.setTile
  repeat' first
    | with_reducible assumption
    | with_reducible apply Sound.put
    | fail_if_no_progress with_reducible apply Sound.keep
    | (intro _ _ _)
    | (intro _ _)
    | split
    | dsimp only

theorem Sound.applyGain (h : Sound φ κ ρ s) {x : Nat} {v : Nat} : Sound φ κ ρ (Sys2Proof.Machine.applyGain s x v) := by
  unfold Sys2Proof.Machine.applyGain
  repeat' first
    | with_reducible assumption
    | with_reducible apply Sound.put
    | with_reducible apply Sound.setTile
    | fail_if_no_progress with_reducible apply Sound.keep
    | (intro _ _ _)
    | (intro _ _)
    | split
    | dsimp only

theorem Sound.applyTileShadow (h : Sound φ κ ρ s) {t : Nat} {image : List Byte} : Sound φ κ ρ (Sys2Proof.Machine.applyTileShadow s t image) := by
  unfold Sys2Proof.Machine.applyTileShadow
  repeat' first
    | with_reducible assumption
    | with_reducible apply Sound.setTile
    | fail_if_no_progress with_reducible apply Sound.keep
    | (intro _ _ _)
    | (intro _ _)
    | split
    | dsimp only

theorem Sound.swapBanks (h : Sound φ κ ρ s) {t : Nat} : Sound φ κ ρ (Sys2Proof.Machine.State.swapBanks s t) := by
  unfold Sys2Proof.Machine.State.swapBanks
  repeat' first
    | with_reducible assumption
    | with_reducible apply Sound.bump
    | with_reducible apply Sound.setTile
    | fail_if_no_progress with_reducible apply Sound.keep
    | (intro _ _ _)
    | (intro _ _)
    | split
    | dsimp only

theorem Sound.commitTile (h : Sound φ κ ρ s) {t : Nat} {fade : Nat} : Sound φ κ ρ (Sys2Proof.Machine.State.commitTile s t fade) := by
  unfold Sys2Proof.Machine.State.commitTile
  repeat' first
    | with_reducible assumption
    | with_reducible apply Sound.setTile
    | with_reducible apply Sound.swapBanks
    | with_reducible apply Sound.ite
    | fail_if_no_progress with_reducible apply Sound.keep
    | (intro _ _ _)
    | (intro _ _)
    | split
    | dsimp only

theorem Sound.applyTileCmd (h : Sound φ κ ρ s) {t : Nat} {n : Nat} : Sound φ κ ρ (Sys2Proof.Machine.applyTileCmd s t n) := by
  unfold Sys2Proof.Machine.applyTileCmd
  repeat' first
    | with_reducible assumption
    | with_reducible apply Sound.setTile
    | with_reducible apply Sound.commitTile
    | with_reducible apply Sound.ite
    | fail_if_no_progress with_reducible apply Sound.keep
    | (intro _ _ _)
    | (intro _ _)
    | split
    | dsimp only

theorem Sound.applyHallCommit (h : Sound φ κ ρ s) {n : Nat} : Sound φ κ ρ (Sys2Proof.Machine.applyHallCommit s n) := by
  unfold Sys2Proof.Machine.applyHallCommit
  repeat' first
    | with_reducible assumption
    | with_reducible apply Sound.each
    | with_reducible apply Sound.commitTile
    | fail_if_no_progress with_reducible apply Sound.keep
    | (intro _ _ _)
    | (intro _ _)
    | split
    | dsimp only

theorem Sound.applyHallCfg (h : Sound φ κ ρ s) {old : Nat} {n : Nat} : Sound φ κ ρ (Sys2Proof.Machine.applyHallCfg s old n) := by
  unfold Sys2Proof.Machine.applyHallCfg
  repeat' first
    | with_reducible assumption
    | with_reducible apply Sound.ite
    | fail_if_no_progress with_reducible apply Sound.keep
    | (intro _ _ _)
    | (intro _ _)
    | split
    | dsimp only

theorem Sound.csumFail (h : Sound φ κ ρ s) {t : Nat} {b : Nat} {kind : Nat} : Sound φ κ ρ (Sys2Proof.Machine.State.csumFail s t b kind) := by
  unfold Sys2Proof.Machine.State.csumFail
  repeat' first
    | with_reducible assumption
    | with_reducible apply Sound.put
    | with_reducible apply Sound.bump
    | with_reducible apply Sound.post
    | with_reducible apply Sound.ite
    | fail_if_no_progress with_reducible apply Sound.keep
    | (intro _ _ _)
    | (intro _ _)
    | split
    | dsimp only

theorem Sound.execHallCsumWindowEnd (h : Sound φ κ ρ s) {t : Nat} : ∃ τ, Sys2Proof.Machine.execHallCsumWindowEnd t s = .next τ ∧ Sound φ κ ρ τ := by
  refine ⟨_, rfl, ?_⟩
  repeat' first
    | with_reducible assumption
    | with_reducible apply Sound.put
    | with_reducible apply Sound.post
    | with_reducible apply Sound.ite
    | fail_if_no_progress with_reducible apply Sound.keep
    | (intro _ _ _)
    | (intro _ _)
    | split
    | dsimp only

theorem Sound.hallSat (h : Sound φ κ ρ s) {o : Nat} : Sound φ κ ρ (Sys2Proof.Machine.State.hallSat s o) := by
  unfold Sys2Proof.Machine.State.hallSat
  repeat' first
    | with_reducible assumption
    | with_reducible apply Sound.bump
    | with_reducible apply Sound.post
    | with_reducible apply Sound.ite
    | fail_if_no_progress with_reducible apply Sound.keep
    | (intro _ _ _)
    | (intro _ _)
    | split
    | dsimp only

theorem Sound.execHallSatWindowEnd (h : Sound φ κ ρ s) : ∃ τ, Sys2Proof.Machine.execHallSatWindowEnd s = .next τ ∧ Sound φ κ ρ τ := by
  refine ⟨_, rfl, ?_⟩
  repeat' first
    | with_reducible assumption
    | with_reducible apply Sound.post
    | with_reducible apply Sound.ite
    | fail_if_no_progress with_reducible apply Sound.keep
    | (intro _ _ _)
    | (intro _ _)
    | split
    | dsimp only

theorem Sound.activeChecked (h : Sound φ κ ρ s) {t : Nat} {kind : Nat} {ok : Bool} : Sound φ κ ρ (Sys2Proof.Machine.State.activeChecked s t kind ok) := by
  unfold Sys2Proof.Machine.State.activeChecked
  repeat' first
    | with_reducible assumption
    | with_reducible apply Sound.draw
    | with_reducible apply Sound.setTile
    | with_reducible apply Sound.csumFail
    | with_reducible apply Sound.ite
    | fail_if_no_progress with_reducible apply Sound.keep
    | (intro _ _ _)
    | (intro _ _)
    | split
    | dsimp only

theorem Sound.mixTile (h : Sound φ κ ρ s) {t : Nat} {l : List (Nat × Nat)} : Sound φ κ ρ (Sys2Proof.Machine.State.mixTile s t l) := by
  unfold Sys2Proof.Machine.State.mixTile
  repeat' first
    | with_reducible assumption
    | with_reducible apply Sound.put
    | with_reducible apply Sound.foldFst
    | with_reducible apply Sound.foldl
    | with_reducible apply Sound.foldSnd
    | fail_if_no_progress with_reducible apply Sound.keep
    | (intro _ _ _)
    | (intro _ _)
    | split
    | dsimp only

theorem Sound.rebuildFlag (h : Sound φ κ ρ s) {t : Nat} {b : Nat} : Sound φ κ ρ (Sys2Proof.Machine.State.rebuildFlag s t b) := by
  unfold Sys2Proof.Machine.State.rebuildFlag
  repeat' first
    | with_reducible assumption
    | with_reducible apply Sound.bump
    | with_reducible apply Sound.setTile
    | with_reducible apply Sound.ite
    | fail_if_no_progress with_reducible apply Sound.keep
    | (intro _ _ _)
    | (intro _ _)
    | split
    | dsimp only

theorem Sound.reachTile (h : Sound φ κ ρ s) {t : Nat} : Sound φ κ ρ (Sys2Proof.Machine.State.reachTile s t).1 := by
  unfold Sys2Proof.Machine.State.reachTile
  repeat' first
    | with_reducible assumption
    | with_reducible apply Sound.bump
    | with_reducible apply Sound.each
    | with_reducible apply Sound.setTile
    | with_reducible apply Sound.csumFail
    | with_reducible apply Sound.activeChecked
    | with_reducible apply Sound.mixTile
    | with_reducible apply Sound.rebuildFlag
    | with_reducible apply Sound.ite
    | fail_if_no_progress with_reducible apply Sound.keep
    | (intro _ _ _)
    | (intro _ _)
    | split
    | dsimp only

theorem Sound.commitsDue (h : Sound φ κ ρ s) : Sound φ κ ρ (Sys2Proof.Machine.State.commitsDue s) := by
  unfold Sys2Proof.Machine.State.commitsDue
  repeat' first
    | with_reducible assumption
    | with_reducible apply Sound.each
    | with_reducible apply Sound.setTile
    | with_reducible apply Sound.swapBanks
    | with_reducible apply Sound.ite
    | fail_if_no_progress with_reducible apply Sound.keep
    | (intro _ _ _)
    | (intro _ _)
    | split
    | dsimp only

theorem Sound.hallOutputs (h : Sound φ κ ρ s) : Sound φ κ ρ (Sys2Proof.Machine.State.hallOutputs s) := by
  unfold Sys2Proof.Machine.State.hallOutputs
  repeat' first
    | with_reducible assumption
    | with_reducible apply Sound.put
    | with_reducible apply Sound.bump
    | with_reducible apply Sound.each
    | with_reducible apply Sound.hallSat
    | with_reducible apply Sound.foldFst
    | with_reducible apply Sound.foldl
    | with_reducible apply Sound.foldSnd
    | fail_if_no_progress with_reducible apply Sound.keep
    | (intro _ _ _)
    | (intro _ _)
    | split
    | dsimp only

theorem Sound.fadesAdvance (h : Sound φ κ ρ s) {before : List Nat} : Sound φ κ ρ (Sys2Proof.Machine.State.fadesAdvance s before) := by
  unfold Sys2Proof.Machine.State.fadesAdvance
  repeat' first
    | with_reducible assumption
    | with_reducible apply Sound.each
    | with_reducible apply Sound.setTile
    | with_reducible apply Sound.ite
    | fail_if_no_progress with_reducible apply Sound.keep
    | (intro _ _ _)
    | (intro _ _)
    | split
    | dsimp only

theorem Sound.shadowFails (h : Sound φ κ ρ s) {t : Nat} : Sound φ κ ρ (Sys2Proof.Machine.State.shadowFails s t) := by
  unfold Sys2Proof.Machine.State.shadowFails
  repeat' first
    | with_reducible assumption
    | with_reducible apply Sound.bump
    | with_reducible apply Sound.setTile
    | with_reducible apply Sound.csumFail
    | with_reducible apply Sound.ite
    | fail_if_no_progress with_reducible apply Sound.keep
    | (intro _ _ _)
    | (intro _ _)
    | split
    | dsimp only

theorem Sound.scrubVisit (h : Sound φ κ ρ s) {t : Nat} {idle : Bool} : Sound φ κ ρ (Sys2Proof.Machine.State.scrubVisit s t idle) := by
  unfold Sys2Proof.Machine.State.scrubVisit
  repeat' first
    | with_reducible assumption
    | with_reducible apply Sound.setTile
    | with_reducible apply Sound.csumFail
    | with_reducible apply Sound.activeChecked
    | with_reducible apply Sound.shadowFails
    | with_reducible apply Sound.ite
    | fail_if_no_progress with_reducible apply Sound.keep
    | (intro _ _ _)
    | (intro _ _)
    | split
    | dsimp only

theorem Sound.scrubTick (h : Sound φ κ ρ s) {idle : Nat → Bool} : Sound φ κ ρ (Sys2Proof.Machine.State.scrubTick s idle) := by
  unfold Sys2Proof.Machine.State.scrubTick
  repeat' first
    | with_reducible assumption
    | with_reducible apply Sound.bumpIf
    | with_reducible apply Sound.scrubVisit
    | with_reducible apply Sound.ite
    | fail_if_no_progress with_reducible apply Sound.keep
    | (intro _ _ _)
    | (intro _ _)
    | split
    | dsimp only

theorem Sound.reachTiles {l : List Nat} : ∀ {s : State}, Sound φ κ ρ s → Sound φ κ ρ (s.reachTiles l).1 := by
  induction l with
  | nil => exact fun h => h
  | cons t l ih => exact fun h => ih h.reachTile

theorem Sound.hallClose (h : Sound φ κ ρ s) : Sound φ κ ρ (Sys2Proof.Machine.State.hallClose s) := by
  unfold Sys2Proof.Machine.State.hallClose
  repeat' first
    | with_reducible assumption
    | with_reducible apply Sound.hallOutputs
    | with_reducible apply Sound.fadesAdvance
    | with_reducible apply Sound.scrubTick
    | with_reducible apply Sound.ite
    | fail_if_no_progress with_reducible apply Sound.keep
    | (intro _ _ _)
    | (intro _ _)
    | split
    | dsimp only

theorem Sound.hallCompute (h : Sound φ κ ρ s) {late : List Nat} {noScrub : Bool} : Sound φ κ ρ (Sys2Proof.Machine.State.hallCompute s late noScrub) := by
  unfold Sys2Proof.Machine.State.hallCompute
  repeat' first
    | with_reducible assumption
    | with_reducible apply Sound.commitsDue
    | with_reducible apply Sound.reachTiles
    | with_reducible apply Sound.hallClose
    | with_reducible apply Sound.ite
    | fail_if_no_progress with_reducible apply Sound.keep
    | (intro _ _ _)
    | (intro _ _)
    | split
    | dsimp only

theorem Sound.hallFinish (h : Sound φ κ ρ s) : Sound φ κ ρ (Sys2Proof.Machine.State.hallFinish s) := by
  unfold Sys2Proof.Machine.State.hallFinish
  repeat' first
    | with_reducible assumption
    | with_reducible apply Sound.reachTiles
    | with_reducible apply Sound.hallClose
    | fail_if_no_progress with_reducible apply Sound.keep
    | (intro _ _ _)
    | (intro _ _)
    | split
    | dsimp only

theorem Sound.copyEnd (h : Sound φ κ ρ s) {t : Nat} : Sound φ κ ρ (Sys2Proof.Machine.State.copyEnd s t) := by
  unfold Sys2Proof.Machine.State.copyEnd
  repeat' first
    | with_reducible assumption
    | with_reducible apply Sound.post
    | with_reducible apply Sound.setTile
    | with_reducible apply Sound.csumFail
    | with_reducible apply Sound.ite
    | fail_if_no_progress with_reducible apply Sound.keep
    | (intro _ _ _)
    | (intro _ _)
    | split
    | dsimp only

theorem Sound.hallDamage (h : Sound φ κ ρ s) {t : Nat} {b : Nat} {byte : Nat} {flip : Nat} : Sound φ κ ρ (Sys2Proof.Machine.State.hallDamage s t b byte flip) := by
  unfold Sys2Proof.Machine.State.hallDamage
  repeat' first
    | with_reducible assumption
    | with_reducible apply Sound.put
    | with_reducible apply Sound.setTile
    | with_reducible apply Sound.ite
    | fail_if_no_progress with_reducible apply Sound.keep
    | (intro _ _ _)
    | (intro _ _)
    | split
    | dsimp only

theorem Sound.hallDamages (h : Sound φ κ ρ s) {l : List HallHit} : Sound φ κ ρ (Sys2Proof.Machine.State.hallDamages s l) := by
  unfold Sys2Proof.Machine.State.hallDamages
  repeat' first
    | with_reducible assumption
    | with_reducible apply Sound.each
    | with_reducible apply Sound.hallDamage
    | with_reducible apply Sound.ite
    | fail_if_no_progress with_reducible apply Sound.keep
    | (intro _ _ _)
    | (intro _ _)
    | split
    | dsimp only

theorem Sound.execTileCopyDone (h : Sound φ κ ρ s) {t : Nat} {damage : List HallHit} : ∃ τ, Sys2Proof.Machine.execTileCopyDone t damage s = .next τ ∧ Sound φ κ ρ τ := by
  refine ⟨_, rfl, ?_⟩
  repeat' first
    | with_reducible assumption
    | with_reducible apply Sound.bump
    | with_reducible apply Sound.post
    | with_reducible apply Sound.together
    | with_reducible apply Sound.setTile
    | with_reducible apply Sound.csumFail
    | with_reducible apply Sound.copyEnd
    | with_reducible apply Sound.hallDamages
    | with_reducible apply Sound.ite
    | fail_if_no_progress with_reducible apply Sound.keep
    | (intro _ _ _)
    | (intro _ _)
    | split
    | dsimp only

end Sys2Proof.Machine
end

