-- ==== Sys2Proof/Laws/SoundServiceTest.lean ====
section
/-! SUPPORT. What every command keeps: the functions of Machine/ServiceTest.lean. -/

namespace Sys2Proof.Machine

set_option linter.unusedTactic false
set_option linter.unreachableTactic false

variable {φ : Fuses} {κ : List Instr} {ρ : Nat} {s : State}

theorem Sound.hallTurn (h : Sound φ κ ρ s) : Sound φ κ ρ (Sys2Proof.Machine.State.hallTurn s).1 := by
  unfold Sys2Proof.Machine.State.hallTurn
  repeat' first
    | with_reducible assumption
    | with_reducible apply Sound.bump
    | with_reducible apply Sound.setTile
    | with_reducible apply Sound.ite
    | fail_if_no_progress with_reducible apply Sound.keep
    | (intro _ _ _)
    | (intro _ _)
    | split
    | dsimp only

theorem Sound.hallTurns {n : Nat} : ∀ {s : State}, Sound φ κ ρ s → Sound φ κ ρ (State.hallTurns n s) := by
  induction n with
  | zero => exact fun h => h
  | succ n ih =>
    intro s h
    unfold Sys2Proof.Machine.State.hallTurns
    dsimp only
    split
    · exact ih h.hallTurn
    · exact h.hallTurn

theorem Sound.hallTileDone (h : Sound φ κ ρ s) {fail : Bool} : Sound φ κ ρ (Sys2Proof.Machine.State.hallTileDone s fail) := by
  unfold Sys2Proof.Machine.State.hallTileDone
  repeat' first
    | with_reducible assumption
    | with_reducible apply Sound.wr
    | with_reducible apply Sound.bump
    | with_reducible apply Sound.bumpIf
    | with_reducible apply Sound.copyEnd
    | with_reducible apply Sound.ite
    | fail_if_no_progress with_reducible apply Sound.keep
    | (intro _ _ _)
    | (intro _ _)
    | split
    | dsimp only

theorem Sound.hallTestTick (h : Sound φ κ ρ s) {fail : Bool} : Sound φ κ ρ (Sys2Proof.Machine.State.hallTestTick s fail) := by
  unfold Sys2Proof.Machine.State.hallTestTick
  repeat' first
    | with_reducible assumption
    | with_reducible apply Sound.hallTurn
    | with_reducible apply Sound.hallTileDone
    | fail_if_no_progress with_reducible apply Sound.keep
    | (intro _ _ _)
    | (intro _ _)
    | split
    | dsimp only

theorem Sound.applyHallTest (h : Sound φ κ ρ s) {n : Nat} : Sound φ κ ρ (Sys2Proof.Machine.applyHallTest s n) := by
  unfold Sys2Proof.Machine.applyHallTest
  repeat' first
    | with_reducible assumption
    | with_reducible apply Sound.put
    | with_reducible apply Sound.hallTurns
    | with_reducible apply Sound.ite
    | fail_if_no_progress with_reducible apply Sound.keep
    | (intro _ _ _)
    | (intro _ _)
    | split
    | dsimp only

theorem Sound.execHallTestTileDone (h : Sound φ κ ρ s) {fail : Bool} : ∃ τ, Sys2Proof.Machine.execHallTestTileDone fail s = .next τ ∧ Sound φ κ ρ τ := by
  refine ⟨_, rfl, ?_⟩
  repeat' first
    | with_reducible assumption
    | with_reducible apply Sound.together
    | with_reducible apply Sound.hallTurns
    | with_reducible apply Sound.hallTileDone
    | with_reducible apply Sound.ite
    | fail_if_no_progress with_reducible apply Sound.keep
    | (intro _ _ _)
    | (intro _ _)
    | split
    | dsimp only

theorem Sound.execHallTestDone (h : Sound φ κ ρ s) : ∃ τ, Sys2Proof.Machine.execHallTestDone s = .next τ ∧ Sound φ κ ρ τ := by
  refine ⟨_, rfl, ?_⟩
  repeat' first
    | with_reducible assumption
    | with_reducible apply Sound.wr
    | with_reducible apply Sound.testPost
    | with_reducible apply Sound.ite
    | fail_if_no_progress with_reducible apply Sound.keep
    | (intro _ _ _)
    | (intro _ _)
    | split
    | dsimp only

theorem Sound.ddrReport (h : Sound φ κ ρ s) {x : Nat × Nat × Nat} : Sound φ κ ρ (Sys2Proof.Machine.State.ddrReport s x) := by
  unfold Sys2Proof.Machine.State.ddrReport
  repeat' first
    | with_reducible assumption
    | with_reducible apply Sound.wr
    | with_reducible apply Sound.ite
    | fail_if_no_progress with_reducible apply Sound.keep
    | (intro _ _ _)
    | (intro _ _)
    | split
    | dsimp only

theorem Sound.ddrSoFar (h : Sound φ κ ρ s) : Sound φ κ ρ (Sys2Proof.Machine.State.ddrSoFar s) := by
  unfold Sys2Proof.Machine.State.ddrSoFar
  repeat' first
    | with_reducible assumption
    | with_reducible apply Sound.ddrReport
    | with_reducible apply Sound.ite
    | fail_if_no_progress with_reducible apply Sound.keep
    | (intro _ _ _)
    | (intro _ _)
    | split
    | dsimp only

theorem Sound.ddrEnd (h : Sound φ κ ρ s) {st : Nat} {outcome : Nat} : Sound φ κ ρ (Sys2Proof.Machine.State.ddrEnd s st outcome) := by
  unfold Sys2Proof.Machine.State.ddrEnd
  repeat' first
    | with_reducible assumption
    | with_reducible apply Sound.wr
    | with_reducible apply Sound.testPost
    | fail_if_no_progress with_reducible apply Sound.keep
    | (intro _ _ _)
    | (intro _ _)
    | split
    | dsimp only

theorem Sound.applyDdrTest (h : Sound φ κ ρ s) {n : Nat} : Sound φ κ ρ (Sys2Proof.Machine.applyDdrTest s n) := by
  unfold Sys2Proof.Machine.applyDdrTest
  repeat' first
    | with_reducible assumption
    | with_reducible apply Sound.put
    | with_reducible apply Sound.ddrSoFar
    | with_reducible apply Sound.ddrEnd
    | with_reducible apply Sound.ite
    | fail_if_no_progress with_reducible apply Sound.keep
    | (intro _ _ _)
    | (intro _ _)
    | split
    | dsimp only

theorem Sound.execDdrTestDone (h : Sound φ κ ρ s) {errors : Nat} {addr : Nat} {dq : Nat} : ∃ τ, Sys2Proof.Machine.execDdrTestDone errors addr dq s = .next τ ∧ Sound φ κ ρ τ := by
  refine ⟨_, rfl, ?_⟩
  repeat' first
    | with_reducible assumption
    | with_reducible apply Sound.ddrReport
    | with_reducible apply Sound.ddrEnd
    | with_reducible apply Sound.ite
    | fail_if_no_progress with_reducible apply Sound.keep
    | (intro _ _ _)
    | (intro _ _)
    | split
    | dsimp only

theorem Sound.execProductionSelftestStart (h : Sound φ κ ρ s) : ∃ τ, Sys2Proof.Machine.execProductionSelftestStart s = .next τ ∧ Sound φ κ ρ τ := by
  refine ⟨_, rfl, ?_⟩
  repeat' first
    | with_reducible assumption
    | with_reducible apply Sound.ite
    | fail_if_no_progress with_reducible apply Sound.keep
    | (intro _ _ _)
    | (intro _ _)
    | split
    | dsimp only

theorem Sound.execProductionSelftestDone (h : Sound φ κ ρ s) {cellar : Bool} {hallSram : Bool} {hallEngines : Bool} {asrc : Bool} {failed : List Nat} : ∃ τ, Sys2Proof.Machine.execProductionSelftestDone cellar hallSram hallEngines asrc failed s = .next τ ∧ Sound φ κ ρ τ := by
  refine ⟨_, rfl, ?_⟩
  repeat' first
    | with_reducible assumption
    | with_reducible apply Sound.put
    | with_reducible apply Sound.each
    | with_reducible apply Sound.together
    | with_reducible apply Sound.setCore
    | with_reducible apply Sound.displace
    | with_reducible apply Sound.testPost
    | with_reducible apply Sound.ite
    | fail_if_no_progress with_reducible apply Sound.keep
    | (intro _ _ _)
    | (intro _ _)
    | split
    | dsimp only

end Sys2Proof.Machine
end

