-- ==== Sys2Proof/Laws/SoundLinks.lean ====
section
/-! SUPPORT. What every command keeps: the functions of Machine/Links.lean. -/

namespace Sys2Proof.Machine

set_option linter.unusedTactic false
set_option linter.unreachableTactic false

variable {φ : Fuses} {κ : List Instr} {ρ : Nat} {s : State}

theorem Sound.linkGo (h : Sound φ κ ρ s) {p : Nat} {up : Bool} {speed : Nat} {full : Bool} : Sound φ κ ρ (Sys2Proof.Machine.State.linkGo s p up speed full) := by
  unfold Sys2Proof.Machine.State.linkGo
  repeat' first
    | with_reducible assumption
    | with_reducible apply Sound.setLink
    | with_reducible apply Sound.signalFail
    | with_reducible apply Sound.ptpLink
    | with_reducible apply Sound.ite
    | fail_if_no_progress with_reducible apply Sound.keep
    | (intro _ _ _)
    | (intro _ _)
    | split
    | dsimp only

theorem Sound.linkLost (h : Sound φ κ ρ s) {p : Nat} : Sound φ κ ρ (Sys2Proof.Machine.State.linkLost s p) := by
  unfold Sys2Proof.Machine.State.linkLost
  repeat' first
    | with_reducible assumption
    | with_reducible apply Sound.linkGo
    | fail_if_no_progress with_reducible apply Sound.keep
    | (intro _ _ _)
    | (intro _ _)
    | split
    | dsimp only

theorem Sound.linkOwn (h : Sound φ κ ρ s) {p : Nat} : Sound φ κ ρ (Sys2Proof.Machine.State.linkOwn s p) := by
  unfold Sys2Proof.Machine.State.linkOwn
  repeat' first
    | with_reducible assumption
    | with_reducible apply Sound.linkGo
    | with_reducible apply Sound.linkLost
    | with_reducible apply Sound.ite
    | fail_if_no_progress with_reducible apply Sound.keep
    | (intro _ _ _)
    | (intro _ _)
    | split
    | dsimp only

theorem Sound.pcs (h : Sound φ κ ρ s) {p : Nat} {lock : Bool} {ber : Bool} {am : Bool} : Sound φ κ ρ (Sys2Proof.Machine.State.pcs s p lock ber am) := by
  unfold Sys2Proof.Machine.State.pcs
  repeat' first
    | with_reducible assumption
    | with_reducible apply Sound.flag
    | fail_if_no_progress with_reducible apply Sound.keep
    | (intro _ _ _)
    | (intro _ _)
    | split
    | dsimp only

theorem Sound.execLinkUp (h : Sound φ κ ρ s) {p : Nat} : ∃ τ, Sys2Proof.Machine.execLinkUp p s = .next τ ∧ Sound φ κ ρ τ := by
  refine ⟨_, rfl, ?_⟩
  repeat' first
    | with_reducible assumption
    | with_reducible apply Sound.together
    | with_reducible apply Sound.settleRefs
    | with_reducible apply Sound.linkGo
    | with_reducible apply Sound.pcs
    | with_reducible apply Sound.ite
    | fail_if_no_progress with_reducible apply Sound.keep
    | (intro _ _ _)
    | (intro _ _)
    | split
    | dsimp only

theorem Sound.execLinkDown (h : Sound φ κ ρ s) {p : Nat} {cause : Nat} : ∃ τ, Sys2Proof.Machine.execLinkDown p cause s = .next τ ∧ Sound φ κ ρ τ := by
  refine ⟨_, rfl, ?_⟩
  repeat' first
    | with_reducible assumption
    | with_reducible apply Sound.together
    | with_reducible apply Sound.settleRefs
    | with_reducible apply Sound.linkLost
    | with_reducible apply Sound.pcs
    | with_reducible apply Sound.ite
    | fail_if_no_progress with_reducible apply Sound.keep
    | (intro _ _ _)
    | (intro _ _)
    | split
    | dsimp only

theorem Sound.execMInbandStatus (h : Sound φ κ ρ s) {up : Bool} {speed : Nat} {full : Bool} : ∃ τ, Sys2Proof.Machine.execMInbandStatus up speed full s = .next τ ∧ Sound φ κ ρ τ := by
  refine ⟨_, rfl, ?_⟩
  repeat' first
    | with_reducible assumption
    | with_reducible apply Sound.together
    | with_reducible apply Sound.linkGo
    | with_reducible apply Sound.ite
    | fail_if_no_progress with_reducible apply Sound.keep
    | (intro _ _ _)
    | (intro _ _)
    | split
    | dsimp only

theorem Sound.applyPortCfg (h : Sound φ κ ρ s) {p : Nat} {old : Nat} : Sound φ κ ρ (Sys2Proof.Machine.applyPortCfg s p old) := by
  unfold Sys2Proof.Machine.applyPortCfg
  repeat' first
    | with_reducible assumption
    | with_reducible apply Sound.dropQueues
    | with_reducible apply Sound.linkOwn
    | with_reducible apply Sound.pcs
    | with_reducible apply Sound.ite
    | fail_if_no_progress with_reducible apply Sound.keep
    | (intro _ _ _)
    | (intro _ _)
    | split
    | dsimp only

theorem Sound.applyMCfg (h : Sound φ κ ρ s) {old : Nat} : Sound φ κ ρ (Sys2Proof.Machine.applyMCfg s old) := by
  unfold Sys2Proof.Machine.applyMCfg
  repeat' first
    | with_reducible assumption
    | with_reducible apply Sound.dropQueues
    | with_reducible apply Sound.linkOwn
    | with_reducible apply Sound.ite
    | fail_if_no_progress with_reducible apply Sound.keep
    | (intro _ _ _)
    | (intro _ _)
    | split
    | dsimp only

end Sys2Proof.Machine
end

