-- ==== Sys2Proof/Laws/SoundSessions.lean ====
section
/-! SUPPORT. What every command keeps: the functions of Machine/Sessions.lean. -/

namespace Sys2Proof.Machine

set_option linter.unusedTactic false
set_option linter.unreachableTactic false

variable {φ : Fuses} {κ : List Instr} {ρ : Nat} {s : State}

theorem Sound.setSess (h : Sound φ κ ρ s) {ss : Nat} {x : Option Session} : Sound φ κ ρ (Sys2Proof.Machine.State.setSess s ss x) := by
  unfold Sys2Proof.Machine.State.setSess
  repeat' first
    | with_reducible assumption
    | with_reducible apply Sound.put
    | with_reducible apply Sound.ite
    | fail_if_no_progress with_reducible apply Sound.keep
    | (intro _ _ _)
    | (intro _ _)
    | split
    | dsimp only

theorem Sound.udpOut (h : Sound φ κ ρ s) {p : Nat} {mac : Nat} {ip : Nat} {udp : Nat} {data : List Byte} : Sound φ κ ρ (Sys2Proof.Machine.State.udpOut s p mac ip udp data) := by
  unfold Sys2Proof.Machine.State.udpOut
  repeat' first
    | with_reducible assumption
    | with_reducible apply Sound.bump
    | with_reducible apply Sound.sendOwn
    | with_reducible apply Sound.udpFrame
    | with_reducible apply Sound.ite
    | fail_if_no_progress with_reducible apply Sound.keep
    | (intro _ _ _)
    | (intro _ _)
    | split
    | dsimp only

theorem Sound.reply (h : Sound φ κ ρ s) {t : ReplyTo} {body : List Byte} : Sound φ κ ρ (Sys2Proof.Machine.State.reply s t body) := by
  unfold Sys2Proof.Machine.State.reply
  repeat' first
    | with_reducible assumption
    | with_reducible apply Sound.bump
    | with_reducible apply Sound.each
    | with_reducible apply Sound.udpOut
    | with_reducible apply Sound.ite
    | fail_if_no_progress with_reducible apply Sound.keep
    | (intro _ _ _)
    | (intro _ _)
    | split
    | dsimp only

theorem Sound.notifyOut (h : Sound φ κ ρ s) {ss : Nat} {body : List Byte} : Sound φ κ ρ (Sys2Proof.Machine.State.notifyOut s ss body) := by
  unfold Sys2Proof.Machine.State.notifyOut
  repeat' first
    | with_reducible assumption
    | with_reducible apply Sound.bump
    | with_reducible apply Sound.setSess
    | with_reducible apply Sound.udpOut
    | with_reducible apply Sound.ite
    | fail_if_no_progress with_reducible apply Sound.keep
    | (intro _ _ _)
    | (intro _ _)
    | split
    | dsimp only

theorem Sound.sessEnd (h : Sound φ κ ρ s) {ss : Nat} {cause : Nat} : Sound φ κ ρ (Sys2Proof.Machine.State.sessEnd s ss cause) := by
  unfold Sys2Proof.Machine.State.sessEnd
  repeat' first
    | with_reducible assumption
    | with_reducible apply Sound.post
    | with_reducible apply Sound.setSess
    | with_reducible apply Sound.ite
    | fail_if_no_progress with_reducible apply Sound.keep
    | (intro _ _ _)
    | (intro _ _)
    | split
    | dsimp only

theorem Sound.sessClose (h : Sound φ κ ρ s) {ss : Nat} {cause : Nat} : Sound φ κ ρ (Sys2Proof.Machine.State.sessClose s ss cause) := by
  unfold Sys2Proof.Machine.State.sessClose
  repeat' first
    | with_reducible assumption
    | with_reducible apply Sound.sessEnd
    | with_reducible apply Sound.ite
    | fail_if_no_progress with_reducible apply Sound.keep
    | (intro _ _ _)
    | (intro _ _)
    | split
    | dsimp only

theorem Sound.sessCloseIf (h : Sound φ κ ρ s) {f : Session → Bool} {cause : Nat} : Sound φ κ ρ (Sys2Proof.Machine.State.sessCloseIf s f cause) := by
  unfold Sys2Proof.Machine.State.sessCloseIf
  repeat' first
    | with_reducible assumption
    | with_reducible apply Sound.each
    | with_reducible apply Sound.sessClose
    | with_reducible apply Sound.ite
    | fail_if_no_progress with_reducible apply Sound.keep
    | (intro _ _ _)
    | (intro _ _)
    | split
    | dsimp only

theorem Sound.applyKdpCfg (h : Sound φ κ ρ s) {old : Nat} : Sound φ κ ρ (Sys2Proof.Machine.applyKdpCfg s old) := by
  unfold Sys2Proof.Machine.applyKdpCfg
  repeat' first
    | with_reducible assumption
    | with_reducible apply Sound.sessCloseIf
    | with_reducible apply Sound.ite
    | fail_if_no_progress with_reducible apply Sound.keep
    | (intro _ _ _)
    | (intro _ _)
    | split
    | dsimp only

theorem Sound.applyKey (h : Sound φ κ ρ s) {k : Nat} : Sound φ κ ρ (Sys2Proof.Machine.applyKey s k) := by
  unfold Sys2Proof.Machine.applyKey
  repeat' first
    | with_reducible assumption
    | with_reducible apply Sound.wr
    | with_reducible apply Sound.sessCloseIf
    | fail_if_no_progress with_reducible apply Sound.keep
    | (intro _ _ _)
    | (intro _ _)
    | split
    | dsimp only

theorem Sound.applyKeyCfg (h : Sound φ κ ρ s) {k : Nat} : Sound φ κ ρ (Sys2Proof.Machine.applyKeyCfg s k) := by
  unfold Sys2Proof.Machine.applyKeyCfg
  repeat' first
    | with_reducible assumption
    | with_reducible apply Sound.sessCloseIf
    | fail_if_no_progress with_reducible apply Sound.keep
    | (intro _ _ _)
    | (intro _ _)
    | split
    | dsimp only

theorem Sound.applySessionClose (h : Sound φ κ ρ s) {ss : Nat} : Sound φ κ ρ (Sys2Proof.Machine.applySessionClose s ss) := by
  unfold Sys2Proof.Machine.applySessionClose
  repeat' first
    | with_reducible assumption
    | with_reducible apply Sound.sessClose
    | fail_if_no_progress with_reducible apply Sound.keep
    | (intro _ _ _)
    | (intro _ _)
    | split
    | dsimp only

theorem Sound.execSessionIdleTimeout (h : Sound φ κ ρ s) {ss : Nat} : ∃ τ, Sys2Proof.Machine.execSessionIdleTimeout ss s = .next τ ∧ Sound φ κ ρ τ := by
  refine ⟨_, rfl, ?_⟩
  repeat' first
    | with_reducible assumption
    | with_reducible apply Sound.bump
    | with_reducible apply Sound.advance
    | with_reducible apply Sound.sessEnd
    | with_reducible apply Sound.ite
    | fail_if_no_progress with_reducible apply Sound.keep
    | (intro _ _ _)
    | (intro _ _)
    | split
    | dsimp only

theorem Sound.execSessionAuthTimeout (h : Sound φ κ ρ s) {ss : Nat} : ∃ τ, Sys2Proof.Machine.execSessionAuthTimeout ss s = .next τ ∧ Sound φ κ ρ τ := by
  refine ⟨_, rfl, ?_⟩
  repeat' first
    | with_reducible assumption
    | with_reducible apply Sound.bump
    | with_reducible apply Sound.draw
    | with_reducible apply Sound.advance
    | with_reducible apply Sound.sessEnd
    | with_reducible apply Sound.ite
    | fail_if_no_progress with_reducible apply Sound.keep
    | (intro _ _ _)
    | (intro _ _)
    | split
    | dsimp only

theorem Sound.execAuthLockoutEnd (h : Sound φ κ ρ s) {ip : Nat} : ∃ τ, Sys2Proof.Machine.execAuthLockoutEnd ip s = .next τ ∧ Sound φ κ ρ τ := by
  refine ⟨_, rfl, ?_⟩
  repeat' first
    | with_reducible assumption
    | with_reducible apply Sound.advance
    | fail_if_no_progress with_reducible apply Sound.keep
    | (intro _ _ _)
    | (intro _ _)
    | split
    | dsimp only

theorem Sound.authPost (h : Sound φ κ ρ s) {slot : Nat} {count : Nat} {ip : Nat} : Sound φ κ ρ (Sys2Proof.Machine.State.authPost s slot count ip) := by
  unfold Sys2Proof.Machine.State.authPost
  repeat' first
    | with_reducible assumption
    | with_reducible apply Sound.post
    | fail_if_no_progress with_reducible apply Sound.keep
    | (intro _ _ _)
    | (intro _ _)
    | split
    | dsimp only

theorem Sound.execAuthFailWindowEnd (h : Sound φ κ ρ s) : ∃ τ, Sys2Proof.Machine.execAuthFailWindowEnd s = .next τ ∧ Sound φ κ ρ τ := by
  refine ⟨_, rfl, ?_⟩
  repeat' first
    | with_reducible assumption
    | with_reducible apply Sound.authPost
    | with_reducible apply Sound.ite
    | fail_if_no_progress with_reducible apply Sound.keep
    | (intro _ _ _)
    | (intro _ _)
    | split
    | dsimp only

theorem Sound.authFailed (h : Sound φ κ ρ s) {slot : Nat} {ip : Nat} : Sound φ κ ρ (Sys2Proof.Machine.State.authFailed s slot ip) := by
  unfold Sys2Proof.Machine.State.authFailed
  repeat' first
    | with_reducible assumption
    | with_reducible apply Sound.bump
    | with_reducible apply Sound.authPost
    | with_reducible apply Sound.ite
    | fail_if_no_progress with_reducible apply Sound.keep
    | (intro _ _ _)
    | (intro _ _)
    | split
    | dsimp only

end Sys2Proof.Machine
end

