-- ==== Sys2Proof/Laws/SoundTone.lean ====
section
/-! SUPPORT. What every command keeps: the functions of Machine/Tone.lean. -/

namespace Sys2Proof.Machine

set_option linter.unusedTactic false
set_option linter.unreachableTactic false

variable {φ : Fuses} {κ : List Instr} {ρ : Nat} {s : State}

theorem Sound.setTone (h : Sound φ κ ρ s) {g : Nat} {x : Tone} : Sound φ κ ρ (Sys2Proof.Machine.State.setTone s g x) := by
  unfold Sys2Proof.Machine.State.setTone
  repeat' first
    | with_reducible assumption
    | with_reducible apply Sound.put
    | fail_if_no_progress with_reducible apply Sound.keep
    | (intro _ _ _)
    | (intro _ _)
    | split
    | dsimp only

theorem Sound.toneRestart (h : Sound φ κ ρ s) {g : Nat} : Sound φ κ ρ (Sys2Proof.Machine.State.toneRestart s g) := by
  unfold Sys2Proof.Machine.State.toneRestart
  repeat' first
    | with_reducible assumption
    | with_reducible apply Sound.setTone
    | fail_if_no_progress with_reducible apply Sound.keep
    | (intro _ _ _)
    | (intro _ _)
    | split
    | dsimp only

theorem Sound.applyToneCtrl (h : Sound φ κ ρ s) {g : Nat} {old : Nat} : Sound φ κ ρ (Sys2Proof.Machine.applyToneCtrl s g old) := by
  unfold Sys2Proof.Machine.applyToneCtrl
  repeat' first
    | with_reducible assumption
    | with_reducible apply Sound.toneRestart
    | with_reducible apply Sound.ite
    | fail_if_no_progress with_reducible apply Sound.keep
    | (intro _ _ _)
    | (intro _ _)
    | split
    | dsimp only

theorem Sound.toneTick (h : Sound φ κ ρ s) {g : Nat} {n : Nat} {rate : Nat} : Sound φ κ ρ (Sys2Proof.Machine.State.toneTick s g n rate) := by
  unfold Sys2Proof.Machine.State.toneTick
  repeat' first
    | with_reducible assumption
    | with_reducible apply Sound.draw
    | with_reducible apply Sound.setTone
    | with_reducible apply Sound.ite
    | fail_if_no_progress with_reducible apply Sound.keep
    | (intro _ _ _)
    | (intro _ _)
    | split
    | dsimp only

theorem Sound.tonesTick (h : Sound φ κ ρ s) {d : Nat} {n : Nat} : Sound φ κ ρ (Sys2Proof.Machine.State.tonesTick s d n) := by
  unfold Sys2Proof.Machine.State.tonesTick
  repeat' first
    | with_reducible assumption
    | with_reducible apply Sound.units
    | with_reducible apply Sound.toneTick
    | with_reducible apply Sound.ite
    | fail_if_no_progress with_reducible apply Sound.keep
    | (intro _ _ _)
    | (intro _ _)
    | split
    | dsimp only

end Sys2Proof.Machine
end

