-- ==== Sys2Proof/Laws/SoundTicks.lean ====
section
/-! SUPPORT. What every command keeps: the functions of Machine/Ticks.lean. -/

namespace Sys2Proof.Machine

set_option linter.unusedTactic false
set_option linter.unreachableTactic false

variable {φ : Fuses} {κ : List Instr} {ρ : Nat} {s : State}

theorem Sound.putSink (h : Sound φ κ ρ s) {o : Nat} {v : Nat} {label : Option Nat} : Sound φ κ ρ (Sys2Proof.Machine.State.putSink s o v label) := by
  unfold Sys2Proof.Machine.State.putSink
  repeat' first
    | with_reducible assumption
    | with_reducible apply Sound.put
    | fail_if_no_progress with_reducible apply Sound.keep
    | (intro _ _ _)
    | (intro _ _)
    | split
    | dsimp only

theorem Sound.copyTo (h : Sound φ κ ρ s) {o : Nat} {v : Nat × Option Nat} : Sound φ κ ρ (Sys2Proof.Machine.State.copyTo s o v) := by
  unfold Sys2Proof.Machine.State.copyTo
  repeat' first
    | with_reducible assumption
    | with_reducible apply Sound.delay
    | with_reducible apply Sound.putSink
    | fail_if_no_progress with_reducible apply Sound.keep
    | (intro _ _ _)
    | (intro _ _)
    | split
    | dsimp only

theorem Sound.fillStage (h : Sound φ κ ρ s) {d : Nat} {two : Bool} {late : List Nat} {wait : List Nat} : Sound φ κ ρ (Sys2Proof.Machine.State.fillStage s d two late wait) := by
  unfold Sys2Proof.Machine.State.fillStage
  repeat' first
    | with_reducible assumption
    | with_reducible apply Sound.each
    | with_reducible apply Sound.setTick
    | with_reducible apply Sound.copyTo
    | with_reducible apply Sound.ite
    | fail_if_no_progress with_reducible apply Sound.keep
    | (intro _ _ _)
    | (intro _ _)
    | split
    | dsimp only

theorem Sound.copyMissed (h : Sound φ κ ρ s) {x : LateCopy} : Sound φ κ ρ (Sys2Proof.Machine.State.copyMissed s x) := by
  unfold Sys2Proof.Machine.State.copyMissed
  repeat' first
    | with_reducible assumption
    | with_reducible apply Sound.bump
    | with_reducible apply Sound.draw
    | with_reducible apply Sound.delay
    | with_reducible apply Sound.ite
    | fail_if_no_progress with_reducible apply Sound.keep
    | (intro _ _ _)
    | (intro _ _)
    | split
    | dsimp only

theorem Sound.lateInput (h : Sound φ κ ρ s) {n : Nat} {o : Nat} : Sound φ κ ρ (Sys2Proof.Machine.State.lateInput s n o) := by
  unfold Sys2Proof.Machine.State.lateInput
  repeat' first
    | with_reducible assumption
    | with_reducible apply Sound.put
    | with_reducible apply Sound.setConv
    | with_reducible apply Sound.setRoom
    | with_reducible apply Sound.ite
    | fail_if_no_progress with_reducible apply Sound.keep
    | (intro _ _ _)
    | (intro _ _)
    | split
    | dsimp only

theorem Sound.blocksLate (h : Sound φ κ ρ s) {d : Nat} {n : Nat} : Sound φ κ ρ (Sys2Proof.Machine.State.blocksLate s d n) := by
  unfold Sys2Proof.Machine.State.blocksLate
  repeat' first
    | with_reducible assumption
    | with_reducible apply Sound.each
    | with_reducible apply Sound.blockWindow
    | with_reducible apply Sound.blockResult
    | with_reducible apply Sound.setRoom
    | with_reducible apply Sound.ite
    | fail_if_no_progress with_reducible apply Sound.keep
    | (intro _ _ _)
    | (intro _ _)
    | split
    | dsimp only

theorem Sound.positionsDiffer (h : Sound φ κ ρ s) {d : Nat} {l : List Nat} : Sound φ κ ρ (Sys2Proof.Machine.State.positionsDiffer s d l) := by
  unfold Sys2Proof.Machine.State.positionsDiffer
  repeat' first
    | with_reducible assumption
    | with_reducible apply Sound.each
    | with_reducible apply Sound.mismatch
    | fail_if_no_progress with_reducible apply Sound.keep
    | (intro _ _ _)
    | (intro _ _)
    | split
    | dsimp only

theorem Sound.abandonWork (h : Sound φ κ ρ s) {d : Nat} : Sound φ κ ρ (Sys2Proof.Machine.State.abandonWork s d) := by
  unfold Sys2Proof.Machine.State.abandonWork
  repeat' first
    | with_reducible assumption
    | with_reducible apply Sound.bump
    | with_reducible apply Sound.each
    | with_reducible apply Sound.recTick
    | with_reducible apply Sound.hallClose
    | with_reducible apply Sound.copyMissed
    | with_reducible apply Sound.ite
    | fail_if_no_progress with_reducible apply Sound.keep
    | (intro _ _ _)
    | (intro _ _)
    | split
    | dsimp only

theorem Sound.tickClose (h : Sound φ κ ρ s) {d : Nat} : Sound φ κ ρ (Sys2Proof.Machine.State.tickClose s d) := by
  unfold Sys2Proof.Machine.State.tickClose
  repeat' first
    | with_reducible assumption
    | with_reducible apply Sound.setTick
    | with_reducible apply Sound.dlMiss
    | with_reducible apply Sound.tickResult
    | with_reducible apply Sound.blocksLate
    | with_reducible apply Sound.abandonWork
    | with_reducible apply Sound.ite
    | fail_if_no_progress with_reducible apply Sound.keep
    | (intro _ _ _)
    | (intro _ _)
    | split
    | dsimp only

theorem Sound.execTickDeadline (h : Sound φ κ ρ s) {d : Nat} : ∃ τ, Sys2Proof.Machine.execTickDeadline d s = .next τ ∧ Sound φ κ ρ τ := by
  refine ⟨_, rfl, ?_⟩
  repeat' first
    | with_reducible assumption
    | with_reducible apply Sound.together
    | with_reducible apply Sound.advance
    | with_reducible apply Sound.tickClose
    | with_reducible apply Sound.ite
    | fail_if_no_progress with_reducible apply Sound.keep
    | (intro _ _ _)
    | (intro _ _)
    | split
    | dsimp only

theorem Sound.hallShow (h : Sound φ κ ρ s) : Sound φ κ ρ (Sys2Proof.Machine.State.hallShow s) := by
  unfold Sys2Proof.Machine.State.hallShow
  repeat' first
    | with_reducible assumption
    | fail_if_no_progress with_reducible apply Sound.keep
    | (intro _ _ _)
    | (intro _ _)
    | split
    | dsimp only

theorem Sound.edgeStages (h : Sound φ κ ρ s) {d : Nat} {q : Nat} {launch : Bool} : Sound φ κ ρ (Sys2Proof.Machine.State.edgeStages s d q launch) := by
  unfold Sys2Proof.Machine.State.edgeStages
  repeat' first
    | with_reducible assumption
    | with_reducible apply Sound.streamPairs
    | with_reducible apply Sound.streamCapture
    | with_reducible apply Sound.streamLaunch
    | with_reducible apply Sound.tdmCapture
    | with_reducible apply Sound.tdmLaunch
    | with_reducible apply Sound.ite
    | fail_if_no_progress with_reducible apply Sound.keep
    | (intro _ _ _)
    | (intro _ _)
    | split
    | dsimp only

theorem Sound.hallStage (h : Sound φ κ ρ s) {d : Nat} {w : TickWork} : Sound φ κ ρ (Sys2Proof.Machine.State.hallStage s d w) := by
  unfold Sys2Proof.Machine.State.hallStage
  repeat' first
    | with_reducible assumption
    | with_reducible apply Sound.hallCompute
    | with_reducible apply Sound.hallDamages
    | with_reducible apply Sound.hallTestTick
    | with_reducible apply Sound.ite
    | fail_if_no_progress with_reducible apply Sound.keep
    | (intro _ _ _)
    | (intro _ _)
    | split
    | dsimp only

theorem Sound.recStage (h : Sound φ κ ρ s) {d : Nat} {n : Nat} {late : Bool} : Sound φ κ ρ (Sys2Proof.Machine.State.recStage s d n late) := by
  unfold Sys2Proof.Machine.State.recStage
  repeat' first
    | with_reducible assumption
    | with_reducible apply Sound.setTick
    | with_reducible apply Sound.recTick
    | with_reducible apply Sound.ite
    | fail_if_no_progress with_reducible apply Sound.keep
    | (intro _ _ _)
    | (intro _ _)
    | split
    | dsimp only

theorem Sound.workStages (h : Sound φ κ ρ s) {d : Nat} {n : Nat} {q : Nat} {w : TickWork} : Sound φ κ ρ (Sys2Proof.Machine.State.workStages s d n q w) := by
  unfold Sys2Proof.Machine.State.workStages
  repeat' first
    | with_reducible assumption
    | with_reducible apply Sound.each
    | with_reducible apply Sound.setTick
    | with_reducible apply Sound.convEdges
    | with_reducible apply Sound.convInputs
    | with_reducible apply Sound.roomResume
    | with_reducible apply Sound.roomTick
    | with_reducible apply Sound.roomAfter
    | with_reducible apply Sound.roomPresent
    | with_reducible apply Sound.tonesTick
    | with_reducible apply Sound.fillStage
    | with_reducible apply Sound.positionsDiffer
    | with_reducible apply Sound.hallShow
    | with_reducible apply Sound.hallStage
    | with_reducible apply Sound.recStage
    | with_reducible apply Sound.ite
    | fail_if_no_progress with_reducible apply Sound.keep
    | (intro _ _ _)
    | (intro _ _)
    | split
    | dsimp only

theorem Sound.tickBegin (h : Sound φ κ ρ s) {d : Nat} {q : Nat} {slack : Nat} {w : TickWork} : Sound φ κ ρ (Sys2Proof.Machine.State.tickBegin s d q slack w) := by
  unfold Sys2Proof.Machine.State.tickBegin
  repeat' first
    | with_reducible assumption
    | with_reducible apply Sound.put
    | with_reducible apply Sound.each
    | with_reducible apply Sound.setTick
    | with_reducible apply Sound.wclkEdges
    | with_reducible apply Sound.faultDue
    | with_reducible apply Sound.tickClose
    | with_reducible apply Sound.edgeStages
    | with_reducible apply Sound.workStages
    | with_reducible apply Sound.ite
    | fail_if_no_progress with_reducible apply Sound.keep
    | (intro _ _ _)
    | (intro _ _)
    | split
    | dsimp only

theorem Sound.execTickEdge (h : Sound φ κ ρ s) {d : Nat} {slack : Nat} {w : TickWork} : ∃ τ, Sys2Proof.Machine.execTickEdge d slack w s = .next τ ∧ Sound φ κ ρ τ := by
  refine ⟨_, rfl, ?_⟩
  repeat' first
    | with_reducible assumption
    | with_reducible apply Sound.together
    | with_reducible apply Sound.advance
    | with_reducible apply Sound.tickBegin
    | with_reducible apply Sound.ite
    | fail_if_no_progress with_reducible apply Sound.keep
    | (intro _ _ _)
    | (intro _ _)
    | split
    | dsimp only

theorem Sound.copyDone (h : Sound φ κ ρ s) {late : List Nat} {x : LateCopy} : Sound φ κ ρ (Sys2Proof.Machine.State.copyDone s late x) := by
  unfold Sys2Proof.Machine.State.copyDone
  repeat' first
    | with_reducible assumption
    | with_reducible apply Sound.copyTo
    | with_reducible apply Sound.ite
    | fail_if_no_progress with_reducible apply Sound.keep
    | (intro _ _ _)
    | (intro _ _)
    | split
    | dsimp only

theorem Sound.finishWork (h : Sound φ κ ρ s) {d : Nat} : Sound φ κ ρ (Sys2Proof.Machine.State.finishWork s d) := by
  unfold Sys2Proof.Machine.State.finishWork
  repeat' first
    | with_reducible assumption
    | with_reducible apply Sound.each
    | with_reducible apply Sound.convSample
    | with_reducible apply Sound.recTick
    | with_reducible apply Sound.hallFinish
    | with_reducible apply Sound.lateInput
    | with_reducible apply Sound.copyDone
    | with_reducible apply Sound.ite
    | fail_if_no_progress with_reducible apply Sound.keep
    | (intro _ _ _)
    | (intro _ _)
    | split
    | dsimp only

theorem Sound.domainHalt (h : Sound φ κ ρ s) {d : Nat} : Sound φ κ ρ (Sys2Proof.Machine.State.domainHalt s d) := by
  unfold Sys2Proof.Machine.State.domainHalt
  repeat' first
    | with_reducible assumption
    | with_reducible apply Sound.wr
    | with_reducible apply Sound.units
    | with_reducible apply Sound.setTick
    | with_reducible apply Sound.setSideSlew
    | with_reducible apply Sound.wclkStop
    | with_reducible apply Sound.idleArm
    | with_reducible apply Sound.finishWork
    | with_reducible apply Sound.ite
    | fail_if_no_progress with_reducible apply Sound.keep
    | (intro _ _ _)
    | (intro _ _)
    | split
    | dsimp only

end Sys2Proof.Machine
end

