-- ==== Sys2Proof/Laws/SoundDomains.lean ====
section
/-! SUPPORT. What every command keeps: the functions of Machine/Domains.lean. -/

namespace Sys2Proof.Machine

set_option linter.unusedTactic false
set_option linter.unreachableTactic false

variable {φ : Fuses} {κ : List Instr} {ρ : Nat} {s : State}

theorem Sound.overrunsRestart (h : Sound φ κ ρ s) {d : Nat} : Sound φ κ ρ (Sys2Proof.Machine.State.overrunsRestart s d) := by
  unfold Sys2Proof.Machine.State.overrunsRestart
  repeat' first
    | with_reducible assumption
    | with_reducible apply Sound.each
    | with_reducible apply Sound.setGuarded
    | with_reducible apply Sound.ite
    | fail_if_no_progress with_reducible apply Sound.keep
    | (intro _ _ _)
    | (intro _ _)
    | split
    | dsimp only

theorem Sound.domainStart (h : Sound φ κ ρ s) {d : Nat} : Sound φ κ ρ (Sys2Proof.Machine.State.domainStart s d) := by
  unfold Sys2Proof.Machine.State.domainStart
  repeat' first
    | with_reducible assumption
    | with_reducible apply Sound.put
    | with_reducible apply Sound.wr
    | with_reducible apply Sound.units
    | with_reducible apply Sound.setTick
    | with_reducible apply Sound.dlRestart
    | with_reducible apply Sound.idleArm
    | with_reducible apply Sound.hmFresh
    | with_reducible apply Sound.setSide
    | with_reducible apply Sound.toneRestart
    | with_reducible apply Sound.overrunsRestart
    | with_reducible apply Sound.ite
    | fail_if_no_progress with_reducible apply Sound.keep
    | (intro _ _ _)
    | (intro _ _)
    | split
    | dsimp only

theorem Sound.applyMdCtrl (h : Sound φ κ ρ s) {d : Nat} {old : Nat} : Sound φ κ ρ (Sys2Proof.Machine.applyMdCtrl s d old) := by
  unfold Sys2Proof.Machine.applyMdCtrl
  repeat' first
    | with_reducible assumption
    | with_reducible apply Sound.domainHalt
    | with_reducible apply Sound.domainStart
    | fail_if_no_progress with_reducible apply Sound.keep
    | (intro _ _ _)
    | (intro _ _)
    | split
    | dsimp only

end Sys2Proof.Machine
end

