-- ==== Sys2Proof/Laws/SoundTriggers.lean ====
section
/-! SUPPORT. What every command keeps: the functions of Machine/Triggers.lean. -/

namespace Sys2Proof.Machine

set_option linter.unusedTactic false
set_option linter.unreachableTactic false

variable {φ : Fuses} {κ : List Instr} {ρ : Nat} {s : State}

theorem Sound.applyTtCtrl (h : Sound φ κ ρ s) {tt : Nat} {old : Nat} : Sound φ κ ρ (Sys2Proof.Machine.applyTtCtrl s tt old) := by
  unfold Sys2Proof.Machine.applyTtCtrl
  repeat' first
    | with_reducible assumption
    | with_reducible apply Sound.wr
    | with_reducible apply Sound.bumpIf
    | with_reducible apply Sound.setTrig
    | fail_if_no_progress with_reducible apply Sound.keep
    | (intro _ _ _)
    | (intro _ _)
    | split
    | dsimp only

theorem Sound.trigAct (h : Sound φ κ ρ s) {action : Nat} {unit : Nat} {at_ : Nat} : Sound φ κ ρ (Sys2Proof.Machine.State.trigAct s action unit at_) := by
  unfold Sys2Proof.Machine.State.trigAct
  repeat' first
    | with_reducible assumption
    | with_reducible apply Sound.trigOut
    | with_reducible apply Sound.rxRequest
    | with_reducible apply Sound.txRequest
    | with_reducible apply Sound.roomRequest
    | with_reducible apply Sound.sideRequest
    | fail_if_no_progress with_reducible apply Sound.keep
    | (intro _ _ _)
    | (intro _ _)
    | split
    | dsimp only

theorem Sound.trigFire (h : Sound φ κ ρ s) {tt : Nat} : Sound φ κ ρ (Sys2Proof.Machine.State.trigFire s tt) := by
  unfold Sys2Proof.Machine.State.trigFire
  repeat' first
    | with_reducible assumption
    | with_reducible apply Sound.wr
    | with_reducible apply Sound.bump
    | with_reducible apply Sound.post
    | with_reducible apply Sound.setTrig
    | with_reducible apply Sound.trigAct
    | with_reducible apply Sound.ite
    | fail_if_no_progress with_reducible apply Sound.keep
    | (intro _ _ _)
    | (intro _ _)
    | split
    | dsimp only

theorem Sound.execEvtInEdge (h : Sound φ κ ρ s) {i : Nat} {rising : Bool} {short : Bool} {q : Nat} : ∃ τ, Sys2Proof.Machine.execEvtInEdge i rising short q s = .next τ ∧ Sound φ κ ρ τ := by
  refine ⟨_, rfl, ?_⟩
  repeat' first
    | with_reducible assumption
    | with_reducible apply Sound.bump
    | with_reducible apply Sound.post
    | with_reducible apply Sound.together
    | with_reducible apply Sound.setEvt
    | with_reducible apply Sound.advance
    | with_reducible apply Sound.ite
    | fail_if_no_progress with_reducible apply Sound.keep
    | (intro _ _ _)
    | (intro _ _)
    | split
    | dsimp only

theorem Sound.execTrigOutPulseEnd (h : Sound φ κ ρ s) {o : Nat} : ∃ τ, Sys2Proof.Machine.execTrigOutPulseEnd o s = .next τ ∧ Sound φ κ ρ τ := by
  refine ⟨_, rfl, ?_⟩
  repeat' first
    | with_reducible assumption
    | with_reducible apply Sound.setOut
    | with_reducible apply Sound.advance
    | with_reducible apply Sound.ite
    | fail_if_no_progress with_reducible apply Sound.keep
    | (intro _ _ _)
    | (intro _ _)
    | split
    | dsimp only

theorem Sound.execTriggerFire (h : Sound φ κ ρ s) {tt : Nat} : ∃ τ, Sys2Proof.Machine.execTriggerFire tt s = .next τ ∧ Sound φ κ ρ τ := by
  refine ⟨_, rfl, ?_⟩
  repeat' first
    | with_reducible assumption
    | with_reducible apply Sound.together
    | with_reducible apply Sound.advance
    | with_reducible apply Sound.trigFire
    | with_reducible apply Sound.ite
    | fail_if_no_progress with_reducible apply Sound.keep
    | (intro _ _ _)
    | (intro _ _)
    | split
    | dsimp only

end Sys2Proof.Machine
end

