-- ==== Sys2Proof/Laws/SoundMonitor.lean ====
section
/-! SUPPORT. What every command keeps: the functions of Machine/Monitor.lean. -/

namespace Sys2Proof.Machine

set_option linter.unusedTactic false
set_option linter.unreachableTactic false

variable {φ : Fuses} {κ : List Instr} {ρ : Nat} {s : State}

theorem Sound.tempGo (h : Sound φ κ ρ s) {crit : Bool} {up : Bool} : Sound φ κ ρ (Sys2Proof.Machine.State.tempGo s crit up) := by
  unfold Sys2Proof.Machine.State.tempGo
  repeat' first
    | with_reducible assumption
    | with_reducible apply Sound.post
    | with_reducible apply Sound.ite
    | fail_if_no_progress with_reducible apply Sound.keep
    | (intro _ _ _)
    | (intro _ _)
    | split
    | dsimp only

theorem Sound.tempLevel (h : Sound φ κ ρ s) {crit : Bool} : Sound φ κ ρ (Sys2Proof.Machine.State.tempLevel s crit) := by
  unfold Sys2Proof.Machine.State.tempLevel
  repeat' first
    | with_reducible assumption
    | with_reducible apply Sound.tempGo
    | with_reducible apply Sound.ite
    | fail_if_no_progress with_reducible apply Sound.keep
    | (intro _ _ _)
    | (intro _ _)
    | split
    | dsimp only

theorem Sound.tempRelevel (h : Sound φ κ ρ s) {crit : Bool} : Sound φ κ ρ (Sys2Proof.Machine.State.tempRelevel s crit) := by
  unfold Sys2Proof.Machine.State.tempRelevel
  repeat' first
    | with_reducible assumption
    | with_reducible apply Sound.tempGo
    | with_reducible apply Sound.ite
    | fail_if_no_progress with_reducible apply Sound.keep
    | (intro _ _ _)
    | (intro _ _)
    | split
    | dsimp only

theorem Sound.tempClamp (h : Sound φ κ ρ s) : Sound φ κ ρ (Sys2Proof.Machine.State.tempClamp s) := by
  unfold Sys2Proof.Machine.State.tempClamp
  repeat' first
    | with_reducible assumption
    | with_reducible apply Sound.wr
    | with_reducible apply Sound.ceilCheck
    | with_reducible apply Sound.vidDrive
    | with_reducible apply Sound.idleArm
    | with_reducible apply Sound.ite
    | fail_if_no_progress with_reducible apply Sound.keep
    | (intro _ _ _)
    | (intro _ _)
    | split
    | dsimp only

theorem Sound.execTempSample (h : Sound φ κ ρ s) {t : List Int} : ∃ τ, Sys2Proof.Machine.execTempSample t s = .next τ ∧ Sound φ κ ρ τ := by
  refine ⟨_, rfl, ?_⟩
  repeat' first
    | with_reducible assumption
    | with_reducible apply Sound.wr
    | with_reducible apply Sound.together
    | with_reducible apply Sound.tempLevel
    | with_reducible apply Sound.tempClamp
    | fail_if_no_progress with_reducible apply Sound.keep
    | (intro _ _ _)
    | (intro _ _)
    | split
    | dsimp only

theorem Sound.applyMonCfg (h : Sound φ κ ρ s) {old : Nat} : Sound φ κ ρ (Sys2Proof.Machine.applyMonCfg s old) := by
  unfold Sys2Proof.Machine.applyMonCfg
  repeat' first
    | with_reducible assumption
    | with_reducible apply Sound.tempRelevel
    | with_reducible apply Sound.ite
    | fail_if_no_progress with_reducible apply Sound.keep
    | (intro _ _ _)
    | (intro _ _)
    | split
    | dsimp only

theorem Sound.setSupply (h : Sound φ κ ρ s) {c : Nat} {x : Supply} : Sound φ κ ρ (Sys2Proof.Machine.State.setSupply s c x) := by
  unfold Sys2Proof.Machine.State.setSupply
  repeat' first
    | with_reducible assumption
    | with_reducible apply Sound.put
    | fail_if_no_progress with_reducible apply Sound.keep
    | (intro _ _ _)
    | (intro _ _)
    | split
    | dsimp only

theorem Sound.supplyPost (h : Sound φ κ ρ s) {c : Nat} {count : Nat} {x : Supply} : Sound φ κ ρ (Sys2Proof.Machine.State.supplyPost s c count x) := by
  unfold Sys2Proof.Machine.State.supplyPost
  repeat' first
    | with_reducible assumption
    | with_reducible apply Sound.post
    | fail_if_no_progress with_reducible apply Sound.keep
    | (intro _ _ _)
    | (intro _ _)
    | split
    | dsimp only

theorem Sound.execSupplySample (h : Sound φ κ ρ s) {c : Nat} {mv : Nat} : ∃ τ, Sys2Proof.Machine.execSupplySample c mv s = .next τ ∧ Sound φ κ ρ τ := by
  refine ⟨_, rfl, ?_⟩
  repeat' first
    | with_reducible assumption
    | with_reducible apply Sound.wr
    | with_reducible apply Sound.bump
    | with_reducible apply Sound.setSupply
    | with_reducible apply Sound.supplyPost
    | with_reducible apply Sound.foldFst
    | with_reducible apply Sound.foldl
    | with_reducible apply Sound.foldSnd
    | with_reducible apply Sound.ite
    | fail_if_no_progress with_reducible apply Sound.keep
    | (intro _ _ _)
    | (intro _ _)
    | split
    | dsimp only

theorem Sound.execSupplyWindowEnd (h : Sound φ κ ρ s) {c : Nat} : ∃ τ, Sys2Proof.Machine.execSupplyWindowEnd c s = .next τ ∧ Sound φ κ ρ τ := by
  refine ⟨_, rfl, ?_⟩
  repeat' first
    | with_reducible assumption
    | with_reducible apply Sound.setSupply
    | with_reducible apply Sound.supplyPost
    | with_reducible apply Sound.ite
    | fail_if_no_progress with_reducible apply Sound.keep
    | (intro _ _ _)
    | (intro _ _)
    | split
    | dsimp only

end Sys2Proof.Machine
end

