-- ==== Sys2Proof/Laws/SoundRoomOps.lean ====
section
/-! SUPPORT. What every command keeps: the functions of Machine/RoomOps.lean. -/

namespace Sys2Proof.Machine

set_option linter.unusedTactic false
set_option linter.unreachableTactic false

variable {φ : Fuses} {κ : List Instr} {ρ : Nat} {s : State}

theorem Sound.roomDone (h : Sound φ κ ρ s) {r : Nat} {rm : Room} {mbo : List Nat} : Sound φ κ ρ (Sys2Proof.Machine.State.roomDone s r rm mbo) := by
  unfold Sys2Proof.Machine.State.roomDone
  repeat' first
    | with_reducible assumption
    | with_reducible apply Sound.wr
    | with_reducible apply Sound.each
    | with_reducible apply Sound.post
    | with_reducible apply Sound.setRoom
    | with_reducible apply Sound.roomBegin
    | with_reducible apply Sound.ite
    | fail_if_no_progress with_reducible apply Sound.keep
    | (intro _ _ _)
    | (intro _ _)
    | split
    | dsimp only

theorem Sound.roomPass (h : Sound φ κ ρ s) {r : Nat} {rm : Room} {branch : Option (Option Nat × Bool)} {rep : Option Rep} : Sound φ κ ρ (Sys2Proof.Machine.State.roomPass s r rm branch rep) := by
  unfold Sys2Proof.Machine.State.roomPass
  repeat' first
    | with_reducible assumption
    | with_reducible apply Sound.roomDone
    | fail_if_no_progress with_reducible apply Sound.keep
    | (intro _ _ _)
    | (intro _ _)
    | split
    | dsimp only

theorem Sound.roomData (h : Sound φ κ ρ s) {r : Nat} {i : RoomInstr} {x : RoomArith} {f : ArithIn → ArithOut} : Sound φ κ ρ (Sys2Proof.Machine.State.roomData s r i x f) := by
  unfold Sys2Proof.Machine.State.roomData
  repeat' first
    | with_reducible assumption
    | with_reducible apply Sound.roomDone
    | with_reducible apply Sound.ite
    | fail_if_no_progress with_reducible apply Sound.keep
    | (intro _ _ _)
    | (intro _ _)
    | split
    | dsimp only

theorem Sound.roomArith (h : Sound φ κ ρ s) {r : Nat} {op : Nat} {f : ArithIn → ArithOut} : Sound φ κ ρ (Sys2Proof.Machine.State.roomArith s r op f) := by
  unfold Sys2Proof.Machine.State.roomArith
  repeat' first
    | with_reducible assumption
    | with_reducible apply Sound.roomData
    | fail_if_no_progress with_reducible apply Sound.keep
    | (intro _ _ _)
    | (intro _ _)
    | split
    | dsimp only

theorem Sound.roomMove (h : Sound φ κ ρ s) {r : Nat} {op : RoomOp} : Sound φ κ ρ (Sys2Proof.Machine.State.roomMove s r op) := by
  unfold Sys2Proof.Machine.State.roomMove
  repeat' first
    | with_reducible assumption
    | with_reducible apply Sound.roomData
    | fail_if_no_progress with_reducible apply Sound.keep
    | (intro _ _ _)
    | (intro _ _)
    | split
    | dsimp only

theorem Sound.execNop (h : Sound φ κ ρ s) {r : Nat} : ∃ τ, Sys2Proof.Machine.execNop r s = .next τ ∧ Sound φ κ ρ τ := by
  refine ⟨_, rfl, ?_⟩
  repeat' first
    | with_reducible assumption
    | with_reducible apply Sound.roomPass
    | fail_if_no_progress with_reducible apply Sound.keep
    | (intro _ _ _)
    | (intro _ _)
    | split
    | dsimp only

theorem Sound.execBra (h : Sound φ κ ρ s) {r : Nat} : ∃ τ, Sys2Proof.Machine.execBra r s = .next τ ∧ Sound φ κ ρ τ := by
  refine ⟨_, rfl, ?_⟩
  repeat' first
    | with_reducible assumption
    | with_reducible apply Sound.roomPass
    | with_reducible apply Sound.ite
    | fail_if_no_progress with_reducible apply Sound.keep
    | (intro _ _ _)
    | (intro _ _)
    | split
    | dsimp only

theorem Sound.execCall (h : Sound φ κ ρ s) {r : Nat} : ∃ τ, Sys2Proof.Machine.execCall r s = .next τ ∧ Sound φ κ ρ τ := by
  refine ⟨_, rfl, ?_⟩
  repeat' first
    | with_reducible assumption
    | with_reducible apply Sound.roomPass
    | with_reducible apply Sound.ite
    | fail_if_no_progress with_reducible apply Sound.keep
    | (intro _ _ _)
    | (intro _ _)
    | split
    | dsimp only

theorem Sound.execRet (h : Sound φ κ ρ s) {r : Nat} : ∃ τ, Sys2Proof.Machine.execRet r s = .next τ ∧ Sound φ κ ρ τ := by
  refine ⟨_, rfl, ?_⟩
  repeat' first
    | with_reducible assumption
    | with_reducible apply Sound.roomPass
    | with_reducible apply Sound.ite
    | fail_if_no_progress with_reducible apply Sound.keep
    | (intro _ _ _)
    | (intro _ _)
    | split
    | dsimp only

theorem Sound.execRti (h : Sound φ κ ρ s) {r : Nat} : ∃ τ, Sys2Proof.Machine.execRti r s = .next τ ∧ Sound φ κ ρ τ := by
  refine ⟨_, rfl, ?_⟩
  repeat' first
    | with_reducible assumption
    | with_reducible apply Sound.roomPass
    | fail_if_no_progress with_reducible apply Sound.keep
    | (intro _ _ _)
    | (intro _ _)
    | split
    | dsimp only

theorem Sound.execDbnz (h : Sound φ κ ρ s) {r : Nat} : ∃ τ, Sys2Proof.Machine.execDbnz r s = .next τ ∧ Sound φ κ ρ τ := by
  refine ⟨_, rfl, ?_⟩
  repeat' first
    | with_reducible assumption
    | with_reducible apply Sound.roomPass
    | with_reducible apply Sound.ite
    | fail_if_no_progress with_reducible apply Sound.keep
    | (intro _ _ _)
    | (intro _ _)
    | split
    | dsimp only

theorem Sound.execRep (h : Sound φ κ ρ s) {r : Nat} : ∃ τ, Sys2Proof.Machine.execRep r s = .next τ ∧ Sound φ κ ρ τ := by
  refine ⟨_, rfl, ?_⟩
  repeat' first
    | with_reducible assumption
    | with_reducible apply Sound.roomPass
    | with_reducible apply Sound.ite
    | fail_if_no_progress with_reducible apply Sound.keep
    | (intro _ _ _)
    | (intro _ _)
    | split
    | dsimp only

theorem Sound.execEndBlock (h : Sound φ κ ρ s) {r : Nat} {w : EndWork} : ∃ τ, Sys2Proof.Machine.execEndBlock r w s = .next τ ∧ Sound φ κ ρ τ := by
  refine ⟨_, rfl, ?_⟩
  repeat' first
    | with_reducible assumption
    | with_reducible apply Sound.together
    | with_reducible apply Sound.setRoom
    | with_reducible apply Sound.roomEnd
    | with_reducible apply Sound.dwEnd
    | with_reducible apply Sound.ite
    | fail_if_no_progress with_reducible apply Sound.keep
    | (intro _ _ _)
    | (intro _ _)
    | split
    | dsimp only

theorem Sound.execSwi (h : Sound φ κ ρ s) {r : Nat} : ∃ τ, Sys2Proof.Machine.execSwi r s = .next τ ∧ Sound φ κ ρ τ := by
  refine ⟨_, rfl, ?_⟩
  repeat' first
    | with_reducible assumption
    | with_reducible apply Sound.roomPass
    | fail_if_no_progress with_reducible apply Sound.keep
    | (intro _ _ _)
    | (intro _ _)
    | split
    | dsimp only

theorem Sound.execParallelMove (h : Sound φ κ ρ s) {r : Nat} : ∃ τ, Sys2Proof.Machine.execParallelMove r s = .next τ ∧ Sound φ κ ρ τ := by
  refine ⟨_, rfl, ?_⟩
  repeat' first
    | with_reducible assumption
    | with_reducible apply Sound.roomMove
    | fail_if_no_progress with_reducible apply Sound.keep
    | (intro _ _ _)
    | (intro _ _)
    | split
    | dsimp only

theorem Sound.execLongMove (h : Sound φ κ ρ s) {r : Nat} : ∃ τ, Sys2Proof.Machine.execLongMove r s = .next τ ∧ Sound φ κ ρ τ := by
  refine ⟨_, rfl, ?_⟩
  repeat' first
    | with_reducible assumption
    | with_reducible apply Sound.roomMove
    | fail_if_no_progress with_reducible apply Sound.keep
    | (intro _ _ _)
    | (intro _ _)
    | split
    | dsimp only

theorem Sound.execLdi (h : Sound φ κ ρ s) {r : Nat} : ∃ τ, Sys2Proof.Machine.execLdi r s = .next τ ∧ Sound φ κ ρ τ := by
  refine ⟨_, rfl, ?_⟩
  repeat' first
    | with_reducible assumption
    | with_reducible apply Sound.roomMove
    | fail_if_no_progress with_reducible apply Sound.keep
    | (intro _ _ _)
    | (intro _ _)
    | split
    | dsimp only

theorem Sound.execMove (h : Sound φ κ ρ s) {r : Nat} : ∃ τ, Sys2Proof.Machine.execMove r s = .next τ ∧ Sound φ κ ρ τ := by
  refine ⟨_, rfl, ?_⟩
  repeat' first
    | with_reducible assumption
    | with_reducible apply Sound.roomMove
    | fail_if_no_progress with_reducible apply Sound.keep
    | (intro _ _ _)
    | (intro _ _)
    | split
    | dsimp only

theorem Sound.execMpy (h : Sound φ κ ρ s) {r : Nat} : ∃ τ, Sys2Proof.Machine.execMpy r s = .next τ ∧ Sound φ κ ρ τ := by
  refine ⟨_, rfl, ?_⟩
  repeat' first
    | with_reducible assumption
    | with_reducible apply Sound.roomArith
    | fail_if_no_progress with_reducible apply Sound.keep
    | (intro _ _ _)
    | (intro _ _)
    | split
    | dsimp only

theorem Sound.execMpyn (h : Sound φ κ ρ s) {r : Nat} : ∃ τ, Sys2Proof.Machine.execMpyn r s = .next τ ∧ Sound φ κ ρ τ := by
  refine ⟨_, rfl, ?_⟩
  repeat' first
    | with_reducible assumption
    | with_reducible apply Sound.roomArith
    | fail_if_no_progress with_reducible apply Sound.keep
    | (intro _ _ _)
    | (intro _ _)
    | split
    | dsimp only

theorem Sound.execMac (h : Sound φ κ ρ s) {r : Nat} : ∃ τ, Sys2Proof.Machine.execMac r s = .next τ ∧ Sound φ κ ρ τ := by
  refine ⟨_, rfl, ?_⟩
  repeat' first
    | with_reducible assumption
    | with_reducible apply Sound.roomArith
    | fail_if_no_progress with_reducible apply Sound.keep
    | (intro _ _ _)
    | (intro _ _)
    | split
    | dsimp only

theorem Sound.execMacn (h : Sound φ κ ρ s) {r : Nat} : ∃ τ, Sys2Proof.Machine.execMacn r s = .next τ ∧ Sound φ κ ρ τ := by
  refine ⟨_, rfl, ?_⟩
  repeat' first
    | with_reducible assumption
    | with_reducible apply Sound.roomArith
    | fail_if_no_progress with_reducible apply Sound.keep
    | (intro _ _ _)
    | (intro _ _)
    | split
    | dsimp only

theorem Sound.execMpyi (h : Sound φ κ ρ s) {r : Nat} : ∃ τ, Sys2Proof.Machine.execMpyi r s = .next τ ∧ Sound φ κ ρ τ := by
  refine ⟨_, rfl, ?_⟩
  repeat' first
    | with_reducible assumption
    | with_reducible apply Sound.roomArith
    | fail_if_no_progress with_reducible apply Sound.keep
    | (intro _ _ _)
    | (intro _ _)
    | split
    | dsimp only

theorem Sound.execLda (h : Sound φ κ ρ s) {r : Nat} : ∃ τ, Sys2Proof.Machine.execLda r s = .next τ ∧ Sound φ κ ρ τ := by
  refine ⟨_, rfl, ?_⟩
  repeat' first
    | with_reducible assumption
    | with_reducible apply Sound.roomArith
    | fail_if_no_progress with_reducible apply Sound.keep
    | (intro _ _ _)
    | (intro _ _)
    | split
    | dsimp only

theorem Sound.execCpa (h : Sound φ κ ρ s) {r : Nat} : ∃ τ, Sys2Proof.Machine.execCpa r s = .next τ ∧ Sound φ κ ρ τ := by
  refine ⟨_, rfl, ?_⟩
  repeat' first
    | with_reducible assumption
    | with_reducible apply Sound.roomArith
    | fail_if_no_progress with_reducible apply Sound.keep
    | (intro _ _ _)
    | (intro _ _)
    | split
    | dsimp only

theorem Sound.execAdd (h : Sound φ κ ρ s) {r : Nat} : ∃ τ, Sys2Proof.Machine.execAdd r s = .next τ ∧ Sound φ κ ρ τ := by
  refine ⟨_, rfl, ?_⟩
  repeat' first
    | with_reducible assumption
    | with_reducible apply Sound.roomArith
    | fail_if_no_progress with_reducible apply Sound.keep
    | (intro _ _ _)
    | (intro _ _)
    | split
    | dsimp only

theorem Sound.execSub (h : Sound φ κ ρ s) {r : Nat} : ∃ τ, Sys2Proof.Machine.execSub r s = .next τ ∧ Sound φ κ ρ τ := by
  refine ⟨_, rfl, ?_⟩
  repeat' first
    | with_reducible assumption
    | with_reducible apply Sound.roomArith
    | fail_if_no_progress with_reducible apply Sound.keep
    | (intro _ _ _)
    | (intro _ _)
    | split
    | dsimp only

theorem Sound.execAdda (h : Sound φ κ ρ s) {r : Nat} : ∃ τ, Sys2Proof.Machine.execAdda r s = .next τ ∧ Sound φ κ ρ τ := by
  refine ⟨_, rfl, ?_⟩
  repeat' first
    | with_reducible assumption
    | with_reducible apply Sound.roomArith
    | fail_if_no_progress with_reducible apply Sound.keep
    | (intro _ _ _)
    | (intro _ _)
    | split
    | dsimp only

theorem Sound.execSuba (h : Sound φ κ ρ s) {r : Nat} : ∃ τ, Sys2Proof.Machine.execSuba r s = .next τ ∧ Sound φ κ ρ τ := by
  refine ⟨_, rfl, ?_⟩
  repeat' first
    | with_reducible assumption
    | with_reducible apply Sound.roomArith
    | fail_if_no_progress with_reducible apply Sound.keep
    | (intro _ _ _)
    | (intro _ _)
    | split
    | dsimp only

theorem Sound.execClr (h : Sound φ κ ρ s) {r : Nat} : ∃ τ, Sys2Proof.Machine.execClr r s = .next τ ∧ Sound φ κ ρ τ := by
  refine ⟨_, rfl, ?_⟩
  repeat' first
    | with_reducible assumption
    | with_reducible apply Sound.roomArith
    | fail_if_no_progress with_reducible apply Sound.keep
    | (intro _ _ _)
    | (intro _ _)
    | split
    | dsimp only

theorem Sound.execNeg (h : Sound φ κ ρ s) {r : Nat} : ∃ τ, Sys2Proof.Machine.execNeg r s = .next τ ∧ Sound φ κ ρ τ := by
  refine ⟨_, rfl, ?_⟩
  repeat' first
    | with_reducible assumption
    | with_reducible apply Sound.roomArith
    | fail_if_no_progress with_reducible apply Sound.keep
    | (intro _ _ _)
    | (intro _ _)
    | split
    | dsimp only

theorem Sound.execAbsAcc (h : Sound φ κ ρ s) {r : Nat} : ∃ τ, Sys2Proof.Machine.execAbsAcc r s = .next τ ∧ Sound φ κ ρ τ := by
  refine ⟨_, rfl, ?_⟩
  repeat' first
    | with_reducible assumption
    | with_reducible apply Sound.roomArith
    | fail_if_no_progress with_reducible apply Sound.keep
    | (intro _ _ _)
    | (intro _ _)
    | split
    | dsimp only

theorem Sound.execMaxAcc (h : Sound φ κ ρ s) {r : Nat} : ∃ τ, Sys2Proof.Machine.execMaxAcc r s = .next τ ∧ Sound φ κ ρ τ := by
  refine ⟨_, rfl, ?_⟩
  repeat' first
    | with_reducible assumption
    | with_reducible apply Sound.roomArith
    | fail_if_no_progress with_reducible apply Sound.keep
    | (intro _ _ _)
    | (intro _ _)
    | split
    | dsimp only

theorem Sound.execMinAcc (h : Sound φ κ ρ s) {r : Nat} : ∃ τ, Sys2Proof.Machine.execMinAcc r s = .next τ ∧ Sound φ κ ρ τ := by
  refine ⟨_, rfl, ?_⟩
  repeat' first
    | with_reducible assumption
    | with_reducible apply Sound.roomArith
    | fail_if_no_progress with_reducible apply Sound.keep
    | (intro _ _ _)
    | (intro _ _)
    | split
    | dsimp only

theorem Sound.execCmp (h : Sound φ κ ρ s) {r : Nat} : ∃ τ, Sys2Proof.Machine.execCmp r s = .next τ ∧ Sound φ κ ρ τ := by
  refine ⟨_, rfl, ?_⟩
  repeat' first
    | with_reducible assumption
    | with_reducible apply Sound.roomArith
    | fail_if_no_progress with_reducible apply Sound.keep
    | (intro _ _ _)
    | (intro _ _)
    | split
    | dsimp only

theorem Sound.execTst (h : Sound φ κ ρ s) {r : Nat} : ∃ τ, Sys2Proof.Machine.execTst r s = .next τ ∧ Sound φ κ ρ τ := by
  refine ⟨_, rfl, ?_⟩
  repeat' first
    | with_reducible assumption
    | with_reducible apply Sound.roomArith
    | fail_if_no_progress with_reducible apply Sound.keep
    | (intro _ _ _)
    | (intro _ _)
    | split
    | dsimp only

theorem Sound.execSat (h : Sound φ κ ρ s) {r : Nat} : ∃ τ, Sys2Proof.Machine.execSat r s = .next τ ∧ Sound φ κ ρ τ := by
  refine ⟨_, rfl, ?_⟩
  repeat' first
    | with_reducible assumption
    | with_reducible apply Sound.roomArith
    | fail_if_no_progress with_reducible apply Sound.keep
    | (intro _ _ _)
    | (intro _ _)
    | split
    | dsimp only

theorem Sound.execAsl (h : Sound φ κ ρ s) {r : Nat} : ∃ τ, Sys2Proof.Machine.execAsl r s = .next τ ∧ Sound φ κ ρ τ := by
  refine ⟨_, rfl, ?_⟩
  repeat' first
    | with_reducible assumption
    | with_reducible apply Sound.roomArith
    | fail_if_no_progress with_reducible apply Sound.keep
    | (intro _ _ _)
    | (intro _ _)
    | split
    | dsimp only

theorem Sound.execAsr (h : Sound φ κ ρ s) {r : Nat} : ∃ τ, Sys2Proof.Machine.execAsr r s = .next τ ∧ Sound φ κ ρ τ := by
  refine ⟨_, rfl, ?_⟩
  repeat' first
    | with_reducible assumption
    | with_reducible apply Sound.roomArith
    | fail_if_no_progress with_reducible apply Sound.keep
    | (intro _ _ _)
    | (intro _ _)
    | split
    | dsimp only

theorem Sound.execAsh (h : Sound φ κ ρ s) {r : Nat} : ∃ τ, Sys2Proof.Machine.execAsh r s = .next τ ∧ Sound φ κ ρ τ := by
  refine ⟨_, rfl, ?_⟩
  repeat' first
    | with_reducible assumption
    | with_reducible apply Sound.roomArith
    | fail_if_no_progress with_reducible apply Sound.keep
    | (intro _ _ _)
    | (intro _ _)
    | split
    | dsimp only

theorem Sound.execAshr (h : Sound φ κ ρ s) {r : Nat} : ∃ τ, Sys2Proof.Machine.execAshr r s = .next τ ∧ Sound φ κ ρ τ := by
  refine ⟨_, rfl, ?_⟩
  repeat' first
    | with_reducible assumption
    | with_reducible apply Sound.roomArith
    | fail_if_no_progress with_reducible apply Sound.keep
    | (intro _ _ _)
    | (intro _ _)
    | split
    | dsimp only

theorem Sound.execNorm (h : Sound φ κ ρ s) {r : Nat} : ∃ τ, Sys2Proof.Machine.execNorm r s = .next τ ∧ Sound φ κ ρ τ := by
  refine ⟨_, rfl, ?_⟩
  repeat' first
    | with_reducible assumption
    | with_reducible apply Sound.roomArith
    | fail_if_no_progress with_reducible apply Sound.keep
    | (intro _ _ _)
    | (intro _ _)
    | split
    | dsimp only

theorem Sound.execExpAcc (h : Sound φ κ ρ s) {r : Nat} : ∃ τ, Sys2Proof.Machine.execExpAcc r s = .next τ ∧ Sound φ κ ρ τ := by
  refine ⟨_, rfl, ?_⟩
  repeat' first
    | with_reducible assumption
    | with_reducible apply Sound.roomArith
    | fail_if_no_progress with_reducible apply Sound.keep
    | (intro _ _ _)
    | (intro _ _)
    | split
    | dsimp only

theorem Sound.execExpReg (h : Sound φ κ ρ s) {r : Nat} : ∃ τ, Sys2Proof.Machine.execExpReg r s = .next τ ∧ Sound φ κ ρ τ := by
  refine ⟨_, rfl, ?_⟩
  repeat' first
    | with_reducible assumption
    | with_reducible apply Sound.roomArith
    | fail_if_no_progress with_reducible apply Sound.keep
    | (intro _ _ _)
    | (intro _ _)
    | split
    | dsimp only

theorem Sound.execAndAcc (h : Sound φ κ ρ s) {r : Nat} : ∃ τ, Sys2Proof.Machine.execAndAcc r s = .next τ ∧ Sound φ κ ρ τ := by
  refine ⟨_, rfl, ?_⟩
  repeat' first
    | with_reducible assumption
    | with_reducible apply Sound.roomArith
    | fail_if_no_progress with_reducible apply Sound.keep
    | (intro _ _ _)
    | (intro _ _)
    | split
    | dsimp only

theorem Sound.execOrAcc (h : Sound φ κ ρ s) {r : Nat} : ∃ τ, Sys2Proof.Machine.execOrAcc r s = .next τ ∧ Sound φ κ ρ τ := by
  refine ⟨_, rfl, ?_⟩
  repeat' first
    | with_reducible assumption
    | with_reducible apply Sound.roomArith
    | fail_if_no_progress with_reducible apply Sound.keep
    | (intro _ _ _)
    | (intro _ _)
    | split
    | dsimp only

theorem Sound.execXorAcc (h : Sound φ κ ρ s) {r : Nat} : ∃ τ, Sys2Proof.Machine.execXorAcc r s = .next τ ∧ Sound φ κ ρ τ := by
  refine ⟨_, rfl, ?_⟩
  repeat' first
    | with_reducible assumption
    | with_reducible apply Sound.roomArith
    | fail_if_no_progress with_reducible apply Sound.keep
    | (intro _ _ _)
    | (intro _ _)
    | split
    | dsimp only

theorem Sound.execIllegalInstruction (h : Sound φ κ ρ s) {r : Nat} : ∃ τ, Sys2Proof.Machine.execIllegalInstruction r s = .next τ ∧ Sound φ κ ρ τ := by
  refine ⟨_, rfl, ?_⟩
  repeat' first
    | with_reducible assumption
    | with_reducible apply Sound.wr
    | with_reducible apply Sound.post
    | with_reducible apply Sound.bumpRoom
    | with_reducible apply Sound.roomPass
    | with_reducible apply Sound.ite
    | fail_if_no_progress with_reducible apply Sound.keep
    | (intro _ _ _)
    | (intro _ _)
    | split
    | dsimp only

theorem Sound.execInterruptEntry (h : Sound φ κ ρ s) {r : Nat} : ∃ τ, Sys2Proof.Machine.execInterruptEntry r s = .next τ ∧ Sound φ κ ρ τ := by
  refine ⟨_, rfl, ?_⟩
  repeat' first
    | with_reducible assumption
    | with_reducible apply Sound.setRoom
    | with_reducible apply Sound.bumpRoom
    | with_reducible apply Sound.ite
    | fail_if_no_progress with_reducible apply Sound.keep
    | (intro _ _ _)
    | (intro _ _)
    | split
    | dsimp only

theorem Sound.execRoomFault (h : Sound φ κ ρ s) {r : Nat} : ∃ τ, Sys2Proof.Machine.execRoomFault r s = .next τ ∧ Sound φ κ ρ τ := by
  refine ⟨_, rfl, ?_⟩
  repeat' first
    | with_reducible assumption
    | with_reducible apply Sound.together
    | with_reducible apply Sound.faultDue
    | fail_if_no_progress with_reducible apply Sound.keep
    | (intro _ _ _)
    | (intro _ _)
    | split
    | dsimp only

end Sys2Proof.Machine
end

