-- ==== Sys2Proof/Laws/SoundEntry.lean ====
section
/-! SUPPORT. What every command keeps: the functions of Machine/Entry.lean. -/

namespace Sys2Proof.Machine

set_option linter.unusedTactic false
set_option linter.unreachableTactic false

variable {φ : Fuses} {κ : List Instr} {ρ : Nat} {s : State}

theorem Sound.readEffects (h : Sound φ κ ρ s) {who : Role} {d : EntDesc} {a : Nat} {key : Nat} : Sound φ κ ρ (Sys2Proof.Machine.State.readEffects s who d a key) := by
  unfold Sys2Proof.Machine.State.readEffects
  repeat' first
    | with_reducible assumption
    | with_reducible apply Sound.wr
    | with_reducible apply Sound.each
    | with_reducible apply Sound.pauseSettle
    | with_reducible apply Sound.captureTake
    | with_reducible apply Sound.ite
    | fail_if_no_progress with_reducible apply Sound.keep
    | (intro _ _ _)
    | (intro _ _)
    | split
    | dsimp only

theorem Sound.readEntry (h : Sound φ κ ρ s) {who : Role} {key : Nat} {clear : Bool} : Sound φ κ ρ (Sys2Proof.Machine.State.readEntry s who key clear).2 := by
  unfold Sys2Proof.Machine.State.readEntry
  repeat' first
    | with_reducible assumption
    | with_reducible apply Sound.readEffects
    | with_reducible apply Sound.ite
    | fail_if_no_progress with_reducible apply Sound.keep
    | (intro _ _ _)
    | (intro _ _)
    | split
    | dsimp only

end Sys2Proof.Machine
end

