-- ==== Sys2Proof/Laws/SoundSave.lean ====
section
/-! SUPPORT. What every command keeps: the functions of Machine/Save.lean. -/

namespace Sys2Proof.Machine

set_option linter.unusedTactic false
set_option linter.unreachableTactic false

variable {φ : Fuses} {κ : List Instr} {ρ : Nat} {s : State}

theorem Sound.applySaveCmd (h : Sound φ κ ρ s) {n : Nat} : Sound φ κ ρ (Sys2Proof.Machine.applySaveCmd s n) := by
  unfold Sys2Proof.Machine.applySaveCmd
  repeat' first
    | with_reducible assumption
    | with_reducible apply Sound.wr
    | fail_if_no_progress with_reducible apply Sound.keep
    | (intro _ _ _)
    | (intro _ _)
    | split
    | dsimp only

theorem Sound.execSaveDone (h : Sound φ κ ρ s) {cause : Nat} : ∃ τ, Sys2Proof.Machine.execSaveDone cause s = .next τ ∧ Sound φ κ ρ τ := by
  refine ⟨_, rfl, ?_⟩
  repeat' first
    | with_reducible assumption
    | with_reducible apply Sound.wr
    | with_reducible apply Sound.draw
    | with_reducible apply Sound.post
    | with_reducible apply Sound.ite
    | fail_if_no_progress with_reducible apply Sound.keep
    | (intro _ _ _)
    | (intro _ _)
    | split
    | dsimp only

end Sys2Proof.Machine
end

