-- ==== Sys2Proof/Laws/SoundDictionary.lean ====
section
/-! SUPPORT. What every command keeps: the functions of Machine/Dictionary.lean. -/

namespace Sys2Proof.Machine

set_option linter.unusedTactic false
set_option linter.unreachableTactic false

variable {φ : Fuses} {κ : List Instr} {ρ : Nat} {s : State}

theorem Sound.entApply (h : Sound φ κ ρ s) {e : Ent} {a : Nat} {b : Nat} {old : Nat} {n : Nat} {raw : List Byte} : Sound φ κ ρ (Sys2Proof.Machine.State.entApply s e a b old n raw) := by
  unfold Sys2Proof.Machine.State.entApply
  repeat' first
    | with_reducible assumption
    | with_reducible apply Sound.put
    | with_reducible apply Sound.wr
    | with_reducible apply Sound.applyFrameCfg
    | with_reducible apply Sound.txqSend
    | with_reducible apply Sound.applyRxrRelease
    | with_reducible apply Sound.applyTxqPfcClass
    | with_reducible apply Sound.applyTvSchedule
    | with_reducible apply Sound.applyTrigOutCfg
    | with_reducible apply Sound.histRefresh
    | with_reducible apply Sound.refRefresh
    | with_reducible apply Sound.applyRefCmd
    | with_reducible apply Sound.applyRefCfg
    | with_reducible apply Sound.applyHearthCtrl
    | with_reducible apply Sound.applyHearthCmd
    | with_reducible apply Sound.applyDpllCfg
    | with_reducible apply Sound.applyWclkOutCfg
    | with_reducible apply Sound.applyPpsOutCfg
    | with_reducible apply Sound.applyTvSource
    | with_reducible apply Sound.bmca
    | with_reducible apply Sound.ptpRestartBoth
    | with_reducible apply Sound.ptpRestart
    | with_reducible apply Sound.applyRxCtrl
    | with_reducible apply Sound.applyTxCtrl
    | with_reducible apply Sound.applyRxTiming
    | with_reducible apply Sound.applyAsrcCfg
    | with_reducible apply Sound.applyDlyCfg
    | with_reducible apply Sound.applyRecCfg
    | with_reducible apply Sound.applyDdrCfg
    | with_reducible apply Sound.lbFlush
    | with_reducible apply Sound.hmRestart
    | with_reducible apply Sound.vidChanged
    | with_reducible apply Sound.applyGuestCmd
    | with_reducible apply Sound.applyRoomGuard
    | with_reducible apply Sound.applyRoomCtrl
    | with_reducible apply Sound.applyRoomMbox
    | with_reducible apply Sound.applyRoomCmd
    | with_reducible apply Sound.applyRoomLoad
    | with_reducible apply Sound.applyDwTest
    | with_reducible apply Sound.applySideCtrl
    | with_reducible apply Sound.applyMaskCommit
    | with_reducible apply Sound.applyGain
    | with_reducible apply Sound.applyTileShadow
    | with_reducible apply Sound.applyTileCmd
    | with_reducible apply Sound.applyHallCommit
    | with_reducible apply Sound.applyHallCfg
    | with_reducible apply Sound.applyHallTest
    | with_reducible apply Sound.applyDdrTest
    | with_reducible apply Sound.applyPortCfg
    | with_reducible apply Sound.applyMCfg
    | with_reducible apply Sound.applyKdpCfg
    | with_reducible apply Sound.applyKey
    | with_reducible apply Sound.applyKeyCfg
    | with_reducible apply Sound.applySessionClose
    | with_reducible apply Sound.applyToneCtrl
    | with_reducible apply Sound.applyMdCtrl
    | with_reducible apply Sound.applyTtCtrl
    | with_reducible apply Sound.applyMonCfg
    | with_reducible apply Sound.applySaveCmd
    | with_reducible apply Sound.ite
    | fail_if_no_progress with_reducible apply Sound.keep
    | (intro _ _ _)
    | (intro _ _)
    | split
    | dsimp only

theorem Sound.applyItem (h : Sound φ κ ρ s) {i : Item} : Sound φ κ ρ (Sys2Proof.Machine.State.applyItem s i) := by
  unfold Sys2Proof.Machine.State.applyItem
  repeat' first
    | with_reducible assumption
    | with_reducible apply Sound.put
    | with_reducible apply Sound.entApply
    | with_reducible apply Sound.ite
    | fail_if_no_progress with_reducible apply Sound.keep
    | (intro _ _ _)
    | (intro _ _)
    | split
    | dsimp only

theorem Sound.settleAfter (h : Sound φ κ ρ s) {l : List Item} : Sound φ κ ρ (Sys2Proof.Machine.State.settleAfter s l) := by
  unfold Sys2Proof.Machine.State.settleAfter
  repeat' first
    | with_reducible assumption
    | with_reducible apply Sound.settleRefs
    | with_reducible apply Sound.ite
    | fail_if_no_progress with_reducible apply Sound.keep
    | (intro _ _ _)
    | (intro _ _)
    | split
    | dsimp only

theorem Sound.noteRefused (h : Sound φ κ ρ s) {i : Item} {st : Status} : Sound φ κ ρ (Sys2Proof.Machine.State.noteRefused s i st) := by
  unfold Sys2Proof.Machine.State.noteRefused
  repeat' first
    | with_reducible assumption
    | with_reducible apply Sound.bump
    | with_reducible apply Sound.txqSend
    | with_reducible apply Sound.ite
    | fail_if_no_progress with_reducible apply Sound.keep
    | (intro _ _ _)
    | (intro _ _)
    | split
    | dsimp only

theorem Sound.change (h : Sound φ κ ρ s) {i : Item} : Sound φ κ ρ (Sys2Proof.Machine.State.change s i) := by
  unfold Sys2Proof.Machine.State.change
  repeat' first
    | with_reducible assumption
    | with_reducible apply Sound.together
    | with_reducible apply Sound.settleRefs
    | with_reducible apply Sound.applyItem
    | with_reducible apply Sound.ite
    | fail_if_no_progress with_reducible apply Sound.keep
    | (intro _ _ _)
    | (intro _ _)
    | split
    | dsimp only

theorem Sound.setItem (h : Sound φ κ ρ s) {who : Role} {i : Item} : Sound φ κ ρ (Sys2Proof.Machine.State.setItem s who i).2 := by
  unfold Sys2Proof.Machine.State.setItem
  repeat' first
    | with_reducible assumption
    | with_reducible apply Sound.noteRefused
    | with_reducible apply Sound.change
    | fail_if_no_progress with_reducible apply Sound.keep
    | (intro _ _ _)
    | (intro _ _)
    | split
    | dsimp only

theorem Sound.setEach {who : Role} {l : List Item} : ∀ {s : State}, Sound φ κ ρ s → Sound φ κ ρ (s.setEach who l).2 := by
  induction l with
  | nil => exact fun h => h
  | cons a l ih => exact fun h => ih h.setItem

theorem Sound.setAll {who : Role} {l : List (Nat × Item)} {t : State} :
    ∀ {s : State}, Sound φ κ ρ s → s.setAll who l = .ok t → Sound φ κ ρ t := by
  induction l with
  | nil => intro s h e; cases e; exact h
  | cons a l ih =>
    intro s h e
    unfold State.setAll at e
    split at e
    · exact ih h.applyItem e
    · cases e

theorem Sound.setBulk (h : Sound φ κ ρ s) {who : Role} {l : List Item} : Sound φ κ ρ (Sys2Proof.Machine.State.setBulk s who l).2 := by
  unfold Sys2Proof.Machine.State.setBulk
  repeat' first
    | with_reducible assumption
    | with_reducible apply Sound.gather
    | with_reducible apply Sound.scatter
    | with_reducible apply Sound.settleAfter
    | with_reducible apply Sound.noteRefused
    | (first | exact Sound.setAll (by assumption) (by assumption) | exact Sound.setAll (Sound.gather (by assumption)) (by assumption))
    | with_reducible apply Sound.ite
    | fail_if_no_progress with_reducible apply Sound.keep
    | (intro _ _ _)
    | (intro _ _)
    | split
    | dsimp only

end Sys2Proof.Machine
end

