-- ==== Sys2Proof/Laws/SoundKdp.lean ====
section
/-! SUPPORT. What every command keeps: the functions of Machine/Kdp.lean. -/

namespace Sys2Proof.Machine

set_option linter.unusedTactic false
set_option linter.unreachableTactic false

variable {φ : Fuses} {κ : List Instr} {ρ : Nat} {s : State}

theorem Sound.readAll {who : Role} {m : Bool} {l : List Nat} : ∀ {s : State}, Sound φ κ ρ s → Sound φ κ ρ (s.readAll who m l).2 := by
  induction l with
  | nil => exact fun h => h
  | cons k l ih =>
    intro s h
    cases m
    · exact ih h.readEntry
    · exact ih h

theorem Sound.kdpGet (h : Sound φ κ ρ s) {who : Role} {body : List Byte} : Sound φ κ ρ (Sys2Proof.Machine.State.kdpGet s who body).2 := by
  unfold Sys2Proof.Machine.State.kdpGet
  repeat' first
    | with_reducible assumption
    | with_reducible apply Sound.readAll
    | with_reducible apply Sound.ite
    | fail_if_no_progress with_reducible apply Sound.keep
    | (intro _ _ _)
    | (intro _ _)
    | split
    | dsimp only

theorem Sound.kdpGetbulk (h : Sound φ κ ρ s) {who : Role} {body : List Byte} : Sound φ κ ρ (Sys2Proof.Machine.State.kdpGetbulk s who body).2 := by
  unfold Sys2Proof.Machine.State.kdpGetbulk
  repeat' first
    | with_reducible assumption
    | with_reducible apply Sound.readAll
    | with_reducible apply Sound.ite
    | fail_if_no_progress with_reducible apply Sound.keep
    | (intro _ _ _)
    | (intro _ _)
    | split
    | dsimp only

theorem Sound.kdpSet (h : Sound φ κ ρ s) {ss : Nat} {x : Session} {ty : Nat} {group : Bool} {body : List Byte} : Sound φ κ ρ (Sys2Proof.Machine.State.kdpSet s ss x ty group body).2 := by
  unfold Sys2Proof.Machine.State.kdpSet
  repeat' first
    | with_reducible assumption
    | with_reducible apply Sound.setSess
    | with_reducible apply Sound.setEach
    | with_reducible apply Sound.setBulk
    | with_reducible apply Sound.ite
    | fail_if_no_progress with_reducible apply Sound.keep
    | (intro _ _ _)
    | (intro _ _)
    | split
    | dsimp only

theorem Sound.modSess (h : Sound φ κ ρ s) {ss : Nat} {f : Session → Session} : Sound φ κ ρ (Sys2Proof.Machine.State.modSess s ss f) := by
  unfold Sys2Proof.Machine.State.modSess
  repeat' first
    | with_reducible assumption
    | with_reducible apply Sound.setSess
    | fail_if_no_progress with_reducible apply Sound.keep
    | (intro _ _ _)
    | (intro _ _)
    | split
    | dsimp only

theorem Sound.kdpCommit (h : Sound φ κ ρ s) {ss : Nat} {x : Session} {seq : Nat} {body : List Byte} : Sound φ κ ρ (Sys2Proof.Machine.State.kdpCommit s ss x seq body).2 := by
  unfold Sys2Proof.Machine.State.kdpCommit
  repeat' first
    | with_reducible assumption
    | with_reducible apply Sound.post
    | with_reducible apply Sound.setSess
    | with_reducible apply Sound.setBulk
    | with_reducible apply Sound.ite
    | fail_if_no_progress with_reducible apply Sound.keep
    | (intro _ _ _)
    | (intro _ _)
    | split
    | dsimp only

theorem Sound.subAdd (h : Sound φ κ ρ s) {ss : Nat} {x : Session} {period : Nat} {keys : List Nat} : Sound φ κ ρ (Sys2Proof.Machine.State.subAdd s ss x period keys).2 := by
  unfold Sys2Proof.Machine.State.subAdd
  repeat' first
    | with_reducible assumption
    | with_reducible apply Sound.ite
    | fail_if_no_progress with_reducible apply Sound.keep
    | (intro _ _ _)
    | (intro _ _)
    | split
    | dsimp only

theorem Sound.kdpSubscribe (h : Sound φ κ ρ s) {ss : Nat} {x : Session} {body : List Byte} : Sound φ κ ρ (Sys2Proof.Machine.State.kdpSubscribe s ss x body).2 := by
  unfold Sys2Proof.Machine.State.kdpSubscribe
  repeat' first
    | with_reducible assumption
    | with_reducible apply Sound.subAdd
    | with_reducible apply Sound.ite
    | fail_if_no_progress with_reducible apply Sound.keep
    | (intro _ _ _)
    | (intro _ _)
    | split
    | dsimp only

theorem Sound.execSubscriptionPeriod (h : Sound φ κ ρ s) {ss : Nat} {id : Nat} : ∃ τ, Sys2Proof.Machine.execSubscriptionPeriod ss id s = .next τ ∧ Sound φ κ ρ τ := by
  refine ⟨_, rfl, ?_⟩
  repeat' first
    | with_reducible assumption
    | with_reducible apply Sound.each
    | with_reducible apply Sound.advance
    | with_reducible apply Sound.notifyOut
    | with_reducible apply Sound.readEntry
    | with_reducible apply Sound.ite
    | fail_if_no_progress with_reducible apply Sound.keep
    | (intro _ _ _)
    | (intro _ _)
    | split
    | dsimp only

theorem Sound.helloOpen (h : Sound φ κ ρ s) {src : Sender} {m : KdpMsg} : Sound φ κ ρ (Sys2Proof.Machine.State.helloOpen s src m) := by
  unfold Sys2Proof.Machine.State.helloOpen
  repeat' first
    | with_reducible assumption
    | with_reducible apply Sound.bump
    | with_reducible apply Sound.draw
    | with_reducible apply Sound.post
    | with_reducible apply Sound.setSess
    | with_reducible apply Sound.reply
    | with_reducible apply Sound.modSess
    | with_reducible apply Sound.ite
    | fail_if_no_progress with_reducible apply Sound.keep
    | (intro _ _ _)
    | (intro _ _)
    | split
    | dsimp only

theorem Sound.hostReset (h : Sound φ κ ρ s) : Sound φ κ ρ (Sys2Proof.Machine.State.hostReset s) := by
  unfold Sys2Proof.Machine.State.hostReset
  repeat' first
    | with_reducible assumption
    | fail_if_no_progress with_reducible apply Sound.keep
    | (intro _ _ _)
    | (intro _ _)
    | split
    | dsimp only

theorem Sound.helloOther (h : Sound φ κ ρ s) {ss : Nat} {x : Session} {body : List Byte} : Sound φ κ ρ (Sys2Proof.Machine.State.helloOther s ss x body).2 := by
  unfold Sys2Proof.Machine.State.helloOther
  repeat' first
    | with_reducible assumption
    | with_reducible apply Sound.hostReset
    | with_reducible apply Sound.ite
    | fail_if_no_progress with_reducible apply Sound.keep
    | (intro _ _ _)
    | (intro _ _)
    | split
    | dsimp only

theorem Sound.kdpAuth (h : Sound φ κ ρ s) {ss : Nat} {x : Session} {m : KdpMsg} : Sound φ κ ρ (Sys2Proof.Machine.State.kdpAuth s ss x m).2.2 := by
  unfold Sys2Proof.Machine.State.kdpAuth
  repeat' first
    | with_reducible assumption
    | with_reducible apply Sound.setSess
    | with_reducible apply Sound.authFailed
    | with_reducible apply Sound.ite
    | fail_if_no_progress with_reducible apply Sound.keep
    | (intro _ _ _)
    | (intro _ _)
    | split
    | dsimp only

theorem Sound.served (h : Sound φ κ ρ s) {ss : Nat} : Sound φ κ ρ (Sys2Proof.Machine.State.served s ss) := by
  unfold Sys2Proof.Machine.State.served
  repeat' first
    | with_reducible assumption
    | with_reducible apply Sound.sessEnd
    | fail_if_no_progress with_reducible apply Sound.keep
    | (intro _ _ _)
    | (intro _ _)
    | split
    | dsimp only

theorem Sound.kdpDo (h : Sound φ κ ρ s) {src : Sender} {ss : Nat} {x : Session} {m : KdpMsg} : Sound φ κ ρ (Sys2Proof.Machine.State.kdpDo s src ss x m) := by
  unfold Sys2Proof.Machine.State.kdpDo
  repeat' first
    | with_reducible assumption
    | with_reducible apply Sound.together
    | with_reducible apply Sound.catchUp
    | with_reducible apply Sound.reply
    | with_reducible apply Sound.kdpGet
    | with_reducible apply Sound.kdpGetbulk
    | with_reducible apply Sound.kdpSet
    | with_reducible apply Sound.kdpCommit
    | with_reducible apply Sound.kdpSubscribe
    | with_reducible apply Sound.helloOther
    | with_reducible apply Sound.kdpAuth
    | with_reducible apply Sound.served
    | with_reducible apply Sound.ite
    | fail_if_no_progress with_reducible apply Sound.keep
    | (intro _ _ _)
    | (intro _ _)
    | split
    | dsimp only

theorem Sound.kdpServe (h : Sound φ κ ρ s) {src : Sender} {l : List Byte} : Sound φ κ ρ (Sys2Proof.Machine.State.kdpServe s src l) := by
  unfold Sys2Proof.Machine.State.kdpServe
  repeat' first
    | with_reducible assumption
    | with_reducible apply Sound.bump
    | with_reducible apply Sound.bind
    | with_reducible apply Sound.setSess
    | with_reducible apply Sound.reply
    | with_reducible apply Sound.helloOpen
    | with_reducible apply Sound.kdpDo
    | with_reducible apply Sound.ite
    | fail_if_no_progress with_reducible apply Sound.keep
    | (intro _ _ _)
    | (intro _ _)
    | split
    | dsimp only

theorem Sound.serveHost (h : Sound φ κ ρ s) : Sound φ κ ρ (Sys2Proof.Machine.State.serveHost s) := by
  unfold Sys2Proof.Machine.State.serveHost
  repeat' first
    | with_reducible assumption
    | with_reducible apply Sound.kdpServe
    | fail_if_no_progress with_reducible apply Sound.keep
    | (intro _ _ _)
    | (intro _ _)
    | split
    | dsimp only

theorem Sound.kdpRow (h : Sound φ κ ρ s) {k : Nat} {src : Sender} {l : List Byte} : Sound φ κ ρ (Sys2Proof.Machine.State.kdpRow s k src l) := by
  unfold Sys2Proof.Machine.State.kdpRow
  repeat' first
    | with_reducible assumption
    | with_reducible apply Sound.kdpServe
    | with_reducible apply Sound.serveHost
    | with_reducible apply Sound.ite
    | fail_if_no_progress with_reducible apply Sound.keep
    | (intro _ _ _)
    | (intro _ _)
    | split
    | dsimp only

theorem Sound.execKdpHelloOpen (h : Sound φ κ ρ s) {src : Sender} {msg : List Byte} : ∃ τ, Sys2Proof.Machine.execKdpHelloOpen src msg s = .next τ ∧ Sound φ κ ρ τ := by
  refine ⟨_, rfl, ?_⟩
  repeat' first
    | with_reducible assumption
    | with_reducible apply Sound.kdpRow
    | fail_if_no_progress with_reducible apply Sound.keep
    | (intro _ _ _)
    | (intro _ _)
    | split
    | dsimp only

theorem Sound.execKdpHelloClose (h : Sound φ κ ρ s) {src : Sender} {msg : List Byte} : ∃ τ, Sys2Proof.Machine.execKdpHelloClose src msg s = .next τ ∧ Sound φ κ ρ τ := by
  refine ⟨_, rfl, ?_⟩
  repeat' first
    | with_reducible assumption
    | with_reducible apply Sound.kdpRow
    | fail_if_no_progress with_reducible apply Sound.keep
    | (intro _ _ _)
    | (intro _ _)
    | split
    | dsimp only

theorem Sound.execKdpHelloKeepalive (h : Sound φ κ ρ s) {src : Sender} {msg : List Byte} : ∃ τ, Sys2Proof.Machine.execKdpHelloKeepalive src msg s = .next τ ∧ Sound φ κ ρ τ := by
  refine ⟨_, rfl, ?_⟩
  repeat' first
    | with_reducible assumption
    | with_reducible apply Sound.kdpRow
    | fail_if_no_progress with_reducible apply Sound.keep
    | (intro _ _ _)
    | (intro _ _)
    | split
    | dsimp only

theorem Sound.execKdpAuth (h : Sound φ κ ρ s) {src : Sender} {msg : List Byte} : ∃ τ, Sys2Proof.Machine.execKdpAuth src msg s = .next τ ∧ Sound φ κ ρ τ := by
  refine ⟨_, rfl, ?_⟩
  repeat' first
    | with_reducible assumption
    | with_reducible apply Sound.kdpRow
    | fail_if_no_progress with_reducible apply Sound.keep
    | (intro _ _ _)
    | (intro _ _)
    | split
    | dsimp only

theorem Sound.execKdpGet (h : Sound φ κ ρ s) {src : Sender} {msg : List Byte} : ∃ τ, Sys2Proof.Machine.execKdpGet src msg s = .next τ ∧ Sound φ κ ρ τ := by
  refine ⟨_, rfl, ?_⟩
  repeat' first
    | with_reducible assumption
    | with_reducible apply Sound.kdpRow
    | fail_if_no_progress with_reducible apply Sound.keep
    | (intro _ _ _)
    | (intro _ _)
    | split
    | dsimp only

theorem Sound.execKdpGetbulk (h : Sound φ κ ρ s) {src : Sender} {msg : List Byte} : ∃ τ, Sys2Proof.Machine.execKdpGetbulk src msg s = .next τ ∧ Sound φ κ ρ τ := by
  refine ⟨_, rfl, ?_⟩
  repeat' first
    | with_reducible assumption
    | with_reducible apply Sound.kdpRow
    | fail_if_no_progress with_reducible apply Sound.keep
    | (intro _ _ _)
    | (intro _ _)
    | split
    | dsimp only

theorem Sound.execKdpSet (h : Sound φ κ ρ s) {src : Sender} {msg : List Byte} : ∃ τ, Sys2Proof.Machine.execKdpSet src msg s = .next τ ∧ Sound φ κ ρ τ := by
  refine ⟨_, rfl, ?_⟩
  repeat' first
    | with_reducible assumption
    | with_reducible apply Sound.kdpRow
    | fail_if_no_progress with_reducible apply Sound.keep
    | (intro _ _ _)
    | (intro _ _)
    | split
    | dsimp only

theorem Sound.execKdpSetbulk (h : Sound φ κ ρ s) {src : Sender} {msg : List Byte} : ∃ τ, Sys2Proof.Machine.execKdpSetbulk src msg s = .next τ ∧ Sound φ κ ρ τ := by
  refine ⟨_, rfl, ?_⟩
  repeat' first
    | with_reducible assumption
    | with_reducible apply Sound.kdpRow
    | fail_if_no_progress with_reducible apply Sound.keep
    | (intro _ _ _)
    | (intro _ _)
    | split
    | dsimp only

theorem Sound.execKdpSetStage (h : Sound φ κ ρ s) {src : Sender} {msg : List Byte} : ∃ τ, Sys2Proof.Machine.execKdpSetStage src msg s = .next τ ∧ Sound φ κ ρ τ := by
  refine ⟨_, rfl, ?_⟩
  repeat' first
    | with_reducible assumption
    | with_reducible apply Sound.kdpRow
    | fail_if_no_progress with_reducible apply Sound.keep
    | (intro _ _ _)
    | (intro _ _)
    | split
    | dsimp only

theorem Sound.execKdpCommitBegin (h : Sound φ κ ρ s) {src : Sender} {msg : List Byte} : ∃ τ, Sys2Proof.Machine.execKdpCommitBegin src msg s = .next τ ∧ Sound φ κ ρ τ := by
  refine ⟨_, rfl, ?_⟩
  repeat' first
    | with_reducible assumption
    | with_reducible apply Sound.kdpRow
    | fail_if_no_progress with_reducible apply Sound.keep
    | (intro _ _ _)
    | (intro _ _)
    | split
    | dsimp only

theorem Sound.execKdpCommitApply (h : Sound φ κ ρ s) {src : Sender} {msg : List Byte} : ∃ τ, Sys2Proof.Machine.execKdpCommitApply src msg s = .next τ ∧ Sound φ κ ρ τ := by
  refine ⟨_, rfl, ?_⟩
  repeat' first
    | with_reducible assumption
    | with_reducible apply Sound.kdpRow
    | fail_if_no_progress with_reducible apply Sound.keep
    | (intro _ _ _)
    | (intro _ _)
    | split
    | dsimp only

theorem Sound.execKdpCommitTimedApply (h : Sound φ κ ρ s) {src : Sender} {msg : List Byte} : ∃ τ, Sys2Proof.Machine.execKdpCommitTimedApply src msg s = .next τ ∧ Sound φ κ ρ τ := by
  refine ⟨_, rfl, ?_⟩
  repeat' first
    | with_reducible assumption
    | with_reducible apply Sound.kdpRow
    | fail_if_no_progress with_reducible apply Sound.keep
    | (intro _ _ _)
    | (intro _ _)
    | split
    | dsimp only

theorem Sound.execKdpCommitDiscard (h : Sound φ κ ρ s) {src : Sender} {msg : List Byte} : ∃ τ, Sys2Proof.Machine.execKdpCommitDiscard src msg s = .next τ ∧ Sound φ κ ρ τ := by
  refine ⟨_, rfl, ?_⟩
  repeat' first
    | with_reducible assumption
    | with_reducible apply Sound.kdpRow
    | fail_if_no_progress with_reducible apply Sound.keep
    | (intro _ _ _)
    | (intro _ _)
    | split
    | dsimp only

theorem Sound.execKdpCommitDiscardWaiting (h : Sound φ κ ρ s) {src : Sender} {msg : List Byte} : ∃ τ, Sys2Proof.Machine.execKdpCommitDiscardWaiting src msg s = .next τ ∧ Sound φ κ ρ τ := by
  refine ⟨_, rfl, ?_⟩
  repeat' first
    | with_reducible assumption
    | with_reducible apply Sound.kdpRow
    | fail_if_no_progress with_reducible apply Sound.keep
    | (intro _ _ _)
    | (intro _ _)
    | split
    | dsimp only

theorem Sound.execKdpSubscribeList (h : Sound φ κ ρ s) {src : Sender} {msg : List Byte} : ∃ τ, Sys2Proof.Machine.execKdpSubscribeList src msg s = .next τ ∧ Sound φ κ ρ τ := by
  refine ⟨_, rfl, ?_⟩
  repeat' first
    | with_reducible assumption
    | with_reducible apply Sound.kdpRow
    | fail_if_no_progress with_reducible apply Sound.keep
    | (intro _ _ _)
    | (intro _ _)
    | split
    | dsimp only

theorem Sound.execKdpSubscribeRange (h : Sound φ κ ρ s) {src : Sender} {msg : List Byte} : ∃ τ, Sys2Proof.Machine.execKdpSubscribeRange src msg s = .next τ ∧ Sound φ κ ρ τ := by
  refine ⟨_, rfl, ?_⟩
  repeat' first
    | with_reducible assumption
    | with_reducible apply Sound.kdpRow
    | fail_if_no_progress with_reducible apply Sound.keep
    | (intro _ _ _)
    | (intro _ _)
    | split
    | dsimp only

theorem Sound.execKdpSubscribeRemove (h : Sound φ κ ρ s) {src : Sender} {msg : List Byte} : ∃ τ, Sys2Proof.Machine.execKdpSubscribeRemove src msg s = .next τ ∧ Sound φ κ ρ τ := by
  refine ⟨_, rfl, ?_⟩
  repeat' first
    | with_reducible assumption
    | with_reducible apply Sound.kdpRow
    | fail_if_no_progress with_reducible apply Sound.keep
    | (intro _ _ _)
    | (intro _ _)
    | split
    | dsimp only

theorem Sound.execCommitTimedApplyDue (h : Sound φ κ ρ s) {ss : Nat} : ∃ τ, Sys2Proof.Machine.execCommitTimedApplyDue ss s = .next τ ∧ Sound φ κ ρ τ := by
  refine ⟨_, rfl, ?_⟩
  repeat' first
    | with_reducible assumption
    | with_reducible apply Sound.post
    | with_reducible apply Sound.together
    | with_reducible apply Sound.advance
    | with_reducible apply Sound.bind
    | with_reducible apply Sound.reply
    | with_reducible apply Sound.setBulk
    | with_reducible apply Sound.modSess
    | with_reducible apply Sound.served
    | with_reducible apply Sound.ite
    | fail_if_no_progress with_reducible apply Sound.keep
    | (intro _ _ _)
    | (intro _ _)
    | split
    | dsimp only

theorem Sound.execCommitGroupTimeout (h : Sound φ κ ρ s) {ss : Nat} : ∃ τ, Sys2Proof.Machine.execCommitGroupTimeout ss s = .next τ ∧ Sound φ κ ρ τ := by
  refine ⟨_, rfl, ?_⟩
  repeat' first
    | with_reducible assumption
    | with_reducible apply Sound.bump
    | with_reducible apply Sound.advance
    | with_reducible apply Sound.bind
    | with_reducible apply Sound.setSess
    | fail_if_no_progress with_reducible apply Sound.keep
    | (intro _ _ _)
    | (intro _ _)
    | split
    | dsimp only

end Sys2Proof.Machine
end

