-- ==== Sys2Proof/Laws/SoundFrames.lean ====
section
/-! SUPPORT. What every command keeps: the functions of Machine/Frames.lean. -/

namespace Sys2Proof.Machine

set_option linter.unusedTactic false
set_option linter.unreachableTactic false

variable {φ : Fuses} {κ : List Instr} {ρ : Nat} {s : State}

/-- What a meaning answers. -/
theorem Sound.of_next {d : Done} {t : State} (h : ∃ τ, d = .next τ ∧ Sound φ κ ρ τ) (e : d = .next t) : Sound φ κ ρ t := by
  obtain ⟨τ, e', h⟩ := h
  rw [e] at e'; cases e'; exact h

theorem Sound.ptpRow (h : Sound φ κ ρ s) {p : Nat} {m : PtpMsg} {q : Nat} : Sound φ κ ρ (s.ptpRow p m q) := by
  unfold Sys2Proof.Machine.State.ptpRow
  dsimp only
  split
  · rename_i e
    split at e
    · exact Sound.of_next h.execPtpSyncRx e
    · exact Sound.of_next h.execPtpDelayReqRx e
    · exact Sound.of_next h.execPtpPdelayReqRx e
    · exact Sound.of_next h.execPtpPdelayRespRx e
    · exact Sound.of_next h.execPtpFollowUpRx e
    · exact Sound.of_next h.execPtpDelayRespRx e
    · exact Sound.of_next h.execPtpPdelayRespFollowUpRx e
    · exact Sound.of_next h.execPtpAnnounceRx e
  · exact h

theorem Sound.arpReply (h : Sound φ κ ρ s) {p : Nat} {l : List Byte} : Sound φ κ ρ (Sys2Proof.Machine.State.arpReply s p l) := by
  unfold Sys2Proof.Machine.State.arpReply
  repeat' first
    | with_reducible assumption
    | with_reducible apply Sound.sendOwn
    | fail_if_no_progress with_reducible apply Sound.keep
    | (intro _ _ _)
    | (intro _ _)
    | split
    | dsimp only

theorem Sound.esmcFrame (h : Sound φ κ ρ s) {p : Nat} {cfg : Nat} {l : List Byte} : Sound φ κ ρ (Sys2Proof.Machine.State.esmcFrame s p cfg l) := by
  unfold Sys2Proof.Machine.State.esmcFrame
  repeat' first
    | with_reducible assumption
    | with_reducible apply Sound.toRing
    | with_reducible apply Sound.esmc
    | with_reducible apply Sound.esmcFresh
    | with_reducible apply Sound.ite
    | fail_if_no_progress with_reducible apply Sound.keep
    | (intro _ _ _)
    | (intro _ _)
    | split
    | dsimp only

theorem Sound.classify (h : Sound φ κ ρ s) {p : Nat} {cfg : Nat} {q : Nat} {l : List Byte} : Sound φ κ ρ (Sys2Proof.Machine.State.classify s p cfg q l) := by
  unfold Sys2Proof.Machine.State.classify
  repeat' first
    | with_reducible assumption
    | with_reducible apply Sound.bump
    | with_reducible apply Sound.toRing
    | with_reducible apply Sound.macControl
    | with_reducible apply Sound.rxPacket
    | with_reducible apply Sound.bind
    | with_reducible apply Sound.kdpServe
    | with_reducible apply Sound.serveHost
    | with_reducible apply Sound.ptpRow
    | with_reducible apply Sound.arpReply
    | with_reducible apply Sound.esmcFrame
    | with_reducible apply Sound.ite
    | fail_if_no_progress with_reducible apply Sound.keep
    | (intro _ _ _)
    | (intro _ _)
    | split
    | dsimp only

theorem Sound.lineCounts (h : Sound φ κ ρ s) {p : Nat} {f : FrameIn} : Sound φ κ ρ (Sys2Proof.Machine.State.lineCounts s p f) := by
  unfold Sys2Proof.Machine.State.lineCounts
  repeat' first
    | with_reducible assumption
    | with_reducible apply Sound.bump
    | with_reducible apply Sound.ite
    | fail_if_no_progress with_reducible apply Sound.keep
    | (intro _ _ _)
    | (intro _ _)
    | split
    | dsimp only

theorem Sound.frameTake (h : Sound φ κ ρ s) {p : Nat} {f : FrameIn} : Sound φ κ ρ (Sys2Proof.Machine.State.frameTake s p f) := by
  unfold Sys2Proof.Machine.State.frameTake
  repeat' first
    | with_reducible assumption
    | with_reducible apply Sound.bump
    | with_reducible apply Sound.classify
    | with_reducible apply Sound.ite
    | fail_if_no_progress with_reducible apply Sound.keep
    | (intro _ _ _)
    | (intro _ _)
    | split
    | dsimp only

theorem Sound.execFrameRx (h : Sound φ κ ρ s) {p : Nat} {f : FrameIn} : ∃ τ, Sys2Proof.Machine.execFrameRx p f s = .next τ ∧ Sound φ κ ρ τ := by
  refine ⟨_, rfl, ?_⟩
  repeat' first
    | with_reducible assumption
    | with_reducible apply Sound.together
    | with_reducible apply Sound.advance
    | with_reducible apply Sound.lineCounts
    | with_reducible apply Sound.frameTake
    | with_reducible apply Sound.ite
    | fail_if_no_progress with_reducible apply Sound.keep
    | (intro _ _ _)
    | (intro _ _)
    | split
    | dsimp only

theorem Sound.execEsmcPduRx (h : Sound φ κ ρ s) {p : Nat} {f : FrameIn} : ∃ τ, Sys2Proof.Machine.execEsmcPduRx p f s = .next τ ∧ Sound φ κ ρ τ := by
  refine ⟨_, rfl, ?_⟩
  repeat' first
    | with_reducible assumption
    | with_reducible apply Sound.together
    | with_reducible apply Sound.advance
    | with_reducible apply Sound.lineCounts
    | with_reducible apply Sound.frameTake
    | with_reducible apply Sound.ite
    | fail_if_no_progress with_reducible apply Sound.keep
    | (intro _ _ _)
    | (intro _ _)
    | split
    | dsimp only

theorem Sound.frameSent (h : Sound φ κ ρ s) {p : Nat} {q : Nat} {f : TxFrame} : Sound φ κ ρ (Sys2Proof.Machine.State.frameSent s p q f) := by
  unfold Sys2Proof.Machine.State.frameSent
  repeat' first
    | with_reducible assumption
    | with_reducible apply Sound.bump
    | with_reducible apply Sound.bumpIf
    | with_reducible apply Sound.setPort
    | with_reducible apply Sound.txStart
    | with_reducible apply Sound.ptpSent
    | with_reducible apply Sound.frameTake
    | with_reducible apply Sound.ite
    | fail_if_no_progress with_reducible apply Sound.keep
    | (intro _ _ _)
    | (intro _ _)
    | split
    | dsimp only

theorem Sound.execFrameTxEnd (h : Sound φ κ ρ s) {p : Nat} {q : Nat} : ∃ τ, Sys2Proof.Machine.execFrameTxEnd p q s = .next τ ∧ Sound φ κ ρ τ := by
  refine ⟨_, rfl, ?_⟩
  repeat' first
    | with_reducible assumption
    | with_reducible apply Sound.together
    | with_reducible apply Sound.advance
    | with_reducible apply Sound.frameSent
    | with_reducible apply Sound.ite
    | fail_if_no_progress with_reducible apply Sound.keep
    | (intro _ _ _)
    | (intro _ _)
    | split
    | dsimp only

end Sys2Proof.Machine
end

