-- ==== Sys2Proof/Laws/SoundHostPort.lean ====
section
/-! SUPPORT. What every command keeps: the functions of Machine/HostPort.lean. -/

namespace Sys2Proof.Machine

set_option linter.unusedTactic false
set_option linter.unreachableTactic false

variable {φ : Fuses} {κ : List Instr} {ρ : Nat} {s : State}

theorem Sound.hpRespond (h : Sound φ κ ρ s) {st : Nat} {data : List Byte} : Sound φ κ ρ (Sys2Proof.Machine.State.hpRespond s st data) := by
  unfold Sys2Proof.Machine.State.hpRespond
  repeat' first
    | with_reducible assumption
    | with_reducible apply Sound.bump
    | fail_if_no_progress with_reducible apply Sound.keep
    | (intro _ _ _)
    | (intro _ _)
    | split
    | dsimp only

theorem Sound.hpTake (h : Sound φ κ ρ s) {msg : List Byte} : Sound φ κ ρ (Sys2Proof.Machine.State.hpTake s msg) := by
  unfold Sys2Proof.Machine.State.hpTake
  repeat' first
    | with_reducible assumption
    | with_reducible apply Sound.reply
    | fail_if_no_progress with_reducible apply Sound.keep
    | (intro _ _ _)
    | (intro _ _)
    | split
    | dsimp only

theorem Sound.hpRun (h : Sound φ κ ρ s) {op flags arg : Nat} {data : List Byte} {crc : Nat} {f : State → State}
    (hf : ∀ t, Sound φ κ ρ t → Sound φ κ ρ (f t)) : Sound φ κ ρ (s.hpRun op flags arg data crc f) := by
  unfold Sys2Proof.Machine.State.hpRun
  exact Sound.ite h (Sound.ite (hf s h) h.hpRespond)

/-- A pop leaves the Letterbox standing as its rules have it (R416). -/
theorem Letterbox.pop_ok {b : Letterbox} {n : Nat} {m : Bool} (h : b.ok = true) : (b.pop n m).2.ok = true := by
  rw [Letterbox.ok_iff] at h ⊢
  obtain ⟨h1, h2, h3, h4, h5, h6⟩ := h
  unfold Letterbox.pop
  refine ⟨h1, h2, h3, ?_, ?_, h6⟩
  · simp only [List.length_take, List.length_drop]; omega
  · intro k hk
    dsimp only at hk ⊢
    split at hk
    · cases hk; omega
    · have := h5 k hk; omega

/-- A release leaves all of it standing but the swap (R417). -/
theorem Letterbox.release_almost {b c : Letterbox} {n : Nat} (h : b.ok = true) (e : b.release n = some c) : c.almost := by
  obtain ⟨h1, h2, h3, h4, h5⟩ := Letterbox.ok.almost h
  unfold Letterbox.release at e
  split at e
  · cases e
  · cases e
    refine ⟨?_, h2, List.Pairwise.sublist (List.drop_sublist _ _) h3, ?_, ?_⟩
    · have := lbWords_append (b.drain.take (if n = 0 then b.cursor else n)) (b.drain.drop (if n = 0 then b.cursor else n))
      rw [List.take_append_drop] at this
      dsimp only; omega
    · simp only [List.length_drop]; omega
    · intro k hk
      dsimp only at hk ⊢
      rw [Option.map_eq_some_iff] at hk
      obtain ⟨m, hm, rfl⟩ := hk
      have := h5 m hm; omega

theorem Sound.execHpRequest (h : Sound φ κ ρ s) {flags : Nat} {arg : Nat} {data : List Byte} {crc : Nat} : ∃ τ, Sys2Proof.Machine.execHpRequest flags arg data crc s = .next τ ∧ Sound φ κ ρ τ := by
  refine ⟨_, rfl, ?_⟩
  repeat' first
    | with_reducible assumption
    | with_reducible apply Sound.hpRespond
    | with_reducible apply Sound.hpTake
    | (refine Sound.hpRun ?_ (fun _ _ => ?_))
    | fail_if_no_progress with_reducible apply Sound.keep
    | (intro _ _ _)
    | (intro _ _)
    | split
    | dsimp only

theorem Sound.execHpReply (h : Sound φ κ ρ s) {flags : Nat} {arg : Nat} {data : List Byte} {crc : Nat} : ∃ τ, Sys2Proof.Machine.execHpReply flags arg data crc s = .next τ ∧ Sound φ κ ρ τ := by
  refine ⟨_, rfl, ?_⟩
  repeat' first
    | with_reducible assumption
    | with_reducible apply Sound.reply
    | with_reducible apply Sound.hpRespond
    | (refine Sound.hpRun ?_ (fun _ _ => ?_))
    | fail_if_no_progress with_reducible apply Sound.keep
    | (intro _ _ _)
    | (intro _ _)
    | split
    | dsimp only

theorem Sound.execHpNotify (h : Sound φ κ ρ s) {flags : Nat} {arg : Nat} {data : List Byte} {crc : Nat} : ∃ τ, Sys2Proof.Machine.execHpNotify flags arg data crc s = .next τ ∧ Sound φ κ ρ τ := by
  refine ⟨_, rfl, ?_⟩
  repeat' first
    | with_reducible assumption
    | with_reducible apply Sound.hpRespond
    | (refine Sound.hpRun ?_ (fun _ _ => ?_))
    | fail_if_no_progress with_reducible apply Sound.keep
    | (intro _ _ _)
    | (intro _ _)
    | split
    | dsimp only

theorem Sound.execHpNotifyRelease (h : Sound φ κ ρ s) {flags : Nat} {arg : Nat} {data : List Byte} {crc : Nat} : ∃ τ, Sys2Proof.Machine.execHpNotifyRelease flags arg data crc s = .next τ ∧ Sound φ κ ρ τ := by
  refine ⟨_, rfl, ?_⟩
  repeat' first
    | with_reducible assumption
    | with_reducible apply Sound.hpRespond
    | (refine Sound.hpRun ?_ (fun _ _ => ?_))
    | with_reducible apply Sound.ite
    | fail_if_no_progress with_reducible apply Sound.keep
    | (intro _ _ _)
    | (intro _ _)
    | split
    | dsimp only

theorem Sound.execHpPop (h : Sound φ κ ρ s) {flags : Nat} {arg : Nat} {data : List Byte} {crc : Nat} :
    ∃ τ, Sys2Proof.Machine.execHpPop flags arg data crc s = .next τ ∧ Sound φ κ ρ τ :=
  ⟨_, rfl, h.hpRun fun _ ht => (ht.setLb (Letterbox.pop_ok ht.lb)).hpRespond⟩

theorem Sound.execHpRelease (h : Sound φ κ ρ s) {flags : Nat} {arg : Nat} {data : List Byte} {crc : Nat} :
    ∃ τ, Sys2Proof.Machine.execHpRelease flags arg data crc s = .next τ ∧ Sound φ κ ρ τ := by
  refine ⟨_, rfl, h.hpRun fun t ht => ?_⟩
  split
  · rename_i b e
    exact (Sound.lbSwapIfDue (s := { t with lb := b }) ⟨ht.fuse, ht.pending, ht.rc, ht.regs⟩
      (Letterbox.release_almost ht.lb e)).hpRespond
  · exact ht.hpRespond

theorem Sound.execHpMark (h : Sound φ κ ρ s) {flags : Nat} {arg : Nat} {data : List Byte} {crc : Nat} :
    ∃ τ, Sys2Proof.Machine.execHpMark flags arg data crc s = .next τ ∧ Sound φ κ ρ τ := by
  refine ⟨_, rfl, h.hpRun fun t ht => (ht.setLb ?_).hpRespond⟩
  obtain ⟨h1, h2, h3, h4, _, h6⟩ := (Letterbox.ok_iff _).mp ht.lb
  exact (Letterbox.ok_iff _).mpr ⟨h1, h2, h3, h4, fun m hm => by cases hm; exact Nat.le_refl _, h6⟩

theorem Sound.execHpRewind (h : Sound φ κ ρ s) {flags : Nat} {arg : Nat} {data : List Byte} {crc : Nat} :
    ∃ τ, Sys2Proof.Machine.execHpRewind flags arg data crc s = .next τ ∧ Sound φ κ ρ τ := by
  refine ⟨_, rfl, h.hpRun fun t ht => ?_⟩
  split
  · rename_i m e
    refine (ht.setLb ?_).hpRespond
    obtain ⟨h1, h2, h3, h4, h5, h6⟩ := (Letterbox.ok_iff _).mp ht.lb
    have := h5 m e
    exact (Letterbox.ok_iff _).mpr ⟨h1, h2, h3, by dsimp only; omega, fun k hk => by
      have := hk.symm.trans e; cases this; exact Nat.le_refl _, h6⟩
  · exact ht.hpRespond

theorem Sound.execHpStatus (h : Sound φ κ ρ s) {flags : Nat} {arg : Nat} {data : List Byte} {crc : Nat} : ∃ τ, Sys2Proof.Machine.execHpStatus flags arg data crc s = .next τ ∧ Sound φ κ ρ τ := by
  refine ⟨_, rfl, ?_⟩
  repeat' first
    | with_reducible assumption
    | with_reducible apply Sound.hpRespond
    | (refine Sound.hpRun ?_ (fun _ _ => ?_))
    | fail_if_no_progress with_reducible apply Sound.keep
    | (intro _ _ _)
    | (intro _ _)
    | split
    | dsimp only

theorem Sound.execHpEcho (h : Sound φ κ ρ s) {flags : Nat} {arg : Nat} {data : List Byte} {crc : Nat} : ∃ τ, Sys2Proof.Machine.execHpEcho flags arg data crc s = .next τ ∧ Sound φ κ ρ τ := by
  refine ⟨_, rfl, ?_⟩
  repeat' first
    | with_reducible assumption
    | with_reducible apply Sound.hpRespond
    | (refine Sound.hpRun ?_ (fun _ _ => ?_))
    | fail_if_no_progress with_reducible apply Sound.keep
    | (intro _ _ _)
    | (intro _ _)
    | split
    | dsimp only

theorem Sound.execHpTransactionAbort (h : Sound φ κ ρ s) : ∃ τ, Sys2Proof.Machine.execHpTransactionAbort s = .next τ ∧ Sound φ κ ρ τ := by
  refine ⟨_, rfl, ?_⟩
  repeat' first
    | with_reducible assumption
    | with_reducible apply Sound.bump
    | with_reducible apply Sound.ite
    | fail_if_no_progress with_reducible apply Sound.keep
    | (intro _ _ _)
    | (intro _ _)
    | split
    | dsimp only

theorem Sound.execHpBadOpcode (h : Sound φ κ ρ s) {op : Nat} {flags : Nat} {arg : Nat} {data : List Byte} {crc : Nat} : ∃ τ, Sys2Proof.Machine.execHpBadOpcode op flags arg data crc s = .next τ ∧ Sound φ κ ρ τ := by
  refine ⟨_, rfl, ?_⟩
  repeat' first
    | with_reducible assumption
    | (refine Sound.hpRun ?_ (fun _ _ => ?_))
    | with_reducible apply Sound.ite
    | fail_if_no_progress with_reducible apply Sound.keep
    | (intro _ _ _)
    | (intro _ _)
    | split
    | dsimp only

theorem Sound.idle (h : Sound φ κ ρ s) : Sound φ κ ρ (Sys2Proof.Machine.State.idle s) := by
  unfold Sys2Proof.Machine.State.idle
  repeat' first
    | with_reducible assumption
    | with_reducible apply Sound.advance
    | with_reducible apply Sound.serveHost
    | with_reducible apply Sound.ite
    | fail_if_no_progress with_reducible apply Sound.keep
    | (intro _ _ _)
    | (intro _ _)
    | split
    | dsimp only

end Sys2Proof.Machine
end

