-- ==== Sys2Proof/Laws/SoundStartup.lean ====
section
/-! SUPPORT. What every command keeps: the functions of Machine/Startup.lean. -/

namespace Sys2Proof.Machine

set_option linter.unusedTactic false
set_option linter.unreachableTactic false

variable {φ : Fuses} {κ : List Instr} {ρ : Nat} {s : State}

/-- RESET_ASSERT: RC starts from 0 (R428). -/
theorem Sound.execResetAssert (h : Sound φ κ ρ s) : ∃ τ, Sys2Proof.Machine.execResetAssert s = .next τ ∧ Sound φ κ 0 τ :=
  ⟨_, rfl, h.fuse, h.pending, Nat.zero_le _, rfl, by show State.reset.lb.ok = true; decide⟩

theorem Sound.execVddPllUp (h : Sound φ κ ρ s) : ∃ τ, Sys2Proof.Machine.execVddPllUp s = .next τ ∧ Sound φ κ ρ τ := by
  refine ⟨_, rfl, ?_⟩
  repeat' first
    | with_reducible assumption
    | fail_if_no_progress with_reducible apply Sound.keep
    | (intro _ _ _)
    | (intro _ _)
    | split
    | dsimp only

theorem Sound.execResetRelease (h : Sound φ κ ρ s) {straps : Nat} {volts : List Nat} : ∃ τ, Sys2Proof.Machine.execResetRelease straps volts s = .next τ ∧ Sound φ κ ρ τ := by
  refine ⟨_, rfl, ?_⟩
  repeat' first
    | with_reducible assumption
    | with_reducible apply Sound.wr
    | with_reducible apply Sound.units
    | with_reducible apply Sound.ite
    | fail_if_no_progress with_reducible apply Sound.keep
    | (intro _ _ _)
    | (intro _ _)
    | split
    | dsimp only

theorem Sound.readyCheck (h : Sound φ κ ρ s) : Sound φ κ ρ (Sys2Proof.Machine.State.readyCheck s) := by
  unfold Sys2Proof.Machine.State.readyCheck
  repeat' first
    | with_reducible assumption
    | with_reducible apply Sound.wr
    | with_reducible apply Sound.ite
    | fail_if_no_progress with_reducible apply Sound.keep
    | (intro _ _ _)
    | (intro _ _)
    | split
    | dsimp only

theorem Sound.execLoDetect (h : Sound φ κ ρ s) {edges : Nat} : ∃ τ, Sys2Proof.Machine.execLoDetect edges s = .next τ ∧ Sound φ κ ρ τ := by
  refine ⟨_, rfl, ?_⟩
  repeat' first
    | with_reducible assumption
    | with_reducible apply Sound.flag
    | with_reducible apply Sound.ite
    | fail_if_no_progress with_reducible apply Sound.keep
    | (intro _ _ _)
    | (intro _ _)
    | split
    | dsimp only

theorem Sound.lockWith (h : Sound φ κ ρ s) {cfg : Nat} : Sound φ κ ρ (Sys2Proof.Machine.State.lockWith s cfg) := by
  unfold Sys2Proof.Machine.State.lockWith
  repeat' first
    | with_reducible assumption
    | with_reducible apply Sound.put
    | with_reducible apply Sound.wr
    | fail_if_no_progress with_reducible apply Sound.keep
    | (intro _ _ _)
    | (intro _ _)
    | split
    | dsimp only

theorem Sound.execBootRecordRead (h : Sound φ κ ρ s) {rec : Option (List Byte)} : ∃ τ, Sys2Proof.Machine.execBootRecordRead rec s = .next τ ∧ Sound φ κ ρ τ := by
  refine ⟨_, rfl, ?_⟩
  repeat' first
    | with_reducible assumption
    | with_reducible apply Sound.wr
    | with_reducible apply Sound.bind
    | with_reducible apply Sound.readyCheck
    | with_reducible apply Sound.lockWith
    | with_reducible apply Sound.ite
    | fail_if_no_progress with_reducible apply Sound.keep
    | (intro _ _ _)
    | (intro _ _)
    | split
    | dsimp only

theorem Sound.zero (h : Sound φ κ ρ s) : Sound φ κ 0 s := ⟨h.fuse, h.pending, Nat.zero_le _, h.regs, h.lb⟩

/-- PLL_LOCK: RC starts from 0 (R57). -/
theorem Sound.execPllLock (h : Sound φ κ ρ s) : ∃ τ, Sys2Proof.Machine.execPllLock s = .next τ ∧ Sound φ κ 0 τ := by
  refine ⟨_, rfl, Sound.together h.zero fun s h => ?_⟩
  split
  · exact h
  · have h1 : Sound φ κ 0 { s.wr Reg.deviceStatusClockState 2 with rc := 0 } :=
      let w := h.wr (g := Reg.deviceStatusClockState) (v := 2)
      ⟨w.fuse, w.pending, Nat.zero_le _, w.regs, w.lb⟩
    generalize { s.wr Reg.deviceStatusClockState 2 with rc := 0 } = t at h1
    dsimp only
    generalize hu : t.setDpll _ = u
    have h3 : Sound φ κ 0 u := hu ▸ h1.setDpll
    have h2 : Sound φ κ 0 (if u.on (Reg.mdCtrlEnable 0) then u.domainStart 0 else u) := Sound.ite h3.domainStart h3
    exact ((h2.keep.linkOwn).linkOwn).linkOwn.readyCheck

theorem Sound.execPllLockTimeout (h : Sound φ κ ρ s) : ∃ τ, Sys2Proof.Machine.execPllLockTimeout s = .next τ ∧ Sound φ κ ρ τ := by
  refine ⟨_, rfl, ?_⟩
  repeat' first
    | with_reducible assumption
    | with_reducible apply Sound.wr
    | with_reducible apply Sound.ite
    | fail_if_no_progress with_reducible apply Sound.keep
    | (intro _ _ _)
    | (intro _ _)
    | split
    | dsimp only

theorem Sound.execLoLost (h : Sound φ κ ρ s) : ∃ τ, Sys2Proof.Machine.execLoLost s = .next τ ∧ Sound φ κ ρ τ := by
  refine ⟨_, rfl, ?_⟩
  repeat' first
    | with_reducible assumption
    | with_reducible apply Sound.wr
    | with_reducible apply Sound.units
    | with_reducible apply Sound.post
    | with_reducible apply Sound.together
    | with_reducible apply Sound.domainHalt
    | with_reducible apply Sound.ite
    | fail_if_no_progress with_reducible apply Sound.keep
    | (intro _ _ _)
    | (intro _ _)
    | split
    | dsimp only

theorem Sound.reinit (h : Sound φ κ ρ s) : Sound φ κ ρ s.reinit := by
  unfold Sys2Proof.Machine.State.reinit
  dsimp only
  refine Sound.linkOwn (Sound.linkOwn (Sound.linkOwn (Sound.each (Sound.wr (Sound.put (Sound.each ?_ fun t k ht => ht.put)))
    fun t c ht => ht.displace)))
  exact ⟨h.fuse, h.pending, h.rc, rfl, by show State.reset.lb.ok = true; decide⟩

theorem Sound.execFabricInitDone (h : Sound φ κ ρ s) : ∃ τ, Sys2Proof.Machine.execFabricInitDone s = .next τ ∧ Sound φ κ ρ τ := by
  refine ⟨_, rfl, ?_⟩
  repeat' first
    | with_reducible assumption
    | with_reducible apply Sound.together
    | with_reducible apply Sound.readyCheck
    | with_reducible apply Sound.reinit
    | with_reducible apply Sound.ite
    | fail_if_no_progress with_reducible apply Sound.keep
    | (intro _ _ _)
    | (intro _ _)
    | split
    | dsimp only

theorem Sound.loadSet (h : Sound φ κ ρ s) {d : EntDesc} {k : Nat} {v : Nat} {count : Bool} : Sound φ κ ρ (Sys2Proof.Machine.State.loadSet s d k v count) := by
  unfold Sys2Proof.Machine.State.loadSet
  repeat' first
    | with_reducible assumption
    | with_reducible apply Sound.bumpIf
    | with_reducible apply Sound.setItem
    | with_reducible apply Sound.ite
    | fail_if_no_progress with_reducible apply Sound.keep
    | (intro _ _ _)
    | (intro _ _)
    | split
    | dsimp only

theorem Sound.loadRoom (h : Sound φ κ ρ s) {r : Nat} {m : Sparse Nat × Sparse Nat × Sparse Nat} : Sound φ κ ρ (Sys2Proof.Machine.State.loadRoom s r m) := by
  unfold Sys2Proof.Machine.State.loadRoom
  repeat' first
    | with_reducible assumption
    | with_reducible apply Sound.bump
    | with_reducible apply Sound.setRoom
    | with_reducible apply Sound.ite
    | fail_if_no_progress with_reducible apply Sound.keep
    | (intro _ _ _)
    | (intro _ _)
    | split
    | dsimp only

theorem Sound.loadEntry (h : Sound φ κ ρ s) {x : Image} {step k : Nat} : Sound φ κ ρ (s.loadEntry x step k) := by
  unfold Sys2Proof.Machine.State.loadEntry
  split
  · exact h.bumpIf
  · rename_i d a b v _
    dsimp only
    generalize (match startField d.ent a b with | some f => setField v f.lo f.w 0 | none => v) = w
    repeat' first
      | with_reducible assumption
      | with_reducible apply Sound.loadSet
      | with_reducible apply Sound.applyMaskCommit
      | with_reducible apply Sound.ite
      | (refine Sound.of_next (Sound.execDdrTrainingDone ?_) (by assumption))
      | split

theorem Sound.loadGains (h : Sound φ κ ρ s) {x : Image} : Sound φ κ ρ (Sys2Proof.Machine.State.loadGains s x) := by
  unfold Sys2Proof.Machine.State.loadGains
  repeat' first
    | with_reducible assumption
    | with_reducible apply Sound.put
    | with_reducible apply Sound.units
    | with_reducible apply Sound.setTile
    | with_reducible apply Sound.commitTile
    | with_reducible apply Sound.copyEnd
    | with_reducible apply Sound.foldFst
    | with_reducible apply Sound.foldl
    | with_reducible apply Sound.foldSnd
    | fail_if_no_progress with_reducible apply Sound.keep
    | (intro _ _ _)
    | (intro _ _)
    | split
    | dsimp only

theorem Sound.loadSinks (h : Sound φ κ ρ s) {x : Image} : Sound φ κ ρ (Sys2Proof.Machine.State.loadSinks s x) := by
  unfold Sys2Proof.Machine.State.loadSinks
  repeat' first
    | with_reducible assumption
    | with_reducible apply Sound.bump
    | with_reducible apply Sound.each
    | with_reducible apply Sound.loadSet
    | fail_if_no_progress with_reducible apply Sound.keep
    | (intro _ _ _)
    | (intro _ _)
    | split
    | dsimp only

theorem Sound.loadStart (h : Sound φ κ ρ s) {x : Image} {k : Nat} : Sound φ κ ρ (Sys2Proof.Machine.State.loadStart s x k) := by
  unfold Sys2Proof.Machine.State.loadStart
  repeat' first
    | with_reducible assumption
    | with_reducible apply Sound.loadSet
    | with_reducible apply Sound.ite
    | fail_if_no_progress with_reducible apply Sound.keep
    | (intro _ _ _)
    | (intro _ _)
    | split
    | dsimp only

theorem Sound.loadImage (h : Sound φ κ ρ s) {x : Image} {step : Nat} : Sound φ κ ρ (Sys2Proof.Machine.State.loadImage s x step) := by
  unfold Sys2Proof.Machine.State.loadImage
  repeat' first
    | with_reducible assumption
    | with_reducible apply Sound.each
    | with_reducible apply Sound.units
    | with_reducible apply Sound.loadRoom
    | with_reducible apply Sound.loadEntry
    | with_reducible apply Sound.loadGains
    | with_reducible apply Sound.loadSinks
    | with_reducible apply Sound.loadStart
    | with_reducible apply Sound.ite
    | fail_if_no_progress with_reducible apply Sound.keep
    | (intro _ _ _)
    | (intro _ _)
    | split
    | dsimp only

theorem Sound.execBootLoad (h : Sound φ κ ρ s) {step : Nat} : ∃ τ, Sys2Proof.Machine.execBootLoad step s = .next τ ∧ Sound φ κ ρ τ := by
  refine ⟨_, rfl, ?_⟩
  repeat' first
    | with_reducible assumption
    | with_reducible apply Sound.wr
    | with_reducible apply Sound.post
    | with_reducible apply Sound.together
    | with_reducible apply Sound.readyCheck
    | with_reducible apply Sound.loadImage
    | with_reducible apply Sound.ite
    | fail_if_no_progress with_reducible apply Sound.keep
    | (intro _ _ _)
    | (intro _ _)
    | split
    | dsimp only

end Sys2Proof.Machine
end

