-- ==== Sys2Proof/Laws/SoundSets.lean ====
section
/-! SUPPORT. What every command keeps: the functions of Machine/Sets.lean. -/

namespace Sys2Proof.Machine

set_option linter.unusedTactic false
set_option linter.unreachableTactic false

variable {φ : Fuses} {κ : List Instr} {ρ : Nat} {s : State}

theorem Sound.setAs (h : Sound φ κ ρ s) {e : Ent} {key : Nat} {who : Role} {v : Val} {mine : Nat → Bool} : Sound φ κ ρ (Sys2Proof.Machine.State.setAs s e key who v mine) := by
  unfold Sys2Proof.Machine.State.setAs
  repeat' first
    | with_reducible assumption
    | with_reducible apply Sound.say
    | with_reducible apply Sound.catchUp
    | with_reducible apply Sound.setItem
    | with_reducible apply Sound.ite
    | fail_if_no_progress with_reducible apply Sound.keep
    | (intro _ _ _)
    | (intro _ _)
    | split
    | dsimp only

theorem Sound.getAs (h : Sound φ κ ρ s) {mine : EntDesc → Bool} {key : Nat} {who : Role} : Sound φ κ ρ (Sys2Proof.Machine.State.getAs s mine key who) := by
  unfold Sys2Proof.Machine.State.getAs
  repeat' first
    | with_reducible assumption
    | with_reducible apply Sound.say
    | with_reducible apply Sound.catchUp
    | with_reducible apply Sound.readEntry
    | with_reducible apply Sound.ite
    | fail_if_no_progress with_reducible apply Sound.keep
    | (intro _ _ _)
    | (intro _ _)
    | split
    | dsimp only

theorem Sound.execSinkSourceSet (h : Sound φ κ ρ s) {who : Role} {o : Nat} {v : Val} : ∃ τ, Sys2Proof.Machine.execSinkSourceSet who o v s = .next τ ∧ Sound φ κ ρ τ := by
  refine ⟨_, rfl, ?_⟩
  repeat' first
    | with_reducible assumption
    | with_reducible apply Sound.setAs
    | fail_if_no_progress with_reducible apply Sound.keep
    | (intro _ _ _)
    | (intro _ _)
    | split
    | dsimp only

theorem Sound.execToneCtrlSet (h : Sound φ κ ρ s) {who : Role} {g : Nat} {v : Val} : ∃ τ, Sys2Proof.Machine.execToneCtrlSet who g v s = .next τ ∧ Sound φ κ ρ τ := by
  refine ⟨_, rfl, ?_⟩
  repeat' first
    | with_reducible assumption
    | with_reducible apply Sound.setAs
    | fail_if_no_progress with_reducible apply Sound.keep
    | (intro _ _ _)
    | (intro _ _)
    | split
    | dsimp only

theorem Sound.execToneFreqSet (h : Sound φ κ ρ s) {who : Role} {g : Nat} {v : Val} : ∃ τ, Sys2Proof.Machine.execToneFreqSet who g v s = .next τ ∧ Sound φ κ ρ τ := by
  refine ⟨_, rfl, ?_⟩
  repeat' first
    | with_reducible assumption
    | with_reducible apply Sound.setAs
    | fail_if_no_progress with_reducible apply Sound.keep
    | (intro _ _ _)
    | (intro _ _)
    | split
    | dsimp only

theorem Sound.execVidModeSet (h : Sound φ κ ρ s) {who : Role} {v : Val} : ∃ τ, Sys2Proof.Machine.execVidModeSet who v s = .next τ ∧ Sound φ κ ρ τ := by
  refine ⟨_, rfl, ?_⟩
  repeat' first
    | with_reducible assumption
    | with_reducible apply Sound.setAs
    | fail_if_no_progress with_reducible apply Sound.keep
    | (intro _ _ _)
    | (intro _ _)
    | split
    | dsimp only

theorem Sound.execVidFixedSet (h : Sound φ κ ρ s) {who : Role} {v : Val} : ∃ τ, Sys2Proof.Machine.execVidFixedSet who v s = .next τ ∧ Sound φ κ ρ τ := by
  refine ⟨_, rfl, ?_⟩
  repeat' first
    | with_reducible assumption
    | with_reducible apply Sound.setAs
    | fail_if_no_progress with_reducible apply Sound.keep
    | (intro _ _ _)
    | (intro _ _)
    | split
    | dsimp only

theorem Sound.execHmWindowSet (h : Sound φ κ ρ s) {who : Role} {v : Val} : ∃ τ, Sys2Proof.Machine.execHmWindowSet who v s = .next τ ∧ Sound φ κ ρ τ := by
  refine ⟨_, rfl, ?_⟩
  repeat' first
    | with_reducible assumption
    | with_reducible apply Sound.setAs
    | fail_if_no_progress with_reducible apply Sound.keep
    | (intro _ _ _)
    | (intro _ _)
    | split
    | dsimp only

theorem Sound.execTvScheduleSet (h : Sound φ κ ρ s) {who : Role} {v : Nat} {x : Val} : ∃ τ, Sys2Proof.Machine.execTvScheduleSet who v x s = .next τ ∧ Sound φ κ ρ τ := by
  refine ⟨_, rfl, ?_⟩
  repeat' first
    | with_reducible assumption
    | with_reducible apply Sound.setAs
    | fail_if_no_progress with_reducible apply Sound.keep
    | (intro _ _ _)
    | (intro _ _)
    | split
    | dsimp only

theorem Sound.execTvScheduleCancel (h : Sound φ κ ρ s) {who : Role} {v : Nat} {x : Val} : ∃ τ, Sys2Proof.Machine.execTvScheduleCancel who v x s = .next τ ∧ Sound φ κ ρ τ := by
  refine ⟨_, rfl, ?_⟩
  repeat' first
    | with_reducible assumption
    | with_reducible apply Sound.setAs
    | fail_if_no_progress with_reducible apply Sound.keep
    | (intro _ _ _)
    | (intro _ _)
    | split
    | dsimp only

theorem Sound.execTvSourceSet (h : Sound φ κ ρ s) {who : Role} {v : Nat} {x : Val} : ∃ τ, Sys2Proof.Machine.execTvSourceSet who v x s = .next τ ∧ Sound φ κ ρ τ := by
  refine ⟨_, rfl, ?_⟩
  repeat' first
    | with_reducible assumption
    | with_reducible apply Sound.setAs
    | fail_if_no_progress with_reducible apply Sound.keep
    | (intro _ _ _)
    | (intro _ _)
    | split
    | dsimp only

theorem Sound.execPtpPortCfgSet (h : Sound φ κ ρ s) {who : Role} {p : Nat} {v : Val} : ∃ τ, Sys2Proof.Machine.execPtpPortCfgSet who p v s = .next τ ∧ Sound φ κ ρ τ := by
  refine ⟨_, rfl, ?_⟩
  repeat' first
    | with_reducible assumption
    | with_reducible apply Sound.setAs
    | fail_if_no_progress with_reducible apply Sound.keep
    | (intro _ _ _)
    | (intro _ _)
    | split
    | dsimp only

theorem Sound.execPtpClockIdSet (h : Sound φ κ ρ s) {who : Role} {p : Nat} {v : Val} : ∃ τ, Sys2Proof.Machine.execPtpClockIdSet who p v s = .next τ ∧ Sound φ κ ρ τ := by
  refine ⟨_, rfl, ?_⟩
  repeat' first
    | with_reducible assumption
    | with_reducible apply Sound.setAs
    | fail_if_no_progress with_reducible apply Sound.keep
    | (intro _ _ _)
    | (intro _ _)
    | split
    | dsimp only

theorem Sound.execPtpBcSet (h : Sound φ κ ρ s) {who : Role} {v : Val} : ∃ τ, Sys2Proof.Machine.execPtpBcSet who v s = .next τ ∧ Sound φ κ ρ τ := by
  refine ⟨_, rfl, ?_⟩
  repeat' first
    | with_reducible assumption
    | with_reducible apply Sound.setAs
    | fail_if_no_progress with_reducible apply Sound.keep
    | (intro _ _ _)
    | (intro _ _)
    | split
    | dsimp only

theorem Sound.execTtCtrlSet (h : Sound φ κ ρ s) {who : Role} {tt : Nat} {v : Val} : ∃ τ, Sys2Proof.Machine.execTtCtrlSet who tt v s = .next τ ∧ Sound φ κ ρ τ := by
  refine ⟨_, rfl, ?_⟩
  repeat' first
    | with_reducible assumption
    | with_reducible apply Sound.setAs
    | fail_if_no_progress with_reducible apply Sound.keep
    | (intro _ _ _)
    | (intro _ _)
    | split
    | dsimp only

theorem Sound.execEvtCfgSet (h : Sound φ κ ρ s) {who : Role} {i : Nat} {v : Val} : ∃ τ, Sys2Proof.Machine.execEvtCfgSet who i v s = .next τ ∧ Sound φ κ ρ τ := by
  refine ⟨_, rfl, ?_⟩
  repeat' first
    | with_reducible assumption
    | with_reducible apply Sound.setAs
    | fail_if_no_progress with_reducible apply Sound.keep
    | (intro _ _ _)
    | (intro _ _)
    | split
    | dsimp only

theorem Sound.execRefCfgSet (h : Sound φ κ ρ s) {who : Role} {c : Nat} {v : Val} : ∃ τ, Sys2Proof.Machine.execRefCfgSet who c v s = .next τ ∧ Sound φ κ ρ τ := by
  refine ⟨_, rfl, ?_⟩
  repeat' first
    | with_reducible assumption
    | with_reducible apply Sound.setAs
    | fail_if_no_progress with_reducible apply Sound.keep
    | (intro _ _ _)
    | (intro _ _)
    | split
    | dsimp only

theorem Sound.execRefCmdEndWtr (h : Sound φ κ ρ s) {who : Role} {c : Nat} {v : Val} : ∃ τ, Sys2Proof.Machine.execRefCmdEndWtr who c v s = .next τ ∧ Sound φ κ ρ τ := by
  refine ⟨_, rfl, ?_⟩
  repeat' first
    | with_reducible assumption
    | with_reducible apply Sound.setAs
    | fail_if_no_progress with_reducible apply Sound.keep
    | (intro _ _ _)
    | (intro _ _)
    | split
    | dsimp only

theorem Sound.execRefCmdClearFailed (h : Sound φ κ ρ s) {who : Role} {c : Nat} {v : Val} : ∃ τ, Sys2Proof.Machine.execRefCmdClearFailed who c v s = .next τ ∧ Sound φ κ ρ τ := by
  refine ⟨_, rfl, ?_⟩
  repeat' first
    | with_reducible assumption
    | with_reducible apply Sound.setAs
    | fail_if_no_progress with_reducible apply Sound.keep
    | (intro _ _ _)
    | (intro _ _)
    | split
    | dsimp only

theorem Sound.execSelModeSet (h : Sound φ κ ρ s) {who : Role} {v : Val} : ∃ τ, Sys2Proof.Machine.execSelModeSet who v s = .next τ ∧ Sound φ κ ρ τ := by
  refine ⟨_, rfl, ?_⟩
  repeat' first
    | with_reducible assumption
    | with_reducible apply Sound.setAs
    | fail_if_no_progress with_reducible apply Sound.keep
    | (intro _ _ _)
    | (intro _ _)
    | split
    | dsimp only

theorem Sound.execManualRefSet (h : Sound φ κ ρ s) {who : Role} {v : Val} : ∃ τ, Sys2Proof.Machine.execManualRefSet who v s = .next τ ∧ Sound φ κ ρ τ := by
  refine ⟨_, rfl, ?_⟩
  repeat' first
    | with_reducible assumption
    | with_reducible apply Sound.setAs
    | fail_if_no_progress with_reducible apply Sound.keep
    | (intro _ _ _)
    | (intro _ _)
    | split
    | dsimp only

theorem Sound.execHearthCmdClearHistory (h : Sound φ κ ρ s) {who : Role} {v : Val} : ∃ τ, Sys2Proof.Machine.execHearthCmdClearHistory who v s = .next τ ∧ Sound φ κ ρ τ := by
  refine ⟨_, rfl, ?_⟩
  repeat' first
    | with_reducible assumption
    | with_reducible apply Sound.setAs
    | fail_if_no_progress with_reducible apply Sound.keep
    | (intro _ _ _)
    | (intro _ _)
    | split
    | dsimp only

theorem Sound.execMdCtrlSet (h : Sound φ κ ρ s) {who : Role} {d : Nat} {v : Val} : ∃ τ, Sys2Proof.Machine.execMdCtrlSet who d v s = .next τ ∧ Sound φ κ ρ τ := by
  refine ⟨_, rfl, ?_⟩
  repeat' first
    | with_reducible assumption
    | with_reducible apply Sound.setAs
    | fail_if_no_progress with_reducible apply Sound.keep
    | (intro _ _ _)
    | (intro _ _)
    | split
    | dsimp only

theorem Sound.execPortCfgSet (h : Sound φ κ ρ s) {who : Role} {p : Nat} {v : Val} : ∃ τ, Sys2Proof.Machine.execPortCfgSet who p v s = .next τ ∧ Sound φ κ ρ τ := by
  refine ⟨_, rfl, ?_⟩
  repeat' first
    | with_reducible assumption
    | with_reducible apply Sound.setAs
    | fail_if_no_progress with_reducible apply Sound.keep
    | (intro _ _ _)
    | (intro _ _)
    | split
    | dsimp only

theorem Sound.execRxrReleaseSet (h : Sound φ κ ρ s) {who : Role} {p : Nat} {v : Val} : ∃ τ, Sys2Proof.Machine.execRxrReleaseSet who p v s = .next τ ∧ Sound φ κ ρ τ := by
  refine ⟨_, rfl, ?_⟩
  repeat' first
    | with_reducible assumption
    | with_reducible apply Sound.setAs
    | fail_if_no_progress with_reducible apply Sound.keep
    | (intro _ _ _)
    | (intro _ _)
    | split
    | dsimp only

theorem Sound.execTxqSendSet (h : Sound φ κ ρ s) {who : Role} {p : Nat} {q : Nat} {v : Val} : ∃ τ, Sys2Proof.Machine.execTxqSendSet who p q v s = .next τ ∧ Sound φ κ ρ τ := by
  refine ⟨_, rfl, ?_⟩
  repeat' first
    | with_reducible assumption
    | with_reducible apply Sound.txqSend
    | with_reducible apply Sound.setAs
    | fail_if_no_progress with_reducible apply Sound.keep
    | (intro _ _ _)
    | (intro _ _)
    | split
    | dsimp only

theorem Sound.execStreamRxEnable (h : Sound φ κ ρ s) {who : Role} {c : Nat} {v : Val} : ∃ τ, Sys2Proof.Machine.execStreamRxEnable who c v s = .next τ ∧ Sound φ κ ρ τ := by
  refine ⟨_, rfl, ?_⟩
  repeat' first
    | with_reducible assumption
    | with_reducible apply Sound.setAs
    | fail_if_no_progress with_reducible apply Sound.keep
    | (intro _ _ _)
    | (intro _ _)
    | split
    | dsimp only

theorem Sound.execStreamRxDisable (h : Sound φ κ ρ s) {who : Role} {c : Nat} {v : Val} : ∃ τ, Sys2Proof.Machine.execStreamRxDisable who c v s = .next τ ∧ Sound φ κ ρ τ := by
  refine ⟨_, rfl, ?_⟩
  repeat' first
    | with_reducible assumption
    | with_reducible apply Sound.setAs
    | fail_if_no_progress with_reducible apply Sound.keep
    | (intro _ _ _)
    | (intro _ _)
    | split
    | dsimp only

theorem Sound.execStreamTxEnable (h : Sound φ κ ρ s) {who : Role} {c : Nat} {v : Val} : ∃ τ, Sys2Proof.Machine.execStreamTxEnable who c v s = .next τ ∧ Sound φ κ ρ τ := by
  refine ⟨_, rfl, ?_⟩
  repeat' first
    | with_reducible assumption
    | with_reducible apply Sound.setAs
    | fail_if_no_progress with_reducible apply Sound.keep
    | (intro _ _ _)
    | (intro _ _)
    | split
    | dsimp only

theorem Sound.execStreamTxDisable (h : Sound φ κ ρ s) {who : Role} {c : Nat} {v : Val} : ∃ τ, Sys2Proof.Machine.execStreamTxDisable who c v s = .next τ ∧ Sound φ κ ρ τ := by
  refine ⟨_, rfl, ?_⟩
  repeat' first
    | with_reducible assumption
    | with_reducible apply Sound.setAs
    | fail_if_no_progress with_reducible apply Sound.keep
    | (intro _ _ _)
    | (intro _ _)
    | split
    | dsimp only

theorem Sound.execTdmSideEnable (h : Sound φ κ ρ s) {who : Role} {p : Nat} {b : Nat} {v : Val} : ∃ τ, Sys2Proof.Machine.execTdmSideEnable who p b v s = .next τ ∧ Sound φ κ ρ τ := by
  refine ⟨_, rfl, ?_⟩
  repeat' first
    | with_reducible assumption
    | with_reducible apply Sound.setAs
    | fail_if_no_progress with_reducible apply Sound.keep
    | (intro _ _ _)
    | (intro _ _)
    | split
    | dsimp only

theorem Sound.execTdmSideDisable (h : Sound φ κ ρ s) {who : Role} {p : Nat} {b : Nat} {v : Val} : ∃ τ, Sys2Proof.Machine.execTdmSideDisable who p b v s = .next τ ∧ Sound φ κ ρ τ := by
  refine ⟨_, rfl, ?_⟩
  repeat' first
    | with_reducible assumption
    | with_reducible apply Sound.setAs
    | fail_if_no_progress with_reducible apply Sound.keep
    | (intro _ _ _)
    | (intro _ _)
    | split
    | dsimp only

theorem Sound.execMaskCommit (h : Sound φ κ ρ s) {who : Role} {p : Nat} {b : Nat} {v : Val} : ∃ τ, Sys2Proof.Machine.execMaskCommit who p b v s = .next τ ∧ Sound φ κ ρ τ := by
  refine ⟨_, rfl, ?_⟩
  repeat' first
    | with_reducible assumption
    | with_reducible apply Sound.setAs
    | fail_if_no_progress with_reducible apply Sound.keep
    | (intro _ _ _)
    | (intro _ _)
    | split
    | dsimp only

theorem Sound.execAsrcEnable (h : Sound φ κ ρ s) {who : Role} {c : Nat} {v : Val} : ∃ τ, Sys2Proof.Machine.execAsrcEnable who c v s = .next τ ∧ Sound φ κ ρ τ := by
  refine ⟨_, rfl, ?_⟩
  repeat' first
    | with_reducible assumption
    | with_reducible apply Sound.setAs
    | fail_if_no_progress with_reducible apply Sound.keep
    | (intro _ _ _)
    | (intro _ _)
    | split
    | dsimp only

theorem Sound.execAsrcDisable (h : Sound φ κ ρ s) {who : Role} {c : Nat} {v : Val} : ∃ τ, Sys2Proof.Machine.execAsrcDisable who c v s = .next τ ∧ Sound φ κ ρ τ := by
  refine ⟨_, rfl, ?_⟩
  repeat' first
    | with_reducible assumption
    | with_reducible apply Sound.setAs
    | fail_if_no_progress with_reducible apply Sound.keep
    | (intro _ _ _)
    | (intro _ _)
    | split
    | dsimp only

theorem Sound.execGainSet (h : Sound φ κ ρ s) {who : Role} {x : Nat} {v : Val} : ∃ τ, Sys2Proof.Machine.execGainSet who x v s = .next τ ∧ Sound φ κ ρ τ := by
  refine ⟨_, rfl, ?_⟩
  repeat' first
    | with_reducible assumption
    | with_reducible apply Sound.setAs
    | fail_if_no_progress with_reducible apply Sound.keep
    | (intro _ _ _)
    | (intro _ _)
    | split
    | dsimp only

theorem Sound.execTileShadowSet (h : Sound φ κ ρ s) {who : Role} {t : Nat} {v : Val} : ∃ τ, Sys2Proof.Machine.execTileShadowSet who t v s = .next τ ∧ Sound φ κ ρ τ := by
  refine ⟨_, rfl, ?_⟩
  repeat' first
    | with_reducible assumption
    | with_reducible apply Sound.setAs
    | fail_if_no_progress with_reducible apply Sound.keep
    | (intro _ _ _)
    | (intro _ _)
    | split
    | dsimp only

theorem Sound.execTileCommit (h : Sound φ κ ρ s) {who : Role} {t : Nat} {v : Val} : ∃ τ, Sys2Proof.Machine.execTileCommit who t v s = .next τ ∧ Sound φ κ ρ τ := by
  refine ⟨_, rfl, ?_⟩
  repeat' first
    | with_reducible assumption
    | with_reducible apply Sound.setAs
    | fail_if_no_progress with_reducible apply Sound.keep
    | (intro _ _ _)
    | (intro _ _)
    | split
    | dsimp only

theorem Sound.execTileRevert (h : Sound φ κ ρ s) {who : Role} {t : Nat} {v : Val} : ∃ τ, Sys2Proof.Machine.execTileRevert who t v s = .next τ ∧ Sound φ κ ρ τ := by
  refine ⟨_, rfl, ?_⟩
  repeat' first
    | with_reducible assumption
    | with_reducible apply Sound.setAs
    | fail_if_no_progress with_reducible apply Sound.keep
    | (intro _ _ _)
    | (intro _ _)
    | split
    | dsimp only

theorem Sound.execHallCommit (h : Sound φ κ ρ s) {who : Role} {v : Val} : ∃ τ, Sys2Proof.Machine.execHallCommit who v s = .next τ ∧ Sound φ κ ρ τ := by
  refine ⟨_, rfl, ?_⟩
  repeat' first
    | with_reducible assumption
    | with_reducible apply Sound.setAs
    | fail_if_no_progress with_reducible apply Sound.keep
    | (intro _ _ _)
    | (intro _ _)
    | split
    | dsimp only

theorem Sound.execHallCfgSet (h : Sound φ κ ρ s) {who : Role} {v : Val} : ∃ τ, Sys2Proof.Machine.execHallCfgSet who v s = .next τ ∧ Sound φ κ ρ τ := by
  refine ⟨_, rfl, ?_⟩
  repeat' first
    | with_reducible assumption
    | with_reducible apply Sound.setAs
    | fail_if_no_progress with_reducible apply Sound.keep
    | (intro _ _ _)
    | (intro _ _)
    | split
    | dsimp only

theorem Sound.execRoomEnable (h : Sound φ κ ρ s) {who : Role} {r : Nat} {v : Val} : ∃ τ, Sys2Proof.Machine.execRoomEnable who r v s = .next τ ∧ Sound φ κ ρ τ := by
  refine ⟨_, rfl, ?_⟩
  repeat' first
    | with_reducible assumption
    | with_reducible apply Sound.setAs
    | fail_if_no_progress with_reducible apply Sound.keep
    | (intro _ _ _)
    | (intro _ _)
    | split
    | dsimp only

theorem Sound.execRoomDisable (h : Sound φ κ ρ s) {who : Role} {r : Nat} {v : Val} : ∃ τ, Sys2Proof.Machine.execRoomDisable who r v s = .next τ ∧ Sound φ κ ρ τ := by
  refine ⟨_, rfl, ?_⟩
  repeat' first
    | with_reducible assumption
    | with_reducible apply Sound.setAs
    | fail_if_no_progress with_reducible apply Sound.keep
    | (intro _ _ _)
    | (intro _ _)
    | split
    | dsimp only

theorem Sound.execRoomLoadSet (h : Sound φ κ ρ s) {who : Role} {r : Nat} {v : Val} : ∃ τ, Sys2Proof.Machine.execRoomLoadSet who r v s = .next τ ∧ Sound φ κ ρ τ := by
  refine ⟨_, rfl, ?_⟩
  repeat' first
    | with_reducible assumption
    | with_reducible apply Sound.setAs
    | fail_if_no_progress with_reducible apply Sound.keep
    | (intro _ _ _)
    | (intro _ _)
    | split
    | dsimp only

theorem Sound.execRoomCmdClear (h : Sound φ κ ρ s) {who : Role} {r : Nat} {v : Val} : ∃ τ, Sys2Proof.Machine.execRoomCmdClear who r v s = .next τ ∧ Sound φ κ ρ τ := by
  refine ⟨_, rfl, ?_⟩
  repeat' first
    | with_reducible assumption
    | with_reducible apply Sound.setAs
    | fail_if_no_progress with_reducible apply Sound.keep
    | (intro _ _ _)
    | (intro _ _)
    | split
    | dsimp only

theorem Sound.execRoomMboxInSet (h : Sound φ κ ρ s) {who : Role} {r : Nat} {v : Val} : ∃ τ, Sys2Proof.Machine.execRoomMboxInSet who r v s = .next τ ∧ Sound φ κ ρ τ := by
  refine ⟨_, rfl, ?_⟩
  repeat' first
    | with_reducible assumption
    | with_reducible apply Sound.setAs
    | fail_if_no_progress with_reducible apply Sound.keep
    | (intro _ _ _)
    | (intro _ _)
    | split
    | dsimp only

theorem Sound.execGuestCmdRejoin (h : Sound φ κ ρ s) {who : Role} {v : Val} : ∃ τ, Sys2Proof.Machine.execGuestCmdRejoin who v s = .next τ ∧ Sound φ κ ρ τ := by
  refine ⟨_, rfl, ?_⟩
  repeat' first
    | with_reducible assumption
    | with_reducible apply Sound.setAs
    | fail_if_no_progress with_reducible apply Sound.keep
    | (intro _ _ _)
    | (intro _ _)
    | split
    | dsimp only

theorem Sound.execGuestCmdSelftest (h : Sound φ κ ρ s) {who : Role} {v : Val} : ∃ τ, Sys2Proof.Machine.execGuestCmdSelftest who v s = .next τ ∧ Sound φ κ ρ τ := by
  refine ⟨_, rfl, ?_⟩
  repeat' first
    | with_reducible assumption
    | with_reducible apply Sound.setAs
    | fail_if_no_progress with_reducible apply Sound.keep
    | (intro _ _ _)
    | (intro _ _)
    | split
    | dsimp only

theorem Sound.execRoomGuardSet (h : Sound φ κ ρ s) {who : Role} {r : Nat} {v : Val} : ∃ τ, Sys2Proof.Machine.execRoomGuardSet who r v s = .next τ ∧ Sound φ κ ρ τ := by
  refine ⟨_, rfl, ?_⟩
  repeat' first
    | with_reducible assumption
    | with_reducible apply Sound.setAs
    | fail_if_no_progress with_reducible apply Sound.keep
    | (intro _ _ _)
    | (intro _ _)
    | split
    | dsimp only

theorem Sound.execMonCfgSet (h : Sound φ κ ρ s) {who : Role} {v : Val} : ∃ τ, Sys2Proof.Machine.execMonCfgSet who v s = .next τ ∧ Sound φ κ ρ τ := by
  refine ⟨_, rfl, ?_⟩
  repeat' first
    | with_reducible assumption
    | with_reducible apply Sound.setAs
    | fail_if_no_progress with_reducible apply Sound.keep
    | (intro _ _ _)
    | (intro _ _)
    | split
    | dsimp only

theorem Sound.execCellarPartSet (h : Sound φ κ ρ s) {who : Role} {v : Val} : ∃ τ, Sys2Proof.Machine.execCellarPartSet who v s = .next τ ∧ Sound φ κ ρ τ := by
  refine ⟨_, rfl, ?_⟩
  repeat' first
    | with_reducible assumption
    | with_reducible apply Sound.setAs
    | fail_if_no_progress with_reducible apply Sound.keep
    | (intro _ _ _)
    | (intro _ _)
    | split
    | dsimp only

theorem Sound.execDlyEnable (h : Sound φ κ ρ s) {who : Role} {n : Nat} {v : Val} : ∃ τ, Sys2Proof.Machine.execDlyEnable who n v s = .next τ ∧ Sound φ κ ρ τ := by
  refine ⟨_, rfl, ?_⟩
  repeat' first
    | with_reducible assumption
    | with_reducible apply Sound.setAs
    | fail_if_no_progress with_reducible apply Sound.keep
    | (intro _ _ _)
    | (intro _ _)
    | split
    | dsimp only

theorem Sound.execDlyDisable (h : Sound φ κ ρ s) {who : Role} {n : Nat} {v : Val} : ∃ τ, Sys2Proof.Machine.execDlyDisable who n v s = .next τ ∧ Sound φ κ ρ τ := by
  refine ⟨_, rfl, ?_⟩
  repeat' first
    | with_reducible assumption
    | with_reducible apply Sound.setAs
    | fail_if_no_progress with_reducible apply Sound.keep
    | (intro _ _ _)
    | (intro _ _)
    | split
    | dsimp only

theorem Sound.execDlyTimeSet (h : Sound φ κ ρ s) {who : Role} {n : Nat} {v : Val} : ∃ τ, Sys2Proof.Machine.execDlyTimeSet who n v s = .next τ ∧ Sound φ κ ρ τ := by
  refine ⟨_, rfl, ?_⟩
  repeat' first
    | with_reducible assumption
    | with_reducible apply Sound.setAs
    | fail_if_no_progress with_reducible apply Sound.keep
    | (intro _ _ _)
    | (intro _ _)
    | split
    | dsimp only

theorem Sound.execRecModeRecord (h : Sound φ κ ρ s) {who : Role} {v : Val} : ∃ τ, Sys2Proof.Machine.execRecModeRecord who v s = .next τ ∧ Sound φ κ ρ τ := by
  refine ⟨_, rfl, ?_⟩
  repeat' first
    | with_reducible assumption
    | with_reducible apply Sound.setAs
    | fail_if_no_progress with_reducible apply Sound.keep
    | (intro _ _ _)
    | (intro _ _)
    | split
    | dsimp only

theorem Sound.execRecModeHold (h : Sound φ κ ρ s) {who : Role} {v : Val} : ∃ τ, Sys2Proof.Machine.execRecModeHold who v s = .next τ ∧ Sound φ κ ρ τ := by
  refine ⟨_, rfl, ?_⟩
  repeat' first
    | with_reducible assumption
    | with_reducible apply Sound.setAs
    | fail_if_no_progress with_reducible apply Sound.keep
    | (intro _ _ _)
    | (intro _ _)
    | split
    | dsimp only

theorem Sound.execRecModeOff (h : Sound φ κ ρ s) {who : Role} {v : Val} : ∃ τ, Sys2Proof.Machine.execRecModeOff who v s = .next τ ∧ Sound φ κ ρ τ := by
  refine ⟨_, rfl, ?_⟩
  repeat' first
    | with_reducible assumption
    | with_reducible apply Sound.setAs
    | fail_if_no_progress with_reducible apply Sound.keep
    | (intro _ _ _)
    | (intro _ _)
    | split
    | dsimp only

theorem Sound.execDdrEnable (h : Sound φ κ ρ s) {who : Role} {v : Val} : ∃ τ, Sys2Proof.Machine.execDdrEnable who v s = .next τ ∧ Sound φ κ ρ τ := by
  refine ⟨_, rfl, ?_⟩
  repeat' first
    | with_reducible assumption
    | with_reducible apply Sound.setAs
    | fail_if_no_progress with_reducible apply Sound.keep
    | (intro _ _ _)
    | (intro _ _)
    | split
    | dsimp only

theorem Sound.execDdrDisable (h : Sound φ κ ρ s) {who : Role} {v : Val} : ∃ τ, Sys2Proof.Machine.execDdrDisable who v s = .next τ ∧ Sound φ κ ρ τ := by
  refine ⟨_, rfl, ?_⟩
  repeat' first
    | with_reducible assumption
    | with_reducible apply Sound.setAs
    | fail_if_no_progress with_reducible apply Sound.keep
    | (intro _ _ _)
    | (intro _ _)
    | split
    | dsimp only

theorem Sound.execKdpCfgSet (h : Sound φ κ ρ s) {who : Role} {v : Val} : ∃ τ, Sys2Proof.Machine.execKdpCfgSet who v s = .next τ ∧ Sound φ κ ρ τ := by
  refine ⟨_, rfl, ?_⟩
  repeat' first
    | with_reducible assumption
    | with_reducible apply Sound.setAs
    | fail_if_no_progress with_reducible apply Sound.keep
    | (intro _ _ _)
    | (intro _ _)
    | split
    | dsimp only

theorem Sound.execKeySet (h : Sound φ κ ρ s) {who : Role} {k : Nat} {v : Val} : ∃ τ, Sys2Proof.Machine.execKeySet who k v s = .next τ ∧ Sound φ κ ρ τ := by
  refine ⟨_, rfl, ?_⟩
  repeat' first
    | with_reducible assumption
    | with_reducible apply Sound.setAs
    | fail_if_no_progress with_reducible apply Sound.keep
    | (intro _ _ _)
    | (intro _ _)
    | split
    | dsimp only

theorem Sound.execKeyCfgSet (h : Sound φ κ ρ s) {who : Role} {k : Nat} {v : Val} : ∃ τ, Sys2Proof.Machine.execKeyCfgSet who k v s = .next τ ∧ Sound φ κ ρ τ := by
  refine ⟨_, rfl, ?_⟩
  repeat' first
    | with_reducible assumption
    | with_reducible apply Sound.setAs
    | fail_if_no_progress with_reducible apply Sound.keep
    | (intro _ _ _)
    | (intro _ _)
    | split
    | dsimp only

theorem Sound.execSessionClose (h : Sound φ κ ρ s) {who : Role} {ss : Nat} {v : Val} : ∃ τ, Sys2Proof.Machine.execSessionClose who ss v s = .next τ ∧ Sound φ κ ρ τ := by
  refine ⟨_, rfl, ?_⟩
  repeat' first
    | with_reducible assumption
    | with_reducible apply Sound.setAs
    | fail_if_no_progress with_reducible apply Sound.keep
    | (intro _ _ _)
    | (intro _ _)
    | split
    | dsimp only

theorem Sound.execSaveCmd (h : Sound φ κ ρ s) {who : Role} {v : Val} : ∃ τ, Sys2Proof.Machine.execSaveCmd who v s = .next τ ∧ Sound φ κ ρ τ := by
  refine ⟨_, rfl, ?_⟩
  repeat' first
    | with_reducible assumption
    | with_reducible apply Sound.setAs
    | fail_if_no_progress with_reducible apply Sound.keep
    | (intro _ _ _)
    | (intro _ _)
    | split
    | dsimp only

theorem Sound.execLbCodeFilterSet (h : Sound φ κ ρ s) {who : Role} {f : Nat} {v : Val} : ∃ τ, Sys2Proof.Machine.execLbCodeFilterSet who f v s = .next τ ∧ Sound φ κ ρ τ := by
  refine ⟨_, rfl, ?_⟩
  repeat' first
    | with_reducible assumption
    | with_reducible apply Sound.setAs
    | fail_if_no_progress with_reducible apply Sound.keep
    | (intro _ _ _)
    | (intro _ _)
    | split
    | dsimp only

theorem Sound.execLoCfgSet (h : Sound φ κ ρ s) {who : Role} {v : Val} : ∃ τ, Sys2Proof.Machine.execLoCfgSet who v s = .next τ ∧ Sound φ κ ρ τ := by
  refine ⟨_, rfl, ?_⟩
  repeat' first
    | with_reducible assumption
    | with_reducible apply Sound.setAs
    | fail_if_no_progress with_reducible apply Sound.keep
    | (intro _ _ _)
    | (intro _ _)
    | split
    | dsimp only

theorem Sound.execTdmLoopSet (h : Sound φ κ ρ s) {who : Role} {p : Nat} {v : Val} : ∃ τ, Sys2Proof.Machine.execTdmLoopSet who p v s = .next τ ∧ Sound φ κ ρ τ := by
  refine ⟨_, rfl, ?_⟩
  repeat' first
    | with_reducible assumption
    | with_reducible apply Sound.setAs
    | fail_if_no_progress with_reducible apply Sound.keep
    | (intro _ _ _)
    | (intro _ _)
    | split
    | dsimp only

theorem Sound.execPortLoopSet (h : Sound φ κ ρ s) {who : Role} {p : Nat} {v : Val} : ∃ τ, Sys2Proof.Machine.execPortLoopSet who p v s = .next τ ∧ Sound φ κ ρ τ := by
  refine ⟨_, rfl, ?_⟩
  repeat' first
    | with_reducible assumption
    | with_reducible apply Sound.setAs
    | fail_if_no_progress with_reducible apply Sound.keep
    | (intro _ _ _)
    | (intro _ _)
    | split
    | dsimp only

theorem Sound.execHearthLoopSet (h : Sound φ κ ρ s) {who : Role} {v : Val} : ∃ τ, Sys2Proof.Machine.execHearthLoopSet who v s = .next τ ∧ Sound φ κ ρ τ := by
  refine ⟨_, rfl, ?_⟩
  repeat' first
    | with_reducible assumption
    | with_reducible apply Sound.setAs
    | fail_if_no_progress with_reducible apply Sound.keep
    | (intro _ _ _)
    | (intro _ _)
    | split
    | dsimp only

theorem Sound.execDwTestSet (h : Sound φ κ ρ s) {who : Role} {v : Val} : ∃ τ, Sys2Proof.Machine.execDwTestSet who v s = .next τ ∧ Sound φ κ ρ τ := by
  refine ⟨_, rfl, ?_⟩
  repeat' first
    | with_reducible assumption
    | with_reducible apply Sound.setAs
    | fail_if_no_progress with_reducible apply Sound.keep
    | (intro _ _ _)
    | (intro _ _)
    | split
    | dsimp only

theorem Sound.execDdrTestStart (h : Sound φ κ ρ s) {who : Role} {v : Val} : ∃ τ, Sys2Proof.Machine.execDdrTestStart who v s = .next τ ∧ Sound φ κ ρ τ := by
  refine ⟨_, rfl, ?_⟩
  repeat' first
    | with_reducible assumption
    | with_reducible apply Sound.setAs
    | fail_if_no_progress with_reducible apply Sound.keep
    | (intro _ _ _)
    | (intro _ _)
    | split
    | dsimp only

theorem Sound.execDdrTestAbort (h : Sound φ κ ρ s) {who : Role} {v : Val} : ∃ τ, Sys2Proof.Machine.execDdrTestAbort who v s = .next τ ∧ Sound φ κ ρ τ := by
  refine ⟨_, rfl, ?_⟩
  repeat' first
    | with_reducible assumption
    | with_reducible apply Sound.setAs
    | fail_if_no_progress with_reducible apply Sound.keep
    | (intro _ _ _)
    | (intro _ _)
    | split
    | dsimp only

theorem Sound.execHallTestSet (h : Sound φ κ ρ s) {who : Role} {v : Val} : ∃ τ, Sys2Proof.Machine.execHallTestSet who v s = .next τ ∧ Sound φ κ ρ τ := by
  refine ⟨_, rfl, ?_⟩
  repeat' first
    | with_reducible assumption
    | with_reducible apply Sound.setAs
    | fail_if_no_progress with_reducible apply Sound.keep
    | (intro _ _ _)
    | (intro _ _)
    | split
    | dsimp only

theorem Sound.execRegisterWrite (h : Sound φ κ ρ s) {who : Role} {key : Nat} {v : Val} : ∃ τ, Sys2Proof.Machine.execRegisterWrite who key v s = .next τ ∧ Sound φ κ ρ τ := by
  refine ⟨_, rfl, ?_⟩
  repeat' first
    | with_reducible assumption
    | with_reducible apply Sound.setAs
    | with_reducible apply Sound.ite
    | fail_if_no_progress with_reducible apply Sound.keep
    | (intro _ _ _)
    | (intro _ _)
    | split
    | dsimp only

theorem Sound.execVidBoundsSet (h : Sound φ κ ρ s) {who : Role} {ceil : Bool} {v : Val} : ∃ τ, Sys2Proof.Machine.execVidBoundsSet who ceil v s = .next τ ∧ Sound φ κ ρ τ := by
  refine ⟨_, rfl, ?_⟩
  repeat' first
    | with_reducible assumption
    | with_reducible apply Sound.setAs
    | with_reducible apply Sound.ite
    | fail_if_no_progress with_reducible apply Sound.keep
    | (intro _ _ _)
    | (intro _ _)
    | split
    | dsimp only

theorem Sound.execLbFlush (h : Sound φ κ ρ s) {who : Role} {v : Val} {mid : List Nat} {last : List Nat} : ∃ τ, Sys2Proof.Machine.execLbFlush who v mid last s = .next τ ∧ Sound φ κ ρ τ := by
  refine ⟨_, rfl, ?_⟩
  repeat' first
    | with_reducible assumption
    | with_reducible apply Sound.assembles
    | with_reducible apply Sound.setAs
    | fail_if_no_progress with_reducible apply Sound.keep
    | (intro _ _ _)
    | (intro _ _)
    | split
    | dsimp only

theorem Sound.execRcEntryGet (h : Sound φ κ ρ s) {who : Role} {key : Nat} : ∃ τ, Sys2Proof.Machine.execRcEntryGet who key s = .next τ ∧ Sound φ κ ρ τ := by
  refine ⟨_, rfl, ?_⟩
  repeat' first
    | with_reducible assumption
    | with_reducible apply Sound.getAs
    | fail_if_no_progress with_reducible apply Sound.keep
    | (intro _ _ _)
    | (intro _ _)
    | split
    | dsimp only

theorem Sound.execEvtCaptureGet (h : Sound φ κ ρ s) {who : Role} {i : Nat} : ∃ τ, Sys2Proof.Machine.execEvtCaptureGet who i s = .next τ ∧ Sound φ κ ρ τ := by
  refine ⟨_, rfl, ?_⟩
  repeat' first
    | with_reducible assumption
    | with_reducible apply Sound.getAs
    | fail_if_no_progress with_reducible apply Sound.keep
    | (intro _ _ _)
    | (intro _ _)
    | split
    | dsimp only

theorem Sound.execRoomMboxOutGet (h : Sound φ κ ρ s) {who : Role} {r : Nat} : ∃ τ, Sys2Proof.Machine.execRoomMboxOutGet who r s = .next τ ∧ Sound φ κ ρ τ := by
  refine ⟨_, rfl, ?_⟩
  repeat' first
    | with_reducible assumption
    | with_reducible apply Sound.getAs
    | fail_if_no_progress with_reducible apply Sound.keep
    | (intro _ _ _)
    | (intro _ _)
    | split
    | dsimp only

end Sys2Proof.Machine
end

