-- ==== Sys2Proof/Laws/Table.lean ====
section
/-! SUPPORT. What the dictionary's table is like: the fields of every entry lie apart, and what a SET stores in them. -/

namespace Sys2Proof.Machine

/-- Fields in rising order, each below the next; one of width 0 is the only one. -/
def fieldsApart : Nat → List FieldD → Bool
  | _, [] => true
  | lo, f :: r => decide (lo ≤ f.lo) && decide (0 < f.w ∨ r = []) && decide (f.reset < 2 ^ f.w ∨ f.w = 0)
      && fieldsApart (f.lo + f.w) r

theorem table_apart : entTable.all (fun d => fieldsApart 0 d.fields) = true := by decide +kernel

theorem fieldsApart_above {lo : Nat} : {l : List FieldD} → fieldsApart lo l = true → ∀ f ∈ l, lo ≤ f.lo
  | [], _, f, hf => by cases hf
  | x :: r, h, f, hf => by
    simp only [fieldsApart, Bool.and_eq_true, decide_eq_true_eq] at h
    rcases List.mem_cons.mp hf with rfl | hf
    · exact h.1.1.1
    · have := fieldsApart_above h.2 f hf; omega

/-- A word of reset values below a bound has no bit below it. -/
theorem resetFields_dvd {lo : Nat} : {l : List FieldD} → (∀ f ∈ l, lo ≤ f.lo) → 2 ^ lo ∣ resetFields l
  | [], _ => by simp [resetFields]
  | x :: r, h => by
    unfold resetFields
    refine Nat.dvd_add ?_ (resetFields_dvd fun f hf => h f (List.mem_cons_of_mem _ hf))
    exact Dvd.dvd.mul_left (Nat.pow_dvd_pow 2 (h x List.mem_cons_self)) _

/-- Each field of a table's entry reads at reset as the table gives it. -/
theorem field_resetFields {lo : Nat} : {l : List FieldD} → fieldsApart lo l = true → ∀ f ∈ l, 0 < f.w →
    field (resetFields l) f.lo f.w = f.reset
  | [], _, f, hf, _ => by cases hf
  | x :: r, h, f, hf, hw => by
    simp only [fieldsApart, Bool.and_eq_true, decide_eq_true_eq] at h
    obtain ⟨⟨⟨h1, h2⟩, h3⟩, h4⟩ := h
    have habove := fieldsApart_above h4
    have hd := resetFields_dvd habove
    rcases List.mem_cons.mp hf with rfl | hf
    · obtain ⟨q, hq⟩ := hd
      have hx : f.reset < 2 ^ f.w := by omega
      unfold resetFields field
      rw [hq, Nat.pow_add, show f.reset * 2 ^ f.lo + 2 ^ f.lo * 2 ^ f.w * q = (f.reset + 2 ^ f.w * q) * 2 ^ f.lo by ring,
        Nat.mul_div_cancel _ (Nat.two_pow_pos _), Nat.add_mul_mod_self_left, Nat.mod_eq_of_lt hx]
    · have ih := field_resetFields h4 f hf hw
      have hle := habove f hf
      rw [← ih]
      have hw0 : x.w = 0 ∨ x.reset < 2 ^ x.w := by omega
      have hx : x.w ≠ 0 := by
        rcases h2 with h2 | h2
        · omega
        · subst h2; cases hf
      have hlt : x.reset * 2 ^ x.lo < 2 ^ (x.lo + x.w) := by
        rw [Nat.pow_add, Nat.mul_comm]
        exact Nat.mul_lt_mul_of_pos_left (by omega) (Nat.two_pow_pos _)
      obtain ⟨q, hq⟩ := hd
      show field (x.reset * 2 ^ x.lo + resetFields r) _ _ = _
      unfold field
      have e : 2 ^ f.lo = 2 ^ (x.lo + x.w) * 2 ^ (f.lo - (x.lo + x.w)) := by rw [← Nat.pow_add]; congr 1; omega
      rw [e, hq, ← Nat.div_div_eq_div_mul, ← Nat.div_div_eq_div_mul]
      congr 2
      rw [Nat.add_mul_div_left _ _ (Nat.two_pow_pos _), Nat.div_eq_of_lt hlt, Nat.zero_add,
        Nat.mul_div_cancel_left _ (Nat.two_pow_pos _)]

/-- Whether a SET writes a field (R365). -/
def FieldD.sent (f : FieldD) : Bool := f.acc == .rw || f.acc == .wo

theorem stored_cons (x : FieldD) (r : List FieldD) (old n : Nat) :
    stored (x :: r) old n = stored r (if x.sent then setField old x.lo x.w (field n x.lo x.w) else old) n := rfl

theorem field_stored_above {n lo w : Nat} : {l : List FieldD} → {at_ old : Nat} → fieldsApart at_ l = true → lo + w ≤ at_ →
    field (stored l old n) lo w = field old lo w
  | [], _, _, _, _ => rfl
  | x :: r, at_, old, h, hl => by
    simp only [fieldsApart, Bool.and_eq_true, decide_eq_true_eq] at h
    rw [stored_cons, field_stored_above h.2 (by omega)]
    split
    · exact field_setField_ne _ _ _ _ _ _ (by omega)
    · rfl

/-- An accepted SET of an entry: each RW or WO field reads as sent, every other as it stood (R365). -/
theorem field_stored {n : Nat} : {l : List FieldD} → {at_ old : Nat} → fieldsApart at_ l = true → ∀ f ∈ l, 0 < f.w →
    field (stored l old n) f.lo f.w = if f.sent then field n f.lo f.w else field old f.lo f.w
  | [], _, _, _, f, hf, _ => by cases hf
  | x :: r, at_, old, h, f, hf, hw => by
    simp only [fieldsApart, Bool.and_eq_true, decide_eq_true_eq] at h
    rw [stored_cons]
    rcases List.mem_cons.mp hf with rfl | hf
    · rw [field_stored_above h.2 (le_refl _)]
      split
      · rw [field_setField_same, field, Nat.mod_mod]
      · rfl
    · rw [field_stored h.2 f hf hw]
      split
      · rfl
      · have := fieldsApart_above h.2 f hf
        split
        · exact field_setField_ne _ _ _ _ _ _ (by omega)
        · rfl

end Sys2Proof.Machine
end

