-- ==== Sys2Proof/Machine/AsrcLimits.lean ====
section
/-! DEFINITION. The limits that R236 sets to a converter's filter, as a condition on the free taps of Config: what a claim about the
audio of a LOCKED converter may assume. -/

namespace Sys2Proof.Machine

/-- What a filter of weights `tap` makes of a tone of `f` cycles per 2^-16 quarter count, at a ratio, with `p` units between input
samples and the nearest earlier one `o` units before the instant of the output sample: the factor on the tone (R234, R236). -/
def FilterGain (tap : Nat → Int → Int) (ratio p o : Nat) (f : ℝ) (g : ℂ) : Prop :=
  let tone (d : Int) : ℂ := Complex.exp (-2 * Real.pi * f * d * Complex.I)
  g = tone o + ∑ j ∈ Finset.Icc (-536 : Int) 536, ((tap ratio (o + j * p) : ℂ) / 2147483648) * (tone (o + j * p) - tone o)

/-- R236's figures at a ratio in units of 2^-28 within 1/8 to 8, `p` units an input period: with `low` the lower of the side rates, tones up to
0.45 × `low` pass within ±0.005 dB, those from 0.55 × `low` on are attenuated by 130 dB, and what varies of the gain from one output
sample to the next at 997 Hz lies 130 dB below it. -/
def FilterMeets (tap : Nat → Int → Int) (ratio p : Nat) : Prop :=
  let low : ℝ := min (1 / p) (2 ^ 28 / (ratio * p))
  ∀ o : Nat, o < p → ∀ f : ℝ, 0 ≤ f → 2 * f * p ≤ 1 → ∀ g : ℂ, FilterGain tap ratio p o f g →
    (f ≤ 0.45 * low → (10 : ℝ) ^ (-0.005 / 20 : ℝ) ≤ ‖g‖ ∧ ‖g‖ ≤ (10 : ℝ) ^ (0.005 / 20 : ℝ))
      ∧ (0.55 * low ≤ f → ‖g‖ ≤ (10 : ℝ) ^ (-130 / 20 : ℝ))
      ∧ (f = 997 / 131072000000000 → ∀ o' : Nat, o' < p → ∀ g' : ℂ, FilterGain tap ratio p o' f g' →
          ‖g - g'‖ ≤ (10 : ℝ) ^ (-130 / 20 : ℝ) * ‖g‖)

/-- The taps of Config meet R236 at every ratio it allows and every input rate of the device. -/
def AsrcFilterMeets : Prop :=
  ∀ ratio p : Nat, 2 ^ 25 ≤ ratio → ratio ≤ 2 ^ 31 → 65536 * 2000000000 / 192000 ≤ p → p ≤ 65536 * 2000000000 / 44100 →
    FilterMeets Config.asrcTap ratio p

end Sys2Proof.Machine
end

