-- ==== Sys2Proof/Tests/Slice0.lean ====
section
/-! SUPPORT. The model's own tests. The theorems `meets_<statement>_<k>` show that the hypotheses of a statement, clause by clause, are met
together by a concrete state and concrete operands; the theorems `wf_<k>` that a check of WellFormed refuses an ill-formed term;
the theorems `test_<what>` that one step gives what the spec's words say. -/

namespace Sys2Proof.Tests

open Sys2Proof Sys2Proof.Machine

set_option Elab.async false

/-- A device that serves requests: CHIP_READY 1, CLOCK_STATE LOCKED. -/
def ready : State := (State.reset.wr Reg.deviceStatusChipReady 1).wr Reg.deviceStatusClockState 2

/-- The same with some fields written. -/
def up (l : List (Fld × Nat)) : State := l.foldl (fun s x => s.wr x.1 x.2) ready

/-- A device that serves a request of session 16. -/
def serving16 : State := { ready with kdp := { net := [(16, some { id := 0x80000010, port := 2, ip := 1, udp := 5 })], serving := some 16 } }

/-- A device whose guest room 0 is vacant. -/
def vacant0 : State := { ready with guard := { slots := [(0, { core := none, state := 0 })] } }

/-- An image whose generation is the last before it wraps, but for its checksum. -/
def lastBody : Image := { gen := 2 ^ 32 - 1, rev := 1, fuse := {} }

/-- It, with the checksum of its bytes (R395). -/
def lastImage : Image := { lastBody with crc := lastBody.sum }

/-- A device with that image in slot 1. -/
def saved : State := { ready with flash := { slot1 := some lastImage } }

theorem saved_newest : saved.flash.newest = some (1, lastImage) := by
  have h : lastImage.crc = lastImage.sum := rfl
  have v : lastImage.valid = true := by rw [Image.valid, h, beq_self_eq_true, Bool.and_true]; rfl
  simp only [Flash.newest, saved, Option.filter_some, v, if_true]
  rfl

/-- An AUTH of key slot 7 with the MAC of a session key. -/
def authMsg (sk : List Byte) : KdpMsg :=
  { version := 0x10, ty := 2, flags := 4, session := 5, seq := 1, body := [7, 0, 0, 0], head := [], mac := kdpMac sk 0 [] [7, 0, 0, 0] }

theorem authMsg_mac (sk : List Byte) : (authMsg sk).mac = kdpMac sk 0 (authMsg sk).head (authMsg sk).body := by
  simp only [authMsg]

/-- A value of a number's type, in `w` bytes. -/
def val (ty : Ty) (w n : Nat) : Val := ⟨ty, natBe w n⟩

/-- With no view scheduled, no schedule is due. -/
theorem quiet_of {s : State} (h : s.time.views = []) : s.catchUp = s :=
  s.catchUp_none fun v _ => by simp [State.view, h, Sparse.get]

/-- An accepted SET, from what evaluation shows. -/
theorem acc {s : State} {who : Role} {key : Nat} {v : Val} {e : Ent} {a b n : Nat} (h : s.time.views = [])
    (hk : (s.on Reg.deviceStatusChipReady && decide (s.named key v = some (e, a, b, n))
      && decide (s.judge who (itemOf key v) = .ok)) = true) : s.Accepts who key v e a b n := by
  simp only [Bool.and_eq_true, decide_eq_true_eq] at hk
  exact ⟨hk.1.1, quiet_of h, hk.1.2, hk.2⟩

/-- A served GET of an entry whose descriptor has a property, from what evaluation shows. -/
theorem reads {s : State} {who : Role} {key a b : Nat} (p : EntDesc → Bool) (h : s.time.views = [])
    (hr : s.on Reg.deviceStatusChipReady = true)
    (hk : (s.entryAt key).any (fun x => decide (x.2 = (a, b)) && holds who x.1.rd && p x.1) = true) :
    ∃ d, s.Reads who key d a b ∧ p d = true := by
  cases hx : s.entryAt key with
  | none => simp [hx] at hk
  | some x =>
    obtain ⟨d, x, y⟩ := x
    simp only [hx, Option.any_some, Bool.and_eq_true, decide_eq_true_eq, Prod.mk.injEq] at hk
    obtain ⟨⟨⟨rfl, rfl⟩, hd⟩, hp⟩ := hk
    exact ⟨d, ⟨hr, quiet_of h, hx, hd⟩, hp⟩

/-- A UDP send of 8000 bytes in six frames (R142). -/
def udpSend : List Byte :=
  List.replicate 12 0 ++ [8, 0, 0x45, 0, 0, 0, 0x12, 0x34, 0, 0, 64, 17] ++ List.replicate 10 0 ++ List.replicate 8008 0

/-- A TCP send of 250 bytes. -/
def tcpSend : List Byte :=
  List.replicate 12 0 ++ [8, 0, 0x45, 0, 0, 0, 0, 1, 0, 0, 64, 6] ++ List.replicate 22 0 ++ [0x50, 0x10] ++ List.replicate 6 0 ++ List.replicate 250 0

theorem meets_StepRunsFrontCommand_1 :
    ∀ rest, step { ready with pending := .vidIdleLower :: rest } = exec .vidIdleLower { ready with pending := rest } :=
  fun _ => rfl

theorem meets_EmptyQueueIdles_1 :
    State.reset.pending = [] ∧ State.reset.host.request = none ∧ State.reset.locked = false :=
  by decide +kernel

theorem meets_EmptyQueueIdles_2 :
    ready.pending = [] ∧ ready.host.request = none ∧ ready.locked = true ∧ ∀ v < 4, (ready.view v).sched = none :=
  by decide +kernel

theorem meets_StepKeepsSound_1 :
    State.reset.inv = true ∧ step State.reset = .next State.reset :=
  ⟨by decide +kernel, rfl⟩

theorem meets_CommandsCompleteAndRcRises_1 :
    ready.inv = true ∧ (Instr.vidIdleLower ≠ .resetAssert ∧ Instr.vidIdleLower ≠ .pllLock) :=
  by decide +kernel

theorem meets_ResetReadsTheTables_1 :
    (locate (Reg.toneFreqFreq 15).key).any (fun x => decide (x.1.keyOf 15 0 = (Reg.toneFreqFreq 15).key ∧ x.2 = (15, 0) ∧ x.1.ent
      = .toneFreq ∧ x.1 ∈ entTable) && x.1.fields.any (fun f => 0 < f.w)) = true ∧ ∀ base, resetRule {} .toneFreq 15 0 base = base :=
  ⟨by decide +kernel, fun _ => rfl⟩

theorem meets_SettingsAreStored_1 :
    ready.Accepts .host (Reg.sinkSourceSource 262655).key (val .u32 4 0) .sinkSource 262655 0 0 :=
  acc rfl (by decide +kernel)

theorem meets_SettingsAreStored_2 :
    ready.Accepts .host (Reg.toneFreqFreq 15).key (val .u32 4 16777215) .toneFreq 15 0 16777215 :=
  acc rfl (by decide +kernel)

theorem meets_SettingsAreStored_3 :
    ready.Accepts .host Reg.cellarPartJb.key (val .u32 4 4210896) .cellarPart 0 0 4210896 :=
  acc rfl (by decide +kernel)

theorem meets_SettingsAreStored_4 :
    ready.Accepts .host (Reg.dlyTimeDelay 1023).key (val .u32 4 1) .dlyTime 1023 0 1 :=
  acc rfl (by decide +kernel)

theorem meets_SettingsAreStored_5 :
    ready.Accepts .host (Reg.lbCodeFilterCode 15).key (val .u32 4 1048575) .lbCodeFilter 15 0 1048575 :=
  acc rfl (by decide +kernel)

theorem meets_SettingsAreStored_6 :
    ready.Accepts .host (Reg.tdmLoopMode 47).key (val .u8 1 3) .tdmLoop 47 0 3 :=
  acc rfl (by decide +kernel)

theorem meets_SettingsAreStored_7 :
    ready.Accepts .host (Reg.portLoopMode 0).key (val .u8 1 4) .portLoop 0 0 4 :=
  acc rfl (by decide +kernel)

theorem meets_SettingsAreStored_8 :
    ready.Accepts .host (Reg.toneLevelLevel 15).key (val .gain24 3 1048576) .toneLevel 15 0 1048576 ∧ ownRow .toneLevel = false ∧
      Ent.toneLevel ∉ [Ent.ptpLocalQuality, .trigOutCfg, .dpllCfg, .holdoverCfg, .wclkOutCfg, .ppsOutCfg, .mCfg, .frameCfg,
      .txqPfcClass, .rxTiming, .slackTarget] :=
  ⟨acc rfl (by decide +kernel), by decide +kernel⟩

theorem meets_ActingWrites_1 :
    ready.Accepts .host Reg.hearthLoopLoop0.key (val .u8 1 3) .hearthLoop 0 0 3 :=
  acc rfl (by decide +kernel)

theorem meets_ActingWrites_2 :
    ready.Accepts .host (Reg.ptpLocalQualityClass 1).key (val .u64 8 576501572987330944) .ptpLocalQuality 1 0 576501572987330944 :=
  acc rfl (by decide +kernel)

theorem meets_ActingWrites_3 :
    ready.Accepts .host (Reg.trigOutCfgMode 3).key (val .u32 4 4294967040) .trigOutCfg 3 0 4294967040 ∧ (ready.takes
      (Reg.trigOutCfgMode 3).key 4294967040).rd (Reg.trigOutCfgMode 3) = 0 :=
  ⟨acc rfl (by decide +kernel), by decide +kernel⟩

theorem meets_ActingWrites_4 :
    ready.Accepts .host (Reg.trigOutCfgMode 3).key (val .u32 4 4294967041) .trigOutCfg 3 0 4294967041 ∧ (ready.takes
      (Reg.trigOutCfgMode 3).key 4294967041).rd (Reg.trigOutCfgMode 3) = 1 :=
  ⟨acc rfl (by decide +kernel), by decide +kernel⟩

theorem meets_ActingWrites_5 :
    ready.Accepts .host (Reg.trigOutCfgMode 3).key (val .u32 4 4294967042) .trigOutCfg 3 0 4294967042 ∧ (ready.takes
      (Reg.trigOutCfgMode 3).key 4294967042).rd (Reg.trigOutCfgMode 3) = 2 :=
  ⟨acc rfl (by decide +kernel), by decide +kernel⟩

theorem meets_ActingWrites_6 :
    ready.Accepts .host (Reg.trigOutCfgMode 3).key (val .u32 4 4294967043) .trigOutCfg 3 0 4294967043 ∧ (ready.takes
      (Reg.trigOutCfgMode 3).key 4294967043).rd (Reg.trigOutCfgMode 3) = 3 :=
  ⟨acc rfl (by decide +kernel), by decide +kernel⟩

theorem meets_ActingWrites_7 :
    ready.Accepts .host Reg.dpllCfgTrackBw.key (val .u32 4 8192010) .dpllCfg 0 0 8192010 :=
  acc rfl (by decide +kernel)

theorem meets_ActingWrites_8 :
    ready.Accepts .host Reg.holdoverCfgHistLen.key (val .u64 8 362387865610) .holdoverCfg 0 0 362387865610 ∧ (ready.takes
      Reg.holdoverCfgHistLen.key 362387865610).histSpan = [] :=
  ⟨acc rfl (by decide +kernel), by decide +kernel⟩

theorem meets_ActingWrites_9 :
    ready.Accepts .host (Reg.wclkOutCfgMode 1).key (val .u16 2 14) .wclkOutCfg 1 0 14 ∧ ready.get (Reg.wclkOutCfgMode 1).key ≠ 14 :=
  ⟨acc rfl (by decide +kernel), by decide +kernel⟩

theorem meets_ActingWrites_10 :
    ready.Accepts .host Reg.ppsOutCfgEnable.key (val .u32 4 1000000006) .ppsOutCfg 0 0 1000000006 ∧ (ready.takes
      Reg.ppsOutCfgEnable.key 1000000006).on Reg.ppsOutCfgEnable = false :=
  ⟨acc rfl (by decide +kernel), by decide +kernel⟩

theorem meets_ActingWrites_11 :
    ready.Accepts .host Reg.mCfgEnable.key (val .u16 2 26) .mCfg 0 0 26 ∧ (ready.takes Reg.mCfgEnable.key 26).portEnabled 2 =
      false ∧ bit (ready.get Reg.mCfgEnable.key) 0 = true :=
  ⟨acc rfl (by decide +kernel), by decide +kernel⟩

theorem meets_ActingWrites_12 :
    ready.Accepts .host Reg.mCfgEnable.key (val .u16 2 25) .mCfg 0 0 25 ∧ (ready.takes Reg.mCfgEnable.key 25).portRuns 2 = true ∧
      (ready.takes Reg.mCfgEnable.key 25).rd (Reg.portLoopMode 2) = 0 ∧ (ready.takes Reg.mCfgEnable.key 25).on Reg.mCfgInBand =
      false :=
  ⟨acc rfl (by decide +kernel), by decide +kernel⟩

theorem meets_ActingWrites_13 :
    ready.Accepts .host (Reg.frameCfgVlanAware 2).key (val .u32 4 99549185) .frameCfg 2 0 99549185 ∧ ready.get
      (Reg.frameCfgVlanAware 2).key ≠ 99549185 :=
  ⟨acc rfl (by decide +kernel), by decide +kernel⟩

theorem meets_ActingWrites_14 :
    ready.Accepts .host (Reg.txqPfcClassClass 1 7).key (val .u8 1 0) .txqPfcClass 1 7 0 :=
  acc rfl (by decide +kernel)

theorem meets_ActingWrites_15 :
    ready.Accepts .host (Reg.rxTimingP 255).key (val .u32 4 6144) .rxTiming 255 0 6144 ∧ (ready.takes (Reg.rxTimingP 255).key
      6144).rxState 255 = 0 :=
  ⟨acc rfl (by decide +kernel), by decide +kernel⟩

theorem meets_ActingWrites_16 :
    (up [(Reg.rxStatusState 255, 1)]).Accepts .host (Reg.rxTimingP 255).key (val .u32 4 1) .rxTiming 255 0 1 ∧ ((up
      [(Reg.rxStatusState 255, 1)]).takes (Reg.rxTimingP 255).key 1).rxState 255 = 1 ∧ field ((up [(Reg.rxStatusState 255,
      1)]).get (Reg.rxTimingP 255).key) 0 13 ≠ field 1 0 13 :=
  ⟨acc rfl (by decide +kernel), by decide +kernel⟩

theorem meets_ActingWrites_17 :
    (up [(Reg.rxStatusState 255, 6)]).Accepts .host (Reg.rxTimingP 255).key (val .u32 4 1) .rxTiming 255 0 1 ∧ ((up
      [(Reg.rxStatusState 255, 6)]).takes (Reg.rxTimingP 255).key 1).rxState 255 = 6 ∧ field ((up [(Reg.rxStatusState 255,
      6)]).get (Reg.rxTimingP 255).key) 0 13 ≠ field 1 0 13 :=
  ⟨acc rfl (by decide +kernel), by decide +kernel⟩

theorem meets_ActingWrites_18 :
    ready.Accepts .host Reg.slackTargetSlackLo.key (val .u32 4 1003570) .slackTarget 0 0 1003570 ∧ (ready.takes
      Reg.slackTargetSlackLo.key 1003570).on Reg.vidStatusSettling = false :=
  ⟨acc rfl (by decide +kernel), by decide +kernel⟩

theorem meets_ActingWrites_19 :
    (up [(Reg.vidStatusSettling, 1)]).Accepts .host Reg.slackTargetSlackLo.key (val .u32 4 86017) .slackTarget 0 0 86017 ∧ (up
      [(Reg.vidStatusSettling, 1)]).get Reg.slackTargetSlackLo.key ≠ 86017 ∧ ((up [(Reg.vidStatusSettling, 1)]).takes
      Reg.slackTargetSlackLo.key 86017).on Reg.vidStatusSettling = true ∧ (up [(Reg.vidStatusSettling, 1)]).volt.kept = none :=
  ⟨acc rfl (by decide +kernel), by decide +kernel⟩

theorem meets_StoredFieldsReadAsSent_1 :
    (locate (Reg.toneFreqFreq 15).key).any (fun x => decide (x.2 = (15, 0)) && x.1.fields.any (fun f => decide (0 < f.w ∧ f.acc =
      .rw)) && x.1.fields.any (fun f => decide (0 < f.w ∧ f.acc = .rsv))) = true :=
  by decide +kernel

theorem meets_RefusedSetChangesNothing_1 :
    SetRows ready .host 15 0 (val .u8 1 0) ⟨.toneFreqSet .host 15 (val .u8 1 0), .toneFreq, (Reg.toneFreqFreq 15).key, fun _ =>
      true⟩ ∧ ready.on Reg.deviceStatusChipReady = true ∧ ready.catchUp = ready ∧ ready.named (Reg.toneFreqFreq 15).key (val .u8 1
      0) = some (.toneFreq, 15, 0, 0) ∧ ready.judge .host (itemOf (Reg.toneFreqFreq 15).key (val .u8 1 0)) = .badType :=
  ⟨.inl (by simp [SetRows0]), by decide +kernel, quiet_of rfl, by decide +kernel, by decide +kernel⟩

theorem meets_RefusedSetChangesNothing_2 :
    SetRows ready .host 0 0 (val .u8 1 0) ⟨.registerWrite .host (Reg.toneLevelLevel 15).key (val .u8 1 0), .toneLevel,
      (Reg.toneLevelLevel 15).key, fun _ => true⟩ ∧ ready.on Reg.deviceStatusChipReady = true ∧ ready.catchUp = ready ∧
      ready.named (Reg.toneLevelLevel 15).key (val .u8 1 0) = some (.toneLevel, 15, 0, 0) ∧ ready.judge .host (itemOf
      (Reg.toneLevelLevel 15).key (val .u8 1 0)) = .badType :=
  ⟨.inr (.inr (.inr (.inl ⟨_, _, rfl, rfl⟩))), by decide +kernel, quiet_of rfl, by decide +kernel, by decide +kernel⟩

theorem meets_RefusedSetChangesNothing_3 :
    ready.on Reg.deviceStatusChipReady = true ∧ ready.catchUp = ready ∧ ready.lb.begun = none ∧ ready.named Reg.lbCmdCmd.key (val
      .u16 2 1) = some (.lbCmd, 0, 0, 1) ∧ ready.judge .observer (itemOf Reg.lbCmdCmd.key (val .u16 2 1)) ≠ .ok :=
  ⟨by decide +kernel, quiet_of rfl, rfl, by decide +kernel, by decide +kernel⟩

theorem meets_RefusedSetChangesNothing_4 :
    ∃ s : State, s.on Reg.deviceStatusChipReady = true ∧ s.catchUp = s ∧ s.entryAt (Reg.roomMboxInWord 17).key = none ∧ SetRows s
      .host 17 0 (val .u32 4 1) ⟨.roomMboxInSet .host 17 (val .u32 4 1), .roomMboxIn, (Reg.roomMboxInWord 17).key, fun _ => true⟩
      ∧ (locate (Reg.roomMboxInWord 17).key).any (fun x => x.1.ent == .roomMboxIn) = true :=
  ⟨{ ready with fuse := { grade := .q } }, by decide +kernel, quiet_of rfl, by decide +kernel, .inr (.inl (by simp [SetRows1])), by decide +kernel⟩

theorem meets_RefusedSetChangesNothing_5 :
    ready.on Reg.deviceStatusChipReady = true ∧ ready.catchUp = ready ∧ ready.entryAt 0xF0000001 = none ∧ locate 0xF0000001 = none :=
  ⟨by decide +kernel, quiet_of rfl, by decide +kernel, by decide +kernel⟩

theorem meets_GetsAnswerAndClear_1 :
    ∃ d, ready.Reads .observer (Reg.dlMiss 3).key d 3 0 ∧ (d.ent != .evtCapture && d.ent != .roomMboxOut && d.fields.any (fun f =>
      f.acc == .rc) && d.clr != 0 && !holds .observer d.clr) = true :=
  reads _ rfl (by decide +kernel) (by decide +kernel)

theorem meets_GetsAnswerAndClear_2 :
    ∃ d, ready.Reads .host (Reg.dlMiss 3).key d 3 0 ∧ (d.ent != .evtCapture && d.ent != .roomMboxOut && d.fields.any (fun f =>
      f.acc == .rc) && holds .host d.clr) = true :=
  reads _ rfl (by decide +kernel) (by decide +kernel)

theorem meets_GetsAnswerAndClear_3 :
    ∃ d, ready.Reads .host (Reg.evtCaptureT 3).key d 3 0 ∧ (d.ent == .evtCapture) = true :=
  reads _ rfl (by decide +kernel) (by decide +kernel)

theorem meets_GetsAnswerAndClear_4 :
    ∃ d, ready.Reads .host (Reg.roomMboxOutWord 17).key d 17 0 ∧ (d.ent == .roomMboxOut) = true :=
  reads _ rfl (by decide +kernel) (by decide +kernel)

theorem meets_FirstStatusOfTheOrder_1 :
    ready.judge .host (itemOf 0xF0000001 (val .u8 1 0)) = .absent :=
  by decide +kernel

theorem meets_FirstStatusOfTheOrder_2 :
    ready.judge .observer (itemOf (Reg.toneFreqFreq 15).key (val .u8 1 0)) = .denied ∧ (ready.entryAt (Reg.toneFreqFreq
      15).key).isSome = true :=
  by decide +kernel

theorem meets_FirstStatusOfTheOrder_3 :
    ready.judge .host (itemOf (Reg.toneFreqFreq 15).key (val .u8 1 0)) = .badType ∧ (ready.entryAt (Reg.toneFreqFreq
      15).key).isSome = true :=
  by decide +kernel

theorem meets_FirstStatusOfTheOrder_4 :
    ready.judge .host (itemOf (Reg.toneFreqFreq 15).key (val .u32 4 0)) = .outOfRange ∧ (ready.entryAt (Reg.toneFreqFreq
      15).key).isSome = true :=
  by decide +kernel

theorem meets_FirstStatusOfTheOrder_5 :
    ready.judge .host (itemOf (Reg.sessionCloseCmd 0).key (val .u8 1 1)) = .conflict ∧ (ready.entryAt (Reg.sessionCloseCmd
      0).key).isSome = true :=
  by decide +kernel

theorem meets_FirstStatusOfTheOrder_6 :
    ready.judge .host (itemOf (Reg.toneFreqFreq 15).key (val .u32 4 1)) = .ok ∧ (ready.entryAt (Reg.toneFreqFreq 15).key).isSome =
      true :=
  by decide +kernel

theorem meets_FirstStatusOfTheOrder_7 :
    (State.reset.wr Reg.deviceStatusChipReady 1).judge .host (itemOf (Reg.toneFreqFreq 15).key (val .u32 4 1)) = .busy ∧
      (State.reset.wr Reg.deviceStatusChipReady 1).gated (Reg.toneFreqFreq 15).key = true :=
  by decide +kernel

theorem meets_TickEdgeBeginsTick_1 :
    ready.running 3 = false :=
  by decide +kernel

theorem meets_TickEdgeBeginsTick_2 :
    ∃ s a : State, s.running 3 = true ∧ a = s.gather.advance (s.edgeAt 3 (s.tick 3).next / 4) ∧ 4 * a.rc + 3 < a.edgeAt 3 (a.tick
      3).next :=
  ⟨{ State.reset.wr (Reg.domainRunRunning 3) 1 with path := { ticks := [(3, { next := 5 })] } }, _, by decide +kernel, rfl, by decide +kernel⟩

theorem meets_TickEdgeBeginsTick_3 :
    ∃ s a : State, s.running 3 = true ∧ a = s.gather.advance (s.edgeAt 3 (s.tick 3).next / 4) ∧ a.edgeAt 3 (a.tick 3).next ≤ 4 *
      a.rc + 3 ∧ (a.tick 3).open_ = false :=
  ⟨({ (up [(Reg.domainRunRunning 3, 1)]) with path := { ticks := [(3, { open_ := false, next := 7 })] } } : State), _, by decide +kernel, rfl, by decide +kernel⟩

theorem meets_TickEdgeBeginsTick_4 :
    ∃ s a : State, s.running 3 = true ∧ a = s.gather.advance (s.edgeAt 3 (s.tick 3).next / 4) ∧ a.edgeAt 3 (a.tick 3).next ≤ 4 *
      a.rc + 3 ∧ (a.tick 3).open_ = true :=
  ⟨({ (up [(Reg.domainRunRunning 3, 1)]) with path := { ticks := [(3, { open_ := true, next := 7 })] } } : State), _, by decide +kernel, rfl, by decide +kernel⟩

theorem meets_TickEdgeBeginsTick_5 :
    ready.lineOf 0x4000 = none ∧ ready.lineOf 0 = none :=
  by decide +kernel

theorem meets_TickDeadlineCloses_1 :
    ∃ s a : State, s.running 3 = true ∧ a = s.gather.advance ((s.edgeAt 3 (s.tick 3).next - 2000) / 4) ∧ 4 * a.rc + 3 < a.edgeAt 3
      (a.tick 3).next - 2000 :=
  ⟨{ State.reset.wr (Reg.domainRunRunning 3) 1 with path := { ticks := [(3, { open_ := true, next := 5 })] } }, _, by decide +kernel, rfl, by decide +kernel⟩

theorem meets_TickDeadlineCloses_2 :
    ∃ s a : State, s.running 3 = true ∧ a = s.gather.advance ((s.edgeAt 3 (s.tick 3).next - 2000) / 4) ∧ a.edgeAt 3 (a.tick
      3).next - 2000 ≤ 4 * a.rc + 3 ∧ (a.tick 3).open_ = false :=
  ⟨({ (up [(Reg.domainRunRunning 3, 1)]) with path := { ticks := [(3, { launched := true, next := 7 })] } } : State), _, by decide +kernel, rfl, by decide +kernel⟩

theorem meets_TickDeadlineCloses_3 :
    ∃ s a : State, s.running 3 = true ∧ a = s.gather.advance ((s.edgeAt 3 (s.tick 3).next - 2000) / 4) ∧ a.edgeAt 3 (a.tick
      3).next - 2000 ≤ 4 * a.rc + 3 ∧ (a.tick 3).launched = true :=
  ⟨({ (up [(Reg.domainRunRunning 3, 1)]) with path := { ticks := [(3, { open_ := true, launched := true, next := 7 })] } } : State), _, by decide +kernel, rfl, by decide +kernel⟩

theorem meets_TickDeadlineCloses_4 :
    ∃ s a : State, s.running 3 = true ∧ a = s.gather.advance ((s.edgeAt 3 (s.tick 3).next - 2000) / 4) ∧ a.edgeAt 3 (a.tick
      3).next - 2000 ≤ 4 * a.rc + 3 ∧ (a.tick 3).open_ = true ∧ (a.tick 3).launched = false ∧ (a.tick 3).late = false :=
  ⟨({ (up [(Reg.domainRunRunning 3, 1)]) with path := { ticks := [(3, { open_ := true, next := 7 })] } } : State), _, by decide +kernel, rfl, by decide +kernel⟩

theorem meets_TickDeadlineCloses_5 :
    ∃ s a : State, s.running 3 = true ∧ a = s.gather.advance ((s.edgeAt 3 (s.tick 3).next - 2000) / 4) ∧ a.edgeAt 3 (a.tick
      3).next - 2000 ≤ 4 * a.rc + 3 ∧ (a.tick 3).open_ = true ∧ (a.tick 3).launched = false ∧ (a.tick 3).late = true :=
  ⟨({ (up [(Reg.domainRunRunning 3, 1)]) with path := { ticks := [(3, { open_ := true, late := true, next := 7 })] } } : State), _, by decide +kernel, rfl, by decide +kernel⟩

theorem meets_MissesAreCountedAndReported_1 :
    ∃ s : State, (s.dlHold 3 3).active = true ∧ (s.rd (Reg.tickCount 3) : Int) = (s.dlHold 3 3).since + s.rd (Reg.dlHoldoff 3) :=
  ⟨({ (up [(Reg.tickCount 3, 9), (Reg.dlHoldoff 3, 4)]) with path := { holds := [(15, { active := true, since := 5 })] } } : State), by decide +kernel⟩

theorem meets_MissesAreCountedAndReported_2 :
    ∃ s : State, (s.dlHold 3 3).active = true ∧ (s.dlHold 3 3).since + s.rd (Reg.dlHoldoff 3) < (s.rd (Reg.tickCount 3) : Int) ∧
      (s.dlHold 3 3).count ≠ 0 :=
  ⟨({ (up [(Reg.tickCount 3, 10), (Reg.dlHoldoff 3, 4)]) with path := { holds := [(15, { active := true, count := 1, since := 5 })] } } : State), by decide +kernel⟩

theorem meets_MissesAreCountedAndReported_3 :
    ∃ s : State, (s.dlHold 3 3).active = true ∧ (s.dlHold 3 3).since + s.rd (Reg.dlHoldoff 3) < (s.rd (Reg.tickCount 3) : Int) ∧
      (s.dlHold 3 3).count = 0 :=
  ⟨({ (up [(Reg.tickCount 3, 10), (Reg.dlHoldoff 3, 4)]) with path := { holds := [(15, { active := true, since := 5 })] } } : State), by decide +kernel⟩

theorem meets_MissesAreCountedAndReported_4 :
    (ready.dlHold 3 3).active = false ∧ (ready.dlHold 3 3).count = 0 :=
  by decide +kernel

theorem meets_ToneAndDomainSets_1 :
    ready.Accepts .host (Reg.toneCtrlMode 15).key (val .u8 1 4) .toneCtrl 15 0 4 ∧ field (ready.get (Reg.toneCtrlMode 15).key) 2 1
      = 0 ∧ (ready.takes (Reg.toneCtrlMode 15).key 4).rd (Reg.toneCtrlDomainValid 15) = 1 :=
  ⟨acc rfl (by decide +kernel), by decide +kernel⟩

theorem meets_ToneAndDomainSets_2 :
    ready.Accepts .host (Reg.toneCtrlMode 15).key (val .u8 1 1) .toneCtrl 15 0 1 ∧ field (ready.get (Reg.toneCtrlMode 15).key) 0 2
      ≠ 1 ∧ (ready.takes (Reg.toneCtrlMode 15).key 1).rd (Reg.toneCtrlMode 15) = 1 :=
  ⟨acc rfl (by decide +kernel), by decide +kernel⟩

theorem meets_ToneAndDomainSets_3 :
    ready.Accepts .host (Reg.toneCtrlMode 15).key (val .u8 1 8) .toneCtrl 15 0 8 ∧ field (ready.get (Reg.toneCtrlMode 15).key) 3 2
      ≠ (ready.takes (Reg.toneCtrlMode 15).key 8).rd (Reg.toneCtrlDomain 15) :=
  ⟨acc rfl (by decide +kernel), by decide +kernel⟩

theorem meets_ToneAndDomainSets_4 :
    ready.Accepts .host (Reg.toneCtrlMode 15).key (val .u8 1 3) .toneCtrl 15 0 3 ∧ ¬((field (ready.get (Reg.toneCtrlMode 15).key)
      2 1 = 0 ∧ (ready.takes (Reg.toneCtrlMode 15).key 3).rd (Reg.toneCtrlDomainValid 15) = 1) ∨ field (ready.get
      (Reg.toneCtrlMode 15).key) 3 2 ≠ (ready.takes (Reg.toneCtrlMode 15).key 3).rd (Reg.toneCtrlDomain 15) ∨ (field (ready.get
      (Reg.toneCtrlMode 15).key) 0 2 ≠ 1 ∧ (ready.takes (Reg.toneCtrlMode 15).key 3).rd (Reg.toneCtrlMode 15) = 1)) :=
  ⟨acc rfl (by decide +kernel), by decide +kernel⟩

theorem meets_ToneAndDomainSets_5 :
    ready.Accepts .host (Reg.mdCtrlEnable 3).key (val .u8 1 3) .mdCtrl 3 0 3 ∧ bit (ready.get (Reg.mdCtrlEnable 3).key) 0 = false
      ∧ (ready.takes (Reg.mdCtrlEnable 3).key 3).on (Reg.mdCtrlEnable 3) = true :=
  ⟨acc rfl (by decide +kernel), by decide +kernel⟩

theorem meets_ToneAndDomainSets_6 :
    (up [(Reg.mdCtrlEnable 3, 1)]).Accepts .host (Reg.mdCtrlEnable 3).key (val .u8 1 2) .mdCtrl 3 0 2 ∧ bit ((up
      [(Reg.mdCtrlEnable 3, 1)]).get (Reg.mdCtrlEnable 3).key) 0 = true ∧ ((up [(Reg.mdCtrlEnable 3, 1)]).takes (Reg.mdCtrlEnable
      3).key 2).on (Reg.mdCtrlEnable 3) = false ∧ ((up [(Reg.mdCtrlEnable 3, 1)]).tick 3).open_ = false :=
  ⟨acc rfl (by decide +kernel), by decide +kernel⟩

theorem meets_ToneAndDomainSets_7 :
    ready.Accepts .host (Reg.mdCtrlEnable 3).key (val .u8 1 0) .mdCtrl 3 0 0 ∧ bit (ready.get (Reg.mdCtrlEnable 3).key) 0 =
      (ready.takes (Reg.mdCtrlEnable 3).key 0).on (Reg.mdCtrlEnable 3) :=
  ⟨acc rfl (by decide +kernel), by decide +kernel⟩

theorem meets_VidMovesAtMostFour_1 :
    ∃ s : State, s.volt.frozen = true :=
  ⟨({ ready with volt := { frozen := true } } : State), rfl⟩

theorem meets_VidMovesAtMostFour_2 :
    ready.volt.frozen = false ∧ ready.volt.pgHold = false ∧ ready.on Reg.vidStatusSettling = false ∧ ready.vidGoal = ready.rd
      Reg.vidStatusCodeNow :=
  by decide +kernel

theorem meets_VidMovesAtMostFour_3 :
    ∃ s : State, s.volt.frozen = false ∧ s.volt.pgHold = false ∧ s.on Reg.vidStatusSettling = false ∧ s.vidGoal ≠ s.rd
      Reg.vidStatusCodeNow :=
  ⟨(up [(Reg.vidFixedCode, 63)]), by decide +kernel⟩

theorem meets_SupplyEvents_1 :
    ∃ s : State, s.on Reg.vidStatusSettling = true ∧ s.volt.kept = none ∧ s.volt.pgHigh = false :=
  ⟨({ (up [(Reg.vidStatusSettling, 1)]) with volt := { pgHigh := false } } : State), by decide +kernel⟩

theorem meets_SupplyEvents_2 :
    ∃ s : State, s.on Reg.vidStatusSettling = true ∧ s.volt.kept = none ∧ s.volt.frozen = true :=
  ⟨({ (up [(Reg.vidStatusSettling, 1)]) with volt := { frozen := true, pgHigh := true } } : State), by decide +kernel⟩

theorem meets_SupplyEvents_3 :
    ∃ s : State, s.on Reg.vidStatusSettling = true ∧ s.volt.kept = none ∧ s.volt.pgHigh = true ∧ s.volt.frozen = false ∧ s.vidGoal
      = s.rd Reg.vidStatusCodeNow :=
  ⟨({ (up [(Reg.vidStatusSettling, 1)]) with volt := { pgHigh := true } } : State), by decide +kernel⟩

theorem meets_SupplyEvents_4 :
    ∃ s : State, s.on Reg.vidStatusSettling = true ∧ s.volt.kept = none ∧ s.volt.pgHigh = true ∧ s.volt.frozen = false ∧ s.vidGoal
      ≠ s.rd Reg.vidStatusCodeNow :=
  ⟨({ (up [(Reg.vidStatusSettling, 1), (Reg.vidFixedCode, 63)]) with volt := { pgHigh := true } } : State), by decide +kernel⟩

theorem meets_SupplyEvents_5 :
    ∃ s : State, s.on Reg.vidStatusSettling = true ∧ s.volt.kept ≠ none :=
  ⟨({ (up [(Reg.vidStatusSettling, 1)]) with volt := { kept := some { fixed := 30, floor := 20, ceil := 63, target := 0 } } } : State), by decide +kernel⟩

theorem meets_SupplyEvents_6 :
    ready.on Reg.vidStatusSettling = false :=
  by decide +kernel

theorem meets_SupplyEvents_7 :
    ∃ s : State, s.volt.idleArmed = true ∧ s.vidIdle = true ∧ s.loopOn = true ∧ s.vidLow + 1 ≤ s.rd Reg.vidStatusCodeNow ∧ s.rd
      Reg.vidStatusCodeNow ≤ s.vidHigh.1 + 1 :=
  ⟨({ ready with volt := { idleArmed := true, auto := true } } : State), by decide +kernel⟩

theorem meets_SupplyEvents_8 :
    ∃ s : State, s.volt.idleArmed = true ∧ s.vidIdle = true ∧ s.loopOn = true ∧ s.rd Reg.vidStatusCodeNow ≤ s.vidLow :=
  ⟨({ (up [(Reg.vidFloorCode, 30)]) with volt := { idleArmed := true, auto := true } } : State), by decide +kernel⟩

theorem meets_SupplyEvents_9 :
    ¬(ready.volt.idleArmed = true ∧ ready.vidIdle = true ∧ ready.loopOn = true) :=
  by decide +kernel

theorem meets_SupplyEvents_10 :
    ready.volt.pgHold = false ∧ ready.volt.pgHigh = true :=
  by decide +kernel

theorem meets_SupplyEvents_11 :
    ∃ s : State, s.volt.pgHold = true ∧ s.volt.frozen = false ∧ s.on Reg.vidStatusSettling = false ∧ s.vidGoal = s.rd
      Reg.vidStatusCodeNow :=
  ⟨({ ready with volt := { pgHold := true } } : State), by decide +kernel⟩

theorem meets_SupplyEvents_12 :
    ∃ s : State, s.volt.pgHigh = true ∧ s.on Reg.vidStatusSettling = false ∧ s.vidGoal = s.rd Reg.vidStatusCodeNow :=
  ⟨({ ready with volt := { pgHigh := true, frozen := true } } : State), by decide +kernel⟩

theorem meets_SupplyEvents_13 :
    ∃ s : State, s.volt.pgHold = true ∧ s.volt.frozen = false ∧ s.on Reg.vidStatusSettling = false ∧ s.vidGoal ≠ s.rd
      Reg.vidStatusCodeNow :=
  ⟨({ (up [(Reg.vidFixedCode, 63)]) with volt := { pgHold := true } } : State), by decide +kernel⟩

theorem meets_SupplyEvents_14 :
    ∃ s : State, s.volt.pgHigh = true ∧ s.on Reg.vidStatusSettling = false ∧ s.vidGoal ≠ s.rd Reg.vidStatusCodeNow :=
  ⟨({ (up [(Reg.vidFixedCode, 63)]) with volt := { pgHigh := true, frozen := true } } : State), by decide +kernel⟩

theorem meets_SupplyEvents_15 :
    ∃ s : State, s.volt.pgHigh = false ∧ s.boot.low = false :=
  ⟨{ ready with volt := { pgHigh := false }, boot := { low := false } }, by decide⟩

theorem meets_VoltageSettings_1 :
    ready.Accepts .host Reg.vidMode.key (val .enum 1 0) .vidMode 0 0 0 ∧ ready.get Reg.vidMode.key = 0 :=
  ⟨acc rfl (by decide +kernel), by decide +kernel⟩

theorem meets_VoltageSettings_2 :
    (up [(Reg.vidStatusSettling, 1)]).Accepts .host Reg.vidMode.key (val .enum 1 1) .vidMode 0 0 1 ∧ (up [(Reg.vidStatusSettling,
      1)]).get Reg.vidMode.key ≠ 1 ∧ ((up [(Reg.vidStatusSettling, 1)]).takes Reg.vidMode.key 1).on Reg.vidStatusSettling = true :=
  ⟨acc rfl (by decide +kernel), by decide +kernel⟩

theorem meets_VoltageSettings_3 :
    ready.Accepts .host Reg.vidMode.key (val .enum 1 1) .vidMode 0 0 1 ∧ ready.get Reg.vidMode.key ≠ 1 ∧ (ready.takes
      Reg.vidMode.key 1).on Reg.vidStatusSettling = false :=
  ⟨acc rfl (by decide +kernel), by decide +kernel⟩

theorem meets_VoltageSettings_4 :
    ready.Accepts .host Reg.vidFixedCode.key (val .u8 1 30) .vidFixed 0 0 30 ∧ ready.get Reg.vidFixedCode.key = 30 :=
  ⟨acc rfl (by decide +kernel), by decide +kernel⟩

theorem meets_VoltageSettings_5 :
    (up [(Reg.vidStatusSettling, 1)]).Accepts .host Reg.vidFixedCode.key (val .u8 1 29) .vidFixed 0 0 29 ∧ (up
      [(Reg.vidStatusSettling, 1)]).get Reg.vidFixedCode.key ≠ 29 ∧ ((up [(Reg.vidStatusSettling, 1)]).takes Reg.vidFixedCode.key
      29).on Reg.vidStatusSettling = true :=
  ⟨acc rfl (by decide +kernel), by decide +kernel⟩

theorem meets_VoltageSettings_6 :
    ready.Accepts .host Reg.vidFixedCode.key (val .u8 1 29) .vidFixed 0 0 29 ∧ ready.get Reg.vidFixedCode.key ≠ 29 ∧ (ready.takes
      Reg.vidFixedCode.key 29).on Reg.vidStatusSettling = false :=
  ⟨acc rfl (by decide +kernel), by decide +kernel⟩

theorem meets_VoltageSettings_7 :
    ready.Accepts .host Reg.vidFloorCode.key (val .u8 1 20) .vidFloor 0 0 20 ∧ ready.get Reg.vidFloorCode.key = 20 :=
  ⟨acc rfl (by decide +kernel), by decide +kernel⟩

theorem meets_VoltageSettings_8 :
    (up [(Reg.vidStatusSettling, 1)]).Accepts .host Reg.vidFloorCode.key (val .u8 1 21) .vidFloor 0 0 21 ∧ (up
      [(Reg.vidStatusSettling, 1)]).get Reg.vidFloorCode.key ≠ 21 ∧ ((up [(Reg.vidStatusSettling, 1)]).takes Reg.vidFloorCode.key
      21).on Reg.vidStatusSettling = true :=
  ⟨acc rfl (by decide +kernel), by decide +kernel⟩

theorem meets_VoltageSettings_9 :
    ready.Accepts .host Reg.vidFloorCode.key (val .u8 1 21) .vidFloor 0 0 21 ∧ ready.get Reg.vidFloorCode.key ≠ 21 ∧ (ready.takes
      Reg.vidFloorCode.key 21).on Reg.vidStatusSettling = false :=
  ⟨acc rfl (by decide +kernel), by decide +kernel⟩

theorem meets_VoltageSettings_10 :
    ready.Accepts .host Reg.vidCeilCode.key (val .u8 1 63) .vidCeil 0 0 63 ∧ ready.get Reg.vidCeilCode.key = 63 :=
  ⟨acc rfl (by decide +kernel), by decide +kernel⟩

theorem meets_VoltageSettings_11 :
    (up [(Reg.vidStatusSettling, 1)]).Accepts .host Reg.vidCeilCode.key (val .u8 1 62) .vidCeil 0 0 62 ∧ (up
      [(Reg.vidStatusSettling, 1)]).get Reg.vidCeilCode.key ≠ 62 ∧ ((up [(Reg.vidStatusSettling, 1)]).takes Reg.vidCeilCode.key
      62).on Reg.vidStatusSettling = true :=
  ⟨acc rfl (by decide +kernel), by decide +kernel⟩

theorem meets_VoltageSettings_12 :
    ready.Accepts .host Reg.vidCeilCode.key (val .u8 1 62) .vidCeil 0 0 62 ∧ ready.get Reg.vidCeilCode.key ≠ 62 ∧ (ready.takes
      Reg.vidCeilCode.key 62).on Reg.vidStatusSettling = false :=
  ⟨acc rfl (by decide +kernel), by decide +kernel⟩

theorem meets_VoltageSettings_13 :
    ready.Accepts .host Reg.hmWindow.key (val .u8 1 12) .hmWindow 0 0 12 ∧ ready.get Reg.hmWindow.key = 12 :=
  ⟨acc rfl (by decide +kernel), by decide +kernel⟩

theorem meets_VoltageSettings_14 :
    ready.Accepts .host Reg.hmWindow.key (val .u8 1 16) .hmWindow 0 0 16 ∧ ready.get Reg.hmWindow.key ≠ 16 :=
  ⟨acc rfl (by decide +kernel), by decide +kernel⟩

theorem meets_HeadroomWindowLatches_1 :
    ready.windowDue 3 = false :=
  by decide +kernel

theorem meets_HeadroomWindowLatches_2 :
    ∃ s : State, s.running 3 = true ∧ s.windowDue 3 = true ∧ 17 ∈ s.roomsOf 3 ∧ s.roomActive 17 = true ∧ (s.hmWin (16 + 17)).dom =
      3 ∧ (s.hmWin (16 + 17)).n ≠ 0 :=
  ⟨({ (up [(Reg.domainRunRunning 3, 1), (Reg.roomStatusState 17, 2), (⟨(Reg.roomCtrlEnable 17).key, 0, 32⟩, 17039389)]) with volt := { wins := [(3, { ticks := 4096 }), (33, { dom := 3, n := 1 })] } } : State), by decide +kernel⟩

theorem meets_HeadroomWindowLatches_3 :
    ∃ s : State, s.running 3 = true ∧ s.windowDue 3 = true ∧ 17 ∈ s.guestsOf 3 ∧ (s.hmWin (16 + 17)).dom = 3 ∧ (s.hmWin (16 +
      17)).n ≠ 0 :=
  ⟨{ ({ (up [(Reg.domainRunRunning 3, 1), (⟨(Reg.roomCtrlEnable 5).key, 0, 32⟩, 17039389)]) with volt := { wins := [(3, { ticks := 4096 }), (33, { dom := 3, n := 1 })] } } : State) with guard := { slots := [(1, { shadow := some 5 })] } }, by decide +kernel⟩

theorem meets_HeadroomWindowLatches_4 :
    ∃ s : State, s.running 3 = true ∧ s.windowDue 3 = true ∧ (s.hmWin (16 + 17)).n = 0 :=
  ⟨({ (up [(Reg.domainRunRunning 3, 1)]) with volt := { wins := [(3, { ticks := 4096 })] } } : State), by decide +kernel⟩

theorem meets_ViewSchedulesAreSet_1 :
    ready.Accepts .host (Reg.tvScheduleRcApply 3).key ⟨.blob, blobBytes 8 7788445287802259889539818203381765⟩ .tvSchedule 3 0
      7788445287802259889539818203381765 ∧ field 7788445287802259889539818203381765 112 2 ≠ 0 ∧ field
      7788445287802259889539818203381765 114 1 ≠ 1 ∧ ¬field 7788445287802259889539818203381765 0 64 ≤ ready.rc :=
  ⟨acc rfl (by decide +kernel), by decide +kernel⟩

theorem meets_ViewSchedulesAreSet_2 :
    ready.Accepts .host (Reg.tvScheduleRcApply 3).key ⟨.blob, blobBytes 8 7788445287802259889539818203381760⟩ .tvSchedule 3 0
      7788445287802259889539818203381760 ∧ field 7788445287802259889539818203381760 112 2 ≠ 0 ∧ field
      7788445287802259889539818203381760 114 1 ≠ 1 ∧ field 7788445287802259889539818203381760 0 64 ≤ ready.rc :=
  ⟨acc rfl (by decide +kernel), by decide +kernel⟩

theorem meets_ViewSchedulesAreSet_3 :
    ready.Accepts .host (Reg.tvScheduleRcApply 3).key ⟨.blob, blobBytes 8 0⟩ .tvSchedule 3 0 0 ∧ field 0 112 2 = 0 :=
  ⟨acc rfl (by decide +kernel), by decide +kernel⟩

theorem meets_ViewSchedulesAreSet_4 :
    ready.Accepts .host (Reg.tvSource 3).key (val .enum 1 0) .tvSource 3 0 0 ∧ ready.get (Reg.tvSource 3).key = 0 :=
  ⟨acc rfl (by decide +kernel), by decide +kernel⟩

theorem meets_ViewSchedulesAreSet_5 :
    ready.Accepts .host (Reg.tvSource 3).key (val .enum 1 2) .tvSource 3 0 2 ∧ ready.get (Reg.tvSource 3).key ≠ 2 :=
  ⟨acc rfl (by decide +kernel), by decide +kernel⟩

theorem meets_ScheduleApplies_1 :
    (ready.view 3).sched = none :=
  by decide +kernel

theorem meets_ScheduleApplies_2 :
    ∃ (s : State) (c : Sched), (s.view 3).sched = some c ∧ c.step = none ∧ (s.locked = true ∨ c.at_ ≤ s.rc) ∧ (∀ w < 4, w ≠ 3 →
      (s.view w).sched = none) ∧ 2 ≤ s.selected ∧ (c.step = none ∨ s.rd (Reg.tvSource 3) ≠ 2) :=
  ⟨({ (up [(Reg.hearthStatusSelected, 15), (Reg.tvSource 3, 2)]) with time := { views := [(3, { sched := some { at_ := 2 ^ 40 } })] } } : State), { at_ := 2 ^ 40 }, by decide +kernel⟩

theorem meets_ScheduleApplies_3 :
    ∃ (s : State) (c : Sched), (s.view 3).sched = some c ∧ c.step = some 1 ∧ (s.locked = true ∨ c.at_ ≤ s.rc) ∧ (∀ w < 4, w ≠ 3 →
      (s.view w).sched = none) ∧ 2 ≤ s.selected ∧ (c.step = none ∨ s.rd (Reg.tvSource 3) ≠ 2) :=
  ⟨({ (up [(Reg.hearthStatusSelected, 15)]) with time := { views := [(3, { sched := some { at_ := 0, step := some 1 } })] } } : State), { at_ := 0, step := some 1 }, by decide +kernel⟩

theorem meets_ScheduleApplies_4 :
    ∃ (s : State) (c : Sched), (s.view 3).sched = some c ∧ s.locked = false ∧ s.rc < c.at_ :=
  ⟨{ State.reset with time := { views := [(3, { sched := some { at_ := 1 } })] } }, { at_ := 1 }, by decide +kernel⟩

theorem meets_TimedTriggers_1 :
    ready.Accepts .host (Reg.ttCtrlArm 31).key (val .u32 4 1) .ttCtrl 31 0 1 ∧ bit (ready.get (Reg.ttCtrlArm 31).key) 0 = false ∧
      (ready.takes (Reg.ttCtrlArm 31).key 1).on (Reg.ttCtrlArm 31) = true :=
  ⟨acc rfl (by decide +kernel), by decide +kernel⟩

theorem meets_TimedTriggers_2 :
    (up [(Reg.ttCtrlArm 31, 1)]).Accepts .host (Reg.ttCtrlArm 31).key (val .u32 4 0) .ttCtrl 31 0 0 ∧ bit ((up [(Reg.ttCtrlArm 31,
      1)]).get (Reg.ttCtrlArm 31).key) 0 = true ∧ ((up [(Reg.ttCtrlArm 31, 1)]).takes (Reg.ttCtrlArm 31).key 0).on (Reg.ttCtrlArm
      31) = false :=
  ⟨acc rfl (by decide +kernel), by decide +kernel⟩

theorem meets_TimedTriggers_3 :
    ready.Accepts .host (Reg.ttCtrlArm 31).key (val .u32 4 2) .ttCtrl 31 0 2 ∧ bit (ready.get (Reg.ttCtrlArm 31).key) 0 =
      (ready.takes (Reg.ttCtrlArm 31).key 2).on (Reg.ttCtrlArm 31) :=
  ⟨acc rfl (by decide +kernel), by decide +kernel⟩

theorem meets_TimedTriggers_4 :
    ready.on (Reg.ttStatusArmed 31) = false :=
  by decide +kernel

theorem meets_TimedTriggers_5 :
    ∃ s u : State, s.on (Reg.ttStatusArmed 31) = true ∧ u = s.gather.advance (s.trig 31).conv ∧ u.on (Reg.ttStatusArmed 31) = true
      ∧ (u.trig 31).conv ≤ u.rc ∧ u.get (Reg.ttPeriodPeriod 31).key = 0 :=
  ⟨({ (up [(Reg.ttStatusArmed 31, 1), (Reg.ttPeriodPeriod 31, 0)]) with time := { trigs := [(31, { conv := 0 })] } } : State), _, by decide +kernel, rfl, by decide +kernel⟩

theorem meets_TimedTriggers_6 :
    ∃ s u : State, s.on (Reg.ttStatusArmed 31) = true ∧ u = s.gather.advance (s.trig 31).conv ∧ u.on (Reg.ttStatusArmed 31) = true
      ∧ (u.trig 31).conv ≤ u.rc ∧ u.get (Reg.ttPeriodPeriod 31).key ≠ 0 :=
  ⟨({ (up [(Reg.ttStatusArmed 31, 1), (Reg.ttPeriodPeriod 31, 1)]) with time := { trigs := [(31, { conv := 0 })] } } : State), _, by decide +kernel, rfl, by decide +kernel⟩

theorem meets_TimedTriggers_7 :
    ∃ s u : State, s.on (Reg.ttStatusArmed 31) = true ∧ u = s.gather.advance (s.trig 31).conv ∧ u.rc < (u.trig 31).conv :=
  ⟨{ (State.reset.wr Reg.deviceStatusChipReady 1).wr (Reg.ttStatusArmed 31) 1 with time := { trigs := [(31, { conv := 9 })] } }, _, by decide +kernel, rfl, by decide +kernel⟩

theorem meets_TimedTriggers_8 :
    ∃ (s u w : State) (skip target now : Nat), s.on (Reg.ttStatusArmed 31) = true ∧ u = s.gather.advance (s.trig 31).conv ∧ u.on
      (Reg.ttStatusArmed 31) = true ∧ 0 ≤ u.rc ∧ w = u.wr (Reg.ttLastRc 31) 0 ∧ u.trigTwin 31 0 = false ∧ u.rd (Reg.ttCtrlAction
      31) = 0 ∧ (u.trig 31).conv = 0 ∧ 0 < u.get (Reg.ttPeriodPeriod 31).key ∧ now = (w.viewAt (u.rd (Reg.ttCtrlView 31)) (4 * 0)
      % (timeMod : Int)).toNat ∧ target = (u.trig 31).target + (skip + 1) * u.get (Reg.ttPeriodPeriod 31).key ∧ now < target ∧
      (skip = 0 ∨ target ≤ now + u.get (Reg.ttPeriodPeriod 31).key) :=
  ⟨({ (up [(Reg.ttStatusArmed 31, 1), (Reg.ttPeriodPeriod 31, 1), (Reg.tvOffsetOffset 0, 0)]) with time := { trigs := [(31, { conv := 0 })] } } : State), _, _, 0, _, _, by decide +kernel, rfl, by decide +kernel, Nat.zero_le _, rfl, by decide +kernel, by decide +kernel, by decide +kernel, by decide +kernel, rfl, rfl, by decide +kernel, by decide +kernel⟩

theorem meets_TimedTriggers_9 :
    ∃ (s u w : State) (skip target now : Nat), s.on (Reg.ttStatusArmed 31) = true ∧ u = s.gather.advance (s.trig 31).conv ∧ u.on
      (Reg.ttStatusArmed 31) = true ∧ 0 ≤ u.rc ∧ w = u.wr (Reg.ttLastRc 31) 0 ∧ u.trigTwin 31 0 = false ∧ u.rd (Reg.ttCtrlAction
      31) = 0 ∧ (u.trig 31).conv = 0 ∧ 0 < u.get (Reg.ttPeriodPeriod 31).key ∧ now = (w.viewAt (u.rd (Reg.ttCtrlView 31)) (4 * 0)
      % (timeMod : Int)).toNat ∧ target = (u.trig 31).target + (skip + 1) * u.get (Reg.ttPeriodPeriod 31).key ∧ now < target ∧
      (skip = 0 ∨ target ≤ now + u.get (Reg.ttPeriodPeriod 31).key) :=
  ⟨({ (up [(Reg.ttStatusArmed 31, 1), (Reg.ttPeriodPeriod 31, 1), (Reg.tvOffsetOffset 0, 5)]) with time := { trigs := [(31, { conv := 0 })] } } : State), _, _, 5, _, _, by decide +kernel, rfl, by decide +kernel, Nat.zero_le _, rfl, by decide +kernel, by decide +kernel, by decide +kernel, by decide +kernel, rfl, rfl, by decide +kernel, by decide +kernel⟩

theorem meets_TimedTriggers_10 :
    ∃ s : State, s.trigTwin 31 5 = true :=
  ⟨(up [(Reg.ttLastRc 30, 5)]), by decide +kernel⟩

theorem meets_TimedTriggers_11 :
    ∃ s u : State, s.on (Reg.ttStatusArmed 31) = true ∧ u = s.gather.advance (s.trig 31).conv ∧ u.on (Reg.ttStatusArmed 31) = true
      ∧ (u.trig 31).conv ≤ u.rc ∧ u.rd (Reg.ttCtrlAction 31) = 1 :=
  ⟨({ (up [(Reg.ttStatusArmed 31, 1), (Reg.ttCtrlAction 31, 1), (Reg.ttCtrlTarget 31, 47)]) with time := { trigs := [(31, { conv := 0 })] } } : State), _, by decide +kernel, rfl, by decide +kernel⟩

theorem meets_TimedTriggers_12 :
    ∃ s u : State, s.on (Reg.ttStatusArmed 31) = true ∧ u = s.gather.advance (s.trig 31).conv ∧ u.on (Reg.ttStatusArmed 31) = true
      ∧ (u.trig 31).conv ≤ u.rc ∧ u.rd (Reg.ttCtrlAction 31) = 2 :=
  ⟨({ (up [(Reg.ttStatusArmed 31, 1), (Reg.ttCtrlAction 31, 2), (Reg.ttCtrlTarget 31, 47)]) with time := { trigs := [(31, { conv := 0 })] } } : State), _, by decide +kernel, rfl, by decide +kernel⟩

theorem meets_TimedTriggers_13 :
    ∃ s u : State, s.on (Reg.ttStatusArmed 31) = true ∧ u = s.gather.advance (s.trig 31).conv ∧ u.on (Reg.ttStatusArmed 31) = true
      ∧ (u.trig 31).conv ≤ u.rc ∧ u.rd (Reg.ttCtrlAction 31) = 3 :=
  ⟨({ (up [(Reg.ttStatusArmed 31, 1), (Reg.ttCtrlAction 31, 3), (Reg.ttCtrlTarget 31, 255)]) with time := { trigs := [(31, { conv := 0 })] } } : State), _, by decide +kernel, rfl, by decide +kernel⟩

theorem meets_TimedTriggers_14 :
    ∃ s u : State, s.on (Reg.ttStatusArmed 31) = true ∧ u = s.gather.advance (s.trig 31).conv ∧ u.on (Reg.ttStatusArmed 31) = true
      ∧ (u.trig 31).conv ≤ u.rc ∧ u.rd (Reg.ttCtrlAction 31) = 4 :=
  ⟨({ (up [(Reg.ttStatusArmed 31, 1), (Reg.ttCtrlAction 31, 4), (Reg.ttCtrlTarget 31, 255)]) with time := { trigs := [(31, { conv := 0 })] } } : State), _, by decide +kernel, rfl, by decide +kernel⟩

theorem meets_TimedTriggers_15 :
    ∃ s u : State, s.on (Reg.ttStatusArmed 31) = true ∧ u = s.gather.advance (s.trig 31).conv ∧ u.on (Reg.ttStatusArmed 31) = true
      ∧ (u.trig 31).conv ≤ u.rc ∧ u.rd (Reg.ttCtrlAction 31) = 5 :=
  ⟨({ (up [(Reg.ttStatusArmed 31, 1), (Reg.ttCtrlAction 31, 5), (Reg.ttCtrlTarget 31, 17)]) with time := { trigs := [(31, { conv := 0 })] } } : State), _, by decide +kernel, rfl, by decide +kernel⟩

theorem meets_TimedTriggers_16 :
    ∃ s u : State, s.on (Reg.ttStatusArmed 31) = true ∧ u = s.gather.advance (s.trig 31).conv ∧ u.on (Reg.ttStatusArmed 31) = true
      ∧ (u.trig 31).conv ≤ u.rc ∧ u.rd (Reg.ttCtrlAction 31) = 6 :=
  ⟨({ (up [(Reg.ttStatusArmed 31, 1), (Reg.ttCtrlAction 31, 6), (Reg.ttCtrlTarget 31, 3)]) with time := { trigs := [(31, { conv := 0 })] } } : State), _, by decide +kernel, rfl, by decide +kernel⟩

theorem meets_EventPins_1 :
    ∃ u : State, u = ready.gather.advance (0 / 4) ∧ edgeSelected (u.rd (Reg.evtCfgEdge 3)) true = false :=
  ⟨_, rfl, by decide +kernel⟩

theorem meets_EventPins_2 :
    ∃ s u : State, u = s.gather.advance (199 / 4) ∧ edgeSelected (u.rd (Reg.evtCfgEdge 3)) false = true ∧ (u.evt 3).last = some 0
      ∧ 199 < 0 + 200 :=
  ⟨({ (up [(Reg.evtCfgEdge 3, 3)]) with time := { evts := [(3, { last := some 0 })] } } : State), _, rfl, by decide +kernel⟩

theorem meets_EventPins_3 :
    ∃ s u : State, u = s.gather.advance (0 / 4) ∧ edgeSelected (u.rd (Reg.evtCfgEdge 3)) false = true ∧ 16 ≤ (u.evt 3).fifo.length :=
  ⟨({ (up [(Reg.evtCfgEdge 3, 3)]) with time := { evts := [(3, { fifo := List.replicate 16 { t := 0, q := 0, rising := true, seq := 0 } })] } } : State), _, rfl, by decide +kernel⟩

theorem meets_EventPins_4 :
    ∃ s u : State, u = s.gather.advance (200 / 4) ∧ edgeSelected (u.rd (Reg.evtCfgEdge 3)) false = true ∧ (u.evt 3).last = some 0
      ∧ 0 + 200 ≤ 200 ∧ (u.evt 3).fifo.length < 16 :=
  ⟨({ (up [(Reg.evtCfgEdge 3, 3)]) with time := { evts := [(3, { last := some 0, fifo := List.replicate 15 { t := 0, q := 0, rising := true, seq := 0 } })] } } : State), _, rfl, by decide +kernel⟩

theorem meets_EventPins_5 :
    ready.Accepts .host (Reg.evtCfgEdge 3).key (val .u32 4 3) .evtCfg 3 0 3 :=
  acc rfl (by decide +kernel)

theorem meets_EventPins_6 :
    ∃ s : State, (s.out 3).pulse = true :=
  ⟨{ ready with time := { outs := [(3, { active := true, pulse := true, edge := 7 })] } }, by decide⟩

theorem meets_EventPins_7 :
    (ready.out 3).pulse = false :=
  by decide +kernel

theorem meets_PtpMeasurements_1 :
    ∃ (s u : State) (m : PtpMsg), u = s.gather.advance (3 / 4) ∧ u.ptpTakes 1 m = true ∧ u.fromParent 1 m = true ∧ m.twoStep =
      true :=
  ⟨({ (up [(Reg.ptpPortCfgEnable 1, 1), (Reg.ptpPortStatusPortState 1, 8)]) with ptp := [(1, { parent := 65537 })] } : State), _, { kind := 0, src := 65537, twoStep := true }, rfl, by decide +kernel⟩

theorem meets_PtpMeasurements_2 :
    ∃ (s u : State) (m : PtpMsg), u = s.gather.advance (3 / 4) ∧ u.ptpTakes 1 m = true ∧ u.fromParent 1 m = true ∧ m.twoStep =
      false :=
  ⟨({ (up [(Reg.ptpPortCfgEnable 1, 1), (Reg.ptpPortStatusPortState 1, 8)]) with ptp := [(1, { parent := 65537 })] } : State), _, { kind := 0, src := 65537, twoStep := false }, rfl, by decide +kernel⟩

theorem meets_PtpMeasurements_3 :
    ∃ u : State, u = ready.gather.advance (3 / 4) ∧ u.ptpTakes 1 { kind := 0, src := 65537 } = false ∧ u.p2p 1 = false ∧
      u.ptpState 1 ≠ 6 :=
  ⟨_, rfl, by decide +kernel⟩

theorem meets_PtpMeasurements_4 :
    ∃ (s w : State) (m : PtpMsg), w = s.gather.catchUp ∧ w.ptpTakes 1 m = true ∧ w.fromParent 1 m = true ∧ (w.ptpPort 1).twoStep =
      some (m.seq, 0, 0) :=
  ⟨({ (up [(Reg.ptpPortCfgEnable 1, 1), (Reg.ptpPortStatusPortState 1, 8)]) with ptp := [(1, { parent := 65537, twoStep := some (0, 0, 0) })] } : State), _, { kind := 0, src := 65537 }, rfl, by decide +kernel⟩

theorem meets_PtpMeasurements_5 :
    ∃ (s w : State) (m : PtpMsg), w = s.gather.catchUp ∧ w.ptpTakes 1 m = true ∧ (w.ptpPort 1).twoStep = none :=
  ⟨({ (up [(Reg.ptpPortCfgEnable 1, 1), (Reg.ptpPortStatusPortState 1, 8)]) with ptp := [(1, { parent := 65537 })] } : State), _, { kind := 0, src := 65537 }, rfl, by decide +kernel⟩

theorem meets_PtpMeasurements_6 :
    ∃ (s : State) (m : PtpMsg), (s.ptpPort 1).reqSent = some 0 ∧ s.ptpTakes 1 m = true ∧ s.fromParent 1 m = true ∧ m.req =
      s.portId 1 ∧ m.seq = (s.ptpPort 1).reqSeq ∧ s.p2p 1 = false ∧ (s.ptpPort 1).syncs ≠ 0 :=
  ⟨({ (up [(Reg.ptpPortCfgEnable 1, 1), (Reg.ptpPortStatusPortState 1, 8)]) with ptp := [(1, { parent := 65537, reqSent := some 0, syncs := 1 })] } : State), { kind := 9, src := 65537, req := ({ (up [(Reg.ptpPortCfgEnable 1, 1), (Reg.ptpPortStatusPortState 1, 8)]) with ptp := [(1, { parent := 65537, reqSent := some 0, syncs := 1 })] } : State).portId 1 }, by decide +kernel⟩

theorem meets_PtpMeasurements_7 :
    (ready.ptpPort 1).reqSent = none ∧ (ready.ptpPort 1).resp = none ∧ ready.ptpTakes 1 { kind := 0, src := 65537 } = false :=
  by decide +kernel

theorem meets_PtpMeasurements_8 :
    ∃ (s u : State) (m : PtpMsg), u = s.gather.advance (3 / 4) ∧ (u.ptpPort 1).reqSent = some 0 ∧ u.ptpTakes 1 m = true ∧ u.p2p 1
      = true ∧ m.req = u.portId 1 ∧ m.seq = (u.ptpPort 1).reqSeq ∧ m.twoStep = true :=
  ⟨({ (up [(Reg.ptpPortCfgEnable 1, 1), (Reg.ptpPortStatusPortState 1, 4), (Reg.ptpPortCfgProfile 1, 1)]) with ptp := [(1, { reqSent := some 0 })] } : State), _, { kind := 3, src := 65537, req := ({ (up [(Reg.ptpPortCfgEnable 1, 1), (Reg.ptpPortStatusPortState 1, 4), (Reg.ptpPortCfgProfile 1, 1)]) with ptp := [(1, { reqSent := some 0 })] } : State).portId 1, twoStep := true }, rfl, by decide +kernel⟩

theorem meets_PtpMeasurements_9 :
    ∃ (s u : State) (m : PtpMsg), u = s.gather.advance (3 / 4) ∧ (u.ptpPort 1).reqSent = some 0 ∧ u.ptpTakes 1 m = true ∧ u.p2p 1
      = true ∧ m.req = u.portId 1 ∧ m.seq = (u.ptpPort 1).reqSeq ∧ m.twoStep = false :=
  ⟨({ (up [(Reg.ptpPortCfgEnable 1, 1), (Reg.ptpPortStatusPortState 1, 4), (Reg.ptpPortCfgProfile 1, 1)]) with ptp := [(1, { reqSent := some 0 })] } : State), _, { kind := 3, src := 65537, req := ({ (up [(Reg.ptpPortCfgEnable 1, 1), (Reg.ptpPortStatusPortState 1, 4), (Reg.ptpPortCfgProfile 1, 1)]) with ptp := [(1, { reqSent := some 0 })] } : State).portId 1, twoStep := false }, rfl, by decide +kernel⟩

theorem meets_PtpMeasurements_10 :
    ∃ (s : State) (m : PtpMsg), (s.ptpPort 1).reqSent = some 0 ∧ (s.ptpPort 1).resp = some (m.seq, 0, 0, 0) ∧ s.ptpTakes 1 m =
      true ∧ m.req = s.portId 1 :=
  ⟨({ (up [(Reg.ptpPortCfgEnable 1, 1), (Reg.ptpPortStatusPortState 1, 4), (Reg.ptpPortCfgProfile 1, 1)]) with ptp := [(1, { reqSent := some 0, resp := some (0, 0, 0, 0) })] } : State), { kind := 10, src := 65537, req := ({ (up [(Reg.ptpPortCfgEnable 1, 1), (Reg.ptpPortStatusPortState 1, 4), (Reg.ptpPortCfgProfile 1, 1)]) with ptp := [(1, { reqSent := some 0, resp := some (0, 0, 0, 0) })] } : State).portId 1 }, by decide +kernel⟩

theorem meets_PtpSends_1 :
    ∃ (s u : State), u = s.advance (3 / 4) ∧ u.ptpTakes 1 { kind := 1, src := 65537 } = true ∧ u.ptpState 1 = 6 ∧ u.p2p 1 = false :=
  ⟨({ (up [(Reg.ptpPortCfgEnable 1, 1), (Reg.ptpPortStatusPortState 1, 6)]) with ptp := [(1, {})] } : State), _, rfl, by decide +kernel⟩

theorem meets_PtpSends_2 :
    ∃ (s u : State), u = s.advance (3 / 4) ∧ u.ptpTakes 1 { kind := 1, src := 65537 } = true ∧ u.p2p 1 = true ∧ u.on
      (Reg.ptpPortCfgTwoStep 1) = false :=
  ⟨({ (up [(Reg.ptpPortCfgEnable 1, 1), (Reg.ptpPortStatusPortState 1, 4), (Reg.ptpPortCfgProfile 1, 1), (Reg.ptpPortCfgTwoStep 1, 0)]) with ptp := [(1, {})] } : State), _, rfl, by decide +kernel⟩

theorem meets_PtpSends_3 :
    ∃ (s u : State), u = s.advance (3 / 4) ∧ u.ptpTakes 1 { kind := 1, src := 65537 } = true ∧ u.p2p 1 = true ∧ u.on
      (Reg.ptpPortCfgTwoStep 1) = true :=
  ⟨({ (up [(Reg.ptpPortCfgEnable 1, 1), (Reg.ptpPortStatusPortState 1, 4), (Reg.ptpPortCfgProfile 1, 1), (Reg.ptpPortCfgTwoStep 1, 1)]) with ptp := [(1, {})] } : State), _, rfl, by decide +kernel⟩

theorem meets_PtpSends_4 :
    ∃ (s u : State), s = ready ∧ u = s.advance (3 / 4) ∧ u.ptpTakes 1 { kind := 1, src := 65537 } = false :=
  ⟨_, _, rfl, rfl, by decide +kernel⟩

theorem meets_PtpSends_5 :
    ∃ s : State, s.on (Reg.ptpPortCfgEnable 1) = true ∧ s.ptpState 1 = 6 ∧ s.asBlocked 1 = false :=
  ⟨({ (up [(Reg.ptpPortCfgEnable 1, 1), (Reg.ptpPortStatusPortState 1, 6)]) with ptp := [(1, {})] } : State), by decide +kernel⟩

theorem meets_PtpSends_6 :
    ∃ s : State, s.on (Reg.ptpPortCfgEnable 1) = true ∧ s.p2p 1 = false ∧ s.ptpState 1 = 8 :=
  ⟨({ (up [(Reg.ptpPortCfgEnable 1, 1), (Reg.ptpPortStatusPortState 1, 8)]) with ptp := [(1, {})] } : State), by decide +kernel⟩

theorem meets_PtpSends_7 :
    ∃ s : State, s.on (Reg.ptpPortCfgEnable 1) = true ∧ s.p2p 1 = false ∧ s.ptpState 1 = 9 :=
  ⟨({ (up [(Reg.ptpPortCfgEnable 1, 1), (Reg.ptpPortStatusPortState 1, 9)]) with ptp := [(1, {})] } : State), by decide +kernel⟩

theorem meets_PtpSends_8 :
    ∃ s : State, s.on (Reg.ptpPortCfgEnable 1) = true ∧ s.p2p 1 = true ∧ 4 ≤ s.ptpState 1 ∧ (s.ptpPort 1).answered = true :=
  ⟨({ (up [(Reg.ptpPortCfgEnable 1, 1), (Reg.ptpPortStatusPortState 1, 4), (Reg.ptpPortCfgProfile 1, 4)]) with ptp := [(1, { answered := true })] } : State), by decide +kernel⟩

theorem meets_PtpSends_9 :
    ∃ s : State, s.on (Reg.ptpPortCfgEnable 1) = true ∧ s.p2p 1 = true ∧ 4 ≤ s.ptpState 1 ∧ (s.ptpPort 1).answered = false :=
  ⟨({ (up [(Reg.ptpPortCfgEnable 1, 1), (Reg.ptpPortStatusPortState 1, 4), (Reg.ptpPortCfgProfile 1, 4)]) with ptp := [(1, { answered := false })] } : State), by decide +kernel⟩

theorem meets_PtpSends_10 :
    ready.on (Reg.ptpPortCfgEnable 1) = false ∧ ready.ptpState 1 < 4 ∧ ready.ptpState 1 ≠ 6 :=
  by decide +kernel

theorem meets_PtpAnnounceAndTimeouts_1 :
    ∃ (s u : State) (m : PtpMsg), s.ptpTakes 1 m = true ∧ s.asBlocked 1 = false ∧ m.ann.steps < 255 ∧ s.profile 1 ≠ 4 ∧ u =
      s.gather.setPtp 1 { s.ptpPort 1 with foreign := foreignPut (s.ptpPort 1).foreign m s.rc } ∧ ((u.ptpPort 1).foreign.filter
      (fun f => f.src == m.src)).any u.qualified = true :=
  ⟨({ (up [(Reg.ptpPortCfgEnable 1, 1), (Reg.ptpPortStatusPortState 1, 4)]) with ptp := [(1, { foreign := [{ src := 65537, ann := {}, last := 0, prev := none }] })] } : State), _, { kind := 11, src := 65537, logInt := 0 }, by decide +kernel, by decide +kernel, by decide +kernel, by decide +kernel, rfl, by decide +kernel⟩

theorem meets_PtpAnnounceAndTimeouts_2 :
    ∃ (s u : State) (m : PtpMsg), s.ptpTakes 1 m = true ∧ s.asBlocked 1 = false ∧ m.ann.steps < 255 ∧ s.profile 1 ≠ 4 ∧ u =
      s.gather.setPtp 1 { s.ptpPort 1 with foreign := foreignPut (s.ptpPort 1).foreign m s.rc } ∧ ((u.ptpPort 1).foreign.filter
      (fun f => f.src == m.src)).any u.qualified = false :=
  ⟨({ (up [(Reg.ptpPortCfgEnable 1, 1), (Reg.ptpPortStatusPortState 1, 4)]) with ptp := [(1, { foreign := [] })] } : State), _, { kind := 11, src := 65537, logInt := 0 }, by decide +kernel, by decide +kernel, by decide +kernel, by decide +kernel, rfl, by decide +kernel⟩

theorem meets_PtpAnnounceAndTimeouts_3 :
    ∃ (s : State) (m : PtpMsg), s.ptpTakes 1 m = true ∧ s.asBlocked 1 = false ∧ m.ann.steps < 255 ∧ s.profile 1 = 4 ∧
      m.path.contains (s.clockId 1) = false :=
  ⟨({ (up [(Reg.ptpPortCfgEnable 1, 1), (Reg.ptpPortStatusPortState 1, 4), (Reg.ptpPortCfgProfile 1, 4), (Reg.ptpPortStatusAsCapable 1, 1)]) with ptp := [(1, {})] } : State), { kind := 11, src := 65537, logInt := 0 }, by decide +kernel⟩

theorem meets_PtpAnnounceAndTimeouts_4 :
    ready.ptpTakes 1 { kind := 0, src := 65537 } = false :=
  by decide +kernel

theorem meets_PtpAnnounceAndTimeouts_5 :
    ∃ m : PtpMsg, 255 ≤ m.ann.steps :=
  ⟨{ kind := 11, ann := { steps := 255 } }, by decide⟩

theorem meets_PtpAnnounceAndTimeouts_6 :
    ∃ w : State, w = ready.gather.catchUp ∧ w.on (Reg.ptpPortCfgEnable 1) = false :=
  ⟨_, rfl, by decide +kernel⟩

theorem meets_PtpAnnounceAndTimeouts_7 :
    ∃ s w u : State, w = s.gather.catchUp ∧ w.on (Reg.ptpPortCfgEnable 1) = true ∧ w.ptpState 1 = 7 ∧ u = (if w.slaving 1 then
      ((w.setPtp 1
      { w.ptpPort 1 with foreign := (w.ptpPort 1).foreign.filter (fun f => f.src != (w.ptpPort 1).parent), parent := 0 }).viewFree
      1).servoGo 1 3 else w) ∧ (u.erBest 1).isSome = true :=
  ⟨({ (up [(Reg.ptpPortCfgEnable 1, 1), (Reg.ptpPortStatusPortState 1, 7)]) with ptp := [(1, { foreign := [{ src := 65538, ann := {}, last := 0, prev := some 0 }] })] } : State), _, _, rfl, by decide +kernel, by decide +kernel, rfl, by decide +kernel⟩

theorem meets_PtpAnnounceAndTimeouts_8 :
    ∃ s w u : State, w = s.gather.catchUp ∧ w.on (Reg.ptpPortCfgEnable 1) = true ∧ w.ptpState 1 = 8 ∧ u = (if w.slaving 1 then
      ((w.setPtp 1
      { w.ptpPort 1 with foreign := (w.ptpPort 1).foreign.filter (fun f => f.src != (w.ptpPort 1).parent), parent := 0 }).viewFree
      1).servoGo 1 3 else w) ∧ u.erBest 1 = none ∧ u.on (Reg.ptpPortCfgSlaveOnly 1) = true :=
  ⟨({ (up [(Reg.ptpPortCfgEnable 1, 1), (Reg.ptpPortStatusPortState 1, 8), (Reg.ptpPortCfgSlaveOnly 1, 1)]) with ptp := [(1, { parent := 65537 })] } : State), _, _, rfl, by decide +kernel, by decide +kernel, rfl, by decide +kernel⟩

theorem meets_PtpAnnounceAndTimeouts_9 :
    ∃ s w u : State, w = s.gather.catchUp ∧ w.on (Reg.ptpPortCfgEnable 1) = true ∧ w.ptpState 1 = 9 ∧ u = (if w.slaving 1 then
      ((w.setPtp 1
      { w.ptpPort 1 with foreign := (w.ptpPort 1).foreign.filter (fun f => f.src != (w.ptpPort 1).parent), parent := 0 }).viewFree
      1).servoGo 1 3 else w) ∧ u.erBest 1 = none ∧ u.on (Reg.ptpPortCfgSlaveOnly 1) = false ∧ (u.bc && u.slaving 0) = false :=
  ⟨({ (up [(Reg.ptpPortCfgEnable 1, 1), (Reg.ptpPortStatusPortState 1, 9)]) with ptp := [(1, { parent := 65537 })] } : State), _, _, rfl, by decide +kernel, by decide +kernel, rfl, by decide +kernel⟩

theorem meets_PtpAnnounceAndTimeouts_10 :
    ∃ s w u : State, w = s.gather.catchUp ∧ w.on (Reg.ptpPortCfgEnable 1) = true ∧ w.ptpState 1 = 4 ∧ u = (if w.slaving 1 then
      ((w.setPtp 1
      { w.ptpPort 1 with foreign := (w.ptpPort 1).foreign.filter (fun f => f.src != (w.ptpPort 1).parent), parent := 0 }).viewFree
      1).servoGo 1 3 else w) ∧ u.erBest 1 = none ∧ u.on (Reg.ptpPortCfgSlaveOnly 1) = false ∧ (u.bc && u.slaving 0) = true :=
  ⟨({ (up [(Reg.ptpPortCfgEnable 1, 1), (Reg.ptpPortStatusPortState 1, 4), (Reg.ptpBcBcEnable, 1), (Reg.ptpPortCfgEnable 0, 1), (Reg.ptpPortStatusPortState 0, 9)]) with ptp := [(1, {})] } : State), _, _, rfl, by decide +kernel, by decide +kernel, rfl, by decide +kernel⟩

theorem meets_PtpAnnounceAndTimeouts_11 :
    ∃ s : State, s.ptpState 1 = 8 :=
  ⟨({ (up [(Reg.ptpPortCfgEnable 1, 1), (Reg.ptpPortStatusPortState 1, 8)]) with ptp := [(1, {})] } : State), by decide +kernel⟩

theorem meets_PtpAnnounceAndTimeouts_12 :
    ∃ s : State, s.ptpState 1 = 9 :=
  ⟨({ (up [(Reg.ptpPortCfgEnable 1, 1), (Reg.ptpPortStatusPortState 1, 9)]) with ptp := [(1, {})] } : State), by decide +kernel⟩

theorem meets_PtpAnnounceAndTimeouts_13 :
    ∃ s : State, s.ptpState 1 = 5 :=
  ⟨({ (up [(Reg.ptpPortCfgEnable 1, 1), (Reg.ptpPortStatusPortState 1, 5)]) with ptp := [(1, {})] } : State), by decide +kernel⟩

theorem meets_PtpAnnounceAndTimeouts_14 :
    ready.ptpState 1 ≠ 5 ∧ ready.ptpState 1 ≠ 8 ∧ ready.ptpState 1 ≠ 9 :=
  by decide +kernel

theorem meets_PtpSettings_1 :
    ready.Accepts .host (Reg.ptpPortCfgEnable 1).key (val .u64 8 422763039883271) .ptpPortCfg 1 0 422763039883271 ∧ ready.get
      (Reg.ptpPortCfgEnable 1).key ≠ 422763039883271 :=
  ⟨acc rfl (by decide +kernel), by decide +kernel⟩

theorem meets_PtpSettings_2 :
    ready.Accepts .host (Reg.ptpPortCfgEnable 1).key (val .u64 8 422763039883270) .ptpPortCfg 1 0 422763039883270 ∧ ready.get
      (Reg.ptpPortCfgEnable 1).key = 422763039883270 :=
  ⟨acc rfl (by decide +kernel), by decide +kernel⟩

theorem meets_PtpSettings_3 :
    ready.Accepts .host (Reg.ptpClockIdClockId 1).key (val .u64 8 18446744073709551615) .ptpClockId 1 0 18446744073709551615 ∧
      ready.get (Reg.ptpClockIdClockId 1).key ≠ 18446744073709551615 :=
  ⟨acc rfl (by decide +kernel), by decide +kernel⟩

theorem meets_PtpSettings_4 :
    ready.Accepts .host Reg.ptpBcBcEnable.key (val .bool 1 1) .ptpBc 0 0 1 ∧ ready.get Reg.ptpBcBcEnable.key ≠ 1 :=
  ⟨acc rfl (by decide +kernel), by decide +kernel⟩

theorem meets_PtpSettings_5 :
    ready.Accepts .host Reg.ptpBcBcEnable.key (val .bool 1 0) .ptpBc 0 0 0 ∧ ready.get Reg.ptpBcBcEnable.key = 0 :=
  ⟨acc rfl (by decide +kernel), by decide +kernel⟩

theorem meets_CandidateEntersState_1 :
    ready.rd (Reg.refStatusState 9) = 0 :=
  by decide +kernel

theorem meets_CandidateEntersState_2 :
    ready.rd (Reg.refStatusState 9) ≠ 4 :=
  by decide +kernel

theorem meets_CandidateEvents_1 :
    ∃ s : State, s.rd (Reg.refStatusState 9) = 2 ∧ s.on (Reg.refStatusHasFailed 9) = true :=
  ⟨(up [(Reg.refStatusState 9, 2), (Reg.refStatusHasFailed 9, 1)]), by decide +kernel⟩

theorem meets_CandidateEvents_2 :
    ∃ s : State, s.rd (Reg.refStatusState 9) = 2 ∧ s.on (Reg.refStatusHasFailed 9) = false :=
  ⟨(up [(Reg.refStatusState 9, 2)]), by decide +kernel⟩

theorem meets_CandidateEvents_3 :
    ∃ s : State, s.rd (Reg.refStatusState 9) = 3 :=
  ⟨(up [(Reg.refStatusState 9, 3)]), by decide +kernel⟩

theorem meets_CandidateEvents_4 :
    ready.rd (Reg.refStatusState 9) ≠ 2 ∧ ready.rd (Reg.refStatusState 9) ≠ 3 :=
  by decide +kernel

theorem meets_CandidateEvents_5 :
    ready.rd (Reg.refCfgQlSrc (1 + 2)) = 1 :=
  by decide +kernel

theorem meets_CandidateEvents_6 :
    ∃ s : State, s.rd (Reg.refCfgQlSrc (1 + 2)) ≠ 1 :=
  ⟨(up [(Reg.refCfgQlSrc 3, 0)]), by decide +kernel⟩

theorem meets_CandidateEvents_7 :
    (up [(Reg.refStatusState 9, 3)]).Accepts .host (Reg.refCmdCmd 9).key (val .u8 1 1) .refCmd 9 0 1 ∧ ((up [(Reg.refStatusState
      9, 3)]).takes (Reg.refCmdCmd 9).key 1).rd (Reg.refStatusState 9) = 3 :=
  ⟨acc rfl (by decide +kernel), by decide +kernel⟩

theorem meets_CandidateEvents_8 :
    ready.Accepts .host (Reg.refCmdCmd 9).key (val .u8 1 1) .refCmd 9 0 1 ∧ (ready.takes (Reg.refCmdCmd 9).key 1).rd
      (Reg.refStatusState 9) ≠ 3 :=
  ⟨acc rfl (by decide +kernel), by decide +kernel⟩

theorem meets_CandidateEvents_9 :
    ready.Accepts .host (Reg.refCmdCmd 9).key (val .u8 1 2) .refCmd 9 0 2 :=
  acc rfl (by decide +kernel)

theorem meets_MonitorSecond_1 :
    ready.rd (Reg.refStatusState 9) = 0 :=
  by decide +kernel

theorem meets_MonitorSecond_2 :
    ∃ s : State, s.rd (Reg.refStatusState 9) ≠ 0 ∧ s.rd (Reg.refStatusTimer 9) ≤ 1 ∧ s.signalOk 9 = false :=
  ⟨(up [(Reg.refStatusState 9, 2), (Reg.refStatusTimer 9, 1), (Reg.refCfgMode 9, 2)]), by decide +kernel⟩

theorem meets_MonitorSecond_3 :
    ∃ s : State, s.rd (Reg.refStatusState 9) ≠ 0 ∧ s.signalOk 9 = true :=
  ⟨(up [(Reg.refStatusState 9, 2), (Reg.sideStatusState 0 1, 2)]), by decide +kernel⟩

theorem meets_MonitorSecond_4 :
    ∃ (s : State) (l : List Int) (off mean hard : Int), s.rd (Reg.refStatusState 9) ≠ 0 ∧ s.signalOk 9 = true ∧ l = (([off] : List
      Int).take 64).take (s.rd (Reg.refMonCfgWindow 9)) ∧ (s.cand 9).offs = [] ∧ mean = clampInt (-2147483648) 2147483647 (l.sum /
      (l.length : Int)) ∧ hard = s.rd (Reg.refMonCfgHard 9) * 10 ∧ hard < mean.natAbs :=
  ⟨(up [(Reg.refStatusState 9, 4), (Reg.sideStatusState 0 1, 2), (Reg.refMonCfgWindow 9, 1), (Reg.refMonCfgHard 9, 100), (Reg.refMonCfgSoft 9, 50)]), _, 1001, _, _, by decide +kernel, by decide +kernel, rfl, by decide +kernel, rfl, rfl, by decide +kernel⟩

theorem meets_MonitorSecond_5 :
    ∃ (s : State) (l : List Int) (off mean hard : Int), s.rd (Reg.refStatusState 9) ≠ 0 ∧ s.signalOk 9 = true ∧ l = (([off] : List
      Int).take 64).take (s.rd (Reg.refMonCfgWindow 9)) ∧ (s.cand 9).offs = [] ∧ mean = clampInt (-2147483648) 2147483647 (l.sum /
      (l.length : Int)) ∧ hard = s.rd (Reg.refMonCfgHard 9) * 10 ∧ (mean.natAbs : Int) * 10 ≤ hard * 9 ∧ s.rd (Reg.refStatusState
      9) = 1 ∧ s.rank 9 < 6 ∧ (s.cand 9).esmcOut = false :=
  ⟨(up [(Reg.refStatusState 9, 1), (Reg.sideStatusState 0 1, 2), (Reg.refMonCfgWindow 9, 1), (Reg.refMonCfgHard 9, 100), (Reg.refMonCfgSoft 9, 50)]), _, 900, _, _, by decide +kernel, by decide +kernel, rfl, by decide +kernel, rfl, rfl, by decide +kernel⟩

theorem meets_MonitorSecond_6 :
    ∃ (s : State) (l : List Int) (off mean hard : Int), s.rd (Reg.refStatusState 9) ≠ 0 ∧ s.signalOk 9 = true ∧ l = (([off] : List
      Int).take 64).take (s.rd (Reg.refMonCfgWindow 9)) ∧ (s.cand 9).offs = [] ∧ mean = clampInt (-2147483648) 2147483647 (l.sum /
      (l.length : Int)) ∧ hard = s.rd (Reg.refMonCfgHard 9) * 10 ∧ (mean.natAbs : Int) ≤ hard ∧ hard * 9 < (mean.natAbs : Int) *
      10 :=
  ⟨(up [(Reg.refStatusState 9, 1), (Reg.sideStatusState 0 1, 2), (Reg.refMonCfgWindow 9, 1), (Reg.refMonCfgHard 9, 100), (Reg.refMonCfgSoft 9, 50)]), _, 901, _, _, by decide +kernel, by decide +kernel, rfl, by decide +kernel, rfl, rfl, by decide +kernel⟩

theorem meets_MonitorSecond_7 :
    ∃ (s : State) (l : List Int) (off mean hard : Int), s.rd (Reg.refStatusState 9) ≠ 0 ∧ s.signalOk 9 = true ∧ l = (([off] : List
      Int).take 64).take (s.rd (Reg.refMonCfgWindow 9)) ∧ (s.cand 9).offs = [] ∧ mean = clampInt (-2147483648) 2147483647 (l.sum /
      (l.length : Int)) ∧ hard = s.rd (Reg.refMonCfgHard 9) * 10 ∧ (mean.natAbs : Int) ≤ hard ∧ s.rd (Reg.refStatusState 9) ≠ 1 :=
  ⟨(up [(Reg.refStatusState 9, 2), (Reg.sideStatusState 0 1, 2), (Reg.refMonCfgWindow 9, 1), (Reg.refMonCfgHard 9, 100), (Reg.refMonCfgSoft 9, 50)]), _, -1000, _, _, by decide +kernel, by decide +kernel, rfl, by decide +kernel, rfl, rfl, by decide +kernel⟩

theorem meets_DpllEvents_1 :
    ∃ s : State, s.rd Reg.hearthStatusState = 3 ∧ sext 32 (s.rd Reg.dpllFreqFreq) ≠ sext 32 (s.rd Reg.histFreqFreq) :=
  ⟨(up [(Reg.hearthStatusState, 3), (Reg.histFreqFreq, 10001)]), by decide +kernel⟩

theorem meets_DpllEvents_2 :
    ∃ s : State, s.rd Reg.hearthStatusState = 3 ∧ sext 32 (s.rd Reg.dpllFreqFreq) = sext 32 (s.rd Reg.histFreqFreq) ∧
      s.hearth.dpll.rate = rateOf (sext 32 (s.rd Reg.histFreqFreq)) :=
  ⟨(up [(Reg.hearthStatusState, 3)]), by decide +kernel⟩

theorem meets_DpllEvents_3 :
    ∃ s : State, s.rd Reg.hearthStatusState = 0 ∧ sext 32 (s.rd Reg.dpllFreqFreq) ≠ sext 24 (s.rd Reg.holdoverCfgFreeTrim) * 10 :=
  ⟨(up [(Reg.hearthStatusState, 0), (Reg.holdoverCfgFreeTrim, 16777215)]), by decide +kernel⟩

theorem meets_DpllEvents_4 :
    ∃ s : State, s.rd Reg.hearthStatusState = 0 ∧ sext 32 (s.rd Reg.dpllFreqFreq) = sext 24 (s.rd Reg.holdoverCfgFreeTrim) * 10 ∧
      s.hearth.dpll.rate = rateOf (sext 24 (s.rd Reg.holdoverCfgFreeTrim) * 10) :=
  ⟨(up [(Reg.hearthStatusState, 0)]), by decide +kernel⟩

theorem meets_DpllEvents_5 :
    ∃ s : State, s.rd Reg.hearthStatusState = 1 ∧ s.rd Reg.hearthStatusStage + 1 < (s.stages s.selected).1.length :=
  ⟨(up [(Reg.hearthStatusState, 1), (Reg.dpllCfgTrackBw, 1)]), by decide +kernel⟩

theorem meets_DpllEvents_6 :
    ∃ s : State, s.rd Reg.hearthStatusState = 1 ∧ (s.stages s.selected).1.length ≤ s.rd Reg.hearthStatusStage + 1 :=
  ⟨(up [(Reg.hearthStatusState, 1), (Reg.hearthStatusStage, 7)]), by decide +kernel⟩

theorem meets_DpllEvents_7 :
    ∃ s : State, s.rd Reg.hearthStatusState = 2 ∧ 2 ≤ s.selected :=
  ⟨(up [(Reg.hearthStatusState, 2), (Reg.hearthStatusSelected, 2)]), by decide +kernel⟩

theorem meets_DpllEvents_8 :
    ∃ s : State, s.rd Reg.hearthStatusState = 2 ∧ s.selected < 2 :=
  ⟨(up [(Reg.hearthStatusState, 2), (Reg.hearthStatusSelected, 1)]), by decide +kernel⟩

theorem meets_DpllEvents_9 :
    ∃ s : State, s.on Reg.hearthStatusHoInSpec = true :=
  ⟨(up [(Reg.hearthStatusHoInSpec, 1)]), by decide +kernel⟩

theorem meets_DpllEvents_10 :
    ready.rd Reg.hearthStatusState ≠ 1 ∧ ready.rd Reg.hearthStatusState ≠ 2 ∧ ready.on Reg.hearthStatusHoInSpec = false ∧
      ready.hearth.waiting = false :=
  by decide +kernel

theorem meets_DpllEvents_11 :
    ∃ s : State, s.hearth.waiting = true :=
  ⟨{ ready with hearth := { waiting := true } }, rfl⟩

theorem meets_DpllEvents_12 :
    ready.Accepts .host Reg.hearthCmdCmd.key (val .u8 1 1) .hearthCmd 0 0 1 :=
  acc rfl (by decide +kernel)

theorem meets_HearthOutputs_1 :
    0 < ready.domRate 3 :=
  by decide +kernel

theorem meets_HearthOutputs_2 :
    ∃ s : State, s.wclkRuns 1 = true ∧ s.rd (Reg.wclkOutCfgDomain 1) = 3 ∧ (4 : Int) % (s.wclkHz 1).2 = 0 :=
  ⟨(up [(Reg.wclkOutCfgMode 1, 2), (Reg.wclkOutCfgDomain 1, 3), (Reg.domainRunRunning 3, 1), (Reg.mdCtrlRate 3, 5)]), by decide +kernel⟩

theorem meets_HearthOutputs_3 :
    ∃ s : State, s.wclkRuns 1 = true ∧ s.rd (Reg.wclkOutCfgDomain 1) = 3 ∧ (2 : Int) % (s.wclkHz 1).2 ≠ 0 :=
  ⟨(up [(Reg.wclkOutCfgMode 1, 2), (Reg.wclkOutCfgDomain 1, 3), (Reg.domainRunRunning 3, 1), (Reg.mdCtrlRate 3, 5)]), by decide +kernel⟩

theorem meets_HearthOutputs_4 :
    ready.wclkRuns 1 = false :=
  by decide +kernel

theorem meets_HearthOutputs_5 :
    ∃ s : State, s.wclkRuns 1 = true ∧ s.rd (Reg.wclkOutCfgDomain 1) ≠ 2 :=
  ⟨(up [(Reg.wclkOutCfgMode 1, 2), (Reg.wclkOutCfgDomain 1, 3), (Reg.domainRunRunning 3, 1), (Reg.mdCtrlRate 3, 5)]), by decide +kernel⟩

theorem meets_HearthOutputs_6 :
    (ready.outSlew 2).err = 0 ∧ (ready.side 47 1).slew.err = 0 :=
  by decide +kernel

theorem meets_HearthOutputs_7 :
    ∃ s : State, (s.outSlew 2).err ≠ 0 :=
  ⟨{ ready with hearth := { slews := [(2, { err := 1 })] } }, by decide +kernel⟩

theorem meets_HearthOutputs_8 :
    ∃ s : State, (s.side 47 1).slew.err ≠ 0 :=
  ⟨{ ready with tdm := { sides := [(95, { slew := { err := -1 } })] } }, by decide +kernel⟩

theorem meets_HearthOutputs_9 :
    ∀ v < 4, ready.rd (Reg.tvSource v) ≠ 2 :=
  by decide +kernel

theorem meets_HearthOutputs_10 :
    ∃ (s u w : State) (r x : Nat) (own d : Int), s.rd (Reg.tvSource 3) = 2 ∧ (∀ w < 4, w ≠ 3 → s.rd (Reg.tvSource w) ≠ 2) ∧ u =
      s.gather.advance (s.rc + 1) ∧ r = u.hearth.dpll.rate ∧ x = 4 * (u.rc + 1) ∧ (u.view 3).sched = none ∧ own = 0 ∧ w =
      u.schedule 3 none (some r) (if own = 0 then none else some (ofInt 96 own)) true ∧ d = reduceHalf (u.hearth.dpll.time x -
      w.viewAt 3 x) secondU ∧ d.natAbs ≤ 131072 :=
  ⟨({ (up [(Reg.tvSource 3, 2)]) with time := { views := [] }, hearth := { dpll := { offset := 131072 } } } : State), _, _, _, _, _, _, by decide +kernel, by decide +kernel, rfl, rfl, rfl, by decide +kernel, rfl, rfl, rfl, by decide +kernel⟩

theorem meets_HearthOutputs_11 :
    ∃ (s u w : State) (r x : Nat) (own d : Int), s.rd (Reg.tvSource 3) = 2 ∧ (∀ w < 4, w ≠ 3 → s.rd (Reg.tvSource w) ≠ 2) ∧ u =
      s.gather.advance (s.rc + 1) ∧ r = u.hearth.dpll.rate ∧ x = 4 * (u.rc + 1) ∧ (u.view 3).sched = none ∧ own = 0 ∧ w =
      u.schedule 3 none (some r) (if own = 0 then none else some (ofInt 96 own)) true ∧ d = reduceHalf (u.hearth.dpll.time x -
      w.viewAt 3 x) secondU ∧ 131072 < d.natAbs :=
  ⟨({ (up [(Reg.tvSource 3, 2)]) with time := { views := [] }, hearth := { dpll := { offset := 131073 } } } : State), _, _, _, _, _, _, by decide +kernel, by decide +kernel, rfl, rfl, rfl, by decide +kernel, rfl, rfl, rfl, by decide +kernel⟩

theorem meets_HearthOutputs_12 :
    ∃ (s u w : State) (r x : Nat) (own d : Int), s.rd (Reg.tvSource 3) = 2 ∧ (∀ w < 4, w ≠ 3 → s.rd (Reg.tvSource w) ≠ 2) ∧ u =
      s.gather.advance (s.rc + 1) ∧ r = u.hearth.dpll.rate ∧ x = 4 * (u.rc + 1) ∧ (u.view 3).sched.any (fun c => !c.owner) = true
      ∧ own = 0 ∧ w = u.schedule 3 none (some r) (if own = 0 then none else some (ofInt 96 own)) true ∧ d = reduceHalf
      (u.hearth.dpll.time x - w.viewAt 3 x) secondU ∧ d.natAbs ≤ 131072 :=
  ⟨({ (up [(Reg.tvSource 3, 2)]) with time := { views := [(3, { sched := some { at_ := 9, owner := false } })] }, hearth := { dpll := {} } } : State), _, _, _, _, _, _, by decide +kernel, by decide +kernel, rfl, rfl, rfl, by decide +kernel, rfl, rfl, rfl, by decide +kernel⟩

theorem meets_HearthOutputs_13 :
    ∃ (s u w : State) (r x : Nat) (own d : Int), s.rd (Reg.tvSource 3) = 2 ∧ (∀ w < 4, w ≠ 3 → s.rd (Reg.tvSource w) ≠ 2) ∧ u =
      s.gather.advance (s.rc + 1) ∧ r = u.hearth.dpll.rate ∧ x = 4 * (u.rc + 1) ∧ (u.view 3).sched = some
      ({ at_ := 2, step := some 7, owner := true } : Sched) ∧ ({ at_ := 2, step := some 7, owner := true } : Sched).owner = true ∧
      ({ at_ := 2, step := some 7, owner := true } : Sched).at_ = u.rc + 1 ∧ own = sext 96
      (({ at_ := 2, step := some 7, owner := true } : Sched).step.getD 0) ∧ w = u.schedule 3 none (some r) (if own = 0 then none
      else some (ofInt 96 own)) true ∧ d = reduceHalf (u.hearth.dpll.time x - w.viewAt 3 x) secondU ∧ d.natAbs ≤ 131072 :=
  ⟨({ (up [(Reg.tvSource 3, 2)]) with time := { views := [(3, { sched := some ({ at_ := 2, step := some 7, owner := true } : Sched) })] }, hearth := { dpll := {} } } : State), _, _, _, _, _, _, by decide +kernel, by decide +kernel, rfl, rfl, rfl, by decide +kernel, by decide +kernel, by decide +kernel, rfl, rfl, rfl, by decide +kernel⟩

theorem meets_HearthOutputs_14 :
    ready.on Reg.ppsOutCfgEnable = false ∧ ready.hearth.pps = none :=
  by decide +kernel

theorem meets_HearthOutputs_15 :
    ∃ (s u : State) (v x : Nat) (e t : Int) (p : Nat × Nat), s.on Reg.ppsOutCfgEnable = true ∧ v = s.rd Reg.ppsOutCfgView ∧ e =
      (s.outSlew 2).left s.slewMax (4 * s.rc) ∧ t = ((s.viewNow v - e) / secondU + 1) * secondU + e ∧ p = s.viewParams v (4 *
      s.rc) ∧ x = lineReaches (sext 96 p.1) p.2 t ∧ u = s.advance ((max ((x + 8) / 16 * 16) x + 3) / 4) ∧ t ≤ u.viewAt v x :=
  ⟨(up [(Reg.ppsOutCfgEnable, 1)]), _, _, _, _, _, _, by decide +kernel, rfl, rfl, rfl, rfl, rfl, rfl, by decide +kernel⟩

theorem meets_HearthOutputs_16 :
    ∃ (s u : State) (v x : Nat) (e t : Int) (p : Nat × Nat), s.on Reg.ppsOutCfgEnable = true ∧ v = s.rd Reg.ppsOutCfgView ∧ e =
      (s.outSlew 2).left s.slewMax (4 * s.rc) ∧ t = ((s.viewNow v - e) / secondU + 1) * secondU + e ∧ p = s.viewParams v (4 *
      s.rc) ∧ x = lineReaches (sext 96 p.1) p.2 t ∧ u = s.advance ((max ((x + 8) / 16 * 16) x + 3) / 4) ∧ u.viewAt v x < t :=
  ⟨({ (up [(Reg.ppsOutCfgEnable, 1), (Reg.hearthStatusSelected, 15)]) with time := { views := [(0, { sched := some { at_ := 1, step := some (2 ^ 96 - 2 ^ 49) } })] } } : State), _, _, _, _, _, _, by decide +kernel, rfl, rfl, rfl, rfl, rfl, rfl, by decide +kernel⟩

theorem meets_HearthOutputs_17 :
    ∃ s : State, s.hearth.pps = some 16 :=
  ⟨{ ready with hearth := { pps := some 16 } }, by decide +kernel⟩

theorem meets_HearthSettings_1 :
    (up [(Reg.refCfgEnable 9, 1)]).Accepts .host (Reg.refCfgEnable 9).key (val .u32 4 17044) .refCfg 9 0 17044 ∧ field ((up
      [(Reg.refCfgEnable 9, 1)]).get (Reg.refCfgEnable 9).key) 0 1 = 1 ∧ field 17044 0 1 ≠ 1 :=
  ⟨acc rfl (by decide +kernel), by decide +kernel⟩

theorem meets_HearthSettings_2 :
    ready.Accepts .host (Reg.refCfgEnable 9).key (val .u32 4 17045) .refCfg 9 0 17045 ∧ field (ready.get (Reg.refCfgEnable 9).key)
      0 1 ≠ 1 ∧ field 17045 0 1 = 1 :=
  ⟨acc rfl (by decide +kernel), by decide +kernel⟩

theorem meets_HearthSettings_3 :
    ready.Accepts .host (Reg.refCfgEnable 9).key (val .u32 4 17044) .refCfg 9 0 17044 ∧ field (ready.get (Reg.refCfgEnable 9).key)
      0 1 ≠ 1 ∧ field 17044 0 1 ≠ 1 :=
  ⟨acc rfl (by decide +kernel), by decide +kernel⟩

theorem meets_HearthSettings_4 :
    (up [(Reg.refCfgEnable 9, 1)]).Accepts .host (Reg.refCfgEnable 9).key (val .u32 4 17045) .refCfg 9 0 17045 ∧ field ((up
      [(Reg.refCfgEnable 9, 1)]).get (Reg.refCfgEnable 9).key) 0 1 = 1 ∧ field 17045 0 1 = 1 ∧ field ((up [(Reg.refCfgEnable 9,
      1)]).get (Reg.refCfgEnable 9).key) 10 9 = field 17045 10 9 ∧ field ((up [(Reg.refCfgEnable 9, 1)]).get (Reg.refCfgEnable
      9).key) 19 6 = field 17045 19 6 ∧ field ((up [(Reg.refCfgEnable 9, 1)]).get (Reg.refCfgEnable 9).key) 5 2 = field 17045 5 2 :=
  ⟨acc rfl (by decide +kernel), by decide +kernel⟩

theorem meets_HearthSettings_5 :
    (up [(Reg.refCfgEnable 9, 1)]).Accepts .host (Reg.refCfgEnable 9).key (val .u32 4 24658581) .refCfg 9 0 24658581 ∧ field ((up
      [(Reg.refCfgEnable 9, 1)]).get (Reg.refCfgEnable 9).key) 0 1 = 1 ∧ field 24658581 0 1 = 1 ∧ field ((up [(Reg.refCfgEnable 9,
      1)]).get (Reg.refCfgEnable 9).key) 19 6 ≠ field 24658581 19 6 :=
  ⟨acc rfl (by decide +kernel), by decide +kernel⟩

theorem meets_HearthSettings_6 :
    (up [(Reg.hearthCtrlSelMode, 0)]).Accepts .host Reg.hearthCtrlSelMode.key (val .u32 4 247282) .hearthCtrl 0 0 247282 ∧ field
      247282 0 3 ≠ (up [(Reg.hearthCtrlSelMode, 0)]).rd Reg.hearthCtrlSelMode :=
  ⟨acc rfl (by decide +kernel), by decide +kernel⟩

theorem meets_HearthSettings_7 :
    (up [(Reg.hearthStatusHistValid, 1)]).Accepts .host Reg.hearthCtrlSelMode.key (val .u32 4 247283) .hearthCtrl 0 0 247283 ∧
      field 247283 0 3 ≠ (up [(Reg.hearthStatusHistValid, 1)]).rd Reg.hearthCtrlSelMode :=
  ⟨acc rfl (by decide +kernel), by decide +kernel⟩

theorem meets_HearthSettings_8 :
    ready.Accepts .host Reg.hearthCtrlSelMode.key (val .u32 4 247284) .hearthCtrl 0 0 247284 ∧ field 247284 0 3 ≠ ready.rd
      Reg.hearthCtrlSelMode :=
  ⟨acc rfl (by decide +kernel), by decide +kernel⟩

theorem meets_HearthSettings_9 :
    ready.Accepts .host Reg.hearthCtrlSelMode.key (val .u32 4 247280) .hearthCtrl 0 0 247280 ∧ field 247280 0 3 ≠ ready.rd
      Reg.hearthCtrlSelMode :=
  ⟨acc rfl (by decide +kernel), by decide +kernel⟩

theorem meets_HearthSettings_10 :
    ready.Accepts .host Reg.hearthCtrlSelMode.key (val .u32 4 247281) .hearthCtrl 0 0 247281 ∧ field 247281 0 3 ≠ ready.rd
      Reg.hearthCtrlSelMode :=
  ⟨acc rfl (by decide +kernel), by decide +kernel⟩

theorem meets_HearthSettings_11 :
    ready.Accepts .host Reg.hearthCtrlSelMode.key (val .u32 4 247282) .hearthCtrl 0 0 247282 ∧ field 247282 0 3 = ready.rd
      Reg.hearthCtrlSelMode :=
  ⟨acc rfl (by decide +kernel), by decide +kernel⟩

theorem meets_HearthSettings_12 :
    (up [(Reg.hearthCtrlSelMode, 0)]).Accepts .host Reg.hearthCtrlSelMode.key (val .u32 4 247280) .hearthCtrl 0 0 247280 ∧ field
      247280 0 3 = (up [(Reg.hearthCtrlSelMode, 0)]).rd Reg.hearthCtrlSelMode :=
  ⟨acc rfl (by decide +kernel), by decide +kernel⟩

theorem meets_HearthSettings_13 :
    (up [(Reg.hearthCtrlSelMode, 4)]).Accepts .host Reg.hearthCtrlSelMode.key (val .u32 4 247284) .hearthCtrl 0 0 247284 ∧ field
      247284 0 3 = (up [(Reg.hearthCtrlSelMode, 4)]).rd Reg.hearthCtrlSelMode :=
  ⟨acc rfl (by decide +kernel), by decide +kernel⟩

theorem meets_PortEvents_1 :
    ∃ s : State, s.on (Reg.pauseCfgWdEn 2) = true ∧ s.pauseHolds 2 8 = true :=
  ⟨({ (up [(Reg.pauseCfgWdEn 2, 1)]) with ports := [(2, { pauses := [(8, { on := true })] })] } : State), by decide +kernel⟩

theorem meets_PortEvents_2 :
    ready.pauseHolds 2 8 = false ∧ (ready.port 2).ringHold.active = false ∧ (ready.port 2).wire = none ∧ (ready.port 2).hd ≠
      .backoff ∧ (ready.port 2).hd ≠ .carrier :=
  by decide +kernel

theorem meets_PortEvents_3 :
    ∃ s : State, (s.port 2).ringHold.active = true ∧ (s.port 2).ringHold.count = 0 :=
  ⟨({ ready with ports := [(2, { ringHold := { active := true, count := 0 } })] } : State), by decide +kernel⟩

theorem meets_PortEvents_4 :
    ∃ s : State, (s.port 2).ringHold.active = true ∧ (s.port 2).ringHold.count = 1 :=
  ⟨({ ready with ports := [(2, { ringHold := { active := true, count := 1 } })] } : State), by decide +kernel⟩

theorem meets_PortEvents_5 :
    ∃ s : State, (s.port 2).hd = .sending ∧ (s.port 2).wire.isSome = true ∧ s.halfDuplex 2 = true ∧ s.locked = true ∧ 512 ≤ 512 :=
  ⟨({ (up [(Reg.portStatusLink 2, 1), (Reg.portStatusFullDuplex 2, 0)]) with ports := [(2, { hd := .sending, wire := some {}, hdAttempts := 0 })] } : State), by decide +kernel⟩

theorem meets_PortEvents_6 :
    ∃ s : State, (s.port 2).hd = .sending ∧ (s.port 2).wire.isSome = true ∧ s.halfDuplex 2 = true ∧ s.locked = true ∧ 511 < 512 ∧
      (s.port 2).hdAttempts = 15 :=
  ⟨({ (up [(Reg.portStatusLink 2, 1), (Reg.portStatusFullDuplex 2, 0)]) with ports := [(2, { hd := .sending, wire := some {}, hdAttempts := 15 })] } : State), by decide +kernel⟩

theorem meets_PortEvents_7 :
    ∃ s : State, (s.port 2).hd = .sending ∧ (s.port 2).wire.isSome = true ∧ s.halfDuplex 2 = true ∧ s.locked = true ∧ 511 < 512 ∧
      (s.port 2).hdAttempts ≠ 15 :=
  ⟨({ (up [(Reg.portStatusLink 2, 1), (Reg.portStatusFullDuplex 2, 0)]) with ports := [(2, { hd := .sending, wire := some {}, hdAttempts := 14 })] } : State), by decide +kernel⟩

theorem meets_PortEvents_8 :
    ∃ s : State, (s.port 2).hd = .backoff ∧ s.locked = true :=
  ⟨({ ready with ports := [(2, { hd := .backoff })] } : State), by decide +kernel⟩

theorem meets_PortEvents_9 :
    ∃ s : State, (s.port 2).hd = .carrier ∧ s.locked = true :=
  ⟨({ ready with ports := [(2, { hd := .carrier })] } : State), by decide +kernel⟩

theorem meets_PortEvents_10 :
    ({ ready with ports := [(2, { ring := [(5, [])] })] } : State).Accepts .host (Reg.rxrReleaseSeq 2).key (val .u16 2 5)
      .rxrRelease 2 0 5 :=
  acc rfl (by decide +kernel)

theorem meets_LinksFollowTheirPorts_1 :
    ∃ s : State, s.portRuns 1 = true ∧ s.rd (Reg.portLoopMode 1) ≠ 1 ∧ s.rd (Reg.portLoopMode 1) ≠ 3 :=
  ⟨(up [(Reg.portCfgEnable 1, 1)]), by decide +kernel⟩

theorem meets_LinksFollowTheirPorts_2 :
    ready.portRuns 1 = false ∧ ready.linkUp 1 = false :=
  by decide +kernel

theorem meets_LinksFollowTheirPorts_3 :
    ∃ s : State, s.linkUp 1 = true ∧ s.rd (Reg.portLoopMode 1) ≠ 3 :=
  ⟨(up [(Reg.portCfgEnable 1, 1), (Reg.portStatusLink 1, 1)]), by decide +kernel⟩

theorem meets_LinksFollowTheirPorts_4 :
    ∃ s : State, s.portRuns 2 = true ∧ s.on Reg.mCfgInBand = true ∧ s.rd (Reg.portLoopMode 2) = 0 :=
  ⟨(up [(Reg.mCfgEnable, 1), (Reg.mCfgInBand, 1)]), by decide +kernel⟩

theorem meets_LinksFollowTheirPorts_5 :
    ∃ s : State, s.on Reg.mCfgInBand = false :=
  ⟨(up [(Reg.mCfgInBand, 0)]), by decide +kernel⟩

theorem meets_LinksFollowTheirPorts_6 :
    (up [(Reg.portCfgEnable 1, 1)]).Accepts .host (Reg.portCfgEnable 1).key (val .u16 2 0) .portCfg 1 0 0 ∧ bit ((up
      [(Reg.portCfgEnable 1, 1)]).get (Reg.portCfgEnable 1).key) 0 = true ∧ ((up [(Reg.portCfgEnable 1, 1)]).takes
      (Reg.portCfgEnable 1).key 0).portEnabled 1 = false :=
  ⟨acc rfl (by decide +kernel), by decide +kernel⟩

theorem meets_LinksFollowTheirPorts_7 :
    ready.Accepts .host (Reg.portCfgEnable 1).key (val .u16 2 1) .portCfg 1 0 1 ∧ ¬(bit (ready.get (Reg.portCfgEnable 1).key) 0 =
      true ∧ (ready.takes (Reg.portCfgEnable 1).key 1).portEnabled 1 = false) :=
  ⟨acc rfl (by decide +kernel), by decide +kernel⟩

theorem meets_LinksFollowTheirPorts_8 :
    ∃ s : State, s.linkUp 2 = false :=
  ⟨(up [(Reg.portStatusLink 2, 0)]), by decide +kernel⟩

theorem meets_LinksFollowTheirPorts_9 :
    ∃ s : State, s.linkUp 2 = true :=
  ⟨(up [(Reg.portStatusLink 2, 1)]), by decide +kernel⟩

theorem meets_LinksFollowTheirPorts_10 :
    ∃ (s t : State) (n : Nat), t = s.setLink 2 false 1 true ∧ n = ((List.range (queueCount 2)).map (fun q => ((s.queue 2 q).map
      (fun x => x.frames.length)).sum)).sum + (if (s.port 2).wire.isSome = true ∧ ((s.port 2).hd = .carrier ∨ (s.port 2).hd =
      .backoff) then 1 else 0) ∧ n = 3 ∧ s.linkUp 2 = true ∧ s.linkUp 2 ≠ false :=
  ⟨({ (up [(Reg.portStatusLink 2, 1)]) with ports := [(2, { wire := some {}, hd := .carrier, queues := [(3, [{ frames := [{ bytes := [] }, { bytes := [] }], space := 2 }])] })] } : State), _, _, rfl, rfl, by decide +kernel⟩

theorem meets_LinksFollowTheirPorts_11 :
    ∃ (s t : State) (n : Nat), t = s.setLink 2 true 1 true ∧ n = ((List.range (queueCount 2)).map (fun q => ((s.queue 2 q).map
      (fun x => x.frames.length)).sum)).sum + (if (s.port 2).wire.isSome = true ∧ ((s.port 2).hd = .carrier ∨ (s.port 2).hd =
      .backoff) then 1 else 0) ∧ n = 3 ∧ s.linkUp 2 = false ∧ s.linkUp 2 ≠ true :=
  ⟨({ (up [(Reg.portStatusLink 2, 0)]) with ports := [(2, { wire := some {}, hd := .carrier, queues := [(3, [{ frames := [{ bytes := [] }, { bytes := [] }], space := 2 }])] })] } : State), _, _, rfl, rfl, by decide +kernel⟩

theorem meets_LinksFollowTheirPorts_12 :
    ∃ s t : State, t = s.setLink 2 false 1 true ∧ s.linkUp 2 = false :=
  ⟨ready, _, rfl, by decide +kernel⟩

theorem meets_LinksFollowTheirPorts_13 :
    ∃ s : State, s.rd (Reg.portLoopMode 1) = 3 :=
  ⟨(up [(Reg.portLoopMode 1, 3)]), by decide +kernel⟩

theorem meets_LinksFollowTheirPorts_14 :
    ∃ s : State, s.linkUp 1 = true ∧ s.rd (Reg.portLoopMode 1) = 1 :=
  ⟨(up [(Reg.portLoopMode 1, 1), (Reg.portStatusLink 1, 1)]), by decide +kernel⟩

theorem meets_FramesAreSorted_1 :
    ∃ (s u : State) (cfg : Nat) (f : FrameIn), u = (s.gather.advance (f.q / 4)).lineCounts 1 f ∧ cfg = u.frameCfgAt 1 f.q ∧
      s.portRuns 1 = true ∧ s.linkUp 1 = true ∧ s.rd (Reg.portLoopMode 1) = 0 ∧ f.bytes.length + 4 < 64 :=
  ⟨(up [(Reg.portCfgEnable 1, 1), (Reg.portStatusLink 1, 1)]), _, _, { bytes := List.replicate 59 0 }, rfl, rfl, by decide +kernel⟩

theorem meets_FramesAreSorted_2 :
    ∃ (s u : State) (cfg : Nat) (f : FrameIn), u = (s.gather.advance (f.q / 4)).lineCounts 1 f ∧ cfg = u.frameCfgAt 1 f.q ∧
      s.portRuns 1 = true ∧ s.linkUp 1 = true ∧ s.rd (Reg.portLoopMode 1) = 0 ∧ 64 ≤ f.bytes.length + 4 ∧ limit cfg (tagged cfg
      f.bytes) < f.bytes.length + 4 :=
  ⟨(up [(Reg.portCfgEnable 1, 1), (Reg.portStatusLink 1, 1)]), _, _, { bytes := List.replicate 1515 0 }, rfl, rfl, by decide +kernel⟩

theorem meets_FramesAreSorted_3 :
    ∃ (s u : State) (cfg : Nat) (f : FrameIn), u = (s.gather.advance (f.q / 4)).lineCounts 2 f ∧ cfg = u.frameCfgAt 2 f.q ∧
      s.portRuns 2 = true ∧ s.linkUp 2 = true ∧ s.rd (Reg.portLoopMode 2) = 0 ∧ 64 ≤ f.bytes.length + 4 ∧ f.bytes.length + 4 ≤
      limit cfg (tagged cfg f.bytes) ∧ f.fcsOk = false ∧ u.rd (Reg.portStatusSpeed 2) ≠ 2 ∧ f.odd = true :=
  ⟨(up [(Reg.mCfgEnable, 1), (Reg.portStatusLink 2, 1)]), _, _, { bytes := List.replicate 60 0, fcsOk := false, odd := true }, rfl, rfl, by decide +kernel⟩

theorem meets_FramesAreSorted_4 :
    ∃ (s u : State) (cfg : Nat) (f : FrameIn), u = (s.gather.advance (f.q / 4)).lineCounts 1 f ∧ cfg = u.frameCfgAt 1 f.q ∧
      s.portRuns 1 = true ∧ s.linkUp 1 = true ∧ s.rd (Reg.portLoopMode 1) = 0 ∧ 64 ≤ f.bytes.length + 4 ∧ f.bytes.length + 4 ≤
      limit cfg (tagged cfg f.bytes) ∧ f.fcsOk = false ∧ f.odd = false :=
  ⟨(up [(Reg.portCfgEnable 1, 1), (Reg.portStatusLink 1, 1)]), _, _, { bytes := List.replicate 1514 0, fcsOk := false }, rfl, rfl, by decide +kernel⟩

theorem meets_FramesAreSorted_5 :
    ∃ (s u : State) (cfg : Nat) (f : FrameIn), u = (s.gather.advance (f.q / 4)).lineCounts 1 f ∧ cfg = u.frameCfgAt 1 f.q ∧
      s.portRuns 1 = true ∧ s.linkUp 1 = true ∧ s.rd (Reg.portLoopMode 1) = 0 ∧ 64 ≤ f.bytes.length + 4 ∧ f.bytes.length + 4 ≤
      limit cfg (tagged cfg f.bytes) ∧ f.fcsOk = true :=
  ⟨(up [(Reg.portCfgEnable 1, 1), (Reg.portStatusLink 1, 1)]), _, _, { bytes := List.replicate 1514 0 }, rfl, rfl, by decide +kernel⟩

theorem meets_FramesAreSorted_6 :
    ∃ (s : State) (f : FrameIn), s.portRuns 1 = true ∧ s.linkUp 1 = true ∧ at_ f.bytes 12 2 = 0x8809 ∧ at_ f.bytes 14 1 = 0x0A :=
  ⟨(up [(Reg.portCfgEnable 1, 1), (Reg.portStatusLink 1, 1)]), { bytes := List.replicate 12 0 ++ [0x88, 0x09, 0x0A] }, by decide +kernel⟩

theorem meets_FramesAreSorted_7 :
    ready.portRuns 1 = false ∧ ready.linkUp 1 = false ∧ (ready.port 1).wire = none :=
  by decide +kernel

theorem meets_FramesAreSorted_8 :
    ∃ (s : State), (s.port 1).wire = some {} ∧ (s.port 1).hd = .sending ∧ s.locked = true :=
  ⟨({ ready with ports := [(1, { wire := some {}, hd := .sending })] } : State), by decide +kernel⟩

theorem meets_FramesAreSorted_9 :
    ∃ (s : State), s.rd (Reg.portCfgFec 1) ≠ 0 :=
  ⟨(up [(Reg.portCfgFec 1, 1)]), by decide +kernel⟩

theorem meets_SendsAreQueued_1 :
    (up [(Reg.mCfgEnable, 1), (Reg.portStatusLink 2, 1)]).Accepts .host (Reg.txqSendSegSize 2 3).key ⟨.blob, (natBe 4 0 ++
      List.replicate 14 0)⟩ .txqSend 2 3 0 :=
  acc rfl (by decide +kernel)

theorem meets_SendsAreQueued_2 :
    ready.on Reg.deviceStatusChipReady = true ∧ ready.catchUp = ready ∧ ready.named (Reg.txqSendSegSize 2 3).key ⟨.blob, (natBe 4
      0 ++ List.replicate 14 0)⟩ = some (.txqSend, 2, 3, 0) ∧ ready.judge .host (itemOf (Reg.txqSendSegSize 2 3).key ⟨.blob,
      (natBe 4 0 ++ List.replicate 14 0)⟩) = .conflict :=
  ⟨by decide +kernel, quiet_of rfl, by decide +kernel, by decide +kernel⟩

theorem meets_SendsAreQueued_3 :
    (up [(Reg.mCfgEnable, 1), (Reg.portStatusLink 2, 1)]).Accepts .host (Reg.txqSendSegSize 2 3).key ⟨.blob, (natBe 4 1073743296
      ++ udpSend)⟩ .txqSend 2 3 (blobNat ((natBe 4 1073743296 ++ udpSend).take 32)) ∧ field (blobNat ((natBe 4 1073743296 ++
      udpSend).take 4)) 30 1 = 1 :=
  ⟨acc rfl (by decide +kernel), by decide +kernel⟩

theorem meets_SendsAreQueued_4 :
    ready.named (Reg.txqSendSegSize 2 3).key ⟨.blob, natBe 4 0⟩ = some (.txqSend, 2, 3, 0) ∧ ready.judge .host (itemOf
      (Reg.txqSendSegSize 2 3).key ⟨.blob, natBe 4 0⟩) = .outOfRange :=
  by decide +kernel

theorem meets_SendsAreQueued_5 :
    segOk udpSend false 1472 1518 1522 = true ∧ (segments udpSend false 1472).length = 6 ∧ 5 < 6 :=
  by decide +kernel

theorem meets_SendsAreQueued_6 :
    segOk tcpSend true 100 1518 1522 = true ∧ (segments tcpSend true 100).length = 3 :=
  by decide +kernel

theorem meets_SendsAreQueued_7 :
    segOk (udpSend.take 42) false 1 1518 1522 = true ∧ (segments (udpSend.take 42) false 1).length = 1 :=
  by decide +kernel

theorem meets_StreamSettings_1 :
    (up [(Reg.domainRunRunning 3, 1), (Reg.portCfgEnable 0, 1), (Reg.rxStatusState 255, 0), (⟨(Reg.rxCtrlEnable 255).key, 0, 32⟩,
      138451572)]).Accepts .host (Reg.rxCtrlEnable 255).key (val .u32 4 138451573) .rxCtrl 255 0 138451573 ∧ bit 138451573 0 =
      true ∧ ((up [(Reg.domainRunRunning 3, 1), (Reg.portCfgEnable 0, 1), (Reg.rxStatusState 255, 0), (⟨(Reg.rxCtrlEnable
      255).key, 0, 32⟩, 138451572)]).takes (Reg.rxCtrlEnable 255).key 138451573).rxState 255 = 0 ∧ bit 138451573 1 = false :=
  ⟨acc rfl (by decide +kernel), by decide +kernel⟩

theorem meets_StreamSettings_2 :
    (up [(Reg.domainRunRunning 3, 1), (Reg.portCfgEnable 0, 1), (Reg.rxStatusState 255, 0), (⟨(Reg.rxCtrlEnable 255).key, 0, 32⟩,
      138451572)]).Accepts .host (Reg.rxCtrlEnable 255).key (val .u32 4 138451575) .rxCtrl 255 0 138451575 ∧ bit 138451575 0 =
      true ∧ ((up [(Reg.domainRunRunning 3, 1), (Reg.portCfgEnable 0, 1), (Reg.rxStatusState 255, 0), (⟨(Reg.rxCtrlEnable
      255).key, 0, 32⟩, 138451572)]).takes (Reg.rxCtrlEnable 255).key 138451575).rxState 255 = 0 ∧ bit 138451575 1 = true :=
  ⟨acc rfl (by decide +kernel), by decide +kernel⟩

theorem meets_StreamSettings_3 :
    (up [(Reg.domainRunRunning 3, 1), (Reg.portCfgEnable 0, 1), (Reg.rxStatusState 255, 5), (⟨(Reg.rxCtrlEnable 255).key, 0, 32⟩,
      138451573)]).Accepts .host (Reg.rxCtrlEnable 255).key (val .u32 4 138451573) .rxCtrl 255 0 138451573 ∧ bit 138451573 0 =
      true ∧ ((up [(Reg.domainRunRunning 3, 1), (Reg.portCfgEnable 0, 1), (Reg.rxStatusState 255, 5), (⟨(Reg.rxCtrlEnable
      255).key, 0, 32⟩, 138451573)]).takes (Reg.rxCtrlEnable 255).key 138451573).rxState 255 = 5 ∧ bit ((up [(Reg.domainRunRunning
      3, 1), (Reg.portCfgEnable 0, 1), (Reg.rxStatusState 255, 5), (⟨(Reg.rxCtrlEnable 255).key, 0, 32⟩, 138451573)]).get
      (Reg.rxCtrlEnable 255).key) 0 = true :=
  ⟨acc rfl (by decide +kernel), by decide +kernel⟩

theorem meets_StreamSettings_4 :
    ({ (up [(Reg.domainRunRunning 3, 1), (Reg.portCfgEnable 0, 1), (Reg.rxStatusState 255, 5), (⟨(Reg.rxCtrlEnable 255).key, 0,
      32⟩, 138451572)]) with stream := { rx := [(255, { here := true })] } } : State).Accepts .host (Reg.rxCtrlEnable 255).key
      (val .u32 4 138451573) .rxCtrl 255 0 138451573 ∧ bit 138451573 0 = true ∧ (({ (up [(Reg.domainRunRunning 3, 1),
      (Reg.portCfgEnable 0, 1), (Reg.rxStatusState 255, 5), (⟨(Reg.rxCtrlEnable 255).key, 0, 32⟩, 138451572)]) with
      stream := { rx := [(255, { here := true })] } } : State).takes (Reg.rxCtrlEnable 255).key 138451573).rxState 255 = 5 ∧ bit
      (({ (up [(Reg.domainRunRunning 3, 1), (Reg.portCfgEnable 0, 1), (Reg.rxStatusState 255, 5), (⟨(Reg.rxCtrlEnable 255).key, 0,
      32⟩, 138451572)]) with stream := { rx := [(255, { here := true })] } } : State).get (Reg.rxCtrlEnable 255).key) 0 = false ∧
      ((({ (up [(Reg.domainRunRunning 3, 1), (Reg.portCfgEnable 0, 1), (Reg.rxStatusState 255, 5), (⟨(Reg.rxCtrlEnable 255).key,
      0, 32⟩, 138451572)]) with stream := { rx := [(255, { here := true })] } } : State).takes (Reg.rxCtrlEnable 255).key
      138451573).rx 255).here = true :=
  ⟨acc rfl (by decide +kernel), by decide +kernel⟩

theorem meets_StreamSettings_5 :
    ({ (up [(Reg.domainRunRunning 3, 1), (Reg.portCfgEnable 0, 1), (Reg.rxStatusState 255, 5), (⟨(Reg.rxCtrlEnable 255).key, 0,
      32⟩, 138451572)]) with stream := { rx := [(255, { here := false })] } } : State).Accepts .host (Reg.rxCtrlEnable 255).key
      (val .u32 4 138451573) .rxCtrl 255 0 138451573 ∧ bit 138451573 0 = true ∧ (({ (up [(Reg.domainRunRunning 3, 1),
      (Reg.portCfgEnable 0, 1), (Reg.rxStatusState 255, 5), (⟨(Reg.rxCtrlEnable 255).key, 0, 32⟩, 138451572)]) with
      stream := { rx := [(255, { here := false })] } } : State).takes (Reg.rxCtrlEnable 255).key 138451573).rxState 255 = 5 ∧ bit
      (({ (up [(Reg.domainRunRunning 3, 1), (Reg.portCfgEnable 0, 1), (Reg.rxStatusState 255, 5), (⟨(Reg.rxCtrlEnable 255).key, 0,
      32⟩, 138451572)]) with stream := { rx := [(255, { here := false })] } } : State).get (Reg.rxCtrlEnable 255).key) 0 = false ∧
      ((({ (up [(Reg.domainRunRunning 3, 1), (Reg.portCfgEnable 0, 1), (Reg.rxStatusState 255, 5), (⟨(Reg.rxCtrlEnable 255).key,
      0, 32⟩, 138451572)]) with stream := { rx := [(255, { here := false })] } } : State).takes (Reg.rxCtrlEnable 255).key
      138451573).rx 255).here = false :=
  ⟨acc rfl (by decide +kernel), by decide +kernel⟩

theorem meets_StreamSettings_6 :
    (up [(Reg.domainRunRunning 3, 1), (Reg.portCfgEnable 0, 1), (Reg.rxStatusState 255, 6), (⟨(Reg.rxCtrlEnable 255).key, 0, 32⟩,
      138451572)]).Accepts .host (Reg.rxCtrlEnable 255).key (val .u32 4 138451573) .rxCtrl 255 0 138451573 ∧ bit 138451573 0 =
      true ∧ ((up [(Reg.domainRunRunning 3, 1), (Reg.portCfgEnable 0, 1), (Reg.rxStatusState 255, 6), (⟨(Reg.rxCtrlEnable
      255).key, 0, 32⟩, 138451572)]).takes (Reg.rxCtrlEnable 255).key 138451573).rxState 255 = 6 :=
  ⟨acc rfl (by decide +kernel), by decide +kernel⟩

theorem meets_StreamSettings_7 :
    (up [(Reg.domainRunRunning 3, 1), (Reg.portCfgEnable 0, 1), (Reg.rxStatusState 255, 1), (⟨(Reg.rxCtrlEnable 255).key, 0, 32⟩,
      138451573)]).Accepts .host (Reg.rxCtrlEnable 255).key (val .u32 4 138451573) .rxCtrl 255 0 138451573 ∧ bit 138451573 0 =
      true ∧ 1 ≤ ((up [(Reg.domainRunRunning 3, 1), (Reg.portCfgEnable 0, 1), (Reg.rxStatusState 255, 1), (⟨(Reg.rxCtrlEnable
      255).key, 0, 32⟩, 138451573)]).takes (Reg.rxCtrlEnable 255).key 138451573).rxState 255 ∧ ((up [(Reg.domainRunRunning 3, 1),
      (Reg.portCfgEnable 0, 1), (Reg.rxStatusState 255, 1), (⟨(Reg.rxCtrlEnable 255).key, 0, 32⟩, 138451573)]).takes
      (Reg.rxCtrlEnable 255).key 138451573).rxState 255 < 5 :=
  ⟨acc rfl (by decide +kernel), by decide +kernel⟩

theorem meets_StreamSettings_8 :
    (up [(Reg.domainRunRunning 3, 1), (Reg.portCfgEnable 0, 1), (Reg.rxStatusState 255, 1), (⟨(Reg.rxCtrlEnable 255).key, 0, 32⟩,
      138451573)]).Accepts .host (Reg.rxCtrlEnable 255).key (val .u32 4 138451572) .rxCtrl 255 0 138451572 ∧ bit 138451572 0 =
      false ∧ ((up [(Reg.domainRunRunning 3, 1), (Reg.portCfgEnable 0, 1), (Reg.rxStatusState 255, 1), (⟨(Reg.rxCtrlEnable
      255).key, 0, 32⟩, 138451573)]).takes (Reg.rxCtrlEnable 255).key 138451572).rxState 255 = 1 :=
  ⟨acc rfl (by decide +kernel), by decide +kernel⟩

theorem meets_StreamSettings_9 :
    (up [(Reg.domainRunRunning 3, 1), (Reg.portCfgEnable 0, 1), (Reg.rxStatusState 255, 2), (⟨(Reg.rxCtrlEnable 255).key, 0, 32⟩,
      138451573)]).Accepts .host (Reg.rxCtrlEnable 255).key (val .u32 4 138451572) .rxCtrl 255 0 138451572 ∧ bit 138451572 0 =
      false ∧ ((up [(Reg.domainRunRunning 3, 1), (Reg.portCfgEnable 0, 1), (Reg.rxStatusState 255, 2), (⟨(Reg.rxCtrlEnable
      255).key, 0, 32⟩, 138451573)]).takes (Reg.rxCtrlEnable 255).key 138451572).rxState 255 = 2 :=
  ⟨acc rfl (by decide +kernel), by decide +kernel⟩

theorem meets_StreamSettings_10 :
    (up [(Reg.domainRunRunning 3, 1), (Reg.portCfgEnable 0, 1), (Reg.rxStatusState 255, 0), (⟨(Reg.rxCtrlEnable 255).key, 0, 32⟩,
      138451572)]).Accepts .host (Reg.rxCtrlEnable 255).key (val .u32 4 138451572) .rxCtrl 255 0 138451572 ∧ bit 138451572 0 =
      false ∧ ((up [(Reg.domainRunRunning 3, 1), (Reg.portCfgEnable 0, 1), (Reg.rxStatusState 255, 0), (⟨(Reg.rxCtrlEnable
      255).key, 0, 32⟩, 138451572)]).takes (Reg.rxCtrlEnable 255).key 138451572).rxState 255 = 0 :=
  ⟨acc rfl (by decide +kernel), by decide +kernel⟩

theorem meets_StreamSettings_11 :
    (up [(Reg.domainRunRunning 3, 1), (Reg.portCfgEnable 0, 1), (Reg.rxStatusState 255, 3), (⟨(Reg.rxCtrlEnable 255).key, 0, 32⟩,
      138451573)]).Accepts .host (Reg.rxCtrlEnable 255).key (val .u32 4 138451572) .rxCtrl 255 0 138451572 ∧ bit 138451572 0 =
      false ∧ ((up [(Reg.domainRunRunning 3, 1), (Reg.portCfgEnable 0, 1), (Reg.rxStatusState 255, 3), (⟨(Reg.rxCtrlEnable
      255).key, 0, 32⟩, 138451573)]).takes (Reg.rxCtrlEnable 255).key 138451572).rxState 255 = 3 :=
  ⟨acc rfl (by decide +kernel), by decide +kernel⟩

theorem meets_StreamSettings_12 :
    (up [(Reg.domainRunRunning 3, 1), (Reg.portCfgEnable 0, 1), (Reg.rxStatusState 255, 5), (⟨(Reg.rxCtrlEnable 255).key, 0, 32⟩,
      138451572)]).Accepts .host (Reg.rxCtrlEnable 255).key (val .u32 4 138451572) .rxCtrl 255 0 138451572 ∧ bit 138451572 0 =
      false ∧ ((up [(Reg.domainRunRunning 3, 1), (Reg.portCfgEnable 0, 1), (Reg.rxStatusState 255, 5), (⟨(Reg.rxCtrlEnable
      255).key, 0, 32⟩, 138451572)]).takes (Reg.rxCtrlEnable 255).key 138451572).rxState 255 = 5 :=
  ⟨acc rfl (by decide +kernel), by decide +kernel⟩

theorem meets_StreamSettings_13 :
    (up [(Reg.domainRunRunning 3, 1), (Reg.portCfgEnable 0, 1), (Reg.portIpv4Addr 0, 1), (Reg.txAddrADstIp 255, 1),
      (Reg.txStatusState 255, 0), (⟨(Reg.txCtrlEnable 255).key, 0, 32⟩, 134257268)]).Accepts .host (Reg.txCtrlEnable 255).key (val
      .u32 4 134257269) .txCtrl 255 0 134257269 ∧ bit 134257269 0 = true ∧ ((up [(Reg.domainRunRunning 3, 1), (Reg.portCfgEnable
      0, 1), (Reg.portIpv4Addr 0, 1), (Reg.txAddrADstIp 255, 1), (Reg.txStatusState 255, 0), (⟨(Reg.txCtrlEnable 255).key, 0, 32⟩,
      134257268)]).takes (Reg.txCtrlEnable 255).key 134257269).txState 255 = 0 ∧ bit 134257269 1 = false :=
  ⟨acc rfl (by decide +kernel), by decide +kernel⟩

theorem meets_StreamSettings_14 :
    (up [(Reg.domainRunRunning 3, 1), (Reg.portCfgEnable 0, 1), (Reg.portIpv4Addr 0, 1), (Reg.txAddrADstIp 255, 1),
      (Reg.txStatusState 255, 0), (⟨(Reg.txCtrlEnable 255).key, 0, 32⟩, 134257268)]).Accepts .host (Reg.txCtrlEnable 255).key (val
      .u32 4 134257271) .txCtrl 255 0 134257271 ∧ bit 134257271 0 = true ∧ ((up [(Reg.domainRunRunning 3, 1), (Reg.portCfgEnable
      0, 1), (Reg.portIpv4Addr 0, 1), (Reg.txAddrADstIp 255, 1), (Reg.txStatusState 255, 0), (⟨(Reg.txCtrlEnable 255).key, 0, 32⟩,
      134257268)]).takes (Reg.txCtrlEnable 255).key 134257271).txState 255 = 0 ∧ bit 134257271 1 = true :=
  ⟨acc rfl (by decide +kernel), by decide +kernel⟩

theorem meets_StreamSettings_15 :
    (up [(Reg.domainRunRunning 3, 1), (Reg.portCfgEnable 0, 1), (Reg.portIpv4Addr 0, 1), (Reg.txAddrADstIp 255, 1),
      (Reg.txStatusState 255, 4), (⟨(Reg.txCtrlEnable 255).key, 0, 32⟩, 134257268)]).Accepts .host (Reg.txCtrlEnable 255).key (val
      .u32 4 134257269) .txCtrl 255 0 134257269 ∧ bit 134257269 0 = true ∧ ((up [(Reg.domainRunRunning 3, 1), (Reg.portCfgEnable
      0, 1), (Reg.portIpv4Addr 0, 1), (Reg.txAddrADstIp 255, 1), (Reg.txStatusState 255, 4), (⟨(Reg.txCtrlEnable 255).key, 0, 32⟩,
      134257268)]).takes (Reg.txCtrlEnable 255).key 134257269).txState 255 = 4 :=
  ⟨acc rfl (by decide +kernel), by decide +kernel⟩

theorem meets_StreamSettings_16 :
    (up [(Reg.domainRunRunning 3, 1), (Reg.portCfgEnable 0, 1), (Reg.portIpv4Addr 0, 1), (Reg.txAddrADstIp 255, 1),
      (Reg.txStatusState 255, 5), (⟨(Reg.txCtrlEnable 255).key, 0, 32⟩, 134257268)]).Accepts .host (Reg.txCtrlEnable 255).key (val
      .u32 4 134257269) .txCtrl 255 0 134257269 ∧ bit 134257269 0 = true ∧ ((up [(Reg.domainRunRunning 3, 1), (Reg.portCfgEnable
      0, 1), (Reg.portIpv4Addr 0, 1), (Reg.txAddrADstIp 255, 1), (Reg.txStatusState 255, 5), (⟨(Reg.txCtrlEnable 255).key, 0, 32⟩,
      134257268)]).takes (Reg.txCtrlEnable 255).key 134257269).txState 255 = 5 :=
  ⟨acc rfl (by decide +kernel), by decide +kernel⟩

theorem meets_StreamSettings_17 :
    (up [(Reg.domainRunRunning 3, 1), (Reg.portCfgEnable 0, 1), (Reg.portIpv4Addr 0, 1), (Reg.txAddrADstIp 255, 1),
      (Reg.txStatusState 255, 1), (⟨(Reg.txCtrlEnable 255).key, 0, 32⟩, 134257269)]).Accepts .host (Reg.txCtrlEnable 255).key (val
      .u32 4 134257269) .txCtrl 255 0 134257269 ∧ bit 134257269 0 = true ∧ 1 ≤ ((up [(Reg.domainRunRunning 3, 1),
      (Reg.portCfgEnable 0, 1), (Reg.portIpv4Addr 0, 1), (Reg.txAddrADstIp 255, 1), (Reg.txStatusState 255, 1),
      (⟨(Reg.txCtrlEnable 255).key, 0, 32⟩, 134257269)]).takes (Reg.txCtrlEnable 255).key 134257269).txState 255 ∧ ((up
      [(Reg.domainRunRunning 3, 1), (Reg.portCfgEnable 0, 1), (Reg.portIpv4Addr 0, 1), (Reg.txAddrADstIp 255, 1),
      (Reg.txStatusState 255, 1), (⟨(Reg.txCtrlEnable 255).key, 0, 32⟩, 134257269)]).takes (Reg.txCtrlEnable 255).key
      134257269).txState 255 < 4 :=
  ⟨acc rfl (by decide +kernel), by decide +kernel⟩

theorem meets_StreamSettings_18 :
    (up [(Reg.domainRunRunning 3, 1), (Reg.portCfgEnable 0, 1), (Reg.portIpv4Addr 0, 1), (Reg.txAddrADstIp 255, 1),
      (Reg.txStatusState 255, 1), (⟨(Reg.txCtrlEnable 255).key, 0, 32⟩, 134257269)]).Accepts .host (Reg.txCtrlEnable 255).key (val
      .u32 4 134257268) .txCtrl 255 0 134257268 ∧ bit 134257268 0 = false ∧ ((up [(Reg.domainRunRunning 3, 1), (Reg.portCfgEnable
      0, 1), (Reg.portIpv4Addr 0, 1), (Reg.txAddrADstIp 255, 1), (Reg.txStatusState 255, 1), (⟨(Reg.txCtrlEnable 255).key, 0, 32⟩,
      134257269)]).takes (Reg.txCtrlEnable 255).key 134257268).txState 255 = 1 :=
  ⟨acc rfl (by decide +kernel), by decide +kernel⟩

theorem meets_StreamSettings_19 :
    (up [(Reg.domainRunRunning 3, 1), (Reg.portCfgEnable 0, 1), (Reg.portIpv4Addr 0, 1), (Reg.txAddrADstIp 255, 1),
      (Reg.txStatusState 255, 2), (⟨(Reg.txCtrlEnable 255).key, 0, 32⟩, 134257269)]).Accepts .host (Reg.txCtrlEnable 255).key (val
      .u32 4 134257268) .txCtrl 255 0 134257268 ∧ bit 134257268 0 = false ∧ ((up [(Reg.domainRunRunning 3, 1), (Reg.portCfgEnable
      0, 1), (Reg.portIpv4Addr 0, 1), (Reg.txAddrADstIp 255, 1), (Reg.txStatusState 255, 2), (⟨(Reg.txCtrlEnable 255).key, 0, 32⟩,
      134257269)]).takes (Reg.txCtrlEnable 255).key 134257268).txState 255 = 2 :=
  ⟨acc rfl (by decide +kernel), by decide +kernel⟩

theorem meets_StreamSettings_20 :
    (up [(Reg.domainRunRunning 3, 1), (Reg.portCfgEnable 0, 1), (Reg.portIpv4Addr 0, 1), (Reg.txAddrADstIp 255, 1),
      (Reg.txStatusState 255, 0), (⟨(Reg.txCtrlEnable 255).key, 0, 32⟩, 134257268)]).Accepts .host (Reg.txCtrlEnable 255).key (val
      .u32 4 134257268) .txCtrl 255 0 134257268 ∧ bit 134257268 0 = false ∧ ((up [(Reg.domainRunRunning 3, 1), (Reg.portCfgEnable
      0, 1), (Reg.portIpv4Addr 0, 1), (Reg.txAddrADstIp 255, 1), (Reg.txStatusState 255, 0), (⟨(Reg.txCtrlEnable 255).key, 0, 32⟩,
      134257268)]).takes (Reg.txCtrlEnable 255).key 134257268).txState 255 = 0 :=
  ⟨acc rfl (by decide +kernel), by decide +kernel⟩

theorem meets_StreamSettings_21 :
    (up [(Reg.domainRunRunning 3, 1), (Reg.portCfgEnable 0, 1), (Reg.portIpv4Addr 0, 1), (Reg.txAddrADstIp 255, 1),
      (Reg.txStatusState 255, 3), (⟨(Reg.txCtrlEnable 255).key, 0, 32⟩, 134257269)]).Accepts .host (Reg.txCtrlEnable 255).key (val
      .u32 4 134257268) .txCtrl 255 0 134257268 ∧ bit 134257268 0 = false ∧ ((up [(Reg.domainRunRunning 3, 1), (Reg.portCfgEnable
      0, 1), (Reg.portIpv4Addr 0, 1), (Reg.txAddrADstIp 255, 1), (Reg.txStatusState 255, 3), (⟨(Reg.txCtrlEnable 255).key, 0, 32⟩,
      134257269)]).takes (Reg.txCtrlEnable 255).key 134257268).txState 255 = 3 :=
  ⟨acc rfl (by decide +kernel), by decide +kernel⟩

theorem meets_StreamSettings_22 :
    (up [(Reg.domainRunRunning 3, 1), (Reg.portCfgEnable 0, 1), (Reg.portIpv4Addr 0, 1), (Reg.txAddrADstIp 255, 1),
      (Reg.txStatusState 255, 4), (⟨(Reg.txCtrlEnable 255).key, 0, 32⟩, 134257268)]).Accepts .host (Reg.txCtrlEnable 255).key (val
      .u32 4 134257268) .txCtrl 255 0 134257268 ∧ bit 134257268 0 = false ∧ ((up [(Reg.domainRunRunning 3, 1), (Reg.portCfgEnable
      0, 1), (Reg.portIpv4Addr 0, 1), (Reg.txAddrADstIp 255, 1), (Reg.txStatusState 255, 4), (⟨(Reg.txCtrlEnable 255).key, 0, 32⟩,
      134257268)]).takes (Reg.txCtrlEnable 255).key 134257268).txState 255 = 4 :=
  ⟨acc rfl (by decide +kernel), by decide +kernel⟩

theorem meets_StreamSettings_23 :
    ∃ s : State, s.on (Reg.rxStatusPathA 255) = true :=
  ⟨(up [(Reg.rxStatusPathA 255, 1)]), by decide +kernel⟩

theorem meets_StreamSettings_24 :
    ∃ s : State, s.on (Reg.rxStatusPathB 255) = true :=
  ⟨(up [(Reg.rxStatusPathB 255, 1)]), by decide +kernel⟩

theorem meets_StreamSettings_25 :
    ready.on (Reg.rxStatusPathA 255) = false ∧ ready.txState 255 ≠ 5 ∧ ready.rxState 255 ≠ 6 ∧ (ready.rx 255).hold.active = false :=
  by decide +kernel

theorem meets_StreamSettings_26 :
    ∃ s : State, Sparse.get (fun _ => 0) (s.rx 255).naRun 31 < s.rd Reg.seCfgNaHold * s.domRate (s.rd (Reg.rxCtrlDomain 255)) /
      1000 :=
  ⟨({ (up [(Reg.seCfgNaHold, 1000), (Reg.rxCtrlDomain 255, 3), (Reg.mdCtrlRate 3, 5)]) with stream := { rx := [(255, { naRun := [(31, 191999)] })] } } : State), by decide +kernel⟩

theorem meets_StreamSettings_27 :
    ∃ s : State, s.rd Reg.seCfgNaHold * s.domRate (s.rd (Reg.rxCtrlDomain 255)) / 1000 ≤ Sparse.get (fun _ => 0) (s.rx 255).naRun
      31 ∧ s.rd (Reg.rxCtrlFormat 255) ≠ 3 ∧ 2 * 31 + 1 < 64 :=
  ⟨({ (up [(Reg.seCfgNaHold, 1000), (Reg.rxCtrlDomain 255, 3), (Reg.mdCtrlRate 3, 5)]) with stream := { rx := [(255, { naRun := [(31, 192000)] })] } } : State), by decide +kernel⟩

theorem meets_StreamSettings_28 :
    ∃ s : State, s.rd (Reg.rxCtrlFormat 255) = 3 :=
  ⟨({ (up [(Reg.seCfgNaHold, 1000), (Reg.rxCtrlDomain 255, 3), (Reg.mdCtrlRate 3, 5), (Reg.rxCtrlFormat 255, 3)]) with stream := { rx := [(255, { naRun := [(31, 192000)] })] } } : State), by decide +kernel⟩

theorem meets_StreamSettings_29 :
    ∃ s : State, s.txState 255 = 5 ∧ s.rxState 255 = 6 :=
  ⟨(up [(Reg.txStatusState 255, 5), (Reg.rxStatusState 255, 6)]), by decide +kernel⟩

theorem meets_StreamSettings_30 :
    ∃ s : State, (s.rx 255).hold.active = true ∧ (s.rx 255).hold.count = 0 :=
  ⟨{ ready with stream := { rx := [(255, { hold := { active := true, count := 0 } })] } }, by decide⟩

theorem meets_StreamSettings_31 :
    ∃ s : State, (s.rx 255).hold.active = true ∧ (s.rx 255).hold.count = 1 :=
  ⟨{ ready with stream := { rx := [(255, { hold := { active := true, count := 1 } })] } }, by decide⟩

theorem meets_TdmSettings_1 :
    (up [(Reg.domainRunRunning 3, 1), (Reg.tdmPortCfgDomainValid 47, 1), (Reg.tdmPortCfgDomain 47, 3), (Reg.bankStatusVolt 3, 3),
      (Reg.sideStatusState 47 1, 0), (⟨(Reg.sideCtrlEnable 47 1).key, 0, 32⟩, 9503632)]).Accepts .host (Reg.sideCtrlEnable 47
      1).key (val .u32 4 9503633) .sideCtrl 47 1 9503633 ∧ bit 9503633 0 = true ∧ ((up [(Reg.domainRunRunning 3, 1),
      (Reg.tdmPortCfgDomainValid 47, 1), (Reg.tdmPortCfgDomain 47, 3), (Reg.bankStatusVolt 3, 3), (Reg.sideStatusState 47 1, 0),
      (⟨(Reg.sideCtrlEnable 47 1).key, 0, 32⟩, 9503632)]).takes (Reg.sideCtrlEnable 47 1).key 9503633).on (Reg.sideCtrlEnable 47
      1) = true ∧ ((up [(Reg.domainRunRunning 3, 1), (Reg.tdmPortCfgDomainValid 47, 1), (Reg.tdmPortCfgDomain 47, 3),
      (Reg.bankStatusVolt 3, 3), (Reg.sideStatusState 47 1, 0), (⟨(Reg.sideCtrlEnable 47 1).key, 0, 32⟩, 9503632)]).takes
      (Reg.sideCtrlEnable 47 1).key 9503633).sideState 47 1 = 0 ∧ ((up [(Reg.domainRunRunning 3, 1), (Reg.tdmPortCfgDomainValid
      47, 1), (Reg.tdmPortCfgDomain 47, 3), (Reg.bankStatusVolt 3, 3), (Reg.sideStatusState 47 1, 0), (⟨(Reg.sideCtrlEnable 47
      1).key, 0, 32⟩, 9503632)]).takes (Reg.sideCtrlEnable 47 1).key 9503633).on (Reg.sideCtrlStartMode 47 1) = false :=
  ⟨acc rfl (by decide +kernel), by decide +kernel⟩

theorem meets_TdmSettings_2 :
    (up [(Reg.domainRunRunning 3, 1), (Reg.tdmPortCfgDomainValid 47, 1), (Reg.tdmPortCfgDomain 47, 3), (Reg.bankStatusVolt 3, 3),
      (Reg.sideStatusState 47 1, 0), (⟨(Reg.sideCtrlEnable 47 1).key, 0, 32⟩, 9503632)]).Accepts .host (Reg.sideCtrlEnable 47
      1).key (val .u32 4 9503635) .sideCtrl 47 1 9503635 ∧ bit 9503635 0 = true ∧ ((up [(Reg.domainRunRunning 3, 1),
      (Reg.tdmPortCfgDomainValid 47, 1), (Reg.tdmPortCfgDomain 47, 3), (Reg.bankStatusVolt 3, 3), (Reg.sideStatusState 47 1, 0),
      (⟨(Reg.sideCtrlEnable 47 1).key, 0, 32⟩, 9503632)]).takes (Reg.sideCtrlEnable 47 1).key 9503635).on (Reg.sideCtrlEnable 47
      1) = true ∧ ((up [(Reg.domainRunRunning 3, 1), (Reg.tdmPortCfgDomainValid 47, 1), (Reg.tdmPortCfgDomain 47, 3),
      (Reg.bankStatusVolt 3, 3), (Reg.sideStatusState 47 1, 0), (⟨(Reg.sideCtrlEnable 47 1).key, 0, 32⟩, 9503632)]).takes
      (Reg.sideCtrlEnable 47 1).key 9503635).sideState 47 1 = 0 ∧ ((up [(Reg.domainRunRunning 3, 1), (Reg.tdmPortCfgDomainValid
      47, 1), (Reg.tdmPortCfgDomain 47, 3), (Reg.bankStatusVolt 3, 3), (Reg.sideStatusState 47 1, 0), (⟨(Reg.sideCtrlEnable 47
      1).key, 0, 32⟩, 9503632)]).takes (Reg.sideCtrlEnable 47 1).key 9503635).on (Reg.sideCtrlStartMode 47 1) = true :=
  ⟨acc rfl (by decide +kernel), by decide +kernel⟩

theorem meets_TdmSettings_3 :
    (up [(Reg.domainRunRunning 3, 1), (Reg.tdmPortCfgDomainValid 47, 1), (Reg.tdmPortCfgDomain 47, 3), (Reg.bankStatusVolt 3, 3),
      (Reg.sideStatusState 47 1, 5), (⟨(Reg.sideCtrlEnable 47 1).key, 0, 32⟩, 9503632)]).Accepts .host (Reg.sideCtrlEnable 47
      1).key (val .u32 4 9503633) .sideCtrl 47 1 9503633 ∧ bit 9503633 0 = true ∧ ((up [(Reg.domainRunRunning 3, 1),
      (Reg.tdmPortCfgDomainValid 47, 1), (Reg.tdmPortCfgDomain 47, 3), (Reg.bankStatusVolt 3, 3), (Reg.sideStatusState 47 1, 5),
      (⟨(Reg.sideCtrlEnable 47 1).key, 0, 32⟩, 9503632)]).takes (Reg.sideCtrlEnable 47 1).key 9503633).on (Reg.sideCtrlEnable 47
      1) = true ∧ ((up [(Reg.domainRunRunning 3, 1), (Reg.tdmPortCfgDomainValid 47, 1), (Reg.tdmPortCfgDomain 47, 3),
      (Reg.bankStatusVolt 3, 3), (Reg.sideStatusState 47 1, 5), (⟨(Reg.sideCtrlEnable 47 1).key, 0, 32⟩, 9503632)]).takes
      (Reg.sideCtrlEnable 47 1).key 9503633).sideState 47 1 = 5 :=
  ⟨acc rfl (by decide +kernel), by decide +kernel⟩

theorem meets_TdmSettings_4 :
    (up [(Reg.domainRunRunning 3, 1), (Reg.tdmPortCfgDomainValid 47, 1), (Reg.tdmPortCfgDomain 47, 3), (Reg.bankStatusVolt 3, 3),
      (Reg.sideStatusState 47 1, 4), (⟨(Reg.sideCtrlEnable 47 1).key, 0, 32⟩, 9503633)]).Accepts .host (Reg.sideCtrlEnable 47
      1).key (val .u32 4 9503633) .sideCtrl 47 1 9503633 ∧ bit 9503633 0 = true ∧ ((up [(Reg.domainRunRunning 3, 1),
      (Reg.tdmPortCfgDomainValid 47, 1), (Reg.tdmPortCfgDomain 47, 3), (Reg.bankStatusVolt 3, 3), (Reg.sideStatusState 47 1, 4),
      (⟨(Reg.sideCtrlEnable 47 1).key, 0, 32⟩, 9503633)]).takes (Reg.sideCtrlEnable 47 1).key 9503633).on (Reg.sideCtrlEnable 47
      1) = true ∧ 1 ≤ ((up [(Reg.domainRunRunning 3, 1), (Reg.tdmPortCfgDomainValid 47, 1), (Reg.tdmPortCfgDomain 47, 3),
      (Reg.bankStatusVolt 3, 3), (Reg.sideStatusState 47 1, 4), (⟨(Reg.sideCtrlEnable 47 1).key, 0, 32⟩, 9503633)]).takes
      (Reg.sideCtrlEnable 47 1).key 9503633).sideState 47 1 ∧ ((up [(Reg.domainRunRunning 3, 1), (Reg.tdmPortCfgDomainValid 47,
      1), (Reg.tdmPortCfgDomain 47, 3), (Reg.bankStatusVolt 3, 3), (Reg.sideStatusState 47 1, 4), (⟨(Reg.sideCtrlEnable 47 1).key,
      0, 32⟩, 9503633)]).takes (Reg.sideCtrlEnable 47 1).key 9503633).sideState 47 1 < 5 :=
  ⟨acc rfl (by decide +kernel), by decide +kernel⟩

theorem meets_TdmSettings_5 :
    (up [(Reg.domainRunRunning 3, 1), (Reg.tdmPortCfgDomainValid 47, 1), (Reg.tdmPortCfgDomain 47, 3), (Reg.bankStatusVolt 3, 3),
      (Reg.sideStatusState 47 1, 0), (⟨(Reg.sideCtrlEnable 47 1).key, 0, 32⟩, 9503632)]).Accepts .host (Reg.sideCtrlEnable 47
      1).key (val .u32 4 9503632) .sideCtrl 47 1 9503632 ∧ bit 9503632 0 = false ∧ ((up [(Reg.domainRunRunning 3, 1),
      (Reg.tdmPortCfgDomainValid 47, 1), (Reg.tdmPortCfgDomain 47, 3), (Reg.bankStatusVolt 3, 3), (Reg.sideStatusState 47 1, 0),
      (⟨(Reg.sideCtrlEnable 47 1).key, 0, 32⟩, 9503632)]).takes (Reg.sideCtrlEnable 47 1).key 9503632).on (Reg.sideCtrlEnable 47
      1) = false ∧ ((up [(Reg.domainRunRunning 3, 1), (Reg.tdmPortCfgDomainValid 47, 1), (Reg.tdmPortCfgDomain 47, 3),
      (Reg.bankStatusVolt 3, 3), (Reg.sideStatusState 47 1, 0), (⟨(Reg.sideCtrlEnable 47 1).key, 0, 32⟩, 9503632)]).takes
      (Reg.sideCtrlEnable 47 1).key 9503632).sideState 47 1 = 0 :=
  ⟨acc rfl (by decide +kernel), by decide +kernel⟩

theorem meets_TdmSettings_6 :
    (up [(Reg.domainRunRunning 3, 1), (Reg.tdmPortCfgDomainValid 47, 1), (Reg.tdmPortCfgDomain 47, 3), (Reg.bankStatusVolt 3, 3),
      (Reg.sideStatusState 47 1, 1), (⟨(Reg.sideCtrlEnable 47 1).key, 0, 32⟩, 9503633)]).Accepts .host (Reg.sideCtrlEnable 47
      1).key (val .u32 4 9503632) .sideCtrl 47 1 9503632 ∧ bit 9503632 0 = false ∧ ((up [(Reg.domainRunRunning 3, 1),
      (Reg.tdmPortCfgDomainValid 47, 1), (Reg.tdmPortCfgDomain 47, 3), (Reg.bankStatusVolt 3, 3), (Reg.sideStatusState 47 1, 1),
      (⟨(Reg.sideCtrlEnable 47 1).key, 0, 32⟩, 9503633)]).takes (Reg.sideCtrlEnable 47 1).key 9503632).on (Reg.sideCtrlEnable 47
      1) = false ∧ ((up [(Reg.domainRunRunning 3, 1), (Reg.tdmPortCfgDomainValid 47, 1), (Reg.tdmPortCfgDomain 47, 3),
      (Reg.bankStatusVolt 3, 3), (Reg.sideStatusState 47 1, 1), (⟨(Reg.sideCtrlEnable 47 1).key, 0, 32⟩, 9503633)]).takes
      (Reg.sideCtrlEnable 47 1).key 9503632).sideState 47 1 = 1 :=
  ⟨acc rfl (by decide +kernel), by decide +kernel⟩

theorem meets_TdmSettings_7 :
    (up [(Reg.domainRunRunning 3, 1), (Reg.tdmPortCfgDomainValid 47, 1), (Reg.tdmPortCfgDomain 47, 3), (Reg.bankStatusVolt 3, 3),
      (Reg.sideStatusState 47 1, 2), (⟨(Reg.sideCtrlEnable 47 1).key, 0, 32⟩, 9503633)]).Accepts .host (Reg.sideCtrlEnable 47
      1).key (val .u32 4 9503632) .sideCtrl 47 1 9503632 ∧ bit 9503632 0 = false ∧ ((up [(Reg.domainRunRunning 3, 1),
      (Reg.tdmPortCfgDomainValid 47, 1), (Reg.tdmPortCfgDomain 47, 3), (Reg.bankStatusVolt 3, 3), (Reg.sideStatusState 47 1, 2),
      (⟨(Reg.sideCtrlEnable 47 1).key, 0, 32⟩, 9503633)]).takes (Reg.sideCtrlEnable 47 1).key 9503632).on (Reg.sideCtrlEnable 47
      1) = false ∧ ((up [(Reg.domainRunRunning 3, 1), (Reg.tdmPortCfgDomainValid 47, 1), (Reg.tdmPortCfgDomain 47, 3),
      (Reg.bankStatusVolt 3, 3), (Reg.sideStatusState 47 1, 2), (⟨(Reg.sideCtrlEnable 47 1).key, 0, 32⟩, 9503633)]).takes
      (Reg.sideCtrlEnable 47 1).key 9503632).sideState 47 1 = 2 :=
  ⟨acc rfl (by decide +kernel), by decide +kernel⟩

theorem meets_TdmSettings_8 :
    (up [(Reg.domainRunRunning 3, 1), (Reg.tdmPortCfgDomainValid 47, 1), (Reg.tdmPortCfgDomain 47, 3), (Reg.bankStatusVolt 3, 3),
      (Reg.sideStatusState 47 1, 3), (⟨(Reg.sideCtrlEnable 47 1).key, 0, 32⟩, 9503633)]).Accepts .host (Reg.sideCtrlEnable 47
      1).key (val .u32 4 9503632) .sideCtrl 47 1 9503632 ∧ bit 9503632 0 = false ∧ ((up [(Reg.domainRunRunning 3, 1),
      (Reg.tdmPortCfgDomainValid 47, 1), (Reg.tdmPortCfgDomain 47, 3), (Reg.bankStatusVolt 3, 3), (Reg.sideStatusState 47 1, 3),
      (⟨(Reg.sideCtrlEnable 47 1).key, 0, 32⟩, 9503633)]).takes (Reg.sideCtrlEnable 47 1).key 9503632).on (Reg.sideCtrlEnable 47
      1) = false ∧ ((up [(Reg.domainRunRunning 3, 1), (Reg.tdmPortCfgDomainValid 47, 1), (Reg.tdmPortCfgDomain 47, 3),
      (Reg.bankStatusVolt 3, 3), (Reg.sideStatusState 47 1, 3), (⟨(Reg.sideCtrlEnable 47 1).key, 0, 32⟩, 9503633)]).takes
      (Reg.sideCtrlEnable 47 1).key 9503632).sideState 47 1 = 3 :=
  ⟨acc rfl (by decide +kernel), by decide +kernel⟩

theorem meets_TdmSettings_9 :
    (up [(Reg.domainRunRunning 3, 1), (Reg.tdmPortCfgDomainValid 47, 1), (Reg.tdmPortCfgDomain 47, 3), (Reg.bankStatusVolt 3, 3),
      (Reg.sideStatusState 47 1, 4), (⟨(Reg.sideCtrlEnable 47 1).key, 0, 32⟩, 9503633)]).Accepts .host (Reg.sideCtrlEnable 47
      1).key (val .u32 4 9503632) .sideCtrl 47 1 9503632 ∧ bit 9503632 0 = false ∧ ((up [(Reg.domainRunRunning 3, 1),
      (Reg.tdmPortCfgDomainValid 47, 1), (Reg.tdmPortCfgDomain 47, 3), (Reg.bankStatusVolt 3, 3), (Reg.sideStatusState 47 1, 4),
      (⟨(Reg.sideCtrlEnable 47 1).key, 0, 32⟩, 9503633)]).takes (Reg.sideCtrlEnable 47 1).key 9503632).on (Reg.sideCtrlEnable 47
      1) = false ∧ ((up [(Reg.domainRunRunning 3, 1), (Reg.tdmPortCfgDomainValid 47, 1), (Reg.tdmPortCfgDomain 47, 3),
      (Reg.bankStatusVolt 3, 3), (Reg.sideStatusState 47 1, 4), (⟨(Reg.sideCtrlEnable 47 1).key, 0, 32⟩, 9503633)]).takes
      (Reg.sideCtrlEnable 47 1).key 9503632).sideState 47 1 = 4 :=
  ⟨acc rfl (by decide +kernel), by decide +kernel⟩

theorem meets_TdmSettings_10 :
    (up [(Reg.domainRunRunning 3, 1), (Reg.tdmPortCfgDomainValid 47, 1), (Reg.tdmPortCfgDomain 47, 3), (Reg.bankStatusVolt 3, 3),
      (Reg.sideStatusState 47 1, 5), (⟨(Reg.sideCtrlEnable 47 1).key, 0, 32⟩, 9503633)]).Accepts .host (Reg.sideCtrlEnable 47
      1).key (val .u32 4 9503632) .sideCtrl 47 1 9503632 ∧ bit 9503632 0 = false ∧ ((up [(Reg.domainRunRunning 3, 1),
      (Reg.tdmPortCfgDomainValid 47, 1), (Reg.tdmPortCfgDomain 47, 3), (Reg.bankStatusVolt 3, 3), (Reg.sideStatusState 47 1, 5),
      (⟨(Reg.sideCtrlEnable 47 1).key, 0, 32⟩, 9503633)]).takes (Reg.sideCtrlEnable 47 1).key 9503632).on (Reg.sideCtrlEnable 47
      1) = false ∧ ((up [(Reg.domainRunRunning 3, 1), (Reg.tdmPortCfgDomainValid 47, 1), (Reg.tdmPortCfgDomain 47, 3),
      (Reg.bankStatusVolt 3, 3), (Reg.sideStatusState 47 1, 5), (⟨(Reg.sideCtrlEnable 47 1).key, 0, 32⟩, 9503633)]).takes
      (Reg.sideCtrlEnable 47 1).key 9503632).sideState 47 1 = 5 :=
  ⟨acc rfl (by decide +kernel), by decide +kernel⟩

theorem meets_TdmSettings_11 :
    (up [(Reg.domainRunRunning 3, 1), (Reg.tdmPortCfgDomainValid 47, 1), (Reg.tdmPortCfgDomain 47, 3), (Reg.bankStatusVolt 3, 3),
      (Reg.sideStatusState 47 1, 2), (⟨(Reg.sideCtrlEnable 47 1).key, 0, 32⟩, 9503632)]).Accepts .host (Reg.maskCommitCmd 47
      1).key (val .u8 1 1) .maskCommit 47 1 1 ∧ ((up [(Reg.domainRunRunning 3, 1), (Reg.tdmPortCfgDomainValid 47, 1),
      (Reg.tdmPortCfgDomain 47, 3), (Reg.bankStatusVolt 3, 3), (Reg.sideStatusState 47 1, 2), (⟨(Reg.sideCtrlEnable 47 1).key, 0,
      32⟩, 9503632)]).takes (Reg.maskCommitCmd 47 1).key 1).sideState 47 1 < 3 :=
  ⟨acc rfl (by decide +kernel), by decide +kernel⟩

theorem meets_TdmSettings_12 :
    ({ (up [(Reg.domainRunRunning 3, 1), (Reg.tdmPortCfgDomainValid 47, 1), (Reg.tdmPortCfgDomain 47, 3), (Reg.bankStatusVolt 3,
      3), (Reg.sideStatusState 47 1, 3), (⟨(Reg.sideCtrlEnable 47 1).key, 0, 32⟩, 9503632)]) with
      tdm := { sides := [(95, { commit := some 0 })] } } : State).Accepts .host (Reg.maskCommitCmd 47 1).key (val .u8 1 1)
      .maskCommit 47 1 1 ∧ 3 ≤ (({ (up [(Reg.domainRunRunning 3, 1), (Reg.tdmPortCfgDomainValid 47, 1), (Reg.tdmPortCfgDomain 47,
      3), (Reg.bankStatusVolt 3, 3), (Reg.sideStatusState 47 1, 3), (⟨(Reg.sideCtrlEnable 47 1).key, 0, 32⟩, 9503632)]) with
      tdm := { sides := [(95, { commit := some 0 })] } } : State).takes (Reg.maskCommitCmd 47 1).key 1).sideState 47 1 ∧ ((({ (up
      [(Reg.domainRunRunning 3, 1), (Reg.tdmPortCfgDomainValid 47, 1), (Reg.tdmPortCfgDomain 47, 3), (Reg.bankStatusVolt 3, 3),
      (Reg.sideStatusState 47 1, 3), (⟨(Reg.sideCtrlEnable 47 1).key, 0, 32⟩, 9503632)]) with
      tdm := { sides := [(95, { commit := some 0 })] } } : State).takes (Reg.maskCommitCmd 47 1).key 1).side 47 1).commit ≠ none :=
  ⟨acc rfl (by decide +kernel), by decide +kernel⟩

theorem meets_TdmSettings_13 :
    (up [(Reg.domainRunRunning 3, 1), (Reg.tdmPortCfgDomainValid 47, 1), (Reg.tdmPortCfgDomain 47, 3), (Reg.bankStatusVolt 3, 3),
      (Reg.sideStatusState 47 1, 3), (⟨(Reg.sideCtrlEnable 47 1).key, 0, 32⟩, 9503632)]).Accepts .host (Reg.maskCommitCmd 47
      1).key (val .u8 1 1) .maskCommit 47 1 1 ∧ 3 ≤ ((up [(Reg.domainRunRunning 3, 1), (Reg.tdmPortCfgDomainValid 47, 1),
      (Reg.tdmPortCfgDomain 47, 3), (Reg.bankStatusVolt 3, 3), (Reg.sideStatusState 47 1, 3), (⟨(Reg.sideCtrlEnable 47 1).key, 0,
      32⟩, 9503632)]).takes (Reg.maskCommitCmd 47 1).key 1).sideState 47 1 ∧ (((up [(Reg.domainRunRunning 3, 1),
      (Reg.tdmPortCfgDomainValid 47, 1), (Reg.tdmPortCfgDomain 47, 3), (Reg.bankStatusVolt 3, 3), (Reg.sideStatusState 47 1, 3),
      (⟨(Reg.sideCtrlEnable 47 1).key, 0, 32⟩, 9503632)]).takes (Reg.maskCommitCmd 47 1).key 1).side 47 1).commit = none ∧ ((up
      [(Reg.domainRunRunning 3, 1), (Reg.tdmPortCfgDomainValid 47, 1), (Reg.tdmPortCfgDomain 47, 3), (Reg.bankStatusVolt 3, 3),
      (Reg.sideStatusState 47 1, 3), (⟨(Reg.sideCtrlEnable 47 1).key, 0, 32⟩, 9503632)]).takes (Reg.maskCommitCmd 47 1).key 1).get
      (Reg.slotMaskLane0 47 1).key = ((up [(Reg.domainRunRunning 3, 1), (Reg.tdmPortCfgDomainValid 47, 1), (Reg.tdmPortCfgDomain
      47, 3), (Reg.bankStatusVolt 3, 3), (Reg.sideStatusState 47 1, 3), (⟨(Reg.sideCtrlEnable 47 1).key, 0, 32⟩, 9503632)]).takes
      (Reg.maskCommitCmd 47 1).key 1).rd (Reg.maskActiveMask 47 1) :=
  ⟨acc rfl (by decide +kernel), by decide +kernel⟩

theorem meets_FramesBegin_1 :
    ready.sideState 47 1 < 2 ∧ ready.rd (Reg.tdmLoopMode 47) < 2 :=
  by decide +kernel

theorem meets_FramesBegin_2 :
    ∃ s : State, 2 ≤ s.sideState 47 1 ∧ s.frameRuns 47 1 = false :=
  ⟨(up [(Reg.domainRunRunning 3, 0), (Reg.tdmPortCfgDomainValid 47, 1), (Reg.tdmPortCfgDomain 47, 3), (Reg.sideCtrlMaster 47 1, 1), (Reg.sideStatusState 47 1, 4)]), by decide +kernel⟩

theorem meets_FramesBegin_3 :
    ∃ (s a : State) (e : Nat), a = s.gather.advance (s.frameStart 47 1 0 / 4) ∧ e = a.frameStart 47 1 0 ∧ 2 ≤ s.sideState 47 1 ∧
      s.frameRuns 47 1 = true ∧ a.on (Reg.sideCtrlMaster 47 1) = true ∧ 4 * a.rc + 3 < e :=
  ⟨(({ State.reset with path := { ticks := [(3, { next := 5 })] } }.wr (Reg.domainRunRunning 3) 1).wr (Reg.sideCtrlMaster 47 1) 1).wr (Reg.tdmPortCfgDomain 47) 3 |>.wr (Reg.sideStatusState 47 1) 4 |>.setSide 47 1 { nextFrame := 5 }, _, _, rfl, rfl, by decide +kernel⟩

theorem meets_FramesBegin_4 :
    ∃ (s a u w : State) (e : Nat), a = s.gather.advance (s.frameStart 47 1 0 / 4) ∧ e = a.frameStart 47 1 0 ∧ 2 ≤ s.sideState 47 1
      ∧ s.frameRuns 47 1 = true ∧ a.on (Reg.sideCtrlMaster 47 1) = true ∧ e ≤ 4 * a.rc + 3 ∧ u = a.sideJudge 47 1 256 e ∧ w =
      u.setSide 47 1 { u.side 47 1 with last := some e } ∧ w.sideState 47 1 ≠ 2 :=
  ⟨(up [(Reg.domainRunRunning 3, 1), (Reg.tdmPortCfgDomainValid 47, 1), (Reg.tdmPortCfgDomain 47, 3), (Reg.sideCtrlMaster 47 1, 1), (Reg.sideStatusState 47 1, 4)]).setSide 47 1 { nextFrame := 1 }, _, _, _, _, rfl, rfl, by decide +kernel, by decide +kernel, by decide +kernel, by decide +kernel, rfl, rfl, by decide +kernel⟩

theorem meets_FramesBegin_5 :
    ∃ (s a u w : State) (e : Nat), a = s.gather.advance (s.frameStart 47 1 0 / 4) ∧ e = a.frameStart 47 1 0 ∧ 2 ≤ s.sideState 47 1
      ∧ s.frameRuns 47 1 = true ∧ a.on (Reg.sideCtrlMaster 47 1) = false ∧ u = a.sideJudge 47 1 256 e ∧ w = u.setSide 47 1
      { u.side 47 1 with last := some e } ∧ w.sideState 47 1 = 2 :=
  ⟨(up [(Reg.domainRunRunning 3, 1), (Reg.tdmPortCfgDomainValid 47, 1), (Reg.tdmPortCfgDomain 47, 3), (Reg.bankStatusVolt 3, 3), (Reg.sideStatusState 47 1, 2), (⟨(Reg.sideCtrlEnable 47 1).key, 0, 32⟩, 9503632)]), _, _, _, _, rfl, rfl, by decide +kernel, by decide +kernel, by decide +kernel, rfl, rfl, by decide +kernel⟩

theorem meets_FramesBegin_6 :
    ∃ (s a u w : State) (e : Nat), a = s.gather.advance (s.frameStart 47 1 0 / 4) ∧ e = a.frameStart 47 1 0 ∧ 2 ≤ s.sideState 47 1
      ∧ s.frameRuns 47 1 = true ∧ a.on (Reg.sideCtrlMaster 47 1) = false ∧ u = a.sideJudge 47 1 256 e ∧ w = u.setSide 47 1
      { u.side 47 1 with last := some e } ∧ w.sideState 47 1 ≠ 2 :=
  ⟨(up [(Reg.domainRunRunning 3, 1), (Reg.tdmPortCfgDomainValid 47, 1), (Reg.tdmPortCfgDomain 47, 3), (Reg.bankStatusVolt 3, 3), (Reg.sideStatusState 47 1, 3), (⟨(Reg.sideCtrlEnable 47 1).key, 0, 32⟩, 9503632)]), _, _, _, _, rfl, rfl, by decide +kernel, by decide +kernel, by decide +kernel, rfl, rfl, by decide +kernel⟩

theorem meets_FramesBegin_7 :
    ∃ w y : State, y = w.applyCommit 47 1 ∧ y.sideState 47 1 ≠ 5 ∧ y.sideState 47 1 = 4 :=
  ⟨({ (up [(Reg.domainRunRunning 3, 1), (Reg.tdmPortCfgDomainValid 47, 1), (Reg.tdmPortCfgDomain 47, 3), (Reg.bankStatusVolt 3, 3), (Reg.sideStatusState 47 1, 4), (⟨(Reg.sideCtrlEnable 47 1).key, 0, 32⟩, 9503632)]) with tdm := { sides := [(95, {})] } } : State), _, rfl, by decide +kernel⟩

theorem meets_FramesBegin_8 :
    ∃ w y : State, y = w.applyCommit 47 1 ∧ (y.side 47 1).resume = false ∧ y.sideState 47 1 = 5 :=
  ⟨({ (up [(Reg.domainRunRunning 3, 1), (Reg.tdmPortCfgDomainValid 47, 1), (Reg.tdmPortCfgDomain 47, 3), (Reg.bankStatusVolt 3, 3), (Reg.sideStatusState 47 1, 5), (⟨(Reg.sideCtrlEnable 47 1).key, 0, 32⟩, 9503632)]) with tdm := { sides := [(95, {})] } } : State), _, rfl, by decide +kernel⟩

theorem meets_FramesBegin_9 :
    vcSideCtrl 9503632 = true ∧ 7 < field 9503632 17 6 ∧ 31 < field 9503632 11 6 :=
  by decide +kernel

theorem meets_FramesBegin_10 :
    ∃ w : State, w.laneDriven 47 1 = true ∧ 255 < frameBclks (w.rd (Reg.sideCtrlFrameCode 47 0)) :=
  ⟨(up [(Reg.sideStatusState 47 0, 3), (⟨(Reg.maskActiveMask 47 0).key, 63, 1⟩, 1), (⟨(Reg.sideCtrlEnable 47 0).key, 0, 32⟩, 9503632)]), by decide +kernel⟩

theorem meets_FramesBegin_11 :
    ready.laneDriven 47 1 = false :=
  by decide +kernel

theorem meets_FramesBegin_12 :
    ∃ s : State, 2 ≤ s.rd (Reg.tdmLoopMode 47) :=
  ⟨(up [(Reg.tdmLoopMode 47, 2), (Reg.sideStatusState 47 0, 0), (Reg.sideStatusState 47 1, 0)]), by decide +kernel⟩

theorem meets_FramesBegin_13 :
    ∃ s : State, s.sideState 47 0 < 2 ∧ s.sideState 47 1 < 2 ∧ 2 ≤ s.rd (Reg.tdmLoopMode 47) :=
  ⟨(up [(Reg.tdmLoopMode 47, 2), (Reg.sideStatusState 47 0, 1), (Reg.sideStatusState 47 1, 1)]), by decide +kernel⟩

theorem meets_FramesBegin_14 :
    ∃ s : State, s.sideState 47 0 < 2 ∧ s.on (Reg.sideCtrlMaster 47 0) = false ∧ 2 ≤ s.rd (Reg.tdmLoopMode 47) ∧ 2 ≤ s.sideState
      47 1 :=
  ⟨(up [(Reg.tdmLoopMode 47, 3), (Reg.sideStatusState 47 0, 1), (Reg.sideStatusState 47 1, 2)]), by decide +kernel⟩

theorem meets_FramesBegin_15 :
    ∃ s : State, 2 ≤ s.rd (Reg.tdmLoopMode 47) ∧ 2 ≤ s.sideState 47 0 ∧ s.frameRuns 47 0 = true ∧ s.on (Reg.sideCtrlMaster 47 0) =
      false :=
  ⟨(up [(Reg.tdmLoopMode 47, 2), (Reg.sideStatusState 47 0, 2), (Reg.sideStatusState 47 1, 2)]), by decide +kernel⟩

theorem meets_FramesBegin_16 :
    ∃ (z x w : State), x = z.sideJudge 47 1 256 7 ∧ w = x.setSide 47 1 { x.side 47 1 with last := some 7 } ∧ w.sideState 47 1 = 2 :=
  ⟨(up [(Reg.domainRunRunning 3, 1), (Reg.tdmPortCfgDomainValid 47, 1), (Reg.tdmPortCfgDomain 47, 3), (Reg.bankStatusVolt 3, 3), (Reg.sideStatusState 47 1, 2), (⟨(Reg.sideCtrlEnable 47 1).key, 0, 32⟩, 9503632)]), _, _, rfl, rfl, by decide +kernel⟩

theorem meets_FramesBegin_17 :
    ∃ (z x w : State), x = z.sideJudge 47 1 256 7 ∧ w = x.setSide 47 1 { x.side 47 1 with last := some 7 } ∧ w.sideState 47 1 ≠ 2 :=
  ⟨(up [(Reg.domainRunRunning 3, 1), (Reg.tdmPortCfgDomainValid 47, 1), (Reg.tdmPortCfgDomain 47, 3), (Reg.bankStatusVolt 3, 3), (Reg.sideStatusState 47 1, 4), (⟨(Reg.sideCtrlEnable 47 1).key, 0, 32⟩, 9503632)]), _, _, rfl, rfl, by decide +kernel⟩

theorem meets_TdmSides_1 :
    ∃ s : State, s.sideState 47 1 = 2 ∧ s.on (Reg.sideCtrlMaster 47 1) = false ∧ 4 ≤ (s.side 47 1).good :=
  ⟨({ (up [(Reg.domainRunRunning 3, 1), (Reg.tdmPortCfgDomainValid 47, 1), (Reg.tdmPortCfgDomain 47, 3), (Reg.bankStatusVolt 3, 3), (Reg.sideStatusState 47 1, 2), (⟨(Reg.sideCtrlEnable 47 1).key, 0, 32⟩, 9503632)]) with tdm := { sides := [(95, { good := 4 })] } } : State), by decide +kernel⟩

theorem meets_TdmSides_2 :
    ∃ s : State, (s.side 47 1).good < 4 ∧ s.sideState 47 1 ≠ 2 ∧ s.sideState 47 1 ≠ 3 ∧ s.sideState 47 1 ≠ 5 ∧ s.sideState 47 1 <
      3 :=
  ⟨ready, by decide +kernel⟩

theorem meets_TdmSides_3 :
    ∃ (s a l : State) (silent : Bool), 3 ≤ s.sideState 47 1 ∧ s.on (Reg.sideCtrlMaster 47 1) = false ∧ a = (if silent = true then
      s.gather.advance ((s.silentAt 47 1).getD 0 / 4) else s.gather) ∧ l = a.bump (Reg.sideLockLoss 47 1) 1 ∧ silent = false ∧
      a.lockGone 47 1 = true ∧ a.sideState 47 1 ≠ 5 :=
  ⟨({ (up [(Reg.domainRunRunning 3, 1), (Reg.tdmPortCfgDomainValid 47, 1), (Reg.tdmPortCfgDomain 47, 3), (Reg.bankStatusVolt 3, 3), (Reg.sideStatusState 47 1, 4), (⟨(Reg.sideCtrlEnable 47 1).key, 0, 32⟩, 9503632)]) with tdm := { sides := [(95, { badRun := 4 })] } } : State), _, _, false, by decide +kernel, by decide +kernel, rfl, rfl, rfl, by decide +kernel⟩

theorem meets_TdmSides_4 :
    ∃ (s a l : State) (silent : Bool), 3 ≤ s.sideState 47 1 ∧ s.on (Reg.sideCtrlMaster 47 1) = false ∧ a = (if silent = true then
      s.gather.advance ((s.silentAt 47 1).getD 0 / 4) else s.gather) ∧ l = a.bump (Reg.sideLockLoss 47 1) 1 ∧ silent = true ∧
      a.lockGone 47 1 = true ∧ a.sideState 47 1 ≠ 5 :=
  ⟨({ (up [(Reg.domainRunRunning 3, 1), (Reg.tdmPortCfgDomainValid 47, 1), (Reg.tdmPortCfgDomain 47, 3), (Reg.bankStatusVolt 3, 3), (Reg.sideStatusState 47 1, 4), (⟨(Reg.sideCtrlEnable 47 1).key, 0, 32⟩, 9503632)]) with tdm := { sides := [(95, { badRun := 3, last := some 0 })] } } : State), _, _, true, by decide +kernel, by decide +kernel, rfl, rfl, rfl, by decide +kernel⟩

theorem meets_TdmSides_5 :
    ∃ (s a l : State) (silent : Bool), 3 ≤ s.sideState 47 1 ∧ s.on (Reg.sideCtrlMaster 47 1) = false ∧ a = (if silent = true then
      s.gather.advance ((s.silentAt 47 1).getD 0 / 4) else s.gather) ∧ l = a.bump (Reg.sideLockLoss 47 1) 1 ∧ silent = true ∧
      a.lockGone 47 1 = false :=
  ⟨({ (up [(Reg.domainRunRunning 3, 1), (Reg.tdmPortCfgDomainValid 47, 1), (Reg.tdmPortCfgDomain 47, 3), (Reg.bankStatusVolt 3, 3), (Reg.sideStatusState 47 1, 4), (⟨(Reg.sideCtrlEnable 47 1).key, 0, 32⟩, 9503632)]) with tdm := { sides := [(95, { badRun := 3 })] } } : State), _, _, true, by decide +kernel, by decide +kernel, rfl, rfl, rfl, by decide +kernel⟩

theorem meets_TdmSides_6 :
    ∃ (s a l : State) (silent : Bool), 3 ≤ s.sideState 47 1 ∧ s.on (Reg.sideCtrlMaster 47 1) = false ∧ a = (if silent = true then
      s.gather.advance ((s.silentAt 47 1).getD 0 / 4) else s.gather) ∧ l = a.bump (Reg.sideLockLoss 47 1) 1 ∧ silent = false ∧
      a.lockGone 47 1 = true ∧ a.sideState 47 1 = 5 ∧ (a.side 47 1).resume = false :=
  ⟨({ (up [(Reg.domainRunRunning 3, 1), (Reg.tdmPortCfgDomainValid 47, 1), (Reg.tdmPortCfgDomain 47, 3), (Reg.bankStatusVolt 3, 3), (Reg.sideStatusState 47 1, 5), (⟨(Reg.sideCtrlEnable 47 1).key, 0, 32⟩, 9503632)]) with tdm := { sides := [(95, { badRun := 4 })] } } : State), _, _, false, by decide +kernel, by decide +kernel, rfl, rfl, rfl, by decide +kernel⟩

theorem meets_TdmSides_7 :
    ∃ (s a l : State) (silent : Bool), 3 ≤ s.sideState 47 1 ∧ s.on (Reg.sideCtrlMaster 47 1) = false ∧ a = (if silent = true then
      s.gather.advance ((s.silentAt 47 1).getD 0 / 4) else s.gather) ∧ l = a.bump (Reg.sideLockLoss 47 1) 1 ∧ silent = false ∧
      a.lockGone 47 1 = true ∧ a.sideState 47 1 = 5 ∧ (a.side 47 1).resume = true ∧ (l.sideGo 47 1 0).sideStartOk 47 1 ((l.sideGo
      47 1 0).get (Reg.sideCtrlEnable 47 1).key) = true :=
  ⟨({ (up [(Reg.domainRunRunning 3, 1), (Reg.tdmPortCfgDomainValid 47, 1), (Reg.tdmPortCfgDomain 47, 3), (Reg.bankStatusVolt 3, 3), (Reg.sideStatusState 47 1, 5), (⟨(Reg.sideCtrlEnable 47 1).key, 0, 32⟩, 9503633)]) with tdm := { sides := [(95, { badRun := 4, resume := true })] } } : State), _, _, false, by decide +kernel, by decide +kernel, rfl, rfl, rfl, by decide +kernel⟩

theorem meets_TdmSides_8 :
    ∃ s : State, s.sideState 47 1 = 3 ∧ max 1 (s.rd (Reg.sideTimingClkLead 47 1)) ≤ (s.side 47 1).begun :=
  ⟨({ (up [(Reg.domainRunRunning 3, 1), (Reg.tdmPortCfgDomainValid 47, 1), (Reg.tdmPortCfgDomain 47, 3), (Reg.bankStatusVolt 3, 3), (Reg.sideStatusState 47 1, 3), (⟨(Reg.sideCtrlEnable 47 1).key, 0, 32⟩, 9503632)]) with tdm := { sides := [(95, { begun := 65535 })] } } : State), by decide +kernel⟩

theorem meets_TdmSides_9 :
    ∃ s : State, s.sideState 47 1 = 5 ∧ (s.side 47 1).resume = false ∧ max 1 (s.rd (Reg.sideTimingClkTail 47 1)) ≤ (s.side 47
      1).begun :=
  ⟨({ (up [(Reg.domainRunRunning 3, 1), (Reg.tdmPortCfgDomainValid 47, 1), (Reg.tdmPortCfgDomain 47, 3), (Reg.bankStatusVolt 3, 3), (Reg.sideStatusState 47 1, 5), (⟨(Reg.sideCtrlEnable 47 1).key, 0, 32⟩, 9503632)]) with tdm := { sides := [(95, { begun := 65535 })] } } : State), by decide +kernel⟩

theorem meets_TdmSides_10 :
    ∃ s : State, s.sideState 47 1 = 5 ∧ (s.side 47 1).begun < max 1 (s.rd (Reg.sideTimingClkTail 47 1)) :=
  ⟨({ (up [(Reg.domainRunRunning 3, 1), (Reg.tdmPortCfgDomainValid 47, 1), (Reg.tdmPortCfgDomain 47, 3), (Reg.bankStatusVolt 3, 3), (Reg.sideStatusState 47 1, 5), (⟨(Reg.sideCtrlEnable 47 1).key, 0, 32⟩, 9503632)]) with tdm := { sides := [(95, {})] } } : State), by decide +kernel⟩

theorem meets_TdmSides_11 :
    ∃ s : State, s.sideState 47 1 = 3 ∧ (s.side 47 1).begun < max 1 (s.rd (Reg.sideTimingClkLead 47 1)) :=
  ⟨(({ (up [(Reg.domainRunRunning 3, 1), (Reg.tdmPortCfgDomainValid 47, 1), (Reg.tdmPortCfgDomain 47, 3), (Reg.bankStatusVolt 3, 3), (Reg.sideStatusState 47 1, 3), (⟨(Reg.sideCtrlEnable 47 1).key, 0, 32⟩, 9503632)]) with tdm := { sides := [(95, { begun := 1 })] } } : State)).wr (Reg.sideTimingClkLead 47 1) 2, by decide +kernel⟩

theorem meets_TdmSides_12 :
    ∃ h : Hold, h.active = true ∧ h.count ≠ 0 :=
  ⟨{ active := true, count := 1 }, by decide⟩

theorem meets_Converters_1 :
    (up [(⟨(Reg.asrcCfgEnable 63).key, 0, 32⟩, 2147483680)]).Accepts .host (Reg.asrcCfgEnable 63).key (val .u32 4 2147483681)
      .asrcCfg 63 0 2147483681 ∧ bit 2147483681 0 = true ∧ ((up [(⟨(Reg.asrcCfgEnable 63).key, 0, 32⟩, 2147483680)]).takes
      (Reg.asrcCfgEnable 63).key 2147483681).on (Reg.asrcCfgEnable 63) = true ∧ ((up [(⟨(Reg.asrcCfgEnable 63).key, 0, 32⟩,
      2147483680)]).takes (Reg.asrcCfgEnable 63).key 2147483681).convState 63 = 0 :=
  ⟨acc rfl (by decide +kernel), by decide +kernel⟩

theorem meets_Converters_2 :
    (up [(⟨(Reg.asrcCfgEnable 63).key, 0, 32⟩, 2147483681), (Reg.asrcStatusState 63, 3)]).Accepts .host (Reg.asrcCfgEnable 63).key
      (val .u32 4 2147483681) .asrcCfg 63 0 2147483681 ∧ bit 2147483681 0 = true ∧ ((up [(⟨(Reg.asrcCfgEnable 63).key, 0, 32⟩,
      2147483681), (Reg.asrcStatusState 63, 3)]).takes (Reg.asrcCfgEnable 63).key 2147483681).on (Reg.asrcCfgEnable 63) = true ∧
      ((up [(⟨(Reg.asrcCfgEnable 63).key, 0, 32⟩, 2147483681), (Reg.asrcStatusState 63, 3)]).takes (Reg.asrcCfgEnable 63).key
      2147483681).convState 63 ≠ 0 :=
  ⟨acc rfl (by decide +kernel), by decide +kernel⟩

theorem meets_Converters_3 :
    (up [(⟨(Reg.asrcCfgEnable 63).key, 0, 32⟩, 2147483681)]).Accepts .host (Reg.asrcCfgEnable 63).key (val .u32 4 2147483680)
      .asrcCfg 63 0 2147483680 ∧ bit 2147483680 0 = false ∧ ((up [(⟨(Reg.asrcCfgEnable 63).key, 0, 32⟩, 2147483681)]).takes
      (Reg.asrcCfgEnable 63).key 2147483680).on (Reg.asrcCfgEnable 63) = false :=
  ⟨acc rfl (by decide +kernel), by decide +kernel⟩

theorem meets_Converters_4 :
    ∃ (s : State) (x : Asrc), x = s.conv 63 ∧ s.convState 63 = 1 ∧ x.measured = true ∧ x.ratio < 2 ^ 57 :=
  ⟨({ (up [(Reg.asrcStatusState 63, 1)]) with asrc := [(63, { inSide := { n := 256, first := 0, last := 9 }, outSide := { n := 256, first := 0, last := 1 } })] } : State), _, rfl, by decide +kernel⟩

theorem meets_Converters_5 :
    ∃ (s : State) (x : Asrc), x = s.conv 63 ∧ s.convState 63 = 1 ∧ x.measured = true ∧ 2 ^ 63 < x.ratio :=
  ⟨({ (up [(Reg.asrcStatusState 63, 1)]) with asrc := [(63, { inSide := { n := 256, first := 0, last := 1 }, outSide := { n := 256, first := 0, last := 9 } })] } : State), _, rfl, by decide +kernel⟩

theorem meets_Converters_6 :
    ∃ (s : State) (x : Asrc), x = s.conv 63 ∧ s.convState 63 = 1 ∧ x.measured = true ∧ 2 ^ 57 ≤ x.ratio ∧ x.ratio ≤ 2 ^ 63 :=
  ⟨({ (up [(Reg.asrcStatusState 63, 1)]) with asrc := [(63, { inSide := { n := 256, first := 0, last := 8 }, outSide := { n := 256, first := 0, last := 1 } })] } : State), _, rfl, by decide +kernel⟩

theorem meets_Converters_7 :
    ∃ (s : State) (x : Asrc), x = s.conv 63 ∧ s.convState 63 = 1 ∧ x.measured = true ∧ 2 ^ 57 ≤ x.ratio ∧ x.ratio ≤ 2 ^ 63 :=
  ⟨({ (up [(Reg.asrcStatusState 63, 1)]) with asrc := [(63, { inSide := { n := 256, first := 0, last := 1 }, outSide := { n := 256, first := 0, last := 8 } })] } : State), _, rfl, by decide +kernel⟩

theorem meets_Converters_8 :
    ∃ s : State, s.convState 63 = 1 ∧ (s.conv 63).measured = false :=
  ⟨({ (up [(Reg.asrcStatusState 63, 1)]) with asrc := [(63, { inSide := { n := 256, first := 0, last := 8 }, outSide := { n := 255, first := 0, last := 8 } })] } : State), by decide +kernel⟩

theorem meets_Converters_9 :
    ∃ (s w : State) (due : Nat), s.convState 63 = 2 ∧ s.on (Reg.asrcStatusNarrow 63) = false ∧ due = (s.conv 63).settled +
      40000000000000 / s.convBw 63 ∧ w = s.advance ((due + 3) / 4) ∧ due ≤ 4 * w.rc :=
  ⟨({ (up [(Reg.asrcStatusState 63, 2)]) with asrc := [(63, {})] } : State), _, _, by decide +kernel, by decide +kernel, rfl, rfl, by decide +kernel⟩

theorem meets_Converters_10 :
    ∃ (s w : State) (due : Nat), s.convState 63 = 2 ∧ s.on (Reg.asrcStatusNarrow 63) = false ∧ due = (s.conv 63).settled +
      40000000000000 / s.convBw 63 ∧ w = s.advance ((due + 3) / 4) ∧ 4 * w.rc < due :=
  ⟨({ ((State.reset.wr (Reg.asrcStatusState 63) 2).wr (Reg.asrcTrackTrackBw 63) 1000) with asrc := [(63, {})] } : State), _, _, by decide +kernel, by decide +kernel, rfl, rfl, by decide +kernel⟩

theorem meets_Converters_11 :
    ∃ s : State, s.convState 63 = 2 ∧ s.on (Reg.asrcStatusNarrow 63) = true ∧ s.convState 63 ≠ 0 :=
  ⟨({ (up [(Reg.asrcStatusState 63, 2), (Reg.asrcStatusNarrow 63, 1)]) with asrc := [(63, {})] } : State), by decide +kernel⟩

theorem meets_Converters_12 :
    ∃ (s w : State) (due : Nat), s.convState 63 = 2 ∧ (s.conv 63).calm = some 0 ∧ due = 0 + 8000000000000 / s.convBw 63 ∧ w =
      s.advance ((due + 3) / 4) ∧ due ≤ 4 * w.rc :=
  ⟨({ (up [(Reg.asrcStatusState 63, 2)]) with asrc := [(63, { calm := some 0 })] } : State), _, _, by decide +kernel, by decide +kernel, rfl, rfl, by decide +kernel⟩

theorem meets_Converters_13 :
    ∃ (s w : State) (due : Nat), s.convState 63 = 2 ∧ (s.conv 63).calm = some 0 ∧ due = 0 + 8000000000000 / s.convBw 63 ∧ w =
      s.advance ((due + 3) / 4) ∧ 4 * w.rc < due :=
  ⟨({ ((State.reset.wr (Reg.asrcStatusState 63) 2).wr (Reg.asrcTrackTrackBw 63) 1000) with asrc := [(63, { calm := some 0 })] } : State), _, _, by decide +kernel, by decide +kernel, rfl, rfl, by decide +kernel⟩

theorem meets_Converters_14 :
    ∃ s : State, s.convState 63 = 2 ∧ (s.conv 63).calm = none :=
  ⟨({ (up [(Reg.asrcStatusState 63, 2)]) with asrc := [(63, {})] } : State), by decide +kernel⟩

theorem meets_Converters_15 :
    ready.convState 63 = 0 ∧ ready.convState 63 ≠ 1 ∧ ready.convState 63 ≠ 2 ∧ (ready.conv 63).hold.count = 0 :=
  by decide +kernel

theorem meets_Converters_16 :
    ∃ s : State, (s.conv 63).hold.active = true ∧ (s.conv 63).hold.count ≠ 0 :=
  ⟨({ (up [(Reg.asrcStatusState 63, 3)]) with asrc := [(63, { hold := { active := true, count := 1 } })] } : State), by decide +kernel⟩

theorem meets_Converters_17 :
    ∃ (s w : State) (m : Meter) (due : Nat), s.convState 63 ≠ 0 ∧ m = (s.conv 63).outSide ∧ due = (if m.n = 0 then (s.conv
      63).settled else m.last.toNat / 65536) + ceilDiv 8000000000 (s.convRate 63 true) ∧ w = s.advance ((due + 3) / 4) ∧ due ≤ 4 *
      w.rc :=
  ⟨({ (ready.wr (Reg.asrcStatusState 63) 3) with asrc := [(63, { outSide := { n := 1 } })] } : State), _, _, _, by decide +kernel, rfl, rfl, rfl, by decide +kernel⟩

theorem meets_Converters_18 :
    ∃ (s w : State) (m : Meter) (due : Nat), s.convState 63 ≠ 0 ∧ m = (s.conv 63).outSide ∧ due = (if m.n = 0 then (s.conv
      63).settled else m.last.toNat / 65536) + ceilDiv 8000000000 (s.convRate 63 true) ∧ w = s.advance ((due + 3) / 4) ∧ 4 * w.rc
      < due :=
  ⟨({ ((State.reset.wr Reg.deviceStatusChipReady 1).wr (Reg.asrcStatusState 63) 3) with asrc := [(63, { outSide := { n := 1 } })] } : State), _, _, _, by decide +kernel, rfl, rfl, rfl, by decide +kernel⟩

theorem meets_HallSettings_1 :
    ready.Accepts .host (Reg.gainG 1048575).key (val .gain24 3 16777215) .gain 1048575 0 16777215 ∧ 16777215 < 2 ^ 24 :=
  ⟨acc rfl (by decide +kernel), by decide +kernel⟩

theorem meets_HallSettings_2 :
    ready.Accepts .host (Reg.tileShadowImage 1023).key ⟨.blob, List.replicate 3072 0⟩ .tileShadow 1023 0 0 ∧ (List.replicate 3072
      (0 : Byte)).length = 3072 :=
  ⟨acc rfl (by decide +kernel), by decide +kernel⟩

theorem meets_HallSettings_3 :
    ({ ready with hall := { tiles := [(1023, {})] } } : State).Accepts .host (Reg.tileCmdOp 1023).key (val .u8 1 1) .tileCmd 1023
      0 1 ∧ field 1 0 2 = 1 ∧ ((({ ready with hall := { tiles := [(1023, {})] } } : State).takes (Reg.tileCmdOp 1023).key 1).tile
      1023).state = 0 ∧ ((({ ready with hall := { tiles := [(1023, {})] } } : State).takes (Reg.tileCmdOp 1023).key 1).tile
      1023).dirty = false :=
  ⟨acc rfl (by decide +kernel), by decide +kernel⟩

theorem meets_HallSettings_4 :
    ({ (up [(Reg.hallCfgDomainValid, 1), (Reg.domainRunRunning 0, 1)]) with hall := { tiles := [(1023, { dirty := true })] } } :
      State).Accepts .host (Reg.tileCmdOp 1023).key (val .u8 1 13) .tileCmd 1023 0 13 ∧ field 13 0 2 = 1 ∧ (({ (up
      [(Reg.hallCfgDomainValid, 1), (Reg.domainRunRunning 0, 1)]) with hall := { tiles := [(1023, { dirty := true })] } } :
      State).takes (Reg.tileCmdOp 1023).key 13).hallRuns = true ∧ ((({ (up [(Reg.hallCfgDomainValid, 1), (Reg.domainRunRunning 0,
      1)]) with hall := { tiles := [(1023, { dirty := true })] } } : State).takes (Reg.tileCmdOp 1023).key 13).tile 1023).state =
      0 ∧ ((({ (up [(Reg.hallCfgDomainValid, 1), (Reg.domainRunRunning 0, 1)]) with
      hall := { tiles := [(1023, { dirty := true })] } } : State).takes (Reg.tileCmdOp 1023).key 13).tile 1023).dirty = true :=
  ⟨acc rfl (by decide +kernel), by decide +kernel⟩

theorem meets_HallSettings_5 :
    ({ (up [(Reg.hallCfgDomainValid, 1), (Reg.domainRunRunning 0, 1)]) with hall := { tiles := [(1023, { state := 4 })] } } :
      State).Accepts .host (Reg.tileCmdOp 1023).key (val .u8 1 1) .tileCmd 1023 0 1 ∧ field 1 0 2 = 1 ∧ (({ (up
      [(Reg.hallCfgDomainValid, 1), (Reg.domainRunRunning 0, 1)]) with hall := { tiles := [(1023, { state := 4 })] } } :
      State).takes (Reg.tileCmdOp 1023).key 1).hallRuns = true ∧ ((({ (up [(Reg.hallCfgDomainValid, 1), (Reg.domainRunRunning 0,
      1)]) with hall := { tiles := [(1023, { state := 4 })] } } : State).takes (Reg.tileCmdOp 1023).key 1).tile 1023).state ≠ 0 :=
  ⟨acc rfl (by decide +kernel), by decide +kernel⟩

theorem meets_HallSettings_6 :
    ({ ready with hall := { tiles := [(1023, { state := 4 })] } } : State).Accepts .host (Reg.tileCmdOp 1023).key (val .u8 1 1)
      .tileCmd 1023 0 1 ∧ field 1 0 2 = 1 ∧ (({ ready with hall := { tiles := [(1023, { state := 4 })] } } : State).takes
      (Reg.tileCmdOp 1023).key 1).hallRuns = false ∧ ((({ ready with hall := { tiles := [(1023, { state := 4 })] } } :
      State).takes (Reg.tileCmdOp 1023).key 1).tile 1023).state ≠ 0 :=
  ⟨acc rfl (by decide +kernel), by decide +kernel⟩

theorem meets_HallSettings_7 :
    ({ ready with hall := { tiles := [(1023, { dirty := true })] } } : State).Accepts .host (Reg.tileCmdOp 1023).key (val .u8 1 1)
      .tileCmd 1023 0 1 ∧ field 1 0 2 = 1 ∧ (({ ready with hall := { tiles := [(1023, { dirty := true })] } } : State).takes
      (Reg.tileCmdOp 1023).key 1).hallRuns = false ∧ ((({ ready with hall := { tiles := [(1023, { dirty := true })] } } :
      State).takes (Reg.tileCmdOp 1023).key 1).tile 1023).dirty = true :=
  ⟨acc rfl (by decide +kernel), by decide +kernel⟩

theorem meets_HallSettings_8 :
    ({ ready with hall := { tiles := [(1023, { dirty := true })] } } : State).Accepts .host (Reg.tileCmdOp 1023).key (val .u8 1 2)
      .tileCmd 1023 0 2 ∧ field 2 0 2 = 2 ∧ ((({ ready with hall := { tiles := [(1023, { dirty := true })] } } : State).takes
      (Reg.tileCmdOp 1023).key 2).tile 1023).state = 0 ∧ ((({ ready with hall := { tiles := [(1023, { dirty := true })] } } :
      State).takes (Reg.tileCmdOp 1023).key 2).tile 1023).dirty = true :=
  ⟨acc rfl (by decide +kernel), by decide +kernel⟩

theorem meets_HallSettings_9 :
    ({ ready with hall := { tiles := [(1023, {})] } } : State).Accepts .host (Reg.tileCmdOp 1023).key (val .u8 1 2) .tileCmd 1023
      0 2 ∧ field 2 0 2 = 2 ∧ ((({ ready with hall := { tiles := [(1023, {})] } } : State).takes (Reg.tileCmdOp 1023).key 2).tile
      1023).dirty = false :=
  ⟨acc rfl (by decide +kernel), by decide +kernel⟩

theorem meets_HallSettings_10 :
    ({ ready with hall := { tiles := [(1023, { dirty := true })] } } : State).Accepts .host Reg.hallCommitFade.key (val .u8 1 3)
      .hallCommit 0 0 3 :=
  acc rfl (by decide +kernel)

theorem meets_HallSettings_11 :
    ready.Accepts .host Reg.hallCfgDomainValid.key (val .u8 1 8) .hallCfg 0 0 8 ∧ field 8 0 3 = field (ready.get
      Reg.hallCfgDomainValid.key) 0 3 :=
  ⟨acc rfl (by decide +kernel), by decide +kernel⟩

theorem meets_HallSettings_12 :
    ready.Accepts .host Reg.hallCfgDomainValid.key (val .u8 1 9) .hallCfg 0 0 9 ∧ field 9 0 3 ≠ field (ready.get
      Reg.hallCfgDomainValid.key) 0 3 :=
  ⟨acc rfl (by decide +kernel), by decide +kernel⟩

theorem meets_HallEndings_1 :
    ∃ s u : State, u = s.gather.hallDamages [] ∧ u.hallTest = none ∧ (u.tile 1023).state = 2 ∧ ((u.tile 1023).bank (u.tile
      1023).active).passes 1023 (u.tile 1023).active = true :=
  ⟨({ ready with hall := { tiles := [(1023, { state := 2 })] } } : State), _, rfl, by decide +kernel⟩

theorem meets_HallEndings_2 :
    ∃ s u : State, u = s.gather.hallDamages [] ∧ u.hallTest = none ∧ (u.tile 1023).state = 3 ∧ ((u.tile 1023).bank (u.tile
      1023).shadow).passes 1023 (u.tile 1023).shadow = true :=
  ⟨({ ready with hall := { tiles := [(1023, { state := 3 })] } } : State), _, rfl, by decide +kernel⟩

theorem meets_HallEndings_3 :
    ∃ s u : State, u = s.gather.hallDamages [] ∧ u.hallTest = none ∧ (u.tile 1023).state = 2 ∧ ((u.tile 1023).bank (u.tile
      1023).active).passes 1023 (u.tile 1023).active = false :=
  ⟨({ ready with hall := { tiles := [(1023, { state := 2, b0 := { dmg := [(0, 1)] } })] } } : State), _, rfl, by decide +kernel⟩

theorem meets_HallEndings_4 :
    ∃ s u : State, u = s.gather.hallDamages [] ∧ u.hallTest = none ∧ (u.tile 1023).state = 3 ∧ ((u.tile 1023).bank (u.tile
      1023).shadow).passes 1023 (u.tile 1023).shadow = false :=
  ⟨({ ready with hall := { tiles := [(1023, { state := 3, b1 := { dmg := [(3071, 1)] } })] } } : State), _, rfl, by decide +kernel⟩

theorem meets_HallEndings_5 :
    ∃ s u : State, u = s.gather.hallDamages [] ∧ u.hallTest = none ∧ (u.tile 1023).state ≠ 2 ∧ (u.tile 1023).state ≠ 3 :=
  ⟨({ ready with hall := { tiles := [(1023, {})] } } : State), _, rfl, by decide +kernel⟩

theorem meets_HallEndings_6 :
    ∃ s u : State, u = s.gather.hallDamages [] ∧ ∃ w, u.hallTest = some w ∧ w.cur = some 1023 :=
  ⟨{ ready with hallTest := some { first := 1023, count := 1, cur := some 1023 } }, _, rfl, _, rfl, rfl⟩

theorem meets_HallEndings_7 :
    ∃ s : State, s.hall.satHold.active = true ∧ s.hall.satHold.count = 0 :=
  ⟨{ ready with hall := { satHold := { active := true, count := 0 } } }, by decide⟩

theorem meets_HallEndings_8 :
    ∃ s : State, s.hall.satHold.active = true ∧ s.hall.satHold.count = 1 :=
  ⟨{ ready with hall := { satHold := { active := true, count := 1 } } }, by decide⟩

theorem meets_RoomsAndTheHost_1 :
    (up [(Reg.domainRunRunning 3, 1), (Reg.roomStatusState 15, 0), (⟨(Reg.roomCtrlEnable 15).key, 0, 32⟩, 17039388)]).Accepts
      .host (Reg.roomCtrlEnable 15).key (val .u32 4 17039389) .roomCtrl 15 0 17039389 ∧ bit 17039389 0 = true ∧ ((up
      [(Reg.domainRunRunning 3, 1), (Reg.roomStatusState 15, 0), (⟨(Reg.roomCtrlEnable 15).key, 0, 32⟩, 17039388)]).takes
      (Reg.roomCtrlEnable 15).key 17039389).on (Reg.roomCtrlEnable 15) = true ∧ bit ((up [(Reg.domainRunRunning 3, 1),
      (Reg.roomStatusState 15, 0), (⟨(Reg.roomCtrlEnable 15).key, 0, 32⟩, 17039388)]).get (Reg.roomCtrlEnable 15).key) 0 = false ∧
      ((up [(Reg.domainRunRunning 3, 1), (Reg.roomStatusState 15, 0), (⟨(Reg.roomCtrlEnable 15).key, 0, 32⟩, 17039388)]).takes
      (Reg.roomCtrlEnable 15).key 17039389).roomState 15 = 0 :=
  ⟨acc rfl (by decide +kernel), by decide +kernel⟩

theorem meets_RoomsAndTheHost_2 :
    (up [(Reg.domainRunRunning 3, 1), (Reg.roomStatusState 15, 2), (⟨(Reg.roomCtrlEnable 15).key, 0, 32⟩, 17039389)]).Accepts
      .host (Reg.roomCtrlEnable 15).key (val .u32 4 17039389) .roomCtrl 15 0 17039389 ∧ bit 17039389 0 = true ∧ ((up
      [(Reg.domainRunRunning 3, 1), (Reg.roomStatusState 15, 2), (⟨(Reg.roomCtrlEnable 15).key, 0, 32⟩, 17039389)]).takes
      (Reg.roomCtrlEnable 15).key 17039389).on (Reg.roomCtrlEnable 15) = true ∧ bit ((up [(Reg.domainRunRunning 3, 1),
      (Reg.roomStatusState 15, 2), (⟨(Reg.roomCtrlEnable 15).key, 0, 32⟩, 17039389)]).get (Reg.roomCtrlEnable 15).key) 0 = true :=
  ⟨acc rfl (by decide +kernel), by decide +kernel⟩

theorem meets_RoomsAndTheHost_3 :
    (up [(Reg.domainRunRunning 3, 1), (Reg.roomStatusState 15, 0), (⟨(Reg.roomCtrlEnable 15).key, 0, 32⟩, 17039388)]).Accepts
      .host (Reg.roomCtrlEnable 15).key (val .u32 4 17039388) .roomCtrl 15 0 17039388 ∧ bit 17039388 0 = false ∧ ((up
      [(Reg.domainRunRunning 3, 1), (Reg.roomStatusState 15, 0), (⟨(Reg.roomCtrlEnable 15).key, 0, 32⟩, 17039388)]).takes
      (Reg.roomCtrlEnable 15).key 17039388).on (Reg.roomCtrlEnable 15) = false ∧ bit ((up [(Reg.domainRunRunning 3, 1),
      (Reg.roomStatusState 15, 0), (⟨(Reg.roomCtrlEnable 15).key, 0, 32⟩, 17039388)]).get (Reg.roomCtrlEnable 15).key) 0 = false :=
  ⟨acc rfl (by decide +kernel), by decide +kernel⟩

theorem meets_RoomsAndTheHost_4 :
    (up [(Reg.domainRunRunning 3, 1), (Reg.roomStatusState 15, 4), (⟨(Reg.roomCtrlEnable 15).key, 0, 32⟩, 17039388)]).Accepts
      .host (Reg.roomCtrlEnable 15).key (val .u32 4 17039388) .roomCtrl 15 0 17039388 ∧ bit 17039388 0 = false ∧ ((up
      [(Reg.domainRunRunning 3, 1), (Reg.roomStatusState 15, 4), (⟨(Reg.roomCtrlEnable 15).key, 0, 32⟩, 17039388)]).takes
      (Reg.roomCtrlEnable 15).key 17039388).on (Reg.roomCtrlEnable 15) = false ∧ bit ((up [(Reg.domainRunRunning 3, 1),
      (Reg.roomStatusState 15, 4), (⟨(Reg.roomCtrlEnable 15).key, 0, 32⟩, 17039388)]).get (Reg.roomCtrlEnable 15).key) 0 = false ∧
      ((up [(Reg.domainRunRunning 3, 1), (Reg.roomStatusState 15, 4), (⟨(Reg.roomCtrlEnable 15).key, 0, 32⟩, 17039388)]).takes
      (Reg.roomCtrlEnable 15).key 17039388).roomState 15 = 4 :=
  ⟨acc rfl (by decide +kernel), by decide +kernel⟩

theorem meets_RoomsAndTheHost_5 :
    ({ (up [(Reg.domainRunRunning 3, 1), (Reg.roomStatusState 15, 2), (⟨(Reg.roomCtrlEnable 15).key, 0, 32⟩, 17039389)]) with
      rooms := [(15, { started := true })] } : State).Accepts .host (Reg.roomCtrlEnable 15).key (val .u32 4 17039388) .roomCtrl 15
      0 17039388 ∧ bit 17039388 0 = false ∧ (({ (up [(Reg.domainRunRunning 3, 1), (Reg.roomStatusState 15, 2),
      (⟨(Reg.roomCtrlEnable 15).key, 0, 32⟩, 17039389)]) with rooms := [(15, { started := true })] } : State).takes
      (Reg.roomCtrlEnable 15).key 17039388).on (Reg.roomCtrlEnable 15) = false ∧ bit (({ (up [(Reg.domainRunRunning 3, 1),
      (Reg.roomStatusState 15, 2), (⟨(Reg.roomCtrlEnable 15).key, 0, 32⟩, 17039389)]) with rooms := [(15, { started := true })] }
      : State).get (Reg.roomCtrlEnable 15).key) 0 = true ∧ (({ (up [(Reg.domainRunRunning 3, 1), (Reg.roomStatusState 15, 2),
      (⟨(Reg.roomCtrlEnable 15).key, 0, 32⟩, 17039389)]) with rooms := [(15, { started := true })] } : State).takes
      (Reg.roomCtrlEnable 15).key 17039388).roomState 15 = 2 ∧ ((({ (up [(Reg.domainRunRunning 3, 1), (Reg.roomStatusState 15, 2),
      (⟨(Reg.roomCtrlEnable 15).key, 0, 32⟩, 17039389)]) with rooms := [(15, { started := true })] } : State).takes
      (Reg.roomCtrlEnable 15).key 17039388).room 15).started = true :=
  ⟨acc rfl (by decide +kernel), by decide +kernel⟩

theorem meets_RoomsAndTheHost_6 :
    ({ (up [(Reg.domainRunRunning 3, 1), (Reg.roomStatusState 15, 2), (⟨(Reg.roomCtrlEnable 15).key, 0, 32⟩, 17039389)]) with
      rooms := [(15, { started := false })] } : State).Accepts .host (Reg.roomCtrlEnable 15).key (val .u32 4 17039388) .roomCtrl
      15 0 17039388 ∧ bit 17039388 0 = false ∧ (({ (up [(Reg.domainRunRunning 3, 1), (Reg.roomStatusState 15, 2),
      (⟨(Reg.roomCtrlEnable 15).key, 0, 32⟩, 17039389)]) with rooms := [(15, { started := false })] } : State).takes
      (Reg.roomCtrlEnable 15).key 17039388).on (Reg.roomCtrlEnable 15) = false ∧ bit (({ (up [(Reg.domainRunRunning 3, 1),
      (Reg.roomStatusState 15, 2), (⟨(Reg.roomCtrlEnable 15).key, 0, 32⟩, 17039389)]) with rooms := [(15, { started := false })] }
      : State).get (Reg.roomCtrlEnable 15).key) 0 = true ∧ (({ (up [(Reg.domainRunRunning 3, 1), (Reg.roomStatusState 15, 2),
      (⟨(Reg.roomCtrlEnable 15).key, 0, 32⟩, 17039389)]) with rooms := [(15, { started := false })] } : State).takes
      (Reg.roomCtrlEnable 15).key 17039388).roomState 15 = 2 ∧ ((({ (up [(Reg.domainRunRunning 3, 1), (Reg.roomStatusState 15, 2),
      (⟨(Reg.roomCtrlEnable 15).key, 0, 32⟩, 17039389)]) with rooms := [(15, { started := false })] } : State).takes
      (Reg.roomCtrlEnable 15).key 17039388).room 15).started = false :=
  ⟨acc rfl (by decide +kernel), by decide +kernel⟩

theorem meets_RoomsAndTheHost_7 :
    (up [(Reg.domainRunRunning 3, 1), (Reg.roomStatusState 15, 1), (⟨(Reg.roomCtrlEnable 15).key, 0, 32⟩, 17039389)]).Accepts
      .host (Reg.roomCtrlEnable 15).key (val .u32 4 17039388) .roomCtrl 15 0 17039388 ∧ bit 17039388 0 = false ∧ ((up
      [(Reg.domainRunRunning 3, 1), (Reg.roomStatusState 15, 1), (⟨(Reg.roomCtrlEnable 15).key, 0, 32⟩, 17039389)]).takes
      (Reg.roomCtrlEnable 15).key 17039388).on (Reg.roomCtrlEnable 15) = false ∧ bit ((up [(Reg.domainRunRunning 3, 1),
      (Reg.roomStatusState 15, 1), (⟨(Reg.roomCtrlEnable 15).key, 0, 32⟩, 17039389)]).get (Reg.roomCtrlEnable 15).key) 0 = true ∧
      ((up [(Reg.domainRunRunning 3, 1), (Reg.roomStatusState 15, 1), (⟨(Reg.roomCtrlEnable 15).key, 0, 32⟩, 17039389)]).takes
      (Reg.roomCtrlEnable 15).key 17039388).roomState 15 = 1 ∧ True :=
  ⟨acc rfl (by decide +kernel), by decide +kernel⟩

theorem meets_RoomsAndTheHost_8 :
    (up [(Reg.domainRunRunning 3, 1), (Reg.roomStatusState 15, 4), (⟨(Reg.roomCtrlEnable 15).key, 0, 32⟩, 17039389)]).Accepts
      .host (Reg.roomCtrlEnable 15).key (val .u32 4 17039388) .roomCtrl 15 0 17039388 ∧ bit 17039388 0 = false ∧ ((up
      [(Reg.domainRunRunning 3, 1), (Reg.roomStatusState 15, 4), (⟨(Reg.roomCtrlEnable 15).key, 0, 32⟩, 17039389)]).takes
      (Reg.roomCtrlEnable 15).key 17039388).on (Reg.roomCtrlEnable 15) = false ∧ bit ((up [(Reg.domainRunRunning 3, 1),
      (Reg.roomStatusState 15, 4), (⟨(Reg.roomCtrlEnable 15).key, 0, 32⟩, 17039389)]).get (Reg.roomCtrlEnable 15).key) 0 = true ∧
      ((up [(Reg.domainRunRunning 3, 1), (Reg.roomStatusState 15, 4), (⟨(Reg.roomCtrlEnable 15).key, 0, 32⟩, 17039389)]).takes
      (Reg.roomCtrlEnable 15).key 17039388).roomState 15 = 4 ∧ True :=
  ⟨acc rfl (by decide +kernel), by decide +kernel⟩

theorem meets_RoomsAndTheHost_9 :
    (up [(Reg.domainRunRunning 3, 1), (Reg.roomStatusState 15, 3), (⟨(Reg.roomCtrlEnable 15).key, 0, 32⟩, 17039389)]).Accepts
      .host (Reg.roomCtrlEnable 15).key (val .u32 4 17039388) .roomCtrl 15 0 17039388 ∧ bit 17039388 0 = false ∧ ((up
      [(Reg.domainRunRunning 3, 1), (Reg.roomStatusState 15, 3), (⟨(Reg.roomCtrlEnable 15).key, 0, 32⟩, 17039389)]).takes
      (Reg.roomCtrlEnable 15).key 17039388).on (Reg.roomCtrlEnable 15) = false ∧ bit ((up [(Reg.domainRunRunning 3, 1),
      (Reg.roomStatusState 15, 3), (⟨(Reg.roomCtrlEnable 15).key, 0, 32⟩, 17039389)]).get (Reg.roomCtrlEnable 15).key) 0 = true ∧
      ((up [(Reg.domainRunRunning 3, 1), (Reg.roomStatusState 15, 3), (⟨(Reg.roomCtrlEnable 15).key, 0, 32⟩, 17039389)]).takes
      (Reg.roomCtrlEnable 15).key 17039388).roomState 15 = 3 ∧ True :=
  ⟨acc rfl (by decide +kernel), by decide +kernel⟩

theorem meets_RoomsAndTheHost_10 :
    (up [(Reg.domainRunRunning 3, 1), (Reg.roomStatusState 15, 0), (⟨(Reg.roomCtrlEnable 15).key, 0, 32⟩, 17039389)]).Accepts
      .host (Reg.roomCtrlEnable 15).key (val .u32 4 17039388) .roomCtrl 15 0 17039388 ∧ bit 17039388 0 = false ∧ ((up
      [(Reg.domainRunRunning 3, 1), (Reg.roomStatusState 15, 0), (⟨(Reg.roomCtrlEnable 15).key, 0, 32⟩, 17039389)]).takes
      (Reg.roomCtrlEnable 15).key 17039388).on (Reg.roomCtrlEnable 15) = false ∧ bit ((up [(Reg.domainRunRunning 3, 1),
      (Reg.roomStatusState 15, 0), (⟨(Reg.roomCtrlEnable 15).key, 0, 32⟩, 17039389)]).get (Reg.roomCtrlEnable 15).key) 0 = true ∧
      ((up [(Reg.domainRunRunning 3, 1), (Reg.roomStatusState 15, 0), (⟨(Reg.roomCtrlEnable 15).key, 0, 32⟩, 17039389)]).takes
      (Reg.roomCtrlEnable 15).key 17039388).roomState 15 = 0 ∧ True :=
  ⟨acc rfl (by decide +kernel), by decide +kernel⟩

theorem meets_RoomsAndTheHost_11 :
    ({ (up [(Reg.domainRunRunning 3, 1), (Reg.roomStatusState 15, 2), (⟨(Reg.roomCtrlEnable 15).key, 0, 32⟩, 17039389)]) with
      rooms := [(15, { block := true })] } : State).Accepts .host (Reg.roomLoadSpace 15).key ⟨.blob, (blobBytes 3
      129127208521318727937)⟩ .roomLoad 15 0 129127208521318727937 ∧ ((({ (up [(Reg.domainRunRunning 3, 1), (Reg.roomStatusState
      15, 2), (⟨(Reg.roomCtrlEnable 15).key, 0, 32⟩, 17039389)]) with rooms := [(15, { block := true })] } : State).takes
      (Reg.roomLoadSpace 15).key 129127208521318727937).room 15).block = true ∧ (({ (up [(Reg.domainRunRunning 3, 1),
      (Reg.roomStatusState 15, 2), (⟨(Reg.roomCtrlEnable 15).key, 0, 32⟩, 17039389)]) with rooms := [(15, { block := true })] } :
      State).takes (Reg.roomLoadSpace 15).key 129127208521318727937).roomState 15 = 2 :=
  ⟨acc rfl (by decide +kernel), by decide +kernel⟩

theorem meets_RoomsAndTheHost_12 :
    ({ (up [(Reg.domainRunRunning 3, 1), (Reg.roomStatusState 15, 3), (⟨(Reg.roomCtrlEnable 15).key, 0, 32⟩, 17039388)]) with
      rooms := [(15, { block := true })] } : State).Accepts .host (Reg.roomLoadSpace 15).key ⟨.blob, (blobBytes 3
      129127208521318727937)⟩ .roomLoad 15 0 129127208521318727937 ∧ ((({ (up [(Reg.domainRunRunning 3, 1), (Reg.roomStatusState
      15, 3), (⟨(Reg.roomCtrlEnable 15).key, 0, 32⟩, 17039388)]) with rooms := [(15, { block := true })] } : State).takes
      (Reg.roomLoadSpace 15).key 129127208521318727937).room 15).block = true ∧ (({ (up [(Reg.domainRunRunning 3, 1),
      (Reg.roomStatusState 15, 3), (⟨(Reg.roomCtrlEnable 15).key, 0, 32⟩, 17039388)]) with rooms := [(15, { block := true })] } :
      State).takes (Reg.roomLoadSpace 15).key 129127208521318727937).roomState 15 = 3 :=
  ⟨acc rfl (by decide +kernel), by decide +kernel⟩

theorem meets_RoomsAndTheHost_13 :
    (up [(Reg.domainRunRunning 3, 1), (Reg.roomStatusState 15, 0), (⟨(Reg.roomCtrlEnable 15).key, 0, 32⟩, 17039388)]).Accepts
      .host (Reg.roomLoadSpace 15).key ⟨.blob, (blobBytes 3 129127208521318727937)⟩ .roomLoad 15 0 129127208521318727937 ∧ (((up
      [(Reg.domainRunRunning 3, 1), (Reg.roomStatusState 15, 0), (⟨(Reg.roomCtrlEnable 15).key, 0, 32⟩, 17039388)]).takes
      (Reg.roomLoadSpace 15).key 129127208521318727937).room 15).block = false :=
  ⟨acc rfl (by decide +kernel), by decide +kernel⟩

theorem meets_RoomsAndTheHost_14 :
    ∃ s : State, (s.room 15).block = true :=
  ⟨{ ready with rooms := [(15, { block := true })] }, by decide⟩

theorem meets_RoomsAndTheHost_15 :
    (ready.room 15).block = false ∧ ready.roomLive 15 = false ∧ ready.roomState 15 < 2 :=
  by decide +kernel

theorem meets_RoomsAndTheHost_16 :
    ready.Accepts .host (Reg.roomCmdCmd 15).key (val .u8 1 1) .roomCmd 15 0 1 :=
  acc rfl (by decide +kernel)

theorem meets_RoomsAndTheHost_17 :
    (up [(Reg.domainRunRunning 3, 1), (Reg.roomStatusState 15, 2), (⟨(Reg.roomCtrlEnable 15).key, 0, 32⟩, 17039389)]).roomState 15
      ≠ 0 ∧ (up [(Reg.domainRunRunning 3, 1), (Reg.roomStatusState 15, 2), (⟨(Reg.roomCtrlEnable 15).key, 0, 32⟩,
      17039389)]).roomState 15 ≠ 4 :=
  by decide +kernel

theorem meets_RoomsAndTheHost_18 :
    ready.Accepts .host (Reg.roomMboxInWord 15).key (val .u32 4 4294967295) .roomMboxIn 15 0 4294967295 :=
  acc rfl (by decide +kernel)

theorem meets_RoomsAndTheHost_19 :
    ∃ s : State, s.roomState 15 = 2 ∧ s.rd (Reg.roomCtrlSkipLimit 15) ≤ (s.room 15).skips :=
  ⟨({ (up [(Reg.domainRunRunning 3, 1), (Reg.roomStatusState 15, 2), (⟨(Reg.roomCtrlEnable 15).key, 0, 32⟩, 17039389)]) with rooms := [(15, { skips := 4 })] } : State), by decide +kernel⟩

theorem meets_RoomsAndTheHost_20 :
    ∃ s : State, s.roomLive 15 = true ∧ s.roomIrq 15 = true :=
  ⟨({ (up [(Reg.domainRunRunning 3, 1), (Reg.roomStatusState 15, 2), (⟨(Reg.roomCtrlEnable 15).key, 0, 32⟩, 17039389)]) with rooms := [(15, { block := true, core := { mboxPend := true, regs := [(0x31, 1)] } })] } : State), by decide +kernel⟩

theorem meets_RoomsAndTheHost_21 :
    ∃ s : State, s.roomState 15 = 3 ∧ s.rd (Reg.roomCtrlSkipLimit 15) ≤ (s.room 15).skips :=
  ⟨({ (up [(Reg.domainRunRunning 3, 1), (Reg.roomStatusState 15, 3), (⟨(Reg.roomCtrlEnable 15).key, 0, 32⟩, 17039388)]) with rooms := [(15, { skips := 4 })] } : State), by decide +kernel⟩

theorem meets_RoomControl_1 :
    ∃ s : State, s.roomReady 15 .nop = some .nop :=
  ⟨({ (up [(Reg.roomStatusState 15, 2)]) with rooms := [(15, { block := true, core := { p := [(0, 0)] } })] } : State), by decide +kernel⟩

theorem meets_RoomControl_2 :
    ∃ s : State, s.roomReady 15 .bra = some (.bra 0 8191) :=
  ⟨({ (up [(Reg.roomStatusState 15, 2)]) with rooms := [(15, { block := true, core := { p := [(0, 274877915135)] } })] } : State), by decide +kernel⟩

theorem meets_RoomControl_3 :
    ∃ s : State, s.roomReady 15 .call = some (.call 13 5) :=
  ⟨({ (up [(Reg.roomStatusState 15, 2)]) with rooms := [(15, { block := true, core := { p := [(0, 773094113285)] } })] } : State), by decide +kernel⟩

theorem meets_RoomControl_4 :
    ∃ s : State, s.roomReady 15 .ret = some (.ret 2) :=
  ⟨({ (up [(Reg.roomStatusState 15, 2)]) with rooms := [(15, { block := true, core := { p := [(0, 858993459200)], stack := [7] } })] } : State), by decide +kernel⟩

theorem meets_RoomControl_5 :
    ∃ s : State, s.roomReady 15 .rti = some (.rti) :=
  ⟨({ (up [(Reg.roomStatusState 15, 2)]) with rooms := [(15, { block := true, core := { p := [(0, 1099511627776)], inIrq := true } })] } : State), by decide +kernel⟩

theorem meets_RoomControl_6 :
    ∃ s : State, s.roomReady 15 .dbnz = some (.dbnz 7 9) :=
  ⟨({ (up [(Reg.roomStatusState 15, 2)]) with rooms := [(15, { block := true, core := { p := [(0, 1614907703305)] } })] } : State), by decide +kernel⟩

theorem meets_RoomControl_7 :
    ∃ s : State, s.roomReady 15 .rep = some (.repImm 32 4095) :=
  ⟨({ (up [(Reg.roomStatusState 15, 2)]) with rooms := [(15, { block := true, core := { p := [(0, 1915555418111)] } })] } : State), by decide +kernel⟩

theorem meets_RoomControl_8 :
    ∃ s : State, s.roomReady 15 .rep = some (.repReg 4 0x17) :=
  ⟨({ (up [(Reg.roomStatusState 15, 2)]) with rooms := [(15, { block := true, core := { p := [(0, 1953002160128)] } })] } : State), by decide +kernel⟩

theorem meets_RoomControl_9 :
    ∃ s : State, s.roomReady 15 .swi = some (.swi) :=
  ⟨({ (up [(Reg.roomStatusState 15, 2)]) with rooms := [(15, { block := true, core := { p := [(0, 2473901162496)] } })] } : State), by decide +kernel⟩

theorem meets_RoomControl_10 :
    ∃ s : State, s.roomReady 15 .endBlock = some (.endBlock) :=
  ⟨({ (up [(Reg.roomStatusState 15, 2)]) with rooms := [(15, { block := true, core := { p := [(0, 2199023255552)] } })] } : State), by decide +kernel⟩

theorem meets_RoomControl_11 :
    ∃ s : State, s.roomReady 15 .par = some (.data {} [] false) :=
  ⟨({ (up [(Reg.roomStatusState 15, 2)]) with rooms := [(15, { block := true, core := { p := [(0, 17592186044416)] } })] } : State), by decide +kernel⟩

theorem meets_RoomControl_12 :
    ∃ s : State, s.roomReady 15 .long = some (.data {} [] true) :=
  ⟨({ (up [(Reg.roomStatusState 15, 2)]) with rooms := [(15, { block := true, core := { p := [(0, 35184372088832)] } })] } : State), by decide +kernel⟩

theorem meets_RoomControl_13 :
    ∃ s : State, s.roomReady 15 .ldi = some (.ldi 5 0xFFFFFFFF) :=
  ⟨({ (up [(Reg.roomStatusState 15, 2)]) with rooms := [(15, { block := true, core := { p := [(0, 54155242635263)] } })] } : State), by decide +kernel⟩

theorem meets_RoomControl_14 :
    ∃ s : State, s.roomReady 15 .move = some (.move 1 2) :=
  ⟨({ (up [(Reg.roomStatusState 15, 2)]) with rooms := [(15, { block := true, core := { p := [(0, 70386460917760)] } })] } : State), by decide +kernel⟩

theorem meets_RoomControl_15 :
    ready.roomReady 15 .nop = none ∧ ready.roomReady 15 .endBlock = none ∧ ready.roomFetching 15 = false ∧ ready.dwOn 15 = false :=
  by decide +kernel

theorem meets_RoomControl_16 :
    ∃ s : State, s.roomFetching 15 = true ∧ (s.room 15).legal (s.roomIo 15) = none ∧ (s.room 15).illAt = none :=
  ⟨({ (up [(Reg.roomStatusState 15, 2)]) with rooms := [(15, { block := true, core := { p := [(0, 2748779069440)] } })] } : State), by decide +kernel⟩

theorem meets_RoomControl_17 :
    ∃ s : State, s.roomFetching 15 = true ∧ (s.room 15).legal (s.roomIo 15) = none ∧ (s.room 15).illAt = some 0 ∧ 0 + 50000000 ≤
      s.rc :=
  ⟨{ ({ (up [(Reg.roomStatusState 15, 2)]) with rooms := [(15, { block := true, illAt := some 0, core := { p := [(0, 2748779069440)] } })] } : State) with rc := 50000000 }, by decide +kernel⟩

theorem meets_RoomControl_18 :
    ∃ (s : State) (t : DwTest), s.roomReady 15 .endBlock = some .endBlock ∧ s.dw = some t ∧ t.room = 15 :=
  ⟨{ ({ (up [(Reg.roomStatusState 15, 2)]) with rooms := [(15, { block := true, core := { p := [(0, 2199023255552)] } })] } : State) with dw := some { room := 15, slot := 0, blocks := 1, lfsr := 1 } }, _, by decide +kernel, rfl, rfl⟩

theorem meets_RoomControl_19 :
    ∃ s : State, s.roomFetching 15 = true ∧ (s.room 15).legal (s.roomIo 15) = none ∧ (s.room 15).illAt = some 0 ∧ s.rc < 0 +
      50000000 :=
  ⟨({ (up [(Reg.roomStatusState 15, 2)]) with rooms := [(15, { block := true, illAt := some 0, core := { p := [(0, 824633720832)] } })] } : State), by decide +kernel⟩

theorem meets_RoomArithmetic_1 :
    ∀ op ∈ List.range 0x1D, ∃ s : State, s.roomReady 15 (.ar (op + 1)) = some (.data { op := op + 1 } [] false) ∧ (s.room
      15).waiting = false :=
  by
  intro op h
  refine ⟨{ (up [(Reg.roomStatusState 15, 2)]) with rooms := [(15, { block := true, core := { p := [(0, 2 ^ 44 + (op + 1) * 2 ^ 38)] } })] }, ?_⟩
  revert op
  decide +kernel

theorem meets_RoomArithmetic_2 :
    ready.roomReady 15 (.ar 1) = none :=
  by decide +kernel

theorem meets_RoomArithmetic_3 :
    ∃ (i : ArithIn) (w : Nat), i.sat = false ∧ w = ofInt 72 (2 ^ 71) ∧ (2 ^ 71 : Int) ≤ 2 ^ 71 :=
  ⟨{ sat := false, ad := 0, ao := 0, a := 0, b := 0, sr := 0, k := 0, dbl := false }, _, rfl, rfl, by decide⟩

theorem meets_RoomArithmetic_4 :
    ∃ (i : ArithIn) (v c : Int), v = accVal i.ad ∧ c = normCount v ∧ v = 0 :=
  ⟨{ sat := false, ad := 0, ao := 0, a := 0, b := 0, sr := 0, k := 0, dbl := false }, _, _, rfl, rfl, by decide +kernel⟩

theorem meets_RoomArithmetic_5 :
    ∃ (i : ArithIn) (v c : Int), v = accVal i.ad ∧ c = normCount v ∧ v ≠ 0 ∧ c < 31 ∧ c < 0 :=
  ⟨{ sat := false, ad := 2361183241434822606848, ao := 0, a := 0, b := 0, sr := 0, k := 0, dbl := false }, _, _, rfl, rfl, by decide +kernel⟩

theorem meets_RoomArithmetic_6 :
    ∃ (i : ArithIn) (v c : Int), v = accVal i.ad ∧ c = normCount v ∧ v ≠ 0 ∧ ¬c < 31 ∧ 0 ≤ c :=
  ⟨{ sat := false, ad := 1, ao := 0, a := 0, b := 0, sr := 0, k := 0, dbl := false }, _, _, rfl, rfl, by decide +kernel⟩

theorem meets_RoomDataMoves_1 :
    ∃ (c : Core) (p : Nat), p = c.read (0x10 + 7) .address ∧ p < 16384 ∧ 0 < 1 :=
  ⟨{ regs := [(0x17, 16383)] }, _, rfl, by decide⟩

theorem meets_RoomDataMoves_2 :
    ∃ (c : Core) (d : Nat), d < distance .load .address ∧ ∀ w ∈ c.hist, w.key = 5 → w.at_ + distance w.how .address ≤ c.count + d :=
  ⟨{}, 3, by decide, by simp⟩

theorem meets_RoomDataMoves_3 :
    ∃ (c : Core) (d : Nat), 4 ≤ d ∧ 3 < 4 ∧ ∀ w ∈ c.mem, w.key = 5 → w.at_ + 4 ≤ c.count + d :=
  ⟨{}, 4, by decide, by decide, by simp⟩

theorem meets_RoomDataMoves_4 :
    ∃ (s : State) (m : RoomMove), (s.room 15).waiting = false ∧ s.roomReady 15 .par = some (.data {} [m] false) ∧ m.kind = 1 ∧
      (Instr.parallelMove 15, RoomOp.par) ∈ [(Instr.parallelMove 15, RoomOp.par), (.longMove 15, .long)] :=
  ⟨({ (up [(Reg.roomStatusState 15, 2)]) with rooms := [(15, { block := true, core := { p := [(0, 17592261345280)] } })] } : State), { kind := 1, y := false, reg := 1, ptr := 7, mode := 5 }, by decide +kernel⟩

theorem meets_RoomDataMoves_5 :
    ∃ (s : State) (m : RoomMove), (s.room 15).waiting = false ∧ s.roomReady 15 .par = some (.data {} [m] false) ∧ m.kind = 3 ∧
      (Instr.parallelMove 15, RoomOp.par) ∈ [(Instr.parallelMove 15, RoomOp.par), (.longMove 15, .long)] :=
  ⟨({ (up [(Reg.roomStatusState 15, 2)]) with rooms := [(15, { block := true, core := { p := [(0, 17592186057344)] } })] } : State), { kind := 3, y := true, reg := 2, src := 8 }, by decide +kernel⟩

theorem meets_RoomDataMoves_6 :
    ∃ (s : State) (m : RoomMove), (s.room 15).waiting = false ∧ s.roomReady 15 .long = some (.data {} [m] true) ∧ m.kind = 1 ∧
      (Instr.longMove 15, RoomOp.long) ∈ [(Instr.parallelMove 15, RoomOp.par), (.longMove 15, .long)] ∧ m.abs = some 0x3FFF :=
  ⟨({ (up [(Reg.roomStatusState 15, 2)]) with rooms := [(15, { block := true, core := { p := [(0, 35184497147903)] } })] } : State), { kind := 1, y := false, reg := 0x37, abs := some 0x3FFF }, by decide +kernel⟩

theorem meets_RoomDataMoves_7 :
    ∃ (s : State) (m : RoomMove), (s.room 15).waiting = false ∧ s.roomReady 15 .long = some (.data {} [m] true) ∧ m.kind = 1 ∧
      (Instr.longMove 15, RoomOp.long) ∈ [(Instr.parallelMove 15, RoomOp.par), (.longMove 15, .long)] ∧ m.abs = some 0 :=
  ⟨({ (up [(Reg.roomStatusState 15, 2)]) with rooms := [(15, { block := true, core := { p := [(0, 35184490315776)] } })] } : State), { kind := 1, y := true, reg := 0x30, abs := some 0 }, by decide +kernel⟩

theorem meets_RoomDataMoves_8 :
    ∃ (s : State) (m : RoomMove), (s.room 15).waiting = false ∧ s.roomReady 15 .par = some (.data {} [m] false) ∧ m.kind = 2 ∧
      (Instr.parallelMove 15, RoomOp.par) ∈ [(Instr.parallelMove 15, RoomOp.par), (.longMove 15, .long)] ∧ m.y = true :=
  ⟨({ (up [(Reg.roomStatusState 15, 2)]) with rooms := [(15, { block := true, core := { p := [(0, 17592186054764)] } })] } : State), { kind := 2, y := true, reg := 8, ptr := 3, mode := 3 }, by decide +kernel⟩

theorem meets_RoomDataMoves_9 :
    ∃ (s : State) (m : RoomMove), (s.room 15).waiting = false ∧ s.roomReady 15 .long = some (.data {} [m] true) ∧ m.kind = 2 ∧
      (Instr.longMove 15, RoomOp.long) ∈ [(Instr.parallelMove 15, RoomOp.par), (.longMove 15, .long)] ∧ m.y = false ∧ m.abs = some
      0x3F80 :=
  ⟨({ (up [(Reg.roomStatusState 15, 2)]) with rooms := [(15, { block := true, core := { p := [(0, 35184562159488)] } })] } : State), { kind := 2, y := false, reg := 0x35, abs := some 0x3F80 }, by decide +kernel⟩

theorem meets_RoomDataMoves_10 :
    ∃ s : State, (s.room 15).waiting = false ∧ s.roomReady 15 .ldi = some (.ldi 0x37 0xFFFFFFFF) :=
  ⟨({ (up [(Reg.roomStatusState 15, 2)]) with rooms := [(15, { block := true, core := { p := [(0, 67899137982463)] } })] } : State), by decide +kernel⟩

theorem meets_RoomDataMoves_11 :
    ∃ s : State, (s.room 15).waiting = false ∧ s.roomReady 15 .move = some (.move 0x34 0x33) :=
  ⟨({ (up [(Reg.roomStatusState 15, 2)]) with rooms := [(15, { block := true, core := { p := [(0, 71275787583488)] } })] } : State), by decide +kernel⟩

theorem meets_RoomDataMoves_12 :
    ∃ (rm : Room) (io : RoomIo) (b : Block) (p a : Nat), p = rm.core.read 0x32 .control ∧ rm.current = some b ∧ io.n = 1 ∧
      rm.block = true ∧ 128 ≤ a ∧ p < io.n ∧ b.released ≤ p :=
  ⟨{ block := true, blocks := [{ t0 := 0, ran := true }] }, { n := 1, binfo := 0 }, { t0 := 0, ran := true }, _, 255, rfl, rfl, rfl, by decide⟩

theorem meets_RoomDataMoves_13 :
    ∃ (rm : Room) (io : RoomIo) (b : Block) (p a : Nat), p = rm.core.read 0x32 .control ∧ rm.current = some b ∧ io.n = 1 ∧
      (rm.block = false ∨ a < 128) :=
  ⟨{ blocks := [{ t0 := 0, ran := true }] }, { n := 1, binfo := 0 }, { t0 := 0, ran := true }, _, 127, rfl, rfl, rfl, by decide⟩

theorem meets_RoomDataMoves_14 :
    ∃ (s : State) (m1 m2 : RoomMove) (k : Core), ArithRows 15 (.cpa 15) 0x07 (fun i => accWrite i (accVal i.ao) false) ∧
      s.roomReady 15 (.ar 0x07) = some (.data { op := 7 } [m1, m2] false) ∧ (s.room 15).waiting = false ∧ k = (s.room 15).core ∧
      m1.kind = 1 ∧ m2.kind = 1 ∧ m1.reg < 8 ∧ m2.reg < 8 ∧ m1.abs = none ∧ m2.abs = none ∧ (k.address m1.ptr m1.mode).1 < 0x3F00
      ∧ m2.y = true :=
  ⟨({ (up [(Reg.roomStatusState 15, 2)]) with rooms := [(15, { block := true, core := { p := [(0, 19516402767748)] } })] } : State), { kind := 1, y := false, reg := 1, ptr := 0, mode := 1 }, { kind := 1, y := true, reg := 7, ptr := 4, mode := 1 }, _, by simp [ArithRows], by decide +kernel, by decide +kernel, rfl, rfl, rfl, by decide, by decide, rfl, rfl, by decide +kernel, rfl⟩

theorem meets_RoomDataMoves_15 :
    ∃ (i : ArithIn) (w : Nat), i.sat = true ∧ w = ofInt 72 (-(2 ^ 63)) ∧ (-(2 ^ 63) : Int) - 1 < -(2 ^ 63) :=
  ⟨{ sat := true, ad := 0, ao := 0, a := 0, b := 0, sr := 0, k := 0, dbl := false }, _, rfl, rfl, by decide⟩

theorem meets_Guarding_1 :
    ready.fuse.hasRoom 18 = false ∧ ready.fuse.hasRoom 17 = true :=
  by decide +kernel

theorem meets_Guarding_2 :
    ∃ s u : State, u = s.gather.bump Reg.supParityErrors 1 ∧ s.fuse.hasRoom 15 = true ∧ u.roomOfCore 15 = some 15 ∧ (u.core
      15).service = 1 :=
  ⟨ready, _, rfl, by decide +kernel⟩

theorem meets_Guarding_3 :
    ∃ s u : State, u = s.gather.bump Reg.supParityErrors 1 ∧ s.fuse.hasRoom 15 = true ∧ u.roomOfCore 15 = some 15 ∧ (u.core
      15).service = 1 ∧ (u.guarded 15).next = none ∧ (u.room 15).restoring = false ∧ u.guard.vote = none ∧ u.inStep 15 = some 0 :=
  ⟨({ ready with guard := { slots := [(0, { core := some 16, state := 4, shadow := some 15 })] } } : State), _, rfl, by decide +kernel⟩

theorem meets_Guarding_4 :
    ∃ s u : State, u = s.gather.bump Reg.supParityErrors 1 ∧ s.fuse.hasRoom 15 = true ∧ s.fuse.hasRoom 17 = true ∧ u.roomOfCore 17
      = none ∧ (u.core 17).service = 1 ∧ u.slotOfCore 17 = some 1 ∧ (u.slot 1).state = 4 :=
  ⟨({ ready with guard := { slots := [(1, { core := some 17, state := 4 })] } } : State), _, rfl, by decide +kernel⟩

theorem meets_Guarding_5 :
    ∃ s u : State, u = s.gather.bump Reg.supParityErrors 1 ∧ s.fuse.hasRoom 15 = true ∧ s.fuse.hasRoom 17 = true ∧ u.roomOfCore 17
      = none ∧ (u.core 17).service = 1 ∧ u.slotOfCore 17 = some 1 ∧ (u.slot 1).state ≠ 4 :=
  ⟨({ ready with guard := { slots := [(1, { core := some 17, state := 1 })] } } : State), _, rfl, by decide +kernel⟩

theorem meets_Guarding_6 :
    ∃ s u : State, u = s.gather.bump Reg.supParityErrors 1 ∧ s.fuse.hasRoom 15 = true ∧ (u.core 15).service ≠ 1 :=
  ⟨({ ready with guard := { cores := [(15, { service := 3 })] } } : State), _, rfl, by decide +kernel⟩

theorem meets_Guarding_7 :
    ∃ s : State, (s.slot 1).state = 3 ∧ (s.slot 1).left = 0 :=
  ⟨({ ready with guard := { slots := [(1, { core := some 17, state := 3 })] } } : State), by decide⟩

theorem meets_Guarding_8 :
    (ready.slot 1).state ≠ 3 :=
  by decide +kernel

theorem meets_Guarding_9 :
    ∃ (s : State) (v : Vote), s.guard.vote = some v ∧ v.room = 15 :=
  ⟨({ ready with guard := { vote := some { room := 15, slot := 1, bcnt := 7 } } } : State), _, rfl, rfl⟩

theorem meets_Guarding_10 :
    ready.guard.vote = none :=
  by decide +kernel

theorem meets_Guarding_11 :
    ∃ s : State, (∀ k < 2, (s.slot k).state = 4) ∧ s.on Reg.guestCfgRotateEn = true ∧ 4096 ≤ (s.slot 1).clean :=
  ⟨({ (up [(Reg.guestCfgRotateEn, 1)]) with guard := { slots := [(0, { core := some 16, state := 4 }), (1, { core := some 17, state := 4, clean := 4096 })] } } : State), by decide +kernel⟩

theorem meets_Guarding_12 :
    (ready.slot 0).state = 1 ∧ (ready.slot 1).state = 1 ∧ (ready.slot 0).core = some 16 ∧ (ready.slot 1).core = some 17 :=
  by decide +kernel

theorem meets_Guarding_13 :
    ∃ (s u : State) (pass back : Bool), pass = true ∧ (s.core 15).service = 2 ∧ s.fuse.hasRoom 15 = true ∧ back = (pass &&
      (!(s.core 15).lost || (s.core 15).rejoin || s.on Reg.guestCfgAutoRejoin)) ∧ u = State.post ((State.bumpIf (s.gather.bump (if
      pass then Reg.supSelftestsPassed else Reg.supSelftestsFailed) 1) (!pass && !(s.core 15).counted) Reg.supFences).setCore 15
      (if back then {} else { service := 3, lost := (s.core 15).lost, counted := true })) 0xB006 (if pass then 4 else 6) [pack
      [(0, 15), (5, b2n pass)]] ∧ u.slotOfCore 15 = none :=
  ⟨({ ready with guard := { cores := [(15, { service := 2, lost := false, counted := false })] } } : State), _, true, _, rfl, by decide +kernel, by decide +kernel, rfl, rfl, by decide +kernel⟩

theorem meets_Guarding_14 :
    ∃ (s u : State) (pass back : Bool), pass = true ∧ (s.core 15).service = 2 ∧ s.fuse.hasRoom 15 = true ∧ back = (pass &&
      (!(s.core 15).lost || (s.core 15).rejoin || s.on Reg.guestCfgAutoRejoin)) ∧ u = State.post ((State.bumpIf (s.gather.bump (if
      pass then Reg.supSelftestsPassed else Reg.supSelftestsFailed) 1) (!pass && !(s.core 15).counted) Reg.supFences).setCore 15
      (if back then {} else { service := 3, lost := (s.core 15).lost, counted := true })) 0xB006 (if pass then 4 else 6) [pack
      [(0, 15), (5, b2n pass)]] ∧ u.slotOfCore 15 = none :=
  ⟨({ ready with guard := { cores := [(15, { service := 2, lost := true, counted := true })] } } : State), _, true, _, rfl, by decide +kernel, by decide +kernel, rfl, rfl, by decide +kernel⟩

theorem meets_Guarding_15 :
    ∃ (s u : State) (pass back : Bool), pass = false ∧ (s.core 15).service = 2 ∧ s.fuse.hasRoom 15 = true ∧ back = (pass &&
      (!(s.core 15).lost || (s.core 15).rejoin || s.on Reg.guestCfgAutoRejoin)) ∧ u = State.post ((State.bumpIf (s.gather.bump (if
      pass then Reg.supSelftestsPassed else Reg.supSelftestsFailed) 1) (!pass && !(s.core 15).counted) Reg.supFences).setCore 15
      (if back then {} else { service := 3, lost := (s.core 15).lost, counted := true })) 0xB006 (if pass then 4 else 6) [pack
      [(0, 15), (5, b2n pass)]] ∧ u.slotOfCore 15 = none :=
  ⟨({ ready with guard := { cores := [(15, { service := 2, lost := false, counted := false })] } } : State), _, false, _, rfl, by decide +kernel, by decide +kernel, rfl, rfl, by decide +kernel⟩

theorem meets_Guarding_16 :
    ∃ (s u : State) (pass back : Bool), pass = false ∧ (s.core 15).service = 2 ∧ s.fuse.hasRoom 15 = true ∧ back = (pass &&
      (!(s.core 15).lost || (s.core 15).rejoin || s.on Reg.guestCfgAutoRejoin)) ∧ u = State.post ((State.bumpIf (s.gather.bump (if
      pass then Reg.supSelftestsPassed else Reg.supSelftestsFailed) 1) (!pass && !(s.core 15).counted) Reg.supFences).setCore 15
      (if back then {} else { service := 3, lost := (s.core 15).lost, counted := true })) 0xB006 (if pass then 4 else 6) [pack
      [(0, 15), (5, b2n pass)]] ∧ u.slotOfCore 15 = none :=
  ⟨({ ready with guard := { cores := [(15, { service := 2, lost := true, counted := true })] } } : State), _, false, _, rfl, by decide +kernel, by decide +kernel, rfl, rfl, by decide +kernel⟩

theorem meets_Guarding_17 :
    ∃ s : State, (s.core 17).service = 2 ∧ s.fuse.hasRoom 17 = true ∧ (s.gather.bump Reg.supSelftestsPassed 1).slotOfCore 17 =
      some 1 ∧ (s.slot 1).state = 2 :=
  ⟨({ ready with guard := { slots := [(1, { core := some 17, state := 2 })], cores := [(17, { service := 2 })] } } : State), by decide +kernel⟩

theorem meets_Guarding_18 :
    (ready.core 15).service ≠ 2 :=
  by decide +kernel

theorem meets_Guarding_19 :
    ready.isCold 15 = false ∧ ready.fuse.isGuest 17 = true :=
  by decide +kernel

theorem meets_Guarding_20 :
    ∃ s : State, s.isCold 15 = true ∧ s.fuse.isGuest 15 = false ∧ s.fuse.hasRoom 15 = true ∧ (s.room 15).restoring = false ∧
      (s.guarded 15).snapTaking = none ∧ (s.snapPlace 15).isNone = true ∧ (s.guarded 15).snap = none ∧ (s.guarded 15).noRoom =
      false :=
  ⟨(up [(Reg.roomGuardGuard 15, 2), (Reg.cellarPartSnap, 0)]), by decide +kernel⟩

theorem meets_Guarding_21 :
    ∃ s : State, s.isCold 15 = true ∧ s.fuse.isGuest 15 = false ∧ s.fuse.hasRoom 15 = true ∧ (s.room 15).restoring = false ∧
      (s.guarded 15).snapTaking = none ∧ (s.snapPlace 15).any (fun u => decide ((u.room 15).block = false ∧ (u.room 15).waiting =
      false)) = true :=
  ⟨({ (up [(Reg.roomGuardGuard 15, 2)]) with rooms := [(15, { block := false })] } : State), by decide +kernel⟩

theorem meets_Guarding_22 :
    ∃ s : State, s.isCold 15 = true ∧ s.fuse.isGuest 15 = false ∧ s.fuse.hasRoom 15 = true ∧ (s.room 15).restoring = false ∧
      (s.guarded 15).snapTaking = none ∧ (s.snapPlace 15).any (fun u => decide ((u.room 15).block = true ∧ (u.room 15).waiting =
      false)) = true :=
  ⟨({ (up [(Reg.roomGuardGuard 15, 2)]) with rooms := [(15, { block := true })] } : State), by decide +kernel⟩

theorem meets_Guarding_23 :
    (ready.guarded 15).snapTaking = none ∧ (ready.guarded 15).restore = none :=
  by decide +kernel

theorem meets_Guarding_24 :
    ∃ (s : State) (x : Core × Nat), (s.guarded 15).snapTaking = some x ∧ (s.guarded 15).snap = none :=
  ⟨({ ready with guard := { rooms := [(15, { snapTaking := some ({}, 1) })] } } : State), ({}, 1), by decide⟩

theorem meets_Guarding_25 :
    ∃ (s : State) (x : Core × Nat), (s.guarded 15).snapTaking = some x ∧ (s.guarded 15).snap ≠ none :=
  ⟨({ ready with guard := { rooms := [(15, { snapTaking := some ({}, 1), snap := some ({}, 0) })] } } : State), ({}, 1), by decide⟩

theorem meets_Guarding_26 :
    ∃ (s : State) (x : Core × Nat), (s.guarded 15).restore = some 16 ∧ (s.guarded 15).snap = some x ∧ s.coreOf 15 = some 15 ∧
      (s.core 16).service = 1 ∧ (s.room 15).restoring = true :=
  ⟨({ ready with guard := { slots := [(0, { core := some 16, state := 6 })], rooms := [(15, { restore := some 16, snap := some ({}, 0) })] }, rooms := [(15, { restoring := true })] } : State), ({}, 0), by decide⟩

theorem meets_Guarding_27 :
    ({ ready with guard := { cores := [(15, { service := 3 })] } } : State).Accepts .host Reg.guestCmdCmd.key (val .u16 2 3841)
      .guestCmd 0 0 3841 ∧ field 3841 8 5 = 15 ∧ (({ ready with guard := { cores := [(15, { service := 3 })] } } : State).takes
      Reg.guestCmdCmd.key 3841).slotOfCore 15 = none ∧ field 3841 0 4 = 1 :=
  ⟨acc rfl (by decide +kernel), by decide +kernel⟩

theorem meets_Guarding_28 :
    ready.Accepts .host Reg.guestCmdCmd.key (val .u16 2 3842) .guestCmd 0 0 3842 ∧ field 3842 8 5 = 15 ∧ (ready.takes
      Reg.guestCmdCmd.key 3842).slotOfCore 15 = none ∧ field 3842 0 4 = 2 :=
  ⟨acc rfl (by decide +kernel), by decide +kernel⟩

theorem meets_Guarding_29 :
    ready.Accepts .host Reg.guestCmdCmd.key (val .u16 2 4354) .guestCmd 0 0 4354 ∧ field 4354 8 5 = 17 ∧ (ready.takes
      Reg.guestCmdCmd.key 4354).slotOfCore 17 = some 1 ∧ field 4354 0 4 = 2 :=
  ⟨acc rfl (by decide +kernel), by decide +kernel⟩

theorem meets_Guarding_30 :
    ready.Accepts .host (Reg.roomGuardGuard 15).key (val .u16 2 8004) .roomGuard 15 0 8004 :=
  acc rfl (by decide +kernel)

theorem meets_Guarding_31 :
    (up [(Reg.roomGuardGuard 15, 2)]).Accepts .host (Reg.roomGuardGuard 15).key (val .u16 2 10) .roomGuard 15 0 10 ∧ field ((up
      [(Reg.roomGuardGuard 15, 2)]).get (Reg.roomGuardGuard 15).key) 0 2 = 2 :=
  ⟨acc rfl (by decide +kernel), by decide +kernel⟩

theorem meets_Monitors_1 :
    ready.Accepts .host Reg.monCfgWarn.key (val .u32 4 355945) .monCfg 0 0 355945 ∧ field (ready.get Reg.monCfgWarn.key) 0 8 ≠
      (ready.takes Reg.monCfgWarn.key 355945).rd Reg.monCfgWarn :=
  ⟨acc rfl (by decide +kernel), by decide +kernel⟩

theorem meets_Monitors_2 :
    ready.Accepts .host Reg.monCfgWarn.key (val .u32 4 687460) .monCfg 0 0 687460 ∧ field (ready.get Reg.monCfgWarn.key) 0 8 =
      (ready.takes Reg.monCfgWarn.key 687460).rd Reg.monCfgWarn :=
  ⟨acc rfl (by decide +kernel), by decide +kernel⟩

theorem meets_Monitors_3 :
    ∃ m : State, m.fuse.grade = .f ∧ m.nominal 10 = some 3300 ∧ m.nominal 4 = some 1100 ∧ m.rd Reg.monCfgSupWin = 5 :=
  ⟨(up [(Reg.bankStatusVolt 3, 3)]), by decide +kernel⟩

theorem meets_Monitors_4 :
    ∃ (nom mv w : Nat), nom = 3300 ∧ w = 5 ∧ nom * 100 + nom * w ≥ mv * 100 ∧ mv * 100 + nom * w ≥ nom * 100 :=
  ⟨_, 3465, _, rfl, rfl, by decide⟩

theorem meets_Monitors_5 :
    ∃ (nom mv w : Nat), nom = 3300 ∧ w = 5 ∧ (nom * 100 + nom * w < mv * 100 ∨ mv * 100 + nom * w < nom * 100) :=
  ⟨_, 3466, _, rfl, rfl, by decide⟩

theorem meets_Monitors_6 :
    ∃ s : State, (s.supply 10).run = 9 ∧ (s.supply 10).hold.active = true :=
  ⟨({ (up [(Reg.bankStatusVolt 3, 3)]) with guard := { supply := [(10, { run := 9, hold := { active := true } })] } } : State), by decide⟩

theorem meets_Monitors_7 :
    ∃ s : State, (s.supply 10).run = 9 ∧ (s.supply 10).hold.active = false :=
  ⟨({ (up [(Reg.bankStatusVolt 3, 3)]) with guard := { supply := [(10, { run := 9, hold := { active := false } })] } } : State), by decide⟩

theorem meets_Monitors_8 :
    ∃ s : State, (s.supply 10).run = 8 ∧ (s.supply 10).hold.active = false :=
  ⟨({ (up [(Reg.bankStatusVolt 3, 3)]) with guard := { supply := [(10, { run := 8, hold := { active := false } })] } } : State), by decide⟩

theorem meets_Monitors_9 :
    (ready.supply 10).hold.count = 0 :=
  by decide +kernel

theorem meets_Monitors_10 :
    ∃ s : State, (s.supply 10).hold.active = true ∧ (s.supply 10).hold.count ≠ 0 :=
  ⟨{ ready with guard := { supply := [(10, { hold := { active := true, count := 1 } })] } }, by decide⟩

theorem meets_Monitors_11 :
    ∃ (u : State) (level : Int), level = 4 * (u.rd Reg.monCfgWarn : Nat) ∧ u.guard.warn = false ∧ level ≤ u.tempMax :=
  ⟨({ (up [(Reg.monCfgWarn, 100), (Reg.tempStatusTempMax, 400)]) with guard := { warn := false } } : State), _, rfl, by decide +kernel⟩

theorem meets_Monitors_12 :
    ∃ (u : State) (level : Int), level = 4 * (u.rd Reg.monCfgWarn : Nat) ∧ u.guard.warn = false ∧ u.tempMax < level :=
  ⟨({ (up [(Reg.monCfgWarn, 100), (Reg.tempStatusTempMax, 399)]) with guard := { warn := false } } : State), _, rfl, by decide +kernel⟩

theorem meets_Monitors_13 :
    ∃ (u : State) (level : Int), level = 4 * (u.rd Reg.monCfgWarn : Nat) ∧ u.guard.warn = true ∧ u.tempMax ≤ level - 20 :=
  ⟨({ (up [(Reg.monCfgWarn, 100), (Reg.tempStatusTempMax, 380)]) with guard := { warn := true } } : State), _, rfl, by decide +kernel⟩

theorem meets_Monitors_14 :
    ∃ (u : State) (level : Int), level = 4 * (u.rd Reg.monCfgWarn : Nat) ∧ u.guard.warn = true ∧ u.tempMax < level - 20 :=
  ⟨({ (up [(Reg.monCfgWarn, 100), (Reg.tempStatusTempMax, 379)]) with guard := { warn := true } } : State), _, rfl, by decide +kernel⟩

theorem meets_Monitors_15 :
    ∃ (u : State) (level : Int), level = 4 * (u.rd Reg.monCfgWarn : Nat) ∧ u.guard.warn = true ∧ level - 20 < u.tempMax :=
  ⟨({ (up [(Reg.monCfgWarn, 100), (Reg.tempStatusTempMax, 381)]) with guard := { warn := true } } : State), _, rfl, by decide +kernel⟩

theorem meets_Monitors_16 :
    ∃ s : State, s.fuse.grade ≠ .f :=
  ⟨{ ready with fuse := { grade := .q } }, by decide⟩

theorem meets_Monitors_17 :
    ∃ s : State, s.on Reg.vidStatusSettling = true :=
  ⟨(up [(Reg.vidStatusSettling, 1)]), by decide +kernel⟩

theorem meets_Monitors_18 :
    ∃ (s : State) (m : Nat), s.nominal 10 = none ∧ m = s.rd (Reg.bankStatusVolt 3) ∧ m < 4 :=
  ⟨ready, _, by decide +kernel, rfl, by decide +kernel⟩

theorem meets_Monitors_19 :
    ∃ (t : List Nat) (ext : Nat), t = 3500 :: List.replicate 9 3501 ∧ ext ∈ t.take 10 ∧ ∀ z ∈ t.take 10, z ≤ ext :=
  ⟨_, 3501, rfl, by decide⟩

theorem meets_Cellar_1 :
    (up [(Reg.asrcCfgDomainValid 63, 1)]).Accepts .host (Reg.dlyCfgEnable 1023).key (val .u64 8 208104718081) .dlyCfg 1023 0
      208104718081 ∧ bit 208104718081 0 = true ∧ bit ((up [(Reg.asrcCfgDomainValid 63, 1)]).get (Reg.dlyCfgEnable 1023).key) 0 =
      false :=
  ⟨acc rfl (by decide +kernel), by decide +kernel⟩

theorem meets_Cellar_2 :
    (up [(Reg.asrcCfgDomainValid 63, 1), (⟨(Reg.dlyCfgEnable 1023).key, 0, 64⟩, 208104718081)]).Accepts .host (Reg.dlyCfgEnable
      1023).key (val .u64 8 208104718081) .dlyCfg 1023 0 208104718081 ∧ bit 208104718081 0 = true ∧ ((up [(Reg.asrcCfgDomainValid
      63, 1), (⟨(Reg.dlyCfgEnable 1023).key, 0, 64⟩, 208104718081)]).takes (Reg.dlyCfgEnable 1023).key 208104718081).on
      (Reg.dlyCfgEnable 1023) = true ∧ bit ((up [(Reg.asrcCfgDomainValid 63, 1), (⟨(Reg.dlyCfgEnable 1023).key, 0, 64⟩,
      208104718081)]).get (Reg.dlyCfgEnable 1023).key) 0 = true :=
  ⟨acc rfl (by decide +kernel), by decide +kernel⟩

theorem meets_Cellar_3 :
    (up [(Reg.asrcCfgDomainValid 63, 1), (⟨(Reg.dlyCfgEnable 1023).key, 0, 64⟩, 208104718081)]).Accepts .host (Reg.dlyCfgEnable
      1023).key (val .u64 8 208104718080) .dlyCfg 1023 0 208104718080 ∧ bit 208104718080 0 = false ∧ ((up [(Reg.asrcCfgDomainValid
      63, 1), (⟨(Reg.dlyCfgEnable 1023).key, 0, 64⟩, 208104718081)]).takes (Reg.dlyCfgEnable 1023).key 208104718080).on
      (Reg.dlyCfgEnable 1023) = false :=
  ⟨acc rfl (by decide +kernel), by decide +kernel⟩

theorem meets_Cellar_4 :
    (up [(Reg.cellarPartJb, 100), (⟨Reg.recCfgMode.key, 0, 64⟩, 69632)]).Accepts .host Reg.recCfgMode.key (val .u64 8 69633)
      .recCfg 0 0 69633 ∧ ((up [(Reg.cellarPartJb, 100), (⟨Reg.recCfgMode.key, 0, 64⟩, 69632)]).takes Reg.recCfgMode.key 69633).rd
      Reg.recCfgMode = field 69633 0 2 ∧ field 69633 0 2 = 1 ∧ field ((up [(Reg.cellarPartJb, 100), (⟨Reg.recCfgMode.key, 0, 64⟩,
      69632)]).get Reg.recCfgMode.key) 0 2 ≠ field 69633 0 2 :=
  ⟨acc rfl (by decide +kernel), by decide +kernel⟩

theorem meets_Cellar_5 :
    (up [(Reg.cellarPartJb, 100), (⟨Reg.recCfgMode.key, 0, 64⟩, 69633)]).Accepts .host Reg.recCfgMode.key (val .u64 8 69633)
      .recCfg 0 0 69633 ∧ ((up [(Reg.cellarPartJb, 100), (⟨Reg.recCfgMode.key, 0, 64⟩, 69633)]).takes Reg.recCfgMode.key 69633).rd
      Reg.recCfgMode = field 69633 0 2 ∧ field 69633 0 2 = 1 ∧ field ((up [(Reg.cellarPartJb, 100), (⟨Reg.recCfgMode.key, 0, 64⟩,
      69633)]).get Reg.recCfgMode.key) 0 2 = field 69633 0 2 :=
  ⟨acc rfl (by decide +kernel), by decide +kernel⟩

theorem meets_Cellar_6 :
    (up [(Reg.cellarPartJb, 100), (⟨Reg.recCfgMode.key, 0, 64⟩, 69633)]).Accepts .host Reg.recCfgMode.key (val .u64 8 69634)
      .recCfg 0 0 69634 ∧ ((up [(Reg.cellarPartJb, 100), (⟨Reg.recCfgMode.key, 0, 64⟩, 69633)]).takes Reg.recCfgMode.key 69634).rd
      Reg.recCfgMode = field 69634 0 2 ∧ field 69634 0 2 = 2 ∧ field ((up [(Reg.cellarPartJb, 100), (⟨Reg.recCfgMode.key, 0, 64⟩,
      69633)]).get Reg.recCfgMode.key) 0 2 ≠ field 69634 0 2 :=
  ⟨acc rfl (by decide +kernel), by decide +kernel⟩

theorem meets_Cellar_7 :
    (up [(Reg.cellarPartJb, 100), (⟨Reg.recCfgMode.key, 0, 64⟩, 69634)]).Accepts .host Reg.recCfgMode.key (val .u64 8 69634)
      .recCfg 0 0 69634 ∧ ((up [(Reg.cellarPartJb, 100), (⟨Reg.recCfgMode.key, 0, 64⟩, 69634)]).takes Reg.recCfgMode.key 69634).rd
      Reg.recCfgMode = field 69634 0 2 ∧ field 69634 0 2 = 2 ∧ field ((up [(Reg.cellarPartJb, 100), (⟨Reg.recCfgMode.key, 0, 64⟩,
      69634)]).get Reg.recCfgMode.key) 0 2 = field 69634 0 2 :=
  ⟨acc rfl (by decide +kernel), by decide +kernel⟩

theorem meets_Cellar_8 :
    (up [(Reg.cellarPartJb, 100), (⟨Reg.recCfgMode.key, 0, 64⟩, 69634)]).Accepts .host Reg.recCfgMode.key (val .u64 8 69632)
      .recCfg 0 0 69632 ∧ ((up [(Reg.cellarPartJb, 100), (⟨Reg.recCfgMode.key, 0, 64⟩, 69634)]).takes Reg.recCfgMode.key 69632).rd
      Reg.recCfgMode = field 69632 0 2 ∧ field 69632 0 2 = 0 ∧ field ((up [(Reg.cellarPartJb, 100), (⟨Reg.recCfgMode.key, 0, 64⟩,
      69634)]).get Reg.recCfgMode.key) 0 2 ≠ field 69632 0 2 :=
  ⟨acc rfl (by decide +kernel), by decide +kernel⟩

theorem meets_Cellar_9 :
    (up [(Reg.cellarPartJb, 100), (⟨Reg.recCfgMode.key, 0, 64⟩, 69632)]).Accepts .host Reg.recCfgMode.key (val .u64 8 69632)
      .recCfg 0 0 69632 ∧ ((up [(Reg.cellarPartJb, 100), (⟨Reg.recCfgMode.key, 0, 64⟩, 69632)]).takes Reg.recCfgMode.key 69632).rd
      Reg.recCfgMode = field 69632 0 2 ∧ field 69632 0 2 = 0 ∧ field ((up [(Reg.cellarPartJb, 100), (⟨Reg.recCfgMode.key, 0, 64⟩,
      69632)]).get Reg.recCfgMode.key) 0 2 = field 69632 0 2 :=
  ⟨acc rfl (by decide +kernel), by decide +kernel⟩

theorem meets_Cellar_10 :
    (up [(Reg.cellarPartJb, 100), (⟨Reg.recCfgMode.key, 0, 64⟩, 69634)]).Accepts .host Reg.recCfgMode.key (val .u64 8 69633)
      .recCfg 0 0 69633 ∧ ((up [(Reg.cellarPartJb, 100), (⟨Reg.recCfgMode.key, 0, 64⟩, 69634)]).takes Reg.recCfgMode.key 69633).rd
      Reg.recCfgMode = field 69633 0 2 ∧ field 69633 0 2 = 1 ∧ field ((up [(Reg.cellarPartJb, 100), (⟨Reg.recCfgMode.key, 0, 64⟩,
      69634)]).get Reg.recCfgMode.key) 0 2 ≠ field 69633 0 2 :=
  ⟨acc rfl (by decide +kernel), by decide +kernel⟩

theorem meets_Cellar_11 :
    (up [(Reg.cellarPartJb, 100), (⟨Reg.recCfgMode.key, 0, 64⟩, 69632)]).Accepts .host Reg.recCfgMode.key (val .u64 8 69634)
      .recCfg 0 0 69634 ∧ ((up [(Reg.cellarPartJb, 100), (⟨Reg.recCfgMode.key, 0, 64⟩, 69632)]).takes Reg.recCfgMode.key 69634).rd
      Reg.recCfgMode = field 69634 0 2 ∧ field 69634 0 2 = 2 ∧ field ((up [(Reg.cellarPartJb, 100), (⟨Reg.recCfgMode.key, 0, 64⟩,
      69632)]).get Reg.recCfgMode.key) 0 2 ≠ field 69634 0 2 :=
  ⟨acc rfl (by decide +kernel), by decide +kernel⟩

theorem meets_Cellar_12 :
    ∃ s : State, s.rd Reg.recStatusState = 2 ∧ s.on Reg.recCfgRing = false ∧ s.rd Reg.recCfgLength ≤ s.cellar.taken.length :=
  ⟨{ (up [(Reg.recStatusState, 2), (Reg.recCfgLength, 1)]) with cellar := { taken := [(0, [1])] } }, by decide +kernel⟩

theorem meets_Cellar_13 :
    ready.rd Reg.recStatusState ≠ 2 :=
  by decide +kernel

theorem meets_Cellar_14 :
    (up [(Reg.ddrStatusState, 0)]).Accepts .host Reg.ddrCfgEnable.key (val .u16 2 25) .ddrCfg 0 0 25 ∧ bit 25 0 = true ∧ ((up
      [(Reg.ddrStatusState, 0)]).takes Reg.ddrCfgEnable.key 25).on Reg.ddrCfgEnable = true ∧ ((up [(Reg.ddrStatusState, 0)]).takes
      Reg.ddrCfgEnable.key 25).rd Reg.ddrStatusState = 0 :=
  ⟨acc rfl (by decide +kernel), by decide +kernel⟩

theorem meets_Cellar_15 :
    (up [(Reg.ddrStatusState, 3), (⟨Reg.ddrCfgEnable.key, 0, 16⟩, 25)]).Accepts .host Reg.ddrCfgEnable.key (val .u16 2 25) .ddrCfg
      0 0 25 ∧ bit 25 0 = true ∧ ((up [(Reg.ddrStatusState, 3), (⟨Reg.ddrCfgEnable.key, 0, 16⟩, 25)]).takes Reg.ddrCfgEnable.key
      25).on Reg.ddrCfgEnable = true ∧ ((up [(Reg.ddrStatusState, 3), (⟨Reg.ddrCfgEnable.key, 0, 16⟩, 25)]).takes
      Reg.ddrCfgEnable.key 25).rd Reg.ddrStatusState = 3 :=
  ⟨acc rfl (by decide +kernel), by decide +kernel⟩

theorem meets_Cellar_16 :
    (up [(Reg.ddrStatusState, 1), (⟨Reg.ddrCfgEnable.key, 0, 16⟩, 25)]).Accepts .host Reg.ddrCfgEnable.key (val .u16 2 25) .ddrCfg
      0 0 25 ∧ bit 25 0 = true ∧ ((up [(Reg.ddrStatusState, 1), (⟨Reg.ddrCfgEnable.key, 0, 16⟩, 25)]).takes Reg.ddrCfgEnable.key
      25).on Reg.ddrCfgEnable = true ∧ ((up [(Reg.ddrStatusState, 1), (⟨Reg.ddrCfgEnable.key, 0, 16⟩, 25)]).takes
      Reg.ddrCfgEnable.key 25).rd Reg.ddrStatusState = 1 :=
  ⟨acc rfl (by decide +kernel), by decide +kernel⟩

theorem meets_Cellar_17 :
    (up [(Reg.ddrStatusState, 2), (⟨Reg.ddrCfgEnable.key, 0, 16⟩, 25)]).Accepts .host Reg.ddrCfgEnable.key (val .u16 2 25) .ddrCfg
      0 0 25 ∧ bit 25 0 = true ∧ ((up [(Reg.ddrStatusState, 2), (⟨Reg.ddrCfgEnable.key, 0, 16⟩, 25)]).takes Reg.ddrCfgEnable.key
      25).on Reg.ddrCfgEnable = true ∧ ((up [(Reg.ddrStatusState, 2), (⟨Reg.ddrCfgEnable.key, 0, 16⟩, 25)]).takes
      Reg.ddrCfgEnable.key 25).rd Reg.ddrStatusState = 2 :=
  ⟨acc rfl (by decide +kernel), by decide +kernel⟩

theorem meets_Cellar_18 :
    (up [(Reg.ddrStatusState, 2), (⟨Reg.ddrCfgEnable.key, 0, 16⟩, 25)]).Accepts .host Reg.ddrCfgEnable.key (val .u16 2 24) .ddrCfg
      0 0 24 ∧ bit 24 0 = false ∧ ((up [(Reg.ddrStatusState, 2), (⟨Reg.ddrCfgEnable.key, 0, 16⟩, 25)]).takes Reg.ddrCfgEnable.key
      24).on Reg.ddrCfgEnable = false :=
  ⟨acc rfl (by decide +kernel), by decide +kernel⟩

theorem meets_Cellar_19 :
    (up [(Reg.ddrStatusState, 1)]).rd Reg.ddrStatusState = 1 ∧ (up [(Reg.ddrStatusState, 2)]).rd Reg.ddrStatusState = 2 ∧ ready.rd
      Reg.ddrStatusState = 0 :=
  by decide +kernel

theorem meets_KdpRequests_1 :
    ∃ (s : State) (msg : List Byte), KdpRows .host msg (.kdpHelloOpen .host msg) 1 ∧ kdpKind msg = 1 ∧ s.host.request = some msg :=
  ⟨{ ready with host := { request := some [75, 16, 1, 0, 0, 0, 0, 0, 0, 0, 0, 1, 0, 0, 0, 1, 0] } }, [75, 16, 1, 0, 0, 0, 0, 0, 0, 0, 0, 1, 0, 0, 0, 1, 0], by simp [KdpRows], by decide +kernel, rfl⟩

theorem meets_KdpRequests_2 :
    ∃ (s : State) (msg : List Byte), KdpRows .host msg (.kdpHelloClose .host msg) 2 ∧ kdpKind msg = 2 ∧ s.host.request = some msg :=
  ⟨{ ready with host := { request := some [75, 16, 1, 0, 0, 0, 0, 0, 0, 0, 0, 1, 0, 0, 0, 1, 1] } }, [75, 16, 1, 0, 0, 0, 0, 0, 0, 0, 0, 1, 0, 0, 0, 1, 1], by simp [KdpRows], by decide +kernel, rfl⟩

theorem meets_KdpRequests_3 :
    ∃ (s : State) (msg : List Byte), KdpRows .host msg (.kdpHelloKeepalive .host msg) 3 ∧ kdpKind msg = 3 ∧ s.host.request = some
      msg :=
  ⟨{ ready with host := { request := some [75, 16, 1, 0, 0, 0, 0, 0, 0, 0, 0, 1, 0, 0, 0, 1, 2] } }, [75, 16, 1, 0, 0, 0, 0, 0, 0, 0, 0, 1, 0, 0, 0, 1, 2], by simp [KdpRows], by decide +kernel, rfl⟩

theorem meets_KdpRequests_4 :
    ∃ (s : State) (msg : List Byte), KdpRows .host msg (.kdpAuth .host msg) 4 ∧ kdpKind msg = 4 ∧ s.host.request = some msg :=
  ⟨{ ready with host := { request := some [75, 16, 2, 0, 0, 0, 0, 0, 0, 0, 0, 1, 0, 0, 0, 1, 0] } }, [75, 16, 2, 0, 0, 0, 0, 0, 0, 0, 0, 1, 0, 0, 0, 1, 0], by simp [KdpRows], by decide +kernel, rfl⟩

theorem meets_KdpRequests_5 :
    ∃ (s : State) (msg : List Byte), KdpRows .host msg (.kdpGet .host msg) 5 ∧ kdpKind msg = 5 ∧ s.host.request = some msg :=
  ⟨{ ready with host := { request := some [75, 16, 3, 0, 0, 0, 0, 0, 0, 0, 0, 1, 0, 0, 0, 2, 0, 0] } }, [75, 16, 3, 0, 0, 0, 0, 0, 0, 0, 0, 1, 0, 0, 0, 2, 0, 0], by simp [KdpRows], by decide +kernel, rfl⟩

theorem meets_KdpRequests_6 :
    ∃ (s : State) (msg : List Byte), KdpRows .host msg (.kdpGetbulk .host msg) 6 ∧ kdpKind msg = 6 ∧ s.host.request = some msg :=
  ⟨{ ready with host := { request := some [75, 16, 5, 0, 0, 0, 0, 0, 0, 0, 0, 1, 0, 0, 0, 1, 0] } }, [75, 16, 5, 0, 0, 0, 0, 0, 0, 0, 0, 1, 0, 0, 0, 1, 0], by simp [KdpRows], by decide +kernel, rfl⟩

theorem meets_KdpRequests_7 :
    ∃ (s : State) (msg : List Byte), KdpRows .host msg (.kdpSet .host msg) 7 ∧ kdpKind msg = 7 ∧ s.host.request = some msg :=
  ⟨{ ready with host := { request := some [75, 16, 4, 0, 0, 0, 0, 0, 0, 0, 0, 1, 0, 0, 0, 1, 0] } }, [75, 16, 4, 0, 0, 0, 0, 0, 0, 0, 0, 1, 0, 0, 0, 1, 0], by simp [KdpRows], by decide +kernel, rfl⟩

theorem meets_KdpRequests_8 :
    ∃ (s : State) (msg : List Byte), KdpRows .host msg (.kdpSetbulk .host msg) 8 ∧ kdpKind msg = 8 ∧ s.host.request = some msg :=
  ⟨{ ready with host := { request := some [75, 16, 6, 0, 0, 0, 0, 0, 0, 0, 0, 1, 0, 0, 0, 1, 0] } }, [75, 16, 6, 0, 0, 0, 0, 0, 0, 0, 0, 1, 0, 0, 0, 1, 0], by simp [KdpRows], by decide +kernel, rfl⟩

theorem meets_KdpRequests_9 :
    ∃ (s : State) (msg : List Byte), KdpRows .host msg (.kdpSetStage .host msg) 9 ∧ kdpKind msg = 9 ∧ s.host.request = some msg :=
  ⟨{ ready with host := { request := some [75, 16, 4, 8, 0, 0, 0, 0, 0, 0, 0, 1, 0, 0, 0, 1, 0] } }, [75, 16, 4, 8, 0, 0, 0, 0, 0, 0, 0, 1, 0, 0, 0, 1, 0], by simp [KdpRows], by decide +kernel, rfl⟩

theorem meets_KdpRequests_10 :
    ∃ (s : State) (msg : List Byte), KdpRows .host msg (.kdpCommitBegin .host msg) 10 ∧ kdpKind msg = 10 ∧ s.host.request = some
      msg :=
  ⟨{ ready with host := { request := some [75, 16, 9, 0, 0, 0, 0, 0, 0, 0, 0, 1, 0, 0, 0, 16, 0, 0, 0, 0, 0, 0, 0, 0, 0, 0, 0, 0, 0, 0, 0, 0] } }, [75, 16, 9, 0, 0, 0, 0, 0, 0, 0, 0, 1, 0, 0, 0, 16, 0, 0, 0, 0, 0, 0, 0, 0, 0, 0, 0, 0, 0, 0, 0, 0], by simp [KdpRows], by decide +kernel, rfl⟩

theorem meets_KdpRequests_11 :
    ∃ (s : State) (msg : List Byte), KdpRows .host msg (.kdpCommitApply .host msg) 11 ∧ kdpKind msg = 11 ∧ s.host.request = some
      msg :=
  ⟨{ ready with host := { request := some [75, 16, 9, 0, 0, 0, 0, 0, 0, 0, 0, 1, 0, 0, 0, 16, 1, 0, 0, 0, 0, 0, 0, 0, 0, 0, 0, 0, 0, 0, 0, 0] } }, [75, 16, 9, 0, 0, 0, 0, 0, 0, 0, 0, 1, 0, 0, 0, 16, 1, 0, 0, 0, 0, 0, 0, 0, 0, 0, 0, 0, 0, 0, 0, 0], by simp [KdpRows], by decide +kernel, rfl⟩

theorem meets_KdpRequests_12 :
    ∃ (s : State) (msg : List Byte), KdpRows .host msg (.kdpCommitTimedApply .host msg) 12 ∧ kdpKind msg = 12 ∧ s.host.request =
      some msg :=
  ⟨{ ready with host := { request := some [75, 16, 9, 0, 0, 0, 0, 0, 0, 0, 0, 1, 0, 0, 0, 16, 1, 0, 0, 0, 0, 0, 0, 0, 0, 0, 0, 0, 0, 0, 0, 1] } }, [75, 16, 9, 0, 0, 0, 0, 0, 0, 0, 0, 1, 0, 0, 0, 16, 1, 0, 0, 0, 0, 0, 0, 0, 0, 0, 0, 0, 0, 0, 0, 1], by simp [KdpRows], by decide +kernel, rfl⟩

theorem meets_KdpRequests_13 :
    ∃ (s : State) (msg : List Byte), KdpRows .host msg (.kdpCommitDiscard .host msg) 13 ∧ kdpKind msg = 13 ∧ s.host.request = some
      msg :=
  ⟨{ ready with host := { request := some [75, 16, 9, 0, 0, 0, 0, 0, 0, 0, 0, 1, 0, 0, 0, 16, 2, 0, 0, 0, 0, 0, 0, 0, 0, 0, 0, 0, 0, 0, 0, 0] } }, [75, 16, 9, 0, 0, 0, 0, 0, 0, 0, 0, 1, 0, 0, 0, 16, 2, 0, 0, 0, 0, 0, 0, 0, 0, 0, 0, 0, 0, 0, 0, 0], by simp [KdpRows], by decide +kernel, rfl⟩

theorem meets_KdpRequests_14 :
    ∃ (s : State) (msg : List Byte), KdpRows .host msg (.kdpCommitDiscardWaiting .host msg) 14 ∧ kdpKind msg = 14 ∧ s.host.request
      = some msg :=
  ⟨{ ready with host := { request := some [75, 16, 9, 0, 0, 0, 0, 0, 0, 0, 0, 1, 0, 0, 0, 16, 2, 0, 1, 0, 0, 0, 0, 0, 0, 0, 0, 0, 0, 0, 0, 0] } }, [75, 16, 9, 0, 0, 0, 0, 0, 0, 0, 0, 1, 0, 0, 0, 16, 2, 0, 1, 0, 0, 0, 0, 0, 0, 0, 0, 0, 0, 0, 0, 0], by simp [KdpRows], by decide +kernel, rfl⟩

theorem meets_KdpRequests_15 :
    ∃ (s : State) (msg : List Byte), KdpRows .host msg (.kdpSubscribeList .host msg) 15 ∧ kdpKind msg = 15 ∧ s.host.request = some
      msg :=
  ⟨{ ready with host := { request := some [75, 16, 7, 0, 0, 0, 0, 0, 0, 0, 0, 1, 0, 0, 0, 1, 0] } }, [75, 16, 7, 0, 0, 0, 0, 0, 0, 0, 0, 1, 0, 0, 0, 1, 0], by simp [KdpRows], by decide +kernel, rfl⟩

theorem meets_KdpRequests_16 :
    ∃ (s : State) (msg : List Byte), KdpRows .host msg (.kdpSubscribeRange .host msg) 16 ∧ kdpKind msg = 16 ∧ s.host.request =
      some msg :=
  ⟨{ ready with host := { request := some [75, 16, 7, 0, 0, 0, 0, 0, 0, 0, 0, 1, 0, 0, 0, 1, 1] } }, [75, 16, 7, 0, 0, 0, 0, 0, 0, 0, 0, 1, 0, 0, 0, 1, 1], by simp [KdpRows], by decide +kernel, rfl⟩

theorem meets_KdpRequests_17 :
    ∃ (s : State) (msg : List Byte), KdpRows .host msg (.kdpSubscribeRemove .host msg) 17 ∧ kdpKind msg = 17 ∧ s.host.request =
      some msg :=
  ⟨{ ready with host := { request := some [75, 16, 7, 0, 0, 0, 0, 0, 0, 0, 0, 1, 0, 0, 0, 1, 2] } }, [75, 16, 7, 0, 0, 0, 0, 0, 0, 0, 0, 1, 0, 0, 0, 1, 2], by simp [KdpRows], by decide +kernel, rfl⟩

theorem meets_KdpRequests_18 :
    kdpKind [] ≠ 5 ∧ kdpKind [75, 16, 9, 0, 0, 0, 0, 0, 0, 0, 0, 1, 0, 0, 0, 16, 3, 0, 0, 0, 0, 0, 0, 0, 0, 0, 0, 0, 0, 0, 0, 0] =
      0 ∧ ready.host.request ≠ some [75, 16, 3, 0, 0, 0, 0, 0, 0, 0, 0, 1, 0, 0, 0, 2, 0, 0] :=
  by decide +kernel

theorem meets_KdpRequests_19 :
    ready.kdpListens 2 = false :=
  by decide +kernel

theorem meets_KdpRequests_20 :
    ∃ s : State, s.kdpListens 0 = true :=
  ⟨(up [(Reg.kdpCfgListenA, 1), (Reg.portIpv4Addr 0, 1), (Reg.portCfgEnable 0, 1)]), by decide +kernel⟩

theorem meets_KdpRequests_21 :
    parseKdp [] true = none :=
  by decide +kernel

theorem meets_KdpRequests_22 :
    ∃ m, parseKdp [75, 16, 3, 0, 0, 0, 0, 9, 0, 0, 0, 1, 0, 0, 0, 2, 0, 0] true = some m ∧ ¬(m.ty = 1 ∧ at_ m.body 0 1 = 0 ∧
      m.body ≠ []) ∧ ready.sessionOf .host m = none :=
  ⟨_, rfl, by decide +kernel⟩

theorem meets_KdpRequests_23 :
    ∃ m, parseKdp [75, 16, 1, 0, 0, 0, 0, 9, 0, 0, 0, 1, 0, 0, 0, 0] true = some m ∧ m.ty = 1 ∧ m.body = [] ∧ ready.sessionOf
      .host m = none :=
  ⟨_, rfl, by decide +kernel⟩

theorem meets_KdpRequests_24 :
    ∃ (s u : State) (m : KdpMsg) (x : Session), u = s.bump Reg.kdpRxMsgs 1 ∧ parseKdp [75, 16, 3, 0, 128, 0, 0, 16, 0, 0, 0, 5, 0,
      0, 0, 8, 0, 1, 0, 0, 0, 0, 0, 0] false = some m ∧ u.sessionOf (.net 2 1 5 7) m = some 16 ∧ u.sess 16 = some x ∧ u.ignored
      (.net 2 1 5 7) m = false ∧ x.authed = true ∧ bit m.flags 2 = false :=
  ⟨({ ready with kdp := { net := [(16, some { id := 0x80000010, port := 2, ip := 1, udp := 5, authed := true, role := 1, sk := [1] })] } } : State), _, _, _, rfl, rfl, by decide +kernel, rfl, by decide +kernel, by decide +kernel⟩

theorem meets_KdpRequests_25 :
    ∃ (s u : State) (m : KdpMsg) (x : Session), u = s.bump Reg.kdpRxMsgs 1 ∧ parseKdp [75, 16, 3, 4, 128, 0, 0, 16, 0, 0, 0, 5, 0,
      0, 0, 8, 0, 1, 0, 0, 0, 0, 0, 0, 0, 0, 0, 0, 0, 0, 0, 0, 0, 0, 0, 0, 0, 0, 0, 0] false = some m ∧ u.sessionOf (.net 2 1 5 7)
      m = some 16 ∧ u.sess 16 = some x ∧ u.ignored (.net 2 1 5 7) m = false ∧ x.authed = true ∧ bit m.flags 2 = true ∧ m.mac ≠
      kdpMac x.sk 0 m.head m.body :=
  ⟨({ ready with kdp := { net := [(16, some { id := 0x80000010, port := 2, ip := 1, udp := 5, authed := true, role := 1, sk := [1] })] } } : State), _, _, _, rfl, rfl, by decide +kernel, rfl, by decide +kernel, by decide +kernel⟩

theorem meets_KdpRequests_26 :
    ∃ (s u : State) (m : KdpMsg) (x : Session), u = s.bump Reg.kdpRxMsgs 1 ∧ parseKdp [75, 16, 3, 0, 128, 0, 0, 16, 0, 0, 0, 0, 0,
      0, 0, 8, 0, 1, 0, 0, 0, 0, 0, 0] false = some m ∧ u.sessionOf (.net 2 1 5 7) m = some 16 ∧ u.sess 16 = some x ∧ u.ignored
      (.net 2 1 5 7) m = false ∧ x.authed = false ∧ x.seqOk m.seq = false :=
  ⟨({ ready with kdp := { net := [(16, some { id := 0x80000010, port := 2, ip := 1, udp := 5 })] } } : State), _, _, _, rfl, rfl, by decide +kernel, rfl, by decide +kernel, by decide +kernel⟩

theorem meets_KdpRequests_27 :
    ∃ (s u : State) (m : KdpMsg) (x : Session), u = s.bump Reg.kdpRxMsgs 1 ∧ parseKdp [75, 17, 3, 0, 128, 0, 0, 16, 0, 0, 0, 5, 0,
      0, 0, 8, 0, 1, 0, 0, 0, 0, 0, 0] false = some m ∧ u.sessionOf (.net 2 1 5 7) m = some 16 ∧ u.sess 16 = some x ∧ u.ignored
      (.net 2 1 5 7) m = false ∧ x.authed = false ∧ x.seqOk m.seq = true ∧ m.ty ≠ 1 ∧ m.version ≠ x.version :=
  ⟨({ ready with kdp := { net := [(16, some { id := 0x80000010, port := 2, ip := 1, udp := 5 })] } } : State), _, _, _, rfl, rfl, by decide +kernel, rfl, by decide +kernel, by decide +kernel⟩

theorem meets_KdpRequests_28 :
    ∃ (s u : State) (m : KdpMsg) (x : Session), u = s.bump Reg.kdpRxMsgs 1 ∧ parseKdp [75, 16, 3, 0, 128, 0, 0, 16, 255, 255, 255,
      255, 0, 0, 0, 8, 0, 1, 0, 0, 0, 0, 0, 0] false = some m ∧ u.sessionOf (.net 2 1 5 7) m = some 16 ∧ u.sess 16 = some x ∧
      u.ignored (.net 2 1 5 7) m = false ∧ x.authed = false ∧ x.seqOk m.seq = true ∧ m.version = x.version :=
  ⟨({ ready with kdp := { net := [(16, some { id := 0x80000010, port := 2, ip := 1, udp := 5 })] } } : State), _, _, _, rfl, rfl, by decide +kernel, rfl, by decide +kernel, by decide +kernel⟩

theorem meets_KdpRequests_29 :
    ∃ (s u : State) (m : KdpMsg) (x : Session), u = s.bump Reg.kdpRxMsgs 1 ∧ parseKdp [75, 17, 1, 0, 128, 0, 0, 16, 0, 0, 0, 5, 0,
      0, 0, 1, 2] false = some m ∧ u.sessionOf (.net 2 1 5 7) m = some 16 ∧ u.sess 16 = some x ∧ u.ignored (.net 2 1 5 7) m =
      false ∧ x.authed = false ∧ x.seqOk m.seq = true ∧ m.ty = 1 ∧ m.version ≠ x.version :=
  ⟨({ ready with kdp := { net := [(16, some { id := 0x80000010, port := 2, ip := 1, udp := 5 })] } } : State), _, _, _, rfl, rfl, by decide +kernel, rfl, by decide +kernel, by decide +kernel⟩

theorem meets_KdpRequests_30 :
    ∃ (s u : State) (m : KdpMsg) (x : Session), u = s.bump Reg.kdpRxMsgs 1 ∧ parseKdp [75, 16, 3, 0, 0, 0, 0, 0, 0, 0, 0, 0, 0, 0,
      0, 8, 0, 1, 0, 0, 0, 0, 0, 0] true = some m ∧ u.sessionOf .host m = some 0 ∧ u.sess 0 = some x ∧ u.ignored .host m = false ∧
      x.authed = false ∧ m.version = x.version :=
  ⟨({ ready with kdp := { net := [(16, some { id := 0x80000010, port := 2, ip := 1, udp := 5 })] } } : State), _, _, _, rfl, rfl, by decide +kernel, rfl, by decide +kernel, by decide +kernel⟩

theorem meets_KdpRequests_31 :
    ∃ m, parseKdp [75, 16, 1, 0, 0, 0, 0, 0, 0, 0, 0, 1, 0, 0, 0, 1, 0] false = some m ∧
      ({ ready with kdp := { locked := [(1, 5)] } } : State).ignored (.net 2 1 5 7) m = true :=
  ⟨_, rfl, by decide +kernel⟩

theorem meets_KdpRequests_32 :
    ∃ m, parseKdp [75, 16, 1, 0, 0, 0, 0, 0, 0, 0, 0, 1, 0, 0, 0, 1, 0] false = some m ∧ ready.ignored (.net 2 1 5 7) m = false ∧
      m.ty = 1 ∧ at_ m.body 0 1 = 0 ∧ m.body ≠ [] :=
  ⟨_, rfl, by decide +kernel⟩

theorem meets_KdpRequests_33 :
    ∃ u : State, u.catchUp = u ∧ u.kdp.serving = some 16 ∧ u.kdp.closing = none :=
  ⟨serving16, quiet_of rfl, rfl, rfl⟩

theorem meets_KdpOperations_1 :
    ∃ (s : State) (m : KdpMsg) (v : Nat), v = min (at_ m.body 2 1) (s.rd Reg.kdpCfgVmax) ∧ m.body.length ≠ 20 :=
  ⟨ready, ({ version := 0x10, ty := 1, flags := 0, session := 0, seq := 1, body := [0, 16, 17, 0, 7, 7, 7, 7, 7, 7, 7, 7, 7, 7, 7, 7, 7, 7, 7, 7, 7], head := [], mac := [] } : KdpMsg), _, rfl, by decide +kernel⟩

theorem meets_KdpOperations_2 :
    ∃ (s : State) (m : KdpMsg) (v : Nat), v = min (at_ m.body 2 1) (s.rd Reg.kdpCfgVmax) ∧ m.body.length = 20 ∧ at_ m.body 3 1 = 0
      ∧ v < at_ m.body 1 1 :=
  ⟨ready, ({ version := 0x10, ty := 1, flags := 0, session := 0, seq := 1, body := [0, 18, 18, 0, 7, 7, 7, 7, 7, 7, 7, 7, 7, 7, 7, 7, 7, 7, 7, 7], head := [], mac := [] } : KdpMsg), _, rfl, by decide +kernel⟩

theorem meets_KdpOperations_3 :
    ∃ (s : State) (m : KdpMsg) (v : Nat), v = min (at_ m.body 2 1) (s.rd Reg.kdpCfgVmax) ∧ m.body.length = 20 ∧ at_ m.body 3 1 = 0
      ∧ v < s.rd Reg.kdpCfgVmin :=
  ⟨ready, ({ version := 0x10, ty := 1, flags := 0, session := 0, seq := 1, body := [0, 15, 15, 0, 7, 7, 7, 7, 7, 7, 7, 7, 7, 7, 7, 7, 7, 7, 7, 7], head := [], mac := [] } : KdpMsg), _, rfl, by decide +kernel⟩

theorem meets_KdpOperations_4 :
    ∃ (s : State) (m : KdpMsg) (v : Nat), v = min (at_ m.body 2 1) (s.rd Reg.kdpCfgVmax) ∧ m.body.length = 20 ∧ at_ m.body 3 1 = 0
      ∧ at_ m.body 1 1 ≤ v ∧ s.rd Reg.kdpCfgVmin ≤ v ∧ s.sess 1 = none :=
  ⟨ready, ({ version := 0x10, ty := 1, flags := 0, session := 0, seq := 1, body := [0, 16, 17, 0, 7, 7, 7, 7, 7, 7, 7, 7, 7, 7, 7, 7, 7, 7, 7, 7], head := [], mac := [] } : KdpMsg), _, rfl, by decide +kernel⟩

theorem meets_KdpOperations_5 :
    ∃ (s : State) (m : KdpMsg) (v : Nat), v = min (at_ m.body 2 1) (s.rd Reg.kdpCfgVmax) ∧ m.body.length = 20 ∧ at_ m.body 3 1 = 0
      ∧ at_ m.body 1 1 ≤ v ∧ s.rd Reg.kdpCfgVmin ≤ v ∧ s.sess 16 = none ∧ ∀ j < 15, s.sess (j + 1) ≠ none :=
  ⟨({ ready with kdp := { net := (List.range 15).map fun k => (k + 1, some {}) } } : State), ({ version := 0x10, ty := 1, flags := 0, session := 0, seq := 1, body := [0, 16, 17, 0, 7, 7, 7, 7, 7, 7, 7, 7, 7, 7, 7, 7, 7, 7, 7, 7], head := [], mac := [] } : KdpMsg), _, rfl, by decide +kernel⟩

theorem meets_KdpOperations_6 :
    ∃ (s : State) (m : KdpMsg) (v : Nat), v = min (at_ m.body 2 1) (s.rd Reg.kdpCfgVmax) ∧ m.body.length = 20 ∧ at_ m.body 3 1 = 0
      ∧ at_ m.body 1 1 ≤ v ∧ s.rd Reg.kdpCfgVmin ≤ v ∧ ∀ k < 16, s.sess (k + 1) ≠ none :=
  ⟨({ ready with kdp := { net := (List.range 16).map fun k => (k + 1, some {}) } } : State), ({ version := 0x10, ty := 1, flags := 0, session := 0, seq := 1, body := [0, 16, 17, 0, 7, 7, 7, 7, 7, 7, 7, 7, 7, 7, 7, 7, 7, 7, 7, 7], head := [], mac := [] } : KdpMsg), _, rfl, by decide +kernel⟩

theorem meets_KdpOperations_7 :
    ∃ body : List Byte, body.length ≠ 4 :=
  ⟨[], by decide⟩

theorem meets_KdpOperations_8 :
    ∃ body : List Byte, body.length = 4 ∧ at_ body 3 1 = 0 ∧ at_ body 0 1 = 1 :=
  ⟨[1, 0, 0, 0], by decide⟩

theorem meets_KdpOperations_9 :
    ∃ body : List Byte, body.length = 4 ∧ at_ body 3 1 = 0 ∧ at_ body 0 1 = 2 :=
  ⟨[2, 0, 0, 0], by decide⟩

theorem meets_KdpOperations_10 :
    ∃ (s : State) (x : Session) (m : KdpMsg) (slot : Nat) (sk : List Byte), s.on (Reg.keyStatusLoaded slot) = true ∧ s.on
      (Reg.keyCfgRole slot) = true ∧ m.seq = 1 ∧ bit m.flags 2 = true ∧ m.body = [7, 0, 0, 0] ∧ slot = at_ m.body 0 1 ∧ sk = hmac
      (blobBytes 8 (s.get (Reg.key slot).key)) (ascii "KDPS" ++ x.nonceC ++ x.nonceD ++ natBe 4 x.id) ∧ m.mac = kdpMac sk 0 m.head
      m.body :=
  ⟨(up [(Reg.keyStatusLoaded 7, 1), (Reg.keyCfgRole 7, 3)]), {}, authMsg _, 7, _, by decide +kernel, by decide +kernel, rfl, rfl, rfl, rfl, rfl, authMsg_mac _⟩

theorem meets_KdpOperations_11 :
    ∃ (s : State) (x : Session) (m : KdpMsg), s.on (Reg.keyStatusLoaded (at_ m.body 0 1)) = false ∧ x.authed = false :=
  ⟨ready, {}, ({ version := 0x10, ty := 1, flags := 0, session := 0, seq := 1, body := [7, 0, 0, 0], head := [], mac := [] } : KdpMsg), by decide +kernel, rfl⟩

theorem meets_KdpOperations_12 :
    ∃ s t : State, t = s.authFailed 7 1 ∧ (t.kdp.fails.filter (fun p => p.1 == 1)).length < 5 :=
  ⟨({ ready with kdp := { fails := List.replicate 3 (1, 0) } } : State), _, rfl, by decide +kernel⟩

theorem meets_KdpOperations_13 :
    ∃ s t : State, t = s.authFailed 7 1 ∧ (t.kdp.fails.filter (fun p => p.1 == 1)).length = 5 :=
  ⟨({ ready with kdp := { fails := List.replicate 4 (1, 0) } } : State), _, rfl, by decide +kernel⟩

theorem meets_KdpOperations_14 :
    ∃ s : State, s.kdp.hold.active = true :=
  ⟨{ ready with kdp := { hold := { active := true } } }, rfl⟩

theorem meets_KdpOperations_15 :
    ∃ s : State, s.kdp.hold.active = false :=
  ⟨{ ready with kdp := { hold := { active := false } } }, rfl⟩

theorem meets_KdpOperations_16 :
    ∃ body : List Byte, at_ body 1 1 = 0 ∧ at_ body 0 1 = 0 ∧ 12 ≤ body.length ∧ at_ body 10 2 = 0 ∧ 64 < at_ body 8 2 :=
  ⟨[0, 0, 0, 0, 0, 0, 0, 10, 0, 65, 0, 0], by decide⟩

theorem meets_KdpOperations_17 :
    ∃ body : List Byte, at_ body 1 1 = 0 ∧ at_ body 0 1 = 0 ∧ at_ body 10 2 = 0 ∧ at_ body 8 2 = 1 ∧ body.length = 12 + 4 * 1 :=
  ⟨[0, 0, 0, 0, 0, 0, 0, 10, 0, 1, 0, 0, 0, 0, 0, 1], by decide⟩

theorem meets_KdpOperations_18 :
    ∃ (body : List Byte) (x : Session), at_ body 1 1 = 0 ∧ at_ body 0 1 = 1 ∧ 4 ≤ body.length ∧ x.version = 0x10 :=
  ⟨[1, 0, 0, 0], {}, by decide⟩

theorem meets_KdpOperations_19 :
    ∃ (body : List Byte) (x : Session), at_ body 1 1 = 0 ∧ at_ body 0 1 = 1 ∧ x.version ≠ 0x10 ∧ body.length = 20 ∧ at_ body 15 1
      = 0 ∧ 1 ≤ at_ body 16 4 ∧ at_ body 16 4 ≤ 65536 ∧ 1 ≤ at_ body 12 3 :=
  ⟨[1, 0, 0, 0, 0, 0, 0, 10, 0, 0, 0, 1, 0, 0, 1, 0, 0, 1, 0, 0], { version := 0x11 }, by decide⟩

theorem meets_KdpOperations_20 :
    ∃ (s : State) (body : List Byte), at_ body 1 1 = 0 ∧ at_ body 0 1 = 2 ∧ body.length = 4 ∧ s.kdp.subs.any (fun b => b.ss == 16
      && b.id == at_ body 2 2) = true :=
  ⟨{ ready with kdp := { subs := [{ ss := 16, id := 3, keys := [0x101], period := 10 }] } }, [2, 0, 0, 3], by decide⟩

theorem meets_KdpOperations_21 :
    ∃ body : List Byte, at_ body 1 1 = 0 ∧ at_ body 0 1 = 2 ∧ body.length = 4 ∧ ready.kdp.subs = [] :=
  ⟨[2, 0, 0, 3], by decide⟩

theorem meets_KdpOperations_22 :
    (ready.unreadable .host [0xF0000001]).isSome = true ∧ ready.unreadable .host [(Reg.dlMiss 3).key] = none ∧
      (ready.kdp.subs.filter (fun b => b.ss == 16)).length < 16 :=
  by decide +kernel

theorem meets_KdpOperations_23 :
    ∃ s : State, 16 ≤ (s.kdp.subs.filter (fun b => b.ss == 16)).length :=
  ⟨{ ready with kdp := { subs := List.replicate 16 { ss := 16, id := 3, keys := [0x101], period := 10 } } }, by decide⟩

theorem meets_KdpOperations_24 :
    4 ≤ ([0, 65, 0, 0] : List Byte).length ∧ 64 < at_ [0, 65, 0, 0] 0 2 :=
  by decide +kernel

theorem meets_KdpOperations_25 :
    ∃ body : List Byte, 1 ≤ at_ body 0 2 ∧ at_ body 0 2 ≤ 64 ∧ body.length = 4 + 4 * at_ body 0 2 ∧ at_ body 3 1 = 0 ∧ at_ body 2
      1 = 0 :=
  ⟨[0, 2, 0, 0, 0, 0, 0, 1, 255, 255, 255, 255], by decide⟩

theorem meets_KdpOperations_26 :
    ∃ body : List Byte, 1 ≤ at_ body 0 2 ∧ at_ body 0 2 ≤ 64 ∧ body.length = 4 + 4 * at_ body 0 2 ∧ at_ body 3 1 = 0 ∧ at_ body 2
      1 = 1 :=
  ⟨[0, 2, 1, 0, 0, 0, 0, 1, 255, 255, 255, 255], by decide⟩

theorem meets_KdpOperations_27 :
    ∃ body : List Byte, body.length = 12 ∧ 1 ≤ at_ body 8 4 ∧ at_ body 8 4 ≤ 65536 ∧ 1 ≤ at_ body 4 3 ∧ at_ body 7 1 = 0 ∧ refAt
      body 0 / 256 + (at_ body 8 4 - 1) * at_ body 4 3 ≤ 0xFFFFFF ∧ ready.runFault .host none 0 (runKeys (refAt body 0) (at_ body
      4 3) (at_ body 8 4)) = some (0, .absent) :=
  ⟨[255, 255, 0, 1, 0, 0, 1, 0, 0, 0, 0, 2], by decide +kernel⟩

theorem meets_KdpOperations_28 :
    ∃ (body : List Byte) (l : List Item) (x : Session), at_ body 0 2 = 1 ∧ at_ body 2 2 = 0 ∧ readItems (at_ body 0 2) (body.drop
      4) = some l ∧ l = [⟨0x12345678, 1, [1]⟩] ∧ x.group = none :=
  ⟨[0, 1, 0, 0, 18, 52, 86, 120, 1, 0, 0, 0, 0, 0, 0, 1, 1, 0, 0, 0], [⟨0x12345678, 1, [1]⟩], {}, by decide +kernel⟩

theorem meets_KdpOperations_29 :
    ∃ (body : List Byte) (l : List Item) (x : Session), at_ body 0 2 = 1 ∧ at_ body 2 2 = 0 ∧ readItems (at_ body 0 2) (body.drop
      4) = some l ∧ l = [⟨0x12345678, 1, [1]⟩] ∧ x.group = some {} :=
  ⟨[0, 1, 0, 0, 18, 52, 86, 120, 1, 0, 0, 0, 0, 0, 0, 1, 1, 0, 0, 0], [⟨0x12345678, 1, [1]⟩], { group := some {} }, by decide +kernel⟩

theorem meets_KdpOperations_30 :
    (ready.setAll .host (bulkOrder (placed [itemOf (Reg.toneFreqFreq 15).key (val .u32 4 1)]))).isOk = true :=
  by decide +kernel

theorem meets_KdpOperations_31 :
    (ready.setAll .host (bulkOrder (placed [itemOf (Reg.toneFreqFreq 15).key (val .u32 4 1), itemOf 0xF0000001 (val .u8 1
      1)]))).isOk = false :=
  by decide +kernel

theorem meets_KdpOperations_32 :
    ∃ (body : List Byte) (x : Session), body.length = 16 ∧ at_ body 3 1 = 0 ∧ at_ body 1 1 ≤ 3 ∧ at_ body 2 1 ≤ 1 ∧ timeOk (at_
      body 4 12) = true ∧ (x.version = 0x10 → at_ body 1 1 = 0 ∧ at_ body 2 1 = 0 ∧ at_ body 4 12 = 0) ∧ at_ body 0 1 = 0 ∧
      x.group = none :=
  ⟨[0, 0, 0, 0, 0, 0, 0, 0, 0, 0, 0, 0, 0, 0, 0, 0], {}, by decide +kernel⟩

theorem meets_KdpOperations_33 :
    ∃ (body : List Byte) (x : Session), body.length = 16 ∧ at_ body 3 1 = 0 ∧ at_ body 1 1 ≤ 3 ∧ at_ body 2 1 ≤ 1 ∧ timeOk (at_
      body 4 12) = true ∧ (x.version = 0x10 → at_ body 1 1 = 0 ∧ at_ body 2 1 = 0 ∧ at_ body 4 12 = 0) ∧ at_ body 0 1 = 0 ∧
      x.group ≠ none :=
  ⟨[0, 3, 1, 0, 0, 0, 0, 0, 0, 0, 0, 0, 0, 0, 0, 1], { version := 0x11, group := some {} }, by decide +kernel⟩

theorem meets_KdpOperations_34 :
    ∃ (body : List Byte) (x : Session), body.length = 16 ∧ at_ body 3 1 = 0 ∧ at_ body 1 1 ≤ 3 ∧ at_ body 2 1 ≤ 1 ∧ timeOk (at_
      body 4 12) = true ∧ (x.version = 0x10 → at_ body 1 1 = 0 ∧ at_ body 2 1 = 0 ∧ at_ body 4 12 = 0) ∧ at_ body 0 1 = 1 ∧
      x.group = none :=
  ⟨[1, 0, 0, 0, 0, 0, 0, 0, 0, 0, 0, 0, 0, 0, 0, 0], {}, by decide +kernel⟩

theorem meets_KdpOperations_35 :
    ∃ (body : List Byte) (x : Session), body.length = 16 ∧ at_ body 3 1 = 0 ∧ at_ body 1 1 ≤ 3 ∧ at_ body 2 1 ≤ 1 ∧ timeOk (at_
      body 4 12) = true ∧ (x.version = 0x10 → at_ body 1 1 = 0 ∧ at_ body 2 1 = 0 ∧ at_ body 4 12 = 0) ∧ at_ body 0 1 = 1 ∧
      x.group.any (·.failed) = true ∧ at_ body 4 12 = 0 :=
  ⟨[1, 0, 0, 0, 0, 0, 0, 0, 0, 0, 0, 0, 0, 0, 0, 0], { group := some { failed := true } }, by decide +kernel⟩

theorem meets_KdpOperations_36 :
    ∃ (body : List Byte) (x : Session), body.length = 16 ∧ at_ body 3 1 = 0 ∧ at_ body 1 1 ≤ 3 ∧ at_ body 2 1 ≤ 1 ∧ timeOk (at_
      body 4 12) = true ∧ (x.version = 0x10 → at_ body 1 1 = 0 ∧ at_ body 2 1 = 0 ∧ at_ body 4 12 = 0) ∧ at_ body 0 1 = 1 ∧
      x.group.any (!·.failed) = true ∧ at_ body 4 12 = 0 :=
  ⟨[1, 0, 0, 0, 0, 0, 0, 0, 0, 0, 0, 0, 0, 0, 0, 0], { group := some {} }, by decide +kernel⟩

theorem meets_KdpOperations_37 :
    ∃ (s : State) (body : List Byte) (x : Session), body.length = 16 ∧ at_ body 3 1 = 0 ∧ at_ body 1 1 ≤ 3 ∧ at_ body 2 1 ≤ 1 ∧
      timeOk (at_ body 4 12) = true ∧ (x.version = 0x10 → at_ body 1 1 = 0 ∧ at_ body 2 1 = 0 ∧ at_ body 4 12 = 0) ∧ at_ body 0 1
      = 1 ∧ x.group.any (!·.failed) = true ∧ at_ body 4 12 ≠ 0 ∧ ofTime (at_ body 4 12) ≤ (s.viewNow (at_ body 1 1) % (timeMod :
      Int)).toNat + 2000000000 * 65536 ∧ x.waiting = none ∧ s.viewReached (at_ body 1 1) (ofTime (at_ body 4 12)) = false :=
  ⟨ready, [1, 3, 0, 0, 0, 0, 0, 0, 0, 1, 59, 154, 201, 255, 255, 255], { version := 0x11, group := some {} }, by decide +kernel⟩

theorem meets_KdpOperations_38 :
    ∃ (s : State) (body : List Byte) (x : Session), body.length = 16 ∧ at_ body 3 1 = 0 ∧ at_ body 1 1 ≤ 3 ∧ at_ body 2 1 ≤ 1 ∧
      timeOk (at_ body 4 12) = true ∧ (x.version = 0x10 → at_ body 1 1 = 0 ∧ at_ body 2 1 = 0 ∧ at_ body 4 12 = 0) ∧ at_ body 0 1
      = 1 ∧ x.group.any (!·.failed) = true ∧ at_ body 4 12 ≠ 0 ∧ ofTime (at_ body 4 12) ≤ (s.viewNow (at_ body 1 1) % (timeMod :
      Int)).toNat + 2000000000 * 65536 ∧ x.waiting = none ∧ s.viewReached (at_ body 1 1) (ofTime (at_ body 4 12)) = true :=
  ⟨(up [(Reg.tvOffsetOffset 3, 1000000000000000)]), [1, 3, 0, 0, 0, 0, 0, 0, 0, 1, 59, 154, 201, 255, 255, 255], { version := 0x11, group := some {} }, by decide +kernel⟩

theorem meets_KdpOperations_39 :
    ∃ (body : List Byte) (x : Session), body.length = 16 ∧ at_ body 3 1 = 0 ∧ at_ body 1 1 ≤ 3 ∧ at_ body 2 1 ≤ 1 ∧ timeOk (at_
      body 4 12) = true ∧ (x.version = 0x10 → at_ body 1 1 = 0 ∧ at_ body 2 1 = 0 ∧ at_ body 4 12 = 0) ∧ at_ body 0 1 = 2 ∧ at_
      body 2 1 = 0 ∧ x.group ≠ none :=
  ⟨[2, 0, 0, 0, 0, 0, 0, 0, 0, 0, 0, 0, 0, 0, 0, 0], { group := some {} }, by decide +kernel⟩

theorem meets_KdpOperations_40 :
    ∃ (body : List Byte) (x : Session), body.length = 16 ∧ at_ body 3 1 = 0 ∧ at_ body 1 1 ≤ 3 ∧ at_ body 2 1 ≤ 1 ∧ timeOk (at_
      body 4 12) = true ∧ (x.version = 0x10 → at_ body 1 1 = 0 ∧ at_ body 2 1 = 0 ∧ at_ body 4 12 = 0) ∧ at_ body 0 1 = 2 ∧ at_
      body 2 1 = 1 ∧ x.waiting ≠ none :=
  ⟨[2, 0, 1, 0, 0, 0, 0, 0, 0, 0, 0, 0, 0, 0, 0, 0], { version := 0x11, waiting := some { items := [], view := 0, at_ := 1, seq := 1 } }, by decide +kernel⟩

theorem meets_KdpTimes_1 :
    (ready.sess 0).bind (·.waiting) = none ∧ (ready.sess 0).bind (·.group) = none ∧ ready.sess 16 = none :=
  by decide +kernel

theorem meets_KdpTimes_2 :
    ∃ (s : State) (x : Session) (w : Waiting), s.sess 16 = some x ∧ x.waiting = some w ∧ (s.gather.advance (s.viewReaches w.view
      w.at_ s.rc)).viewReached w.view w.at_ = true :=
  ⟨({ ready with kdp := { net := [(16, some { id := 0x80000010, port := 2, ip := 1, udp := 5, waiting := some { items := [], view := 3, at_ := 5, seq := 1 } })] } } : State), _, _, rfl, rfl, by decide +kernel⟩

theorem meets_KdpTimes_3 :
    ∃ (s : State) (x : Session) (w : Waiting), s.sess 0 = some x ∧ x.waiting = some w ∧ (s.gather.advance (s.viewReaches w.view
      w.at_ s.rc)).viewReached w.view w.at_ = true :=
  ⟨({ ready with kdp := { host := { role := 4, waiting := some { items := [], view := 3, at_ := 5, seq := 1 } } } } : State), _, _, rfl, rfl, by decide +kernel⟩

theorem meets_KdpTimes_4 :
    ∃ (s : State) (x : Session) (w : Waiting), s.sess 16 = some x ∧ x.waiting = some w ∧ (s.gather.advance (s.viewReaches w.view
      w.at_ s.rc)).viewReached w.view w.at_ = false :=
  ⟨({ ready with kdp := { net := [(16, some { id := 0x80000010, port := 2, ip := 1, udp := 5, waiting := some { items := [], view := 3, at_ := timeMod, seq := 1 } })] } } : State), _, _, rfl, rfl, by decide +kernel⟩

theorem meets_KdpTimes_5 :
    ∃ (s : State) (x : Session) (g : Group), s.sess 16 = some x ∧ x.group = some g :=
  ⟨({ ready with kdp := { net := [(16, some { id := 0x80000010, port := 2, ip := 1, udp := 5, group := some {} })] } } : State), _, _, rfl, rfl⟩

theorem meets_KdpTimes_6 :
    ∃ (s a : State) (b : Sub) (x : Session), s.kdp.subs.find? (fun b => b.ss == 16 && b.id == 3) = some b ∧ s.sess 16 = some x ∧ a
      = s.advance b.due ∧ b.last = some ((b.keys.map (fun k => (a.readEntry x.who k false).1)).map (fun v => (v.2.1, v.1.code,
      v.2.2))) :=
  ⟨({ ready with kdp := { net := [(16, some { id := 0x80000010, port := 2, ip := 1, udp := 5 })], subs := [{ ss := 16, id := 3, keys := [0xF0000001], period := 10, last := some [(0, 1, [])] }] } } : State), _, _, _, rfl, rfl, rfl, by decide +kernel⟩

theorem meets_KdpTimes_7 :
    ∃ (s a : State) (b : Sub) (x : Session), s.kdp.subs.find? (fun b => b.ss == 16 && b.id == 3) = some b ∧ s.sess 16 = some x ∧ a
      = s.advance b.due ∧ b.last = none :=
  ⟨({ ready with kdp := { net := [(16, some { id := 0x80000010, port := 2, ip := 1, udp := 5 })], subs := [{ ss := 16, id := 3, keys := [0x101], period := 10, last := none }] } } : State), _, _, _, rfl, rfl, rfl, rfl⟩

theorem meets_KdpTimes_8 :
    ∃ s : State, s.lockout 1 = some 5 :=
  ⟨{ ready with kdp := { locked := [(1, 5)] } }, by decide⟩

theorem meets_KdpTimes_9 :
    ready.lockout 1 = none :=
  by decide +kernel

theorem meets_KdpTimes_10 :
    ∃ (s : State) (x : Session), s.sess 16 = some x ∧ x.authed = false ∧ x.role = 0 :=
  ⟨({ ready with kdp := { net := [(16, some { id := 0x80000010, port := 2, ip := 1, udp := 5 })] } } : State), _, rfl, rfl, rfl⟩

theorem meets_KdpTimes_11 :
    ∃ s : State, s.kdp.hold.active = true ∧ s.kdp.hold.count ≠ 0 :=
  ⟨{ ready with kdp := { hold := { active := true, count := 1 } } }, by decide⟩

theorem meets_KdpTimes_12 :
    ready.kdp.hold.count = 0 ∧ ready.kdp.save = none :=
  by decide +kernel

theorem meets_KdpTimes_13 :
    ready.Accepts .host Reg.kdpCfgListenM.key (val .u32 4 4279308545) .kdpCfg 0 0 4279308545 :=
  acc rfl (by decide +kernel)

theorem meets_KdpTimes_14 :
    ready.Accepts .host (Reg.key 7).key ⟨.blob, List.replicate 32 255⟩ .key 7 0 (2 ^ 256 - 1) :=
  acc rfl (by decide +kernel)

theorem meets_KdpTimes_15 :
    ready.Accepts .host (Reg.keyCfgRole 7).key (val .u8 1 3) .keyCfg 7 0 3 :=
  acc rfl (by decide +kernel)

theorem meets_KdpTimes_16 :
    ready.Accepts .host (Reg.sessionCloseCmd 16).key (val .u8 1 1) .sessionClose 16 0 1 ∧ ready.kdp.serving ≠ some 16 :=
  ⟨acc rfl (by decide +kernel), by decide +kernel⟩

theorem meets_KdpTimes_17 :
    serving16.Accepts .host (Reg.sessionCloseCmd 16).key (val .u8 1 1) .sessionClose 16 0 1 ∧ serving16.kdp.serving = some 16 :=
  ⟨acc rfl (by decide +kernel), by decide +kernel⟩

theorem meets_KdpTimes_18 :
    ready.Accepts .host Reg.saveCmdOp.key (val .u8 1 5) .saveCmd 0 0 5 :=
  acc rfl (by decide +kernel)

theorem meets_KdpTimes_19 :
    ∃ (s : State) (w : Save) (x : Image), s.kdp.save = some w ∧ s.flash.newest = some (1, x) ∧ x.gen = 2 ^ 32 - 1 :=
  ⟨{ saved with kdp := { save := some { slot := 0, freeze := true } } }, _, _, rfl, saved_newest, rfl⟩

theorem meets_PostingAnEvent_1 :
    ∃ s : State, 6 < s.threshold 0x1001 :=
  ⟨up [(Reg.lbSubMinMinPrio 1, 7)], by decide +kernel⟩

theorem meets_PostingAnEvent_2 :
    ready.threshold 0x1001 ≤ 7 ∧ lbWords ready.lb.fill + (⟨0x1001, 7, 0, [1, 2]⟩ : LbItem).size ≤ 512 ∧ ready.lb.drain = [] ∧
      ready.lb.fill = [] ∧ ready.lb.dropped = 0 ∧ ready.lb.displaced = 0 :=
  by decide +kernel

theorem meets_PostingAnEvent_3 :
    ∃ s : State, s.lb.drain ≠ [] ∧ lbWords s.lb.fill + (⟨0x1001, 7, 0, [1, 2]⟩ : LbItem).size = 512 :=
  ⟨({ ready with lb := { drain := [{ code := 0x1001, prio := 7, seq := 0, words := [] }], fill := List.replicate 509 ({ code := 0x1001, prio := 4, seq := 0, words := [] }) } } : State), by decide +kernel⟩

theorem meets_PostingAnEvent_4 :
    ∃ s : State, s.threshold 0x1001 ≤ 4 ∧ s.lb.drain ≠ [] ∧ 512 < lbWords s.lb.fill + (⟨0x1001, 4, 0, [1, 2]⟩ : LbItem).size ∧ ∀ j
      ∈ s.lb.fill, 4 ≤ j.prio :=
  ⟨({ ready with lb := { drain := [{ code := 0x1001, prio := 7, seq := 0, words := [] }], fill := List.replicate 510 ({ code := 0x1001, prio := 4, seq := 0, words := [] }) } } : State), by decide +kernel⟩

theorem meets_PostingAnEvent_5 :
    0x1001 ∉ lbKeys :=
  by decide +kernel

theorem meets_PostingAnEvent_6 :
    ∃ s : State, s.threshold 0x1001 ≤ 4 ∧ s.lb.asm = some [] :=
  ⟨({ ready with lb := { asm := some [] } } : State), by decide +kernel⟩

theorem meets_PostingAnEvent_7 :
    ∃ s : State, s.threshold 0x1001 ≤ 4 ∧ s.lb.asm = none ∧ s.lb.cut.find? (fun p => p.1 == 0x1001) = some (0x1001, true) :=
  ⟨({ ready with lb := { cut := [(0x2001, false), (0x1001, true)] } } : State), by decide +kernel⟩

theorem meets_PostingAnEvent_8 :
    ∃ s : State, s.threshold 0x1001 ≤ 4 ∧ s.lb.asm = none ∧ s.lb.drain ≠ [] ∧ 512 < lbWords s.lb.fill + (⟨0x1001, 4, 0, [1, 2]⟩ :
      LbItem).size ∧ lbWords (s.lb.fill.filter (fun j => 4 ≤ j.prio)) + (⟨0x1001, 4, 0, [1, 2]⟩ : LbItem).size ≤ 512 :=
  ⟨({ ready with lb := { drain := [{ code := 0x1001, prio := 7, seq := 0, words := [] }], fill := List.replicate 509 ({ code := 0x1001, prio := 4, seq := 0, words := [] }) ++ [{ code := 0x1001, prio := 3, seq := 0, words := [] }] } } : State), by decide +kernel⟩

theorem meets_PostingAnEvent_9 :
    ∃ s u : State, s.lb.asm = none ∧ u.lb.asm = some [⟨0x3001, 5, []⟩, ⟨0x2001, 5, []⟩] :=
  ⟨ready, ({ ready with lb := { asm := some [⟨0x3001, 5, []⟩, ⟨0x2001, 5, []⟩] } } : State), by decide⟩

theorem meets_PostingAnEvent_10 :
    ∃ s : State, s.lb.drain = [] ∧ s.lb.fill ≠ [] ∧ s.lb.dropped = 0 ∧ s.lb.displaced = 0 :=
  ⟨({ ready with lb := { fill := [{ code := 0x1001, prio := 7, seq := 0, words := [] }], dropped := 0, displaced := 0 } } : State), by decide⟩

theorem meets_PostingAnEvent_11 :
    ∃ s : State, s.lb.drain = [] ∧ s.lb.fill ≠ [] ∧ s.lb.dropped = 1 ∧ s.lb.displaced = 0 :=
  ⟨({ ready with lb := { fill := [{ code := 0x1001, prio := 7, seq := 0, words := [] }], dropped := 1, displaced := 0 } } : State), by decide⟩

theorem meets_PostingAnEvent_12 :
    ∃ s : State, s.lb.drain = [] ∧ s.lb.fill ≠ [] ∧ s.lb.dropped = 0 ∧ s.lb.displaced = 65536 :=
  ⟨({ ready with lb := { fill := [{ code := 0x1001, prio := 7, seq := 0, words := [] }], dropped := 0, displaced := 65536 } } : State), by decide⟩

theorem meets_HostPort_1 :
    State.reset.boot.low = true :=
  by decide +kernel

theorem meets_HostPort_2 :
    ∃ s : State, s.boot.low = false ∧ 0 ≠ crc32c (hpCommand 9 0 0 []) ∧ s.hpGate 9 0 0 [] 0 = 1 :=
  ⟨({ ready with boot := { low := false } } : State), by decide +kernel⟩

theorem meets_HostPort_3 :
    ∃ s : State, s.boot.low = false ∧ s.hpGate 5 0 65 [] (crc32c (hpCommand 5 0 65 [])) = 3 ∧ hpAllowed 5 0 65 0 = false :=
  ⟨({ ready with boot := { low := false } } : State), by decide +kernel⟩

theorem meets_HostPort_4 :
    ∃ s : State, s.boot.low = false ∧ s.hpGate 8 0 0 [] (crc32c (hpCommand 8 0 0 [])) = 7 ∧ hpAllowed 8 0 0 0 = true ∧ s.on
      Reg.deviceStatusChipReady = false :=
  ⟨({ State.reset with boot := { low := false } } : State), by decide +kernel⟩

theorem meets_HostPort_5 :
    ∃ s : State, s.boot.low = false ∧ s.hpGate 1 0 0 (List.replicate 16 0) (crc32c (hpCommand 1 0 0 (List.replicate 16 0))) = 2 ∧
      s.on Reg.deviceStatusChipReady = true ∧ s.host.request ≠ none :=
  ⟨({ ready with boot := { low := false }, host := { request := some [] } } : State), by decide +kernel⟩

theorem meets_HostPort_6 :
    ∃ s : State, s.boot.low = false ∧ s.hpGate 1 0 0 (List.replicate 16 0) (crc32c (hpCommand 1 0 0 (List.replicate 16 0))) = 0 :=
  ⟨({ ready with boot := { low := false } } : State), by decide +kernel⟩

theorem meets_HostPort_7 :
    ∃ s : State, s.boot.low = false ∧ s.hpGate 2 0 0 [] (crc32c (hpCommand 2 0 0 [])) = 0 ∧ s.host.reply = some [1] :=
  ⟨({ ready with boot := { low := false }, host := { reply := some [1] } } : State), by decide +kernel⟩

theorem meets_HostPort_8 :
    ∃ s : State, s.boot.low = false ∧ s.hpGate 2 0 0 [] (crc32c (hpCommand 2 0 0 [])) = 0 ∧ s.host.reply = none :=
  ⟨({ ready with boot := { low := false }, host := { reply := none } } : State), by decide +kernel⟩

theorem meets_HostPort_9 :
    ∃ s : State, s.boot.low = false ∧ s.hpGate 3 0 0 [] (crc32c (hpCommand 3 0 0 [])) = 0 ∧ s.host.notify = [(0xFFFF, [1, 2])] :=
  ⟨({ ready with boot := { low := false }, host := { notify := [(0xFFFF, [1, 2])] } } : State), by decide +kernel⟩

theorem meets_HostPort_10 :
    ∃ s : State, s.boot.low = false ∧ s.hpGate 3 0 0 [] (crc32c (hpCommand 3 0 0 [])) = 0 ∧ s.host.notify = [] :=
  ⟨({ ready with boot := { low := false }, host := { notify := [] } } : State), by decide +kernel⟩

theorem meets_HostPort_11 :
    ∃ s : State, s.boot.low = false ∧ s.hpGate 4 0 65535 [] (crc32c (hpCommand 4 0 65535 [])) = 0 ∧ s.host.notify = [(0xFFFF, [1,
      2])] :=
  ⟨({ ready with boot := { low := false }, host := { notify := [(0xFFFF, [1, 2])] } } : State), by decide +kernel⟩

theorem meets_HostPort_12 :
    ∃ s : State, s.boot.low = false ∧ s.hpGate 4 0 0 [] (crc32c (hpCommand 4 0 0 [])) = 0 ∧ s.host.notify = [(0xFFFF, [1, 2])] ∧
      0xFFFF % 2 ^ 16 ≠ 0 :=
  ⟨({ ready with boot := { low := false }, host := { notify := [(0xFFFF, [1, 2])] } } : State), by decide +kernel⟩

theorem meets_HostPort_13 :
    ∃ s : State, s.boot.low = false ∧ s.hpGate 5 1 64 [] (crc32c (hpCommand 5 1 64 [])) = 0 :=
  ⟨({ ready with boot := { low := false } } : State), by decide +kernel⟩

theorem meets_ReleaseMarkRewind_1 :
    ∃ s : State, s.boot.low = false ∧ s.hpGate 6 0 1 [] (crc32c (hpCommand 6 0 1 [])) = 0 ∧ s.lb.cursor < 1 :=
  ⟨({ ready with boot := { low := false } } : State), by decide +kernel⟩

theorem meets_ReleaseMarkRewind_2 :
    ∃ s : State, s.boot.low = false ∧ s.hpGate 6 0 512 [] (crc32c (hpCommand 6 0 512 [])) = 0 ∧ 512 ≤ s.lb.cursor :=
  ⟨({ ready with boot := { low := false }, lb := { cursor := 512 } } : State), by decide +kernel⟩

theorem meets_ReleaseMarkRewind_3 :
    ∃ s : State, s.boot.low = false ∧ s.hpGate 6 0 0 [] (crc32c (hpCommand 6 0 0 [])) = 0 ∧ 0 ≤ s.lb.cursor :=
  ⟨({ ready with boot := { low := false } } : State), by decide +kernel⟩

theorem meets_ReleaseMarkRewind_4 :
    ∃ s : State, s.boot.low = false ∧ s.hpGate 7 0 0 [] (crc32c (hpCommand 7 0 0 [])) = 0 :=
  ⟨({ ready with boot := { low := false } } : State), by decide +kernel⟩

theorem meets_ReleaseMarkRewind_5 :
    ∃ s : State, s.boot.low = false ∧ s.hpGate 8 0 0 [] (crc32c (hpCommand 8 0 0 [])) = 0 ∧ s.lb.mark = some 0 :=
  ⟨({ ready with boot := { low := false }, lb := { mark := some 0 } } : State), by decide +kernel⟩

theorem meets_ReleaseMarkRewind_6 :
    ∃ s : State, s.boot.low = false ∧ s.hpGate 8 0 0 [] (crc32c (hpCommand 8 0 0 [])) = 0 ∧ s.lb.mark = none :=
  ⟨({ ready with boot := { low := false } } : State), by decide +kernel⟩

theorem meets_HostPort_14 :
    ∃ s : State, s.boot.low = false ∧ s.hpGate 9 0 0 [] (crc32c (hpCommand 9 0 0 [])) = 0 :=
  ⟨({ ready with boot := { low := false } } : State), by decide +kernel⟩

theorem meets_HostPort_15 :
    ∃ s : State, s.boot.low = false ∧ s.hpGate 10 0 0 [7] (crc32c (hpCommand 10 0 0 [7])) = 0 :=
  ⟨({ ready with boot := { low := false } } : State), by decide +kernel⟩

theorem meets_HostPort_16 :
    hpAllowed 10 0 0 4096 = true ∧ hpAllowed 10 0 0 4097 = false ∧ hpAllowed 0 0 0 0 = false :=
  by decide +kernel

theorem meets_HostPort_17 :
    ready.Accepts .host Reg.lbCmdCmd.key (val .u8 1 1) .lbCmd 0 0 1 :=
  acc rfl (by decide +kernel)

theorem meets_Startup_1 :
    State.reset.boot.low = true ∧ ready.boot.detect = false ∧ ready.boot.record = false ∧ ready.rd Reg.deviceStatusClockState ≠ 1 :=
  by decide +kernel

theorem meets_Startup_2 :
    ∃ s : State, s.boot.low = false :=
  ⟨({ ready with boot := { low := false } } : State), rfl⟩

theorem meets_Startup_3 :
    ∃ s : State, s.boot.detect = true :=
  ⟨({ ready with boot := { low := false, detect := true } } : State), rfl⟩

theorem meets_Startup_4 :
    ∃ (s : State) (rec : List Byte), s.boot.record = true ∧ s.rd Reg.deviceStatusBootMode = 1 ∧ rec.length = 64 ∧ bootRecord rec
      (s.on Reg.deviceStatusLoInput) = some 4905 :=
  ⟨({ (up [(Reg.deviceStatusBootMode, 1)]) with boot := { low := false, record := true } } : State), [82, 86, 66, 67, 1, 9, 50, 1, 0, 0, 0, 0, 0, 0, 0, 0, 0, 0, 0, 0, 0, 0, 0, 0, 0, 0, 0, 0, 0, 0, 0, 0, 0, 0, 0, 0, 0, 0, 0, 0, 0, 0, 0, 0, 0, 0, 0, 0, 0, 0, 0, 0, 0, 0, 0, 0, 0, 0, 0, 0] ++ natBe 4 (crc32c [82, 86, 66, 67, 1, 9, 50, 1, 0, 0, 0, 0, 0, 0, 0, 0, 0, 0, 0, 0, 0, 0, 0, 0, 0, 0, 0, 0, 0, 0, 0, 0, 0, 0, 0, 0, 0, 0, 0, 0, 0, 0, 0, 0, 0, 0, 0, 0, 0, 0, 0, 0, 0, 0, 0, 0, 0, 0, 0, 0]), by decide +kernel⟩

theorem meets_Startup_5 :
    ∃ s : State, s.boot.record = true ∧ bootRecord [] (s.on Reg.deviceStatusLoInput) = none :=
  ⟨({ ready with boot := { low := false, record := true } } : State), by decide +kernel⟩

theorem meets_Startup_6 :
    (up [(Reg.deviceStatusClockState, 0)]).Accepts .host Reg.loCfgLoFreq.key (val .u16 2 4905) .loCfg 0 0 4905 :=
  acc rfl (by decide +kernel)

theorem meets_Startup_7 :
    ∃ s : State, s.rd Reg.deviceStatusClockState = 1 ∧ s.on (Reg.mdCtrlEnable 0) = true ∧ s.rd Reg.deviceStatusBootMode = 1 ∧
      s.boot.load = true ∧ s.on Reg.deviceStatusCfgInvalid = false :=
  ⟨({ (up [(Reg.deviceStatusClockState, 1), (Reg.mdCtrlEnable 0, 1), (Reg.deviceStatusBootMode, 1)]) with boot := { low := false, load := true } } : State), by decide +kernel⟩

theorem meets_Startup_8 :
    ∃ s : State, s.boot.low = false ∧ s.boot.detect = false ∧ s.on Reg.deviceStatusLoLost = false ∧ ∀ d < 4, s.running d = false :=
  ⟨({ ready with boot := { low := false } } : State), by decide +kernel⟩

theorem meets_Startup_9 :
    ∃ s : State, s.boot.low = false ∧ s.boot.detect = false ∧ s.on Reg.deviceStatusLoLost = false ∧ s.running 3 = true ∧ (s.tick
      3).open_ = true ∧ (s.tick 3).launched = false :=
  ⟨({ (up [(Reg.domainRunRunning 3, 1)]) with boot := { low := false }, path := { ticks := [(3, { open_ := true })] } } : State), by decide +kernel⟩

theorem meets_Startup_10 :
    (up [(Reg.deviceStatusLoLost, 1)]).on Reg.deviceStatusLoLost = true :=
  by decide +kernel

theorem meets_Startup_11 :
    ∃ s : State, s.boot.low = false ∧ s.boot.fabric = false ∧ s.boot.tested = false :=
  ⟨({ ready with boot := { low := false, tested := false } } : State), by decide⟩

theorem meets_Startup_12 :
    ∃ s : State, s.boot.low = false ∧ s.boot.fabric = false ∧ s.boot.tested = true :=
  ⟨({ ready with boot := { low := false, tested := true } } : State), by decide⟩

theorem meets_Startup_13 :
    ∃ s : State, s.boot.fabric = true ∧ s.rd Reg.deviceStatusBootMode = 0 :=
  ⟨({ ready with boot := { low := false, fabric := true } } : State), by decide +kernel⟩

theorem meets_Startup_14 :
    ∃ s : State, s.boot.load = true ∧ s.boot.fabric = true ∧ s.locked = true ∧ s.flash.newest = none :=
  ⟨({ ready with boot := { low := false, fabric := true, load := true } } : State), by decide +kernel⟩

theorem meets_Startup_15 :
    ∃ s : State, s.boot.load = true ∧ s.boot.fabric = true ∧ s.locked = true ∧ s.flash.newest = some (1, lastImage) :=
  ⟨({ saved with boot := { low := false, fabric := true, load := true } } : State), rfl, rfl, by decide +kernel, saved_newest⟩

theorem meets_Startup_16 :
    ready.boot.load = false ∧ ready.boot.fabric = false :=
  by decide +kernel

theorem meets_SelfTests_1 :
    ready.Accepts .host Reg.dwTestRoom.key ⟨.blob, blobBytes 2 18446744073709551375⟩ .dwTest 0 0 18446744073709551375 ∧
      (ready.takes Reg.dwTestRoom.key 18446744073709551375).slotFree 0 = true :=
  ⟨acc rfl (by decide +kernel), by decide +kernel⟩

theorem meets_SelfTests_2 :
    vacant0.Accepts .host Reg.dwTestRoom.key ⟨.blob, blobBytes 2 18446744073709551375⟩ .dwTest 0 0 18446744073709551375 ∧
      (vacant0.takes Reg.dwTestRoom.key 18446744073709551375).slotFree 0 = false :=
  ⟨acc rfl (by decide +kernel), by decide +kernel⟩

theorem meets_SelfTests_3 :
    ready.dw = none ∧ ready.ddrTest = false ∧ ready.hallTest = none ∧ ready.boot.testing = false ∧ ready.boot.testWant = false :=
  by decide +kernel

theorem meets_SelfTests_4 :
    ∃ (s : State) (t : DwTest), s.dw = some t ∧ t.ended = false :=
  ⟨{ ready with dw := some { room := 15, slot := 1, blocks := 1, lfsr := 1, ended := false } }, _, rfl, rfl⟩

theorem meets_SelfTests_5 :
    ∃ (s : State) (t : DwTest), s.dw = some t ∧ t.ended = true :=
  ⟨{ ready with dw := some { room := 15, slot := 1, blocks := 1, lfsr := 1, ended := true } }, _, rfl, rfl⟩

theorem meets_SelfTests_6 :
    ∃ (s : State) (t : DwTest) (first : Nat), s.dw = some t ∧ t.ended = false ∧ first = s.rd Reg.dwTestStatusBlocksDone + 1 ∧
      first < 2 ^ Reg.dwTestStatusFirstFail.w :=
  ⟨{ ready with dw := some { room := 15, slot := 1, blocks := 1, lfsr := 1 } }, _, _, rfl, rfl, rfl, by decide +kernel⟩

theorem meets_SelfTests_7 :
    (up [(Reg.ddrStatusState, 2)]).Accepts .host Reg.ddrTestCmd.key (val .u8 1 1) .ddrTest 0 0 1 :=
  acc rfl (by decide +kernel)

theorem meets_SelfTests_8 :
    ({ ready with ddrTest := true } : State).Accepts .host Reg.ddrTestCmd.key (val .u8 1 2) .ddrTest 0 0 2 ∧
      ({ ready with ddrTest := true } : State).ddrTest = true :=
  ⟨acc rfl (by decide +kernel), by decide +kernel⟩

theorem meets_SelfTests_9 :
    ready.Accepts .host Reg.ddrTestCmd.key (val .u8 1 2) .ddrTest 0 0 2 ∧ ready.ddrTest = false :=
  ⟨acc rfl (by decide +kernel), by decide +kernel⟩

theorem meets_SelfTests_10 :
    ∃ s : State, s.ddrTest = true :=
  ⟨{ ready with ddrTest := true }, rfl⟩

theorem meets_SelfTests_11 :
    (up [(Reg.hallCfgDomainValid, 1), (Reg.hallCfgDomain, 3), (Reg.domainRunRunning 3, 1)]).Accepts .host Reg.hallTestFirst.key
      (val .u32 4 2047) .hallTest 0 0 2047 ∧ ((up [(Reg.hallCfgDomainValid, 1), (Reg.hallCfgDomain, 3), (Reg.domainRunRunning 3,
      1)]).takes Reg.hallTestFirst.key 2047).hallRuns = true :=
  ⟨acc rfl (by decide +kernel), by decide +kernel⟩

theorem meets_SelfTests_12 :
    ready.Accepts .host Reg.hallTestFirst.key (val .u32 4 2047) .hallTest 0 0 2047 ∧ (ready.takes Reg.hallTestFirst.key
      2047).hallRuns = false :=
  ⟨acc rfl (by decide +kernel), by decide +kernel⟩

theorem meets_SelfTests_13 :
    ∃ (s : State) (w : HallTest), s.hallTest = some w ∧ w.cur ≠ none ∧ s.hallRuns = false :=
  ⟨{ ready with hallTest := some { first := 1023, count := 1, cur := some 1023 } }, _, rfl, by decide, by decide +kernel⟩

theorem meets_SelfTests_14 :
    ∃ (s : State) (w : HallTest), s.hallTest = some w ∧ w.count ≤ w.turn ∧ w.cur = none :=
  ⟨{ ready with hallTest := some { first := 1023, count := 1, turn := 1 } }, _, rfl, by decide⟩

theorem meets_SelfTests_15 :
    ∃ (s : State) (w : HallTest), s.hallTest = some w ∧ w.turn < w.count :=
  ⟨{ ready with hallTest := some { first := 1023, count := 1 } }, _, rfl, by decide⟩

theorem meets_SelfTests_16 :
    ∃ s : State, s.boot.testWant = true ∧ s.locked = true :=
  ⟨({ ready with boot := { testWant := true } } : State), by decide +kernel⟩

theorem meets_SelfTests_17 :
    ∃ s : State, s.boot.testing = true ∧ s.fuse.hasRoom 17 = true :=
  ⟨({ ready with boot := { testing := true } } : State), by decide +kernel⟩

/-! Ill-formed terms: each check of WellFormed refuses. -/

theorem wf_ticks : ∀ i ∈ ([
    .tickEdge 4 0 {}, .tickEdge 0 0 { fill2 := [262656] }, .tickEdge 0 0 { fill4 := [262656] }, .tickEdge 0 0 { hall := [1024] },
    .tickEdge 0 0 { asrc := [64] }, .tickEdge 0 0 { lines := [1024] }, .tickEdge 0 0 { unchecked := [18] },
    .tickEdge 0 0 { damage := [{ tile := 1024, bank := 0, byte := 0, flip := 0 }] },
    .tickEdge 0 0 { damage := [{ tile := 0, bank := 2, byte := 0, flip := 0 }] },
    .tickEdge 0 0 { damage := [{ tile := 0, bank := 0, byte := 0, flip := 256 }] }, .tickDeadline 4, .hmWindowEnd 4,
    .dlHoldoffEnd 4 0, .dlHoldoffEnd 0 4] : List Instr), i.wf = false := by decide

theorem wf_time : ∀ i ∈ ([
    .tvScheduleApply 4, .ptpSyncRx 0 { kind := 16 } 0, .ptpSyncRx 0 { kind := 0, domain := 256 } 0,
    .ptpSyncRx 0 { kind := 0, src := 2 ^ 80 } 0, .ptpSyncRx 0 { kind := 0, seq := 2 ^ 16 } 0,
    .ptpSyncRx 0 { kind := 0, req := 2 ^ 80 } 0, .ptpSyncRx 0 { kind := 0, time := 2 ^ 48 * 1000000000 * 65536 } 0,
    .ptpSyncRx 0 { kind := 0, corr := -(2 ^ 63) - 1 } 0, .ptpSyncRx 0 { kind := 0, corr := 2 ^ 63 } 0,
    .ptpSyncRx 3 { kind := 0 } 0, .ptpDelayReqRx 3 { kind := 0 } 0, .ptpPdelayReqRx 3 { kind := 0 } 0,
    .ptpPdelayRespRx 3 { kind := 0 } 0, .ptpFollowUpRx 3 { kind := 0 }, .ptpDelayRespRx 3 { kind := 0 },
    .ptpPdelayRespFollowUpRx 3 { kind := 0 }, .ptpAnnounceRx 3 { kind := 0 }] : List Instr), i.wf = false := by decide

theorem wf_time_units : ∀ i ∈ ([
    .ptpSyncInterval 3, .ptpAnnounceInterval 3, .ptpDelayReqInterval 3, .announceReceiptTimeout 3, .syncReceiptTimeout 3,
    .ptpQualificationTimeout 3, .triggerFire 32, .trigOutPulseEnd 4, .evtInEdge 4 true false 0] : List Instr), i.wf = false := by decide

theorem wf_hearth : ∀ i ∈ ([
    .refNoSignal 10, .refQualExpiry 10, .refWtrExpiry 10, .refMonitorSecond [{ c := 10 }], .refFastCheck [(10, 0)],
    .esmcPduRx 3 { bytes := [] }, .esmcTimeout 2, .outSlewEnd 99] : List Instr), i.wf = false := by decide

theorem wf_ports : ∀ i ∈ ([
    .frameRx 3 { bytes := [] }, .linkUp 2, .linkDown 2 0, .linkDown 0 3, .mInbandStatus true 4 true, .ringDropWindowEnd 3,
    .frameTxEnd 3 0, .pauseExpiry 3 0, .pauseExpiry 0 9, .pauseWdTrip 3 0, .pauseWdTrip 0 9, .pauseWdHoldEnd 3 0,
    .pauseWdHoldEnd 0 9] : List Instr), i.wf = false := by decide

theorem wf_streams : ∀ i ∈ ([
    .streamPathTimeout 256 0, .streamPathTimeout 0 2, .streamHoldExpiry true 256, .streamStateWindowEnd 256,
    .naHoldExpiry 256 0, .naHoldExpiry 0 32] : List Instr), i.wf = false := by decide

theorem wf_tdm : ∀ i ∈ ([
    .tdmFrameStart 48 0 0 0 0 [] [] [], .tdmFrameStart 0 2 0 0 0 [] [] [],
    .tdmFrameStart 0 0 0 4 0 [] [] [], .tdmFrameStart 0 0 0 0 0 [] [] [64], .tdmSlaveLock 48 0,
    .tdmSlaveLock 0 2, .tdmLeadEnd 48 0, .tdmLeadEnd 0 2, .tdmTailEnd 48 0, .tdmTailEnd 0 2, .tdmSlaveLockLoss 48 0 true,
    .tdmSlaveLockLoss 0 2 true, .tdmSlipWindowEnd 48 0 0, .tdmSlipWindowEnd 0 2 0, .tdmSlipWindowEnd 0 0 4] : List Instr), i.wf = false := by decide

theorem wf_asrc_hall : ∀ i ∈ ([
    .asrcAcquireDone 64 0 0, .asrcNarrow 64, .asrcLock 64, .asrcEdgeTimeout 64 true, .asrcEventWindowEnd 64,
    .tileCopyDone 1024 [], .tileCopyDone 0 [{ tile := 1024, bank := 0, byte := 0, flip := 0 }], .hallCsumWindowEnd 1024] : List Instr), i.wf = false := by decide

theorem wf_rooms : ∀ i ∈ ([
    .roomFault 18, .roomLoadDeferredWrite 18, .interruptEntry 18, .illegalInstruction 18, .snapshotPeriod 18,
    .snapshotDone 18, .coldRestoreDone 18, .nop 18, .bra 18, .call 18, .ret 18, .rti 18, .dbnz 18, .rep 18, .swi 18,
    .parallelMove 18, .longMove 18, .ldi 18, .move 18, .endBlock 18 {}] : List Instr), i.wf = false := by decide

theorem wf_arithmetic : ∀ i ∈ ([
    .mpy 18, .mpyn 18, .mac 18, .macn 18, .mpyi 18, .lda 18, .cpa 18, .add 18, .sub 18, .adda 18, .suba 18, .clr 18,
    .neg 18, .absAcc 18, .maxAcc 18, .minAcc 18, .cmp 18, .tst 18, .sat 18, .asl 18, .asr 18, .ash 18, .ashr 18, .norm 18,
    .expAcc 18, .expReg 18, .andAcc 18, .orAcc 18, .xorAcc 18] : List Instr), i.wf = false := by decide

theorem wf_supervisor : ∀ i ∈ ([
    .parityError 18 0 0 0, .parityError 0 3 0 0, .parityError 0 0 (2 ^ 16) 0, .guestWarmupDone 2, .voteDone 18 0,
    .voteDone 0 3, .selftestDone 18 true, .tempSample [], .supplySample 11 0, .supplyWindowEnd 11, .ddrTrainingDone 8,
    .ddrMr4Poll 256] : List Instr), i.wf = false := by decide

theorem wf_kdp : ∀ i ∈ ([
    .kdpHelloOpen (.net 3 0 0 0) [], .kdpHelloClose (.net 3 0 0 0) [], .kdpHelloKeepalive (.net 3 0 0 0) [],
    .kdpAuth (.net 3 0 0 0) [], .kdpGet (.net 3 0 0 0) [], .kdpGetbulk (.net 3 0 0 0) [], .kdpSet (.net 3 0 0 0) [],
    .kdpSetbulk (.net 3 0 0 0) [], .kdpSetStage (.net 3 0 0 0) [], .kdpCommitBegin (.net 3 0 0 0) [],
    .kdpCommitApply (.net 3 0 0 0) [], .kdpCommitTimedApply (.net 3 0 0 0) [], .kdpCommitDiscard (.net 3 0 0 0) [],
    .kdpCommitDiscardWaiting (.net 3 0 0 0) [], .kdpSubscribeList (.net 3 0 0 0) [], .kdpSubscribeRange (.net 3 0 0 0) [],
    .kdpSubscribeRemove (.net 3 0 0 0) [], .kdpGet (.net 0 (2 ^ 32) 0 0) [], .kdpGet (.net 0 0 (2 ^ 16) 0) [],
    .kdpGet (.net 0 0 0 (2 ^ 48)) [], .commitTimedApplyDue 17, .commitGroupTimeout 17, .subscriptionPeriod 17 0,
    .sessionIdleTimeout 17, .sessionAuthTimeout 17, .authLockoutEnd (2 ^ 32), .saveDone 8, .bootLoad 8] : List Instr), i.wf = false := by decide

theorem wf_host_port : ∀ i ∈ ([
    .hpRequest 256 0 [] 0, .hpReply 256 0 [] 0, .hpNotify 256 0 [] 0, .hpNotifyRelease 256 0 [] 0, .hpPop 256 0 [] 0,
    .hpRelease 256 0 [] 0, .hpMark 256 0 [] 0, .hpRewind 256 0 [] 0, .hpStatus 256 0 [] 0, .hpEcho 256 0 [] 0,
    .hpPop 0 (2 ^ 16) [] 0, .hpPop 0 1 [] (2 ^ 32), .hpBadOpcode 256 0 0 [] 0, .hpBadOpcode 0 256 0 [] 0] : List Instr), i.wf = false := by decide

theorem wf_startup : ∀ i ∈ ([
    .resetRelease 4 [], .resetRelease 0 [0, 0, 0, 0, 0], .bootRecordRead (some []),
    .productionSelftestDone true true true true [18], .ddrTestDone 0 0 (2 ^ 32)] : List Instr), i.wf = false := by decide

/-! One step, or one operation, against the spec's own figures. -/

/-- The state one step after a command is put before a device; the device as it was where the step is no next state. -/
def after (c : Instr) (s : State) : State := match step { s with pending := [c] } with | .next t => t | _ => s

/-- The instruction at 0x00D of the biquad program: its word as the worked program writes it out. -/
theorem test_word_of_mac : decodeRoom 0x10C564411784 = some (.data { op := 3, d := 0, a := 2, b := 5, dbl := true }
    [{ kind := 1, y := false, reg := 1, ptr := 0, mode := 1 }, { kind := 1, y := true, reg := 7, ptr := 4, mode := 1 }] false) := by
  decide +kernel

/-- LDI N4 = #-1 and DBNZ P6,0x007 of that program, by R309 and R311; a reserved control code has no instruction. -/
theorem test_words_of_program : decodeRoom (3 * 2 ^ 44 + 0x1C * 2 ^ 38 + 0xFFFFFFFF) = some (.ldi 0x1C 0xFFFFFFFF)
    ∧ decodeRoom (5 * 2 ^ 38 + 6 * 2 ^ 35 + 7) = some (.dbnz 6 7) ∧ decodeRoom (0x0A * 2 ^ 38) = none := by decide +kernel

/-- RFC 3720 B.4, which R404 follows: 32 bytes of zeros. -/
theorem test_crc32c : crc32c (List.replicate 32 0) = 0x8A9136AA := by decide +kernel

/-- FIPS 180-4: SHA-256 of "abc" (R376). -/
theorem test_sha256 : beNat (sha256 [0x61, 0x62, 0x63]) = 0xBA7816BF8F01CFEA414140DE5DAE2223B00361A396177A9CB410FF61F20015AD := by
  decide +kernel

/-- RFC 4231, test case 1: HMAC-SHA-256. -/
theorem test_hmac : beNat (hmac (List.replicate 20 0x0B) [0x48, 0x69, 0x20, 0x54, 0x68, 0x65, 0x72, 0x65])
    = 0xB0344C61D8DB38535CA8AFCEAF0BF12B881DC200C9833DA726E9376C2E32CFF7 := by decide +kernel

/-- A bank of zeros, and the banks of the fader move (R253). -/
theorem test_checksums : (bankOf []).csum 0 1 = 0x06010001 ∧ (bankOf [(108, 0x0B53BE)]).csum 0 1 = 0xD7B2C954
    ∧ (bankOf [(108, 0x080000)]).csum 0 0 = 0xF02A0800 ∧ (bankOf [(108, 0x0B53BE)]).csum 0 0 = 0xD1B1C953 := by
  decide +kernel

/-- Tile 0 of the fader move in tick j of its fade (R252). -/
def fading (j : Nat) : Tile :=
  { b0 := bankOf [(108, 0x080000)], b1 := bankOf [(108, 0x0B53BE)], active := 1, state := 1, fade := 16, gone := j }

theorem test_fade : (fading 0).mix = [(108, 537915)] ∧ (fading 1).mix = [(108, 551543)] ∧ (fading 2).mix = [(108, 565171)]
    ∧ (fading 7).mix = [(108, 633311)] ∧ (fading 15).mix = [(108, 742334)] := by decide +kernel

/-- Its output in tick c + 1 (R242). -/
theorem test_mix : ((({ ready with path := { sink := [(0x30003, 0x2AAAAAAB)] } } : State).mixTile 0 (fading 0).mix).hallOutputs).hall.next
    = [(12, 0x15E34800)] := by decide +kernel

/-- A rate change without a seam (R62). -/
def seam : State :=
  { up [(Reg.tvOffsetOffset 1, 1752000000 * 10 ^ 9 * 65536), (Reg.tvRateRate 1, 2 ^ 47)] with
    rc := 10 ^ 12, time := { views := [(1, { sched := some { at_ := 10 ^ 12, rate := some 0x800008637BD0 } })] } }

/-- The device just after. -/
def seamed : State := after (.tvScheduleApply 1) seam

theorem test_seam : seamed.rd (Reg.tvOffsetOffset 1) = 1752000000 * 10 ^ 9 * 65536 - 131071999669
    ∧ seamed.viewAt 1 (4 * 10 ^ 12) = 1752002000 * 10 ^ 9 * 65536
    ∧ seamed.viewAt 1 (4 * (10 ^ 12 + 500000000)) = 1752002001 * 10 ^ 9 * 65536 + 65535999 := by decide +kernel

theorem test_segments : (segments udpSend false 1472).map (fun f => (f.bytes.length, at_ f.bytes 18 2, at_ f.bytes 16 2,
      at_ f.bytes 38 2)) = [(1514, 0x1234, 1500, 1480), (1514, 0x1235, 1500, 1480), (1514, 0x1236, 1500, 1480), (1514, 0x1237, 1500, 1480),
      (1514, 0x1238, 1500, 1480), (682, 0x1239, 668, 648)] := by decide +kernel

/-- A 1500-byte frame needs 6 buffers: with 4 free it is dropped, with 6 free it is taken (R154). -/
theorem test_ring : ∀ n s, s = ({ ready with ports := [(2, { ring := List.replicate n (0, List.replicate 512 0) })] } : State) →
    (n = 30 → ((s.toRing 2 (List.replicate 1500 0)).port 2).ring.length = 30
      ∧ (s.toRing 2 (List.replicate 1500 0)).rd (Reg.portRxRingDrop 2) = 1)
    ∧ (n = 29 → ((s.toRing 2 (List.replicate 1500 0)).port 2).ring.length = 30) := by
  rintro n _ rfl
  exact ⟨by rintro rfl; decide +kernel, by rintro rfl; decide +kernel⟩

/-- The items that wait in the damaged read (worked example of the host port's chapter). -/
def waitingItems : List LbItem :=
  [{ code := 0x3001, prio := 5, seq := 0x2B, words := [0] }, { code := 0x4005, prio := 3, seq := 0x2C, words := [0, 0] }]

/-- The Letterbox of that read. -/
def damaged : State :=
  { ready with
    boot := { low := false }
    lb := { drain := [{ code := 0x7001, prio := 6, seq := 0x2A, words := [0x30000, 0, 0x16E360] }], fill := waitingItems, seqNext := 0x2D } }

/-- The device after POP, ARG 8, MARK 1. -/
def popped : State := after (.hpPop 1 8 [] (crc32c (hpCommand 5 1 8 []))) damaged

/-- POP: the cursor moves, and the response is 8 + 16 + 4 bytes. -/
theorem test_pop : popped.lb.cursor = 1 ∧ popped.lb.mark = some 0 ∧ popped.host.response.length = 28
    ∧ (popped.host.response.drop 8).take 16 = [0x2A, 0x1E, 0x70, 0x01, 0, 3, 0, 0, 0, 0, 0, 0, 0, 0x16, 0xE3, 0x60] := by decide +kernel

/-- The device after RELEASE, ARG 0. -/
def released : State := after (.hpRelease 0 0 [] (crc32c (hpCommand 6 0 0 []))) { damaged with lb := { damaged.lb with cursor := 1 } }

/-- RELEASE: the banks swap at once. -/
theorem test_release : released.lb.drain.map LbItem.head = [0x2B0D3001, 0x2C134005] ∧ released.lb.cursor = 0
    ∧ released.lb.fill = [] := by decide +kernel

/-- The first late tick of the console that settles: code 30 goes to 34 (R49). -/
theorem test_late_tick : vidMove 30 63 = 34 ∧ vidMove 63 30 = 59 ∧ State.reset.rd Reg.vidStatusCodeNow = 30 := by decide +kernel

end Sys2Proof.Tests
end

section
/-! Proofs of the statements about the dictionary: the one status of an item (R369). -/

namespace Sys2Proof.Machine

section
variable {s : State} {who : Role} {i : Item} {d : EntDesc} {a b n : Nat} {st : Status}

/-- A key that is no entry's is ABSENT, whatever else holds of the item. -/
theorem State.judge_of_entryAt_none (h : s.entryAt i.key = none) : s.judge who i = .absent := by
  simp only [State.judge, State.judgeValue, h]

/-- The first pass over an item, as one chain in the order of R369: of the entry's own answer `st` it sees ABSENT alone. -/
theorem State.judgeValue_of_entryAt (h : s.entryAt i.key = some (d, a, b)) (hn : n = d.valueIn i)
    (hst : st = s.entState d.ent a b i.key n i.raw) :
    s.judgeValue who i =
      if d.fits i = true ∧ st = .absent then .absent
      else if holds who d.wr = false then .denied
      else if d.fits i = false then .badType
      else if (d.ty = .bool ∧ 1 < n) ∨ fieldsOk d.fields n = false ∨ entRange s.fuse d.ent a n i.raw = false then
        .outOfRange
      else .ok := by
  subst hn hst
  simp only [State.judgeValue, h, Bool.and_eq_true, Bool.not_eq_true', decide_eq_true_eq, beq_iff_eq]
  by_cases hbool : d.ty = .bool ∧ 1 < d.valueIn i
  · simp only [hbool, and_self, true_or, if_true]
  · simp only [hbool, false_or, if_false, ← Bool.and_eq_false_iff]
    cases fieldsOk d.fields (d.valueIn i) <;> cases entRange s.fuse d.ent a (d.valueIn i) i.raw <;> simp

/-- What the first pass refuses keeps that status: the device's state is not asked. -/
theorem State.judge_of_judgeValue_ne_ok (h : s.judgeValue who i ≠ .ok) : s.judge who i = s.judgeValue who i := by
  unfold State.judge
  split
  · contradiction
  · rfl

/-- What the first pass lets through has its entry's own answer, and BUSY where that is OK but a save or a lost clock refuses every
SET of the key (R396, R435). -/
theorem State.judge_of_judgeValue_ok (h : s.entryAt i.key = some (d, a, b)) (hn : n = d.valueIn i)
    (hst : st = s.entState d.ent a b i.key n i.raw) (hv : s.judgeValue who i = .ok) :
    s.judge who i = if st = .ok then (if s.gated i.key = true then .busy else .ok) else st := by
  subst hn hst
  simp only [State.judge, hv, h]
  split
  next hok => rw [if_pos hok]
  next hne => rw [if_neg hne]

end

/-- Settles O12. The first pass over the item settles the clauses up to its range; past it the entry's own answer `st` decides. -/
theorem firstStatusOfTheOrder : Obligations.FirstStatusOfTheOrder := by
  intro s who i
  refine ⟨State.judge_of_entryAt_none, fun d a b h n st hn hst => ?_⟩
  intro absent denied badType outOfRange
  have first := State.judgeValue_of_entryAt (who := who) h hn hst
  have second := State.judge_of_judgeValue_ok (who := who) h hn hst
  have stop : ∀ x, s.judgeValue who i = x → x ≠ .ok → s.judge who i = x := fun x hx hne =>
    (State.judge_of_judgeValue_ne_ok (hx ▸ hne)).trans hx
  have pass (ha : ¬absent) (hd : ¬denied) (hb : ¬badType) (hr : ¬outOfRange) : s.judgeValue who i = .ok := by
    rw [first, if_neg ha, if_neg hd, if_neg hb, if_neg fun h => hr (by tauto)]
  refine ⟨fun ha => ?_, fun ha hd => ?_, fun ha hd hb => ?_, fun ha hd hb hr => ?_, fun ha hd hb hr hconf => ?_,
    fun ha hd hb hr hbusy => ?_, fun ha hd hb hr hok hg => ?_⟩
  · exact stop _ (by rw [first, if_pos ha]) nofun
  · exact stop _ (by rw [first, if_neg ha, if_pos hd]) nofun
  · exact stop _ (by rw [first, if_neg ha, if_neg hd, if_pos hb]) nofun
  · rw [if_neg ha, if_neg hd, if_neg hb] at first
    split at first
    next => exact stop _ first nofun
    next hin =>
      have hown : st = .outOfRange := by tauto
      rw [second first, hown, if_neg nofun]
  · rw [second (pass ha hd hb hr), hconf, if_neg nofun]
  · rw [second (pass ha hd hb hr)]
    obtain hown | ⟨hok, hg⟩ := hbusy
    · rw [hown, if_neg nofun]
    · rw [if_pos hok, if_pos hg]
  · rw [second (pass ha hd hb hr), if_pos hok, if_neg (by simp [hg])]

end Sys2Proof.Machine
end

section
/-! Proofs of the statements about the host port: RELEASE, MARK and REWIND of the Letterbox (R417, R418). -/

namespace Sys2Proof.Machine

section
variable {s : State} {op flags arg crc : Nat} {data : List Byte}

/-- More than were popped cannot be released (R417). -/
theorem Letterbox.release_of_cursor_lt {b : Letterbox} {n : Nat} (h : b.cursor < n) : b.release n = none :=
  if_pos h

/-- A release of what was popped, `k` items: the cursor and the mark go back with the items that leave, the mark no further than to
the first that stays (R417). -/
theorem Letterbox.release_of_le_cursor {b : Letterbox} {n k : Nat} (h : n ≤ b.cursor) (hk : k = if n = 0 then b.cursor else n) :
    b.release n = some { b with drain := b.drain.drop k, cursor := b.cursor - k, mark := b.mark.map (· - k) } := by
  subst hk
  exact if_neg h.not_gt

/-- With RESET_N high, a transaction that no check of R407 turns away does what its opcode does. -/
theorem State.hpRun_of_hpGate_eq_zero {f : State → State} (hlow : s.boot.low = false) (hgate : s.hpGate op flags arg data crc = 0) :
    s.hpRun op flags arg data crc f = f s := by
  rw [State.hpRun, if_neg (by simp [hlow]), if_pos hgate]

theorem exec_hpRelease : exec (.hpRelease flags arg data crc) s = execHpRelease flags arg data crc s := rfl

theorem exec_hpMark : exec (.hpMark flags arg data crc) s = execHpMark flags arg data crc s := rfl

theorem exec_hpRewind : exec (.hpRewind flags arg data crc) s = execHpRewind flags arg data crc s := rfl

/-- A RELEASE that the Letterbox refuses answers CONFLICT and frees nothing. -/
theorem exec_hpRelease_of_release_eq_none (hlow : s.boot.low = false) (hgate : s.hpGate 6 flags arg data crc = 0)
    (h : s.lb.release arg = none) : exec (.hpRelease flags arg data crc) s = .next (s.hpRespond 6 []) := by
  rw [exec_hpRelease, execHpRelease, State.hpRun_of_hpGate_eq_zero hlow hgate, h]

/-- A RELEASE that the Letterbox carries out answers OK after the swap that an emptied bank brings (R413). -/
theorem exec_hpRelease_of_release_eq_some {b : Letterbox} (hlow : s.boot.low = false)
    (hgate : s.hpGate 6 flags arg data crc = 0) (h : s.lb.release arg = some b) :
    exec (.hpRelease flags arg data crc) s = .next ((State.lbSwapIfDue { s with lb := b }).hpRespond 0 []) := by
  rw [exec_hpRelease, execHpRelease, State.hpRun_of_hpGate_eq_zero hlow hgate, h]

theorem exec_hpMark_of_hpGate_eq_zero (hlow : s.boot.low = false) (hgate : s.hpGate 7 flags arg data crc = 0) :
    exec (.hpMark flags arg data crc) s =
      .next (State.hpRespond { s with lb := { s.lb with mark := some s.lb.cursor } } 0 []) := by
  rw [exec_hpMark, execHpMark, State.hpRun_of_hpGate_eq_zero hlow hgate]

theorem exec_hpRewind_of_mark_eq_some {m : Nat} (hlow : s.boot.low = false) (hgate : s.hpGate 8 flags arg data crc = 0)
    (h : s.lb.mark = some m) :
    exec (.hpRewind flags arg data crc) s = .next (State.hpRespond { s with lb := { s.lb with cursor := m } } 0 []) := by
  rw [exec_hpRewind, execHpRewind, State.hpRun_of_hpGate_eq_zero hlow hgate, h]

theorem exec_hpRewind_of_mark_eq_none (hlow : s.boot.low = false) (hgate : s.hpGate 8 flags arg data crc = 0)
    (h : s.lb.mark = none) : exec (.hpRewind flags arg data crc) s = .next (s.hpRespond 5 []) := by
  rw [exec_hpRewind, execHpRewind, State.hpRun_of_hpGate_eq_zero hlow hgate, h]

end

/-- Settles O58. RELEASE splits on whether as many were popped as ARG asks for, REWIND on whether there is a mark. -/
theorem releaseMarkRewind : Obligations.ReleaseMarkRewind := by
  intro s op flags arg crc data hlow hgate
  refine ⟨?release, ?mark, ?rewind⟩
  case release =>
    rintro rfl
    exact ⟨fun hlt => exec_hpRelease_of_release_eq_none hlow hgate (Letterbox.release_of_cursor_lt hlt),
      fun hle _ hk => exec_hpRelease_of_release_eq_some hlow hgate (Letterbox.release_of_le_cursor hle hk)⟩
  case mark =>
    rintro rfl
    exact exec_hpMark_of_hpGate_eq_zero hlow hgate
  case rewind =>
    rintro rfl
    exact ⟨fun _ hm => exec_hpRewind_of_mark_eq_some hlow hgate hm, exec_hpRewind_of_mark_eq_none hlow hgate⟩

end Sys2Proof.Machine
end

section
/-! Proofs of the statements about every command: what a step keeps, and that every command completes (R57, R411 to R418). -/

namespace Sys2Proof.Machine

section
variable {f : Fuses} {q : List Instr} {r : Nat} {s : State}

/-- Every command but reset and the lock of the PLL completes, and keeps the data, the queue, RC's past and soundness. -/
theorem Sound.exec (hs : Sound f q r s) :
    (c : Instr) → c ≠ .resetAssert → c ≠ .pllLock → ∃ t, Machine.exec c s = .next t ∧ Sound f q r t
  | .tickEdge .., _, _ => hs.execTickEdge
  | .tickDeadline .., _, _ => hs.execTickDeadline
  | .dlHoldoffEnd .., _, _ => hs.execDlHoldoffEnd
  | .sinkSourceSet .., _, _ => hs.execSinkSourceSet
  | .toneCtrlSet .., _, _ => hs.execToneCtrlSet
  | .toneFreqSet .., _, _ => hs.execToneFreqSet
  | .registerWrite .., _, _ => hs.execRegisterWrite
  | .rcEntryGet .., _, _ => hs.execRcEntryGet
  | .hmWindowEnd .., _, _ => hs.execHmWindowEnd
  | .vidIdleLower, _, _ => hs.execVidIdleLower
  | .vidSettleEnd, _, _ => hs.execVidSettleEnd
  | .vidModeSet .., _, _ => hs.execVidModeSet
  | .vidFixedSet .., _, _ => hs.execVidFixedSet
  | .vidBoundsSet .., _, _ => hs.execVidBoundsSet
  | .hmWindowSet .., _, _ => hs.execHmWindowSet
  | .pwrGoodChange .., _, _ => hs.execPwrGoodChange
  | .pwrGoodLost, _, _ => hs.execPwrGoodLost
  | .pwrGoodResume, _, _ => hs.execPwrGoodResume
  | .tvScheduleSet .., _, _ => hs.execTvScheduleSet
  | .tvScheduleCancel .., _, _ => hs.execTvScheduleCancel
  | .tvScheduleApply .., _, _ => hs.execTvScheduleApply
  | .tvSourceSet .., _, _ => hs.execTvSourceSet
  | .ptpSyncRx .., _, _ => hs.execPtpSyncRx
  | .ptpFollowUpRx .., _, _ => hs.execPtpFollowUpRx
  | .ptpDelayReqRx .., _, _ => hs.execPtpDelayReqRx
  | .ptpDelayRespRx .., _, _ => hs.execPtpDelayRespRx
  | .ptpPdelayReqRx .., _, _ => hs.execPtpPdelayReqRx
  | .ptpPdelayRespRx .., _, _ => hs.execPtpPdelayRespRx
  | .ptpPdelayRespFollowUpRx .., _, _ => hs.execPtpPdelayRespFollowUpRx
  | .ptpAnnounceRx .., _, _ => hs.execPtpAnnounceRx
  | .ptpSyncInterval .., _, _ => hs.execPtpSyncInterval
  | .ptpAnnounceInterval .., _, _ => hs.execPtpAnnounceInterval
  | .ptpDelayReqInterval .., _, _ => hs.execPtpDelayReqInterval
  | .announceReceiptTimeout .., _, _ => hs.execAnnounceReceiptTimeout
  | .syncReceiptTimeout .., _, _ => hs.execSyncReceiptTimeout
  | .ptpPortCfgSet .., _, _ => hs.execPtpPortCfgSet
  | .ptpClockIdSet .., _, _ => hs.execPtpClockIdSet
  | .ptpBcSet .., _, _ => hs.execPtpBcSet
  | .ttCtrlSet .., _, _ => hs.execTtCtrlSet
  | .triggerFire .., _, _ => hs.execTriggerFire
  | .trigOutPulseEnd .., _, _ => hs.execTrigOutPulseEnd
  | .evtInEdge .., _, _ => hs.execEvtInEdge
  | .evtCaptureGet .., _, _ => hs.execEvtCaptureGet
  | .evtCfgSet .., _, _ => hs.execEvtCfgSet
  | .refCfgSet .., _, _ => hs.execRefCfgSet
  | .refNoSignal .., _, _ => hs.execRefNoSignal
  | .refMonitorSecond .., _, _ => hs.execRefMonitorSecond
  | .refFastCheck .., _, _ => hs.execRefFastCheck
  | .refQualExpiry .., _, _ => hs.execRefQualExpiry
  | .refWtrExpiry .., _, _ => hs.execRefWtrExpiry
  | .refCmdEndWtr .., _, _ => hs.execRefCmdEndWtr
  | .refCmdClearFailed .., _, _ => hs.execRefCmdClearFailed
  | .esmcPduRx .., _, _ => hs.execEsmcPduRx
  | .esmcTimeout .., _, _ => hs.execEsmcTimeout
  | .selModeSet .., _, _ => hs.execSelModeSet
  | .manualRefSet .., _, _ => hs.execManualRefSet
  | .manWaitExpiry, _, _ => hs.execManWaitExpiry
  | .dpllStageEnd, _, _ => hs.execDpllStageEnd
  | .histRecordSecond .., _, _ => hs.execHistRecordSecond
  | .hoSpecExpiry, _, _ => hs.execHoSpecExpiry
  | .hearthCmdClearHistory .., _, _ => hs.execHearthCmdClearHistory
  | .outSlewEnd .., _, _ => hs.execOutSlewEnd
  | .hearthViewUpdate, _, _ => hs.execHearthViewUpdate
  | .mdCtrlSet .., _, _ => hs.execMdCtrlSet
  | .portCfgSet .., _, _ => hs.execPortCfgSet
  | .linkUp .., _, _ => hs.execLinkUp
  | .linkDown .., _, _ => hs.execLinkDown
  | .mInbandStatus .., _, _ => hs.execMInbandStatus
  | .frameRx .., _, _ => hs.execFrameRx
  | .ringDropWindowEnd .., _, _ => hs.execRingDropWindowEnd
  | .rxrReleaseSet .., _, _ => hs.execRxrReleaseSet
  | .txqSendSet .., _, _ => hs.execTxqSendSet
  | .frameTxEnd .., _, _ => hs.execFrameTxEnd
  | .hdCollision .., _, _ => hs.execHdCollision
  | .hdBackoffEnd, _, _ => hs.execHdBackoffEnd
  | .hdCarrierIdle .., _, _ => hs.execHdCarrierIdle
  | .pauseExpiry .., _, _ => hs.execPauseExpiry
  | .pauseWdTrip .., _, _ => hs.execPauseWdTrip
  | .pauseWdHoldEnd .., _, _ => hs.execPauseWdHoldEnd
  | .streamRxEnable .., _, _ => hs.execStreamRxEnable
  | .streamRxDisable .., _, _ => hs.execStreamRxDisable
  | .streamTxEnable .., _, _ => hs.execStreamTxEnable
  | .streamTxDisable .., _, _ => hs.execStreamTxDisable
  | .streamPathTimeout .., _, _ => hs.execStreamPathTimeout
  | .streamHoldExpiry .., _, _ => hs.execStreamHoldExpiry
  | .naHoldExpiry .., _, _ => hs.execNaHoldExpiry
  | .streamStateWindowEnd .., _, _ => hs.execStreamStateWindowEnd
  | .tdmSideEnable .., _, _ => hs.execTdmSideEnable
  | .tdmSideDisable .., _, _ => hs.execTdmSideDisable
  | .maskCommit .., _, _ => hs.execMaskCommit
  | .tdmFrameStart .., _, _ => hs.execTdmFrameStart
  | .tdmSlaveLock .., _, _ => hs.execTdmSlaveLock
  | .tdmSlaveLockLoss .., _, _ => hs.execTdmSlaveLockLoss
  | .tdmLeadEnd .., _, _ => hs.execTdmLeadEnd
  | .tdmTailEnd .., _, _ => hs.execTdmTailEnd
  | .tdmSlipWindowEnd .., _, _ => hs.execTdmSlipWindowEnd
  | .asrcEnable .., _, _ => hs.execAsrcEnable
  | .asrcDisable .., _, _ => hs.execAsrcDisable
  | .asrcAcquireDone _ ratio phi, _, _ => hs.execAsrcAcquireDone (_ratio := ratio) (_phi := phi)
  | .asrcNarrow .., _, _ => hs.execAsrcNarrow
  | .asrcLock .., _, _ => hs.execAsrcLock
  | .asrcEdgeTimeout .., _, _ => hs.execAsrcEdgeTimeout
  | .asrcEventWindowEnd .., _, _ => hs.execAsrcEventWindowEnd
  | .gainSet .., _, _ => hs.execGainSet
  | .tileShadowSet .., _, _ => hs.execTileShadowSet
  | .tileCommit .., _, _ => hs.execTileCommit
  | .tileRevert .., _, _ => hs.execTileRevert
  | .hallCommit .., _, _ => hs.execHallCommit
  | .hallCfgSet .., _, _ => hs.execHallCfgSet
  | .tileCopyDone .., _, _ => hs.execTileCopyDone
  | .hallCsumWindowEnd .., _, _ => hs.execHallCsumWindowEnd
  | .hallSatWindowEnd, _, _ => hs.execHallSatWindowEnd
  | .roomEnable .., _, _ => hs.execRoomEnable
  | .roomDisable .., _, _ => hs.execRoomDisable
  | .roomFault .., _, _ => hs.execRoomFault
  | .roomLoadSet .., _, _ => hs.execRoomLoadSet
  | .roomLoadDeferredWrite .., _, _ => hs.execRoomLoadDeferredWrite
  | .roomCmdClear .., _, _ => hs.execRoomCmdClear
  | .roomMboxInSet .., _, _ => hs.execRoomMboxInSet
  | .roomMboxOutGet .., _, _ => hs.execRoomMboxOutGet
  | .interruptEntry .., _, _ => hs.execInterruptEntry
  | .nop .., _, _ => hs.execNop
  | .bra .., _, _ => hs.execBra
  | .call .., _, _ => hs.execCall
  | .ret .., _, _ => hs.execRet
  | .rti .., _, _ => hs.execRti
  | .dbnz .., _, _ => hs.execDbnz
  | .rep .., _, _ => hs.execRep
  | .endBlock .., _, _ => hs.execEndBlock
  | .swi .., _, _ => hs.execSwi
  | .parallelMove .., _, _ => hs.execParallelMove
  | .longMove .., _, _ => hs.execLongMove
  | .ldi .., _, _ => hs.execLdi
  | .move .., _, _ => hs.execMove
  | .mpy .., _, _ => hs.execMpy
  | .mpyn .., _, _ => hs.execMpyn
  | .mac .., _, _ => hs.execMac
  | .macn .., _, _ => hs.execMacn
  | .mpyi .., _, _ => hs.execMpyi
  | .lda .., _, _ => hs.execLda
  | .cpa .., _, _ => hs.execCpa
  | .add .., _, _ => hs.execAdd
  | .sub .., _, _ => hs.execSub
  | .adda .., _, _ => hs.execAdda
  | .suba .., _, _ => hs.execSuba
  | .clr .., _, _ => hs.execClr
  | .neg .., _, _ => hs.execNeg
  | .absAcc .., _, _ => hs.execAbsAcc
  | .maxAcc .., _, _ => hs.execMaxAcc
  | .minAcc .., _, _ => hs.execMinAcc
  | .cmp .., _, _ => hs.execCmp
  | .tst .., _, _ => hs.execTst
  | .sat .., _, _ => hs.execSat
  | .asl .., _, _ => hs.execAsl
  | .asr .., _, _ => hs.execAsr
  | .ash .., _, _ => hs.execAsh
  | .ashr .., _, _ => hs.execAshr
  | .norm .., _, _ => hs.execNorm
  | .expAcc .., _, _ => hs.execExpAcc
  | .expReg .., _, _ => hs.execExpReg
  | .andAcc .., _, _ => hs.execAndAcc
  | .orAcc .., _, _ => hs.execOrAcc
  | .xorAcc .., _, _ => hs.execXorAcc
  | .illegalInstruction .., _, _ => hs.execIllegalInstruction
  | .parityError .., _, _ => hs.execParityError
  | .guestWarmupDone .., _, _ => hs.execGuestWarmupDone
  | .voteDone .., _, _ => hs.execVoteDone
  | .rotatePeriodExpiry, _, _ => hs.execRotatePeriodExpiry
  | .selftestDone .., _, _ => hs.execSelftestDone
  | .snapshotPeriod .., _, _ => hs.execSnapshotPeriod
  | .snapshotDone .., _, _ => hs.execSnapshotDone
  | .coldRestoreDone .., _, _ => hs.execColdRestoreDone
  | .guestCmdRejoin .., _, _ => hs.execGuestCmdRejoin
  | .guestCmdSelftest .., _, _ => hs.execGuestCmdSelftest
  | .roomGuardSet .., _, _ => hs.execRoomGuardSet
  | .tempSample .., _, _ => hs.execTempSample
  | .monCfgSet .., _, _ => hs.execMonCfgSet
  | .supplySample .., _, _ => hs.execSupplySample
  | .supplyWindowEnd .., _, _ => hs.execSupplyWindowEnd
  | .cellarPartSet .., _, _ => hs.execCellarPartSet
  | .dlyEnable .., _, _ => hs.execDlyEnable
  | .dlyDisable .., _, _ => hs.execDlyDisable
  | .dlyTimeSet .., _, _ => hs.execDlyTimeSet
  | .recModeRecord .., _, _ => hs.execRecModeRecord
  | .recModeHold .., _, _ => hs.execRecModeHold
  | .recModeOff .., _, _ => hs.execRecModeOff
  | .recDone, _, _ => hs.execRecDone
  | .ddrEnable .., _, _ => hs.execDdrEnable
  | .ddrDisable .., _, _ => hs.execDdrDisable
  | .ddrTrainingDone .., _, _ => hs.execDdrTrainingDone
  | .ddrMr4Poll .., _, _ => hs.execDdrMr4Poll
  | .kdpHelloOpen .., _, _ => hs.execKdpHelloOpen
  | .kdpHelloClose .., _, _ => hs.execKdpHelloClose
  | .kdpHelloKeepalive .., _, _ => hs.execKdpHelloKeepalive
  | .kdpAuth .., _, _ => hs.execKdpAuth
  | .kdpGet .., _, _ => hs.execKdpGet
  | .kdpGetbulk .., _, _ => hs.execKdpGetbulk
  | .kdpSet .., _, _ => hs.execKdpSet
  | .kdpSetbulk .., _, _ => hs.execKdpSetbulk
  | .kdpSetStage .., _, _ => hs.execKdpSetStage
  | .kdpCommitBegin .., _, _ => hs.execKdpCommitBegin
  | .kdpCommitApply .., _, _ => hs.execKdpCommitApply
  | .kdpCommitTimedApply .., _, _ => hs.execKdpCommitTimedApply
  | .kdpCommitDiscard .., _, _ => hs.execKdpCommitDiscard
  | .kdpCommitDiscardWaiting .., _, _ => hs.execKdpCommitDiscardWaiting
  | .commitTimedApplyDue .., _, _ => hs.execCommitTimedApplyDue
  | .commitGroupTimeout .., _, _ => hs.execCommitGroupTimeout
  | .kdpSubscribeList .., _, _ => hs.execKdpSubscribeList
  | .kdpSubscribeRange .., _, _ => hs.execKdpSubscribeRange
  | .kdpSubscribeRemove .., _, _ => hs.execKdpSubscribeRemove
  | .subscriptionPeriod .., _, _ => hs.execSubscriptionPeriod
  | .sessionIdleTimeout .., _, _ => hs.execSessionIdleTimeout
  | .sessionAuthTimeout .., _, _ => hs.execSessionAuthTimeout
  | .authLockoutEnd .., _, _ => hs.execAuthLockoutEnd
  | .kdpCfgSet .., _, _ => hs.execKdpCfgSet
  | .keySet .., _, _ => hs.execKeySet
  | .keyCfgSet .., _, _ => hs.execKeyCfgSet
  | .sessionClose .., _, _ => hs.execSessionClose
  | .saveCmd .., _, _ => hs.execSaveCmd
  | .saveDone .., _, _ => hs.execSaveDone
  | .bootLoad .., _, _ => hs.execBootLoad
  | .hpRequest .., _, _ => hs.execHpRequest
  | .hpReply .., _, _ => hs.execHpReply
  | .hpNotify .., _, _ => hs.execHpNotify
  | .hpNotifyRelease .., _, _ => hs.execHpNotifyRelease
  | .hpPop .., _, _ => hs.execHpPop
  | .hpRelease .., _, _ => hs.execHpRelease
  | .hpMark .., _, _ => hs.execHpMark
  | .hpRewind .., _, _ => hs.execHpRewind
  | .hpStatus .., _, _ => hs.execHpStatus
  | .hpEcho .., _, _ => hs.execHpEcho
  | .hpTransactionAbort, _, _ => hs.execHpTransactionAbort
  | .lbFlush .., _, _ => hs.execLbFlush
  | .lbCodeFilterSet .., _, _ => hs.execLbCodeFilterSet
  | .resetAssert, h, _ => absurd rfl h
  | .resetRelease .., _, _ => hs.execResetRelease
  | .loDetect .., _, _ => hs.execLoDetect
  | .bootRecordRead .., _, _ => hs.execBootRecordRead
  | .loCfgSet .., _, _ => hs.execLoCfgSet
  | .pllLock, _, h => absurd rfl h
  | .pllLockTimeout, _, _ => hs.execPllLockTimeout
  | .fabricInitDone, _, _ => hs.execFabricInitDone
  | .loLost, _, _ => hs.execLoLost
  | .productionSelftestStart, _, _ => hs.execProductionSelftestStart
  | .productionSelftestDone .., _, _ => hs.execProductionSelftestDone
  | .tdmLoopSet .., _, _ => hs.execTdmLoopSet
  | .portLoopSet .., _, _ => hs.execPortLoopSet
  | .hearthLoopSet .., _, _ => hs.execHearthLoopSet
  | .dwTestSet .., _, _ => hs.execDwTestSet
  | .dwTestDone .., _, _ => hs.execDwTestDone
  | .ddrTestStart .., _, _ => hs.execDdrTestStart
  | .ddrTestAbort .., _, _ => hs.execDdrTestAbort
  | .ddrTestDone .., _, _ => hs.execDdrTestDone
  | .hallTestSet .., _, _ => hs.execHallTestSet
  | .hallTestDone, _, _ => hs.execHallTestDone
  | .ppsOutSecond, _, _ => hs.execPpsOutSecond
  | .ppsOutPulseEnd, _, _ => hs.execPpsOutPulseEnd
  | .ptpQualificationTimeout .., _, _ => hs.execPtpQualificationTimeout
  | .authFailWindowEnd, _, _ => hs.execAuthFailWindowEnd
  | .hpBadOpcode .., _, _ => hs.execHpBadOpcode
  | .hallTestTileDone .., _, _ => hs.execHallTestTileDone
  | .vddPllUp, _, _ => hs.execVddPllUp

/-- Every command completes; where it is reset or the lock of the PLL, RC may begin anew. -/
theorem Sound.exec_zero (hs : Sound f q r s) (c : Instr) : ∃ t, Machine.exec c s = .next t ∧ Sound f q 0 t := by
  by_cases hreset : c = .resetAssert
  · exact hreset ▸ hs.execResetAssert
  by_cases hlock : c = .pllLock
  · exact hlock ▸ hs.execPllLock
  obtain ⟨t, ht, hsound⟩ := hs.exec c hreset hlock
  exact ⟨t, ht, hsound.zero⟩

/-- Taking the front command out of the queue touches nothing that makes a state sound. -/
theorem State.inv_setPending (c : List Instr) : State.inv { s with pending := c } = s.inv := rfl

end

/-- Settles O4. A step runs the command at the front of the queue, or idles; both keep a sound state. -/
theorem stepKeepsSound : Obligations.StepKeepsSound := by
  intro s t hinv hstep
  unfold step at hstep
  split at hstep
  next c rest hq =>
    have front : State.inv { s with pending := rest } = true := (State.inv_setPending rest).trans hinv
    obtain ⟨u, hu, hsound⟩ := (Sound.of_inv front).exec_zero c
    rw [hu] at hstep
    cases hstep
    exact hsound.inv
  next =>
    cases hstep
    exact (Sound.of_inv hinv).idle.inv

/-- Settles O5. All of it is what `Sound` keeps, from the state before on. -/
theorem commandsCompleteAndRcRises : Obligations.CommandsCompleteAndRcRises := by
  intro c s hinv
  by_cases hc : c ≠ .resetAssert ∧ c ≠ .pllLock
  · obtain ⟨t, ht, hsound⟩ := (Sound.of_inv hinv).exec c hc.1 hc.2
    exact ⟨t, ht, hsound.fuse, hsound.pending, fun _ _ => hsound.rc⟩
  · obtain ⟨t, ht, hsound⟩ := (Sound.of_inv hinv).exec_zero c
    exact ⟨t, ht, hsound.fuse, hsound.pending, fun hreset hlock => absurd ⟨hreset, hlock⟩ hc⟩

end Sys2Proof.Machine
end

section
/-! What a read of a field or flag gives: shorthands over the laws of the state, for the proofs of the statements. -/

namespace Sys2Proof.Machine

section
variable {s t : State} {f g : Fld} {n : Nat}

theorem State.rd_congr (h : t.get f.key = s.get f.key) : t.rd f = s.rd f := by unfold State.rd; rw [h]
theorem State.on_congr (h : t.rd f = s.rd f) : t.on f = s.on f := by unfold State.on; rw [h]

/-- An entry reads by the store and the part's data alone. -/
theorem State.get_of_regs (hregs : t.regs = s.regs) (hfuse : t.fuse = s.fuse) (k : Nat) : t.get k = s.get k := by
  unfold State.get; rw [hregs, hfuse]
theorem State.rd_of_regs (hregs : t.regs = s.regs) (hfuse : t.fuse = s.fuse) (f : Fld) : t.rd f = s.rd f :=
  State.rd_congr (State.get_of_regs hregs hfuse f.key)
theorem State.on_of_regs (hregs : t.regs = s.regs) (hfuse : t.fuse = s.fuse) (f : Fld) : t.on f = s.on f :=
  State.on_congr (State.rd_of_regs hregs hfuse f)

section
variable {rc : Nat} {path : PathState} {volt : VoltState} {time : TimeState} {ports : Sparse Port} {hearth : HearthState}
  {ptp : Sparse PtpPort} {stream : StreamState} {asrc : Sparse Asrc} {tdm : TdmState} {hall : HallState} {rooms : Sparse Room}
  {guard : GuardState} {cellar : Cellar} {dw : Option DwTest} {kdp : Kdp} {flash : Flash} {boot : Boot} {hallTest : Option HallTest}
  {ddrTest : Bool} {lb : Letterbox} {host : HostPort} {answer : Answer} {free : Nat} {pending : List Instr}

/-- Whatever else changes beside the store and the part's data, an entry reads as before. -/
theorem State.get_keep (s : State) (k : Nat) : State.get ⟨s.fuse, s.regs, rc, path, volt, time, ports, hearth, ptp, stream, asrc, tdm,
    hall, rooms, guard, cellar, dw, kdp, flash, boot, hallTest, ddrTest, lb, host, answer, free, pending⟩ k = s.get k := rfl
theorem State.rd_keep (s : State) (f : Fld) : State.rd ⟨s.fuse, s.regs, rc, path, volt, time, ports, hearth, ptp, stream, asrc, tdm,
    hall, rooms, guard, cellar, dw, kdp, flash, boot, hallTest, ddrTest, lb, host, answer, free, pending⟩ f = s.rd f := rfl
theorem State.on_keep (s : State) (f : Fld) : State.on ⟨s.fuse, s.regs, rc, path, volt, time, ports, hearth, ptp, stream, asrc, tdm,
    hall, rooms, guard, cellar, dw, kdp, flash, boot, hallTest, ddrTest, lb, host, answer, free, pending⟩ f = s.on f := rfl

end

theorem State.on_iff (s : State) (f : Fld) : s.on f = true ↔ s.rd f ≠ 0 := by simp [State.on]
theorem State.on_eq_false_iff (s : State) (f : Fld) : s.on f = false ↔ s.rd f = 0 := by simp [State.on]

/-- A field of one bit is on where it reads 1. -/
theorem State.rd_eq_one (hw : f.w = 1) (h : s.on f = true) : s.rd f = 1 := by
  have := s.rd_lt f
  rw [hw] at this
  have := (s.on_iff f).mp h
  omega

theorem State.on_wr_same (s : State) (f : Fld) (n : Nat) : (s.wr f n).on f = decide (n % 2 ^ f.w ≠ 0) := by
  unfold State.on
  rw [State.rd_wr_same]
  simp [bne, Bool.beq_eq_decide_eq]

theorem State.on_wr_ne (s : State) {f g : Fld} (n : Nat) (h : g.key ≠ f.key) : (s.wr f n).on g = s.on g :=
  State.on_congr (State.rd_wr_ne s n h)

theorem State.on_wr_apart (s : State) {f g : Fld} (n : Nat) (h : g.lo + g.w ≤ f.lo ∨ f.lo + f.w ≤ g.lo) :
    (s.wr f n).on g = s.on g :=
  State.on_congr (State.rd_wr_apart s n h)

/-- A flag reads as it was last set, as a number. -/
theorem State.rd_flag_same (s : State) (f : Fld) (b : Bool) (h : 0 < f.w) : (s.flag f b).rd f = b2n b := by
  have hw : 1 < 2 ^ f.w := Nat.one_lt_two_pow (by omega)
  unfold State.flag
  rw [State.rd_wr_same]
  cases b
  · exact Nat.zero_mod _
  · exact Nat.mod_eq_of_lt hw

theorem State.bumpIf_get_ne (s : State) (b : Bool) {f : Fld} {k : Nat} (h : k ≠ f.key) : (s.bumpIf b f).get k = s.get k := by
  cases b
  · rfl
  · exact State.get_bump_ne s 1 h

end

end Sys2Proof.Machine
end


section
/-! What a change leaves unchanged in the dictionary: the entries that may change are named by a predicate on keys, and each operation
of the state keeps within it where its own key does. -/

namespace Sys2Proof.Machine

/-- What each step of a fold keeps, the fold keeps. -/
theorem State.each_keeps {α : Type} {P : State → Prop} {l : List α} {f : State → α → State} {s : State} (h : P s)
    (hf : ∀ u x, x ∈ l → P u → P (f u x)) : P (s.each l f) := by
  unfold State.each
  induction l generalizing s with
  | nil => exact h
  | cons x r ih => exact ih (hf s x List.mem_cons_self h) fun u y hy => hf u y (List.mem_cons_of_mem x hy)

theorem State.units_keeps {P : State → Prop} {n : Nat} {f : State → Nat → State} {s : State} (h : P s)
    (hf : ∀ u k, k < n → P u → P (f u k)) : P (s.units n f) :=
  State.each_keeps h fun u k hk => hf u k (List.mem_range.mp hk)

/-- From `s` to `t` no entry changes but those at the keys of `K`. -/
def Only (K : Nat → Prop) (s t : State) : Prop := ∀ k, ¬K k → t.get k = s.get k

section
variable {K K' : Nat → Prop} {s t u : State}

theorem Only.refl (K : Nat → Prop) (s : State) : Only K s s := fun _ _ => rfl
theorem Only.trans (h : Only K s t) (h' : Only K t u) : Only K s u := fun k hk => (h' k hk).trans (h k hk)
theorem Only.mono (h : Only K s t) (hK : ∀ k, K k → K' k) : Only K' s t := fun k hk => h k fun hk' => hk (hK k hk')

/-- What does not touch the dictionary keeps within anything. -/
theorem Only.of_get (h : Only K s t) (hu : ∀ k, u.get k = t.get k) : Only K s u := fun k hk => (hu k).trans (h k hk)

theorem Only.rd (h : Only K s t) {f : Fld} (hf : ¬K f.key) : t.rd f = s.rd f := State.rd_congr (h _ hf)
theorem Only.on (h : Only K s t) {f : Fld} (hf : ¬K f.key) : t.on f = s.on f := State.on_congr (h.rd hf)

theorem Only.put {key n : Nat} (h : Only K s t) (hf : K key) : Only K s (t.put key n) := fun k hk =>
  (State.get_put_ne t n fun he : k = _ => hk (he ▸ hf)).trans (h k hk)
theorem Only.wr {f : Fld} {n : Nat} (h : Only K s t) (hf : K f.key) : Only K s (t.wr f n) := fun k hk =>
  (State.get_wr_ne t n fun he : k = _ => hk (he ▸ hf)).trans (h k hk)
theorem Only.bump {f : Fld} {n : Nat} (h : Only K s t) (hf : K f.key) : Only K s (t.bump f n) := fun k hk =>
  (State.get_bump_ne t n fun he : k = _ => hk (he ▸ hf)).trans (h k hk)
theorem Only.flag {f : Fld} {b : Bool} (h : Only K s t) (hf : K f.key) : Only K s (t.flag f b) := h.wr hf
theorem Only.bumpIf {b : Bool} {f : Fld} (h : Only K s t) (hf : K f.key) : Only K s (t.bumpIf b f) := by
  cases b
  · exact h
  · exact h.bump hf

theorem Only.ite {c : Prop} [Decidable c] (ht : Only K s t) (hu : Only K s u) : Only K s (if c then t else u) := by
  split
  · exact ht
  · exact hu

theorem Only.ite_fst {α : Type} {c : Prop} [Decidable c] {x y : State × α} (hx : Only K s x.1) (hy : Only K s y.1) :
    Only K s (if c then x else y).1 := by
  split
  · exact hx
  · exact hy

theorem Only.each {α : Type} {l : List α} {f : State → α → State} (h : Only K s t)
    (hf : ∀ u x, x ∈ l → Only K s u → Only K s (f u x)) : Only K s (t.each l f) := State.each_keeps h hf

theorem Only.units {n : Nat} {f : State → Nat → State} (h : Only K s t) (hf : ∀ u k, k < n → Only K s u → Only K s (f u k)) :
    Only K s (t.units n f) := h.each fun u k hk => hf u k (List.mem_range.mp hk)

theorem Only.onlyLb (h : Only K s t) (hK : ∀ k ∈ lbKeys, K k) (hu : OnlyLb t u) : Only K s u := fun k hk =>
  (hu.regs k fun hl => hk (hK k hl)).trans (h k hk)

theorem Only.post {code prio : Nat} {l : List Nat} (h : Only K s t) (hK : ∀ k ∈ lbKeys, K k) : Only K s (t.post code prio l) :=
  h.onlyLb hK (t.post_only code prio l)

theorem Only.scatter {s₀ : State} (h : Only K s t) (hK : ∀ k ∈ lbKeys, K k) : Only K s (s₀.scatter t) :=
  h.onlyLb hK ((OnlyLb.refl t).scatter s₀)

theorem Only.together {f : State → State} (h : Only K s t) (hK : ∀ k ∈ lbKeys, K k) (hf : ∀ u, Only K s u → Only K s (f u)) :
    Only K s (t.together f) :=
  (hf t.gather (h.of_get fun _ => rfl)).scatter hK

theorem Only.apart {f : State → State} (h : Only K s t) (hK : ∀ k ∈ lbKeys, K k) (hf : ∀ u, Only K s u → Only K s (f u)) :
    Only K s (t.apart f) := by
  unfold State.apart
  split
  · exact h.together hK hf
  · exact (hf _ (h.onlyLb hK (OnlyLb.refl t).deliver)).onlyLb hK (OnlyLb.refl _).deliver

end

end Sys2Proof.Machine
end

section
/-! Proofs of the statements about every SET and GET row: reset values, what an accepted SET stores, what a refused one leaves, what a
read answers and clears (R364 to R369, R428). -/

namespace Sys2Proof.Machine

section
variable {s : State} {who : Role} {key : Nat} {v : Val} {e : Ent} {a b n : Nat} {mine : Nat → Bool}

/-- An accepted SET of a stored entry that the Hearth does not choose by: it is stored, and its own effect follows. -/
theorem State.Accepts.setAs_stored (h : s.Accepts who key v e a b n) (hm : mine n = true) (hd : decides e = false)
    (hk : keeps e = true) :
    s.setAs e key who v mine = ((s.takes key n).entApply e a b (s.get key) n v.raw).say .ok := by
  rw [h.setAs hm, if_neg (by simp [hd]), h.applyItem rfl, if_pos hk]

/-- An accepted SET of an entry that the Hearth chooses by: storing, effect and decision are one moment (R105, R421). -/
theorem State.Accepts.setAs_decides (h : s.Accepts who key v e a b n) (hm : mine n = true) (hd : decides e = true)
    (hk : keeps e = true) :
    s.setAs e key who v mine =
      (s.together fun u => ((u.takes key n).entApply e a b (s.get key) n v.raw).settleRefs).say .ok := by
  rw [h.setAs hm, if_pos hd]
  unfold State.together
  beta_reduce
  rw [h.applyItem (u := s.gather) rfl, if_pos hk, State.gather_get]

end

/-- A SET names an entry of the table, that the part has, and its number is as the entry's descriptor reads it. -/
theorem State.entryAt_of_named {s : State} {key : Nat} {v : Val} {e : Ent} {a b n : Nat} (h : s.named key v = some (e, a, b, n)) :
    ∃ d, s.entryAt key = some (d, a, b) ∧ d.ent = e ∧ d.valueIn (itemOf key v) = n := by
  unfold State.named at h
  rw [Option.map_eq_some_iff] at h
  obtain ⟨⟨d, a', b'⟩, hentry, heq⟩ := h
  simp only [Prod.mk.injEq] at heq
  obtain ⟨hent, rfl, rfl, hval⟩ := heq
  exact ⟨d, hentry, hent, hval⟩

/-- REGISTER_WRITE of an entry without a row of its own is a SET of it. -/
theorem exec_registerWrite_of_named {s : State} {who : Role} {key : Nat} {v : Val} {e : Ent} {a b n : Nat}
    (h : s.named key v = some (e, a, b, n)) (hown : ownRow e = false) :
    exec (.registerWrite who key v) s = .next (s.setAs e key who v (fun _ => true)) := by
  obtain ⟨d, hentry, rfl, -⟩ := State.entryAt_of_named h
  show Host.Outcome.next _ = _
  rw [(State.entryAt_mem hentry).2]
  simp only [hown, Bool.false_eq_true, if_false]

/-- The fields of an entry that stands at a key. -/
theorem fieldsAt_of_locate {key a b : Nat} {d : EntDesc} (h : locate key = some (d, a, b)) : fieldsAt key = d.fields := by
  unfold fieldsAt
  rw [h]
  rfl

/-- The fields of an entry of the table lie apart. -/
theorem fieldsApart_of_locate {key a b : Nat} {d : EntDesc} (h : locate key = some (d, a, b)) :
    fieldsApart 0 d.fields = true :=
  List.all_eq_true.mp table_apart d (locateIn_mem h)

/-- A field of an entry that takes `n` reads as sent where it is RW or WO, and else as it stood (R365). -/
theorem State.rd_takes {s : State} {key n a b : Nat} {d : EntDesc} (h : locate key = some (d, a, b)) {f : FieldD}
    (hf : f ∈ d.fields) (hw : 0 < f.w) :
    (s.takes key n).rd ⟨key, f.lo, f.w⟩ = if f.sent then field n f.lo f.w else s.rd ⟨key, f.lo, f.w⟩ := by
  unfold State.rd State.takes
  rw [State.get_put_same, fieldsAt_of_locate h, field_stored (fieldsApart_of_locate h) f hf hw]

/-- Settles O9. A field is sent exactly where it is RW or WO. -/
theorem storedFieldsReadAsSent : Obligations.StoredFieldsReadAsSent := by
  intro s key n a b d hloc f hf hw
  rw [State.rd_takes hloc hf hw]
  have hsent : f.sent = true ↔ f.acc = .rw ∨ f.acc = .wo := by simp [FieldD.sent]
  simp only [hsent]

/-- Settles O6. At reset nothing is listed in the store, so an entry reads as its table's reset word. -/
theorem resetReadsTheTables : Obligations.ResetReadsTheTables := by
  refine ⟨fun d hd a b hloc hrule f hf hw => ?_, fun s => rfl⟩
  have hget : State.reset.get (d.keyOf a b) = resetFields d.fields := by
    show resetOf {} (d.keyOf a b) = _
    unfold resetOf
    rw [hloc]
    exact hrule _
  unfold State.rd
  rw [hget, field_resetFields (fieldsApart_of_locate hloc) f hf hw]

/-- An entry without a row of its own, but for the eleven that act, is only stored. -/
theorem entApply_of_plain {e : Ent} (hown : ownRow e = false)
    (hact : e ∉ [.ptpLocalQuality, .trigOutCfg, .dpllCfg, .holdoverCfg, .wclkOutCfg, .ppsOutCfg, .mCfg, .frameCfg, .txqPfcClass,
      .rxTiming, .slackTarget]) :
    decides e = false ∧ keeps e = true ∧ ∀ (s : State) (a b old n : Nat) (raw : List Byte), s.entApply e a b old n raw = s := by
  revert hown hact
  cases e
  all_goals first
    | exact fun _ _ => ⟨rfl, rfl, fun _ _ _ _ _ _ => rfl⟩
    | exact fun hrow _ => absurd hrow (by decide)
    | exact fun _ hacts => absurd (by decide) hacts

/-- Settles O7. Of each of these entries the effect beside storing is nothing. -/
theorem settingsAreStored : Obligations.SettingsAreStored := by
  intro s who a v n key
  refine ⟨fun h => ?_, fun h => ?_, fun h => ?_, fun h => ?_, fun h => ?_, fun h => ?_, fun h => ?_, fun e b h hown hact => ?_⟩
  iterate 7 exact congrArg Host.Outcome.next (h.setAs_stored (mine := fun _ => true) rfl rfl rfl)
  obtain ⟨hd, hk, happly⟩ := entApply_of_plain hown hact
  rw [exec_registerWrite_of_named h.entry hown, h.setAs_stored rfl hd hk, happly]

/-- The commands of SetRows0 to SetRows2 are the SETs of their entries. -/
theorem exec_of_setRows {s : State} {who : Role} {a b : Nat} {v : Val} {r : SetRow}
    (h : SetRows0 s who a b v r ∨ SetRows1 who a b v r ∨ SetRows2 who a v r) :
    exec r.cmd s = .next (s.setAs r.ent r.key who v r.mine) := by
  revert r
  simp only [or_imp, forall_and, SetRows0, SetRows1, SetRows2]
  refine ⟨?_, ?_, ?_⟩
  all_goals
    repeat refine List.forall_mem_cons.mpr ⟨rfl, ?_⟩
    exact List.forall_mem_nil _

/-- A SET that a check of R369 turns away answers its status and changes nothing else; a send is counted besides. -/
theorem State.setAs_of_refused {s : State} {who : Role} {key : Nat} {v : Val} {e : Ent} {a b n : Nat} {mine : Nat → Bool}
    (hready : s.on Reg.deviceStatusChipReady = true) (hquiet : s.catchUp = s) (hname : s.named key v = some (e, a, b, n))
    (hmine : mine n = true) (hsend : e ≠ .txqSend) (hno : s.judge who (itemOf key v) ≠ .ok) :
    s.setAs e key who v mine = s.say (s.judge who (itemOf key v)) := by
  obtain ⟨d, hentry, rfl, rfl⟩ := State.entryAt_of_named hname
  have hitem : s.setItem who (itemOf key v) = (s.judge who (itemOf key v), s) := by
    unfold State.setItem
    have hnote : s.noteRefused (itemOf key v) (s.judge who (itemOf key v)) = s := by
      unfold State.noteRefused
      rw [show (itemOf key v).key = key from rfl, hentry]
      simp [hsend]
    split
    next hok => exact absurd hok hno
    next => rw [hnote]
  unfold State.setAs
  rw [(State.entryAt_mem hentry).2, if_neg (by simp [hready])]
  unfold itemOf at hmine hitem ⊢
  simp only [hmine, hquiet, decide_true, Bool.and_self, if_true, hitem]

/-- A SET of an entry that the part has not is ABSENT, and changes nothing. -/
theorem State.setAs_of_absent {s : State} {who : Role} {key : Nat} {v : Val} {e : Ent} {mine : Nat → Bool}
    (hready : s.on Reg.deviceStatusChipReady = true) (hquiet : s.catchUp = s) (hentry : s.entryAt key = none)
    (hmine : ∀ d a b, locate key = some (d, a, b) → d.ent = e ∧ mine (d.valueIn (itemOf key v)) = true) :
    s.setAs e key who v mine = s.say .absent := by
  have hitem : s.setItem who (itemOf key v) = (.absent, s) := by
    unfold State.setItem State.noteRefused
    rw [State.judge_of_entryAt_none hentry, show (itemOf key v).key = key from rfl, hentry]
  unfold State.setAs
  rw [if_neg (by simp [hready])]
  split
  next => rfl
  next d a b hloc =>
    obtain ⟨hent, hval⟩ := hmine d a b hloc
    unfold itemOf at hval hitem
    simp only [hent, hval, hquiet, decide_true, Bool.and_self, if_true, hitem]

/-! What makes LB_FLUSH like the other rows: that RC has come to no schedule's point is so whatever stands in assembly. -/

/-- RC has come to `ρ`, and view `v` has no schedule pending up to it. -/
structure Later (v ρ : Nat) (t : State) : Prop where
  rc : ρ ≤ t.rc
  sched : ∀ c, (t.view v).sched = some c → ρ < c.at_

section
variable {v ρ : Nat} {s t : State}

theorem Later.of_eq (h : Later v ρ s) (hrc : t.rc = s.rc) (hviews : t.time.views = s.time.views) : Later v ρ t := by
  obtain ⟨h1, h2⟩ := h
  unfold State.view at h2
  exact ⟨hrc ▸ h1, by unfold State.view; rw [hviews]; exact h2⟩

theorem Later.wr (h : Later v ρ s) {f : Fld} {n : Nat} : Later v ρ (s.wr f n) := h.of_eq rfl rfl
theorem Later.flag (h : Later v ρ s) {f : Fld} {b : Bool} : Later v ρ (s.flag f b) := h.of_eq rfl rfl
theorem Later.setDpll (h : Later v ρ s) {l : Line} : Later v ρ (s.setDpll l) := h.of_eq rfl rfl
theorem Later.setTick (h : Later v ρ s) {d : Nat} {x : DomTick} : Later v ρ (s.setTick d x) := h.of_eq rfl rfl
theorem Later.markStep (h : Later v ρ s) {d w : Nat} : Later v ρ (s.markStep d w) := h.of_eq rfl rfl
theorem Later.setTrig (h : Later v ρ s) {a : Nat} {x : Trig} : Later v ρ (s.setTrig a x) := h.of_eq rfl rfl
theorem Later.slewOut (h : Later v ρ s) {o : Nat} {d : Int} {hz : Nat} : Later v ρ (s.slewOut o d hz) := h.of_eq rfl rfl
theorem Later.setSideSlew (h : Later v ρ s) {k : Nat} {e : Slew} : Later v ρ (s.setSideSlew k e) := h.of_eq rfl rfl

theorem Later.reach (h : Later v ρ s) {n : Nat} : Later v ρ (s.reach n) := by
  unfold State.reach
  split
  · exact ⟨le_trans h.rc (le_max_left _ _), h.sched⟩
  · exact h

theorem Later.ite {c : Prop} [Decidable c] (hs : Later v ρ s) (ht : Later v ρ t) : Later v ρ (if c then s else t) := by
  split <;> assumption

theorem Later.units {n : Nat} {g : State → Nat → State} (h : Later v ρ s) (hg : ∀ t k, Later v ρ t → Later v ρ (g t k)) :
    Later v ρ (s.units n g) := by
  unfold State.units State.each
  induction List.range n generalizing s with
  | nil => exact h
  | cons k l ih => exact ih (hg s k h)

/-- Only the Letterbox changes. -/
theorem Later.onlyLb (h : Later v ρ s) (ht : OnlyLb s t) : Later v ρ t := h.of_eq ht.rc (by rw [ht.time])

/-- A view replaced by one with no schedule up to `ρ`. -/
theorem Later.setView (h : Later v ρ s) {w : Nat} {x : View} (hx : w = v → ∀ c, x.sched = some c → ρ < c.at_) :
    Later v ρ (s.setView w x) := by
  refine ⟨h.rc, ?_⟩
  by_cases hw : w = v
  · subst hw
    rw [State.view_setView]
    exact hx rfl
  · rw [State.view_setView_ne s x (Ne.symm hw)]
    exact h.sched

theorem Later.unschedule (h : ρ ≤ s.rc) : Later v ρ (s.unschedule v) :=
  ⟨h, by simp [State.unschedule, State.view, State.setView]⟩

theorem Later.unschedule_any (h : Later v ρ s) {w : Nat} : Later v ρ (s.unschedule w) := by
  unfold State.unschedule
  exact (h.setView (x := { s.view w with sched := none }) fun _ _ hc => nomatch hc).wr

/-- A schedule without a point of its own is for the next RC, behind `ρ`. -/
theorem Later.schedule (h : Later v ρ s) {w : Nat} {rate step : Option Nat} {owner : Bool} :
    Later v ρ (s.schedule w none rate step owner) := by
  unfold State.schedule
  simp only [Bool.false_eq_true, if_false]
  refine (h.setView fun _ c hc => ?_).wr
  cases hc
  have := h.rc
  show ρ < s.rc + 1
  omega

theorem Later.hearthWrite (h : Later v ρ s) {w : Nat} {rate : Option Nat} {d : Int} : Later v ρ (s.hearthWrite w rate d) :=
  h.schedule

theorem Later.reconvert (h : Later v ρ s) {w a : Nat} : Later v ρ (s.reconvert w a) := h.units fun _ _ hu => hu.setTrig.ite hu

theorem Later.changeView (h : Later v ρ s) {w : Nat} {c : Sched} : Later v ρ (s.changeView w c) := by
  unfold State.changeView
  refine Later.reconvert ?_
  have hview : ∀ a o r, (((s.view w).ended a o r).sched = (s.view w).sched) := fun a o r => by
    unfold View.ended; split <;> rfl
  have h1 := h.setView (w := w) (x := (s.view w).ended c.at_ (s.rd (Reg.tvOffsetOffset w)) (s.rd (Reg.tvRateRate w)))
    (fun hw d hd => h.sched d (by rw [hview] at hd; exact hw ▸ hd))
  have owned (t : State) (ht : Later v ρ t) : Later v ρ (if c.owner then t.wr (Reg.tvStatusFreeRun w) 0 else t) := ht.wr.ite ht
  exact Later.ite (owned _ h1.wr.wr.wr) ((owned _ h1.wr.wr.wr).units fun _ _ hu => hu.markStep)

theorem Later.applySchedule (h : Later v ρ s) {w : Nat} {c : Sched} : Later v ρ (s.applySchedule w c) :=
  h.reach.unschedule_any.changeView

theorem Later.convStep (h : Later v ρ s) {c : Nat} {d : Int} : Later v ρ (s.convStep c d) := by
  unfold State.convStep
  exact Later.ite (h.of_eq rfl rfl) h

theorem Later.hearthStep (h : Later v ρ s) {d : Int} {moveView : Bool} : Later v ρ (s.hearthStep d moveView) := by
  unfold State.hearthStep
  refine Later.ite h ?_
  have h1 := h.units (n := 4) (fun u k hu => Later.ite (c := u.running k = true)
    ((hu.setTick (d := k) (x := { u.tick k with next := (u.tick k).next + u.gridShift k d })).units (n := 4)
      fun t w ht => ht.markStep (d := k) (w := w)) hu)
  have h2 := h1.units (n := 4) (fun u w hu => Later.ite (c := (moveView && u.rd (Reg.tvSource w) == 2) = true)
    (hu.hearthWrite (w := w) (rate := none) (d := d)) hu)
  have h3 := h2.units (n := 64) (fun u c hu => hu.convStep (c := c) (d := d))
  have h4 := h3.units (n := 2) (fun u w hu => Later.ite (c := u.wclkRuns w = true)
    (hu.slewOut (o := w) (d := d) (hz := (u.wclkHz w).1)) hu)
  exact h4.units fun u k hu => Later.ite (hu.of_eq rfl rfl) hu

theorem Later.dpllFollow (h : Later v ρ s) : Later v ρ s.dpllFollow := by
  unfold State.dpllFollow State.dpllTurn
  exact Later.ite (Later.setDpll (h.wr.setDpll.units fun _ _ hu => hu.hearthWrite.ite hu)) h

theorem Later.viewChanged (h : Later v ρ s) {w : Nat} {d : Int} {owner : Bool} : Later v ρ (s.viewChanged w d owner) := by
  unfold State.viewChanged
  have h1 := Later.ite (c := (d != 0 && s.on Reg.ppsOutCfgEnable && s.rd Reg.ppsOutCfgView == w) = true) (h.slewOut (o := 2) (d := d) (hz := 1)) h
  exact Later.ite (Later.ite h1.setDpll.hearthStep h1) (Later.ite h1.dpllFollow.hearthStep h1)

theorem Later.scatter (h : Later v ρ s) {s₀ : State} : Later v ρ (s₀.scatter s) := h.onlyLb ((OnlyLb.refl s).scatter s₀)

/-- What happens at one moment, or at one of its own, keeps what its parts keep. -/
theorem Later.moment {g : State → State} (h : ∀ t, OnlyLb s t → Later v ρ (g t)) :
    Later v ρ (s.together g) ∧ Later v ρ (s.apart g) := by
  have h1 : Later v ρ (s.together g) := (h _ ((OnlyLb.refl s).lb _)).scatter
  refine ⟨h1, ?_⟩
  unfold State.apart
  split
  · exact h1
  · have h2 := h _ (OnlyLb.refl s).deliver
    exact h2.onlyLb (OnlyLb.refl _).deliver

theorem Later.applyDue (h : Later v ρ s) {n rc : Nat} : Later v ρ (s.applyDue n rc) := by
  induction n generalizing s with
  | zero => exact h
  | succ n ih =>
    unfold State.applyDue
    split
    next w c _ =>
      have hgo := Later.moment (s := s) (v := v) (ρ := ρ)
        (g := fun t => (t.applySchedule w c).viewChanged w (sext 96 (c.step.getD 0)) c.owner)
        fun t ht => (h.onlyLb ht).applySchedule.viewChanged
      exact ih (Later.ite hgo.2 hgo.1)
    next => exact h

end

/-- The schedule that is due first is one, and due. -/
theorem State.nextDue_eq_some {s : State} {rc v : Nat} {c : Sched} (h : s.nextDue rc = some (v, c)) :
    (s.view v).sched = some c ∧ c.at_ ≤ rc := by
  have hfold : ∀ (l : List Nat) (b : Option (Nat × Sched)),
      (∀ v c, b = some (v, c) → (s.view v).sched = some c ∧ c.at_ ≤ rc) → ∀ v c,
      l.foldl (fun b v => match (s.view v).sched, b with
        | some c, none => if c.at_ ≤ rc then some (v, c) else none
        | some c, some (w, e) => if c.at_ < e.at_ then some (v, c) else some (w, e)
        | none, b => b) b = some (v, c) → (s.view v).sched = some c ∧ c.at_ ≤ rc := by
    intro l
    induction l with
    | nil => exact fun _ hb => hb
    | cons w l ih =>
      refine fun b hb => ih _ ?_
      intro v c hc
      dsimp only at hc
      split at hc
      next e hw =>
        split at hc
        next hle => cases hc; exact ⟨hw, hle⟩
        next => cases hc
      next e x f hw =>
        have hx := hb x f rfl
        split at hc
        next hlt => cases hc; exact ⟨hw, by omega⟩
        next => cases hc; exact hx
      next => exact hb _ _ hc
  exact hfold _ none (fun _ _ h => nomatch h) v c h

/-- With no schedule due, RC comes to nothing. -/
theorem State.catchUp_of_nextDue {s : State} (h : s.nextDue s.rc = none) : s.catchUp = s := by
  unfold State.catchUp State.advance State.reach
  simp only [max_self, ite_self, State.applyDue, h]

/-- A state that RC's present value changes nothing of has no schedule due: one that were would be gone after it. -/
theorem State.nextDue_of_catchUp {s : State} (h : s.catchUp = s) : s.nextDue s.rc = none := by
  by_contra hdue
  obtain ⟨⟨v, c⟩, hc⟩ := Option.ne_none_iff_exists'.mp hdue
  have hsched := State.nextDue_eq_some hc
  have hlater : Later v s.rc s.catchUp := by
    unfold State.catchUp State.advance
    refine Later.reach ?_
    simp only [max_self, ite_self]
    unfold State.applyDue
    rw [hc]
    have hgo := Later.moment (s := s) (v := v) (ρ := s.rc)
      (g := fun t => (t.applySchedule v c).viewChanged v (sext 96 (c.step.getD 0)) c.owner)
      fun t ht => by
        have hrc : s.rc ≤ (t.reach c.at_).rc := by
          rw [← ht.rc]; unfold State.reach; split
          · exact le_max_left _ _
          · exact le_refl _
        exact (Later.unschedule hrc).changeView.viewChanged
    exact (Later.ite hgo.2 hgo.1).applyDue
  rw [h] at hlater
  have := hlater.sched c hsched.1
  omega

/-- LB_FLUSH is a SET of LB_CMD with the named items in assembly. -/
theorem State.assembles_refused {s : State} {who : Role} {v : Val} {l : List (Nat × Bool)} {x y n : Nat}
    (hready : s.on Reg.deviceStatusChipReady = true) (hquiet : s.catchUp = s) (hbegun : s.lb.begun = none)
    (hname : s.named Reg.lbCmdCmd.key v = some (.lbCmd, x, y, n)) (hno : s.judge who (itemOf Reg.lbCmdCmd.key v) ≠ .ok) :
    ((s.assembles (some l)).setAs .lbCmd Reg.lbCmdCmd.key who v (fun _ => true)).assembles none =
      s.say (s.judge who (itemOf Reg.lbCmdCmd.key v)) := by
  have hjudge : (s.assembles (some l)).judge who (itemOf Reg.lbCmdCmd.key v) = s.judge who (itemOf Reg.lbCmdCmd.key v) := by
    obtain ⟨d, hentry, hent, -⟩ := State.entryAt_of_named hname
    have hstate (t : State) (key m : Nat) (raw : List Byte) : t.entState d.ent x y key m raw = .ok := by rw [hent]; rfl
    have hsame : (s.assembles (some l)).entryAt Reg.lbCmdCmd.key = s.entryAt Reg.lbCmdCmd.key := rfl
    unfold State.judge State.judgeValue
    simp only [show (itemOf Reg.lbCmdCmd.key v).key = Reg.lbCmdCmd.key from rfl, hsame, hentry, hstate]
    rfl
  have hquiet' : (s.assembles (some l)).catchUp = s.assembles (some l) :=
    State.catchUp_of_nextDue (State.nextDue_of_catchUp hquiet :)
  rw [State.setAs_of_refused (s := s.assembles (some l)) hready hquiet' hname rfl (by decide)
    (by rw [hjudge]; exact hno), hjudge]
  unfold State.say State.assembles
  rw [← hbegun]

/-- The command of a row of SetRows is the SET of its entry, where its key is that entry's or none's. -/
theorem exec_of_row {s : State} {who : Role} {a b : Nat} {v : Val} {r : SetRow} (hr : SetRows s who a b v r)
    (hloc : ∀ d x y, locate r.key = some (d, x, y) → d.ent = r.ent) :
    exec r.cmd s = .next (s.setAs r.ent r.key who v r.mine) := by
  obtain h | h | h | ⟨key, e, hown, rfl⟩ | h := hr
  · exact exec_of_setRows (.inl h)
  · exact exec_of_setRows (.inr (.inl h))
  · exact exec_of_setRows (b := b) (.inr (.inr h))
  · show Host.Outcome.next _ = _
    split
    next d x y hkey =>
      obtain rfl : d.ent = e := hloc d x y hkey
      rw [hown, if_neg Bool.false_ne_true]
    next hkey =>
      unfold State.setAs
      rw [show locate (SetRow.key _) = none from hkey]
      simp only [hkey]
  · simp only [List.mem_cons, List.not_mem_nil, or_false] at h
    obtain rfl | rfl := h
    · exact congrArg Host.Outcome.next (if_pos rfl)
    · exact congrArg Host.Outcome.next (if_neg Bool.false_ne_true)

/-- Settles O10. A row's SET that is turned away answers the status it was judged, and so does one of an entry that is not there. -/
theorem refusedSetChangesNothing : Obligations.RefusedSetChangesNothing := by
  refine ⟨fun s who a b v r hr hready hquiet x y n hname hmine hsend hno => ?refused,
    fun s who v mid last hready hquiet hbegun x y n hname hno => ?flush, fun s who key v hready hquiet hentry => ⟨?write, ?row⟩⟩
  case refused =>
    obtain ⟨d, hentry, hent, -⟩ := State.entryAt_of_named hname
    have hloc := (State.entryAt_mem hentry).2
    rw [exec_of_row hr fun d' _ _ h => by rw [hloc] at h; cases h; exact hent,
      State.setAs_of_refused hready hquiet hname hmine hsend hno]
  case flush => exact congrArg Host.Outcome.next (State.assembles_refused hready hquiet hbegun hname hno)
  case write =>
    intro hown
    show Host.Outcome.next _ = _
    split
    next d a b hloc =>
      rw [hown d a b hloc, if_neg Bool.false_ne_true,
        State.setAs_of_absent hready hquiet hentry fun d' _ _ h => by rw [hloc] at h; cases h; exact ⟨rfl, rfl⟩]
    next hloc => rw [State.setAs_of_absent hready hquiet hentry fun d a b h => by rw [hloc] at h; cases h]
  case row =>
    rintro a b r hr rfl hent
    rw [exec_of_row hr fun d x y h => (hent d x y h).1, State.setAs_of_absent hready hquiet hentry hent]

/-- An entry stands at a key where its descriptor finds the unit numbers of the key's offset. -/
theorem splitDims_of_locate {key a b : Nat} {d : EntDesc} (h : locate key = some (d, a, b)) :
    d.key ≤ key ∧ (key - d.key) % 256 = 0
      ∧ ∃ l, splitDims d.dims ((key - d.key) / 256) = some l ∧ a = l.getD 0 0 ∧ b = l.getD 1 0 := by
  unfold locate at h
  generalize entTable = table at h
  induction table with
  | nil => cases h
  | cons x r ih =>
    unfold locateIn at h
    split at h
    next hat =>
      simp only [Bool.and_eq_true, decide_eq_true_eq, beq_iff_eq] at hat
      split at h
      next l hl =>
        cases h
        exact ⟨hat.1, hat.2, l, hl, rfl, rfl⟩
      next => exact ih h
    next => exact ih h

/-- An entry of one unit letter stands at its base and the unit's strides, and the unit is one of its count. -/
theorem key_of_locate_one {key a b st n : Nat} {d : EntDesc} (h : locate key = some (d, a, b)) (hdims : d.dims = [(st, n)]) :
    key = d.key + a * st * 256 ∧ a < n ∧ b = 0 := by
  obtain ⟨hle, hmod, l, hl, rfl, rfl⟩ := splitDims_of_locate h
  rw [hdims] at hl
  simp only [splitDims] at hl
  split at hl
  next hlt =>
    split at hl
    next hzero =>
      cases hl
      refine ⟨?_, hlt, rfl⟩
      have h1 := Nat.div_add_mod ((key - d.key) / 256) st
      have h2 := Nat.div_add_mod (key - d.key) 256
      rw [hzero, Nat.add_zero, Nat.mul_comm] at h1
      show key = d.key + (key - d.key) / 256 / st * st * 256
      rw [h1]
      omega
    next => cases hl
  next => cases hl

/-- An entry's descriptor is the one of its name in the table. -/
theorem desc_of_locate {key a b : Nat} {d x : EntDesc} (h : locate key = some (d, a, b))
    (hx : entTable.all (fun y => decide (y.ent ≠ x.ent) || decide (y = x)) = true) (hent : d.ent = x.ent) : d = x := by
  have := List.all_eq_true.mp hx d (locateIn_mem h)
  simpa [hent] using this

section
variable {s : State} {who : Role} {key a b : Nat} {d : EntDesc}

/-- What a read that clears does to one field of the entry at `key` (R367). -/
def State.clearRc (key : Nat) (s : State) (f : FieldD) : State := if f.acc = .rc then s.wr ⟨key, f.lo, f.w⟩ 0 else s

theorem State.clearRc_get_ne (s : State) (f : FieldD) {k : Nat} (h : k ≠ key) : (s.clearRc key f).get k = s.get k := by
  unfold State.clearRc
  split
  · exact State.get_wr_ne s 0 h
  · rfl

theorem State.clearRc_rd_apart (s : State) (f : FieldD) {lo w : Nat} (h : lo + w ≤ f.lo ∨ f.lo + f.w ≤ lo) :
    (s.clearRc key f).rd ⟨key, lo, w⟩ = s.rd ⟨key, lo, w⟩ := by
  unfold State.clearRc
  split
  · exact State.rd_wr_apart s 0 h
  · rfl

theorem State.each_clearRc_get_ne (s : State) (l : List FieldD) {k : Nat} (h : k ≠ key) :
    (s.each l (State.clearRc key)).get k = s.get k := by
  unfold State.each
  induction l generalizing s with
  | nil => rfl
  | cons f r ih => exact (ih _).trans (State.clearRc_get_ne s f h)

/-- A field below those that are cleared is as it was. -/
theorem State.each_clearRc_rd_below {lo w at_ : Nat} {l : List FieldD} (s : State) (h : fieldsApart at_ l = true) (hle : lo + w ≤ at_) :
    (s.each l (State.clearRc key)).rd ⟨key, lo, w⟩ = s.rd ⟨key, lo, w⟩ := by
  unfold State.each
  induction l generalizing s at_ with
  | nil => rfl
  | cons f r ih =>
    simp only [fieldsApart, Bool.and_eq_true, decide_eq_true_eq] at h
    obtain ⟨⟨⟨hlo, -⟩, -⟩, hrest⟩ := h
    exact (ih _ hrest (by omega)).trans (State.clearRc_rd_apart s f (.inl (by omega)))

/-- A read that clears leaves each RC field of the entry 0, and every other as it stood (R367). -/
theorem State.each_clearRc_rd {at_ : Nat} {l : List FieldD} (s : State) (h : fieldsApart at_ l = true) :
    ∀ f ∈ l, 0 < f.w → (s.each l (State.clearRc key)).rd ⟨key, f.lo, f.w⟩ = if f.acc = .rc then 0 else s.rd ⟨key, f.lo, f.w⟩ := by
  induction l generalizing s at_ with
  | nil => exact fun _ hf => nomatch hf
  | cons x r ih =>
    intro f hf hw
    simp only [fieldsApart, Bool.and_eq_true, decide_eq_true_eq] at h
    obtain ⟨⟨⟨hlo, -⟩, -⟩, hrest⟩ := h
    show ((s.clearRc key x).each r (State.clearRc key)).rd _ = _
    rcases List.mem_cons.mp hf with rfl | hf
    · rw [State.each_clearRc_rd_below _ hrest (le_refl _)]
      unfold State.clearRc
      split
      · rw [State.rd_wr_same, Nat.zero_mod]
      · rfl
    · rw [ih _ hrest f hf hw, State.clearRc_rd_apart s x (.inr (fieldsApart_above hrest f hf))]

/-- TX_PAUSE_TIME has one field, and a read clears it. -/
theorem portTxPauseTime_of_locate (h : locate key = some (d, a, b)) (hent : d.ent = .portTxPauseTime) :
    key = (Reg.portTxPauseTime a).key ∧ ∀ f ∈ d.fields, f.acc = .rc := by
  obtain rfl := desc_of_locate (x := ⟨.portTxPauseTime, 0x30040F01, [(4096, 3)], .u64, 8, 8, 4, 0, 2, [.any 0 64 .rc 0]⟩) h
    (by decide +kernel) hent
  refine ⟨?_, by simp [FieldD.any]⟩
  rw [(key_of_locate_one h rfl).1]
  show _ + a * 4096 * 256 = _ + a * 0x100000
  ring

/-- What a read clears of an entry that is no capture and no room's word, for a holder of the clear right. -/
theorem State.readEffects_clears (hloc : locate key = some (d, a, b)) (hevt : d.ent ≠ .evtCapture) (hmbo : d.ent ≠ .roomMboxOut)
    (hclr : d.clr = 0 ∨ holds who d.clr = true) :
    (∀ f ∈ d.fields, 0 < f.w → (s.readEffects who d a key).rd ⟨key, f.lo, f.w⟩ = if f.acc = .rc then 0 else s.rd ⟨key, f.lo, f.w⟩)
    ∧ ∀ k, k ≠ key → (s.readEffects who d a key).get k = s.get k := by
  have heff : s.readEffects who d a key =
      (if d.ent == .portTxPauseTime then s.pauseSettle a else s).each d.fields (State.clearRc key) := by
    unfold State.readEffects
    split
    next h => exact absurd h hevt
    next h => exact absurd h hmbo
    next => rw [if_pos (by simpa using hclr)]; rfl
  have hapart := fieldsApart_of_locate hloc
  rw [heff]
  by_cases hpause : d.ent = .portTxPauseTime
  · obtain ⟨hkey, hrc⟩ := portTxPauseTime_of_locate hloc hpause
    rw [if_pos (by simpa using hpause)]
    refine ⟨fun f hf hw => ?_, fun k hk => ?_⟩
    · rw [State.each_clearRc_rd _ hapart f hf hw, if_pos (hrc f hf), if_pos (hrc f hf)]
    · rw [State.each_clearRc_get_ne _ _ hk]
      exact State.get_bump_ne s _ (hkey ▸ hk)
  · rw [if_neg (by simpa using hpause)]
    exact ⟨State.each_clearRc_rd s hapart, fun k hk => State.each_clearRc_get_ne s _ hk⟩

/-- A GET that is served answers the value, and does what the read does. -/
theorem State.Reads.getAs (h : s.Reads who key d a b) {mine : EntDesc → Bool} (hm : mine d = true) :
    s.getAs mine key who =
      { s.readEffects who d a key with answer := { status := .ok, bytes := s.entryBytes d a b key } } := by
  obtain ⟨hready, hquiet, hentry, hright⟩ := h
  unfold State.getAs
  rw [(State.entryAt_mem hentry).2]
  simp only [hready, hm, hquiet, State.readEntry, hentry, hright, Bool.not_true, Bool.false_eq_true, if_false, if_true]

end

/-- Settles O11. A served read's effect is its entry's: clearing, the capture taken, or MBO_NEW. -/
theorem getsAnswerAndClear : Obligations.GetsAnswerAndClear := by
  intro s who key a b d
  refine ⟨fun h hevt hmbo hrc => ⟨fun hclr hno => ?keep, fun hclr => ?clear⟩, fun h hent => ?evt, fun h hent => ?mbo⟩
  case keep =>
    have heff : s.readEffects who d a key = s := by
      unfold State.readEffects
      split
      next h => exact absurd h hevt
      next h => exact absurd h hmbo
      next => rw [if_neg (by simp [hclr, hno])]
    exact congrArg Host.Outcome.next ((h.getAs hrc).trans (by rw [heff]))
  case clear =>
    obtain ⟨hfields, hothers⟩ := State.readEffects_clears (s := s) (who := who) (State.entryAt_mem h.entry).2 hevt hmbo hclr
    exact ⟨_, congrArg Host.Outcome.next (h.getAs hrc), rfl, hfields, hothers⟩
  case evt =>
    refine congrArg Host.Outcome.next ((h.getAs (by simp [hent])).trans ?_)
    unfold State.readEffects
    rw [hent]
    rfl
  case mbo =>
    refine congrArg Host.Outcome.next ((h.getAs (by simp [hent])).trans ?_)
    unfold State.readEffects
    rw [hent]

end Sys2Proof.Machine
end

section
/-! Proofs of the statements about the core voltage: moves of the code, the supply's events, settings, windows (R44 to R56). -/

namespace Sys2Proof.Machine

section
variable {s t : State}

/-! What the code aims at, and its moves. -/

theorem State.vidHigh_congr (hauto : t.volt.auto = s.volt.auto) (hset : t.vidSet = s.vidSet)
    (hclamp : t.on Reg.vidStatusThermalClamp = s.on Reg.vidStatusThermalClamp) : t.vidHigh = s.vidHigh := by
  unfold State.vidHigh
  rw [hauto, hset, hclamp]

theorem State.vidLow_congr (hauto : t.volt.auto = s.volt.auto) (hset : t.vidSet = s.vidSet) : t.vidLow = s.vidLow := by
  unfold State.vidLow
  rw [hauto, hset]

theorem State.vidGoal_congr (hauto : t.volt.auto = s.volt.auto) (hgoal : t.volt.goal = s.volt.goal) (hset : t.vidSet = s.vidSet)
    (hclamp : t.on Reg.vidStatusThermalClamp = s.on Reg.vidStatusThermalClamp) : t.vidGoal = s.vidGoal := by
  unfold State.vidGoal
  rw [State.vidHigh_congr hauto hset hclamp, State.vidLow_congr hauto hset, hauto, hgoal, hset]

theorem State.vidHigh_lt (s : State) : s.vidHigh.1 < 64 := by
  have hbound : (if s.volt.auto then min s.vidSet.ceil 63 else 63) < 64 := by split <;> omega
  unfold State.vidHigh
  generalize (if s.volt.auto then min s.vidSet.ceil 63 else 63) = hi at hbound
  show (if s.on Reg.vidStatusThermalClamp && 50 < hi then (50, true) else (hi, false)).1 < 64
  split
  · exact (by decide : 50 < 64)
  · exact hbound

theorem State.vidGoal_lt (s : State) : s.vidGoal < 64 := by
  have := s.vidHigh_lt
  have hcap : s.vidGoal ≤ s.vidHigh.1 := by
    unfold State.vidGoal
    split
    · exact min_le_right _ _
    · exact min_le_right _ _
  omega

/-- A move is by 1 to 4 codes, up to the goal. -/
theorem vidMove_spec {now goal : Nat} (h : goal ≠ now) :
    vidMove now goal ≠ now ∧ vidMove now goal ≤ now + 4 ∧ now ≤ vidMove now goal + 4 ∧ vidMove now goal ≤ max now goal := by
  unfold vidMove
  split <;> omega

/-- The check clears AT_CEIL, or does nothing. -/
theorem State.ceilCheck_eq (s : State) : s.ceilCheck = { s.wr Reg.vidStatusAtCeil 0 with volt := { s.volt with ceilPosted := none } }
    ∨ s.ceilCheck = s := ite_eq_or_eq _ _ _

theorem State.ceilCheck_get_ne (s : State) {k : Nat} (h : k ≠ Reg.vidStatusCodeNow.key) : s.ceilCheck.get k = s.get k := by
  obtain heq | heq := s.ceilCheck_eq
  · rw [heq]; exact State.get_wr_ne s 0 h
  · rw [heq]

/-- AT_CEIL apart, the check leaves VID_STATUS as it stands. -/
theorem State.ceilCheck_rd (s : State) {f : Fld} (h : f.lo + f.w ≤ 6 ∨ 7 ≤ f.lo) : s.ceilCheck.rd f = s.rd f := by
  obtain heq | heq := s.ceilCheck_eq
  · rw [heq]; exact State.rd_wr_apart s (f := Reg.vidStatusAtCeil) 0 h
  · rw [heq]

theorem State.ceilCheck_on (s : State) {f : Fld} (h : f.lo + f.w ≤ 6 ∨ 7 ≤ f.lo) : s.ceilCheck.on f = s.on f := by
  unfold State.on
  rw [s.ceilCheck_rd h]

/-- Beside AT_CEIL the check touches alone what is posted of it. -/
theorem State.ceilCheck_volt (s : State) : ∃ p, s.ceilCheck.volt = { s.volt with ceilPosted := p } := by
  obtain heq | heq := s.ceilCheck_eq
  · exact ⟨none, by rw [heq]⟩
  · exact ⟨s.volt.ceilPosted, by rw [heq]⟩

/-- A frozen or held loop, or one that settles, moves nothing (R53, R54). -/
theorem State.vidDrive_of_held (h : s.volt.frozen = true ∨ s.volt.pgHold = true ∨ s.on Reg.vidStatusSettling = true) :
    s.vidDrive = s := by
  unfold State.vidDrive
  exact if_pos (by simpa [or_assoc] using h)

/-- A code at its goal does not move. -/
theorem State.vidDrive_at_goal (hfrozen : s.volt.frozen = false) (hhold : s.volt.pgHold = false)
    (hsettling : s.on Reg.vidStatusSettling = false) (h : s.vidGoal = s.rd Reg.vidStatusCodeNow) :
    s.vidDrive = { s with volt := { s.volt with goal := s.vidGoal } } := by
  unfold State.vidDrive
  rw [if_neg (by simp [hfrozen, hhold, hsettling])]
  exact if_pos h

/-- What a move of the code is (R49). -/
structure VidMoved (s t : State) : Prop where
  code : t.rd Reg.vidStatusCodeNow = vidMove (s.rd Reg.vidStatusCodeNow) s.vidGoal
  settling : t.on Reg.vidStatusSettling = true
  moves : t.rd Reg.vidMoves = min (s.rd Reg.vidMoves + 1) (2 ^ 32 - 1)
  frame : ∀ k, k ≠ Reg.vidStatusCodeNow.key → k ≠ Reg.vidMoves.key → t.get k = s.get k
  volt : ∃ p, t.volt = { s.volt with goal := s.vidGoal, down := [], ceilPosted := p }

theorem State.vidDrive_moves (hfrozen : s.volt.frozen = false) (hhold : s.volt.pgHold = false)
    (hsettling : s.on Reg.vidStatusSettling = false) (h : s.vidGoal ≠ s.rd Reg.vidStatusCodeNow) : VidMoved s s.vidDrive := by
  have hmove := vidMove_spec h
  have hgoal := s.vidGoal_lt
  have hcode : s.rd Reg.vidStatusCodeNow < 64 := s.rd_lt Reg.vidStatusCodeNow
  unfold State.vidDrive
  rw [if_neg (by simp [hfrozen, hhold, hsettling])]
  refine if_neg h ▸ ?_
  dsimp only
  refine ⟨?_, ?_, ?_, fun k hk hm => ?_, State.ceilCheck_volt _⟩
  · rw [State.ceilCheck_rd _ (.inl (by decide))]
    rw [State.rd_keep, State.rd_wr_apart (f := Reg.vidStatusSettling) _ _ (.inl (by decide)),
      State.rd_bump_ne (f := Reg.vidMoves) _ _ (by decide), State.rd_wr_same]
    exact Nat.mod_eq_of_lt (by show _ < 64; omega)
  · rw [State.ceilCheck_on _ (.inr (by decide))]
    exact (State.on_keep _ _).trans (State.on_wr_same _ _ _)
  · rw [State.rd_congr (State.ceilCheck_get_ne _ (by decide))]
    rw [State.rd_keep, State.rd_wr_ne (f := Reg.vidStatusSettling) _ _ (by decide), State.rd_bump_same,
      State.rd_wr_ne (f := Reg.vidStatusCodeNow) _ _ (by decide), State.rd_keep]
  · rw [State.ceilCheck_get_ne _ hk]
    rw [State.get_keep, State.get_wr_ne (f := Reg.vidStatusSettling) _ _ hk, State.get_bump_ne _ _ hm,
      State.get_wr_ne (f := Reg.vidStatusCodeNow) _ _ hk, State.get_keep]

end

/-- Settles O17. A move is `vidMove`, of at most 4 codes; a held loop and one at its goal make none. -/
theorem vidMovesAtMostFour : Obligations.VidMovesAtMostFour := by
  intro s
  refine ⟨State.vidDrive_of_held, fun hfrozen hhold hsettling => ⟨State.vidDrive_at_goal hfrozen hhold hsettling, fun h => ?_⟩⟩
  have moved := State.vidDrive_moves hfrozen hhold hsettling h
  obtain ⟨hne, hup, hdown, -⟩ := vidMove_spec h
  rw [moved.code]
  exact ⟨rfl, hup, hdown, hne, moved.settling, moved.moves, moved.frame⟩

/-! The supply's events. -/

section
variable {s t : State}

/-- A loop that may move leaves the code at its goal, or takes it one move nearer. -/
theorem State.vidDrive_result (hfrozen : s.volt.frozen = false) (hhold : s.volt.pgHold = false)
    (hsettling : s.on Reg.vidStatusSettling = false) :
    (s.vidGoal = s.rd Reg.vidStatusCodeNow →
      s.vidDrive.on Reg.vidStatusSettling = false ∧ s.vidDrive.rd Reg.vidStatusCodeNow = s.rd Reg.vidStatusCodeNow)
    ∧ (s.vidGoal ≠ s.rd Reg.vidStatusCodeNow → s.vidDrive.on Reg.vidStatusSettling = true
      ∧ s.vidDrive.rd Reg.vidStatusCodeNow = vidMove (s.rd Reg.vidStatusCodeNow) s.vidGoal) := by
  refine ⟨fun h => ?_, fun h => ?_⟩
  · rw [State.vidDrive_at_goal hfrozen hhold hsettling h]
    exact ⟨hsettling, rfl⟩
  · have moved := State.vidDrive_moves hfrozen hhold hsettling h
    exact ⟨moved.settling, moved.code⟩

/-- A move changes of the supply's own state its goal, its windows above SLACK_HI and what is posted alone. -/
theorem State.vidDrive_volt (s : State) :
    ∃ goal down posted, s.vidDrive.volt = { s.volt with goal := goal, down := down, ceilPosted := posted } := by
  by_cases hheld : s.volt.frozen = true ∨ s.volt.pgHold = true ∨ s.on Reg.vidStatusSettling = true
  · rw [State.vidDrive_of_held hheld]
    exact ⟨_, _, _, rfl⟩
  · simp only [not_or, Bool.not_eq_true] at hheld
    obtain ⟨hfrozen, hhold, hsettling⟩ := hheld
    by_cases h : s.vidGoal = s.rd Reg.vidStatusCodeNow
    · rw [State.vidDrive_at_goal hfrozen hhold hsettling h]
      exact ⟨_, _, _, rfl⟩
    · obtain ⟨p, hp⟩ := (State.vidDrive_moves hfrozen hhold hsettling h).volt
      exact ⟨_, _, _, hp⟩

/-- What a drive does after events of the supply that leave the loop's goal and settings as they are. -/
theorem State.vidDrive_idleArm_result {u : State} (hvolt : u.volt.auto = s.volt.auto ∧ u.volt.goal = s.volt.goal)
    (hset : u.vidSet = s.vidSet) (hclamp : u.on Reg.vidStatusThermalClamp = s.on Reg.vidStatusThermalClamp)
    (hcode : u.rd Reg.vidStatusCodeNow = s.rd Reg.vidStatusCodeNow) (hfrozen : u.volt.frozen = false)
    (hhold : u.volt.pgHold = false) (hsettling : u.on Reg.vidStatusSettling = false) :
    (s.vidGoal = s.rd Reg.vidStatusCodeNow → u.vidDrive.idleArm.on Reg.vidStatusSettling = false
      ∧ u.vidDrive.idleArm.rd Reg.vidStatusCodeNow = s.rd Reg.vidStatusCodeNow)
    ∧ (s.vidGoal ≠ s.rd Reg.vidStatusCodeNow → u.vidDrive.idleArm.on Reg.vidStatusSettling = true
      ∧ u.vidDrive.idleArm.rd Reg.vidStatusCodeNow = vidMove (s.rd Reg.vidStatusCodeNow) s.vidGoal) := by
  rw [← hcode, ← State.vidGoal_congr hvolt.1 hvolt.2 hset hclamp]
  exact State.vidDrive_result hfrozen hhold hsettling

theorem State.vidSet_of_entries (hkept : t.volt.kept = s.volt.kept) (hfixed : t.rd Reg.vidFixedCode = s.rd Reg.vidFixedCode)
    (hfloor : t.rd Reg.vidFloorCode = s.rd Reg.vidFloorCode) (hceil : t.rd Reg.vidCeilCode = s.rd Reg.vidCeilCode)
    (htarget : t.get Reg.slackTargetSlackLo.key = s.get Reg.slackTargetSlackLo.key) : t.vidSet = s.vidSet := by
  unfold State.vidSet State.vidEntries
  rw [hkept, hfixed, hfloor, hceil, htarget]

/-- A write to VID_STATUS changes no setting. -/
theorem State.vidSet_wr_status (hkept : t.volt.kept = s.volt.kept) (hget : ∀ k, k ≠ Reg.vidStatusCodeNow.key → t.get k = s.get k) :
    t.vidSet = s.vidSet :=
  State.vidSet_of_entries hkept (State.rd_congr (hget _ (by decide))) (State.rd_congr (hget _ (by decide)))
    (State.rd_congr (hget _ (by decide))) (hget _ (by decide))

/-- VID_SETTLE_END, past SETTLING: the windows afresh, and a hold where PWR_GOOD is low. -/
def State.settled (s : State) : State :=
  { s.wr Reg.vidStatusSettling 0 with volt := { s.volt with wins := [], pgHold := !s.volt.pgHigh } }

theorem State.settled_settling (s : State) : s.settled.on Reg.vidStatusSettling = false := by
  unfold State.settled
  rw [State.on_keep, State.on_wr_same]
  rfl

theorem State.settled_idleArm (s : State) (h : s.volt.pgHigh = false ∨ s.volt.frozen = true) :
    s.settled.vidDrive.idleArm = s.settled.idleArm := by
  rw [State.vidDrive_of_held]
  obtain h | h := h
  · exact .inr (.inl (by simp [State.settled, h]))
  · exact .inl h

/-- After a settle interval with PWR_GOOD high the code is at its goal, or moves on toward it. -/
theorem State.settled_result (hhigh : s.volt.pgHigh = true) (hfrozen : s.volt.frozen = false) :
    s.settled.vidDrive.idleArm.volt.pgHold = false ∧ s.settled.vidDrive.idleArm.volt.wins = []
    ∧ (s.vidGoal = s.rd Reg.vidStatusCodeNow → s.settled.vidDrive.idleArm.on Reg.vidStatusSettling = false
      ∧ s.settled.vidDrive.idleArm.rd Reg.vidStatusCodeNow = s.rd Reg.vidStatusCodeNow)
    ∧ (s.vidGoal ≠ s.rd Reg.vidStatusCodeNow → s.settled.vidDrive.idleArm.on Reg.vidStatusSettling = true
      ∧ s.settled.vidDrive.idleArm.rd Reg.vidStatusCodeNow = vidMove (s.rd Reg.vidStatusCodeNow) s.vidGoal) := by
  have hhold : s.settled.volt.pgHold = false := by simp [State.settled, hhigh]
  obtain ⟨goal, down, posted, hvolt⟩ := s.settled.vidDrive_volt
  refine ⟨?_, ?_, State.vidDrive_idleArm_result ⟨rfl, rfl⟩ ?_ ?_ ?_ hfrozen hhold s.settled_settling⟩
  · show s.settled.vidDrive.volt.pgHold = false
    rw [hvolt]; exact hhold
  · show s.settled.vidDrive.volt.wins = []
    rw [hvolt]; rfl
  · exact State.vidSet_wr_status rfl fun k hk => State.get_wr_ne s (f := Reg.vidStatusSettling) 0 hk
  · exact (State.on_keep _ _).trans (State.on_wr_apart s (f := Reg.vidStatusSettling) 0 (.inl (by decide)))
  · exact (State.rd_keep _ _).trans (State.rd_wr_apart s (f := Reg.vidStatusSettling) 0 (.inl (by decide)))

theorem exec_vidSettleEnd_of_settling (h : s.on Reg.vidStatusSettling = true) (hkept : s.volt.kept = none) :
    exec .vidSettleEnd s = .next s.settled.vidDrive.idleArm := by
  show Host.Outcome.next (if _ then _ else _) = _
  rw [if_pos h]
  dsimp only [State.hmRestart]
  rw [if_neg (by simp [hkept])]
  rfl

/-- The loop runs outside settle intervals: automatic mode, nothing frozen or held. -/
theorem State.loopOn_iff (s : State) : s.loopOn = true ↔
    s.volt.auto = true ∧ s.volt.frozen = false ∧ s.volt.pgHold = false ∧ s.on Reg.vidStatusSettling = false := by
  simp [State.loopOn, State.loopRuns, and_assoc]

/-- A code that the loop lowers: AT_CEIL clear, and the goal one below it. -/
def State.lowering (s : State) : State :=
  { s.wr Reg.vidStatusAtCeil 0 with volt := { s.volt with goal := s.rd Reg.vidStatusCodeNow - 1, ceilPosted := none } }

theorem State.vidLower_eq (s : State) : s.vidLower = if s.vidLow + 1 ≤ s.rd Reg.vidStatusCodeNow then s.lowering.vidDrive else s := rfl

theorem State.lowering_get (s : State) {k : Nat} (h : k ≠ Reg.vidStatusCodeNow.key) : s.lowering.get k = s.get k :=
  State.get_wr_ne s (f := Reg.vidStatusAtCeil) 0 h

theorem State.lowering_rd (s : State) {f : Fld} (h : f.lo + f.w ≤ 6 ∨ 7 ≤ f.lo) : s.lowering.rd f = s.rd f :=
  (State.rd_keep _ _).trans (State.rd_wr_apart s (f := Reg.vidStatusAtCeil) 0 h)

theorem State.lowering_on (s : State) {f : Fld} (h : f.lo + f.w ≤ 6 ∨ 7 ≤ f.lo) : s.lowering.on f = s.on f :=
  State.on_congr (s.lowering_rd h)

theorem State.lowering_goal (hauto : s.volt.auto = true) (hlow : s.vidLow + 1 ≤ s.rd Reg.vidStatusCodeNow)
    (hhigh : s.rd Reg.vidStatusCodeNow ≤ s.vidHigh.1 + 1) : s.lowering.vidGoal = s.rd Reg.vidStatusCodeNow - 1 := by
  have hset : s.lowering.vidSet = s.vidSet := State.vidSet_wr_status rfl fun _ hk => s.lowering_get hk
  unfold State.vidGoal
  rw [State.vidHigh_congr (s := s) (t := s.lowering) rfl hset (s.lowering_on (.inr (by decide))), State.vidLow_congr (s := s) (t := s.lowering) rfl hset]
  refine (if_pos hauto).trans ?_
  show min (max (s.rd Reg.vidStatusCodeNow - 1) _) _ = _
  omega

/-- VID_IDLE_LOWER that lowers: one move, down by one code (R51). -/
theorem State.vidLower_moves (hon : s.loopOn = true) (hlow : s.vidLow + 1 ≤ s.rd Reg.vidStatusCodeNow)
    (hhigh : s.rd Reg.vidStatusCodeNow ≤ s.vidHigh.1 + 1) :
    s.vidLower.rd Reg.vidStatusCodeNow = s.rd Reg.vidStatusCodeNow - 1 ∧ s.vidLower.on Reg.vidStatusSettling = true
    ∧ s.vidLower.rd Reg.vidMoves = min (s.rd Reg.vidMoves + 1) (2 ^ 32 - 1) ∧ s.vidLower.volt.idleArmed = s.volt.idleArmed
    ∧ ∀ k, k ≠ Reg.vidStatusCodeNow.key → k ≠ Reg.vidMoves.key → s.vidLower.get k = s.get k := by
  obtain ⟨hauto, hfrozen, hhold, hsettling⟩ := s.loopOn_iff.mp hon
  have hgoal := State.lowering_goal hauto hlow hhigh
  have hcode : s.lowering.rd Reg.vidStatusCodeNow = s.rd Reg.vidStatusCodeNow := s.lowering_rd (.inl (by decide))
  have moved := State.vidDrive_moves (s := s.lowering) hfrozen hhold ((s.lowering_on (.inr (by decide))).trans hsettling)
    (by rw [hgoal, hcode]; omega)
  rw [s.vidLower_eq, if_pos hlow]
  refine ⟨?_, moved.settling, ?_, ?_, fun k hk hm => (moved.frame k hk hm).trans (s.lowering_get hk)⟩
  · rw [moved.code, hgoal, hcode]
    unfold vidMove
    rw [if_neg (by omega)]
    omega
  · rw [moved.moves, State.rd_congr (s.lowering_get (by decide))]
  · obtain ⟨p, hp⟩ := moved.volt
    rw [hp]
    rfl

/-- PWR_GOOD high again: the loop goes on, from the code where it stands (R53, R54). -/
theorem State.resumed_result (frozen high : Bool) (hfrozen : frozen = false) (hsettling : s.on Reg.vidStatusSettling = false) :
    let u : State := { s with volt := { s.volt with frozen := frozen, pgHold := false, pgHigh := high } }
    u.vidDrive.idleArm.volt.frozen = false ∧ u.vidDrive.idleArm.volt.pgHold = false ∧ u.vidDrive.idleArm.volt.pgHigh = high
    ∧ (s.vidGoal = s.rd Reg.vidStatusCodeNow → u.vidDrive.idleArm.on Reg.vidStatusSettling = false
      ∧ u.vidDrive.idleArm.rd Reg.vidStatusCodeNow = s.rd Reg.vidStatusCodeNow)
    ∧ (s.vidGoal ≠ s.rd Reg.vidStatusCodeNow → u.vidDrive.idleArm.on Reg.vidStatusSettling = true
      ∧ u.vidDrive.idleArm.rd Reg.vidStatusCodeNow = vidMove (s.rd Reg.vidStatusCodeNow) s.vidGoal) := by
  intro u
  obtain ⟨goal, down, posted, hvolt⟩ := u.vidDrive_volt
  refine ⟨?_, ?_, ?_, State.vidDrive_idleArm_result ⟨rfl, rfl⟩ rfl rfl rfl hfrozen rfl hsettling⟩
  · show u.vidDrive.volt.frozen = false
    rw [hvolt]; exact hfrozen
  · show u.vidDrive.volt.pgHold = false
    rw [hvolt]
  · show u.vidDrive.volt.pgHigh = high
    rw [hvolt]

end

/-- PWR_GOOD lost, up to the event. -/
def State.pgLost (s : State) : State := { s.wr Reg.vidStatusPgLost 1 with volt := { s.volt with frozen := true } }

theorem State.pgLost_get (s : State) {k : Nat} (h : k ≠ Reg.vidStatusPgLost.key) : s.pgLost.get k = s.get k :=
  State.get_wr_ne s (f := Reg.vidStatusPgLost) 1 h

theorem State.pgLost_code (s : State) : s.pgLost.rd Reg.vidStatusCodeNow = s.rd Reg.vidStatusCodeNow :=
  State.rd_wr_apart (f := Reg.vidStatusPgLost) s 1 (.inl (by decide))

theorem State.pgLost_on (s : State) : s.pgLost.on Reg.vidStatusPgLost = true := State.on_wr_same s Reg.vidStatusPgLost 1

/-- PWR_GOOD lost: the code freezes, PG_LOST is set, and the event tells the code (R53). -/
theorem exec_pwrGoodLost_of_low (s : State) (hhigh : s.volt.pgHigh = false) (hlow : s.boot.low = false) :
    exec .pwrGoodLost s = .next (s.pgLost.post 0xB002 7 [s.rd Reg.vidStatusCodeNow]) := by
  refine congrArg Host.Outcome.next ((if_neg (by simp [hhigh, hlow])).trans ?_)
  exact congrArg (fun n => s.pgLost.post 0xB002 7 [n]) s.pgLost_code

/-- Settles O18. Each event's condition decides whether the code is driven, and what drives it is `vidDrive`. -/
theorem supplyEvents : Obligations.SupplyEvents := by
  rintro s u high code rfl
  refine ⟨?settle, ?kept, ?quiet, ?lower, ?bottom, ?busy, ?level, ?release, ?released, ?lost, ?good, ?resume, ?resumed, ?low⟩
  case settle =>
    rintro hsettling hkept rfl
    have hexec := exec_vidSettleEnd_of_settling hsettling hkept
    refine ⟨hexec, fun h => hexec.trans (congrArg _ (s.settled_idleArm h)), fun hhigh hfrozen => ⟨_, hexec, ?_⟩⟩
    exact State.settled_result hhigh hfrozen
  case kept =>
    intro hsettling hkept
    show Host.Outcome.next (if _ then _ else _) = _
    rw [if_pos hsettling]
    dsimp only [State.hmRestart]
    rw [if_pos (by simpa [Option.isSome_iff_ne_none] using hkept)]
    rfl
  case quiet =>
    intro h
    exact congrArg Host.Outcome.next (if_neg (by simp [h]))
  case lower =>
    intro harmed hidle hon hlow hhigh
    have hgo : (s.volt.idleArmed && s.vidIdle && s.loopOn) = true := by simp [harmed, hidle, hon]
    refine ⟨_, congrArg Host.Outcome.next (if_pos hgo), ?_⟩
    exact State.vidLower_moves (s := { s with volt := { s.volt with idleArmed := false } }) hon hlow hhigh
  case bottom =>
    intro harmed hidle hon hlow
    have hgo : (s.volt.idleArmed && s.vidIdle && s.loopOn) = true := by simp [harmed, hidle, hon]
    refine congrArg Host.Outcome.next ((if_pos hgo).trans ?_)
    exact (State.vidLower_eq _).trans (if_neg (Nat.not_le.mpr (Nat.lt_succ_of_le hlow)))
  case busy =>
    intro h
    exact congrArg Host.Outcome.next (if_neg (by simpa [and_assoc] using h))
  case level =>
    intro h
    exact congrArg Host.Outcome.next (if_neg (by obtain h | h := h <;> simp [h]))
  case release =>
    intro h
    exact congrArg Host.Outcome.next (if_pos (by simpa using h))
  case released =>
    intro hhold hfrozen hsettling
    obtain ⟨-, h1, h2, h3⟩ := State.resumed_result (s := s) s.volt.frozen true hfrozen hsettling
    exact ⟨_, congrArg Host.Outcome.next (if_pos (by simpa using hhold)), h2, h1, h3⟩
  case lost =>
    intro hhigh hlow
    refine ⟨_, exec_pwrGoodLost_of_low s hhigh hlow, State.post_volt .., ?_, ?_, ⟨s.pgLost, rfl, rfl⟩, fun k hk hlb => ?_⟩
    · rw [State.post_on _ _ _ _ (by decide), s.pgLost_on]
    · rw [State.post_rd _ _ _ _ (by decide), s.pgLost_code]
    · rw [State.post_get _ _ _ _ hlb, s.pgLost_get hk]
  case good =>
    intro h
    exact congrArg Host.Outcome.next (if_pos (by simpa using h))
  case resume =>
    intro h
    exact congrArg Host.Outcome.next (if_pos h)
  case resumed =>
    intro hhigh hsettling
    obtain ⟨h1, h2, -, h3⟩ := State.resumed_result (s := s) false s.volt.pgHigh rfl hsettling
    exact ⟨_, congrArg Host.Outcome.next (if_pos hhigh), h1, h2, h3⟩
  case low =>
    intro h
    exact congrArg Host.Outcome.next (if_neg (by simp [h]))

/-- A SET of a setting of the voltage loop, once it is stored: it acts where it changes the setting (R55). -/
theorem State.vidChanged_cases (u : State) (e : Ent) (old : Nat) (he : e ≠ .slackTarget) :
    (u.on Reg.vidStatusSettling = true → u.vidChanged e old = { u with volt := { u.volt with kept := some (u.vidKept e old) } })
    ∧ (u.on Reg.vidStatusSettling = false → u.vidChanged e old = u.vidReconfigure.vidDrive.idleArm) := by
  refine ⟨fun h => if_pos h, fun h => ?_⟩
  unfold State.vidChanged
  rw [if_neg (by simp [h]), if_neg he]

/-- The four settings of the loop have one effect. -/
theorem State.Accepts.vidSetting {s : State} {who : Role} {k : Nat} {v : Val} {e : Ent} {n : Nat} (h : s.Accepts who k v e 0 0 n)
    (he : e = .vidMode ∨ e = .vidFixed ∨ e = .vidFloor ∨ e = .vidCeil) :
    s.setAs e k who v (fun _ => true) =
      (if s.get k = n then s.takes k n else (s.takes k n).vidChanged e (s.get k)).say .ok := by
  obtain rfl | rfl | rfl | rfl := he
  all_goals exact h.setAs_stored rfl rfl rfl

/-- Settles O19. The four rows are SETs of one effect, which waits for the end of a settle interval. -/
theorem voltageSettings : Obligations.VoltageSettings := by
  intro s u who v n c e k
  refine ⟨fun hrow h hu => ?loop, fun h hu => ?window⟩
  case loop =>
    have hexec : exec c s = .next (s.setAs e k who v (fun _ => true))
        ∧ (e = .vidMode ∨ e = .vidFixed ∨ e = .vidFloor ∨ e = .vidCeil) := by
      simp only [Prod.mk.injEq] at hrow
      obtain ⟨rfl, rfl, rfl⟩ | ⟨rfl, rfl, rfl⟩ | ⟨rfl, rfl, rfl⟩ | ⟨rfl, rfl, rfl⟩ := hrow
      · exact ⟨rfl, .inl rfl⟩
      · exact ⟨rfl, .inr (.inl rfl)⟩
      · exact ⟨congrArg Host.Outcome.next (if_neg Bool.false_ne_true), .inr (.inr (.inl rfl))⟩
      · exact ⟨congrArg Host.Outcome.next (if_pos rfl), .inr (.inr (.inr rfl))⟩
    have hslack : e ≠ .slackTarget := by obtain rfl | rfl | rfl | rfl := hexec.2 <;> decide
    obtain ⟨hwait, hact⟩ := u.vidChanged_cases e (s.get k) hslack
    rw [hexec.1, h.vidSetting hexec.2, ← hu]
    refine ⟨fun hsame => by rw [if_pos hsame], fun hdiff hsettling => ?_, fun hdiff hsettling => ?_⟩
    · rw [if_neg hdiff, hwait hsettling, hu]
      rfl
    · rw [if_neg hdiff, hact hsettling]
  case window =>
    have hset := h.setAs_stored (mine := fun _ => true) rfl rfl rfl
    rw [hu]
    refine ⟨fun hsame => ?_, fun hdiff => ?_⟩
    · exact congrArg Host.Outcome.next (hset.trans (congrArg (State.say · .ok) (if_pos hsame)))
    · exact congrArg Host.Outcome.next (hset.trans (congrArg (State.say · .ok) (if_neg hdiff)))

/-! The headroom windows. -/

/-- What the loop's action may change: VID_STATUS, VID_MOVES and the Letterbox's counters, and no headroom window. -/
structure VidOnly (s t : State) : Prop where
  get : ∀ k, k ≠ Reg.vidStatusCodeNow.key → k ≠ Reg.vidMoves.key → k ∉ lbKeys → t.get k = s.get k
  wins : t.volt.wins = s.volt.wins

section
variable {s t u : State}

theorem VidOnly.trans (h : VidOnly s t) (h' : VidOnly t u) : VidOnly s u :=
  ⟨fun k h1 h2 h3 => (h'.get k h1 h2 h3).trans (h.get k h1 h2 h3), h'.wins.trans h.wins⟩

theorem VidOnly.of_eq (hget : ∀ k, t.get k = s.get k) (hwins : t.volt.wins = s.volt.wins) : VidOnly s t :=
  ⟨fun k _ _ _ => hget k, hwins⟩

theorem VidOnly.refl (s : State) : VidOnly s s := .of_eq (fun _ => rfl) rfl

theorem VidOnly.ite {c : Prop} [Decidable c] (ht : VidOnly s t) (hu : VidOnly s u) : VidOnly s (if c then t else u) := by
  split <;> assumption

/-- A write of VID_STATUS. -/
theorem VidOnly.status (h : VidOnly s t) {f : Fld} {n : Nat} (hf : f.key = Reg.vidStatusCodeNow.key) : VidOnly s (t.wr f n) :=
  h.trans ⟨fun _ h1 _ _ => State.get_wr_ne t n (hf ▸ h1), rfl⟩

/-- A change of the loop's own state beside the windows. -/
theorem VidOnly.withVolt (h : VidOnly s t) {v : VoltState} (hv : v.wins = t.volt.wins) : VidOnly s { t with volt := v } :=
  ⟨h.get, hv.trans h.wins⟩

theorem VidOnly.post (h : VidOnly s t) {code prio : Nat} {l : List Nat} : VidOnly s (t.post code prio l) :=
  h.trans ⟨fun _ _ _ hk => State.post_get t code prio l hk, by rw [State.post_volt]⟩

theorem VidOnly.vidDrive (h : VidOnly s t) : VidOnly s t.vidDrive := by
  refine h.trans ⟨fun k h1 h2 _ => ?_, ?_⟩
  · by_cases hheld : t.volt.frozen = true ∨ t.volt.pgHold = true ∨ t.on Reg.vidStatusSettling = true
    · rw [State.vidDrive_of_held hheld]
    · simp only [not_or, Bool.not_eq_true] at hheld
      obtain ⟨hfrozen, hhold, hsettling⟩ := hheld
      by_cases h : t.vidGoal = t.rd Reg.vidStatusCodeNow
      · rw [State.vidDrive_at_goal hfrozen hhold hsettling h, State.get_keep]
      · exact (State.vidDrive_moves hfrozen hhold hsettling h).frame k h1 h2
  · obtain ⟨_, _, _, hvolt⟩ := t.vidDrive_volt
    rw [hvolt]

theorem VidOnly.ceilStopped (h : VidOnly s t) {thermal isRoom : Bool} {who slack : Nat} :
    VidOnly s (t.ceilStopped thermal isRoom who slack) := by
  unfold State.ceilStopped
  dsimp only
  refine .ite (.post (.ite ?_ ?_)) ?_
  · exact .withVolt (.status (f := Reg.vidStatusAtCeil) h rfl) rfl
  · exact .withVolt (.status (f := Reg.vidStatusAtCeil) h rfl) rfl
  · exact .withVolt (.status (f := Reg.vidStatusAtCeil) h rfl) rfl

theorem VidOnly.vidRaise (h : VidOnly s t) {k : Nat} {isRoom : Bool} {who slack : Nat} : VidOnly s (t.vidRaise k isRoom who slack) := by
  unfold State.vidRaise
  dsimp only
  refine .ite (.ceilStopped (.ite ?_ h)) (.ite ?_ h)
  all_goals exact .vidDrive (.withVolt h rfl)

theorem VidOnly.vidLower (h : VidOnly s t) : VidOnly s t.vidLower := by
  unfold State.vidLower
  dsimp only
  exact .ite (.vidDrive (.withVolt (.status (f := Reg.vidStatusAtCeil) h rfl) rfl)) h

theorem VidOnly.atWindow {f : State → State} (h : VidOnly s (f t)) : VidOnly s (t.atWindow f) := by
  unfold State.atWindow
  dsimp only
  exact .ite (.withVolt h rfl) h

theorem VidOnly.windowAction (h : VidOnly s t) {d : Nat} {rooms : List Nat} {late : Bool} : VidOnly s (t.windowAction d rooms late) := by
  unfold State.windowAction
  dsimp only
  refine .ite h (.ite (.ite ?lower ?_) (.ite ?raise ?_))
  case lower => exact .atWindow (.vidLower (.withVolt h rfl))
  case raise =>
    refine .atWindow (.vidRaise ?_)
    exact .withVolt h rfl
  all_goals exact .withVolt h rfl

/-- A table in whose list a key does not stand reads there as unlisted. -/
theorem Sparse.get_of_not_listed {α : Type} (d : Nat → α) {k : Nat} {m : Sparse α} (h : ∀ p ∈ m, p.1 ≠ k) : Sparse.get d m k = d k := by
  induction m with
  | nil => rfl
  | cons p r ih =>
    obtain ⟨a, v⟩ := p
    rw [Sparse.get_cons, if_neg (h _ List.mem_cons_self), ih fun q hq => h q (List.mem_cons_of_mem _ hq), ite_self]

theorem State.hmFresh_hmWin (s : State) (d : Nat) : (s.hmFresh d).hmWin d = {} := by
  refine Sparse.get_of_not_listed _ fun p hp => ?_
  have := (List.mem_filter.mp hp).2
  simp only [Bool.and_eq_true, bne_iff_ne] at this
  exact this.1

/-- Entries of a list of units written in turn, each with a value of its own. -/
theorem State.each_put_get {key : Nat → Nat} {val : Nat → Nat} (hkey : ∀ a b, key a = key b → a = b) (l : List Nat) (s : State) :
    (∀ k, (∀ r ∈ l, k ≠ key r) → (s.each l fun t r => t.put (key r) (val r)).get k = s.get k)
    ∧ ∀ r ∈ l, (s.each l fun t r => t.put (key r) (val r)).get (key r) = val r := by
  unfold State.each
  induction l generalizing s with
  | nil => exact ⟨fun _ _ => rfl, fun _ h => nomatch h⟩
  | cons x l ih =>
    obtain ⟨hother, hsame⟩ := ih (s.put (key x) (val x))
    refine ⟨fun k hk => ?_, fun r hr => ?_⟩
    · exact (hother k fun r hr => hk r (List.mem_cons_of_mem _ hr)).trans (State.get_put_ne s _ (hk x List.mem_cons_self))
    · by_cases hmem : r ∈ l
      · exact hsame r hmem
      · obtain rfl : r = x := (List.mem_cons.mp hr).resolve_right hmem
        exact (hother (key r) fun q hq h => hmem (hkey _ _ h ▸ hq)).trans (State.get_put_same ..)

/-- What the end of a window latches (R46, R47). -/
theorem State.windowEnd_latches (s : State) (d : Nat) (hd : d < 4) :
    (s.windowEnd d).get (Reg.domainHmResultMinSlack d).key = hmLatch (s.hmWin d) (s.rd (Reg.domainHmResultWindowSeq d))
    ∧ (∀ r < 18, r ∈ (s.latched d).1 ++ (s.latched d).2 → (s.windowEnd d).get (Reg.roomHmResultMinSlack r).key =
        hmLatch (s.hmWin (16 + r)) (s.rd (Reg.roomHmResultWindowSeq r)))
    ∧ (∀ r < 18, r ∉ (s.latched d).1 ++ (s.latched d).2 →
        (s.windowEnd d).get (Reg.roomHmResultMinSlack r).key = s.get (Reg.roomHmResultMinSlack r).key)
    ∧ (s.windowEnd d).hmWin d = {} := by
  unfold State.windowEnd
  dsimp only
  generalize hlate : (_ || _ : Bool) = late
  generalize (s.latched d).2 = guests
  generalize (s.latched d).1 = rooms
  set t := s.put (Reg.domainHmResultMinSlack d).key (hmLatch (s.hmWin d) (s.rd (Reg.domainHmResultWindowSeq d))) with ht
  have hkeys : ∀ a b, (Reg.roomHmResultMinSlack a).key = (Reg.roomHmResultMinSlack b).key → a = b := by
    intro a b h
    dsimp only at h
    omega
  obtain ⟨hother, hsame⟩ := State.each_put_get (val := fun r => hmLatch (s.hmWin (16 + r)) (s.rd (Reg.roomHmResultWindowSeq r)))
    hkeys (rooms ++ guests) t
  set u := t.each (rooms ++ guests) fun t r =>
    t.put (Reg.roomHmResultMinSlack r).key (hmLatch (s.hmWin (16 + r)) (s.rd (Reg.roomHmResultWindowSeq r)))
  have acted : VidOnly (u.hmFresh d) ((u.hmFresh d).windowAction d rooms late) := (VidOnly.refl _).windowAction
  have hroom : ∀ r < 18, ((u.hmFresh d).windowAction d rooms late).get (Reg.roomHmResultMinSlack r).key =
      u.get (Reg.roomHmResultMinSlack r).key := by
    intro r hr
    refine acted.get _ ?_ ?_ ?_
    · dsimp only; omega
    · dsimp only; omega
    · simp only [lbKeys, List.mem_cons, List.not_mem_nil, or_false]; omega
  refine ⟨?_, fun r hr hmem => (hroom r hr).trans (hsame r hmem), fun r hr hmem => (hroom r hr).trans ?_, ?_⟩
  · refine (acted.get _ ?_ ?_ ?_).trans ((hother _ ?_).trans (State.get_put_same ..))
    · dsimp only; omega
    · dsimp only; omega
    · simp only [lbKeys, List.mem_cons, List.not_mem_nil, or_false]; omega
    · intro r _; dsimp only; omega
  · refine (hother _ fun q hq h => hmem (by rwa [hkeys r q h])).trans (State.get_put_ne s _ ?_)
    dsimp only; omega
  · show Sparse.get _ _ _ = _
    rw [acted.wins]
    exact State.hmFresh_hmWin u d

end

/-- Which rooms and guest rooms a window latches. -/
theorem State.mem_latched (s : State) (d r : Nat) : r ∈ (s.latched d).1 ++ (s.latched d).2 ↔
    ((r ∈ s.roomsOf d ∧ s.roomActive r = true) ∨ r ∈ s.guestsOf d) ∧ (s.hmWin (16 + r)).dom = d ∧ (s.hmWin (16 + r)).n ≠ 0 := by
  simp only [State.latched, List.mem_append, List.mem_filter, Bool.and_eq_true, beq_iff_eq, bne_iff_ne]
  tauto

/-- Settles O20. A window that is due ends, and what it latches is `windowEnd_latches`. -/
theorem headroomWindowLatches : Obligations.HeadroomWindowLatches := by
  intro s d hd
  obtain ⟨hdomain, hin, hout, hfresh⟩ := s.windowEnd_latches d hd
  refine ⟨fun h => ?_, fun hrun hdue => ?_⟩
  · exact congrArg Host.Outcome.next (if_neg (by obtain h | h := h <;> simp [h]))
  · refine ⟨_, congrArg Host.Outcome.next (if_pos (by simp [hd, hrun, hdue])), hdomain, fun r hr h1 h2 h3 h4 => ?_,
      fun r hr h1 h2 h3 => ?_, fun r hr h => ?_, hfresh⟩
    · exact hin r hr ((s.mem_latched d r).mpr ⟨.inl ⟨h1, h2⟩, h3, h4⟩)
    · exact hin r hr ((s.mem_latched d r).mpr ⟨.inr h1, h2, h3⟩)
    · refine hout r hr fun hmem => ?_
      obtain ⟨-, hdom, hn⟩ := (s.mem_latched d r).mp hmem
      exact h.elim (· hdom) hn

end Sys2Proof.Machine
end


section
/-! The queue: a step of it, its idling, and the state after reset (O1, O2, O3). -/

namespace Sys2Proof.Machine

/-- With no schedule pending, RC moves on and nothing else happens. -/
theorem State.advance_none (s : State) (h : ∀ v < 4, (s.view v).sched = none) (rc : Nat) : s.advance rc = s.reach rc := by
  have hd : ∀ n, s.nextDue n = none := fun n => by
    unfold State.nextDue
    simp [List.range, List.range.loop, h]
  unfold State.advance
  simp only [State.applyDue, hd]

/-- Settles O1. -/
theorem stepRunsFrontCommand : Obligations.StepRunsFrontCommand := fun _ _ _ => rfl

/-- Settles O2: idling is `State.idle`, whose first two branches the premises close. -/
theorem emptyQueueIdles : Obligations.EmptyQueueIdles := by
  intro s hpending hrequest
  have hstep : step s = .next (if s.locked then s.advance (s.rc + 1) else s) := by
    unfold step
    rw [hpending]
    dsimp only
    unfold State.idle
    rw [hrequest]
    rfl
  rw [hstep]
  refine ⟨fun hl => by simp [hl], fun hl hsched => ?_⟩
  rw [if_pos hl, s.advance_none hsched, State.reach, if_pos hl, Nat.max_eq_right (Nat.le_succ _)]

/-- Settles O3. -/
theorem resetIsSound : Obligations.ResetIsSound := by
  unfold Obligations.ResetIsSound
  decide

end Sys2Proof.Machine
end


section
/-! Ticks, their deadlines and the misses (O13, O14, O15). -/

namespace Sys2Proof.Machine

/-- Settles O13. The row's branches are the statement's cases; a copy writes its own sink or leaves the path alone. -/
theorem tickEdgeBeginsTick : Obligations.TickEdgeBeginsTick := by
  refine fun s => ⟨fun d slack w hd => ⟨fun hstop => ?stopped, fun hrun a q ha hq => ⟨fun hlate => ?later, fun hnow => ?now⟩⟩,
    s.scatter_gather, fun o v hline => ?copy, fun x => ?missed⟩
  case stopped => exact congrArg (fun u => Host.Outcome.next (s.scatter u)) (if_neg (by simp [hstop]))
  case later =>
    subst ha hq
    exact congrArg (fun u => Host.Outcome.next (s.scatter u)) ((if_pos (by simp [hd, hrun])).trans (if_pos hlate))
  case now =>
    rintro c u n v x rfl rfl rfl rfl rfl
    subst ha hq
    exact congrArg (fun u => Host.Outcome.next (s.scatter u)) ((if_pos (by simp [hd, hrun])).trans (if_neg (Nat.not_lt.mpr hnow)))
  case copy =>
    unfold State.copyTo
    rw [hline]
    exact ⟨Sparse.get_put_same .., fun k hk => Sparse.get_put_ne _ _ _ hk⟩
  case missed =>
    unfold State.copyMissed
    split
    · rfl
    · split <;> rfl

/-- The state in which the work of the tick in progress of domain `d` is over, launched with its sinks as they stand (R36). -/
def State.tickLaunched (s : State) (d : Nat) : State :=
  (s.abandonWork d).setTick d { s.tick d with launched := true, fill2 := [], fill4 := [], asrc := [], recorder := none }

/-- A domain with no tick in progress has no deadline to judge. -/
theorem State.tickClose_of_closed (s : State) (d : Nat) (h : (s.tick d).open_ = false ∨ (s.tick d).launched = true) :
    s.tickClose d = s := if_neg (by obtain h | h := h <;> simp [h])

/-- The deadline of a tick whose work was in time, and of one with late work. -/
theorem State.tickClose_of_open (s : State) (d : Nat) (hopen : (s.tick d).open_ = true) (hlaunched : (s.tick d).launched = false) :
    ((s.tick d).late = false → s.tickClose d =
      ((s.tickLaunched d).tickResult d (s.tick d).slack false).blocksLate d ((s.tickLaunched d).rd (Reg.tickCount d)))
    ∧ ((s.tick d).late = true → s.tickClose d = (((s.tickLaunched d).dlMiss d 0 0).tickResult d 0 true).blocksLate d
      (((s.tickLaunched d).dlMiss d 0 0).rd (Reg.tickCount d))) := by
  have hdue : ((s.tick d).open_ && !(s.tick d).launched) = true := by simp [hopen, hlaunched]
  have hclose : ∀ u, u = (if (s.tick d).late = true then (s.tickLaunched d).dlMiss d 0 0 else s.tickLaunched d) →
      s.tickClose d = (u.tickResult d (if (s.tick d).late = true then 0 else (s.tick d).slack) (s.tick d).late).blocksLate d
        (u.rd (Reg.tickCount d)) := by
    rintro u rfl
    exact if_pos hdue
  refine ⟨fun h => ?_, fun h => ?_⟩
  · rw [hclose (s.tickLaunched d) (by rw [h]; rfl), h]
    rfl
  · rw [hclose ((s.tickLaunched d).dlMiss d 0 0) (by rw [h]; rfl), h]
    rfl

/-- Settles O14. -/
theorem tickDeadlineCloses : Obligations.TickDeadlineCloses := by
  intro s a u m d t hd hrun ha ht
  have hexec : exec (.tickDeadline d) s = .next (s.scatter (if 4 * a.rc + 3 < a.edgeAt d t.next - 2000 then a else a.tickClose d)) := by
    rw [ht, ha]
    exact congrArg (fun u => Host.Outcome.next (s.scatter u)) (if_pos (by simp [hd, hrun]))
  rw [hexec]
  refine ⟨fun h => ?_, fun hnow hopen hlaunched hu => ?_⟩
  · refine congrArg (fun u => Host.Outcome.next (s.scatter u)) (ite_eq_left_iff.mpr fun hnow => a.tickClose_of_closed d ?_)
    rw [← ht]
    exact h.resolve_left hnow
  · have hu' : a.tickLaunched d = u := by rw [hu, ht]; rfl
    rw [ht] at hopen hlaunched
    obtain ⟨hintime, hlate⟩ := a.tickClose_of_open d hopen hlaunched
    rw [hu', ← ht] at hintime hlate
    rw [if_neg (Nat.not_lt.mpr hnow)]
    refine ⟨fun h => by rw [hintime h], fun h hm => by rw [hlate h, hm]⟩

end Sys2Proof.Machine
end


section
/-! The misses of a domain: their count, their hold-off and its end (O15). -/

namespace Sys2Proof.Machine

section
variable {s : State} {d cause room : Nat}

theorem State.dlPost_eq (s : State) (d cause room count tick : Nat) : s.dlPost d cause room count tick =
    s.post 0x7001 6 [d + cause * 2 ^ 4 + room * 2 ^ 8 + min count 0xFFFF * 2 ^ 16, tick / 2 ^ 32, tick % 2 ^ 32] := by
  unfold State.dlPost
  simp [pack, sat16, add_assoc]

/-- A hold-off that is not active, or whose ticks are not over, goes on. -/
theorem State.dlLapse_waits (h : (s.dlHold d cause).active = false ∨
    (s.rd (Reg.tickCount d) : Int) ≤ (s.dlHold d cause).since + s.rd (Reg.dlHoldoff d)) : s.dlLapse d cause = s := by
  refine if_pos ?_
  simp only [Bool.or_eq_true, Bool.not_eq_true', decide_eq_true_eq]
  exact h.imp id Int.lt_add_one_of_le

/-- One whose ticks are over with nothing held back closes; else it reports, and the next one follows. -/
theorem State.dlLapse_ends (hactive : (s.dlHold d cause).active = true)
    (hover : (s.dlHold d cause).since + s.rd (Reg.dlHoldoff d) < (s.rd (Reg.tickCount d) : Int)) :
    ((s.dlHold d cause).count = 0 → s.dlLapse d cause = s.setDlHold d cause {})
    ∧ ((s.dlHold d cause).count ≠ 0 → s.dlLapse d cause =
      (s.setDlHold d cause { active := true, since := (s.dlHold d cause).since + s.rd (Reg.dlHoldoff d) }).dlPost d cause
        (s.dlHold d cause).info (s.dlHold d cause).count (s.dlHold d cause).at_) := by
  have hover' : ¬(!(s.dlHold d cause).active || decide ((s.rd (Reg.tickCount d) : Int) <
      (s.dlHold d cause).since + s.rd (Reg.dlHoldoff d) + 1)) = true := by simp [hactive]; omega
  refine ⟨fun hcount => (if_neg hover').trans (if_pos ?_), fun hcount => (if_neg hover').trans ((if_neg ?_).trans ?_)⟩
  · simp [Hold.lapse, hcount]
  · simp [Hold.lapse, hactive, hcount]
  · simp [Hold.lapse, hactive, hcount]

theorem State.dlLapse_get (s : State) (d cause : Nat) {k : Nat} (hk : k ∉ lbKeys) : (s.dlLapse d cause).get k = s.get k := by
  by_cases h : (s.dlHold d cause).active = false ∨
      (s.rd (Reg.tickCount d) : Int) ≤ (s.dlHold d cause).since + s.rd (Reg.dlHoldoff d)
  · rw [State.dlLapse_waits h]
  · obtain ⟨hactive, hover⟩ := not_or.mp h
    obtain ⟨hcloses, hreports⟩ := State.dlLapse_ends (Bool.eq_true_of_not_eq_false hactive) (not_le.mp hover)
    by_cases hcount : (s.dlHold d cause).count = 0
    · rw [hcloses hcount, State.setDlHold_get]
    · rw [hreports hcount, State.dlPost, State.post_get _ _ _ _ hk, State.setDlHold_get]

/-- The state in which a miss has been counted. -/
def State.missCounted (s : State) (d cause : Nat) : State :=
  if cause = 0 then (s.bump (Reg.dlMiss d) 1).wr (Reg.dlLast d) (s.rd (Reg.tickCount d)) else s.bump (Reg.roomLate d) 1

/-- The state in which a miss of tick `n` is the latest of its hold-off, and is posted where it opens one. -/
def State.missNoted (s : State) (d cause room n : Nat) : State :=
  let r := (s.dlHold d cause).hit
  let s := s.setDlHold d cause { r.1 with info := room, at_ := n, since := if r.2 then (n : Int) else r.1.since }
  if r.2 then s.dlPost d cause room 1 n else s

theorem State.dlMiss_eq (s : State) (d cause room : Nat) : s.dlMiss d cause room =
    (((s.missCounted d cause).dlLapse d cause).dlLapse d cause).missNoted d cause room (s.rd (Reg.tickCount d)) := rfl

theorem State.missCounted_only (s : State) (d cause : Nat) : (s.missCounted d cause).path = s.path ∧ (s.missCounted d cause).lb = s.lb := by
  unfold State.missCounted
  split
  · exact ⟨rfl, rfl⟩
  · exact ⟨rfl, rfl⟩

theorem State.missCounted_dlHold (s : State) (d cause : Nat) : (s.missCounted d cause).dlHold d cause = s.dlHold d cause := by
  unfold State.dlHold
  rw [(s.missCounted_only d cause).1]

theorem State.missCounted_get (s : State) (d cause : Nat) {k : Nat} (hmiss : k ≠ (Reg.dlMiss d).key) (hlast : k ≠ (Reg.dlLast d).key)
    (hroom : k ≠ (Reg.roomLate d).key) : (s.missCounted d cause).get k = s.get k := by
  unfold State.missCounted
  split
  · rw [State.get_wr_ne _ _ hlast, State.get_bump_ne _ _ hmiss]
  · rw [State.get_bump_ne _ _ hroom]

theorem State.missNoted_get (s : State) (d cause room n : Nat) {k : Nat} (hk : k ∉ lbKeys) :
    (s.missNoted d cause room n).get k = s.get k := by
  unfold State.missNoted
  dsimp only
  split
  · rw [State.dlPost, State.post_get _ _ _ _ hk, State.setDlHold_get]
  · rw [State.setDlHold_get]

/-- What a miss changes in the dictionary is its count. -/
theorem State.dlMiss_get (s : State) (d cause room : Nat) {k : Nat} (hk : k ∉ lbKeys) :
    (s.dlMiss d cause room).get k = (s.missCounted d cause).get k := by
  rw [State.dlMiss_eq, State.missNoted_get _ _ _ _ _ hk, State.dlLapse_get _ _ _ hk, State.dlLapse_get _ _ _ hk]

theorem State.dlMiss_rd (s : State) (d cause room : Nat) {f : Fld} (hk : f.key ∉ lbKeys) :
    (s.dlMiss d cause room).rd f = (s.missCounted d cause).rd f := State.rd_congr (s.dlMiss_get d cause room hk)

/-- Inside a hold-off a miss is counted, and takes the place of the latest. -/
theorem State.missNoted_held (n : Nat) (h : (s.dlHold d cause).active = true) : s.missNoted d cause room n =
    s.setDlHold d cause { s.dlHold d cause with count := (s.dlHold d cause).count + 1, info := room, at_ := n } := by
  unfold State.missNoted
  simp [Hold.hit, h]

/-- Outside one it is posted, and opens one. -/
theorem State.missNoted_opens (n : Nat) (h : (s.dlHold d cause).active = false) : s.missNoted d cause room n =
    (s.setDlHold d cause { active := true, count := 0, info := room, at_ := n, since := n }).dlPost d cause room 1 n := by
  unfold State.missNoted
  simp [Hold.hit, h]

theorem State.dlPost_dlHold (s : State) (d cause room count tick : Nat) : (s.dlPost d cause room count tick).dlHold d cause = s.dlHold d cause := by
  unfold State.dlHold State.dlPost
  rw [State.post_path]

/-- What a domain's counters and entries of its misses are keyed by. -/
theorem missKeys (hd : d < 4) : (Reg.dlMiss d).key ∉ lbKeys ∧ (Reg.dlLast d).key ∉ lbKeys ∧ (Reg.roomLate d).key ∉ lbKeys := by
  simp only [lbKeys, List.mem_cons, List.not_mem_nil, or_false]
  refine ⟨?_, ?_, ?_⟩ <;> omega

end

/-- Settles O15. A miss is counted, ends a hold-off that is over, and then stands in the one in force or opens one. -/
theorem missesAreCountedAndReported : Obligations.MissesAreCountedAndReported := by
  intro s d cause room n len h hh hn hlen
  subst hh hn hlen
  refine ⟨fun hd hcause => ?miss, fun hactive hover hcount => ?reports, fun hactive hover hcount => ?closes, fun hwait => ?waits⟩
  case reports => exact congrArg Host.Outcome.next (((State.dlLapse_ends hactive hover).2 hcount).trans (State.dlPost_eq ..))
  case closes => exact congrArg Host.Outcome.next ((State.dlLapse_ends hactive hover).1 hcount)
  case waits => exact congrArg Host.Outcome.next (State.dlLapse_waits hwait)
  case miss =>
    obtain ⟨hmiss, hlast, hroom⟩ := missKeys hd
    have hcounted : ∀ f : Fld, f = Reg.tickCount d ∨ f = Reg.dlHoldoff d → (s.missCounted d cause).rd f = s.rd f := by
      rintro f (rfl | rfl)
      all_goals exact State.rd_congr (s.missCounted_get d cause (by dsimp only; omega) (by dsimp only; omega) (by dsimp only; omega))
    have htick := hcounted _ (.inl rfl)
    have hlen := hcounted _ (.inr rfl)
    have hhold := s.missCounted_dlHold d cause
    refine ⟨⟨?_, ?_, ?_⟩, fun hc => ⟨?_, ?_, ?_⟩, fun hactive hin => ?held, fun hout => ?opens⟩
    case held =>
      have hwaits : (s.missCounted d cause).dlLapse d cause = s.missCounted d cause :=
        State.dlLapse_waits (.inr (by rw [hhold, htick, hlen]; exact hin))
      rw [State.dlMiss_eq, hwaits, hwaits, State.missNoted_held _ (by rw [hhold]; exact hactive), State.dlHold_setDlHold, hhold]
      exact ⟨rfl, (s.missCounted_only d cause).2⟩
    case opens =>
      have hfree : ∃ u : State, u.lb = s.lb ∧ (u.dlHold d cause).active = false ∧
          ((s.missCounted d cause).dlLapse d cause).dlLapse d cause = u := by
        by_cases hactive : (s.dlHold d cause).active = false
        · have hwaits : (s.missCounted d cause).dlLapse d cause = s.missCounted d cause :=
            State.dlLapse_waits (.inl (by rw [hhold]; exact hactive))
          exact ⟨_, (s.missCounted_only d cause).2, by rw [hhold]; exact hactive, by rw [hwaits, hwaits]⟩
        · obtain ⟨hcount, hover⟩ := hout.resolve_left hactive
          have hcloses : (s.missCounted d cause).dlLapse d cause = (s.missCounted d cause).setDlHold d cause {} :=
            (State.dlLapse_ends (by rw [hhold]; exact Bool.eq_true_of_not_eq_false hactive)
              (by rw [hhold, htick, hlen]; exact hover)).1 (by rw [hhold]; exact hcount)
          have hclosed := (s.missCounted d cause).dlHold_setDlHold d cause {}
          exact ⟨(s.missCounted d cause).setDlHold d cause {}, (s.missCounted_only d cause).2, by rw [hclosed], by rw [hcloses, State.dlLapse_waits (.inl (by rw [hclosed]))]⟩
      obtain ⟨u, hlb, hfree, hu⟩ := hfree
      rw [State.dlMiss_eq, hu, State.missNoted_opens _ hfree]
      refine ⟨by rw [State.dlPost_dlHold, State.dlHold_setDlHold], _, ?_, State.dlPost_eq ..⟩
      exact hlb
    · rw [State.dlMiss_rd _ _ _ _ hmiss]
      exact (State.rd_wr_ne _ _ (by dsimp only; omega)).trans (State.rd_bump_same ..)
    · rw [State.dlMiss_rd _ _ _ _ hlast]
      exact (State.rd_wr_same ..).trans (Nat.mod_eq_of_lt (s.rd_lt _))
    · rw [State.dlMiss_rd _ _ _ _ hroom]
      exact (State.rd_wr_ne _ _ (by dsimp only; omega)).trans (State.rd_bump_ne _ _ (by dsimp only; omega))
    · rw [State.dlMiss_rd _ _ _ _ hroom]
      exact (State.rd_congr (congrArg (State.get · _) (if_neg hc))).trans (State.rd_bump_same ..)
    · rw [State.dlMiss_rd _ _ _ _ hmiss]
      exact (State.rd_congr (congrArg (State.get · _) (if_neg hc))).trans (State.rd_bump_ne _ _ (by dsimp only; omega))
    · rw [State.dlMiss_rd _ _ _ _ hlast]
      exact (State.rd_congr (congrArg (State.get · _) (if_neg hc))).trans (State.rd_bump_ne _ _ (by dsimp only; omega))

end Sys2Proof.Machine
end


section
/-! What the Hall's, the Hallway's and the recorder's work of a tick may change of the dictionary: their own counters and status, and
the Letterbox's, all of which stand behind the entries of the domains (R44, R241 to R260, R356). -/

namespace Sys2Proof.Machine

/-- The keys of what a tick's work counts and reports: the Hall's, the recorder's and the Letterbox's. -/
def WorkKey (k : Nat) : Prop := 0x92000000 ≤ k

theorem workKey_of_lbKeys : ∀ k ∈ lbKeys, WorkKey k := by
  simp only [lbKeys, WorkKey, List.mem_cons, List.not_mem_nil, or_false]
  omega

section
variable {s t : State}

theorem Only.csumFail {n b kind : Nat} (h : Only WorkKey s t) : Only WorkKey s (t.csumFail n b kind) := by
  have hcount : Only WorkKey s (t.bump Reg.hallCsumFails 1) := h.bump (by simp [WorkKey])
  unfold State.csumFail
  dsimp only
  exact .ite (.post (.of_get hcount fun _ => rfl) workKey_of_lbKeys) (.of_get hcount fun _ => rfl)

theorem Only.activeChecked {n kind : Nat} {ok : Bool} (h : Only WorkKey s t) : Only WorkKey s (t.activeChecked n kind ok) := by
  have hset : ∀ x, Only WorkKey s (t.setTile n x) := fun x => .of_get h fun _ => rfl
  unfold State.activeChecked
  dsimp only
  refine .ite (.ite (.of_get h fun _ => rfl) (hset _)) (.csumFail ?_)
  split
  · exact .of_get h fun _ => rfl
  · exact .of_get h fun _ => rfl
  · exact hset _

theorem Only.rebuildFlag {n b : Nat} (h : Only WorkKey s t) : Only WorkKey s (t.rebuildFlag n b) := by
  unfold State.rebuildFlag
  exact .ite (.bump (.of_get h fun _ => rfl) (by simp [WorkKey])) h

theorem Only.reachTile {n : Nat} (h : Only WorkKey s t) : Only WorkKey s (t.reachTile n).1 := by
  unfold State.reachTile
  dsimp only
  refine .ite_fst (.bump h (by simp [WorkKey])) (.ite_fst (.of_get h fun _ => rfl) ?_)
  dsimp only
  have hflags : ∀ l : List Nat, Only WorkKey s (t.each l fun u b => u.rebuildFlag n b) := fun l =>
    h.each fun _ _ _ hu => hu.rebuildFlag
  generalize hu : t.each _ _ = u
  have hmix : Only WorkKey s u := hu ▸ hflags _
  have hmixed : ∀ (c : Prop) [Decidable c] l, Only WorkKey s (if c then u.mixTile n l else u.bump Reg.hallTileDrops 1) := fun _ _ _ =>
    .ite (.of_get hmix fun _ => rfl) (.bump hmix (by simp [WorkKey]))
  refine .ite (.ite (.ite ?_ (.csumFail ?_)) (.csumFail (.ite ?_ (.csumFail ?_)))) (.activeChecked (hmixed _ _))
  all_goals exact .of_get (hmixed _ _) fun _ => rfl

theorem Only.reachTiles {l : List Nat} (h : Only WorkKey s t) : Only WorkKey s (t.reachTiles l).1 := by
  induction l generalizing t with
  | nil => exact h
  | cons n l ih => exact ih h.reachTile

theorem Only.hallSat {o : Nat} (h : Only WorkKey s t) : Only WorkKey s (t.hallSat o) := by
  have hcount : Only WorkKey s (t.bump Reg.hallSatTicks 1) := h.bump (by simp [WorkKey])
  unfold State.hallSat
  dsimp only
  exact .ite (.post (.of_get hcount fun _ => rfl) workKey_of_lbKeys) (.of_get hcount fun _ => rfl)

theorem Only.hallOutputs (h : Only WorkKey s t) : Only WorkKey s t.hallOutputs := by
  unfold State.hallOutputs
  dsimp only
  generalize hl : List.map Prod.fst _ = l
  have hsat : ∀ x, Only WorkKey s (State.each { t with hall := x } l fun u o => u.bump (Reg.outSatTicks o) 1) := fun x =>
    .each (.of_get h fun _ => rfl) fun _ o _ hu => hu.bump (by dsimp only [WorkKey]; omega)
  split
  · exact .hallSat (hsat _)
  · exact hsat _

theorem Only.scrubVisit {n : Nat} {idle : Bool} (h : Only WorkKey s t) : Only WorkKey s (t.scrubVisit n idle) := by
  have hshadow : ∀ {u}, Only WorkKey s u → Only WorkKey s (u.shadowFails n) := by
    intro u hu
    unfold State.shadowFails
    dsimp only
    refine .csumFail (.ite (.bump (.of_get hu fun _ => rfl) (by simp [WorkKey])) (.ite (.of_get hu fun _ => rfl) hu))
  unfold State.scrubVisit
  extract_lets x fading ok badShadow u w
  have hu : Only WorkKey s u := .ite h (.ite (.csumFail (.of_get h fun _ => rfl)) (.activeChecked h))
  have hw : Only WorkKey s w := .ite (hshadow hu) hu
  exact .ite hw (.ite (.of_get hw fun _ => rfl) (.activeChecked hw))

theorem Only.hallClose (h : Only WorkKey s t) : Only WorkKey s t.hallClose := by
  unfold State.hallClose
  split
  · exact h
  · dsimp only
    generalize hu : State.fadesAdvance _ _ = u
    have hfades : Only WorkKey s u := by
      rw [← hu]
      unfold State.fadesAdvance
      exact .each (.of_get h.hallOutputs fun _ => rfl) fun v x _ hv => .ite hv (.ite (.of_get hv fun _ => rfl) (.of_get hv fun _ => rfl))
    refine .ite hfades ?_
    unfold State.scrubTick
    exact .ite hfades (.bumpIf (.of_get hfades.scrubVisit fun _ => rfl) (by simp [WorkKey]))

theorem Only.hallFinish (h : Only WorkKey s t) : Only WorkKey s t.hallFinish := by
  unfold State.hallFinish
  split
  · exact h
  · exact .hallClose (.of_get h.reachTiles fun _ => rfl)

theorem Only.recTick {n : Nat} {vals : Option (List Nat)} (h : Only WorkKey s t) : Only WorkKey s (t.recTick n vals) := by
  have hnote : ∀ {u}, Only WorkKey s u → Only WorkKey s u.recNote := fun hu => .put (.wr hu (by simp [WorkKey])) (by simp [WorkKey])
  unfold State.recTick
  extract_lets start u len ring drawn taken
  have hu : Only WorkKey s u := .ite (.wr h (by simp [WorkKey])) h
  have hw : Only WorkKey s taken.2 := by
    unfold taken
    split
    · exact hu
    · exact hu
    · exact .of_get hu fun _ => rfl
  exact .ite hu (.ite (.wr hu (by simp [WorkKey])) (hnote (.of_get hw fun _ => rfl)))

theorem State.lateInput_get (s : State) (n o k : Nat) : (s.lateInput n o).get k = s.get k := by
  unfold State.lateInput
  split
  · rfl
  · dsimp only
    split <;> rfl
  · rfl

theorem State.copyTo_get (s : State) (o : Nat) (v : Nat × Option Nat) (k : Nat) : (s.copyTo o v).get k = s.get k := by
  unfold State.copyTo
  split <;> rfl

/-- The work that runs to its end when its domain stops. -/
theorem Only.finishWork {d : Nat} (h : Only WorkKey s t) : Only WorkKey s (t.finishWork d) := by
  have hcopy : ∀ {u} l x, Only WorkKey s u → Only WorkKey s (u.copyDone l x) := fun {u} l x hu => .of_get hu (u.copyTo_get _ _)
  unfold State.finishWork
  dsimp only
  generalize hu : State.each _ (t.tick d).fill4 _ = u
  have hwork : Only WorkKey s u := by
    rw [← hu]
    refine .each (.ite (.hallFinish ?_) ?_) fun _ _ _ hv => hcopy _ _ hv
    all_goals
      refine .each (.each h fun v c _ hv => .ite hv (.of_get hv fun _ => rfl)) fun v x _ hv => ?_
      exact .of_get (hcopy _ _ hv) fun _ => State.lateInput_get _ _ _ _
  split
  · exact hwork.recTick
  · exact hwork

end

end Sys2Proof.Machine
end


section
/-! TONE_CTRL and MD_CTRL (O16): when a generator restarts, and what a domain's start and stop change. -/

namespace Sys2Proof.Machine

/-- An accepted SET of an entry with one unit letter names a unit of its count. -/
theorem State.Accepts.unit_lt {s : State} {who : Role} {key : Nat} {v : Val} {e : Ent} {a b n st cnt : Nat}
    (h : s.Accepts who key v e a b n) (hdims : entTable.all (fun d => decide (d.ent ≠ e) || decide (d.dims = [(st, cnt)])) = true) :
    a < cnt := by
  obtain ⟨d, hentry, hent, -⟩ := State.entryAt_of_named h.entry
  obtain ⟨hmem, hloc⟩ := State.entryAt_mem hentry
  have hd := List.all_eq_true.mp hdims d hmem
  exact (key_of_locate_one hloc (by simpa [hent] using hd)).2.1

/-- TONE_CTRL restarts a generator that joins a domain, changes domain or becomes a sine (R29). -/
theorem applyToneCtrl_eq (u : State) (g old : Nat) : applyToneCtrl u g old =
    if (field old 2 1 = 0 ∧ u.rd (Reg.toneCtrlDomainValid g) = 1) ∨ field old 3 2 ≠ u.rd (Reg.toneCtrlDomain g)
      ∨ (field old 0 2 ≠ 1 ∧ u.rd (Reg.toneCtrlMode g) = 1) then u.setTone g { u.tone g with restart := true } else u := by
  unfold applyToneCtrl State.toneRestart
  simp only [Bool.or_eq_true, Bool.and_eq_true, beq_iff_eq, bne_iff_ne, or_assoc]
  rfl

section
variable {s : State} {d : Nat}

/-- The state in which a domain's count and hold-offs are those of a start. -/
def State.domainZeroed (s : State) (d : Nat) : State :=
  (((s.dlRestart d).overrunsRestart d).wr (Reg.domainRunRunning d) 1).put (Reg.tickCount d).key 0

/-- The state in which its edges begin with it. -/
def State.domainBegun (s : State) (d : Nat) : State := (s.domainZeroed d).setTick d { next := (s.domainZeroed d).gridNow d }

/-- The hold-offs and overruns that count on at a start stand beside the dictionary and DPLL time. -/
theorem State.restarts_keep (s : State) (d : Nat) : let u := (s.dlRestart d).overrunsRestart d
    (∀ k, u.get k = s.get k) ∧ u.rc = s.rc ∧ u.hearth = s.hearth := by
  have hholds : (∀ k, (s.dlRestart d).get k = s.get k) ∧ (s.dlRestart d).rc = s.rc ∧ (s.dlRestart d).hearth = s.hearth := by
    refine State.units_keeps (P := fun u => (∀ k, u.get k = s.get k) ∧ u.rc = s.rc ∧ u.hearth = s.hearth) ⟨fun _ => rfl, rfl, rfl⟩
      fun u c _ hu => ?_
    dsimp only
    split
    · exact hu
    · exact hu
  refine State.each_keeps (P := fun u => (∀ k, u.get k = s.get k) ∧ u.rc = s.rc ∧ u.hearth = s.hearth) hholds fun u r _ hu => ?_
  dsimp only
  split
  · exact hu
  · exact hu

theorem State.domainZeroed_get (s : State) {k : Nat} (hrun : k ≠ (Reg.domainRunRunning d).key) (htick : k ≠ (Reg.tickCount d).key) :
    (s.domainZeroed d).get k = s.get k := by
  unfold State.domainZeroed
  rw [State.get_put_ne _ _ htick, State.get_wr_ne _ _ hrun]
  exact (s.restarts_keep d).1 k

theorem State.domainZeroed_gridNow (s : State) (d : Nat) : (s.domainZeroed d).gridNow d = s.gridNow d := by
  obtain ⟨-, hrc, hhearth⟩ := s.restarts_keep d
  have hrate : (s.domainZeroed d).domRate d = s.domRate d :=
    congrArg rateHz (State.rd_congr (s.domainZeroed_get (by dsimp only; omega) (by dsimp only; omega)))
  have hnow : (s.domainZeroed d).dpllNow = s.dpllNow := by
    show Line.time ((s.dlRestart d).overrunsRestart d).hearth.dpll (4 * ((s.dlRestart d).overrunsRestart d).rc) = _
    rw [hrc, hhearth]
    rfl
  unfold State.gridNow
  rw [hrate, hnow]

/-- What a start does after it has begun its edges touches neither the dictionary nor the tick in progress. -/
theorem State.domainStart_keep (s : State) (d : Nat) :
    (∀ k, (s.domainStart d).get k = (s.domainBegun d).get k) ∧ (s.domainStart d).path.ticks = (s.domainBegun d).path.ticks := by
  unfold State.domainStart
  refine State.units_keeps (P := fun u => (∀ k, u.get k = (s.domainBegun d).get k) ∧ u.path.ticks = (s.domainBegun d).path.ticks)
    (State.units_keeps (P := fun u => (∀ k, u.get k = (s.domainBegun d).get k) ∧ u.path.ticks = (s.domainBegun d).path.ticks)
      ⟨fun _ => rfl, rfl⟩ fun u k _ hu => ?_) fun u g _ hu => ?_
  all_goals
    split
    · exact hu
    · exact hu

/-- What a domain's start leaves: RUNNING 1, TICK_COUNT 0, its edges from the next point of the grid on, every other entry as it was
(R40, R113). -/
theorem State.domainStart_result (s : State) (d : Nat) :
    (s.domainStart d).rd (Reg.domainRunRunning d) = 1 ∧ (s.domainStart d).get (Reg.tickCount d).key = 0
    ∧ (s.domainStart d).tick d = { next := s.gridNow d }
    ∧ ∀ j, j ≠ (Reg.domainRunRunning d).key → j ≠ (Reg.tickCount d).key → (s.domainStart d).get j = s.get j := by
  obtain ⟨hget, hticks⟩ := s.domainStart_keep d
  have hrun : (s.domainZeroed d).rd (Reg.domainRunRunning d) = 1 := by
    unfold State.domainZeroed
    rw [State.rd_put_ne _ _ (by dsimp only; omega), State.rd_wr_same]
    rfl
  have hcount : (s.domainZeroed d).get (Reg.tickCount d).key = 0 := by
    unfold State.domainZeroed
    rw [State.get_put_same]
  have htick : (s.domainBegun d).tick d = { next := s.gridNow d } := by
    rw [← s.domainZeroed_gridNow d]
    exact Sparse.get_put_same ..
  generalize s.domainStart d = u at *
  exact ⟨(State.rd_congr (hget _)).trans hrun, (hget _).trans hcount, (congrArg (Sparse.get _ · d) hticks).trans htick,
    fun j hrun htick => (hget j).trans (s.domainZeroed_get hrun htick)⟩

/-- The entries that a stop may change beside RUNNING: the flags of slewing outputs and the LOCKED of TDM sides. -/
def HaltKey (d k : Nat) : Prop :=
  k = (Reg.domainRunRunning d).key ∨ k = Reg.outSlewStatusTdm.key ∨ ∃ p b, p < 48 ∧ b < 2 ∧ k = (Reg.sideStatusLocked p b).key

/-- The state in which domain `d` runs no more, its outputs not yet stopped. -/
def State.domainStopped (s : State) (d : Nat) : State := (s.wr (Reg.domainRunRunning d) 0).setTick d {}

/-- What stops with a domain: its outputs' edges, slews and locks, and no tick. -/
def State.outputsHalt (s : State) (d : Nat) : State :=
  State.idleArm (State.units (s.units 2 fun s w => if s.rd (Reg.wclkOutCfgDomain w) = d then s.wclkStop w else s) 96 fun s k =>
    if s.on (Reg.sideCtrlMaster (k / 2) (k % 2)) && s.domainOf (.tdm (k / 2)) == some d then
      (s.setSideSlew k {}).wr (Reg.sideStatusLocked (k / 2) (k % 2)) 0
    else s)

theorem State.domainHalt_eq (s : State) (d : Nat) : s.domainHalt d =
    ((if (s.tick d).open_ && !(s.tick d).launched then s.finishWork d else s).domainStopped d).outputsHalt d := rfl

theorem Only.idleArm {K : Nat → Prop} {t : State} (h : Only K s t) : Only K s t.idleArm := h.of_get t.idleArm_get

theorem State.outputsHalt_only (s : State) (d : Nat) : Only (fun k => k = Reg.outSlewStatusTdm.key ∨
    ∃ p b, p < 48 ∧ b < 2 ∧ k = (Reg.sideStatusLocked p b).key) s (s.outputsHalt d) := by
  unfold State.outputsHalt
  refine .idleArm (.units (.units (.refl _ s) fun u w hw hu => ?_) fun u k hk hu => ?_)
  · refine .ite (.flag (.of_get hu fun _ => rfl) (.inl ?_)) hu
    match w with
    | 0 => rfl
    | 1 => rfl
  · have hkey : ∃ p b, p < 48 ∧ b < 2 ∧ (Reg.sideStatusLocked (k / 2) (k % 2)).key = (Reg.sideStatusLocked p b).key :=
      ⟨k / 2, k % 2, by omega, by omega, rfl⟩
    exact .ite (.wr (.flag (.flag (.of_get hu fun _ => rfl) (.inr hkey)) (.inl rfl)) (.inr hkey)) hu

theorem State.outputsHalt_path (s : State) (d : Nat) : (s.outputsHalt d).path = s.path := by
  unfold State.outputsHalt
  rw [State.idleArm_path]
  refine State.units_keeps (P := fun u => u.path = s.path)
    (State.units_keeps (P := fun u => u.path = s.path) rfl fun u w _ hu => ?_) fun u k _ hu => ?_
  all_goals
    split
    · exact hu
    · exact hu

/-- What a domain's stop leaves: RUNNING 0, no tick, TICK_COUNT as it was; and with no work left to run to its end every other entry
but those its outputs' stop changes (R37, R40). -/
theorem State.domainHalt_result (s : State) (hd : d < 4) :
    (s.domainHalt d).rd (Reg.domainRunRunning d) = 0 ∧ (s.domainHalt d).tick d = {}
    ∧ (s.domainHalt d).get (Reg.tickCount d).key = s.get (Reg.tickCount d).key
    ∧ ((s.tick d).open_ = false ∨ (s.tick d).launched = true → Only (HaltKey d) s (s.domainHalt d)) := by
  rw [State.domainHalt_eq]
  generalize hu : (if ((s.tick d).open_ && !(s.tick d).launched) = true then s.finishWork d else s) = u
  have houtputs := (u.domainStopped d).outputsHalt_only d
  have hapart : ∀ k, 0x7F000000 ≤ k → k < 0x80000000 → ¬(k = Reg.outSlewStatusTdm.key ∨
      ∃ p b, p < 48 ∧ b < 2 ∧ k = (Reg.sideStatusLocked p b).key) := by
    rintro k hlo hhi (rfl | ⟨p, b, hp, hb, rfl⟩)
    · exact absurd hlo (by decide)
    · dsimp only at hlo hhi; omega
  have hwork : Only WorkKey s u := hu ▸ .ite (.finishWork (.refl _ s)) (.refl _ s)
  refine ⟨?_, ?_, ?_, fun hclosed => ?_⟩
  · rw [houtputs.rd (hapart _ (by dsimp only; omega) (by dsimp only; omega))]
    exact State.rd_wr_same u (Reg.domainRunRunning d) 0
  · unfold State.tick
    rw [State.outputsHalt_path]
    exact Sparse.get_put_same ..
  · refine (houtputs _ (hapart _ (by dsimp only; omega) (by dsimp only; omega))).trans ?_
    refine (State.get_wr_ne _ _ (by dsimp only; omega)).trans (hwork _ ?_)
    dsimp only [WorkKey]
    omega
  · obtain rfl : s = u := by
      rw [← hu, if_neg (by obtain h | h := hclosed <;> simp [h])]
    refine .trans (.of_get (.wr (.refl _ s) (.inl rfl)) fun _ => rfl) (houtputs.mono fun k hk => .inr hk)

end

/-- What a SET of MD_CTRL does by the change of its ENABLE (R122). -/
theorem applyMdCtrl_cases (u : State) (d old : Nat) :
    (bit old 0 = false → u.on (Reg.mdCtrlEnable d) = true → applyMdCtrl u d old = u.domainStart d)
    ∧ (bit old 0 = true → u.on (Reg.mdCtrlEnable d) = false → applyMdCtrl u d old = u.domainHalt d)
    ∧ (bit old 0 = u.on (Reg.mdCtrlEnable d) → applyMdCtrl u d old = u) := by
  unfold applyMdCtrl
  cases bit old 0 <;> cases u.on (Reg.mdCtrlEnable d) <;> simp

/-- Settles O16. The rows are SETs of these two effects. -/
theorem toneAndDomainSets : Obligations.ToneAndDomainSets := by
  intro s who a v n
  refine ⟨fun k u hk h hu => ?tone, fun k u hk h hu => ?domain⟩
  case tone =>
    subst hk hu
    have hset := h.setAs_stored (mine := fun _ => true) rfl rfl rfl
    have hexec : exec (.toneCtrlSet who a v) s = .next ((applyToneCtrl (s.takes (Reg.toneCtrlMode a).key n) a
      (s.get (Reg.toneCtrlMode a).key)).say .ok) := congrArg Host.Outcome.next hset
    rw [hexec, applyToneCtrl_eq]
    exact ⟨fun hrestart => by rw [if_pos hrestart], fun hstay => by rw [if_neg hstay]⟩
  case domain =>
    subst hk
    have ha : a < 4 := h.unit_lt (st := 1) (by decide +kernel)
    have hset := h.setAs_stored (mine := fun _ => true) rfl rfl rfl
    have hexec : exec (.mdCtrlSet who a v) s = .next ((applyMdCtrl u a (s.get (Reg.mdCtrlEnable a).key)).say .ok) := by
      rw [hu]
      exact congrArg Host.Outcome.next hset
    have hticks : u.tick a = s.tick a := by rw [hu]; rfl
    obtain ⟨hstart, hhalt, hstay⟩ := applyMdCtrl_cases u a (s.get (Reg.mdCtrlEnable a).key)
    refine ⟨fun hold hnew => ?_, fun hold hnew => ?_, fun hsame => ?_⟩
    · rw [hstart hold hnew] at hexec
      obtain ⟨hrun, hcount, htick, hkeep⟩ := u.domainStart_result a
      generalize u.domainStart a = w at *
      exact ⟨_, hexec, hrun, hcount, rfl, htick, hkeep⟩
    · rw [hhalt hold hnew] at hexec
      obtain ⟨hrun, htick, hcount, hkeep⟩ := u.domainHalt_result ha
      rw [hticks] at hkeep
      generalize u.domainHalt a = w at *
      refine ⟨_, hexec, hrun, htick, rfl, hcount, fun hclosed j hj hslew hside => hkeep hclosed j ?_⟩
      rintro (h | h | ⟨p, b, hp, hb, h⟩)
      exacts [hj h, hslew h, hside p b hp hb h]
    · rw [hexec, hstay hsame]

end Sys2Proof.Machine
end


section
/-! The views' schedules: how one is set, cancelled and applied (O21, O22). -/

namespace Sys2Proof.Machine

/-- Two bits beside each other are 0 where each is. -/
theorem field_two_eq_zero (n lo : Nat) : field n lo 2 = 0 ↔ field n lo 1 = 0 ∧ field n (lo + 1) 1 = 0 := by
  unfold field
  rw [Nat.pow_succ 2 lo, ← Nat.div_div_eq_div_mul]
  omega

section
variable {s u : State} {v n : Nat}

theorem State.unschedule_eq (s : State) (v : Nat) :
    s.unschedule v = (s.setView v { s.view v with sched := none }).wr (Reg.tvStatusPending v) 0 := rfl

/-- A schedule with neither rate nor step cancels (R64). -/
theorem applyTvSchedule_cancels (h : field n 112 2 = 0) : applyTvSchedule s v n = s.unschedule v := by
  obtain ⟨hrate, hstep⟩ := (field_two_eq_zero n 112).mp h
  refine if_pos ?_
  simp [hrate, hstep]

theorem applyTvSchedule_schedules (h : field n 112 2 ≠ 0) : applyTvSchedule s v n =
    s.schedule v (if field n 114 1 = 1 then none else some (field n 0 64)) (if field n 112 1 = 1 then some (field n 64 48) else none)
      (if field n 113 1 = 1 then some (field n 128 96) else none) (s.rd (Reg.tvSource v) == 0) := by
  refine if_neg ?_
  intro hnone
  refine h ((field_two_eq_zero n 112).mpr ?_)
  show field n 112 1 = 0 ∧ field n 113 1 = 0
  have hlt : ∀ lo, field n lo 1 < 2 := fun lo => Nat.mod_lt _ (by decide)
  have hrate := hlt 112
  have hstep := hlt 113
  simp only [Bool.and_eq_true, Option.isNone_iff_eq_none, ite_eq_right_iff, reduceCtorEq, imp_false] at hnone
  omega

/-- What an accepted schedule leaves: it is pending at its point, or at the next RC where its point has been reached (R63, R64). -/
theorem State.schedule_result (s : State) (v : Nat) (at_ rate step : Option Nat) (owner : Bool) :
    ((s.schedule v at_ rate step owner).view v).sched = some
        { at_ := match at_ with | some a => if a ≤ s.rc then s.rc + 1 else a | none => s.rc + 1
          rate := rate, step := step, owner := owner }
    ∧ (s.schedule v at_ rate step owner).rd (Reg.tvStatusPending v) = 1
    ∧ (∀ a, at_ = some a → a ≤ s.rc → (s.schedule v at_ rate step owner).rd (Reg.tvStatusAppliedLate v) = 1)
    ∧ ∀ b, b ≠ v → (s.schedule v at_ rate step owner).view b = s.view b := by
  have hview : ∀ c : Prop, ∀ [Decidable c] b, (if c then s.wr (Reg.tvStatusAppliedLate v) 1 else s).view b = s.view b := by
    intro c _ b
    split <;> rfl
  unfold State.schedule
  dsimp only
  refine ⟨?_, (State.rd_wr_same ..).trans rfl, fun a ha hreached => ?_, fun b hb => ?_⟩
  · exact congrArg View.sched (State.view_setView ..)
  · rw [State.rd_wr_apart (f := Reg.tvStatusPending v) (g := Reg.tvStatusAppliedLate v) _ _ (.inr (Nat.le_succ 1)), State.setView_rd, ha,
      if_pos (decide_eq_true hreached), State.rd_wr_same]
    rfl
  · exact (State.view_setView_ne _ _ hb).trans (hview _ b)

end

/-- Settles O21. The rows are SETs of TV_SCHEDULE and TV_SOURCE. -/
theorem viewSchedulesAreSet : Obligations.ViewSchedulesAreSet := by
  intro s u who a v n k
  refine ⟨fun hk h hu => ⟨fun hset => ?schedules, fun hcancel => ?cancels⟩, fun hk h => ?source⟩
  case schedules =>
    have hexec : exec (.tvScheduleSet who a v) s = .next ((applyTvSchedule u a n).say .ok) := by
      rw [hu, hk] at *
      exact congrArg Host.Outcome.next (h.setAs_stored (mine := fun n => field n 112 2 != 0) (by simp [hset]) rfl rfl)
    have hrc : u.rc = s.rc := by rw [hu]; rfl
    have hviews : ∀ b, u.view b = s.view b := fun b => by rw [hu]; rfl
    rw [applyTvSchedule_schedules hset] at hexec
    obtain ⟨hsched, hpending, hlate, hother⟩ := u.schedule_result a (if field n 114 1 = 1 then none else some (field n 0 64))
      (if field n 112 1 = 1 then some (field n 64 48) else none) (if field n 113 1 = 1 then some (field n 128 96) else none)
      (u.rd (Reg.tvSource a) == 0)
    generalize u.schedule a _ _ _ _ = w at *
    refine ⟨_, hexec, hsched.trans ?_, hpending, rfl, fun hasap hreached => ?_, fun b hb => (hother b hb).trans (hviews b)⟩
    · by_cases hasap : field n 114 1 = 1
      · simp [hasap, hrc]
      · simp [hasap, hrc]
    · exact hlate _ (if_neg hasap) (by rw [hrc]; exact hreached)
  case cancels =>
    have hexec : exec (.tvScheduleCancel who a v) s = .next ((applyTvSchedule u a n).say .ok) := by
      rw [hu, hk] at *
      exact congrArg Host.Outcome.next (h.setAs_stored (mine := fun n => field n 112 2 == 0) (by simp [hcancel]) rfl rfl)
    rw [hexec, applyTvSchedule_cancels hcancel, State.unschedule_eq]
  case source =>
    subst hk
    have hset := h.setAs_decides (mine := fun _ => true) rfl rfl rfl
    refine ⟨fun hsame => ?_, fun hdiff => ?_⟩
    · refine congrArg Host.Outcome.next (hset.trans (congrArg (fun f => (s.together f).say .ok) (funext fun w => ?_)))
      exact congrArg State.settleRefs (if_pos hsame)
    · refine congrArg Host.Outcome.next (hset.trans (congrArg (fun f => (s.together f).say .ok) (funext fun w => ?_)))
      exact congrArg State.settleRefs (if_neg hdiff)

/-! The apply point. -/

/-- What a moment does it does to a state that differs in the Letterbox alone, and only the Letterbox changes after it. -/
theorem State.moment_only (s : State) (g : State → State) :
    (∃ u, OnlyLb s u ∧ OnlyLb (g u) (s.together g)) ∧ ∃ u, OnlyLb s u ∧ OnlyLb (g u) (s.apart g) := by
  have htogether : ∃ u, OnlyLb s u ∧ OnlyLb (g u) (s.together g) := ⟨_, (OnlyLb.refl s).lb _, (OnlyLb.refl _).scatter s⟩
  refine ⟨htogether, ?_⟩
  unfold State.apart
  split
  · exact htogether
  · exact ⟨_, (OnlyLb.refl s).deliver, (OnlyLb.refl _).deliver⟩

section
variable {s t u : State} {v : Nat} {c : Sched}

theorem OnlyLb.rd (h : OnlyLb s t) {f : Fld} (hf : f.key ∉ lbKeys) : t.rd f = s.rd f := State.rd_congr (h.regs _ hf)
theorem OnlyLb.view (h : OnlyLb s t) (w : Nat) : t.view w = s.view w := by unfold State.view; rw [h.time]

/-- Where one view alone has a schedule pending, it is the next due, once its point is reached. -/
theorem State.nextDue_single (hv : v < 4) (hother : ∀ w < 4, w ≠ v → (s.view w).sched = none) (rc : Nat) :
    (∀ c, (s.view v).sched = some c → c.at_ ≤ rc → s.nextDue rc = some (v, c)) ∧ ((s.view v).sched = none → s.nextDue rc = none) := by
  have h0 := hother 0 (by decide)
  have h1 := hother 1 (by decide)
  have h2 := hother 2 (by decide)
  have h3 := hother 3 (by decide)
  unfold State.nextDue
  simp only [List.range, List.range.loop, List.foldl]
  refine ⟨fun c hc hdue => ?_, fun hnone => ?_⟩
  · obtain rfl | rfl | rfl | rfl : v = 0 ∨ v = 1 ∨ v = 2 ∨ v = 3 := by omega
    all_goals simp_all
  · obtain rfl | rfl | rfl | rfl : v = 0 ∨ v = 1 ∨ v = 2 ∨ v = 3 := by omega
    all_goals simp_all

/-- The state in which view `v` runs by the rate and step of a schedule from its point on (R62). -/
def State.viewTurned (s : State) (v : Nat) (c : Sched) : State :=
  let o := s.rd (Reg.tvOffsetOffset v)
  let r := s.rd (Reg.tvRateRate v)
  (((s.setView v ((s.view v).ended c.at_ o r)).wr (Reg.tvOffsetOffset v) (newOffset o r (c.rate.getD r) c.at_ (c.step.getD 0))).wr
    (Reg.tvRateRate v) (c.rate.getD r)).wr (Reg.tvLastApplyA v) c.at_

/-- The state in which FREE_RUN is cleared where the schedule is the owner's (R67). -/
def State.viewOwned (s : State) (v : Nat) (c : Sched) : State := if c.owner then s.wr (Reg.tvStatusFreeRun v) 0 else s

/-- The state in which pairs and triggers know of a view's change (R83, R168). -/
def State.viewNoted (s : State) (v : Nat) (c : Sched) : State :=
  (if c.step.getD 0 = 0 then s else s.units 4 fun s d => s.markStep d v).reconvert v c.at_

theorem State.changeView_eq (s : State) (v : Nat) (c : Sched) : s.changeView v c = ((s.viewTurned v c).viewOwned v c).viewNoted v c := rfl

theorem State.viewNoted_keep (s : State) (v : Nat) (c : Sched) :
    (∀ k, (s.viewNoted v c).get k = s.get k) ∧ (∀ w, (s.viewNoted v c).view w = s.view w) ∧ (s.viewNoted v c).rc = s.rc := by
  have hstepped : ∀ u : State, u = (if c.step.getD 0 = 0 then s else s.units 4 fun s d => s.markStep d v) →
      (∀ k, u.get k = s.get k) ∧ (∀ w, u.view w = s.view w) ∧ u.rc = s.rc := by
    rintro u rfl
    split
    · exact ⟨fun _ => rfl, fun _ => rfl, rfl⟩
    · exact State.units_keeps (P := fun u => (∀ k, u.get k = s.get k) ∧ (∀ w, u.view w = s.view w) ∧ u.rc = s.rc)
        ⟨fun _ => rfl, fun _ => rfl, rfl⟩ fun u d _ hu => hu
  refine State.units_keeps (P := fun u => (∀ k, u.get k = s.get k) ∧ (∀ w, u.view w = s.view w) ∧ u.rc = s.rc)
    (hstepped _ rfl) fun u d _ hu => ?_
  dsimp only
  split
  · exact hu
  · exact hu

theorem State.viewOwned_keep (s : State) (v : Nat) (c : Sched) : (∀ w, (s.viewOwned v c).view w = s.view w) ∧ (s.viewOwned v c).rc = s.rc
    ∧ ∀ f : Fld, f.key ≠ (Reg.tvStatusFreeRun v).key ∨ f.lo + f.w ≤ 1 → (s.viewOwned v c).rd f = s.rd f := by
  unfold State.viewOwned
  split
  · exact ⟨fun _ => rfl, rfl, fun f hf => hf.elim (State.rd_wr_ne _ _) fun hf => State.rd_wr_apart _ _ (.inl hf)⟩
  · exact ⟨fun _ => rfl, rfl, fun _ _ => rfl⟩

theorem State.viewTurned_sched (s : State) (v : Nat) (c : Sched) (w : Nat) : ((s.viewTurned v c).view w).sched = (s.view w).sched := by
  show ((s.setView v _).view w).sched = _
  by_cases hw : w = v
  · subst hw
    rw [State.view_setView]
    unfold View.ended
    split <;> rfl
  · rw [State.view_setView_ne _ _ hw]

theorem State.viewTurned_rd (s : State) (v : Nat) (c : Sched) {f : Fld} (hlast : f.key ≠ (Reg.tvLastApplyA v).key)
    (hrate : f.key ≠ (Reg.tvRateRate v).key) (hoffset : f.key ≠ (Reg.tvOffsetOffset v).key) : (s.viewTurned v c).rd f = s.rd f := by
  unfold State.viewTurned
  dsimp only
  rw [State.rd_wr_ne _ _ hlast, State.rd_wr_ne _ _ hrate, State.rd_wr_ne _ _ hoffset, State.setView_rd]

theorem State.changeView_rd (s : State) (v : Nat) (c : Sched) {f : Fld} (hf : f.key ≠ (Reg.tvStatusFreeRun v).key ∨ f.lo + f.w ≤ 1) :
    (s.changeView v c).rd f = (s.viewTurned v c).rd f := by
  rw [State.changeView_eq, State.rd_congr ((State.viewNoted_keep _ v c).1 _), (State.viewOwned_keep _ v c).2.2 f hf]

/-- What a view's change leaves (R62). -/
theorem State.changeView_result (s : State) (v : Nat) (c : Sched) :
    (s.changeView v c).rd (Reg.tvRateRate v) = c.rate.getD (s.rd (Reg.tvRateRate v)) % 2 ^ 48
    ∧ (s.changeView v c).rd (Reg.tvOffsetOffset v) = newOffset (s.rd (Reg.tvOffsetOffset v)) (s.rd (Reg.tvRateRate v))
        (c.rate.getD (s.rd (Reg.tvRateRate v))) c.at_ (c.step.getD 0) % 2 ^ 96
    ∧ (s.changeView v c).rd (Reg.tvLastApplyA v) = c.at_ % 2 ^ 64 := by
  have hapart : ∀ f : Fld, f = Reg.tvRateRate v ∨ f = Reg.tvOffsetOffset v ∨ f = Reg.tvLastApplyA v →
      f.key ≠ (Reg.tvStatusFreeRun v).key := by
    rintro f (rfl | rfl | rfl)
    all_goals dsimp only; omega
  rw [State.changeView_rd _ _ _ (.inl (hapart _ (.inl rfl))), State.changeView_rd _ _ _ (.inl (hapart _ (.inr (.inl rfl)))),
    State.changeView_rd _ _ _ (.inl (hapart _ (.inr (.inr rfl))))]
  unfold State.viewTurned
  dsimp only
  refine ⟨?_, ?_, State.rd_wr_same ..⟩
  · rw [State.rd_wr_ne (g := Reg.tvRateRate v) _ _ (by dsimp only; omega), State.rd_wr_same]
  · rw [State.rd_wr_ne (g := Reg.tvOffsetOffset v) _ _ (by dsimp only; omega), State.rd_wr_ne (g := Reg.tvOffsetOffset v) _ _ (by dsimp only; omega),
      State.rd_wr_same]

theorem State.changeView_sched (s : State) (v : Nat) (c : Sched) (w : Nat) : ((s.changeView v c).view w).sched = (s.view w).sched := by
  rw [State.changeView_eq, (State.viewNoted_keep _ v c).2.1, (State.viewOwned_keep _ v c).1, State.viewTurned_sched]

theorem State.changeView_rc (s : State) (v : Nat) (c : Sched) : (s.changeView v c).rc = s.rc := by
  rw [State.changeView_eq, (State.viewNoted_keep _ v c).2.2, (State.viewOwned_keep _ v c).2.1]
  rfl

/-- The entries of a view that its own schedules do not change, and the device's. -/
theorem State.changeView_rd_other (s : State) (v : Nat) (c : Sched) {f : Fld}
    (hf : f = Reg.tvSource v ∨ f = Reg.hearthStatusSelected ∨ f = Reg.deviceStatusClockState ∨ f = Reg.tvStatusPending v) :
    (s.changeView v c).rd f = s.rd f := by
  have hfree : f.key ≠ (Reg.tvStatusFreeRun v).key ∨ f.lo + f.w ≤ 1 := by
    obtain rfl | rfl | rfl | rfl := hf
    · exact .inl (by dsimp only; omega)
    · exact .inl (by dsimp only; omega)
    · exact .inl (by dsimp only; omega)
    · exact .inr (Nat.le_refl 1)
  rw [State.changeView_rd _ _ _ hfree]
  obtain rfl | rfl | rfl | rfl := hf
  all_goals exact State.viewTurned_rd _ _ _ (by dsimp only; omega) (by dsimp only; omega) (by dsimp only; omega)

/-- A schedule's change passes on to PPS_OUT's slew alone where no PTP candidate is selected and the Hearth does not own a view that
steps (R114, R117). -/
theorem State.viewChanged_aside {d : Int} {owner : Bool} (hsel : 2 ≤ s.selected) (hstep : d = 0 ∨ s.rd (Reg.tvSource v) ≠ 2) :
    s.viewChanged v d owner = s ∨ s.viewChanged v d owner = s.slewOut 2 d 1 := by
  have hslew : (s.slewOut 2 d 1).rd (Reg.tvSource v) = s.rd (Reg.tvSource v) :=
    State.rd_wr_ne (f := Reg.outSlewStatusPps) _ _ (by dsimp only; omega)
  unfold State.viewChanged
  extract_lets u c
  have hu : (u = s ∨ u = s.slewOut 2 d 1) ∧ u.rd (Reg.tvSource v) = s.rd (Reg.tvSource v) := by
    unfold u
    split
    · exact ⟨.inr rfl, hslew⟩
    · exact ⟨.inl rfl, rfl⟩
  have hc : c = s.selected := by
    unfold c u
    split
    · exact State.rd_wr_ne (f := Reg.outSlewStatusPps) (g := Reg.hearthStatusSelected) _ _ (by decide)
    · rfl
  obtain ⟨hu, hsource⟩ := hu
  have hstay : (if u.rd (Reg.tvSource v) == 2 then
      if !owner && d % secondU != 0 then (u.setDpll { u.hearth.dpll with offset := u.hearth.dpll.offset + d }).hearthStep d false else u
      else if c < 2 && u.candView c == v && (u.rd Reg.hearthStatusState == 1 || u.rd Reg.hearthStatusState == 2) then
        u.dpllFollow.hearthStep d true else u) = u := by
    rw [hsource]
    have hother : ¬s.selected < 2 := Nat.not_lt.mpr hsel
    obtain rfl | hown := hstep
    · simp [hc, hother]
    · simp [hown, hc, hother]
  rw [hstay]
  exact hu

/-- What applying a schedule leaves of its view where nothing passes on but PPS_OUT's slew (R62). -/
theorem State.applied_result (s : State) (v : Nat) (c : Sched) (hsel : 2 ≤ s.selected)
    (hstep : c.step = none ∨ s.rd (Reg.tvSource v) ≠ 2) (t : State)
    (ht : t = (s.applySchedule v c).viewChanged v (sext 96 (c.step.getD 0)) c.owner) :
    t.rd (Reg.tvRateRate v) = c.rate.getD (s.rd (Reg.tvRateRate v)) % 2 ^ 48
    ∧ t.rd (Reg.tvOffsetOffset v) = newOffset (s.rd (Reg.tvOffsetOffset v)) (s.rd (Reg.tvRateRate v))
        (c.rate.getD (s.rd (Reg.tvRateRate v))) c.at_ (c.step.getD 0) % 2 ^ 96
    ∧ t.rd (Reg.tvStatusPending v) = 0 ∧ t.rd (Reg.tvLastApplyA v) = c.at_ % 2 ^ 64 ∧ (t.view v).sched = none
    ∧ (∀ w, w ≠ v → (t.view w).sched = (s.view w).sched) ∧ t.locked = s.locked ∧ t.rc = (s.reach c.at_).rc := by
  have hreach : (∀ k, (s.reach c.at_).get k = s.get k) ∧ ∀ w, (s.reach c.at_).view w = s.view w := by
    unfold State.reach
    split <;> exact ⟨fun _ => rfl, fun _ => rfl⟩
  obtain ⟨hget, hview⟩ := hreach
  unfold State.applySchedule at ht
  generalize hr : s.reach c.at_ = r at *
  set u := r.unschedule v with hu
  have hurd : ∀ f : Fld, f.key ≠ (Reg.tvStatusPending v).key → u.rd f = s.rd f := fun f hf =>
    (State.rd_wr_ne _ _ hf).trans (State.rd_congr (hget _))
  have hpending : u.rd (Reg.tvStatusPending v) = 0 := State.rd_wr_same ..
  have hnone : (u.view v).sched = none := congrArg View.sched (State.view_setView r v _)
  have hother : ∀ w, w ≠ v → (u.view w).sched = (s.view w).sched := fun w hw =>
    congrArg View.sched ((State.view_setView_ne r _ hw).trans (hview w))
  obtain ⟨hrate, hoffset, hlast⟩ := u.changeView_result v c
  have hrd : ∀ f : Fld, f = Reg.tvSource v ∨ f = Reg.hearthStatusSelected ∨ f = Reg.deviceStatusClockState ∨ f = Reg.tvStatusPending v →
    (u.changeView v c).rd f = u.rd f := fun _ hf => u.changeView_rd_other v c hf
  have hsched := u.changeView_sched v c
  have hrc : (u.changeView v c).rc = r.rc := u.changeView_rc v c
  generalize u.changeView v c = w at *
  rw [hurd (Reg.tvRateRate v) (by dsimp only; omega)] at hrate
  rw [hurd (Reg.tvRateRate v) (by dsimp only; omega), hurd (Reg.tvOffsetOffset v) (by dsimp only; omega)] at hoffset
  have hselected : w.selected = s.selected :=
    (hrd _ (.inr (.inl rfl))).trans (hurd _ (by dsimp only; omega))
  have hsource : w.rd (Reg.tvSource v) = s.rd (Reg.tvSource v) := (hrd _ (.inl rfl)).trans (hurd _ (by dsimp only; omega))
  have hclock : w.rd Reg.deviceStatusClockState = s.rd Reg.deviceStatusClockState :=
    (hrd _ (.inr (.inr (.inl rfl)))).trans (hurd _ (by dsimp only; omega))
  have haside : (∀ f : Fld, f.key ≠ Reg.outSlewStatusPps.key → t.rd f = w.rd f) ∧ (∀ b, t.view b = w.view b) ∧ t.rc = w.rc := by
    obtain h | h := State.viewChanged_aside (s := w) (v := v) (d := sext 96 (c.step.getD 0)) (owner := c.owner) (by rw [hselected]; exact hsel)
      (hstep.imp (fun hn => by rw [hn]; decide) fun hs => by rw [hsource]; exact hs)
    all_goals rw [ht, h]
    · exact ⟨fun _ _ => rfl, fun _ => rfl, rfl⟩
    · exact ⟨fun _ hf => State.rd_wr_ne _ _ hf, fun _ => rfl, rfl⟩
  obtain ⟨hslew, hviews, hrct⟩ := haside
  refine ⟨?_, ?_, ?_, ?_, ?_, fun b hb => ?_, ?_, hrct.trans hrc⟩
  · rw [hslew _ (by dsimp only; omega), hrate]
  · rw [hslew _ (by dsimp only; omega), hoffset]
  · rw [hslew _ (by dsimp only; omega), hrd _ (.inr (.inr (.inr rfl))), hpending]
  · rw [hslew _ (by dsimp only; omega), hlast]
  · rw [hviews, hsched, hnone]
  · rw [hviews, hsched, hother b hb]
  · unfold State.locked
    rw [hslew _ (by decide), hclock]

end

/-- Settles O22: the schedule of the view is the one that is due; applying it leaves none pending, so RC moves on with no other. -/
theorem scheduleApplies : Obligations.ScheduleApplies := by
  intro s v hv
  refine ⟨fun hnone => ?_, fun c hc => ?_⟩
  · have hstay : (match (s.gather.view v).sched with | some c => s.gather.advance c.at_ | none => s.gather) = s.gather := by
      rw [State.gather_view, hnone]
    exact congrArg Host.Outcome.next ((congrArg s.scatter hstay).trans s.scatter_gather)
  · have hgo : (match (s.gather.view v).sched with | some c => s.gather.advance c.at_ | none => s.gather) = s.gather.advance c.at_ := by
      rw [State.gather_view, hc]
    have hexec : exec (.tvScheduleApply v) s = .next (s.scatter (s.gather.advance c.at_)) :=
      congrArg Host.Outcome.next (congrArg s.scatter hgo)
    refine ⟨hexec, fun hreached hother hsel hstep => ⟨_, hexec, ?_⟩⟩
    set ρ := if s.locked then max s.rc c.at_ else s.rc with hρ
    have hdue : c.at_ ≤ ρ := by
      rw [hρ]
      obtain h | h := hreached
      · rw [if_pos h]; exact Nat.le_max_right ..
      · split
        · exact Nat.le_max_right ..
        · exact h
    have hnext : s.gather.nextDue ρ = some (v, c) := (State.nextDue_single (s := s.gather) hv hother ρ).1 c hc hdue
    obtain ⟨⟨u1, hu1, ht1⟩, ⟨u2, hu2, ht2⟩⟩ := s.gather.moment_only
      fun t => (t.applySchedule v c).viewChanged v (sext 96 (c.step.getD 0)) c.owner
    have hmoment : ∃ u t, OnlyLb s.gather u ∧ OnlyLb ((u.applySchedule v c).viewChanged v (sext 96 (c.step.getD 0)) c.owner) t
        ∧ s.gather.applyDue 8 ρ = t.applyDue 7 ρ := by
      by_cases hlt : c.at_ < ρ
      · refine ⟨u2, _, hu2, ht2, ?_⟩
        rw [State.applyDue, hnext]
        simp only [hlt, if_true]
      · refine ⟨u1, _, hu1, ht1, ?_⟩
        rw [State.applyDue, hnext]
        simp only [hlt, if_false]
    obtain ⟨u, t, hu, ht, happly⟩ := hmoment
    have hurd : ∀ f : Fld, f.key ∉ lbKeys → u.rd f = s.rd f := fun f hf => hu.rd hf
    have hkeys : ∀ f : Fld, f = Reg.tvSource v ∨ f = Reg.tvRateRate v ∨ f = Reg.tvOffsetOffset v ∨ f = Reg.tvStatusPending v
        ∨ f = Reg.tvLastApplyA v ∨ f = Reg.hearthStatusSelected ∨ f = Reg.deviceStatusClockState → f.key ∉ lbKeys := by
      intro f hf
      obtain rfl | rfl | rfl | rfl | rfl | rfl | rfl := hf
      all_goals
        simp only [lbKeys, List.mem_cons, List.not_mem_nil, or_false]
        omega
    have hulocked : u.locked = s.locked := congrArg (· == 2) (hurd _ (hkeys _ (by simp)))
    obtain ⟨hrate, hoffset, hpending, hlast, hnone, hviews, hlocked, hrc⟩ := u.applied_result v c
      (by rw [State.selected, hurd _ (hkeys _ (by simp))]; exact hsel)
      (hstep.imp id fun h => by rw [hurd _ (hkeys _ (by simp))]; exact h) _ rfl
    generalize (u.applySchedule v c).viewChanged v (sext 96 (c.step.getD 0)) c.owner = w at *
    rw [hurd _ (hkeys _ (by simp))] at hrate
    rw [hurd (Reg.tvRateRate v) (hkeys _ (by simp)), hurd (Reg.tvOffsetOffset v) (hkeys _ (by simp))] at hoffset
    have hquiet : ∀ b < 4, (t.view b).sched = none := by
      intro b hb
      rw [ht.view]
      by_cases hbv : b = v
      · rw [hbv, hnone]
      · rw [hviews b hbv, hu.view]
        exact hother b hb hbv
    have hstop : t.applyDue 7 ρ = t := by
      rw [State.applyDue, (State.nextDue_single hv (fun b hb _ => hquiet b hb) ρ).2 (hquiet v hv)]
    have htlocked : t.locked = s.locked := by
      rw [← hulocked, ← hlocked]
      exact congrArg (· == 2) (ht.rd (hkeys _ (by simp)))
    have hadvance : s.gather.advance c.at_ = t.reach c.at_ := congrArg (State.reach · c.at_) (happly.trans hstop)
    have hlb : OnlyLb (t.reach c.at_) (s.scatter (s.gather.advance c.at_)) := by
      rw [hadvance]
      exact (OnlyLb.refl _).scatter s
    have hreach : (∀ k, (t.reach c.at_).get k = t.get k) ∧ ∀ w, (t.reach c.at_).view w = t.view w := by
      unfold State.reach
      split <;> exact ⟨fun _ => rfl, fun _ => rfl⟩
    have hfinal : ∀ f : Fld, f.key ∉ lbKeys → (s.scatter (s.gather.advance c.at_)).rd f = w.rd f := fun f hf =>
      (hlb.rd hf).trans ((State.rd_congr (hreach.1 _)).trans (ht.rd hf))
    refine ⟨?_, ?_, ?_, ?_, ?_, ?_⟩
    · rw [hfinal _ (hkeys _ (by simp)), hrate]
    · rw [hfinal _ (hkeys _ (by simp)), hoffset]
    · rw [hfinal _ (hkeys _ (by simp)), hpending]
    · rw [hfinal _ (hkeys _ (by simp)), hlast]
    · rw [hlb.view, hreach.2, hquiet v hv]
    · have hurc : u.rc = s.rc := hu.rc
      rw [hlb.rc, State.reach, htlocked, hρ]
      rw [State.reach, hulocked, hurc] at hrc
      split
      · rename_i hl
        rw [if_pos hl] at hrc
        show max t.rc c.at_ = _
        rw [ht.rc, hrc]
        exact (Nat.max_assoc ..).trans (congrArg _ (Nat.max_self _))
      · rename_i hl
        rw [if_neg hl] at hrc
        rw [ht.rc, hrc, hurc]

end Sys2Proof.Machine
end


section
/-! Timed triggers and event pins (O23, O24). -/

namespace Sys2Proof.Machine

section
variable {s t : State} {v target : Nat}

/-- When a view reaches a target depends on its line, its schedule, its last apply point and RC. -/
theorem State.viewReach_congr (hview : t.view v = s.view v) (hrc : t.rc = s.rc)
    (hrd : ∀ f : Fld, f = Reg.tvOffsetOffset v ∨ f = Reg.tvRateRate v ∨ f = Reg.tvLastApplyA v → t.rd f = s.rd f) :
    t.viewReached v target = s.viewReached v target ∧ ∀ rc, t.viewReaches v target rc = s.viewReaches v target rc := by
  have hparams : ∀ x, t.viewParams v x = s.viewParams v x := fun x => by
    unfold State.viewParams
    rw [hview, hrd _ (.inl rfl), hrd _ (.inr (.inl rfl))]
  refine ⟨?_, fun rc => ?_⟩
  · unfold State.viewReached State.viewNow State.viewAt
    rw [hparams, hrc]
  · unfold State.viewReaches
    simp only [hparams, hrd _ (.inr (.inr rfl))]

theorem State.evt_of_time (h : t.time = s.time) (i : Nat) : t.evt i = s.evt i := by
  unfold State.evt
  rw [h]

/-- The state in which trigger `a` is armed, its target reached already where `late` says so (R83, R84). -/
def State.trigArmed (s : State) (a : Nat) (late : Bool) : State :=
  ((s.wr (Reg.ttStatusArmed a) 1).wr (Reg.ttStatusMissed a) 0).bumpIf late (Reg.ttStatusLate a)

theorem State.trigArmed_get (s : State) (a : Nat) (late : Bool) {k : Nat} (hk : k ≠ (Reg.ttStatusArmed a).key) :
    (s.trigArmed a late).get k = s.get k := by
  unfold State.trigArmed
  rw [State.bumpIf_get_ne (f := Reg.ttStatusLate a) _ _ hk, State.get_wr_ne (f := Reg.ttStatusMissed a) _ _ hk,
    State.get_wr_ne (f := Reg.ttStatusArmed a) _ _ hk]

theorem State.trigArmed_rd (s : State) (a : Nat) (late : Bool) :
    (s.trigArmed a late).rd (Reg.ttStatusArmed a) = 1 ∧ (s.trigArmed a late).rd (Reg.ttStatusMissed a) = 0
    ∧ (s.trigArmed a late).rd (Reg.ttStatusLate a) = if late then 1 else s.rd (Reg.ttStatusLate a) := by
  have hbump : ∀ (u : State) {f g : Fld}, g.lo + g.w ≤ f.lo ∨ f.lo + f.w ≤ g.lo → (u.bumpIf late f).rd g = u.rd g := by
    intro u f g h
    cases late
    · rfl
    · exact State.rd_wr_apart _ _ h
  unfold State.trigArmed
  refine ⟨?_, ?_, ?_⟩
  · rw [hbump _ (by dsimp only; omega), State.rd_wr_apart (f := Reg.ttStatusMissed a) (g := Reg.ttStatusArmed a) _ _ (by dsimp only; omega), State.rd_wr_same]
    rfl
  · rw [hbump _ (by dsimp only; omega), State.rd_wr_same]
    rfl
  · have hkeep : ((s.wr (Reg.ttStatusArmed a) 1).wr (Reg.ttStatusMissed a) 0).rd (Reg.ttStatusLate a) = s.rd (Reg.ttStatusLate a) := by
      rw [State.rd_wr_apart (f := Reg.ttStatusMissed a) (g := Reg.ttStatusLate a) _ _ (by dsimp only; omega),
        State.rd_wr_apart (f := Reg.ttStatusArmed a) (g := Reg.ttStatusLate a) _ _ (by dsimp only; omega)]
    cases late
    · exact hkeep
    · refine (State.rd_bump_same _ _ 1).trans ?_
      exact Nat.min_eq_right (Nat.le_add_left ..)

theorem State.trigArmed_view (s : State) (a : Nat) (late : Bool) :
    (∀ w, (s.trigArmed a late).view w = s.view w) ∧ (s.trigArmed a late).rc = s.rc := by
  unfold State.trigArmed
  cases late <;> exact ⟨fun _ => rfl, rfl⟩

/-- What a SET of TT_CTRL does by the change of its ARM (R83, R84). -/
theorem applyTtCtrl_cases (u : State) (a old : Nat) :
    (bit old 0 = false → u.on (Reg.ttCtrlArm a) = true →
      applyTtCtrl u a old = let v := u.rd (Reg.ttCtrlView a)
        let target := ofTime (u.get (Reg.ttTargetT a).key)
        let w := u.trigArmed a (u.viewReached v target)
        w.setTrig a { target := target, conv := w.viewReaches v target w.rc, late := w.viewReached v target })
    ∧ (bit old 0 = true → u.on (Reg.ttCtrlArm a) = false → applyTtCtrl u a old = u.wr (Reg.ttStatusArmed a) 0)
    ∧ (bit old 0 = u.on (Reg.ttCtrlArm a) → applyTtCtrl u a old = u) := by
  unfold applyTtCtrl
  refine ⟨fun hold hnew => ?_, fun hold hnew => ?_, fun hsame => ?_⟩
  · rw [hold, hnew]
    rfl
  · rw [hold, hnew]
  · rw [hsame]
    cases u.on (Reg.ttCtrlArm a) <;> rfl

/-- The periods a trigger skips are the fewest that bring its target behind now (R84). -/
theorem skipped_unique {x period skip now : Nat} (hp : 0 < period) (hlt : now < x + (skip + 1) * period)
    (hleast : skip = 0 ∨ x + (skip + 1) * period ≤ now + period) :
    (if now < x + period then 0 else (now - (x + period)) / period + 1) = skip := by
  rw [Nat.add_mul, Nat.one_mul] at hlt hleast
  obtain rfl | hskip := Nat.eq_zero_or_pos skip
  · rw [if_pos (by omega)]
  · obtain ⟨k, rfl⟩ : ∃ k, skip = k + 1 := ⟨skip - 1, by omega⟩
    rw [Nat.add_mul, Nat.one_mul] at hlt hleast
    rw [if_neg (by omega)]
    congr 1
    exact Nat.div_eq_of_lt_le (by omega) (by rw [Nat.succ_mul]; omega)

end

/-- Settles O23. The row that arms and the one that fires are read branch by branch. -/
theorem timedTriggers : Obligations.TimedTriggers := by
  refine ⟨fun s u who a v n k target ha hk h hu htarget => ?arm, fun s u r w a at_ period unit x ha => ⟨fun hoff => ?unarmed,
    fun hon hu hx hat hperiod hunit => ⟨fun hwait => ?waits, fun harmed hdue hr hw => ⟨fun hsingle z hz => ?single,
      fun skip target now hp hnow ht hlt hleast y z hy hz => ?periodic⟩⟩⟩⟩
  case arm =>
    subst hk
    have hexec : exec (.ttCtrlSet who a v) s = .next ((applyTtCtrl u a (s.get (Reg.ttCtrlArm a).key)).say .ok) := by
      rw [hu]
      exact congrArg Host.Outcome.next (h.setAs_stored (mine := fun _ => true) rfl rfl rfl)
    obtain ⟨harm, hdisarm, hstay⟩ := applyTtCtrl_cases u a (s.get (Reg.ttCtrlArm a).key)
    refine ⟨fun hold hnew late hlate => ?_, fun hold hnew => by rw [hexec, hdisarm hold hnew], fun hsame => by rw [hexec, hstay hsame]⟩
    rw [harm hold hnew] at hexec
    dsimp only at hexec
    have hview := u.rd_lt (Reg.ttCtrlView a)
    rw [← htarget, ← hlate] at hexec
    obtain ⟨hviews, hrc⟩ := u.trigArmed_view a late
    obtain ⟨hreached, hreaches⟩ := State.viewReach_congr (t := u.trigArmed a late) (s := u) (v := u.rd (Reg.ttCtrlView a)) (target := target)
      (hviews _) hrc fun f hf => State.rd_congr (u.trigArmed_get a late (by
        obtain rfl | rfl | rfl := hf
        all_goals dsimp only at hview ⊢; omega))
    rw [hreached, hreaches, hrc, ← hlate] at hexec
    obtain ⟨harmed, hmissed, hlateRd⟩ := u.trigArmed_rd a late
    have hget := fun {k} => u.trigArmed_get a late (k := k)
    generalize u.trigArmed a late = w at *
    have hurc : u.rc = s.rc := by rw [hu]; rfl
    refine ⟨_, hexec, harmed, hmissed, rfl, hlateRd.trans ?_, ?_, fun j hj hstatus => (hget hstatus).trans ?_⟩
    · rw [hu]
      exact congrArg (ite _ 1) (State.rd_put_ne _ _ (by dsimp only; omega))
    · rw [← hurc]
      exact State.trig_setTrig w a _
    · rw [hu]
      exact State.takes_get_ne s n hj
  case unarmed => exact congrArg Host.Outcome.next ((congrArg s.scatter (if_pos (by simp [hoff]))).trans s.scatter_gather)
  case waits =>
    subst hu
    refine congrArg Host.Outcome.next (congrArg s.scatter ((if_neg (by simp [hon])).trans (if_neg ?_)))
    rw [hat, hx] at hwait
    obtain hwait | hwait := hwait
    · exact fun h => by simp [hwait] at h
    · exact fun h => absurd (of_decide_eq_true ((Bool.and_eq_true ..).mp h).2) (Nat.not_le.mpr hwait)
  all_goals
    have hfire : exec (.triggerFire a) s = .next (s.scatter (u.trigFire a)) := by
      subst hu
      refine congrArg Host.Outcome.next (congrArg s.scatter ((if_neg (by simp [hon])).trans (if_pos ?_)))
      rw [hat, hx] at hdue
      exact (Bool.and_eq_true ..).mpr ⟨harmed, decide_eq_true hdue⟩
    have hr' : r = if u.trigTwin a (u.trig a).conv then u
        else u.trigAct (u.rd (Reg.ttCtrlAction a)) (u.rd (Reg.ttCtrlTarget a)) (u.firePoint a) := by
      rw [hr, hat, hx, hunit]
      rfl
    rw [hfire]
    refine congrArg (fun t => Host.Outcome.next (s.scatter t)) ?_
    unfold State.trigFire
    dsimp only
    rw [← hr', ← hperiod, ← hx, ← hat, ← hw]
  case single => rw [if_pos hsingle, hz, hat]
  case periodic =>
    rw [← hnow]
    have hskip := skipped_unique hp (ht ▸ hlt) (ht ▸ hleast)
    have htarget : x.target + period + skip * period = target := by rw [ht]; ring
    rw [if_neg hp.ne', hskip, ← hy, htarget, ← hz]
    simp only [Bool.or_eq_true, bne_iff_ne]
    rfl

/-- Settles O24. -/
theorem eventPins : Obligations.EventPins := by
  intro s u w i q rising short hi
  refine ⟨fun hu => ?edge, fun who v n k hk h => ?config, fun t ht hpulse => ?ends, fun hpulse => ?idle⟩
  case config =>
    subst hk
    exact congrArg Host.Outcome.next (h.setAs_stored (mine := fun _ => true) rfl rfl rfl)
  case ends =>
    subst ht
    exact congrArg Host.Outcome.next (if_pos hpulse)
  case idle => exact congrArg Host.Outcome.next (if_neg (by simp [hpulse]))
  case edge =>
    have hexec : ∀ t, (if short || !edgeSelected (u.rd (Reg.evtCfgEdge i)) rising then u
        else if (match (u.evt i).last with | some l => decide (q < l + 200) | none => false) || decide (16 ≤ (u.evt i).fifo.length) then
          u.bump (Reg.evtCfgMissed i) 1
        else
          let c : Capture := { t := toTime (u.viewAt (u.rd (Reg.evtCfgView i)) q), q := q % 2 ^ 66, rising := rising, seq := (u.evt i).seq }
          let w := u.setEvt i { fifo := (u.evt i).fifo ++ [c], seq := ((u.evt i).seq + 1) % 256, last := some q }
          if u.on (Reg.evtCfgPost i) then
            w.post 0x2005 (u.rd (Reg.evtCfgPriority i)) [pack [(0, i), (8, (u.evt i).seq)]] else w) = t →
        exec (.evtInEdge i rising short q) s = .next (s.scatter t) := by
      rintro t rfl
      subst hu
      rfl
    refine ⟨fun hskip => hexec _ (if_pos ?_), fun hlong hselected => ?_⟩
    · obtain rfl | h := hskip
      · rfl
      · simp [h]
    have htaken : ¬(short || !edgeSelected (u.rd (Reg.evtCfgEdge i)) rising) = true := by simp [hlong, hselected]
    refine ⟨fun hfull => hexec _ ((if_neg htaken).trans (if_pos ?_)), fun hfar hroom hw => ?_⟩
    · obtain ⟨l, hl, hnear⟩ | hfull := hfull
      · simp [hl, hnear]
      · simp [hfull]
    · have hfree : ¬((match (u.evt i).last with | some l => decide (q < l + 200) | none => false)
          || decide (16 ≤ (u.evt i).fifo.length)) = true := by
        simp only [Bool.or_eq_true, decide_eq_true_eq, not_or, Nat.not_le]
        refine ⟨?_, hroom⟩
        split
        next l hl => simpa using hfar l hl
        next => exact Bool.false_ne_true
      have hcaptured : exec (.evtInEdge i rising short q) s = .next (s.scatter (if u.on (Reg.evtCfgPost i) = true then
          w.post 0x2005 (u.rd (Reg.evtCfgPriority i)) [pack [(0, i), (8, (u.evt i).seq)]] else w)) :=
        hexec _ ((if_neg htaken).trans ((if_neg hfree).trans (by rw [hw])))
      have honly : OnlyLb w (if u.on (Reg.evtCfgPost i) = true then
          w.post 0x2005 (u.rd (Reg.evtCfgPriority i)) [pack [(0, i), (8, (u.evt i).seq)]] else w) := by
        split
        · exact w.post_only ..
        · exact OnlyLb.refl w
      refine ⟨hcaptured, fun t ht => ?_⟩
      obtain rfl := Host.Outcome.next.inj (hcaptured.symm.trans ht)
      have hall := honly.scatter s
      refine ⟨State.evt_of_time hall.time i, fun k hk => (hall.regs k hk).trans ?_⟩
      rw [hw, State.setEvt_get]

end Sys2Proof.Machine
end


section
/-! The Hearth's candidates: entering a state, what ends a wait or fails one, and the settings of the selection (O29, O30, O34). -/

namespace Sys2Proof.Machine

/-- A field reads as before where another entry, or another field of its own, is written. -/
theorem State.rd_wr_other (s : State) {f g : Fld} (n : Nat)
    (h : g.key ≠ f.key ∨ g.lo + g.w ≤ f.lo ∨ f.lo + f.w ≤ g.lo) : (s.wr f n).rd g = s.rd g :=
  h.elim (State.rd_wr_ne s n) (State.rd_wr_apart s n)

theorem State.on_wr_other (s : State) {f g : Fld} (n : Nat)
    (h : g.key ≠ f.key ∨ g.lo + g.w ≤ f.lo ∨ f.lo + f.w ≤ g.lo) : (s.wr f n).on g = s.on g := State.on_congr (s.rd_wr_other n h)

section
variable {s : State} {c : Nat}

/-- The state in which candidate `c`'s STATUS is that of the state it enters, the event not yet posted. -/
def State.refEntered (s : State) (c new : Nat) (cause : Option Nat) (timer : Nat) : State :=
  let s := (s.wr (Reg.refStatusState c) new).wr (Reg.refStatusTimer c) timer
  match cause with | some k => s.wr (Reg.refStatusCause c) k | none => s

theorem State.refGo_eq (s : State) (c new : Nat) (cause : Option Nat) (timer : Nat) : s.refGo c new cause timer =
    if s.rd (Reg.refStatusState c) = new then s.refEntered c new cause timer
    else (s.refEntered c new cause timer).post 0x1001 4
      [pack [(0, c), (4, new), (7, s.rd (Reg.refStatusState c)), (10, (s.refEntered c new cause timer).rd (Reg.refStatusCause c))]] := rfl

theorem State.refGo_only (s : State) (c new : Nat) (cause : Option Nat) (timer : Nat) :
    OnlyLb (s.refEntered c new cause timer) (s.refGo c new cause timer) := by
  rw [State.refGo_eq]
  split
  · exact OnlyLb.refl _
  · exact State.post_only ..

/-- What entering a state leaves in the candidate's STATUS. -/
theorem State.refEntered_rd (s : State) (c new : Nat) (cause : Option Nat) (timer : Nat) :
    (s.refEntered c new cause timer).rd (Reg.refStatusState c) = new % 2 ^ (Reg.refStatusState c).w
    ∧ (s.refEntered c new cause timer).rd (Reg.refStatusTimer c) = timer % 2 ^ (Reg.refStatusTimer c).w
    ∧ (s.refEntered c new cause timer).rd (Reg.refStatusCause c) =
      (match cause with | some k => k % 2 ^ (Reg.refStatusCause c).w | none => s.rd (Reg.refStatusCause c))
    ∧ ∀ f : Fld, f.lo + f.w ≤ 10 → 3 ≤ f.lo ∨ f.key ≠ (Reg.refStatusState c).key →
      (s.refEntered c new cause timer).rd f = s.rd f := by
  have hbase : ∀ f : Fld, f.lo + f.w ≤ 22 → 3 ≤ f.lo ∨ f.key ≠ (Reg.refStatusState c).key →
      ((s.wr (Reg.refStatusState c) new).wr (Reg.refStatusTimer c) timer).rd f = s.rd f := fun f hw hlo => by
    rw [State.rd_wr_other _ _ (by dsimp only; omega), State.rd_wr_other _ _ (by dsimp only at hlo ⊢; omega)]
  have hstate : ((s.wr (Reg.refStatusState c) new).wr (Reg.refStatusTimer c) timer).rd (Reg.refStatusState c) =
      new % 2 ^ (Reg.refStatusState c).w := by
    rw [State.rd_wr_other _ _ (by dsimp only; omega), State.rd_wr_same]
  cases cause with
  | none =>
    exact ⟨hstate, State.rd_wr_same .., hbase (Reg.refStatusCause c) (by dsimp only; omega) (.inl (by dsimp only; omega)),
      fun f hw hlo => hbase f (by omega) hlo⟩
  | some k =>
    refine ⟨?_, ?_, State.rd_wr_same .., fun f hw hlo => ?_⟩
    · exact (State.rd_wr_other _ _ (by dsimp only; omega)).trans hstate
    · exact (State.rd_wr_other _ _ (by dsimp only; omega)).trans (State.rd_wr_same ..)
    · exact (State.rd_wr_other _ _ (by dsimp only; omega)).trans (hbase f (by omega) hlo)

theorem State.refEntered_keep (s : State) (c new : Nat) (cause : Option Nat) (timer : Nat) :
    (s.refEntered c new cause timer).lb = s.lb ∧ (s.refEntered c new cause timer).hearth = s.hearth
    ∧ ∀ k, k ≠ (Reg.refStatusState c).key → (s.refEntered c new cause timer).get k = s.get k := by
  have hbase : ∀ k, k ≠ (Reg.refStatusState c).key →
      ((s.wr (Reg.refStatusState c) new).wr (Reg.refStatusTimer c) timer).get k = s.get k := fun k hk =>
    (State.get_wr_ne (f := Reg.refStatusTimer c) _ _ hk).trans (State.get_wr_ne _ _ hk)
  cases cause with
  | none => exact ⟨rfl, rfl, hbase⟩
  | some k => exact ⟨rfl, rfl, fun j hj => (State.get_wr_ne (f := Reg.refStatusCause c) _ _ hj).trans (hbase j hj)⟩

/-- A candidate's STATUS is no counter of the Letterbox. -/
theorem refStatus_not_lb (hc : c < 10) : (Reg.refStatusState c).key ∉ lbKeys := by
  simp only [lbKeys, List.mem_cons, List.not_mem_nil, or_false]
  omega

end

/-- Settles O29. -/
theorem candidateEntersState : Obligations.CandidateEntersState := by
  intro s c new timer cause hc
  have honly := s.refGo_only c new cause timer
  obtain ⟨hstate, htimer, hcause, hother⟩ := s.refEntered_rd c new cause timer
  obtain ⟨hlb, hhearth, hget⟩ := s.refEntered_keep c new cause timer
  have hrd : ∀ f : Fld, f.key = (Reg.refStatusState c).key →
      (s.refGo c new cause timer).rd f = (s.refEntered c new cause timer).rd f := fun f hf =>
    honly.rd (by rw [hf]; exact refStatus_not_lb hc)
  refine ⟨(hrd _ rfl).trans hstate, fun k hk => ?_, fun hk => ?_, (hrd (Reg.refStatusTimer c) rfl).trans htimer, fun f hf => ?_,
    honly.hearth.trans hhearth, fun k hk hl => (honly.regs k hl).trans (hget k hk), fun hsame => ?_,
    fun hdiff => ⟨_, hlb, (s.refGo_eq ..).trans (if_neg hdiff)⟩⟩
  · rw [hrd (Reg.refStatusCause c) rfl, hcause, hk]
  · rw [hrd (Reg.refStatusCause c) rfl, hcause, hk]
  · have hparts : f.key = (Reg.refStatusState c).key ∧ ((f.lo + f.w ≤ 10 ∧ 3 ≤ f.lo) ∨ f = Reg.refStatusQlRaw c) := by
      simp only [List.mem_cons, List.not_mem_nil, or_false] at hf
      obtain rfl | rfl | rfl | rfl | rfl | rfl := hf
      iterate 5 exact ⟨rfl, .inl (by dsimp only; omega)⟩
      exact ⟨rfl, .inr rfl⟩
    obtain ⟨hkey, hparts⟩ := hparts
    rw [hrd f hkey]
    obtain ⟨hhi, hlo⟩ | rfl := hparts
    · exact hother f hhi (.inl hlo)
    · have hbase : ((s.wr (Reg.refStatusState c) new).wr (Reg.refStatusTimer c) timer).rd (Reg.refStatusQlRaw c) =
          s.rd (Reg.refStatusQlRaw c) := by
        rw [State.rd_wr_other _ _ (by dsimp only; omega), State.rd_wr_other _ _ (by dsimp only; omega)]
      cases cause with
      | none => exact hbase
      | some k => exact (State.rd_wr_other _ _ (by dsimp only; omega)).trans hbase
  · rw [State.refGo_eq, if_pos hsame]
    exact hlb

/-- A row that does nothing at its moment changes nothing. -/
theorem State.together_stays {s : State} {f : State → State} (h : f s.gather = s.gather) : s.together f = s :=
  (congrArg s.scatter h).trans s.scatter_gather

/-- Settles O30. -/
theorem candidateEvents : Obligations.CandidateEvents := by
  intro s g u c hg
  subst hg
  refine ⟨fun hu => ?signal, fun hst hfailed => ?again, fun hst hfailed => ?first, fun hst => ?other, fun hst => ?wtr, fun hst => ?noWtr,
    fun meas off hoff => ?fast, fun hu => ⟨fun hq => ?esmc, fun hq => ?noEsmc⟩, fun who v n k hk h => ?cmd⟩
  case signal => rw [hu]; rfl
  case again => exact congrArg (fun t => Host.Outcome.next (s.scatter t)) ((if_pos hst).trans (congrArg State.settleRefs (if_pos hfailed)))
  case first =>
    exact congrArg (fun t => Host.Outcome.next (s.scatter t))
      ((if_pos hst).trans (congrArg State.settleRefs (if_neg (by simp [hfailed]))))
  case other => exact congrArg Host.Outcome.next (State.together_stays (if_neg hst))
  case wtr => exact congrArg (fun t => Host.Outcome.next (s.scatter t)) (if_pos hst)
  case noWtr => exact congrArg Host.Outcome.next (State.together_stays (if_neg hst))
  case fast =>
    refine congrArg (fun f => Host.Outcome.next (s.scatter (State.settleRefs (s.gather.units 10 f)))) (funext fun t => funext fun x => ?_)
    have hfail : ∀ o : Option Int, (match o with
        | some y => if t.rd (Reg.refMonCfgHard x) * 20 < y.natAbs then t.refFail x 2 else t
        | none => t) = if o.any (fun y => decide (t.rd (Reg.refMonCfgHard x) * 20 < y.natAbs)) then t.refFail x 2 else t := by
      rintro (_ | y) <;> simp
    rw [hoff]
    exact hfail _
  case esmc => rw [hu]; exact congrArg (fun t => Host.Outcome.next (s.scatter t)) (if_pos hq)
  case noEsmc => rw [hu]; exact congrArg (fun t => Host.Outcome.next (s.scatter t)) (if_neg hq)
  case cmd =>
    subst hk
    have hstate : (s.gather.takes (Reg.refCmdCmd c).key n).rd (Reg.refStatusState c) = s.rd (Reg.refStatusState c) :=
      State.rd_put_ne _ _ (by dsimp only; omega)
    have hmoment : ∀ {f g : State → State}, f s.gather = g s.gather → s.together f = s.together g := fun h => congrArg s.scatter h
    refine ⟨fun hn hst => ?_, fun hn hst => ?_, fun hn => ?_⟩
    · refine congrArg Host.Outcome.next ((h.setAs_decides (by simp [hn]) rfl rfl).trans (congrArg (State.say · .ok) (hmoment ?_)))
      exact congrArg State.settleRefs ((if_pos hn).trans (if_pos (hstate.trans hst)))
    · refine congrArg Host.Outcome.next ((h.setAs_decides (by simp [hn]) rfl rfl).trans (congrArg (State.say · .ok) (hmoment ?_)))
      exact congrArg State.settleRefs ((if_pos hn).trans (if_neg (hstate ▸ hst)))
    · refine congrArg Host.Outcome.next ((h.setAs_decides (by simp [hn]) rfl rfl).trans (congrArg (State.say · .ok) (hmoment ?_)))
      exact congrArg State.settleRefs (if_neg (by omega))

/-- What a SET of REF_CFG does by what changes of it (R93, R99, R106). -/
theorem applyRefCfg_cases (u : State) (c old n : Nat) :
    (field old 0 1 = 1 → field n 0 1 ≠ 1 → applyRefCfg u c old n =
      let z := u.wr (Reg.refStatusHasFailed c) 0
      let w := if z.on (Reg.refStatusDegraded c) then
        (z.wr (Reg.refStatusDegraded c) 0).post 0x1003 4 [c, z.get (Reg.refFreqOffset c).key] else z
      let x := (w.refGo c 0 none 0).noSignal c
      (if u.hearth.waiting && u.rd Reg.hearthCtrlManualRef == c then x.abandon true else x).dnuFail)
    ∧ (field old 0 1 ≠ 1 → field n 0 1 = 1 → applyRefCfg u c old n = ((u.noSignal c).refGo c 1 (some 1) 0).dnuFail)
    ∧ (field old 0 1 ≠ 1 → field n 0 1 ≠ 1 → applyRefCfg u c old n = u.dnuFail)
    ∧ (field old 0 1 = 1 → field n 0 1 = 1 →
      (field old 10 9 = field n 10 9 → field old 19 6 = field n 19 6 → field old 5 2 = field n 5 2 → applyRefCfg u c old n = u.dnuFail)
      ∧ (field old 10 9 ≠ field n 10 9 ∨ field old 19 6 ≠ field n 19 6 ∨ field old 5 2 ≠ field n 5 2 → applyRefCfg u c old n =
        ((State.noSignal (if 2 ≤ u.rd (Reg.refStatusState c) ∧ u.hearth.waiting = true ∧ u.rd Reg.hearthCtrlManualRef = c then
          u.abandon true else u) c).refGo c 1 (some 1) 0).dnuFail)) := by
  unfold applyRefCfg
  refine ⟨fun hold hnew => ?_, fun hold hnew => ?_, fun hold hnew => ?_, fun hold hnew => ⟨fun h1 h2 h3 => ?_, fun hchange => ?_⟩⟩
  · exact congrArg State.dnuFail (if_pos (by simp [hold, hnew]))
  · exact congrArg State.dnuFail ((if_neg (by simp [hold])).trans (if_pos (by simp [hold, hnew])))
  · exact congrArg State.dnuFail ((if_neg (by simp [hold])).trans ((if_neg (by simp [hnew])).trans (if_neg (by simp [hnew]))))
  · exact congrArg State.dnuFail ((if_neg (by simp [hnew])).trans ((if_neg (by simp [hold])).trans (if_neg (by simp [h1, h2, h3]))))
  · refine congrArg State.dnuFail ((if_neg (by simp [hnew])).trans ((if_neg (by simp [hold])).trans ((if_pos ?_).trans ?_)))
    · simpa [hnew, or_assoc] using hchange
    · simp

/-- Settles O34. -/
theorem hearthSettings : Obligations.HearthSettings := by
  intro s who c v n k
  refine ⟨fun hk h => ?cfg, fun hk h hmode enter henter => ?mode, fun hk h hmode => ?choice⟩
  case cfg =>
    subst hk
    have hexec : ∀ f : State → State, (∀ z, applyRefCfg (z.takes (Reg.refCfgEnable c).key n) c (s.get (Reg.refCfgEnable c).key) n = f z) →
        exec (.refCfgSet who c v) s = .next ((s.together fun z => (f z).settleRefs).say .ok) := fun f hf => by
      refine congrArg Host.Outcome.next ((h.setAs_decides (mine := fun _ => true) rfl rfl rfl).trans ?_)
      exact congrArg (fun g => (s.together g).say .ok) (funext fun z => congrArg State.settleRefs (hf z))
    have hcases := fun z : State => applyRefCfg_cases (z.takes (Reg.refCfgEnable c).key n) c (s.get (Reg.refCfgEnable c).key) n
    refine ⟨fun hold hnew => ?_, fun hold hnew => ?_, fun hold hnew => ?_, fun hold hnew h1 h2 h3 => ?_, fun hold hnew hchange => ?_⟩
    · refine (hexec _ fun z => (hcases z).1 hold hnew).trans ?_
      refine congrArg (fun g => Host.Outcome.next ((s.together g).say .ok)) (funext fun z => ?_)
      dsimp only
      rw [State.rd_wr_other (f := Reg.refStatusHasFailed c) (g := Reg.hearthCtrlManualRef) _ _ (by dsimp only; omega)]
      rfl
    · exact hexec _ fun z => (hcases z).2.1 hold hnew
    · exact hexec _ fun z => (hcases z).2.2.1 hold hnew
    · exact hexec _ fun z => ((hcases z).2.2.2 hold hnew).1 h1 h2 h3
    · exact hexec _ fun z => ((hcases z).2.2.2 hold hnew).2 hchange
  case mode =>
    subst hk
    refine congrArg Host.Outcome.next ((h.setAs_decides (mine := fun n => field n 0 3 != s.rd Reg.hearthCtrlSelMode)
      (by simp [hmode]) rfl rfl).trans ?_)
    refine congrArg (fun g => (s.together g).say .ok) (funext fun z => congrArg State.settleRefs ?_)
    generalize z.takes Reg.hearthCtrlSelMode.key n = t
    show applyHearthCtrl t (s.get Reg.hearthCtrlSelMode.key) n = _
    unfold applyHearthCtrl
    refine (if_pos (bne_iff_ne.mpr hmode)).trans ?_
    generalize t.setChoice false false = w
    obtain ⟨htwo, hthree, hfour, helse⟩ := henter w
    split
    next hm => rw [htwo hm]
    next hm => rw [hthree hm]
    next hm => rw [hfour hm]
    next h2 h3 h4 =>
      simp only [imp_false] at h2 h3 h4
      rw [helse (by omega)]
  case choice =>
    subst hk
    have hexec : ∀ f : State → State, (∀ z, applyHearthCtrl (z.takes Reg.hearthCtrlSelMode.key n) (s.get Reg.hearthCtrlSelMode.key) n = f z) →
        exec (.manualRefSet who v) s = .next ((s.together fun z => (f z).settleRefs).say .ok) := fun f hf => by
      refine congrArg Host.Outcome.next ((h.setAs_decides (mine := fun n => field n 0 3 == s.rd Reg.hearthCtrlSelMode)
        (by simp [hmode]) rfl rfl).trans ?_)
      exact congrArg (fun g => (s.together g).say .ok) (funext fun z => congrArg State.settleRefs (hf z))
    have hsame : ¬(field n 0 3 != field (s.get Reg.hearthCtrlSelMode.key) 0 3) = true := by simpa [State.rd] using hmode
    refine ⟨fun htwo => hexec _ fun z => ?_, fun htwo => hexec _ fun z => ?_⟩
    · refine (if_neg hsame).trans ((if_pos htwo).trans ?_)
      have hselected : (z.takes Reg.hearthCtrlSelMode.key n).selected = z.selected := State.rd_put_ne _ _ (by decide)
      rw [hselected]
    · exact (if_neg hsame).trans (if_neg htwo)

end Sys2Proof.Machine
end


section
/-! The DPLL's stages, records, holdover and frequency (O32). -/

namespace Sys2Proof.Machine

/-- A 32-bit code is that of the number it spells. -/
theorem ofInt_sext (n : Nat) (h : n < 2 ^ 32) : ofInt 32 (sext 32 n) = n := by
  unfold ofInt sext
  split <;> omega

theorem clampInt_self (f : Int) : clampInt (f - 10000) (f + 10000) f = f := by
  unfold clampInt
  rw [if_neg (by omega), if_neg (by omega)]

theorem ofInt_lt (f : Int) : ofInt 32 f < 2 ^ 32 := by
  unfold ofInt
  omega

/-- A line that takes another rate goes on from the time it has (R62). -/
theorem Line.time_turn (l : Line) (rate x : Nat) : (l.turn rate x).time x = l.time x := by
  exact Int.sub_add_cancel (l.time x) (rate * x / 2 ^ 32 : Nat)

section
variable {s : State}

/-- A change of the DPLL's rate: its line turns, and the view it steers is written beside the dictionary's DPLL_FREQ. -/
theorem State.dpllTurn_result (s : State) (rate : Nat) :
    (s.dpllTurn rate).hearth.dpll = s.hearth.dpll.turn rate (4 * s.rc) ∧ (s.dpllTurn rate).rd Reg.dpllFreqFreq = s.rd Reg.dpllFreqFreq := by
  unfold State.dpllTurn
  refine State.units_keeps (P := fun u => u.hearth.dpll = s.hearth.dpll.turn rate (4 * s.rc) ∧ u.rd Reg.dpllFreqFreq = s.rd Reg.dpllFreqFreq)
    ⟨rfl, rfl⟩ fun u v hv hu => ?_
  split
  · unfold State.hearthWrite State.schedule
    refine ⟨hu.1, (State.rd_wr_ne _ _ (by dsimp only; omega)).trans ?_⟩
    exact hu.2
  · exact hu

/-- What the DPLL's second leaves in HOLDOVER and FREE_RUN, where its frequency moves toward `g` (R111, R112). -/
theorem State.dpllSecond_toward {f g : Int} (hf : f = sext 32 (s.rd Reg.dpllFreqFreq))
    (hg : (s.rd Reg.hearthStatusState = 3 ∧ g = sext 32 (s.rd Reg.histFreqFreq))
      ∨ (s.rd Reg.hearthStatusState = 0 ∧ g = sext 24 (s.rd Reg.holdoverCfgFreeTrim) * 10)) :
    s.dpllSecond = if f = g ∧ s.hearth.dpll.rate = rateOf g then s else s.dpllTune (clampInt (f - 10000) (f + 10000) g) := by
  unfold State.dpllSecond
  rw [← hf]
  obtain ⟨hst, rfl⟩ | ⟨hst, rfl⟩ := hg
  all_goals
    rw [hst]
    simp

end

/-- Settles O32. Each row is read branch by branch; the second's frequency is `dpllSecond_toward`. -/
theorem dpllEvents : Obligations.DpllEvents := by
  refine ⟨fun s u freq who v n => ⟨fun hst hstage => ?stage, fun hst hlast => ?locked, fun hst => ?stays, fun hst hsel hu => ?record,
    fun hst hsel => ?recordPtp, fun hst => ?noRecord, fun hon => ?spec, fun hoff => ?noSpec, fun hwait => ?wait, fun hwait => ?noWait,
    fun h hn hu => ?clear⟩, fun s f g hf hg => ?second⟩
  case stage => exact congrArg (fun t => Host.Outcome.next (s.scatter t)) ((if_pos hst).trans (if_pos hstage))
  case locked =>
    exact congrArg (fun t => Host.Outcome.next (s.scatter t)) ((if_pos hst).trans (if_neg (Nat.not_lt.mpr hlast)))
  case stays => exact congrArg Host.Outcome.next (State.together_stays (if_neg hst))
  case record =>
    refine congrArg Host.Outcome.next ((if_pos hst).trans ?_)
    have hsel' : ¬s.selected < 2 := Nat.not_lt.mpr hsel
    have hkeep : ∀ f : Fld, f = Reg.holdoverCfgHistLen ∨ f = Reg.holdoverCfgGuard →
        (s.wr Reg.dpllFreqFreq (ofInt 32 freq)).rd f = s.rd f := by
      rintro f (rfl | rfl)
      all_goals exact State.rd_wr_ne _ _ (by decide)
    dsimp only
    rw [if_neg hsel', if_neg hsel', hkeep _ (.inl rfl), hkeep _ (.inr rfl), hu]
    rfl
  case recordPtp =>
    refine congrArg Host.Outcome.next ((if_pos hst).trans ?_)
    dsimp only
    rw [if_pos hsel, if_pos hsel]
  case noRecord => exact congrArg Host.Outcome.next (if_neg hst)
  case spec => exact congrArg Host.Outcome.next (if_pos hon)
  case noSpec => exact congrArg Host.Outcome.next (if_neg (by simp [hoff]))
  case wait =>
    have hexec : exec .manWaitExpiry s = .next (s.abandon false) := congrArg Host.Outcome.next (if_pos hwait)
    have hpost : s.abandon false = ((s.wr Reg.hearthCtrlManualRef 15).setChoice false false).post 0x1004 5 [s.rd Reg.hearthCtrlManualRef] := by
      unfold State.abandon
      simp [pack, b2n]
    refine ⟨_, hexec, ?_⟩
    rw [hpost]
    refine ⟨State.post_hearth .., ?_, ⟨(s.wr Reg.hearthCtrlManualRef 15).setChoice false false, rfl, rfl⟩, fun k hk hl => ?_⟩
    · exact (State.post_rd _ _ _ _ (by decide)).trans (State.rd_wr_same s Reg.hearthCtrlManualRef 15)
    · exact (State.post_get _ _ _ _ hl).trans (State.get_wr_ne s 15 hk)
  case noWait => exact congrArg Host.Outcome.next (if_neg (by simp [hwait]))
  case clear =>
    rw [hu]
    exact congrArg Host.Outcome.next (h.setAs_stored (mine := fun n => n == 1) (by simp [hn]) rfl rfl)
  case second =>
    have hsecond := State.dpllSecond_toward hf hg
    by_cases hsame : f = g ∧ s.hearth.dpll.rate = rateOf g
    · obtain ⟨rfl, hrate⟩ := hsame
      rw [hsecond, if_pos ⟨rfl, hrate⟩, clampInt_self]
      refine ⟨?_, hrate, rfl, fun _ _ => rfl⟩
      rw [hf, ofInt_sext _ (s.rd_lt _)]
    · rw [hsecond, if_neg hsame]
      generalize clampInt (f - 10000) (f + 10000) g = x
      obtain ⟨hdpll, hfreq⟩ := (s.wr Reg.dpllFreqFreq (ofInt 32 x)).dpllTurn_result (rateOf x)
      unfold State.dpllTune
      generalize (s.wr Reg.dpllFreqFreq (ofInt 32 x)).dpllTurn (rateOf x) = t at *
      refine ⟨?_, ?_, ?_, fun h1 h2 => absurd ⟨h1, h2⟩ hsame⟩
      · rw [hfreq, State.rd_wr_same]
        exact Nat.mod_eq_of_lt (ofInt_lt x)
      · rw [hdpll]
        rfl
      · rw [hdpll]
        exact Line.time_turn ..

end Sys2Proof.Machine
end


section
/-! The monitor's second (O31). -/

namespace Sys2Proof.Machine

/-- The entries that a candidate's second may change: its STATUS and REF_FREQ, and the Letterbox's counters. -/
def MonKey (c k : Nat) : Prop := k = (Reg.refStatusState c).key ∨ k = (Reg.refFreqOffset c).key ∨ k ∈ lbKeys

/-- Those that its failure may change besides: MANUAL_REF, where the choice is abandoned. -/
def FailKey (c k : Nat) : Prop := MonKey c k ∨ k = Reg.hearthCtrlManualRef.key

theorem monKey_of_lbKeys {c : Nat} : ∀ k ∈ lbKeys, MonKey c k := fun _ hk => .inr (.inr hk)
theorem failKey_of_lbKeys {c : Nat} : ∀ k ∈ lbKeys, FailKey c k := fun _ hk => .inl (monKey_of_lbKeys _ hk)

/-- Keys of no candidate's STATUS or REF_FREQ, in front of the Letterbox's counters, and behind HEARTH_CTRL. -/
theorem not_failKey {c k : Nat} (hlo : 0x10000001 < k) (hhi : k < 0xD5400000 ∨ 0xE0000000 ≤ k)
    (hown : k ≠ (Reg.refStatusState c).key) (hfreq : k ≠ (Reg.refFreqOffset c).key) : ¬FailKey c k := by
  rintro ((h | h | h) | h)
  · exact hown h
  · exact hfreq h
  · simp only [lbKeys, List.mem_cons, List.not_mem_nil, or_false] at h
    omega
  · dsimp only at h
    omega

section
variable {s t u : State} {c : Nat}

theorem Only.failKey (h : Only (MonKey c) s t) : Only (FailKey c) s t := h.mono fun _ hk => .inl hk

/-- A candidate's rank is of its state and what brings its quality. -/
theorem Only.rank (h : Only (FailKey c) s t) (hc : c < 10) (hst : t.rd (Reg.refStatusState c) = s.rd (Reg.refStatusState c)) :
    t.rank c = s.rank c := by
  have hrd : ∀ f : Fld, f = Reg.refCfgQlSrc c ∨ f = Reg.refCfgQlCfg c ∨ f = Reg.esmcStatusExt (c - 2) ∨ f = Reg.esmcStatusEnhanced (c - 2)
      ∨ f = Reg.esmcStatusSsm (c - 2) ∨ f = Reg.ptpParentGmClass c → t.rd f = s.rd f := by
    rintro f (rfl | rfl | rfl | rfl | rfl | rfl)
    all_goals exact h.rd (not_failKey (by dsimp only; omega) (by dsimp only; omega) (by dsimp only; omega) (by dsimp only; omega))
  unfold State.rank State.on
  rw [hst, hrd (Reg.refCfgQlSrc c) (by simp), hrd (Reg.refCfgQlCfg c) (by simp), hrd (Reg.esmcStatusExt (c - 2)) (by simp),
    hrd (Reg.esmcStatusEnhanced (c - 2)) (by simp), hrd (Reg.esmcStatusSsm (c - 2)) (by simp), hrd (Reg.ptpParentGmClass c) (by simp)]

/-- Whether a candidate may have a signal is of the unit that brings it. -/
theorem Only.signalOk (h : Only (FailKey c) s t) (hc : c < 10) : t.signalOk c = s.signalOk c := by
  have hfar : ∀ f : Fld, 0x11010000 ≤ f.key → f.key < 0xD5400000 ∨ 0xE0000000 ≤ f.key → t.rd f = s.rd f := fun f hlo hhi =>
    h.rd (not_failKey (by omega) hhi (by dsimp only; omega) (by dsimp only; omega))
  have hcfg : t.rd (Reg.refCfgTdmPort c) = s.rd (Reg.refCfgTdmPort c) :=
    h.rd (not_failKey (by dsimp only; omega) (by dsimp only; omega) (by dsimp only; omega) (by dsimp only; omega))
  have hport := s.rd_lt (Reg.refCfgTdmPort c)
  have hdom := s.rd_lt (Reg.wclkOutCfgDomain (c - 4))
  have hon : ∀ f : Fld, 0x11010000 ≤ f.key → f.key < 0xD5400000 ∨ 0xE0000000 ≤ f.key → t.on f = s.on f := fun f hlo hhi =>
    State.on_congr (hfar f hlo hhi)
  dsimp only at hport hdom
  have hservo0 := hfar (Reg.ptpPortStatusServoState 0) (by decide) (by decide)
  have hservo1 := hfar (Reg.ptpPortStatusServoState 1) (by decide) (by decide)
  have hbc := hon Reg.ptpBcBcEnable (by decide) (by decide)
  have hlink0 := hon (Reg.portStatusLink 0) (by decide) (by decide)
  have hlink1 := hon (Reg.portStatusLink 1) (by decide) (by decide)
  have hmaster := hon (Reg.sideCtrlMaster (s.rd (Reg.refCfgTdmPort c)) 1) (by dsimp only; omega) (by dsimp only; omega)
  have hside := hfar (Reg.sideStatusState (s.rd (Reg.refCfgTdmPort c)) 1) (by dsimp only; omega) (by dsimp only; omega)
  have hloop0 := hon Reg.hearthLoopLoop0 (by decide) (by decide)
  have hloop1 := hon Reg.hearthLoopLoop1 (by decide) (by decide)
  have hwclk := hon (Reg.wclkOutCfgMode (c - 4)) (by dsimp only; omega) (by dsimp only; omega)
  have hsel := hfar (Reg.wclkOutCfgDomain (c - 4)) (by dsimp only; omega) (by dsimp only; omega)
  have hruns := hon (Reg.domainRunRunning (s.rd (Reg.wclkOutCfgDomain (c - 4)))) (by dsimp only; omega) (by dsimp only; omega)
  unfold State.signalOk State.looped State.wclkRuns State.running State.linkUp
  simp only [hcfg, hservo0, hservo1, hbc, hlink0, hlink1, hmaster, hside, hloop0, hloop1, hwclk, hsel, hruns]

/-! A failure. -/

theorem State.abandon_only (s : State) (failed : Bool) :
    Only (fun k => k = Reg.hearthCtrlManualRef.key ∨ k ∈ lbKeys) s (s.abandon failed) :=
  .post (.of_get (.wr (.refl _ s) (.inl rfl)) fun _ => rfl) fun _ hk => .inr hk

/-- What a failure leaves of its candidate and of the others (R99). -/
theorem State.refFail_result (s : State) (c cause : Nat) (hc : c < 10) :
    Only (FailKey c) s (s.refFail c cause)
    ∧ (s.rd (Reg.refStatusState c) < 2 → s.refFail c cause = s)
    ∧ (2 ≤ s.rd (Reg.refStatusState c) → (s.refFail c cause).rd (Reg.refStatusState c) = 1
      ∧ (s.refFail c cause).rd (Reg.refStatusCause c) = cause % 2 ^ 4
      ∧ (3 ≤ s.rd (Reg.refStatusState c) → (s.refFail c cause).rd (Reg.refStatusHasFailed c) = 1))
    ∧ (s.refFail c cause).rd (Reg.refStatusDegraded c) = s.rd (Reg.refStatusDegraded c)
    ∧ (s.refFail c cause).rd (Reg.refFreqOffset c) = s.rd (Reg.refFreqOffset c) := by
  by_cases hst : s.rd (Reg.refStatusState c) < 2
  · have hstay : s.refFail c cause = s := if_pos hst
    rw [hstay]
    exact ⟨.refl _ s, fun _ => rfl, fun h => absurd hst (Nat.not_lt.mpr h), rfl, rfl⟩
  · set u := if s.rd (Reg.refStatusState c) = 2 then s else s.wr (Reg.refStatusHasFailed c) 1 with hu
    set w := u.refGo c 1 (some cause) 0 with hw
    have hfail : s.refFail c cause = if w.hearth.waiting && w.rd Reg.hearthCtrlManualRef == c then w.abandon true else w := if_neg hst
    have honlyU : Only (FailKey c) s u := .ite (.refl _ s) (.wr (.refl _ s) (.inl (.inl rfl)))
    have hrdU : ∀ f : Fld, f = Reg.refStatusState c ∨ f = Reg.refStatusDegraded c ∨ f = Reg.refFreqOffset c → u.rd f = s.rd f := by
      intro f hf
      rw [hu]
      split
      · rfl
      · refine State.rd_wr_other _ _ ?_
        obtain rfl | rfl | rfl := hf
        all_goals dsimp only; omega
    obtain ⟨hstate, -, hcause, hother⟩ := u.refEntered_rd c 1 (some cause) 0
    obtain ⟨-, -, hget⟩ := u.refEntered_keep c 1 (some cause) 0
    have honlyLb := u.refGo_only c 1 (some cause) 0
    have hnotLb := refStatus_not_lb hc
    have hfreqLb : (Reg.refFreqOffset c).key ∉ lbKeys := by
      simp only [lbKeys, List.mem_cons, List.not_mem_nil, or_false]
      omega
    have honlyW : Only (FailKey c) s w := honlyU.trans fun k hk =>
      (honlyLb.regs k fun hl => hk (failKey_of_lbKeys k hl)).trans (hget k fun he => hk (.inl (.inl he)))
    have hlast : Only (fun k => k = Reg.hearthCtrlManualRef.key ∨ k ∈ lbKeys) w (s.refFail c cause) := by
      rw [hfail]
      exact .ite (w.abandon_only true) (.refl _ w)
    have hapart : ∀ f : Fld, f.key = (Reg.refStatusState c).key ∨ f = Reg.refFreqOffset c → (s.refFail c cause).rd f = w.rd f := by
      intro f hf
      refine hlast.rd ?_
      rintro (h | h)
      · obtain hf | rfl := hf
        · rw [hf] at h; dsimp only at h; omega
        · dsimp only at h; omega
      · obtain hf | rfl := hf
        · rw [hf] at h; exact hnotLb h
        · exact hfreqLb h
    have hrdW : ∀ f : Fld, f.key = (Reg.refStatusState c).key → w.rd f = (u.refEntered c 1 (some cause) 0).rd f := fun f hf =>
      honlyLb.rd (by rw [hf]; exact hnotLb)
    refine ⟨honlyW.trans (hlast.mono fun k hk => ?_), fun h => absurd h hst, fun h2 => ⟨?_, ?_, fun h3 => ?_⟩, ?_, ?_⟩
    · exact hk.elim .inr (failKey_of_lbKeys k)
    · rw [hapart _ (.inl rfl), hrdW _ rfl, hstate]
      rfl
    · rw [hapart (Reg.refStatusCause c) (.inl rfl), hrdW (Reg.refStatusCause c) rfl, hcause]
    · rw [hapart (Reg.refStatusHasFailed c) (.inl rfl), hrdW (Reg.refStatusHasFailed c) rfl,
        hother _ (by dsimp only; omega) (.inl (by dsimp only; omega)), hu, if_neg (by omega), State.rd_wr_same]
      rfl
    · rw [hapart (Reg.refStatusDegraded c) (.inl rfl), hrdW (Reg.refStatusDegraded c) rfl,
        hother _ (by dsimp only; omega) (.inl (by dsimp only; omega)), hrdU _ (.inr (.inl rfl))]
    · rw [hapart _ (.inr rfl), honlyLb.rd hfreqLb, State.rd_congr (hget _ (by dsimp only; omega)), hrdU _ (.inr (.inr rfl))]

/-! The second of a candidate that has a signal. -/

/-- The state in which candidate `c`'s timer has counted one second down. -/
def State.counted (s : State) (c : Nat) : State :=
  if 1 < s.rd (Reg.refStatusTimer c) then s.wr (Reg.refStatusTimer c) (s.rd (Reg.refStatusTimer c) - 1) else s

/-- The mean of the last WINDOW seconds measured, `off` the latest (R97). -/
def State.monitorMean (s : State) (c : Nat) (off : Int) : Int :=
  let l := ((off :: (s.cand c).offs).take 64).take (s.rd (Reg.refMonCfgWindow c))
  clampInt (-2147483648) 2147483647 (l.sum / (l.length : Int))

/-- The state in which a second's measurement of candidate `c` is kept. -/
def State.measured (s : State) (c : Nat) (off : Int) (edge : Nat) : State :=
  (s.setCand c { s.cand c with signal := true, offs := (off :: (s.cand c).offs).take 64, edge := edge }).wr (Reg.refFreqOffset c)
    (ofInt 32 (s.monitorMean c off))

theorem State.cand_setCand (s : State) (c : Nat) (x : Cand) : (s.setCand c x).cand c = x := Sparse.get_put_same ..

theorem State.measured_result (s : State) (c : Nat) (off : Int) (edge : Nat) : Only (MonKey c) s (s.measured c off edge)
    ∧ (s.measured c off edge).rd (Reg.refFreqOffset c) = ofInt 32 (s.monitorMean c off)
    ∧ ((s.measured c off edge).cand c).esmcOut = (s.cand c).esmcOut
    ∧ ∀ f : Fld, f.key ≠ (Reg.refFreqOffset c).key → (s.measured c off edge).rd f = s.rd f := by
  unfold State.measured
  refine ⟨.wr (.of_get (.refl _ s) fun _ => rfl) (.inr (.inl rfl)), ?_, ?_, fun f hf => State.rd_wr_ne _ _ hf⟩
  · exact (State.rd_wr_same ..).trans (Nat.mod_eq_of_lt (ofInt_lt _))
  · show ((s.setCand c _).cand c).esmcOut = _
    rw [State.cand_setCand]

/-- DEGRADED of a mean beyond SOFT, within nine tenths of it, and between (R98). -/
def newDegraded (soft mean : Int) (old : Bool) : Bool :=
  if soft < mean.natAbs then true else if (mean.natAbs : Int) * 10 ≤ soft * 9 then false else old

/-- The state in which DEGRADED is judged (R98). -/
def State.degraded (s : State) (c : Nat) (mean : Int) : State :=
  let new := newDegraded (s.rd (Reg.refMonCfgSoft c) * 10) mean (s.on (Reg.refStatusDegraded c))
  if new != s.on (Reg.refStatusDegraded c) then
    (s.flag (Reg.refStatusDegraded c) new).post 0x1003 4 [pack [(0, c), (4, b2n new)], ofInt 32 mean]
  else s

/-- The state in which a mean beyond HARD fails, and one well within it lets a failed candidate qualify (R98, R99). -/
def State.judged (s : State) (c : Nat) (hard mean : Int) : State :=
  if hard < mean.natAbs then s.refFail c 2
  else if s.rd (Reg.refStatusState c) = 1 && s.rank c < 6 && !((s.cand c).esmcOut && s.rd (Reg.refCfgQlSrc c) == 1)
      && (mean.natAbs : Int) * 10 ≤ hard * 9 then
    s.refGo c 2 none (s.rd (Reg.refMonCfgQualTime c))
  else s

/-- The reads of a candidate's limits stay over what a second changes. -/
theorem Only.limits (h : Only (FailKey c) s t) (hc : c < 10) : t.rd (Reg.refMonCfgSoft c) = s.rd (Reg.refMonCfgSoft c)
    ∧ t.rd (Reg.refMonCfgHard c) = s.rd (Reg.refMonCfgHard c) ∧ t.rd (Reg.refMonCfgWindow c) = s.rd (Reg.refMonCfgWindow c)
    ∧ t.rd (Reg.refMonCfgQualTime c) = s.rd (Reg.refMonCfgQualTime c) ∧ t.rd (Reg.refCfgQlSrc c) = s.rd (Reg.refCfgQlSrc c) := by
  refine ⟨?_, ?_, ?_, ?_, ?_⟩
  all_goals exact h.rd (not_failKey (by dsimp only; omega) (by dsimp only; omega) (by dsimp only; omega) (by dsimp only; omega))

/-- A second counted down leaves the rest of the candidate. -/
theorem State.counted_result (s : State) (c : Nat) : Only (MonKey c) s (s.counted c) ∧ (s.counted c).hearth = s.hearth
    ∧ (s.counted c).rd (Reg.refStatusTimer c) =
      (if 1 < s.rd (Reg.refStatusTimer c) then s.rd (Reg.refStatusTimer c) - 1 else s.rd (Reg.refStatusTimer c))
    ∧ ∀ f : Fld, f.lo + f.w ≤ 22 → (s.counted c).rd f = s.rd f := by
  unfold State.counted
  split
  · refine ⟨.wr (.refl _ s) (.inl rfl), rfl, ?_, fun f hf => State.rd_wr_other _ _ (by dsimp only; omega)⟩
    rw [State.rd_wr_same]
    have := s.rd_lt (Reg.refStatusTimer c)
    exact Nat.mod_eq_of_lt (by dsimp only at this ⊢; omega)
  · exact ⟨.refl _ s, rfl, rfl, fun _ _ => rfl⟩

/-- The second of a candidate that is not OFF (R97 to R99). -/
theorem State.monitor_eq (s : State) (c : Nat) (present : Bool) (off : Int) (edge : Nat) (hst : s.rd (Reg.refStatusState c) ≠ 0) :
    s.monitor c present off edge = if !(present && (s.counted c).signalOk c) then ((s.counted c).noSignal c).refFail c 1
      else (((s.counted c).measured c off edge).degraded c ((s.counted c).monitorMean c off)).judged c
        (((s.counted c).measured c off edge).rd (Reg.refMonCfgHard c) * 10) ((s.counted c).monitorMean c off) :=
  if_neg hst

theorem b2n_on (f : Fld) (hw : f.w = 1) (s : State) : b2n (s.on f) = s.rd f := by
  have hlt := s.rd_lt f
  rw [hw] at hlt
  unfold State.on b2n
  by_cases h : s.rd f = 0
  · simp [h]
  · have : s.rd f = 1 := by omega
    simp [this]

/-- What the judgement of DEGRADED leaves. -/
theorem State.degraded_result (s : State) (c : Nat) (mean : Int) (hc : c < 10) :
    Only (MonKey c) s (s.degraded c mean) ∧ (s.degraded c mean).hearth = s.hearth
    ∧ (s.degraded c mean).rd (Reg.refStatusDegraded c) =
      b2n (newDegraded (s.rd (Reg.refMonCfgSoft c) * 10) mean (s.on (Reg.refStatusDegraded c)))
    ∧ ∀ f : Fld, f.key ∉ lbKeys → f.key ≠ (Reg.refStatusState c).key ∨ f.lo + f.w ≤ 3 ∨ 4 ≤ f.lo →
      (s.degraded c mean).rd f = s.rd f := by
  unfold State.degraded
  dsimp only
  generalize newDegraded (s.rd (Reg.refMonCfgSoft c) * 10) mean (s.on (Reg.refStatusDegraded c)) = new
  have hlb := refStatus_not_lb hc
  split
  next hchange =>
    refine ⟨.post (.flag (.refl _ s) (.inl rfl)) monKey_of_lbKeys, State.post_hearth .., ?_, fun f hf hparts => ?_⟩
    · rw [State.post_rd (f := Reg.refStatusDegraded c) _ _ _ _ hlb, State.rd_flag_same _ _ _ Nat.one_pos]
    · rw [State.post_rd _ _ _ _ hf]
      exact State.rd_wr_other s (f := Reg.refStatusDegraded c) _ hparts
  next hsame =>
    refine ⟨.refl _ s, rfl, ?_, fun _ _ _ => rfl⟩
    have : new = s.on (Reg.refStatusDegraded c) := by simpa using hsame
    rw [this, b2n_on _ rfl]

/-- What the judgement of HARD leaves. -/
theorem State.judged_result (s : State) (c : Nat) (hard mean : Int) (hc : c < 10) :
    Only (FailKey c) s (s.judged c hard mean)
    ∧ (s.judged c hard mean).rd (Reg.refStatusDegraded c) = s.rd (Reg.refStatusDegraded c)
    ∧ (s.judged c hard mean).rd (Reg.refFreqOffset c) = s.rd (Reg.refFreqOffset c)
    ∧ (hard < mean.natAbs → s.judged c hard mean = s.refFail c 2)
    ∧ (¬hard < mean.natAbs → (s.rd (Reg.refStatusState c) = 1 → s.rank c < 6 →
        (s.cand c).esmcOut = false ∨ s.rd (Reg.refCfgQlSrc c) ≠ 1 → (mean.natAbs : Int) * 10 ≤ hard * 9 →
        (s.judged c hard mean).rd (Reg.refStatusState c) = 2
        ∧ (s.judged c hard mean).rd (Reg.refStatusTimer c) = s.rd (Reg.refMonCfgQualTime c) % 2 ^ 10)
      ∧ (s.rd (Reg.refStatusState c) ≠ 1 ∨ hard * 9 < (mean.natAbs : Int) * 10 ∨ 6 ≤ s.rank c
        ∨ ((s.cand c).esmcOut = true ∧ s.rd (Reg.refCfgQlSrc c) = 1) → s.judged c hard mean = s)) := by
  by_cases hfail : hard < mean.natAbs
  · have heq : s.judged c hard mean = s.refFail c 2 := if_pos hfail
    obtain ⟨honly, -, -, hdeg, hfreq⟩ := s.refFail_result c 2 hc
    rw [heq]
    exact ⟨honly, hdeg, hfreq, fun _ => rfl, fun h => absurd hfail h⟩
  · by_cases hgo : s.rd (Reg.refStatusState c) = 1 ∧ s.rank c < 6 ∧ ((s.cand c).esmcOut = false ∨ s.rd (Reg.refCfgQlSrc c) ≠ 1)
        ∧ (mean.natAbs : Int) * 10 ≤ hard * 9
    · have heq : s.judged c hard mean = s.refGo c 2 none (s.rd (Reg.refMonCfgQualTime c)) := by
        refine (if_neg hfail).trans (if_pos ?_)
        obtain ⟨hst, hrank, hesmc, hmean⟩ := hgo
        obtain hesmc | hesmc := hesmc <;> simpa [hst, hrank, hesmc] using hmean
      have honlyLb := s.refGo_only c 2 none (s.rd (Reg.refMonCfgQualTime c))
      obtain ⟨hstate, htimer, -, hother⟩ := s.refEntered_rd c 2 none (s.rd (Reg.refMonCfgQualTime c))
      obtain ⟨-, -, hget⟩ := s.refEntered_keep c 2 none (s.rd (Reg.refMonCfgQualTime c))
      have hlb := refStatus_not_lb hc
      have hfreqLb : (Reg.refFreqOffset c).key ∉ lbKeys := by
        simp only [lbKeys, List.mem_cons, List.not_mem_nil, or_false]
        omega
      rw [heq]
      refine ⟨fun k hk => (honlyLb.regs k fun hl => hk (failKey_of_lbKeys k hl)).trans (hget k fun he => hk (.inl (.inl he))), ?_, ?_,
        fun h => absurd h hfail, fun _ => ⟨fun _ _ _ _ => ⟨(honlyLb.rd hlb).trans hstate, ?_⟩, fun hstay => ?_⟩⟩
      · rw [honlyLb.rd (f := Reg.refStatusDegraded c) hlb, hother _ (by dsimp only; omega) (.inl (by dsimp only; omega))]
      · rw [honlyLb.rd hfreqLb, State.rd_congr (hget _ (by dsimp only; omega))]
      · rw [honlyLb.rd (f := Reg.refStatusTimer c) hlb, htimer]
      · obtain ⟨hst, hrank, hesmc, hmean⟩ := hgo
        obtain h | h | h | ⟨h1, h2⟩ := hstay
        · exact absurd hst h
        · omega
        · omega
        · obtain h | h := hesmc
          · simp [h] at h1
          · exact absurd h2 h
    · have heq : s.judged c hard mean = s := by
        refine (if_neg hfail).trans (if_neg fun h => hgo ?_)
        simp only [Bool.and_eq_true, Bool.not_eq_true', Bool.and_eq_false_iff, decide_eq_true_eq, beq_eq_false_iff_ne] at h
        obtain ⟨⟨⟨hst, hrank⟩, hesmc⟩, hmean⟩ := h
        exact ⟨hst, hrank, hesmc, hmean⟩
      rw [heq]
      exact ⟨.refl _ s, rfl, rfl, fun h => absurd h hfail, fun _ => ⟨fun h1 h2 h3 h4 => absurd ⟨h1, h2, h3, h4⟩ hgo, fun _ => rfl⟩⟩

end

/-- Settles O31. A second is counted down, measured, and judged by SOFT and by HARD. -/
theorem monitorSecond : Obligations.MonitorSecond := by
  refine fun s => ⟨fun meas => ?row, fun c present off edge hc => ⟨fun hst => if_pos hst, fun hst htimer hno => ?signal,
    fun hst hpresent hok l mean t hl hmean ht => ?measured⟩⟩
  case row =>
    refine congrArg (fun f => Host.Outcome.next (s.scatter (State.dpllSecond (State.settleRefs (s.gather.units 10 f)))))
      (funext fun t => funext fun c => ?_)
    have hfound : ∀ o : Option RefMeas, (match o with | some m => t.monitor c m.present m.off m.edge | none => t) =
        (o.map (fun m => t.monitor c m.present m.off m.edge)).getD t := by
      rintro (_ | m) <;> rfl
    exact congrArg (fun x => if c < 2 then _ else if t.looped c = true then _ else x) (hfound _)
  case signal =>
    have hstay : s.counted c = s := if_neg (Nat.not_lt.mpr htimer)
    rw [s.monitor_eq c present off edge hst, hstay, if_pos]
    obtain h | h := hno <;> simp [h]
  case measured =>
    obtain ⟨honly, hhearth, htimer, hkept⟩ := s.counted_result c
    have hok' : (s.counted c).signalOk c = true := (honly.failKey.signalOk hc).trans hok
    have hcand : (s.counted c).cand c = s.cand c := by
      unfold State.cand
      rw [hhearth]
    have hmean' : (s.counted c).monitorMean c off = mean := by
      rw [hmean, hl]
      unfold State.monitorMean
      rw [hcand, (honly.failKey.limits hc).2.2.1]
    have heq := s.monitor_eq c present off edge hst
    rw [hpresent, hok', if_neg (by simp), hmean'] at heq
    obtain ⟨honlyM, hfreqM, hesmcM, hkeptM⟩ := (s.counted c).measured_result c off edge
    rw [hmean'] at hfreqM
    rw [hpresent, heq] at ht
    generalize hm : (s.counted c).measured c off edge = m at *
    obtain ⟨honlyG, hhearthG, hdegG, hkeptG⟩ := m.degraded_result c mean hc
    obtain ⟨honlyJ, hdegJ, hfreqJ, hfailJ, hgoJ⟩ := (m.degraded c mean).judged_result c (m.rd (Reg.refMonCfgHard c) * 10) mean hc
    have hsm : Only (FailKey c) s m := honly.failKey.trans honlyM.failKey
    have hsg : Only (FailKey c) s (m.degraded c mean) := hsm.trans honlyG.failKey
    obtain ⟨hsoft, hhard, -, -, -⟩ := hsm.limits hc
    obtain ⟨-, -, -, hqual, hqlsrc⟩ := hsg.limits hc
    have hlb := refStatus_not_lb hc
    have hstM : ∀ f : Fld, f.key = (Reg.refStatusState c).key → f.lo + f.w ≤ 22 → m.rd f = s.rd f := fun f hf hw =>
      (hkeptM f (by rw [hf]; dsimp only; omega)).trans (hkept f hw)
    have hstG : (m.degraded c mean).rd (Reg.refStatusState c) = s.rd (Reg.refStatusState c) :=
      (hkeptG _ hlb (.inr (.inl (by dsimp only; omega)))).trans (hstM _ rfl (by dsimp only; omega))
    have htimerG : (m.degraded c mean).rd (Reg.refStatusTimer c) = (s.counted c).rd (Reg.refStatusTimer c) :=
      (hkeptG (Reg.refStatusTimer c) hlb (.inr (.inr (by dsimp only; omega)))).trans (hkeptM _ (by dsimp only; omega))
    have hesmcG : ((m.degraded c mean).cand c).esmcOut = (s.cand c).esmcOut := by
      rw [← hcand, ← hesmcM]
      unfold State.cand
      rw [hhearthG]
    have hrankG : (m.degraded c mean).rank c = s.rank c := hsg.rank hc hstG
    have hdegOn : m.on (Reg.refStatusDegraded c) = s.on (Reg.refStatusDegraded c) :=
      State.on_congr (hstM (Reg.refStatusDegraded c) rfl (by dsimp only; omega))
    rw [hsoft, hdegOn] at hdegG
    rw [hhard] at hfailJ hgoJ hdegJ hfreqJ honlyJ ht
    refine ⟨?_, fun soft hsoft => ?_, fun hard hhard => ⟨fun hbeyond => ?_, fun hwithin hfailed hrank hesmc => ?_, fun hbelow hstay => ?_⟩,
      fun x hx hxc => ?_⟩
    · rw [ht, hfreqJ, hkeptG _ (by simp only [lbKeys, List.mem_cons, List.not_mem_nil, or_false]; omega) (.inl (by dsimp only; omega)), hfreqM]
    · rw [ht, hdegJ, hdegG, ← hsoft]
      unfold newDegraded
      split
      · rfl
      · split
        · rfl
        · exact b2n_on _ rfl s
    · rw [← hhard] at hfailJ ht
      rw [ht, hfailJ hbeyond]
      obtain ⟨-, hstays, hfails, -, -⟩ := (m.degraded c mean).refFail_result c 2 hc
      rw [hstG] at hstays hfails
      by_cases h2 : s.rd (Reg.refStatusState c) < 2
      · rw [hstays h2, hstG]
        exact ⟨by omega, fun h => absurd h2 (Nat.not_lt.mpr h), fun h => absurd h2 (by omega)⟩
      · obtain ⟨hstate, hcause, hhas⟩ := hfails (Nat.not_lt.mp h2)
        exact ⟨hstate, fun _ => hcause, hhas⟩
    · have hnot : ¬hard < mean.natAbs := by omega
      rw [← hhard, hstG, hrankG, hesmcG, hqlsrc, hqual] at hgoJ
      rw [← hhard] at ht
      rw [ht]
      exact (hgoJ hnot).1 hfailed hrank hesmc hwithin
    · rw [← hhard, hstG, hrankG, hesmcG, hqlsrc] at hgoJ
      rw [← hhard] at ht
      rw [ht, (hgoJ (not_lt.mpr hbelow)).2 hstay, hstG, htimerG, htimer]
      exact ⟨rfl, rfl⟩
    · rw [ht]
      exact (hsg.trans honlyJ).rd (not_failKey (by dsimp only; omega) (by dsimp only; omega) (by dsimp only; omega) (by dsimp only; omega))

end Sys2Proof.Machine
end


section
/-! What RC's advance may change of the dictionary: the views' lines and schedules, the DPLL's frequency, the slewing flags and the
Letterbox's counters (R62 to R64, R113 to R118). -/

namespace Sys2Proof.Machine

/-- The entries that a schedule's application may change. -/
def AdvKey (k : Nat) : Prop :=
  (∃ v, k = (Reg.tvOffsetOffset v).key ∨ k = (Reg.tvRateRate v).key ∨ k = (Reg.tvStatusPending v).key ∨ k = (Reg.tvLastApplyA v).key)
  ∨ k = Reg.dpllFreqFreq.key ∨ k = Reg.outSlewStatusTdm.key ∨ (∃ j, k = (Reg.sideStatusSlewing (j / 2) (j % 2)).key) ∨ k ∈ lbKeys

theorem advKey_of_lbKeys : ∀ k ∈ lbKeys, AdvKey k := fun _ hk => .inr (.inr (.inr (.inr hk)))

section
variable {s t : State}

theorem advKey_view (v : Nat) : AdvKey (Reg.tvOffsetOffset v).key ∧ AdvKey (Reg.tvRateRate v).key ∧ AdvKey (Reg.tvStatusPending v).key
    ∧ AdvKey (Reg.tvLastApplyA v).key :=
  ⟨.inl ⟨v, .inl rfl⟩, .inl ⟨v, .inr (.inl rfl)⟩, .inl ⟨v, .inr (.inr (.inl rfl))⟩, .inl ⟨v, .inr (.inr (.inr rfl))⟩⟩

theorem Only.schedule {v : Nat} {at_ rate step : Option Nat} {owner : Bool} (h : Only AdvKey s t) :
    Only AdvKey s (t.schedule v at_ rate step owner) := by
  obtain ⟨-, -, hstatus, -⟩ := advKey_view v
  unfold State.schedule
  extract_lets late a u
  exact .wr (.of_get (t := u) (.ite (.wr h hstatus) h) fun _ => rfl) hstatus

theorem Only.unschedule {v : Nat} (h : Only AdvKey s t) : Only AdvKey s (t.unschedule v) :=
  .wr (.of_get h fun _ => rfl) (advKey_view v).2.2.1

theorem Only.hearthWrite {v : Nat} {rate : Option Nat} {d : Int} (h : Only AdvKey s t) : Only AdvKey s (t.hearthWrite v rate d) := by
  unfold State.hearthWrite
  exact .schedule h

theorem Only.changeView {v : Nat} {c : Sched} (h : Only AdvKey s t) : Only AdvKey s (t.changeView v c) := by
  obtain ⟨hoffset, hrate, hstatus, hlast⟩ := advKey_view v
  rw [State.changeView_eq]
  refine .of_get ?_ (State.viewNoted_keep _ v c).1
  unfold State.viewOwned
  have hturned : Only AdvKey s (t.viewTurned v c) := .wr (.wr (.wr (.of_get h fun _ => rfl) hoffset) hrate) hlast
  exact .ite (.wr hturned hstatus) hturned

theorem Only.setOutSlew {o : Nat} {e : Slew} (h : Only AdvKey s t) : Only AdvKey s (t.setOutSlew o e) := by
  refine .flag (.of_get h fun _ => rfl) (.inr (.inr (.inl ?_)))
  unfold slewFlag
  split <;> rfl

theorem Only.setSideSlew {k : Nat} {e : Slew} (h : Only AdvKey s t) : Only AdvKey s (t.setSideSlew k e) :=
  .flag (.flag (.of_get h fun _ => rfl) (.inr (.inr (.inr (.inl ⟨k, rfl⟩))))) (.inr (.inr (.inl rfl)))

theorem Only.hearthStep {d : Int} {moveView : Bool} (h : Only AdvKey s t) : Only AdvKey s (t.hearthStep d moveView) := by
  unfold State.hearthStep
  refine .ite h (.units (.units (.units (.units (.units h fun u k _ hu => .ite ?_ hu) fun u v _ hu => .ite hu.hearthWrite hu)
    fun u c _ hu => ?_) fun u w _ hu => .ite hu.setOutSlew hu) fun u k _ hu => .ite ?_ hu)
  · exact .units (.of_get hu fun _ => rfl) fun w v _ hw => .of_get hw fun _ => rfl
  · unfold State.convStep
    exact .ite (.of_get hu fun _ => rfl) hu
  · exact .setSideSlew (.of_get hu fun _ => rfl)

theorem Only.dpllTurn {rate : Nat} (h : Only AdvKey s t) : Only AdvKey s (t.dpllTurn rate) :=
  .units (.of_get h fun _ => rfl) fun _ _ _ hu => .ite hu.hearthWrite hu

theorem Only.dpllFollow (h : Only AdvKey s t) : Only AdvKey s t.dpllFollow := by
  unfold State.dpllFollow
  exact .ite (.of_get (.dpllTurn (.wr h (.inr (.inl rfl)))) fun _ => rfl) h

theorem Only.viewChanged {v : Nat} {d : Int} {owner : Bool} (h : Only AdvKey s t) : Only AdvKey s (t.viewChanged v d owner) := by
  unfold State.viewChanged
  extract_lets u c
  have hu : Only AdvKey s u := .ite h.setOutSlew h
  exact .ite (.ite (.hearthStep (.of_get hu fun _ => rfl)) hu) (.ite (.hearthStep hu.dpllFollow) hu)

theorem Only.reach {K : Nat → Prop} {rc : Nat} (h : Only K s t) : Only K s (t.reach rc) := by
  unfold State.reach
  exact .ite (.of_get h fun _ => rfl) h

theorem Only.applyDue {n rc : Nat} (h : Only AdvKey s t) : Only AdvKey s (t.applyDue n rc) := by
  induction n generalizing t with
  | zero => exact h
  | succ n ih =>
    unfold State.applyDue
    split
    next v c _ =>
      have hgo : ∀ u, Only AdvKey s u → Only AdvKey s ((u.applySchedule v c).viewChanged v (sext 96 (c.step.getD 0)) c.owner) :=
        fun u hu => .viewChanged (.changeView (.unschedule (.reach hu)))
      exact ih (.ite (h.apart advKey_of_lbKeys hgo) (h.together advKey_of_lbKeys hgo))
    next => exact h

theorem Only.advance {rc : Nat} (h : Only AdvKey s t) : Only AdvKey s (t.advance rc) := .reach h.applyDue

end

/-- What RC's advance leaves. -/
theorem State.advance_only (s : State) (rc : Nat) : Only AdvKey s (s.advance rc) := .advance (.refl AdvKey s)

/-- An entry behind the views' schedules' fields, by its number. -/
theorem not_advKey_tvSource (v : Nat) (hv : v < 4) : ¬AdvKey (Reg.tvSource v).key := by
  rintro (⟨w, h⟩ | h | h | ⟨j, h⟩ | h)
  · dsimp only at h; omega
  · dsimp only at h; omega
  · dsimp only at h; omega
  · dsimp only at h; omega
  · simp only [lbKeys, List.mem_cons, List.not_mem_nil, or_false] at h
    omega

end Sys2Proof.Machine
end


section
/-! DPLL time and what follows it (O33): the grid, the word clocks' edges, the slews' ends, the view the Hearth steers, PPS_OUT. -/

namespace Sys2Proof.Machine

/-! What is written twice stands as it was written last. -/

theorem Sparse.put_put {α : Type} [DecidableEq α] (d : Nat → α) (m : Sparse α) (k : Nat) (v w : α) :
    Sparse.put d (Sparse.put d m k v) k w = Sparse.put d m k w := by
  have hdrop : ∀ r : Sparse α, (r.dropWhile fun p => decide (p.1 ≤ k)).dropWhile (fun p => decide (p.1 ≤ k)) =
      r.dropWhile fun p => decide (p.1 ≤ k) := fun r => List.dropWhile_idempotent _ r
  have hfront : ∀ r : Sparse α, Sparse.put d (r.dropWhile fun p => decide (p.1 ≤ k)) k w =
      if w = d k then r.dropWhile (fun p => decide (p.1 ≤ k)) else (k, w) :: r.dropWhile (fun p => decide (p.1 ≤ k)) := by
    intro r
    induction r with
    | nil => rfl
    | cons p r ih =>
      by_cases hp : p.1 ≤ k
      · rw [List.dropWhile_cons_of_pos (by simpa using hp)]
        exact ih
      · rw [List.dropWhile_cons_of_neg (by simpa using hp)]
        exact if_pos (Nat.not_le.mp hp)
  induction m with
  | nil =>
    by_cases hv : v = d k
    · rw [show Sparse.put d [] k v = [] from if_pos hv]
    · rw [show Sparse.put d [] k v = [(k, v)] from if_neg hv]
      exact (if_neg (Nat.lt_irrefl k)).trans (if_pos rfl)
  | cons p r ih =>
    obtain ⟨a, x⟩ := p
    by_cases hlt : k < a
    · have hdropA : List.dropWhile (fun p => decide (p.1 ≤ k)) ((a, x) :: r) = (a, x) :: r :=
        List.dropWhile_cons_of_neg (by simpa using hlt)
      rw [Sparse.put, if_pos hlt]
      split
      · rfl
      · simp [Sparse.put, hlt, hdropA]
    · by_cases heq : a = k
      · subst heq
        rw [Sparse.put, if_neg hlt, if_pos rfl, Sparse.put, if_neg hlt, if_pos rfl]
        split
        · exact hfront r
        · simp [Sparse.put, hdrop]
      · have hcons : ∀ l y, Sparse.put d ((a, x) :: l) k y = (a, x) :: Sparse.put d l k y := fun l y => by
          rw [Sparse.put, if_neg hlt, if_neg heq]
        rw [hcons, hcons, hcons, ih]

theorem setField_setField (n lo w x y : Nat) : setField (setField n lo w x) lo w y = setField n lo w y := by
  refine Nat.eq_of_testBit_eq fun i => ?_
  simp only [testBit_setField]
  by_cases hlo : i < lo
  · simp only [if_pos hlo]
  · by_cases hhi : i < lo + w
    · simp only [if_neg hlo, if_pos hhi]
    · simp only [if_neg hlo, if_neg hhi]

theorem State.wr_wr (s : State) (f : Fld) (x y : Nat) : (s.wr f x).wr f y = s.wr f y := by
  unfold State.wr
  rw [State.get_put_same, setField_setField]
  exact congrArg (fun m => { s with regs := m }) (Sparse.put_put ..)

/-- A schedule that replaces another at the next RC leaves nothing of it (R64). -/
theorem State.schedule_schedule (s : State) (v : Nat) (r r' d d' : Option Nat) (o : Bool) :
    (s.schedule v none r d o).schedule v none r' d' o = s.schedule v none r' d' o := by
  set x : View := { s.view v with sched := some { at_ := s.rc + 1, rate := r, step := d, owner := o } } with hx
  have hfirst : s.schedule v none r d o = (s.setView v x).wr (Reg.tvStatusPending v) 1 := rfl
  have hview : ((s.setView v x).wr (Reg.tvStatusPending v) 1).view v = x := State.view_setView s v x
  have hsecond : (s.schedule v none r d o).schedule v none r' d' o = (((s.setView v x).setView v
      { x with sched := some { at_ := s.rc + 1, rate := r', step := d', owner := o } }).wr (Reg.tvStatusPending v) 1).wr
        (Reg.tvStatusPending v) 1 := by
    rw [hfirst]
    unfold State.schedule
    simp only [Bool.false_eq_true, if_false]
    rw [hview]
    rfl
  have hviews : (s.setView v x).setView v { x with sched := some { at_ := s.rc + 1, rate := r', step := d', owner := o } } =
      s.setView v { s.view v with sched := some { at_ := s.rc + 1, rate := r', step := d', owner := o } } :=
    congrArg (fun m => { s with time := { s.time with views := m } }) (Sparse.put_put ..)
  rw [hsecond, State.wr_wr, hviews]
  rfl

/-- Of units of which one alone acts, the fold is its act. -/
theorem State.each_single {α : Type} {f : State → α → State} {x : α} {s : State} :
    ∀ {l : List α}, x ∈ l → l.Nodup → (∀ y ∈ l, y ≠ x → f s y = s) → (∀ y ∈ l, y ≠ x → f (f s x) y = f s x) → s.each l f = f s x := by
  have hidle : ∀ {l : List α} {t : State}, (∀ y ∈ l, f t y = t) → t.each l f = t := by
    intro l t h
    induction l with
    | nil => rfl
    | cons y r ih =>
      show (f t y).each r f = t
      rw [h y List.mem_cons_self]
      exact ih fun z hz => h z (List.mem_cons_of_mem y hz)
  intro l hx hnodup hbefore hafter
  induction l with
  | nil => cases hx
  | cons y r ih =>
    obtain ⟨hy, hr⟩ := List.nodup_cons.mp hnodup
    show (f s y).each r f = f s x
    by_cases hyx : y = x
    · subst hyx
      exact hidle fun z hz => hafter z (List.mem_cons_of_mem y hz) fun he => hy (he ▸ hz)
    · rw [hbefore y List.mem_cons_self hyx]
      exact ih ((List.mem_cons.mp hx).resolve_left (Ne.symm hyx)) hr (fun z hz => hbefore z (List.mem_cons_of_mem y hz))
        fun z hz => hafter z (List.mem_cons_of_mem y hz)

theorem State.units_single {f : State → Nat → State} {k n : Nat} {s : State} (hk : k < n) (hbefore : ∀ j < n, j ≠ k → f s j = s)
    (hafter : ∀ j < n, j ≠ k → f (f s k) j = f s k) : s.units n f = f s k :=
  State.each_single (List.mem_range.mpr hk) List.nodup_range (fun j hj => hbefore j (List.mem_range.mp hj))
    fun j hj => hafter j (List.mem_range.mp hj)

theorem State.units_idle {f : State → Nat → State} {n : Nat} {s : State} (h : ∀ j < n, f s j = s) : s.units n f = s :=
  State.units_keeps (P := fun t => t = s) rfl fun u k hk hu => by rw [hu]; exact h k hk

/-! The grid of DPLL time. -/

theorem reduceHalf_spec (x : Int) {p : Nat} (hp : 0 < p) :
    (x - reduceHalf x p) % p = 0 ∧ -(p : Int) < 2 * reduceHalf x p ∧ 2 * reduceHalf x p ≤ p := by
  have hpos : (0 : Int) < p := by exact_mod_cast hp
  have hmod := Int.emod_nonneg x hpos.ne'
  have hlt := Int.emod_lt_of_pos x hpos
  have hdiv : (x - x % p) % p = 0 := by
    rw [Int.sub_emod, Int.emod_emod_of_dvd _ (dvd_refl _), sub_self, Int.zero_emod]
  unfold reduceHalf
  split
  · exact ⟨hdiv, by omega, by omega⟩
  · refine ⟨?_, by omega, by omega⟩
    rw [show x - (x % p - p) = (x - x % p) + p by ring, Int.add_emod_right]
    exact hdiv

section
variable {s u : State}

theorem State.gridNow_spec (s : State) (d : Nat) :
    s.dpllNow * s.domRate d ≤ s.gridNow d * secondU ∧ s.gridNow d * secondU < s.dpllNow * s.domRate d + secondU := by
  unfold State.gridNow
  generalize s.dpllNow * s.domRate d = x
  unfold secondU
  omega

theorem State.gridShift_spec (s : State) (d : Nat) (x : Int) :
    -(secondU : Int) < 2 * (x * s.domRate d - s.gridShift d x * secondU)
    ∧ 2 * (x * s.domRate d - s.gridShift d x * secondU) ≤ secondU := by
  unfold State.gridShift
  generalize x * (s.domRate d : Int) = y
  obtain ⟨hmod, hlo, hhi⟩ := reduceHalf_spec y (p := secondU) (by decide)
  have hdiv := Int.mul_ediv_cancel_of_emod_eq_zero hmod
  generalize hq : (y - reduceHalf y secondU) / (secondU : Int) = q at *
  rw [mul_comm] at hdiv
  rw [hdiv]
  constructor <;> omega

/-! The word clocks. -/

/-- What edge `k` of domain `d` at point `q` does to WCLK_OUT `w` (R119). -/
def State.wclkEdge (d : Nat) (k : Int) (q : Nat) (s : State) (w : Nat) : State :=
  if s.wclkRuns w && s.rd (Reg.wclkOutCfgDomain w) == d && k % (s.wclkHz w).2 == 0 then
    let x := ((q : Int) + (s.outSlew w).left s.slewMax q / 32768).toNat
    { s with hearth := { s.hearth with wclk := Sparse.put (fun _ => none) s.hearth.wclk w (some x) } }
  else s

theorem State.wclkEdge_keep (s : State) (d : Nat) (k : Int) (q w : Nat) : (State.wclkEdge d k q s w).regs = s.regs
    ∧ (State.wclkEdge d k q s w).fuse = s.fuse ∧ (State.wclkEdge d k q s w).hearth.slews = s.hearth.slews
    ∧ ∀ j, j ≠ w → Sparse.get (fun _ => none) (State.wclkEdge d k q s w).hearth.wclk j = Sparse.get (fun _ => none) s.hearth.wclk j := by
  unfold State.wclkEdge
  split
  · exact ⟨rfl, rfl, rfl, fun j hj => Sparse.get_put_ne _ _ _ hj⟩
  · exact ⟨rfl, rfl, rfl, fun _ _ => rfl⟩

/-- Of a state with the same store and slews an edge makes the same of the output. -/
theorem State.wclkEdge_wclk {t : State} (d : Nat) (k : Int) (q w : Nat) (hregs : t.regs = s.regs) (hfuse : t.fuse = s.fuse)
    (hslews : t.hearth.slews = s.hearth.slews)
    (hw : Sparse.get (fun _ => none) t.hearth.wclk w = Sparse.get (fun _ => none) s.hearth.wclk w) :
    Sparse.get (fun _ => none) (State.wclkEdge d k q t w).hearth.wclk w =
      if s.wclkRuns w = true ∧ s.rd (Reg.wclkOutCfgDomain w) = d ∧ k % (s.wclkHz w).2 = 0 then
        some ((q : Int) + (s.outSlew w).left s.slewMax q / 32768).toNat
      else Sparse.get (fun _ => none) s.hearth.wclk w := by
  have hrd : ∀ f, t.rd f = s.rd f := State.rd_of_regs hregs hfuse
  have hruns : t.wclkRuns w = s.wclkRuns w := by
    unfold State.wclkRuns State.running State.on
    rw [hrd, hrd, hrd]
  have hhz : t.wclkHz w = s.wclkHz w := by
    unfold State.wclkHz State.domRate
    rw [hrd, hrd, hrd]
  have hslew : t.outSlew w = s.outSlew w := by
    unfold State.outSlew
    rw [hslews]
  unfold State.wclkEdge
  rw [hruns, hhz, hrd, hslew, show t.slewMax = s.slewMax from hrd _]
  by_cases h : s.wclkRuns w = true ∧ s.rd (Reg.wclkOutCfgDomain w) = d ∧ k % (s.wclkHz w).2 = 0
  · obtain ⟨h1, h2, h3⟩ := h
    rw [if_pos (by simp [h1, h2, h3]), if_pos ⟨h1, h2, h3⟩]
    exact Sparse.get_put_same ..
  · rw [if_neg (fun hc => h (by simpa [and_assoc] using hc)), if_neg h]
    exact hw

theorem State.wclkEdges_wclk (s : State) (d q w : Nat) (k : Int) (hw : w < 2) :
    Sparse.get (fun _ => none) (s.wclkEdges d k q).hearth.wclk w =
      if s.wclkRuns w = true ∧ s.rd (Reg.wclkOutCfgDomain w) = d ∧ k % (s.wclkHz w).2 = 0 then
        some ((q : Int) + (s.outSlew w).left s.slewMax q / 32768).toNat
      else Sparse.get (fun _ => none) s.hearth.wclk w := by
  have htwo : s.wclkEdges d k q = State.wclkEdge d k q (State.wclkEdge d k q s 0) 1 := rfl
  obtain ⟨hregs, hfuse, hslews, hother⟩ := s.wclkEdge_keep d k q 0
  rw [htwo]
  obtain rfl | rfl : w = 0 ∨ w = 1 := by omega
  · rw [(State.wclkEdge_keep _ d k q 1).2.2.2 0 (by decide)]
    exact State.wclkEdge_wclk d k q 0 rfl rfl rfl rfl
  · exact State.wclkEdge_wclk d k q 1 hregs hfuse hslews (hother 1 (by decide))

/-! The slews. -/

theorem State.setOutSlew_ended (s : State) {o : Nat} (ho : o < 3) :
    (s.setOutSlew o {}).rd (slewFlag o) = 0 ∧ (s.setOutSlew o {}).outSlew o = {} := by
  refine ⟨?_, Sparse.get_put_same ..⟩
  obtain rfl | rfl | rfl : o = 0 ∨ o = 1 ∨ o = 2 := by omega
  · exact State.rd_flag_same _ Reg.outSlewStatusWclk0 _ (by decide)
  · exact State.rd_flag_same _ Reg.outSlewStatusWclk1 _ (by decide)
  · exact State.rd_flag_same _ Reg.outSlewStatusPps _ (by decide)

theorem State.setSideSlew_ended (s : State) (p : Nat) {b : Nat} (hb : b < 2) :
    (s.setSideSlew (p * 2 + b) {}).rd (Reg.sideStatusSlewing p b) = 0 ∧ ((s.setSideSlew (p * 2 + b) {}).side p b).slew = {} := by
  have hp : (p * 2 + b) / 2 = p := by omega
  have hm : (p * 2 + b) % 2 = b := by omega
  refine ⟨?_, congrArg TdmSide.slew (Sparse.get_put_same ..)⟩
  unfold State.setSideSlew
  extract_lets x m u w
  have hflag : w.rd (Reg.sideStatusSlewing ((p * 2 + b) / 2) ((p * 2 + b) % 2)) = b2n ((({} : Slew).err) != 0) :=
    State.rd_flag_same u _ _ Nat.one_pos
  rw [hp, hm] at hflag
  refine (State.rd_wr_ne w _ ?_).trans hflag
  dsimp only
  omega

/-! The view that the Hearth steers. -/

/-- A 96-bit code spells what its number does again. -/
theorem sext_ofInt_sext (n : Nat) : sext 96 (ofInt 96 (sext 96 n)) = sext 96 n := by
  unfold ofInt sext
  split <;> split <;> omega

/-- The step that the Hearth itself has left for the next RC. -/
def State.ownStep (s : State) (v : Nat) : Int :=
  match (s.view v).sched with
  | some c => if c.owner = true ∧ c.at_ = s.rc + 1 then sext 96 (c.step.getD 0) else 0
  | none => 0

theorem State.sext_ofInt_ownStep (s : State) (v : Nat) : sext 96 (ofInt 96 (s.ownStep v)) = s.ownStep v := by
  unfold State.ownStep
  split
  · split
    · exact sext_ofInt_sext _
    · decide
  · decide

/-- The Hearth's write with a rate, and with a further step at the same RC. -/
theorem State.hearthWrite_rate (s : State) (v r : Nat) (d : Int) :
    s.hearthWrite v (some r) d = s.schedule v none (some r)
      (if d + s.ownStep v = 0 then none else some (ofInt 96 (d + s.ownStep v))) true := by
  unfold State.hearthWrite State.ownStep
  cases (s.view v).sched with
  | none => rfl
  | some c =>
    by_cases h : c.owner = true ∧ c.at_ = s.rc + 1
    · simp [h.1, h.2]
    · simp [h]

theorem State.hearthWrite_again {v r : Nat} {own : Int} (hown : sext 96 (ofInt 96 own) = own) (d : Int) :
    (s.schedule v none (some r) (if own = 0 then none else some (ofInt 96 own)) true).hearthWrite v none d =
      s.schedule v none (some r) (if d + own = 0 then none else some (ofInt 96 (d + own))) true := by
  obtain ⟨hsched, -, -, -⟩ := s.schedule_result v none (some r) (if own = 0 then none else some (ofInt 96 own)) true
  have hrc : (s.schedule v none (some r) (if own = 0 then none else some (ofInt 96 own)) true).rc = s.rc := rfl
  have hstep : sext 96 ((if own = 0 then none else some (ofInt 96 own)).getD 0) = own := by
    split
    · next h => rw [h]; decide
    · exact hown
  generalize (if own = 0 then none else some (ofInt 96 own)) = step at *
  unfold State.hearthWrite
  rw [hsched, hrc]
  dsimp only
  rw [if_pos (by simp), hstep]
  exact State.schedule_schedule ..

/-- What the Hearth does to view `v` when it renews its view (R118). -/
def State.viewRenewed (s : State) (v : Nat) : State :=
  if s.rd (Reg.tvSource v) = 2 then
    let s := s.hearthWrite v (some s.hearth.dpll.rate) 0
    let x := 4 * (s.rc + 1)
    let d := reduceHalf (s.hearth.dpll.time x - s.viewAt v x) secondU
    if d.natAbs ≤ 131072 then s else s.hearthWrite v none d
  else s

theorem exec_hearthViewUpdate (s : State) :
    exec .hearthViewUpdate s = .next (s.together fun s => (s.advance (s.rc + 1)).units 4 State.viewRenewed) := rfl

theorem State.viewRenewed_idle {v : Nat} (h : s.rd (Reg.tvSource v) ≠ 2) : s.viewRenewed v = s := if_neg h

theorem State.viewRenewed_source (s : State) (v w : Nat) (hw : w < 4) : (s.viewRenewed v).rd (Reg.tvSource w) = s.rd (Reg.tvSource w) := by
  have honly : Only AdvKey s (s.viewRenewed v) := by
    unfold State.viewRenewed
    exact .ite (.ite (.hearthWrite (.refl AdvKey s)) (.hearthWrite (.hearthWrite (.refl AdvKey s)))) (.refl AdvKey s)
  exact honly.rd (not_advKey_tvSource w hw)

theorem State.viewRenewed_result {v r x : Nat} {d : Int} {w : State} (hv : s.rd (Reg.tvSource v) = 2) (hr : r = s.hearth.dpll.rate)
    (hx : x = 4 * (s.rc + 1))
    (hw : w = s.schedule v none (some r) (if s.ownStep v = 0 then none else some (ofInt 96 (s.ownStep v))) true)
    (hd : d = reduceHalf (s.hearth.dpll.time x - w.viewAt v x) secondU) :
    s.viewRenewed v = if d.natAbs ≤ 131072 then w else
      s.schedule v none (some r) (if d + s.ownStep v = 0 then none else some (ofInt 96 (d + s.ownStep v))) true := by
  have hfirst : s.hearthWrite v (some s.hearth.dpll.rate) 0 = w := by
    rw [State.hearthWrite_rate, hw, hr, Int.zero_add]
  have hrc : w.rc = s.rc := by rw [hw]; rfl
  have hdpll : w.hearth.dpll = s.hearth.dpll := by rw [hw]; rfl
  unfold State.viewRenewed
  rw [if_pos hv]
  dsimp only
  rw [hfirst, hrc, hdpll, ← hx, ← hd]
  split
  · rfl
  · rw [hw]
    exact State.hearthWrite_again (s.sext_ofInt_ownStep v) d

/-- Settles O33: the grid by the remainders it leaves; a word clock's edge is its own output's alone; the slews and the pulse by their
branch; the view's second write at one RC takes the first one's place. -/
theorem hearthOutputs : Obligations.HearthOutputs := by
  unfold Obligations.HearthOutputs
  intro s u
  refine ⟨fun d _ => s.gridNow_spec d, s.gridShift_spec, fun d q w k hw => ?_, fun o ho => ?_, fun p _ b hb => ?_, fun hnone => ?_,
    fun v hv hsource hother r x own d w hu hr hx hown hw hd => ?_, fun hoff => ?_, fun hon v x e t p hv he ht hp hx hu => ?_,
    fun x hx hu => ?_, fun hnone => ?_⟩
  · rw [State.wclkEdges_wclk s d q w k hw]
    refine ⟨fun h1 h2 h3 => if_pos ⟨h1, h2, h3⟩, fun h => if_neg ?_⟩
    rintro ⟨h1, h2, h3⟩
    rcases h with h | h | h
    · rw [h1] at h; cases h
    · exact h h2
    · exact h h3
  · have hexec : exec (.outSlewEnd o) s = .next (if (s.outSlew o).err = 0 then s else
        (s.advance (((s.outSlew o).ends s.slewMax + 3) / 4)).setOutSlew o {}) := by
      show execOutSlewEnd o s = _
      unfold execOutSlewEnd
      simp only [if_pos ho]
    rw [Completes, hexec]
    exact ⟨fun h => congrArg Host.Outcome.next (if_pos h), fun h => ⟨_, congrArg Host.Outcome.next (if_neg h), rfl,
      State.setOutSlew_ended _ ho⟩⟩
  · have ho : ¬3 + (p * 2 + b) < 3 := by omega
    have hexec : exec (.outSlewEnd (3 + (p * 2 + b))) s = .next (if (s.side p b).slew.err = 0 then s else
        (s.advance (((s.side p b).slew.ends s.slewMax + 3) / 4)).setSideSlew (p * 2 + b) {}) := by
      show execOutSlewEnd _ s = _
      unfold execOutSlewEnd
      simp only [if_neg ho, Nat.add_sub_cancel_left]
      rfl
    rw [Completes, hexec]
    exact ⟨fun h => congrArg Host.Outcome.next (if_pos h), fun h => ⟨_, congrArg Host.Outcome.next (if_neg h), rfl,
      State.setSideSlew_ended _ p hb⟩⟩
  · rw [exec_hearthViewUpdate]
    refine congrArg (fun t => Host.Outcome.next (s.scatter t)) (State.units_idle fun v hv => State.viewRenewed_idle ?_)
    rw [(State.advance_only _ _).rd (not_advKey_tvSource v hv)]
    exact hnone v hv
  · have hrd : ∀ j < 4, u.rd (Reg.tvSource j) = s.rd (Reg.tvSource j) := fun j hj => by
      rw [hu]
      exact (State.advance_only _ _).rd (not_advKey_tvSource j hj)
    have hunits : u.units 4 State.viewRenewed = u.viewRenewed v := by
      refine State.units_single hv (fun j hj hne => State.viewRenewed_idle ?_) fun j hj hne => State.viewRenewed_idle ?_
      · rw [hrd j hj]; exact hother j hj hne
      · rw [State.viewRenewed_source u v j hj, hrd j hj]; exact hother j hj hne
    have hexec : exec .hearthViewUpdate s = .next (s.scatter (u.viewRenewed v)) := by
      rw [exec_hearthViewUpdate, ← hunits, hu]
      rfl
    obtain rfl : own = u.ownStep v := hown
    rw [hexec, State.viewRenewed_result ((hrd v hv).trans hsource) hr hx hw hd]
    exact ⟨fun h => by rw [if_pos h], fun h => by rw [if_neg (by omega)]⟩
  · exact congrArg Host.Outcome.next (if_pos (by rw [hoff]; rfl))
  · have hexec : exec .ppsOutSecond s = .next (if t ≤ u.viewAt v x then
        { u with hearth := { u.hearth with pps := some ((x + 8) / 16 * 16) } } else u) := by
      show execPpsOutSecond s = _
      unfold execPpsOutSecond
      rw [if_neg (by rw [hon]; decide)]
      dsimp only
      rw [← hv, ← he, ← ht, ← hp, ← hx, ← hu]
    rw [hexec]
    exact ⟨fun h => congrArg Host.Outcome.next (if_pos h), fun h => congrArg Host.Outcome.next (if_neg (by omega))⟩
  · show execPpsOutPulseEnd s = _
    unfold execPpsOutPulseEnd
    rw [hx]
    dsimp only
    rw [← hu]
  · show execPpsOutPulseEnd s = _
    unfold execPpsOutPulseEnd
    rw [hnone]

end

end Sys2Proof.Machine
end


section
/-! The PTP ports: what they measure, send and time out on, and what a SET of their configuration starts anew (O25 to O28). -/

namespace Sys2Proof.Machine

section
variable {s t : State} {f : State → State}

/-- A moment ends in what its work makes of the state with its requests gathered. -/
theorem State.together_of (h : f s.gather = t) : (Host.Outcome.next (s.together f) : Done) = .next (s.scatter t) :=
  congrArg (fun t => Host.Outcome.next (s.scatter t)) h

theorem State.together_stays_of (h : f s.gather = s.gather) : (Host.Outcome.next (s.together f) : Done) = .next s :=
  congrArg Host.Outcome.next (State.together_stays h)

@[simp] theorem State.gather_ptpPort (s : State) (p : Nat) : s.gather.ptpPort p = s.ptpPort p := rfl
@[simp] theorem State.gather_ptpTakes (s : State) (p : Nat) (m : PtpMsg) : s.gather.ptpTakes p m = s.ptpTakes p m := rfl
@[simp] theorem State.gather_fromParent (s : State) (p : Nat) (m : PtpMsg) : s.gather.fromParent p m = s.fromParent p m := rfl
@[simp] theorem State.gather_portId (s : State) (p : Nat) : s.gather.portId p = s.portId p := rfl
@[simp] theorem State.gather_p2p (s : State) (p : Nat) : s.gather.p2p p = s.p2p p := rfl

/-- A measurement joins the port's last 64, shows in PTP_PATH_DELAY, and touches nothing of another port. -/
theorem State.delayTaken_result (s : State) (p : Nat) (d : Int) :
    ((s.delayTaken p d).ptpPort p).delays = (d :: (s.ptpPort p).delays).take 64
    ∧ (s.delayTaken p d).rd (Reg.ptpPathDelayMpd p) = (clampInt 0 4294967295 (Int.tdiv ((s.delayTaken p d).ptpPort p).mpd 16384)).toNat
    ∧ (∀ k, k ≠ p → (s.delayTaken p d).ptpPort k = s.ptpPort k)
    ∧ ∀ k, k ≠ (Reg.ptpPathDelayMpd p).key → (s.delayTaken p d).get k = s.get k := by
  refine ⟨congrArg PtpPort.delays (Sparse.get_put_same ..), ?_, fun k hk => Sparse.get_put_ne _ _ _ hk,
    fun k hk => State.get_put_ne _ _ hk⟩
  have hfits : ∀ i : Int, (clampInt 0 4294967295 i).toNat < 2 ^ 32 := fun i => by
    unfold clampInt
    split
    · decide
    · split
      · decide
      · omega
  exact (State.rd_wr_same ..).trans (Nat.mod_eq_of_lt (hfits _))

end

/-- Settles O25: each message by the branch its checks lead to. -/
theorem ptpMeasurements : Obligations.PtpMeasurements := by
  unfold Obligations.PtpMeasurements
  intro s g u w p q m hg hu hw
  subst hg hu hw
  refine ⟨fun htakes hparent => ⟨fun htwo => State.together_of ?_, fun htwo => State.together_of ?_⟩, fun hnot => State.together_of ?_,
    fun t2 c htakes hparent hstep => State.together_of ?_, fun hnot => State.together_of ?_,
    fun t3 hsent htakes hparent hreq hseq hp2p hsyncs => State.together_of ?_, fun hnot => State.together_stays_of ?_,
    fun t1 hsent htakes hp2p hreq hseq => ⟨fun htwo => State.together_of ?_, fun htwo => State.together_of ?_⟩,
    fun hnot => State.together_of ?_, fun t1 t4 t2 c hsent hresp htakes hreq => State.together_of ?_,
    fun hnot => State.together_stays_of ?_, s.delayTaken_result p⟩
  · dsimp only
    rw [htakes, hparent, if_pos (by decide), if_pos htwo]
  · dsimp only
    rw [htakes, hparent, if_pos (by decide), htwo, if_neg (by decide)]
  · dsimp only
    rw [if_neg]
    rcases hnot with h | h <;> simp [h]
  · dsimp only
    rw [htakes, hparent, if_pos (by decide), hstep]
    exact if_pos rfl
  · dsimp only
    split
    next hc =>
      obtain ⟨htakes, hparent⟩ := Bool.and_eq_true_iff.mp hc
      split
      next q' t2 c hstep =>
        refine if_neg fun hq => ?_
        subst hq
        rcases hnot with h | h | h
        · rw [htakes] at h; cases h
        · rw [hparent] at h; cases h
        · exact h t2 c hstep
      next => rfl
    next => rfl
  · show (match (s.ptpPort p).reqSent with | some t3 => _ | none => _) = _
    rw [hsent]
    exact if_pos (by simp [htakes, hparent, hreq, hseq, hp2p, hsyncs])
  · show (match (s.ptpPort p).reqSent with | some t3 => _ | none => _) = _
    split
    next t3 hsent =>
      refine if_neg fun hc => ?_
      simp only [Bool.and_eq_true, beq_iff_eq] at hc
      obtain ⟨⟨⟨⟨⟨htakes, -⟩, hreq⟩, hseq⟩, -⟩, -⟩ := hc
      rcases hnot with h | h | h | h
      · rw [State.gather_ptpTakes, h] at htakes; cases htakes
      · rw [hsent] at h; cases h
      · exact h hseq
      · exact h hreq
    next => rfl
  · dsimp only
    rw [hsent]
    exact (if_pos (by simp [htakes, hp2p, hreq, hseq])).trans (if_pos htwo)
  · dsimp only
    rw [hsent]
    exact (if_pos (by simp [htakes, hp2p, hreq, hseq])).trans (if_neg (by simp [htwo]))
  · dsimp only
    split
    next t1 hsent =>
      refine if_neg fun hc => ?_
      simp only [Bool.and_eq_true, beq_iff_eq] at hc
      obtain ⟨⟨⟨htakes, hp2p⟩, hreq⟩, hseq⟩ := hc
      rcases hnot with h | h | h | h | h
      · rw [htakes] at h; cases h
      · rw [hp2p] at h; cases h
      · rw [hsent] at h; cases h
      · exact h hseq
      · exact h hreq
    next => rfl
  · show (match (s.ptpPort p).reqSent, (s.ptpPort p).resp with | some t1, some (q, t4, t2, c) => _ | _, _ => _) = _
    rw [hsent, hresp]
    exact if_pos (by simp [htakes, hreq])
  · show (match (s.ptpPort p).reqSent, (s.ptpPort p).resp with | some t1, some (q, t4, t2, c) => _ | _, _ => _) = _
    split
    next t1 q t4 t2 c hsent hresp =>
      refine if_neg fun hc => ?_
      simp only [Bool.and_eq_true, beq_iff_eq] at hc
      obtain ⟨⟨htakes, -⟩, hreq⟩ := hc
      rcases hnot with h | h | h | h
      · rw [State.gather_ptpTakes, h] at htakes; cases htakes
      · rw [hsent] at h; cases h
      · rw [hresp] at h; cases h
      · exact h hreq
    next => rfl

/-- Settles O26: each row by the branch its conditions lead to. -/
theorem ptpSends : Obligations.PtpSends := by
  unfold Obligations.PtpSends
  intro s u p q t m hu ht
  subst hu ht
  refine ⟨fun htakes hstate hp2p => ?_, fun hnot => ?_, fun htakes hp2p htwo => ?_, fun htakes hp2p htwo => ?_, fun hnot => ?_,
    fun hon hstate hblocked => ⟨?_, ?_⟩, fun hnot => ?_, fun hon hp2p hslaving => ?_, fun hon hp2p hstate w hw => ?_, fun hnot => ?_⟩
  · exact congrArg Host.Outcome.next (if_pos (by simp [htakes, hstate, hp2p]))
  · refine congrArg Host.Outcome.next (if_neg ?_)
    rcases hnot with h | h | h <;> simp [h]
  · refine congrArg Host.Outcome.next ((if_pos (by simp [htakes, hp2p])).trans ?_)
    dsimp only
    rw [htwo]
    rfl
  · refine congrArg Host.Outcome.next ((if_pos (by simp [htakes, hp2p])).trans ?_)
    dsimp only
    rw [htwo]
    rfl
  · refine congrArg Host.Outcome.next (if_neg ?_)
    rcases hnot with h | h <;> simp [h]
  · exact congrArg Host.Outcome.next (if_pos (by simp [hon, hstate, hblocked]))
  · exact congrArg Host.Outcome.next (if_pos (by simp [hon, hstate, hblocked]))
  · have hidle : ¬(s.on (Reg.ptpPortCfgEnable p) && s.ptpState p == 6 && !s.asBlocked p) = true := by
      rcases hnot with h | h | h <;> simp [h]
    exact ⟨congrArg Host.Outcome.next (if_neg hidle), congrArg Host.Outcome.next (if_neg hidle)⟩
  · have hstate : ¬s.ptpState p < 4 := by omega
    have hfollows : s.slaving p = true := by simp [State.slaving, hslaving]
    exact congrArg Host.Outcome.next ((if_neg (by simp [hon, hstate])).trans ((if_neg (by simp [hp2p])).trans (if_pos hfollows)))
  · subst hw
    exact congrArg Host.Outcome.next ((if_neg (by simp [hon, hstate])).trans (if_pos hp2p))
  · refine congrArg Host.Outcome.next (if_pos ?_)
    rcases hnot with h | h <;> simp [h]

/-- Settles O27: an Announce and each timeout by the branch its conditions lead to. -/
theorem ptpAnnounceAndTimeouts : Obligations.PtpAnnounceAndTimeouts := by
  unfold Obligations.PtpAnnounceAndTimeouts
  intro s g u p m hg
  subst hg
  refine ⟨fun htakes hblocked hsteps hpath hu => ?_, fun hnot => State.together_stays_of (if_neg ?_), fun w hw => ?_,
    fun h => State.together_of (if_pos ?_), fun h8 h9 => State.together_stays_of (if_neg ?_), fun h => State.together_of (if_pos h),
    fun h => State.together_stays_of (if_neg h)⟩
  · have htaken : (s.gather.ptpTakes p m && !s.gather.asBlocked p && decide (m.ann.steps < 255)
        && !(s.gather.profile p == 4 && m.path.contains (s.gather.clockId p))) = true := by
      rw [State.gather_ptpTakes, htakes, show s.gather.asBlocked p = false from hblocked, decide_eq_true hsteps]
      rcases hpath with h | h
      · rw [show (s.gather.profile p == 4) = false from beq_false_of_ne h]; rfl
      · rw [show m.path.contains (s.gather.clockId p) = false from h]; simp
    refine ⟨fun h => State.together_of ((if_pos htaken).trans ?_), fun h => State.together_of ((if_pos htaken).trans ?_)⟩
    · subst hu
      exact if_pos h
    · subst hu
      exact if_neg (by rw [Bool.not_eq_true]; exact h)
  · rcases hnot with h | h | h
    · simp [h]
    · simp [show s.gather.asBlocked p = true from h]
    · simp [Nat.not_lt.mpr h]
  · subst hw
    refine ⟨fun hnot => State.together_of (if_pos ?_), fun hon hstate hu => ?_⟩
    · rcases hnot with h | h | h | h
      · simp [h]
      · simp only [Bool.or_eq_true, Bool.not_eq_true', Bool.or_eq_false_iff, beq_eq_false_iff_ne, decide_eq_false_iff_not]; omega
      · simp [h]
      · simp [h]
    · have hgo : ¬(!s.gather.catchUp.on (Reg.ptpPortCfgEnable p)
          || !(s.gather.catchUp.ptpState p == 4 || decide (7 ≤ s.gather.catchUp.ptpState p))) = true := by
        simpa [hon] using fun h => by omega
      refine ⟨fun h => State.together_of ((if_neg hgo).trans ?_), fun h honly => State.together_of ((if_neg hgo).trans ?_),
        fun h honly => State.together_of ((if_neg hgo).trans ?_)⟩
      · subst hu
        exact congrArg (fun t => (State.bmca t).settleRefs) (if_pos h)
      · subst hu
        exact congrArg (fun t => (State.bmca t).settleRefs) ((if_neg (by rw [h]; decide)).trans (if_pos honly))
      · subst hu
        exact congrArg (fun t => (State.bmca t).settleRefs) ((if_neg (by rw [h]; decide)).trans (if_neg (by rw [honly]; decide)))
  · show (s.ptpState p == 8 || s.ptpState p == 9) = true
    simpa using h
  · show ¬(s.ptpState p == 8 || s.ptpState p == 9) = true
    simp [h8, h9]

/-- Settles O28: the moment of an entry that the Hearth chooses by, with the restart its effect names. -/
theorem ptpSettings : Obligations.PtpSettings := by
  unfold Obligations.PtpSettings
  intro s who a v n k anew hanew
  have hrestart : ∀ w : State, w.ptpRestart a = anew w := fun w => by
    rw [hanew]
    unfold State.ptpRestart State.ptpRestartBoth
    by_cases h : w.bc = true ∧ a = 0
    · rw [if_pos (by simp [h]), if_pos h]
    · rw [if_neg (by simpa using h), if_neg h]
  refine ⟨fun hk h => ?_, fun hk h => ?_, fun hk h => ?_⟩
  · subst hk
    refine congrArg Host.Outcome.next ((h.setAs_decides (mine := fun _ => true) rfl rfl rfl).trans ?_)
    refine congrArg (fun g => (s.together g).say .ok) (funext fun w => congrArg State.settleRefs ?_)
    rw [← hrestart]
    rfl
  · subst hk
    refine congrArg Host.Outcome.next ((h.setAs_decides (mine := fun _ => true) rfl rfl rfl).trans ?_)
    refine congrArg (fun g => (s.together g).say .ok) (funext fun w => congrArg State.settleRefs ?_)
    rw [← hrestart]
    rfl
  · subst hk
    refine congrArg Host.Outcome.next ((h.setAs_decides (mine := fun _ => true) rfl rfl rfl).trans ?_)
    exact congrArg (fun g => (s.together g).say .ok) (funext fun w => congrArg State.settleRefs rfl)

end Sys2Proof.Machine
end


section
/-! The network ports: pauses, rings and half duplex, links, and the frames they receive and send (O35 to O37). -/

namespace Sys2Proof.Machine

section
variable {s : State}

/-- Settles O35: each time and event by the branch its conditions lead to. -/
theorem portEvents : Obligations.PortEvents := by
  unfold Obligations.PortEvents
  intro s p c bits deferred
  refine ⟨rfl, fun hen hholds => ?_, fun hnot => congrArg Host.Outcome.next (if_neg ?_), rfl, fun hidle => ?_,
    fun hactive hcount => ?_, fun hactive hcount => ?_, fun hhd hwire hhalf hlocked => ?_, fun hnot => congrArg Host.Outcome.next (if_pos ?_),
    fun hhd hlocked => congrArg Host.Outcome.next (if_pos (by simp [hhd, hlocked])), fun hnot => congrArg Host.Outcome.next (if_neg ?_),
    fun hhd hlocked => ?_, fun hnot => congrArg Host.Outcome.next (if_neg ?_), fun who v n k u hk h hu => ?_⟩
  · refine congrArg Host.Outcome.next ((if_pos (by rw [hen, hholds]; rfl)).trans ?_)
    have hword : pack [(0, p), (2, if c < 8 then 1 else 0), (8, if c < 8 then c else 0)] = if c < 8 then p + 2 ^ 2 + c * 2 ^ 8 else p := by
      unfold pack
      split <;> simp [add_assoc]
    rw [← hword]
  · rcases hnot with h | h <;> simp [h]
  · exact congrArg Host.Outcome.next (if_pos (by rw [hidle]; rfl))
  · exact congrArg Host.Outcome.next ((if_neg (by rw [hactive]; decide)).trans (if_pos hcount))
  · refine congrArg Host.Outcome.next ((if_neg (by rw [hactive]; decide)).trans ((if_neg hcount).trans ?_))
    have hword : pack [(0, p), (16, sat16 (s.port p).ringHold.count)] = p + min (s.port p).ringHold.count 0xFFFF * 2 ^ 16 := by
      simp [pack, sat16]
    rw [← hword]
  · have hgo : ¬((s.port 2).hd ≠ .sending ∨ (s.port 2).wire.isNone ∨ !s.halfDuplex 2 ∨ !s.locked) := by
      cases hw : (s.port 2).wire with
      | none => rw [hw] at hwire; cases hwire
      | some w => simp [hhd, hhalf, hlocked]
    refine ⟨fun hlate => ?_, fun hearly hlast => ?_, fun hearly hmore => ?_⟩
    · exact congrArg Host.Outcome.next ((if_neg hgo).trans (if_pos hlate))
    · exact congrArg Host.Outcome.next ((if_neg hgo).trans ((if_neg (by omega)).trans (if_pos (by rw [hlast]))))
    · refine ⟨_, congrArg Host.Outcome.next ((if_neg hgo).trans ((if_neg (by omega)).trans (if_neg (by omega)))), ?_⟩
      dsimp only [State.draw]
      rw [State.port_setPort]
      exact ⟨rfl, rfl, Nat.mod_lt _ (Nat.two_pow_pos _), rfl, rfl⟩
  · rcases hnot with h | h | h | h
    · exact .inl h
    · simp [h]
    · simp [h]
    · simp [h]
  · rcases hnot with h | h <;> simp [h]
  · refine congrArg Host.Outcome.next ((if_pos (by simp [hhd, hlocked])).trans ?_)
    unfold State.bumpIf
    simp only [Bool.and_eq_true, beq_iff_eq]
  · rcases hnot with h | h <;> simp [h]
  · subst hk hu
    exact congrArg Host.Outcome.next (h.setAs_stored (mine := fun _ => true) rfl rfl rfl)

/-! A link's change. -/

/-- PORT_STATUS with LINK, SPEED and FULL_DUPLEX as given. -/
def State.linkShown (s : State) (p : Nat) (up : Bool) (speed : Nat) (full : Bool) : State :=
  ((s.flag (Reg.portStatusLink p) up).wr (Reg.portStatusSpeed p) speed).flag (Reg.portStatusFullDuplex p) full

/-- What a link that comes up or goes down brings beside PORT_STATUS (R142, R146). -/
def State.linkTurned (s : State) (p : Nat) (up : Bool) : State :=
  if up then (if p = 2 then s else s.wr (Reg.esmcStatusSeen p) 0) else (s.bump (Reg.portLinkDowns p) 1).dropQueues p

theorem State.setLink_eq (s : State) (p : Nat) (up : Bool) (speed : Nat) (full : Bool) :
    s.setLink p up speed full =
      if s.linkUp p = up && s.rd (Reg.portStatusSpeed p) = speed && s.on (Reg.portStatusFullDuplex p) = full then s
      else if !(s.linkUp p != up) then s.linkShown p up speed full
      else ((s.linkShown p up speed full).linkTurned p up).post 0x3001 5 [pack [(0, p), (2, b2n up), (3, speed), (5, b2n full)]] := rfl

theorem State.linkShown_status (s : State) (p speed : Nat) (up full : Bool) (hspeed : speed < 4) :
    (s.linkShown p up speed full).linkUp p = up ∧ (s.linkShown p up speed full).rd (Reg.portStatusSpeed p) = speed
    ∧ (s.linkShown p up speed full).on (Reg.portStatusFullDuplex p) = full := by
  unfold State.linkShown State.linkUp
  refine ⟨?_, ?_, ?_⟩
  · refine (State.on_wr_apart _ _ (.inl (Nat.le_of_ble_eq_true rfl))).trans ((State.on_wr_apart _ _ (.inl (Nat.le_of_ble_eq_true rfl))).trans ?_)
    exact (State.on_wr_same ..).trans (by cases up <;> rfl)
  · refine (State.rd_wr_apart _ _ (.inl (Nat.le_of_ble_eq_true rfl))).trans ((State.rd_wr_same ..).trans ?_)
    exact Nat.mod_eq_of_lt hspeed
  · exact (State.on_wr_same ..).trans (by cases full <;> rfl)

theorem State.linkShown_get (s : State) (p speed : Nat) (up full : Bool) {k : Nat} (hk : k ≠ (Reg.portStatusLink p).key) :
    (s.linkShown p up speed full).get k = s.get k :=
  (State.get_wr_ne _ (f := Reg.portStatusFullDuplex p) _ hk).trans
    ((State.get_wr_ne _ (f := Reg.portStatusSpeed p) _ hk).trans (State.get_wr_ne _ (f := Reg.portStatusLink p) _ hk))

/-- How many frames of a port a link that goes down discards (R142, R149). -/
def State.framesWaiting (s : State) (p : Nat) : Nat :=
  ((List.range (queueCount p)).map (fun q => ((s.queue p q).map (fun x => x.frames.length)).sum)).sum
    + (if (s.port p).wire.isSome = true ∧ ((s.port p).hd = .carrier ∨ (s.port p).hd = .backoff) then 1 else 0)

theorem State.dropQueues_eq (s : State) (p : Nat) : s.dropQueues p =
    (s.bump (Reg.portTxLinkDrop p) (s.framesWaiting p)).setPort p { s.port p with queues := [], wire := none, hd := .idle } := by
  unfold State.dropQueues State.framesWaiting
  dsimp only
  have hwait : b2n ((s.port p).wire.isSome && ((s.port p).hd == .carrier || (s.port p).hd == .backoff)) =
      if (s.port p).wire.isSome = true ∧ ((s.port p).hd = .carrier ∨ (s.port p).hd = .backoff) then 1 else 0 := by
    unfold b2n
    simp only [Bool.and_eq_true, Bool.or_eq_true, beq_iff_eq]
  rw [hwait]

theorem State.linkTurned_get (s : State) (p : Nat) (up : Bool) {k : Nat} (hup : up = true → k ≠ (Reg.esmcStatusSeen p).key)
    (hdown : up = false → k ≠ (Reg.portLinkDowns p).key ∧ k ≠ (Reg.portTxLinkDrop p).key) : (s.linkTurned p up).get k = s.get k := by
  unfold State.linkTurned
  split
  next hon =>
    split
    · rfl
    · exact State.get_wr_ne _ _ (hup hon)
  next hup =>
    obtain ⟨hdowns, hdrop⟩ := hdown (Bool.not_eq_true _ ▸ hup)
    rw [State.dropQueues_eq, State.setPort_get, State.get_bump_ne _ _ hdrop, State.get_bump_ne _ _ hdowns]

theorem lbKeys_ge {k : Nat} (h : k ∈ lbKeys) : 0xD5400000 ≤ k := by
  simp only [lbKeys, List.mem_cons, List.not_mem_nil, or_false] at h
  omega

theorem State.setLink_unchanged {p speed : Nat} {up full : Bool} (h : s.linkUp p = up) :
    s.setLink p up speed full = s ∨ s.setLink p up speed full = s.linkShown p up speed full := by
  rw [State.setLink_eq]
  split
  · exact .inl rfl
  · exact .inr (if_pos (by simp [h]))

theorem State.setLink_changed {p speed : Nat} {up full : Bool} (h : s.linkUp p ≠ up) :
    s.setLink p up speed full =
      ((s.linkShown p up speed full).linkTurned p up).post 0x3001 5 [pack [(0, p), (2, b2n up), (3, speed), (5, b2n full)]] := by
  rw [State.setLink_eq, if_neg (by simp [h]), if_neg (by simp [h])]

/-- LINK, SPEED and FULL_DUPLEX read as given, whether the link changes or not. -/
theorem State.setLink_status {p speed : Nat} {up full : Bool} (hp : p < 3) (hspeed : speed < 4) :
    (s.setLink p up speed full).linkUp p = up ∧ (s.setLink p up speed full).rd (Reg.portStatusSpeed p) = speed
    ∧ (s.setLink p up speed full).on (Reg.portStatusFullDuplex p) = full := by
  by_cases h : s.linkUp p = up
  · by_cases hsame : s.rd (Reg.portStatusSpeed p) = speed ∧ s.on (Reg.portStatusFullDuplex p) = full
    · obtain ⟨hs, hf⟩ := hsame
      rw [State.setLink_eq, if_pos (by simp [h, hs, hf])]
      exact ⟨h, hs, hf⟩
    · rw [State.setLink_eq, if_neg (by simpa [h] using hsame), if_pos (by simp [h])]
      exact s.linkShown_status p speed up full hspeed
  · rw [State.setLink_changed h]
    obtain ⟨hlink, hrate, hfull⟩ := s.linkShown_status p speed up full hspeed
    have hlb : (Reg.portStatusLink p).key ∉ lbKeys := fun hk => by have := lbKeys_ge hk; dsimp only at this; omega
    have hget := (s.linkShown p up speed full).linkTurned_get p up (k := (Reg.portStatusLink p).key)
      (fun _ => by dsimp only; omega) (fun _ => ⟨by dsimp only; omega, by dsimp only; omega⟩)
    refine ⟨?_, ?_, ?_⟩
    · exact (State.post_on _ _ _ _ hlb).trans ((State.on_congr (State.rd_congr hget)).trans hlink)
    · exact (State.post_rd _ _ _ _ (f := Reg.portStatusSpeed p) hlb).trans ((State.rd_congr (f := Reg.portStatusSpeed p) hget).trans hrate)
    · exact (State.post_on _ _ _ _ (f := Reg.portStatusFullDuplex p) hlb).trans
        ((State.on_congr (State.rd_congr (f := Reg.portStatusFullDuplex p) hget)).trans hfull)

/-- A link that goes down: counted, and no frame is queued or waits. -/
theorem State.setLink_down {p speed : Nat} {full : Bool} (hp : p < 3) (hup : s.linkUp p = true) :
    (s.setLink p false speed full).rd (Reg.portLinkDowns p) = min (s.rd (Reg.portLinkDowns p) + 1) (2 ^ 64 - 1)
    ∧ (s.setLink p false speed full).rd (Reg.portTxLinkDrop p) = min (s.rd (Reg.portTxLinkDrop p) + s.framesWaiting p) (2 ^ 64 - 1)
    ∧ ((s.setLink p false speed full).port p).wire = none ∧ (∀ q, (s.setLink p false speed full).queue p q = [])
    ∧ ((s.setLink p false speed full).port p).pauses = (s.port p).pauses
    ∧ (∀ x, x ≠ p → (s.setLink p false speed full).port x = s.port x)
    ∧ ∀ k, k ∉ [(Reg.portStatusLink p).key, (Reg.portLinkDowns p).key, (Reg.portTxLinkDrop p).key] → k ∉ lbKeys →
      (s.setLink p false speed full).get k = s.get k := by
  rw [State.setLink_changed (by simp [hup]), State.linkTurned, if_neg (by decide), State.dropQueues_eq]
  set u := s.linkShown p false speed full with hu
  set w := (u.bump (Reg.portLinkDowns p) 1).bump (Reg.portTxLinkDrop p) ((u.bump (Reg.portLinkDowns p) 1).framesWaiting p) with hw
  set x : Port := { (u.bump (Reg.portLinkDowns p) 1).port p with queues := [], wire := none, hd := .idle } with hx
  have hport : ∀ c e l j, (((w.setPort p x).post c e l).port j) = (w.setPort p x).port j := fun c e l j => by
    unfold State.port
    rw [State.post_ports]
  have hnew : ∀ c e l, (((w.setPort p x).post c e l).port p) = x := fun c e l => (hport c e l p).trans (State.port_setPort ..)
  have hlb : ∀ k, k < 0xD5400000 → k ∉ lbKeys := fun k hk hmem => Nat.not_le.mpr hk (lbKeys_ge hmem)
  have hshown : ∀ k, k ≠ (Reg.portStatusLink p).key → u.get k = s.get k := fun k hk => s.linkShown_get p speed false full hk
  refine ⟨?_, ?_, ?_, fun q => ?_, ?_, fun j hj => ?_, fun k hk hk' => ?_⟩
  · rw [State.post_rd _ _ _ _ (hlb _ (by dsimp only; omega)), State.setPort_rd, hw, State.rd_bump_ne _ _ (by dsimp only; omega),
      State.rd_bump_same, State.rd_congr (hshown _ (by dsimp only; omega))]
  · rw [State.post_rd _ _ _ _ (hlb _ (by dsimp only; omega)), State.setPort_rd, hw, State.rd_bump_same, State.rd_bump_ne _ _ (by dsimp only; omega), State.rd_congr (hshown _ (by dsimp only; omega))]
    rfl
  · rw [hnew]
  · show Sparse.get _ (State.port _ p).queues q = []
    rw [hnew]
    rfl
  · rw [hnew]
    rfl
  · exact (hport _ _ _ j).trans (Sparse.get_put_ne _ _ _ hj)
  · simp only [List.mem_cons, List.not_mem_nil, or_false, not_or] at hk
    obtain ⟨hlink, hdowns, hdrop⟩ := hk
    rw [State.post_get _ _ _ _ hk', State.setPort_get, hw, State.get_bump_ne _ _ hdrop, State.get_bump_ne _ _ hdowns]
    exact hshown k hlink

/-- A link that comes up: of a media port nothing has been seen of ESMC. -/
theorem State.setLink_up {p speed : Nat} {full : Bool} (hp : p < 3) (hdown : s.linkUp p = false) :
    (s.setLink p true speed full).ports = s.ports
    ∧ (p < 2 → (s.setLink p true speed full).rd (Reg.esmcStatusSeen p) = 0)
    ∧ ∀ k, k ≠ (Reg.portStatusLink p).key → k ≠ (Reg.esmcStatusSeen p).key → k ∉ lbKeys →
      (s.setLink p true speed full).get k = s.get k := by
  rw [State.setLink_changed (by simp [hdown])]
  refine ⟨?_, fun hmedia => ?_, fun k hlink hseen hk => ?_⟩
  · rw [State.post_ports]
    unfold State.linkTurned
    rw [if_pos rfl]
    split <;> rfl
  · have hlb : (Reg.esmcStatusSeen p).key ∉ lbKeys := fun hk => by have := lbKeys_ge hk; dsimp only at this; omega
    rw [State.post_rd _ _ _ _ hlb, State.linkTurned, if_pos rfl, if_neg (by omega), State.rd_wr_same, Nat.zero_mod]
  · exact (State.post_get _ _ _ _ hk).trans (((s.linkShown p true speed full).linkTurned_get p true (fun _ => hseen)
      (fun h => nomatch h)).trans (s.linkShown_get p speed true full hlink))

/-- Settles O36: what brings a link up and takes it down by the branch of each row, and what a change of link is by its parts. -/
theorem linksFollowTheirPorts : Obligations.LinksFollowTheirPorts := by
  unfold Obligations.LinksFollowTheirPorts
  refine ⟨fun s g p speed up full hg => ?_, fun s t p speed n up full hp hspeed ht hn => ?_⟩
  · subst hg
    refine ⟨fun hp hruns h1 h3 => State.together_of (if_pos ?_), fun hnot => State.together_stays_of (if_neg ?_),
      fun hp hup h3 => ?_, fun cause hnot => State.together_stays_of (if_neg ?_), fun hruns hband hloop hsp => State.together_of ?_,
      fun hnot => State.together_stays_of (if_neg ?_), fun who v n k hk h => ?_⟩
    · have hmodes : (p < 2 && s.portRuns p && s.rd (Reg.portLoopMode p) != 1 && s.rd (Reg.portLoopMode p) != 3) = true := by
        simp [hp, hruns, h1, h3]
      exact hmodes
    · have hmodes : ¬(p < 2 && s.portRuns p && s.rd (Reg.portLoopMode p) != 1 && s.rd (Reg.portLoopMode p) != 3) = true := by
        rcases hnot with h | h | h <;> simp [h]
      exact hmodes
    · have hgo : (p < 2 && s.linkUp p && s.rd (Reg.portLoopMode p) != 3) = true := by simp [hp, hup, h3]
      exact ⟨State.together_of (if_pos hgo), State.together_of (if_pos hgo), State.together_of (if_pos hgo)⟩
    · have hgo : ¬(p < 2 && s.linkUp p && s.rd (Reg.portLoopMode p) != 3) = true := by
        rcases hnot with h | h <;> simp [h]
      exact hgo
    · have hgo : (s.portRuns 2 && s.on Reg.mCfgInBand && s.rd (Reg.portLoopMode 2) = 0 && speed < 3) = true := by
        simp [hruns, hband, hloop, hsp]
      refine (if_pos hgo).trans ?_
      have hlink : (up && !(speed == 2 && !full)) = decide (up = true ∧ ¬(speed = 2 ∧ full = false)) := by
        cases up <;> cases full <;> by_cases h2 : speed = 2 <;> simp [h2]
      rw [hlink]
    · have hgo : ¬(s.portRuns 2 && s.on Reg.mCfgInBand && s.rd (Reg.portLoopMode 2) = 0 && speed < 3) = true := by
        rcases hnot with h | h | h <;> simp [h]
      exact hgo
    · subst hk
      refine congrArg Host.Outcome.next ((h.setAs_decides (mine := fun _ => true) rfl rfl rfl).trans ?_)
      refine congrArg (fun g => (s.together g).say .ok) (funext fun z => congrArg State.settleRefs ?_)
      show applyPortCfg (z.takes _ n) p (s.get _) = _
      unfold applyPortCfg
      simp only [Bool.and_eq_true, Bool.not_eq_true']
  · subst ht
    obtain rfl : n = s.framesWaiting p := hn
    obtain ⟨hlink, hrate, hfull⟩ := s.setLink_status (up := up) (full := full) hp hspeed
    refine ⟨hlink, hrate, hfull, fun hsame => ?_, fun hturns => ⟨_, ?_, State.setLink_changed hturns⟩, fun hup hdown => ?_,
      fun hdown hup => ?_, rfl, rfl⟩
    · rcases State.setLink_unchanged (speed := speed) (full := full) hsame with h | h
      · rw [h]
        exact ⟨rfl, rfl, fun _ _ => rfl⟩
      · rw [h]
        exact ⟨rfl, rfl, fun k hk => s.linkShown_get p speed up full hk⟩
    · unfold State.linkTurned
      split
      · split <;> rfl
      · rfl
    · subst hdown
      exact State.setLink_down hp hup
    · subst hup
      exact State.setLink_up hp hdown

/-! Frames received and sent. -/

theorem State.lineCounts_codeErr (s : State) (f : FrameIn) (p : Nat) :
    (s.lineCounts p f).rd (Reg.portRxCodeErr p) = min (s.rd (Reg.portRxCodeErr p) + f.codeErr) (2 ^ 64 - 1) := by
  unfold State.lineCounts
  dsimp only
  split
  · exact (State.rd_bump_ne _ _ (by dsimp only; omega)).trans ((State.rd_bump_ne _ _ (by dsimp only; omega)).trans (State.rd_bump_same ..))
  · exact State.rd_bump_same ..

theorem State.lineCounts_fec (s : State) (f : FrameIn) {p : Nat} (hp : p < 2) (hfec : s.rd (Reg.portCfgFec p) ≠ 0) :
    (s.lineCounts p f).rd (Reg.portFecCorrected p) = min (s.rd (Reg.portFecCorrected p) + f.fecFixed) (2 ^ 64 - 1)
    ∧ (s.lineCounts p f).rd (Reg.portFecUncorrected p) = min (s.rd (Reg.portFecUncorrected p) + f.fecLost) (2 ^ 64 - 1) := by
  have hcfg : (s.bump (Reg.portRxCodeErr p) f.codeErr).rd (Reg.portCfgFec p) = s.rd (Reg.portCfgFec p) :=
    State.rd_bump_ne _ _ (by dsimp only; omega)
  unfold State.lineCounts
  dsimp only
  rw [if_pos (by simp [hp, hcfg, hfec])]
  constructor
  · refine (State.rd_bump_ne _ _ (by dsimp only; omega)).trans ((State.rd_bump_same ..).trans ?_)
    rw [State.rd_bump_ne _ _ (by dsimp only; omega)]
  · refine (State.rd_bump_same ..).trans ?_
    rw [State.rd_bump_ne _ _ (by dsimp only; omega), State.rd_bump_ne _ _ (by dsimp only; omega)]

/-- Settles O37: a frame by its length and FCS, and the end of a transmission by what stands on the wire. -/
theorem framesAreSorted : Obligations.FramesAreSorted := by
  unfold Obligations.FramesAreSorted
  intro s u p n cfg f hn hu hcfg
  refine ⟨fun hp hruns hup hloop => ?_, fun hnot => ⟨State.together_stays_of (if_neg ?_), State.together_stays_of (if_neg ?_)⟩,
    fun q w hp hwire hhd hlocked => State.together_of ?_, fun q hnot => State.together_stays_of ?_, fun _ => s.lineCounts_codeErr f p,
    s.lineCounts_fec f⟩
  · have hgo : (p < 3 && s.portRuns p && s.linkUp p && (s.rd (Reg.portLoopMode p) == 0 || s.rd (Reg.portLoopMode p) == 4)) = true := by
      simp [hp, hruns, hup, hloop]
    have hexec : exec (.frameRx p f) s = .next (s.scatter (u.frameTake p f)) := by
      subst hu
      exact State.together_of (if_pos hgo)
    have htake : ∀ t, u.frameTake p f = t → exec (.frameRx p f) s = .next (s.scatter t) := fun t h => by rw [hexec, h]
    subst hn hcfg
    refine ⟨fun hrunt => htake _ (if_pos (by omega)),
      fun hlen hlimit => htake _ ((if_neg (by omega)).trans (if_pos hlimit)), fun hlen hlimit hfcs => ?_, fun hlen hlimit hfcs => ?_,
      fun hmedia htype hsub => ?_⟩
    · have hbad : ¬63 ≥ f.bytes.length + 4 ∧ ¬limit (u.frameCfgAt p f.q) (tagged (u.frameCfgAt p f.q) f.bytes) < f.bytes.length + 4 :=
        ⟨by omega, by omega⟩
      refine ⟨fun h2 hspeed hodd => htake _ ?_, fun hnot => htake _ ?_⟩
      · refine (if_neg hbad.1).trans ((if_neg hbad.2).trans ((if_pos (by rw [hfcs]; rfl)).trans ?_))
        rw [if_pos (by simp [h2, hspeed, hodd])]
      · refine (if_neg hbad.1).trans ((if_neg hbad.2).trans ((if_pos (by rw [hfcs]; rfl)).trans ?_))
        rw [if_neg]
        rcases hnot with h | h | h <;> simp [h]
    · exact htake _ ((if_neg (by omega)).trans ((if_neg (by omega)).trans (if_neg (by rw [hfcs]; decide))))
    · have hesmc : exec (.esmcPduRx p f) s = .next (s.scatter (u.frameTake p f)) := by
        have hpdu : (p < 2 && s.portRuns p && s.linkUp p && (s.rd (Reg.portLoopMode p) == 0 || s.rd (Reg.portLoopMode p) == 4)
            && at_ f.bytes 12 2 = 0x8809 && at_ f.bytes 14 1 = 0x0A) = true := by
          simp [hmedia, hruns, hup, hloop, htype, hsub]
        subst hu
        exact State.together_of (if_pos hpdu)
      exact ⟨hesmc.trans hexec.symm, hesmc⟩
  · have hgo : ¬(p < 3 && s.portRuns p && s.linkUp p && (s.rd (Reg.portLoopMode p) == 0 || s.rd (Reg.portLoopMode p) == 4)) = true := by
      rcases hnot with h | h <;> simp [h]
    exact hgo
  · have hgo : ¬(p < 2 && s.portRuns p && s.linkUp p && (s.rd (Reg.portLoopMode p) == 0 || s.rd (Reg.portLoopMode p) == 4)
        && at_ f.bytes 12 2 = 0x8809 && at_ f.bytes 14 1 = 0x0A) = true := by
      rcases hnot with h | h <;> simp [h]
    exact hgo
  · rw [State.gather_port, hwire]
    exact if_pos (by simp [hp, hhd, hlocked])
  · rw [State.gather_port]
    split
    next w hwire =>
      refine if_neg ?_
      rcases hnot with h | h | h
      · rw [hwire] at h; cases h
      · simp [h]
      · simp [h]
    next => rfl

end
end Sys2Proof.Machine
end


section
/-! Sends: how an accepted one joins its queue, and what its segments are (O38). -/

namespace Sys2Proof.Machine

/-! Big-endian numbers, and what is written over a byte string. -/

theorem foldl_bytes (l : List Byte) (n : Nat) :
    l.foldl (fun n b => n * 256 + b.toNat) n = n * 256 ^ l.length + l.foldl (fun n b => n * 256 + b.toNat) 0 := by
  induction l generalizing n with
  | nil => simp
  | cons b r ih =>
    rw [List.foldl_cons, List.foldl_cons, ih, ih (0 * 256 + b.toNat), List.length_cons, pow_succ]
    ring

theorem natBe_length (n v : Nat) : (natBe n v).length = n := by
  induction n with
  | zero => rfl
  | succ n ih => rw [natBe, List.length_cons, ih]

theorem beNat_natBe (n v : Nat) : beNat (natBe n v) = v % 256 ^ n := by
  induction n with
  | zero => rw [pow_zero, Nat.mod_one]; rfl
  | succ n ih =>
    have hfold : beNat (natBe (n + 1) v) = (v / 256 ^ n % 256) * 256 ^ n + beNat (natBe n v) := by
      rw [natBe]
      show List.foldl _ (0 * 256 + _) (natBe n v) = _
      rw [foldl_bytes, natBe_length, Nat.zero_mul, Nat.zero_add, BitVec.toNat_ofNat]
      rfl
    rw [hfold, ih, pow_succ, Nat.mod_mul]
    ring

section
variable {a b l v : List Byte} {i j n : Nat}

theorem overlay_length (h : i + v.length ≤ l.length) : (overlay l i v).length = l.length := by
  unfold overlay
  simp only [List.length_append, List.length_take, List.length_drop]
  omega

/-- What is written reads so. -/
theorem at_overlay_same (hi : i ≤ l.length) (hn : v.length = n) : at_ (overlay l i v) i n = beNat v := by
  unfold at_ overlay
  have hlen : (l.take i).length = i := List.length_take_of_le hi
  rw [List.append_assoc, List.drop_append_of_le_length (by omega), List.drop_of_length_le (by omega), List.nil_append,
    List.take_append_of_le_length (by omega), ← hn, List.take_length]

/-- Before it nothing changes. -/
theorem at_overlay_before (hi : i ≤ l.length) (h : j + n ≤ i) : at_ (overlay l i v) j n = at_ l j n := by
  unfold at_ overlay
  have hlen : (l.take i).length = i := List.length_take_of_le hi
  rw [List.append_assoc, List.drop_append_of_le_length (by omega),
    List.take_append_of_le_length (by rw [List.length_drop]; omega), List.drop_take, List.take_take, Nat.min_eq_left (by omega)]

/-- A part of a byte string, read in the whole. -/
theorem at_append (h : j + n ≤ b.length) : at_ (a ++ b ++ l) (a.length + j) n = at_ b j n := by
  unfold at_
  rw [List.append_assoc, ← List.drop_drop, List.drop_left, List.drop_append_of_le_length (by omega),
    List.take_append_of_le_length (by rw [List.length_drop]; omega)]

end

/-! Segments. -/

/-- The IPv4 header of a segment whose IPv4 header was `ip` (R151). -/
def segmentIp (ip : List Byte) (total ident : Nat) : List Byte :=
  let ip := overlay (overlay (overlay ip 2 (natBe 2 total)) 4 (natBe 2 ident)) 10 [0, 0]
  overlay ip 10 (natBe 2 (inetCsum ip))

theorem segmentIp_spec {ip : List Byte} (total ident : Nat) (h : 20 ≤ ip.length) :
    (segmentIp ip total ident).length = ip.length ∧ at_ (segmentIp ip total ident) 2 2 = total % 65536
    ∧ at_ (segmentIp ip total ident) 4 2 = ident % 65536 := by
  unfold segmentIp
  dsimp only
  have h1 : (overlay ip 2 (natBe 2 total)).length = ip.length := overlay_length (by rw [natBe_length]; omega)
  have h2 : (overlay (overlay ip 2 (natBe 2 total)) 4 (natBe 2 ident)).length = ip.length := by
    rw [overlay_length (by rw [natBe_length]; omega), h1]
  have h3 : (overlay (overlay (overlay ip 2 (natBe 2 total)) 4 (natBe 2 ident)) 10 [0, 0]).length = ip.length := by
    rw [overlay_length (by rw [h2]; exact Nat.le_trans (by decide) h), h2]
  refine ⟨?_, ?_, ?_⟩
  · rw [overlay_length (by rw [natBe_length]; omega), h3]
  · rw [at_overlay_before (by omega) (by decide), at_overlay_before (by omega) (by decide), at_overlay_before (by omega) (by decide),
      at_overlay_same (by omega) (natBe_length ..), beNat_natBe]
    rfl
  · rw [at_overlay_before (by omega) (by decide), at_overlay_before (by omega) (by decide),
      at_overlay_same (by omega) (natBe_length ..), beNat_natBe]
    rfl

/-- The TCP or UDP header of a segment, before its checksum (R151). -/
def segmentL4 (h : List Byte) (tcp : Bool) (seq fl len : Nat) : List Byte :=
  if tcp then overlay (overlay (overlay h 4 (natBe 4 seq)) 13 (natBe 1 fl)) 16 [0, 0]
  else overlay (overlay h 4 (natBe 2 len)) 6 [0, 0]

theorem segmentL4_spec {h : List Byte} (tcp : Bool) (seq fl len c : Nat) (hmin : 8 ≤ h.length) (htcp : tcp = true → 20 ≤ h.length) :
    (overlay (segmentL4 h tcp seq fl len) (if tcp then 16 else 6) (natBe 2 c)).length = h.length
    ∧ (tcp = true → at_ (overlay (segmentL4 h tcp seq fl len) (if tcp then 16 else 6) (natBe 2 c)) 4 4 = seq % 2 ^ 32)
    ∧ (tcp = false → at_ (overlay (segmentL4 h tcp seq fl len) (if tcp then 16 else 6) (natBe 2 c)) 4 2 = len % 65536) := by
  unfold segmentL4
  cases tcp with
  | true =>
    have hlen := htcp rfl
    have h1 : (overlay h 4 (natBe 4 seq)).length = h.length := overlay_length (by rw [natBe_length]; omega)
    have h2 : (overlay (overlay h 4 (natBe 4 seq)) 13 (natBe 1 fl)).length = h.length := by
      rw [overlay_length (by rw [natBe_length]; omega), h1]
    have h3 : (overlay (overlay (overlay h 4 (natBe 4 seq)) 13 (natBe 1 fl)) 16 [0, 0]).length = h.length := by
      rw [overlay_length (by rw [h2]; exact Nat.le_trans (by decide) hlen), h2]
    simp only [if_true]
    refine ⟨?_, fun _ => ?_, fun hf => nomatch hf⟩
    · rw [overlay_length (by rw [natBe_length]; omega), h3]
    · rw [at_overlay_before (by omega) (by decide), at_overlay_before (by omega) (by decide), at_overlay_before (by omega) (by decide),
        at_overlay_same (by omega) (natBe_length ..), beNat_natBe]
      rfl
  | false =>
    have h1 : (overlay h 4 (natBe 2 len)).length = h.length := overlay_length (by rw [natBe_length]; omega)
    have h2 : (overlay (overlay h 4 (natBe 2 len)) 6 [0, 0]).length = h.length := by
      rw [overlay_length (by rw [h1]; exact hmin), h1]
    simp only [Bool.false_eq_true, if_false]
    refine ⟨?_, fun hf => hf.elim, fun _ => ?_⟩
    · rw [overlay_length (by rw [natBe_length]; omega), h2]
    · rw [at_overlay_before (by omega) (by decide), at_overlay_before (by omega) (by decide),
        at_overlay_same (by omega) (natBe_length ..), beNat_natBe]
      rfl

/-- A segment by its parts: what stands before the IPv4 header, the two headers, and its part of the payload. -/
theorem segment_parts {l : List Byte} {tcp : Bool} {size o t ihl l4 : Nat} (k : Nat) (ho : o = ipOff l)
    (hihl : ihl = at_ l o 1 % 16 * 4) (ht : t = o + ihl) (hl4 : l4 = if tcp then at_ l (t + 12) 1 / 16 * 4 else 8) :
    ∃ fl c, segment l tcp size k = l.take o
      ++ segmentIp ((l.drop o).take ihl) (ihl + l4 + (((l.drop (t + l4)).drop (k * size)).take size).length) (at_ l (o + 4) 2 + k)
      ++ overlay (segmentL4 ((l.drop t).take l4) tcp (at_ l (t + 4) 4 + k * size) fl
          (8 + (((l.drop (t + l4)).drop (k * size)).take size).length)) (if tcp then 16 else 6) (natBe 2 c)
      ++ ((l.drop (t + l4)).drop (k * size)).take size := by
  subst ht ho hihl hl4
  exact ⟨_, _, rfl⟩

/-- What R150 asks of the lengths of a segmented send. -/
theorem segOk_lengths {l : List Byte} {tcp : Bool} {size a b o t ihl l4 : Nat} (hok : segOk l tcp size a b = true) (ho : o = ipOff l)
    (hihl : ihl = at_ l o 1 % 16 * 4) (ht : t = o + ihl) (hl4 : l4 = if tcp then at_ l (t + 12) 1 / 16 * 4 else 8) :
    20 ≤ ihl ∧ 8 ≤ l4 ∧ (tcp = true → 20 ≤ l4) ∧ t + l4 ≤ l.length := by
  subst ht ho hihl hl4
  unfold segOk at hok
  simp only [Bool.and_eq_true, Bool.or_eq_true, Bool.not_eq_true', decide_eq_true_eq] at hok
  obtain ⟨⟨⟨⟨⟨⟨⟨⟨⟨⟨⟨-, -⟩, -⟩, hihl⟩, -⟩, -⟩, -⟩, hmin⟩, htcp⟩, hlen⟩, -⟩, -⟩ := hok
  exact ⟨hihl, hmin, fun h => htcp.resolve_left (by simp [h]), hlen⟩

/-- A segment of a send that R150 allows (R151). -/
theorem segment_spec {l : List Byte} {tcp : Bool} {size a b o t h : Nat} (k : Nat) (hok : segOk l tcp size a b = true) (ho : o = ipOff l)
    (ht : t = o + at_ l o 1 % 16 * 4) (hh : h = t + (if tcp then at_ l (t + 12) 1 / 16 * 4 else 8)) (g part : List Byte)
    (hg : g = segment l tcp size k) (hpart : part = ((l.drop h).drop (k * size)).take size) :
    g.drop h = part ∧ g.take o = l.take o ∧ at_ g (o + 2) 2 = (h - o + part.length) % 65536
    ∧ at_ g (o + 4) 2 = (at_ l (o + 4) 2 + k) % 65536
    ∧ (tcp = true → at_ g (t + 4) 4 = (at_ l (t + 4) 4 + k * size) % 2 ^ 32)
    ∧ (tcp = false → at_ g (t + 4) 2 = (8 + part.length) % 65536) := by
  generalize hihl : at_ l o 1 % 16 * 4 = ihl at ht
  generalize hl4 : (if tcp then at_ l (t + 12) 1 / 16 * 4 else 8) = l4 at hh
  obtain ⟨hip20, h8, h20, hlen⟩ := segOk_lengths hok ho hihl.symm ht hl4.symm
  obtain ⟨fl, c, hparts⟩ := segment_parts (size := size) k ho hihl.symm ht hl4.symm
  rw [← hh, ← hpart] at hparts
  have hhead : (l.take o).length = o := List.length_take_of_le (by omega)
  have hipLen : ((l.drop o).take ihl).length = ihl := List.length_take_of_le (by rw [List.length_drop]; omega)
  have hl4Len : ((l.drop t).take l4).length = l4 := List.length_take_of_le (by rw [List.length_drop]; omega)
  obtain ⟨hipNew, htotal, hident⟩ := segmentIp_spec (ip := (l.drop o).take ihl) (ihl + l4 + part.length) (at_ l (o + 4) 2 + k) (by omega)
  obtain ⟨hl4New, hseq, hudp⟩ := segmentL4_spec (h := (l.drop t).take l4) tcp (at_ l (t + 4) 4 + k * size) fl (8 + part.length) c
    (by omega) (by rw [hl4Len]; exact h20)
  rw [hipLen] at hipNew
  rw [hl4Len] at hl4New
  rw [hg, hparts]
  generalize segmentIp _ _ _ = ip at *
  generalize overlay (segmentL4 _ _ _ _ _) _ _ = hd at *
  generalize l.take o = pre at *
  have hfront : (pre ++ ip).length = t := by rw [List.length_append, hhead, hipNew, ht]
  refine ⟨?_, ?_, ?_, ?_, fun htcp => ?_, fun htcp => ?_⟩
  · rw [List.drop_left' (by rw [List.length_append, hfront, hl4New, hh])]
  · rw [List.append_assoc, List.append_assoc, List.take_left' hhead]
  · rw [List.append_assoc (pre ++ ip), ← hhead, at_append (by omega), htotal, hhead, show h - o = ihl + l4 by omega]
  · rw [List.append_assoc (pre ++ ip), ← hhead, at_append (by omega), hident, hhead]
  · rw [← hfront, at_append (by have := h20 htcp; omega), hseq htcp, hfront]
  · rw [← hfront, at_append (by omega), hudp htcp]

/-! The send itself. -/

/-- A send that the checks turn away at its queue is counted (R158). -/
theorem State.setAs_of_refusedSend {s : State} {who : Role} {key p q n : Nat} {v : Val} {st : Status}
    (hready : s.on Reg.deviceStatusChipReady = true) (hquiet : s.catchUp = s) (hname : s.named key v = some (.txqSend, p, q, n))
    (hst : s.judge who (itemOf key v) = st) (hno : st = .outOfRange ∨ st = .conflict ∨ st = .busy) :
    s.setAs .txqSend key who v (fun _ => true) = (s.bump (Reg.portTxRefused p) 1).say st := by
  obtain ⟨d, hentry, hent, rfl⟩ := State.entryAt_of_named hname
  have hnote : s.noteRefused (itemOf key v) st = s.bump (Reg.portTxRefused p) 1 := by
    unfold State.noteRefused
    rw [show (itemOf key v).key = key from rfl, hentry]
    rcases hno with rfl | rfl | rfl <;> simp [hent]
  have hitem : s.setItem who (itemOf key v) = (st, s.bump (Reg.portTxRefused p) 1) := by
    unfold State.setItem
    rw [hst]
    rcases hno with rfl | rfl | rfl
    · exact congrArg (Prod.mk _) hnote
    · exact congrArg (Prod.mk _) hnote
    · exact congrArg (Prod.mk _) hnote
  unfold State.setAs
  rw [(State.entryAt_mem hentry).2, if_neg (by simp [hready]), hquiet]
  dsimp only
  rw [if_pos (by simp [hent]), show ({ key := key, ty := tyCode v.ty, raw := v.raw } : Item) = itemOf key v from rfl, hitem]

/-- Settles O38: an accepted send joins its queue by its SEG, a refused one is counted, and a segment is read off its parts. -/
theorem sendsAreQueued : Obligations.SendsAreQueued := by
  unfold Obligations.SendsAreQueued
  refine ⟨fun s who p q n v k hk => ⟨fun h u x l hu hx hl => ⟨fun hseg => ?_, fun hseg => ?_⟩,
    fun hready hquiet hname st hst hno => ?_⟩, fun l tcp size a b o t h hok ho ht hh => ⟨?_, fun k hk g part hg hpart => ?_⟩⟩
  · subst hk hu hx hl
    refine congrArg Host.Outcome.next ((h.setAs_stored (mine := fun _ => true) rfl rfl rfl).trans ?_)
    exact congrArg (fun t => State.say t .ok) (if_pos hseg)
  · subst hk hu hx hl
    refine congrArg Host.Outcome.next ((h.setAs_stored (mine := fun _ => true) rfl rfl rfl).trans ?_)
    exact congrArg (fun t => State.say t .ok) (if_neg (by omega))
  · subst hk
    exact congrArg Host.Outcome.next (State.setAs_of_refusedSend hready hquiet hname hst hno)
  · subst ho ht hh
    unfold segments
    rw [List.length_map, List.length_range]
  · have hbytes : g = segment l tcp size k := by
      exact hg.trans ((congrArg TxFrame.bytes (List.getElem_map _)).trans (congrArg (segment l tcp size) (List.getElem_range _)))
    exact segment_spec k hok ho ht hh g part hbytes hpart

end Sys2Proof.Machine
end


section
/-! The stream contexts: ENABLE, and the engine's times (O39). -/

namespace Sys2Proof.Machine

theorem bit_eq_testBit (n i : Nat) : bit n i = n.testBit i := by
  unfold bit
  rw [Nat.testBit_eq_decide_div_mod_eq]
  rfl

/-- ENABLE as the value of a CTRL entry shows it. -/
theorem field_bit (n i : Nat) : (field n i 1 == 1) = bit n i := rfl

section
variable {u : State} {c old n : Nat}

theorem applyRxCtrl_on (h : bit n 0 = true) :
    (u.rxState c = 0 → bit n 1 = false → applyRxCtrl u c old n = u.rxStart c)
    ∧ (u.rxState c = 0 → bit n 1 = true → applyRxCtrl u c old n = u.rxGo c 1)
    ∧ (u.rxState c = 5 → bit old 0 = false → applyRxCtrl u c old n =
        if (u.rx c).here then u.rxGo c 3 else (u.rxGo c 4).bump (Reg.rxRxUnderruns c) 1)
    ∧ (u.rxState c = 5 → bit old 0 = true → applyRxCtrl u c old n = u)
    ∧ (u.rxState c = 6 → applyRxCtrl u c old n = u.rxGo c 2)
    ∧ (1 ≤ u.rxState c → u.rxState c < 5 → applyRxCtrl u c old n = u) := by
  have hnow : (field n 0 1 == 1) = true := h
  unfold applyRxCtrl
  rw [hnow]
  refine ⟨fun hst hmode => ?_, fun hst hmode => ?_, fun hst hold => ?_, fun hst hold => ?_, fun hst => ?_, fun hlo hhi => ?_⟩
  · rw [hst]
    have hmode' : ¬field n 1 1 = 1 := fun hc => by rw [← field_bit, hc] at hmode; cases hmode
    exact if_neg hmode'
  · rw [hst]
    exact if_pos (eq_of_beq hmode)
  · rw [hst]
    have hold' : ¬field old 0 1 = 1 := fun hc => by rw [← field_bit, hc] at hold; cases hold
    have hzero : field old 0 1 = 0 := by have := Nat.mod_lt (old / 2 ^ 0) (show 0 < 2 ^ 1 by decide); unfold field at hold' ⊢; omega
    exact if_pos (by rw [hzero]; rfl)
  · rw [hst]
    have hone : field old 0 1 = 1 := eq_of_beq hold
    exact if_neg (by rw [hone]; decide)
  · rw [hst]
    rfl
  · obtain hst | hst | hst | hst : u.rxState c = 1 ∨ u.rxState c = 2 ∨ u.rxState c = 3 ∨ u.rxState c = 4 := by omega
    all_goals
      rw [hst]
      rfl

theorem applyRxCtrl_off (h : bit n 0 = false) :
    (u.rxState c = 1 → applyRxCtrl u c old n = u.rxOff c)
    ∧ (2 ≤ u.rxState c → u.rxState c < 5 → applyRxCtrl u c old n = u.rxGo c 5)
    ∧ (u.rxState c = 0 ∨ u.rxState c = 5 ∨ u.rxState c = 6 → applyRxCtrl u c old n = u) := by
  have hnow : (field n 0 1 == 1) = false := h
  unfold applyRxCtrl
  rw [hnow]
  refine ⟨fun hst => ?_, fun hlo hhi => ?_, fun hst => ?_⟩
  · rw [hst]
    rfl
  · obtain hst | hst | hst : u.rxState c = 2 ∨ u.rxState c = 3 ∨ u.rxState c = 4 := by omega
    all_goals
      rw [hst]
      rfl
  · rcases hst with hst | hst | hst
    all_goals
      rw [hst]
      rfl

theorem applyTxCtrl_on (h : bit n 0 = true) :
    (u.txState c = 0 → bit n 1 = false → applyTxCtrl u c n = u.txStartGo c)
    ∧ (u.txState c = 0 → bit n 1 = true → applyTxCtrl u c n = u.txGo c 1)
    ∧ (u.txState c = 4 → applyTxCtrl u c n = u.txGo c 3)
    ∧ (u.txState c = 5 → applyTxCtrl u c n = (u.setTx c { u.tx c with silent := 0, begun := false }).txGo c 2)
    ∧ (1 ≤ u.txState c → u.txState c < 4 → applyTxCtrl u c n = u) := by
  have hnow : (field n 0 1 == 1) = true := h
  unfold applyTxCtrl
  rw [hnow]
  refine ⟨fun hst hmode => ?_, fun hst hmode => ?_, fun hst => ?_, fun hst => ?_, fun hlo hhi => ?_⟩
  · rw [hst]
    have hmode' : ¬field n 1 1 = 1 := fun hc => by rw [← field_bit, hc] at hmode; cases hmode
    exact if_neg hmode'
  · rw [hst]
    exact if_pos (eq_of_beq hmode)
  · rw [hst]
    rfl
  · rw [hst]
    rfl
  · obtain hst | hst | hst : u.txState c = 1 ∨ u.txState c = 2 ∨ u.txState c = 3 := by omega
    all_goals
      rw [hst]
      rfl

theorem applyTxCtrl_off (h : bit n 0 = false) :
    (u.txState c = 1 → applyTxCtrl u c n = u.txGo c 0)
    ∧ (u.txState c = 2 ∨ u.txState c = 3 → applyTxCtrl u c n = u.txGo c 4)
    ∧ (u.txState c = 0 ∨ u.txState c = 4 ∨ u.txState c = 5 → applyTxCtrl u c n = u) := by
  have hnow : (field n 0 1 == 1) = false := h
  unfold applyTxCtrl
  rw [hnow]
  refine ⟨fun hst => ?_, fun hst => ?_, fun hst => ?_⟩
  · rw [hst]
    rfl
  · rcases hst with hst | hst
    all_goals
      rw [hst]
      rfl
  · rcases hst with hst | hst | hst
    all_goals
      rw [hst]
      rfl

end

/-! A non-audio flag that falls. -/

/-- The entries that a non-audio flag of context `c` touches. -/
def NaKey (c k : Nat) : Prop := k = (Reg.rxNaNa c).key ∨ k ∈ lbKeys

theorem State.naSet_off (s : State) (c ch : Nat) :
    (ch < 64 → bit ((s.naSet c ch false).rd (Reg.rxNaNa c)) ch = false)
    ∧ (∀ i < 64, i ≠ ch → bit ((s.naSet c ch false).rd (Reg.rxNaNa c)) i = bit (s.rd (Reg.rxNaNa c)) i)
    ∧ Only (NaKey c) s (s.naSet c ch false) := by
  have hlb : (Reg.rxNaNa c).key ∉ lbKeys := by
    simp only [lbKeys, List.mem_cons, List.not_mem_nil, or_false]
    omega
  unfold State.naSet
  by_cases hbit : bit (s.rd (Reg.rxNaNa c)) ch = false
  · rw [if_pos hbit]
    exact ⟨fun _ => hbit, fun _ _ _ => rfl, .refl _ s⟩
  · rw [if_neg hbit]
    have hrd : ∀ (w : State) x, ((w.bumpIf false (Reg.rxRxNaDetect c)).post 0x4003 3 x).rd (Reg.rxNaNa c) = w.rd (Reg.rxNaNa c) :=
      fun w x => State.post_rd _ _ _ _ hlb
    dsimp only
    rw [hrd, State.rd_wr_same]
    refine ⟨fun hch => ?_, fun i hi hne => ?_, ?_⟩
    · rw [bit_eq_testBit, Nat.testBit_mod_two_pow, testBit_setField, if_neg (Nat.lt_irrefl ch), if_pos (Nat.lt_succ_self ch), Nat.sub_self]
      exact Bool.and_false _
    · rw [bit_eq_testBit, bit_eq_testBit, Nat.testBit_mod_two_pow, testBit_setField, decide_eq_true hi, Bool.true_and]
      split
      · rfl
      · rw [if_neg (by omega)]
    · exact .post (.wr (.refl _ s) (.inl rfl)) fun k hk => .inr hk

/-- A pair of channels that loses its flags (R185). -/
theorem State.naPair_off (s : State) (c k : Nat) :
    (2 * k + 1 < 64 → bit (((s.naSet c (2 * k) false).naSet c (2 * k + 1) false).rd (Reg.rxNaNa c)) (2 * k) = false
      ∧ bit (((s.naSet c (2 * k) false).naSet c (2 * k + 1) false).rd (Reg.rxNaNa c)) (2 * k + 1) = false)
    ∧ Only (NaKey c) s ((s.naSet c (2 * k) false).naSet c (2 * k + 1) false) := by
  obtain ⟨heven, -, honly⟩ := s.naSet_off c (2 * k)
  obtain ⟨hodd, hkeeps, honly'⟩ := (s.naSet c (2 * k) false).naSet_off c (2 * k + 1)
  refine ⟨fun hk => ⟨?_, hodd hk⟩, honly.trans honly'⟩
  rw [hkeeps _ (by omega) (by omega)]
  exact heven (by omega)

/-- Settles O39: ENABLE by the state it finds, and each time by the branch its conditions lead to. -/
theorem streamSettings : Obligations.StreamSettings := by
  unfold Obligations.StreamSettings
  refine ⟨fun s who c v n k u hu => ⟨fun hk h => ⟨fun hon => ?rxOn, fun hoff => ?rxOff⟩, fun hk h => ⟨fun hon => ?txOn, fun hoff => ?txOff⟩⟩,
    fun s g c k path f hg hf => ?times⟩
  case rxOn =>
    subst hk hu
    have hexec : ∀ t, applyRxCtrl (s.takes (Reg.rxCtrlEnable c).key n) c (s.get (Reg.rxCtrlEnable c).key) n = t →
        exec (.streamRxEnable who c v) s = .next (t.say .ok) := fun t ht =>
      congrArg Host.Outcome.next ((h.setAs_stored (mine := fun n => bit n 0) hon rfl rfl).trans (congrArg (fun t => State.say t .ok) ht))
    obtain ⟨hstart, harm, hback, hstays, hheld, hruns⟩ :=
      applyRxCtrl_on (u := s.takes (Reg.rxCtrlEnable c).key n) (c := c) (old := s.get (Reg.rxCtrlEnable c).key) hon
    exact ⟨fun hst hmode => hexec _ (hstart hst hmode), fun hst hmode => hexec _ (harm hst hmode),
      fun hst hold => ⟨fun hhere => hexec _ ((hback hst hold).trans (if_pos hhere)),
        fun hhere => hexec _ ((hback hst hold).trans (if_neg (by rw [hhere]; decide)))⟩,
      fun hst hold => hexec _ (hstays hst hold), fun hst => hexec _ (hheld hst), fun hlo hhi => hexec _ (hruns hlo hhi)⟩
  case rxOff =>
    subst hk hu
    have hexec : ∀ t, applyRxCtrl (s.takes (Reg.rxCtrlEnable c).key n) c (s.get (Reg.rxCtrlEnable c).key) n = t →
        exec (.streamRxDisable who c v) s = .next (t.say .ok) := fun t ht =>
      congrArg Host.Outcome.next ((h.setAs_stored (mine := fun n => !bit n 0) (by rw [hoff]; rfl) rfl rfl).trans
        (congrArg (fun t => State.say t .ok) ht))
    obtain ⟨harmed, hruns, hidle⟩ :=
      applyRxCtrl_off (u := s.takes (Reg.rxCtrlEnable c).key n) (c := c) (old := s.get (Reg.rxCtrlEnable c).key) hoff
    exact ⟨fun hst => hexec _ (harmed hst), fun hlo hhi => hexec _ (hruns hlo hhi), fun hst => hexec _ (hidle hst)⟩
  case txOn =>
    subst hk hu
    have hexec : ∀ t, applyTxCtrl (s.takes (Reg.txCtrlEnable c).key n) c n = t →
        exec (.streamTxEnable who c v) s = .next (t.say .ok) := fun t ht =>
      congrArg Host.Outcome.next ((h.setAs_stored (mine := fun n => bit n 0) hon rfl rfl).trans (congrArg (fun t => State.say t .ok) ht))
    obtain ⟨hstart, harm, hback, hheld, hruns⟩ := applyTxCtrl_on (u := s.takes (Reg.txCtrlEnable c).key n) (c := c) hon
    exact ⟨fun hst hmode => hexec _ (hstart hst hmode), fun hst hmode => hexec _ (harm hst hmode), fun hst => hexec _ (hback hst),
      fun hst => hexec _ (hheld hst), fun hlo hhi => hexec _ (hruns hlo hhi)⟩
  case txOff =>
    subst hk hu
    have hexec : ∀ t, applyTxCtrl (s.takes (Reg.txCtrlEnable c).key n) c n = t →
        exec (.streamTxDisable who c v) s = .next (t.say .ok) := fun t ht =>
      congrArg Host.Outcome.next ((h.setAs_stored (mine := fun n => !bit n 0) (by rw [hoff]; rfl) rfl rfl).trans
        (congrArg (fun t => State.say t .ok) ht))
    obtain ⟨harmed, hruns, hidle⟩ := applyTxCtrl_off (u := s.takes (Reg.txCtrlEnable c).key n) (c := c) hoff
    exact ⟨fun hst => hexec _ (harmed hst), fun hst => hexec _ (hruns hst), fun hst => hexec _ (hidle hst)⟩
  case times =>
    subst hg
    refine ⟨fun hon => ?_, fun hoff => ?_, fun hst => State.together_of (if_pos hst), fun hst => State.together_stays_of (if_neg hst),
      fun hst => State.together_of (if_pos hst), fun hst => State.together_stays_of (if_neg hst),
      fun run hold hrun hhold => ⟨fun hnot => congrArg Host.Outcome.next (if_neg ?_), fun hformat hlong => ?_⟩,
      fun hidle => congrArg Host.Outcome.next (if_pos (by rw [hidle]; rfl)), fun hactive hcount => ?_, fun hactive hcount => ?_⟩
    · subst hf
      exact congrArg Host.Outcome.next (if_neg (by rw [hon]; decide))
    · subst hf
      exact congrArg Host.Outcome.next (if_pos hoff)
    · subst hrun hhold
      rcases hnot with h | h
      · simp [h]
      · simp [Nat.not_le.mpr h]
    · subst hrun hhold
      obtain ⟨hflags, honly⟩ := s.naPair_off c k
      refine ⟨_, congrArg Host.Outcome.next (if_pos (by simp [hformat, hlong])), hflags, ?_, fun x hx hlb => honly x ?_⟩
      · exact (congrArg (fun y => Sparse.get (fun _ => 0) (RxCtx.naRun y) k) (Sparse.get_put_same ..)).trans (Sparse.get_put_same ..)
      · rintro (h | h)
        · exact hx h
        · exact hlb h
    · exact congrArg Host.Outcome.next ((if_neg (by rw [hactive]; decide)).trans (if_pos hcount))
    · exact congrArg Host.Outcome.next ((if_neg (by rw [hactive]; decide)).trans (if_neg hcount))

end Sys2Proof.Machine
end


section
/-! The TDM ports: SIDE_CTRL and MASK_COMMIT, the frames of a side, and its own changes of state (O40 to O42). -/

namespace Sys2Proof.Machine

section
variable {s u : State} {p b : Nat}

/-! SIDE_CTRL. -/

/-- ENABLE of a side reads as an accepted SET sent it. -/
theorem State.Accepts.side_enable {who : Role} {v : Val} {n : Nat} (h : s.Accepts who (Reg.sideCtrlEnable p b).key v .sideCtrl p b n)
    (z : State) : (z.takes (Reg.sideCtrlEnable p b).key n).on (Reg.sideCtrlEnable p b) = bit n 0 := by
  obtain ⟨d, hentry, hent, -⟩ := State.entryAt_of_named h.entry
  have hloc := (State.entryAt_mem hentry).2
  obtain rfl := desc_of_locate (x := ⟨.sideCtrl, 0x51000001, [(256, 48), (1, 2)], .u32, 4, 4, 4, 3, 0, [.any 0 1 .rw 0, .any 1 1 .rw 0,
    .any 2 1 .rw 0, .rng 3 2 .rw 2 0 2, .any 5 1 .rw 0, .any 6 1 .rw 0, .rng 7 4 .rw 7 0 11, .rng 11 6 .rw 32 8 32, .rng 17 6 .rw 8 1 32,
    .any 23 6 .rw 1, .any 29 3 .rsv 0]⟩) hloc (by decide +kernel) hent
  have hread := State.rd_takes (s := z) (n := n) hloc (f := .any 0 1 .rw 0) List.mem_cons_self Nat.one_pos
  have hsent : (z.takes (Reg.sideCtrlEnable p b).key n).rd (Reg.sideCtrlEnable p b) = field n 0 1 := hread
  have hlt : field n 0 1 < 2 := Nat.mod_lt _ (by decide)
  unfold State.on
  rw [hsent, ← field_bit]
  generalize field n 0 1 = x at *
  obtain rfl | rfl : x = 0 ∨ x = 1 := by omega
  · rfl
  · rfl

theorem applySideCtrl_on (hon : u.on (Reg.sideCtrlEnable p b) = true) :
    (u.sideState p b = 0 → u.on (Reg.sideCtrlStartMode p b) = false → applySideCtrl u p b = u.sideStart p b)
    ∧ (u.sideState p b = 0 → u.on (Reg.sideCtrlStartMode p b) = true → applySideCtrl u p b = u.sideGo p b 1)
    ∧ (u.sideState p b = 5 → applySideCtrl u p b = u.setSide p b { u.side p b with resume := true })
    ∧ (u.sideState p b ≠ 0 → u.sideState p b ≠ 5 → applySideCtrl u p b = u) := by
  unfold applySideCtrl
  dsimp only
  rw [hon]
  refine ⟨fun hst hmode => ?_, fun hst hmode => ?_, fun hst => ?_, fun h0 h5 => ?_⟩
  · rw [hst, hmode]
    rfl
  · rw [hst, hmode]
    rfl
  · rw [hst]
    rfl
  · split
    next h => exact absurd h h0
    next => rfl
    next => rfl
    next h => exact absurd h h5
    next => rfl

theorem applySideCtrl_off (hoff : u.on (Reg.sideCtrlEnable p b) = false) :
    (u.sideState p b = 0 → applySideCtrl u p b = u)
    ∧ (u.sideState p b = 1 ∨ u.sideState p b = 2 → applySideCtrl u p b = u.sideGo p b 0)
    ∧ (u.sideState p b = 5 → applySideCtrl u p b = u.setSide p b { u.side p b with resume := false })
    ∧ (3 ≤ u.sideState p b → u.sideState p b ≠ 5 → applySideCtrl u p b = u.sideGo p b 5) := by
  unfold applySideCtrl
  dsimp only
  rw [hoff]
  refine ⟨fun hst => ?_, fun hst => ?_, fun hst => ?_, fun h3 h5 => ?_⟩
  · rw [hst]
    rfl
  · rcases hst with hst | hst
    · rw [hst]
      rfl
    · rw [hst]
      rfl
  · rw [hst]
    rfl
  · split
    next h => omega
    next h => omega
    next h => omega
    next h => exact absurd h h5
    next => rfl

/-- Settles O40: SIDE_CTRL by the state it finds, as one moment with the decision, and a mask commit by its branch. -/
theorem tdmSettings : Obligations.TdmSettings := by
  unfold Obligations.TdmSettings
  intro s who p b v n k u hu
  refine ⟨fun hk h act => ⟨fun hon hact => ?_, fun hoff hact => ?_⟩, fun hk h m hm => ⟨fun hst => ?_, fun hst hdue => ?_, fun hst hnone hsame => ?_⟩⟩
  · subst hk hu
    refine congrArg Host.Outcome.next ((h.setAs_decides (mine := fun n => bit n 0) hon rfl rfl).trans ?_)
    refine congrArg (fun t => (s.scatter (State.settleRefs t)).say .ok) ?_
    obtain ⟨hstart, harm, hback, hidle⟩ := applySideCtrl_on ((h.side_enable s.gather).trans hon)
    obtain ⟨astart, aarm, aback, aidle⟩ := hact (s.gather.takes (Reg.sideCtrlEnable p b).key n)
    show applySideCtrl (s.gather.takes (Reg.sideCtrlEnable p b).key n) p b = act (s.gather.takes (Reg.sideCtrlEnable p b).key n)
    have hsame : (s.gather.takes (Reg.sideCtrlEnable p b).key n).sideState p b = (s.takes (Reg.sideCtrlEnable p b).key n).sideState p b := rfl
    have hmodes : (s.gather.takes (Reg.sideCtrlEnable p b).key n).on (Reg.sideCtrlStartMode p b) =
      (s.takes (Reg.sideCtrlEnable p b).key n).on (Reg.sideCtrlStartMode p b) := rfl
    rw [hsame] at hstart harm hback hidle
    rw [hmodes] at hstart harm
    by_cases h0 : (s.takes (Reg.sideCtrlEnable p b).key n).sideState p b = 0
    · cases hmode : (s.takes (Reg.sideCtrlEnable p b).key n).on (Reg.sideCtrlStartMode p b)
      · rw [hstart h0 hmode, astart h0 hmode]
      · rw [harm h0 hmode, aarm h0 hmode]
    · by_cases h5 : (s.takes (Reg.sideCtrlEnable p b).key n).sideState p b = 5
      · rw [hback h5, aback h5]
      · rw [hidle h0 h5, aidle h0 h5]
  · subst hk hu
    refine congrArg Host.Outcome.next ((h.setAs_decides (mine := fun n => !bit n 0) (by rw [hoff]; rfl) rfl rfl).trans ?_)
    refine congrArg (fun t => (s.scatter (State.settleRefs t)).say .ok) ?_
    obtain ⟨hidle, hdrop, hstays, hstops⟩ := applySideCtrl_off ((h.side_enable s.gather).trans hoff)
    obtain ⟨aidle, adrop, astays, astops⟩ := hact (s.gather.takes (Reg.sideCtrlEnable p b).key n)
    show applySideCtrl (s.gather.takes (Reg.sideCtrlEnable p b).key n) p b = act (s.gather.takes (Reg.sideCtrlEnable p b).key n)
    have hsame : (s.gather.takes (Reg.sideCtrlEnable p b).key n).sideState p b = (s.takes (Reg.sideCtrlEnable p b).key n).sideState p b := rfl
    rw [hsame] at hidle hdrop hstays hstops
    by_cases h0 : (s.takes (Reg.sideCtrlEnable p b).key n).sideState p b = 0
    · rw [hidle h0, aidle h0]
    · by_cases h12 : (s.takes (Reg.sideCtrlEnable p b).key n).sideState p b = 1 ∨ (s.takes (Reg.sideCtrlEnable p b).key n).sideState p b = 2
      · rw [hdrop h12, adrop h12]
      · by_cases h5 : (s.takes (Reg.sideCtrlEnable p b).key n).sideState p b = 5
        · rw [hstays h5, astays h5]
        · rw [hstops (by omega) h5, astops (by omega) h5]
  all_goals
    subst hk hu hm
    refine congrArg Host.Outcome.next ((h.setAs_stored (mine := fun _ => true) rfl rfl rfl).trans (congrArg (fun t => State.say t .ok) ?_))
  · exact if_pos hst
  · refine (if_neg (by omega)).trans (if_neg ?_)
    rcases hdue with hdue | hdue
    · simp [hdue]
    · simp [hdue]
  · exact (if_neg (by omega)).trans (if_pos (by simp [hnone, hsame]))

end

/-! Slots and lanes. -/

section
variable {ctrl k j : Nat}

/-- The formats of a side (R202). -/
theorem slotStart_cases (ctrl k : Nat) : slotStart ctrl k =
    if field ctrl 3 2 = 0 then k * frameBclks (field ctrl 7 4) / 2 + 1 + field ctrl 23 6
    else if field ctrl 3 2 = 1 then k * frameBclks (field ctrl 7 4) / 2 + field ctrl 23 6
    else field ctrl 23 6 + k * field ctrl 11 6 := by
  unfold slotStart
  dsimp only
  split
  next h => rw [if_pos h]
  next h => rw [if_neg (by omega), if_pos h]
  next h0 h1 => rw [if_neg h0, if_neg h1]

/-- The slots of a CTRL value in range do not overlap (R202, R203). -/
theorem slotStart_apart (hok : vcSideCtrl ctrl = true) (hk : k < field ctrl 17 6) (hj : j < field ctrl 17 6) (hlt : k < j) :
    slotStart ctrl k + field ctrl 11 6 ≤ slotStart ctrl j := by
  unfold vcSideCtrl at hok
  simp only [Bool.and_eq_true, decide_eq_true_eq] at hok
  obtain ⟨⟨⟨⟨⟨⟨hfmt, -⟩, -⟩, -⟩, -⟩, -⟩, hwide⟩ := hok
  rw [slotStart_cases, slotStart_cases]
  generalize frameBclks (field ctrl 7 4) = f at *
  generalize field ctrl 11 6 = w at *
  by_cases h2 : field ctrl 3 2 = 2
  · rw [if_neg (by omega), if_neg (by omega), if_neg (by omega), if_neg (by omega)]
    have hmul : (k + 1) * w ≤ j * w := Nat.mul_le_mul_right w hlt
    rw [Nat.add_mul, Nat.one_mul] at hmul
    omega
  · rw [if_neg h2] at hwide
    simp only [Bool.and_eq_true, decide_eq_true_eq] at hwide
    obtain ⟨hslots, hhalf⟩ := hwide
    obtain rfl : k = 0 := by omega
    obtain rfl : j = 1 := by omega
    rw [Nat.zero_mul, Nat.one_mul, Nat.zero_div]
    by_cases h0 : field ctrl 3 2 = 0
    · rw [if_pos h0, if_pos h0]
      omega
    · have h1 : field ctrl 3 2 = 1 := by omega
      rw [if_neg h0, if_neg h0, if_pos h1, if_pos h1]
      omega

/-- In its bit periods a slot's value stands most significant bit first (R202, R204). -/
theorem slotBits_slot (l : List Nat) (lane : Nat) (hok : vcSideCtrl ctrl = true) (hk : k < field ctrl 17 6) (hj : j < field ctrl 11 6) :
    slotBits ctrl l lane (slotStart ctrl k + j) = bit (l.getD (32 * lane + k) 0) (31 - j) := by
  unfold slotBits
  rw [Bool.eq_iff_iff, List.any_eq_true]
  constructor
  · rintro ⟨x, hx, hbits⟩
    rw [List.mem_range] at hx
    simp only [Bool.and_eq_true, decide_eq_true_eq] at hbits
    obtain ⟨⟨hlo, hhi⟩, hbit⟩ := hbits
    obtain rfl : x = k := by
      rcases Nat.lt_trichotomy x k with h | h | h
      · have := slotStart_apart hok hx hk h
        omega
      · exact h
      · have := slotStart_apart hok hk hx h
        omega
    rwa [Nat.add_sub_cancel_left] at hbit
  · intro hbit
    refine ⟨k, List.mem_range.mpr hk, ?_⟩
    simp only [Bool.and_eq_true, decide_eq_true_eq, Nat.add_sub_cancel_left]
    exact ⟨⟨by omega, by omega⟩, hbit⟩

end

section
variable {s : State} {p b : Nat}

/-- What a driven lane carries: its frame's slots, and what those before it have left over (R203, R204). -/
theorem State.laneOut_driven {lane i f : Nat} (hf : f = frameBclks (s.rd (Reg.sideCtrlFrameCode p 0))) (hdriven : s.laneDriven p lane = true)
    (hi : i < f) : s.laneOut p lane i = some true ↔
      slotBits (s.get (Reg.sideCtrlEnable p 0).key) (s.side p 0).vals lane i = true
      ∨ ∃ j, ∃ h : j < (s.side p 0).prev.length,
        slotBits (s.get (Reg.sideCtrlEnable p 0).key) ((s.side p 0).prev[j]) lane (i + (j + 1) * f) = true := by
  have hout : s.laneOut p lane i = some (decide (i < f) && (List.range ((s.side p 0).prev.length + 1)).any fun j =>
      slotBits (s.get (Reg.sideCtrlEnable p 0).key) (((s.side p 0).vals :: (s.side p 0).prev).getD j []) lane (i + j * f)) := by
    unfold State.laneOut
    dsimp only
    rw [if_pos hdriven, hf]
    rfl
  rw [hout, Option.some.injEq, decide_eq_true hi, Bool.true_and, List.any_eq_true]
  constructor
  · rintro ⟨j, hj, hbits⟩
    rw [List.mem_range] at hj
    cases j with
    | zero => exact .inl (by simpa using hbits)
    | succ j =>
      have hlt : j < (s.side p 0).prev.length := by omega
      refine .inr ⟨j, hlt, ?_⟩
      rwa [List.getD_cons_succ, List.getD_eq_getElem _ _ hlt] at hbits
  · rintro (hbits | ⟨j, hlt, hbits⟩)
    · exact ⟨0, List.mem_range.mpr (Nat.succ_pos _), by simpa using hbits⟩
    · refine ⟨j + 1, List.mem_range.mpr (by omega), ?_⟩
      rwa [List.getD_cons_succ, List.getD_eq_getElem _ _ hlt]

theorem State.laneOut_idle {lane i : Nat} (h : s.laneDriven p lane = false) : s.laneOut p lane i = none :=
  if_neg (by rw [h]; decide)

/-! Frames. -/

/-- A frame that begins on a side whose stop was not cancelled (R212, R216). -/
theorem State.frameBegin_eq {e : Nat} {words late : List Nat} {y x : State} {run : Bool} (hy : y = s.applyCommit p b)
    (hstays : y.sideState p b ≠ 5 ∨ (y.side p b).resume = false)
    (hrun : run = decide (y.sideState p b = 4 ∨ (y.sideState p b = 3 ∧ y.rd (Reg.sideTimingClkLead p b) = 0)))
    (hx : x = (if run then y.bump (Reg.sideFrames p b) 1 else y).wr (Reg.sideStatusLocked p b) 1) :
    s.frameBegin p b e words late = (x.setSide p b { x.side p b with
      begun := (x.side p b).begun + 1, data := run, nextFrame := (x.side p b).nextFrame + 1 }).sideData
        p b e (s.rd (Reg.maskActiveMask p b)) words late := by
  have hgo : (y.sideState p b == 4 || (y.sideState p b == 3 && y.rd (Reg.sideTimingClkLead p b) == 0)) = run := by
    rw [hrun, Bool.eq_iff_iff]
    simp
  have hback : ¬(y.sideState p b = 5 && (y.side p b).resume) = true := by
    rcases hstays with h | h <;> simp [h]
  unfold State.frameBegin
  dsimp only
  rw [← hy, if_neg hback, hgo, State.bumpIf, ← hx]

/-- The words that a looped receive side takes (R444). -/
theorem State.loopWords_eq (s : State) (p : Nat) (words : List Nat) : s.loopWords p words = (List.range 64).map fun i =>
    if s.rd (Reg.tdmLoopMode p) = 2 ∨ s.laneDriven p (i / 32) = true then (s.side p 0).vals.getD i 0 else words.getD i 0 := by
  unfold State.loopWords
  simp only [Bool.or_eq_true, decide_eq_true_eq]

/-- Settles O41: the frame by its run, the slots by their places, and a frame start edge by the side it reaches. -/
theorem framesBegin : Obligations.FramesBegin := by
  unfold Obligations.FramesBegin
  refine ⟨fun w y x p b e words late => ⟨fun hy hstays run hrun hx => State.frameBegin_eq hy hstays hrun hx,
      fun ctrl l lane k j hok hk hj => slotBits_slot l lane hok hk hj,
      fun lane i f hf => ⟨fun hdriven hi ctrl hctrl => ?_, State.laneOut_idle⟩⟩,
    fun s g a p b q e count quarter bclks words lane0 lane1 late hg hq hwords ha he =>
      ⟨fun hb hloop => State.together_stays_of (if_pos ?_), fun hst hnot => State.together_stays_of ?_,
        fun hst hslave hloop hrx => State.together_of ?_, fun hb hst hruns => State.together_stays_of ?_,
        fun hb hst hruns => ?_, fun x z hx w hw => ⟨fun hst => ?_, fun hst => ?_⟩,
        fun z => ⟨fun hloop hst => ?_, fun hnot => if_neg ?_⟩⟩⟩
  · subst hctrl
    exact State.laneOut_driven hf hdriven hi
  · have hlooped : (b = 1 && s.sideLooped p) = true := by simp [hb, State.sideLooped, hloop]
    exact hlooped
  · have hidle : ¬(b = 0 && !s.on (Reg.sideCtrlMaster p b) && s.sideLooped p && 2 ≤ s.sideState p 1) = true := by
      unfold State.sideLooped
      rcases hnot with h | h | h | h
      · simp [h]
      · simp [h]
      · simp [Nat.not_le.mpr h]
      · simp [Nat.not_le.mpr h]
    refine ite_eq_left_iff.mpr fun _ => (if_pos hst).trans (if_neg hidle)
  · subst hg hq hwords
    have hlooped : (s.sideLooped p) = true := decide_eq_true hloop
    refine (if_neg (by simp)).trans ((if_pos hst).trans (if_pos ?_))
    have hgo : (0 = 0 && !s.on (Reg.sideCtrlMaster p 0) && s.sideLooped p && 2 ≤ s.sideState p 1) = true := by
      simp [hslave, hlooped, hrx]
    exact hgo
  · refine ite_eq_left_iff.mpr fun _ => (if_neg (Nat.not_lt.mpr hst)).trans (if_pos ?_)
    rw [show s.gather.frameRuns p b = false from hruns]
    rfl
  · subst hg hq hwords ha he
    have hown : ¬(b = 1 && s.gather.sideLooped p) = true := by
      unfold State.sideLooped
      rcases hb with h | h
      · simp [h]
      · simp [Nat.not_le.mpr h]
    have hgo : ¬(!s.gather.frameRuns p b) = true := by
      rw [show s.gather.frameRuns p b = true from hruns]
      decide
    refine ⟨fun hmaster hlate => State.together_of ?_, fun htime w n hw hn => State.together_of ?_⟩
    · refine (if_neg hown).trans ((if_neg (Nat.not_lt.mpr hst)).trans ((if_neg hgo).trans (if_pos ?_)))
      rw [State.gather_on, hmaster]
      exact decide_eq_true hlate
    · refine (if_neg hown).trans ((if_neg (Nat.not_lt.mpr hst)).trans ((if_neg hgo).trans ((if_neg ?_).trans ?_)))
      · rcases htime with h | h
        · rw [State.gather_on, h, Bool.false_and]
          decide
        · rw [Bool.and_eq_true, decide_eq_true_eq]
          exact fun hc => absurd hc.2 (Nat.not_lt.mpr h)
      · subst hw hn
        rfl
  · subst hx hw
    exact if_pos hst
  · subst hx hw
    exact if_neg hst
  · rw [← State.loopWords_eq]
    exact if_pos (by simp [State.sideLooped, hloop, hst])
  · unfold State.sideLooped
    rcases hnot with h | h <;> simp [Nat.not_le.mpr h]

/-! A side's own changes. -/

theorem State.lockGone_iff (z : State) (p b : Nat) : z.lockGone p b = true ↔ 4 ≤ (z.side p b).badRun
    ∨ ∃ q, (z.side p b).last = some q ∧ q + ceilDiv 8000000000 ((z.portRate p).getD 48000) ≤ 4 * z.rc + 3 := by
  unfold State.lockGone State.silentAt
  rw [Bool.or_eq_true, decide_eq_true_eq]
  cases (z.side p b).last with
  | none => simp
  | some q => simp

/-- Settles O42: each change by the branch its conditions lead to. -/
theorem tdmSides : Obligations.TdmSides := by
  unfold Obligations.TdmSides
  intro s g p b kind silent h hg hh
  subst hg
  refine ⟨fun hst hslave hgood u w hu hw y hy => State.together_of ?_, fun hnot => State.together_stays_of (if_neg ?_),
    fun z => z.lockGone_iff p b, fun hst hslave a l ha hl => ?_, fun hnot => State.together_stays_of ?_,
    fun hst hbegun => State.together_of (if_pos ?_), fun hnot => State.together_stays_of (if_neg ?_),
    fun hst hresume hbegun => State.together_of (if_pos ?_), fun hnot => State.together_stays_of (if_neg ?_), fun u hu => ⟨fun hactive hcount => ?_, fun hcount => ?_⟩⟩
  · have hgo : (s.sideState p b = 2 && !s.on (Reg.sideCtrlMaster p b) && 4 ≤ (s.side p b).good) = true := by
      simp [hst, hslave, hgood]
    have hside : w.side p b = u.side p b := by
      rw [hw]
      unfold State.bumpIf
      split <;> rfl
    refine (if_pos hgo).trans ?_
    rw [hy, hside, hw, hu]
    rfl
  · have hno : ¬(s.sideState p b = 2 && !s.on (Reg.sideCtrlMaster p b) && 4 ≤ (s.side p b).good) = true := by
      rcases hnot with h | h | h
      · simp [h]
      · simp [h]
      · simp [Nat.not_le.mpr h]
    exact hno
  · have hwaits : (3 ≤ s.gather.sideState p b && !s.gather.on (Reg.sideCtrlMaster p b)) = true := by
      rw [State.gather_on, hslave, Bool.not_false, Bool.and_true]
      exact decide_eq_true hst
    have hexec : ∀ t, (if a.lockGone p b then
          ((if (a.sideState p b == 5 && (a.side p b).resume) &&
              (l.sideGo p b (if a.sideState p b = 5 then 0 else 2)).sideStartOk p b
                ((l.sideGo p b (if a.sideState p b = 5 then 0 else 2)).get (Reg.sideCtrlEnable p b).key) then
            applySideCtrl (l.sideGo p b (if a.sideState p b = 5 then 0 else 2)) p b
          else l.sideGo p b (if a.sideState p b = 5 then 0 else 2)).settleRefs) else a) = t →
        exec (.tdmSlaveLockLoss p b silent) s = .next (s.scatter t) := by
      intro t ht
      refine State.together_of ?_
      dsimp only
      rw [hwaits, Bool.true_and, Bool.true_and, show (s.gather.silentAt p b) = s.silentAt p b from rfl, ← ha, ← hl]
      exact ht
    refine ⟨fun hkept => hexec _ (if_neg (by rw [hkept]; decide)), fun hgone h5 => hexec _ ((if_pos hgone).trans ?_),
      fun hgone h5 o ho => ⟨fun hnot => hexec _ ((if_pos hgone).trans ?_), fun hresume hok => hexec _ ((if_pos hgone).trans ?_)⟩⟩
    · rw [if_neg (by simp [h5]), if_neg h5]
    · rw [if_pos h5, ← ho, if_neg]
      rcases hnot with h | h <;> simp [h]
    · rw [if_pos h5, ← ho, if_pos (by simp [h5, hresume, hok])]
  · have hwaits : (3 ≤ s.gather.sideState p b && !s.gather.on (Reg.sideCtrlMaster p b)) = false := by
      rcases hnot with h | h
      · exact (congrArg (· && _) (decide_eq_false (Nat.not_le.mpr h))).trans (Bool.false_and _)
      · rw [State.gather_on, h]
        exact Bool.and_false _
    dsimp only
    rw [hwaits]
    rfl
  · have hgo : (s.sideState p b = 3 && max 1 (s.rd (Reg.sideTimingClkLead p b)) ≤ (s.side p b).begun) = true := by
      rw [Bool.and_eq_true]
      exact ⟨decide_eq_true hst, decide_eq_true hbegun⟩
    exact hgo
  · have hno : ¬(s.sideState p b = 3 && max 1 (s.rd (Reg.sideTimingClkLead p b)) ≤ (s.side p b).begun) = true := by
      rw [Bool.and_eq_true, decide_eq_true_eq, decide_eq_true_eq]
      omega
    exact hno
  · have hgo : (s.sideState p b = 5 && !(s.side p b).resume && max 1 (s.rd (Reg.sideTimingClkTail p b)) ≤ (s.side p b).begun) = true := by
      rw [Bool.and_eq_true, Bool.and_eq_true, hresume]
      exact ⟨⟨decide_eq_true hst, rfl⟩, decide_eq_true hbegun⟩
    exact hgo
  · have hno : ¬(s.sideState p b = 5 && !(s.side p b).resume && max 1 (s.rd (Reg.sideTimingClkTail p b)) ≤ (s.side p b).begun) = true := by
      rw [Bool.and_eq_true, Bool.and_eq_true, decide_eq_true_eq, decide_eq_true_eq]
      rcases hnot with h | h | h
      · exact fun hc => h hc.1.1
      · rw [h]
        exact fun hc => nomatch hc.1.2
      · omega
    exact hno
  · subst hu
    have hlapse : h.lapse = ({ active := true }, h.count) := if_pos (by simp [hactive, hcount])
    show execTdmSlipWindowEnd p b kind s = _
    unfold execTdmSlipWindowEnd
    dsimp only
    rw [← hh, hlapse]
    exact congrArg Host.Outcome.next (if_neg hcount)
  · subst hu
    have hlapse : h.lapse = ({}, 0) := if_neg (by simp [hcount])
    show execTdmSlipWindowEnd p b kind s = _
    unfold execTdmSlipWindowEnd
    dsimp only
    rw [← hh, hlapse]
    rfl

end
end Sys2Proof.Machine
end


section
/-! The converters (O43), and the Hall: a GAIN over a damage list out of order (O44), the endings of a COPY and a REPAIR (O45). -/

namespace Sys2Proof.Machine

/-! The converters. -/

/-- ENABLE of a converter by the state it finds. -/
theorem applyAsrcCfg_on {u : State} {c : Nat} (h : u.on (Reg.asrcCfgEnable c) = true) :
    applyAsrcCfg u c = if u.convState c = 0 then u.convAcquire c 0 else u := if_pos h

theorem Hold.lapse_counted {h : Hold} (hactive : h.active = true) (hcount : h.count ≠ 0) : h.lapse = ({ active := true }, h.count) :=
  if_pos (by simp [hactive, hcount])

theorem Hold.lapse_idle {h : Hold} (hcount : h.count = 0) : h.lapse = ({}, 0) := if_neg (by simp [hcount])

/-- Settles O43: each event of a converter by the branch its conditions lead to. -/
theorem converters : Obligations.Converters := by
  unfold Obligations.Converters
  intro s w c ratio phi due out
  refine ⟨fun who v n k u hk h hu => ⟨fun hon hen => ?_, fun hoff hen => ?_⟩, fun x hx hw => ⟨fun hst hmeas hout => ?_, fun hst hmeas hlo hhi => ?_,
      fun hnot => congrArg Host.Outcome.next (if_neg ?_)⟩, fun hst hwide hdue hw => ?_, fun hnot => congrArg Host.Outcome.next (if_neg ?_),
    fun t hst hcalm hdue hw => ?_, fun hnot => ?_, fun hst m hm hdue hw => ?_, fun hst => congrArg Host.Outcome.next (if_pos hst),
    fun h hh => ⟨fun hactive hcount => ?_, fun hcount => ?_⟩⟩
  · subst hk hu
    have hexec : exec (.asrcEnable who c v) s = .next ((applyAsrcCfg (s.takes (Reg.asrcCfgEnable c).key n) c).say .ok) :=
      congrArg Host.Outcome.next (h.setAs_stored (mine := fun n => bit n 0) hon rfl rfl)
    rw [hexec, applyAsrcCfg_on hen]
    exact ⟨fun hst => by rw [if_pos hst], fun hst => by rw [if_neg hst]⟩
  · subst hk hu
    refine congrArg Host.Outcome.next ((h.setAs_stored (mine := fun n => !bit n 0) (by rw [hoff]; rfl) rfl rfl).trans ?_)
    exact congrArg (fun t => State.say t .ok) (if_neg (by rw [hen]; decide))
  · subst hx hw
    have hbad : (!ratioOk (s.conv c).ratio) = true := by
      unfold ratioOk
      rcases hout with h | h
      · rw [decide_eq_false (Nat.not_le.mpr h)]
        rfl
      · rw [decide_eq_false (Nat.not_le.mpr h), Bool.and_false]
        rfl
    exact congrArg Host.Outcome.next ((if_pos (by rw [hmeas, Bool.and_true]; exact decide_eq_true hst)).trans (if_pos hbad))
  · subst hx hw
    have hgood : ¬(!ratioOk (s.conv c).ratio) = true := by
      unfold ratioOk
      rw [decide_eq_true hlo, decide_eq_true hhi]
      decide
    exact congrArg Host.Outcome.next ((if_pos (by rw [hmeas, Bool.and_true]; exact decide_eq_true hst)).trans (if_neg hgood))
  · rcases hnot with h | h
    · simp [h]
    · subst hx
      simp [h]
  · subst hdue hw
    have hgo : (s.convState c = 2 && !s.on (Reg.asrcStatusNarrow c)) = true := by simp [hst, hwide]
    exact ⟨fun hreach => congrArg Host.Outcome.next ((if_pos hgo).trans (if_pos hreach)),
      fun hearly => congrArg Host.Outcome.next ((if_pos hgo).trans (if_neg (Nat.not_le.mpr hearly)))⟩
  · rcases hnot with h | h <;> simp [h]
  · subst hdue hw
    have hexec : exec (.asrcLock c) s = .next (
        let due := t + 8000000000000 / s.convBw c
        let s := s.advance ((due + 3) / 4)
        if due ≤ 4 * s.rc then s.convGo c 3 else s) := by
      show execAsrcLock c s = _
      unfold execAsrcLock
      rw [hst, hcalm]
      rfl
    rw [hexec]
    exact ⟨fun hreach => congrArg Host.Outcome.next (if_pos hreach),
      fun hearly => congrArg Host.Outcome.next (if_neg (Nat.not_le.mpr hearly))⟩
  · show execAsrcLock c s = _
    unfold execAsrcLock
    split
    next t hst hcalm =>
      rcases hnot with h | h
      · exact absurd hst h
      · rw [hcalm] at h
        cases h
    next => rfl
  · subst hm hdue hw
    exact ⟨fun hreach => congrArg Host.Outcome.next ((if_neg hst).trans (if_pos hreach)),
      fun hearly => congrArg Host.Outcome.next ((if_neg hst).trans (if_neg (Nat.not_le.mpr hearly)))⟩
  · subst hh
    show execAsrcEventWindowEnd c s = _
    unfold execAsrcEventWindowEnd
    dsimp only
    rw [Hold.lapse_counted hactive hcount]
    exact congrArg Host.Outcome.next (if_neg hcount)
  · subst hh
    show execAsrcEventWindowEnd c s = _
    unfold execAsrcEventWindowEnd
    dsimp only
    rw [Hold.lapse_idle hcount]
    rfl

/-! A GAIN over a damage list whose bytes do not rise. -/

/-- A device that serves requests, whose tile 0 has damage listed out of order in its shadow bank: byte 3, of place 1, before byte 0, of
place 0. -/
def unorderedDamage : State :=
  { ((State.reset.wr Reg.deviceStatusChipReady 1).wr Reg.deviceStatusClockState 2) with hall := { tiles := [(0, { b1 := { dmg := [(3, 1), (0, 7)] } })] } }

theorem unorderedDamage_accepts :
    unorderedDamage.Accepts .host (Reg.gainG 1).key ⟨.gain24, natBe 3 0⟩ .gain 1 0 0 where
  ready := by decide +kernel
  quiet := State.catchUp_none _ (by decide +kernel)
  entry := by decide +kernel
  judged := by decide +kernel

/-- Place 0 reads 0 before a GAIN of place 1, and its damage shows after it. -/
theorem unorderedDamage_gain : unorderedDamage.gain 0 = 0 ∧ ((applyGain unorderedDamage 1 0).say .ok).gain 0 = 7 * 65536 := by
  decide +kernel

/-- Refutes O44: the statement is about every state, also one whose damage list does not rise; there a GAIN, which takes the damage of
its own place from the list, lets damage of another place be read that stood behind it. -/
theorem not_hallSettings : ¬Obligations.HallSettings := by
  unfold Obligations.HallSettings
  intro h
  obtain ⟨hgain, -⟩ := h unorderedDamage _ .host 1 ⟨.gain24, natBe 3 0⟩ 0 (Reg.gainG 1).key rfl
  obtain ⟨w, -, rfl, -, -, hkeeps, -⟩ := hgain rfl unorderedDamage_accepts (by decide)
  have hsame := hkeeps 0 (by decide) (by decide) (by decide)
  obtain ⟨hbefore, hafter⟩ := unorderedDamage_gain
  rw [hbefore, hafter] at hsame
  exact absurd hsame (by decide)

/-! What ends in the Hall. -/

section
variable {s t u : State}

/-- A moment that posts nothing ends with the Letterbox as it was. -/
theorem State.scatter_quiet (h : t.lb = s.gather.lb) : s.scatter t = { t with lb := s.lb } := by
  have hasm : t.lb.asm = some (s.lb.asm.getD []) := by rw [h]; rfl
  unfold State.scatter
  cases hs : s.lb.asm with
  | none =>
    rw [hs] at hasm
    have hdeliver : t.lbDeliver = { t with lb := { t.lb with asm := some [] } } := by
      unfold State.lbDeliver
      rw [hasm]
      rfl
    rw [if_neg (by decide), hdeliver, h]
    show ({ t with lb := { s.lb with asm := none } } : State) = _
    rw [← hs]
  | some l =>
    rw [if_pos (by rfl)]
    have hlb : s.lb = t.lb := by
      rw [h]
      show s.lb = { s.lb with asm := some (s.lb.asm.getD []) }
      rw [hs, Option.getD_some, ← hs]
    rw [hlb]

theorem OnlyLb.tile (h : OnlyLb s t) (j : Nat) : t.tile j = s.tile j := by unfold State.tile; rw [h.hall]

theorem State.scatter_tile (s t : State) (j : Nat) : (s.scatter t).tile j = t.tile j := ((OnlyLb.refl t).scatter s).tile j

theorem State.post_tile (s : State) (c p : Nat) (w : List Nat) (j : Nat) : (s.post c p w).tile j = s.tile j := (s.post_only c p w).tile j

theorem State.csumFail_tile (s : State) (k b kind j : Nat) : (s.csumFail k b kind).tile j = s.tile j := by
  unfold State.csumFail
  dsimp only
  split
  · exact State.post_tile ..
  · rfl

/-- Damage touches the banks alone. -/
theorem State.hallDamages_lb (s : State) (l : List HallHit) : (s.hallDamages l).lb = s.lb := by
  refine State.each_keeps (P := fun u => u.lb = s.lb) rfl fun u d _ hu => ?_
  split
  · unfold State.hallDamage
    dsimp only
    split <;> exact hu
  · exact hu

/-- What TILE_COPY_DONE makes of a tile that is not under test, by its state. -/
def State.tileCopyDone (s : State) (t : Nat) : State :=
  match (s.tile t).state with
  | 2 => s.copyEnd t
  | 3 =>
    if ((s.tile t).bank (s.tile t).shadow).passes t (s.tile t).shadow then
      ((s.setTile t { (s.tile t).setBank (s.tile t).active ((s.tile t).bank (s.tile t).shadow).copyOf with state := 0 }).bump
        Reg.hallRepairs 1).post 0x9002 4 [pack [(0, t)]]
    else
      (s.setTile t { (s.tile t).setBank (s.tile t).active { ((s.tile t).bank (s.tile t).active).overwritten
        ((s.tile t).bank (s.tile t).shadow) 1024 with empty := false, parBad := false } with state := 4 }).csumFail t (s.tile t).shadow 2
  | _ => s

theorem State.tileCopyDone_copy {t : Nat} (h : (s.tile t).state = 2) : s.tileCopyDone t = s.copyEnd t := by
  unfold State.tileCopyDone
  rw [h]
  rfl

theorem State.tileCopyDone_repair {t : Nat} (h : (s.tile t).state = 3) : s.tileCopyDone t =
    if ((s.tile t).bank (s.tile t).shadow).passes t (s.tile t).shadow then
      ((s.setTile t { (s.tile t).setBank (s.tile t).active ((s.tile t).bank (s.tile t).shadow).copyOf with state := 0 }).bump
        Reg.hallRepairs 1).post 0x9002 4 [pack [(0, t)]]
    else
      (s.setTile t { (s.tile t).setBank (s.tile t).active { ((s.tile t).bank (s.tile t).active).overwritten
        ((s.tile t).bank (s.tile t).shadow) 1024 with empty := false, parBad := false } with state := 4 }).csumFail t
          (s.tile t).shadow 2 := by
  unfold State.tileCopyDone
  rw [h]
  rfl

theorem State.tileCopyDone_idle {t : Nat} (h2 : (s.tile t).state ≠ 2) (h3 : (s.tile t).state ≠ 3) : s.tileCopyDone t = s := by
  unfold State.tileCopyDone
  split
  next h => exact absurd h h2
  next h => exact absurd h h3
  next => rfl

/-- Whether tile `t` is under test (R452). -/
def State.underTest (s : State) (t : Nat) : Bool := match s.hallTest with | some w => w.cur == some t | none => false

theorem exec_tileCopyDone (s : State) (t : Nat) (damage : List HallHit) :
    exec (.tileCopyDone t damage) s = .next (s.scatter (if (s.gather.hallDamages damage).underTest t then s.gather.hallDamages damage
      else (s.gather.hallDamages damage).tileCopyDone t)) := rfl

theorem State.underTest_none {k : Nat} (h : ∀ w, s.hallTest = some w → w.cur ≠ some k) : s.underTest k = false := by
  unfold State.underTest
  split
  next w hw => exact beq_false_of_ne (h w hw)
  next => rfl

/-- A COPY whose active bank passes (R249). -/
theorem State.copyEnd_passes {k : Nat} {x : Tile} (hx : x = s.tile k) (hpass : (x.bank x.active).passes k x.active = true) :
    (s.copyEnd k).tile k = { x.setBank x.shadow (x.bank x.active).copyOf with
      state := 0, dirty := false, shadowBad := false, lastFail := false, refresh := false }
    ∧ (x.refresh = false → s.copyEnd k = s.setTile k { x.setBank x.shadow (x.bank x.active).copyOf with
      state := 0, dirty := false, shadowBad := false, lastFail := false, refresh := false }) := by
  subst hx
  unfold State.copyEnd
  dsimp only
  rw [if_pos hpass]
  refine ⟨?_, fun hrefresh => if_neg (by rw [hrefresh]; decide)⟩
  split
  · rw [State.post_tile, State.tile_setTile]
  · rw [State.tile_setTile]

theorem Tile.setBank_active (x : Tile) (b : Nat) (k : HallBank) : (x.setBank b k).active = x.active := by
  unfold Tile.setBank
  split <;> rfl

/-- A COPY whose active bank fails (R249, R254). -/
theorem State.copyEnd_fails {k : Nat} {x : Tile} (hx : x = s.tile k) (hfail : (x.bank x.active).passes k x.active = false) :
    ((s.copyEnd k).tile k).state = 4 ∧ ((s.copyEnd k).tile k).shadowBad = true ∧ ((s.copyEnd k).tile k).dirty = true
    ∧ ((s.copyEnd k).tile k).active = x.active := by
  subst hx
  unfold State.copyEnd
  dsimp only
  rw [if_neg (by rw [hfail]; decide), State.csumFail_tile, State.tile_setTile]
  exact ⟨rfl, rfl, rfl, Tile.setBank_active ..⟩

/-- Settles O45: a COPY and a REPAIR by whether the bank they read passes, and the hold-offs by what they held back. -/
theorem hallEndings : Obligations.HallEndings := by
  unfold Obligations.HallEndings
  intro s u t damage x hu hx
  refine ⟨fun hfree => ?_, fun w hw hcur => ?_, fun h hh w hw => ⟨fun hactive hcount => ?_, fun hcount => ?_⟩, fun hactive hcount => ?_,
    fun hcount => ?_⟩
  · have hexec : ∀ v, u.tileCopyDone t = v → exec (.tileCopyDone t damage) s = .next (s.scatter v) := fun v hv => by
      rw [exec_tileCopyDone, ← hu, if_neg (by rw [State.underTest_none hfree]; decide), hv]
    subst hx
    refine ⟨fun hst hpass => ⟨_, hexec _ (State.tileCopyDone_copy hst), ?_, fun hrefresh => ?_⟩,
      fun hst hfail => ⟨_, hexec _ (State.tileCopyDone_copy hst), ?_⟩,
      fun hst hpass => hexec _ ((State.tileCopyDone_repair hst).trans (if_pos hpass)),
      fun hst hfail => ⟨_, hexec _ ((State.tileCopyDone_repair hst).trans (if_neg (by rw [hfail]; decide))), ?_⟩,
      fun h2 h3 => hexec _ (State.tileCopyDone_idle h2 h3)⟩
    · rw [State.scatter_tile]
      exact (State.copyEnd_passes rfl hpass).1
    · have hlb : u.lb = s.gather.lb := by rw [hu, State.hallDamages_lb]
      rw [(State.copyEnd_passes rfl hpass).2 hrefresh, State.scatter_quiet hlb, State.scatter_quiet (t := u.setTile t _) hlb]
      exact ⟨rfl, rfl⟩
    · simp only [State.scatter_tile]
      exact State.copyEnd_fails rfl hfail
    · dsimp only
      rw [State.scatter_tile, State.csumFail_tile, State.tile_setTile]
  · have htest : u.underTest t = true := by
      unfold State.underTest
      rw [hw]
      exact beq_iff_eq.mpr hcur
    rw [exec_tileCopyDone, ← hu, if_pos htest]
  · subst hh hw
    show execHallCsumWindowEnd t s = _
    unfold execHallCsumWindowEnd
    dsimp only
    rw [Hold.lapse_counted hactive hcount]
    exact congrArg Host.Outcome.next (if_neg hcount)
  · subst hh hw
    show execHallCsumWindowEnd t s = _
    unfold execHallCsumWindowEnd
    dsimp only
    rw [Hold.lapse_idle hcount]
    rfl
  · show execHallSatWindowEnd s = _
    unfold execHallSatWindowEnd
    dsimp only
    rw [Hold.lapse_counted hactive hcount]
    exact congrArg Host.Outcome.next (if_neg hcount)
  · show execHallSatWindowEnd s = _
    unfold execHallSatWindowEnd
    dsimp only
    rw [Hold.lapse_idle hcount]
    rfl

end
end Sys2Proof.Machine
end

section
/-! O46: the host's ROOM_CTRL against R328. -/

namespace Sys2Proof.Machine

/-- Room 0 is OFF and of no domain; its guest exceeded the copy budget once before, and domain 0 runs. -/
def overrunNoted : State :=
  (((State.reset.wr Reg.deviceStatusChipReady 1).wr Reg.deviceStatusClockState 2).wr (Reg.domainRunRunning 0) 1).setGuarded 0
    { overruns := [0] }

/-- ROOM_CTRL with ENABLE 1 and DOMAIN 0 valid, the rest as at reset. -/
def enableInDomain : Nat := 17039365

theorem overrunNoted_accepts :
    overrunNoted.Accepts .host (Reg.roomCtrlEnable 0).key ⟨.u32, natBe 4 enableInDomain⟩ .roomCtrl 0 0 enableInDomain where
  ready := by decide +kernel
  quiet := State.catchUp_none _ (by decide +kernel)
  entry := by decide +kernel
  judged := by decide +kernel

/-- The state of an outcome that completes with the room's overruns as in `l`. -/
def OverrunsAre (l : List Int) : Done → Bool
  | .next w => (w.guarded 0).overruns == l
  | _ => false

/-- The SET that enables the room moves it into a domain, so its second of R328 begins anew. -/
theorem enable_clears_overruns :
    OverrunsAre [] (exec (.roomEnable .host 0 ⟨.u32, natBe 4 enableInDomain⟩) overrunNoted) = true := by
  decide +kernel

/-- A start of the room by itself leaves them as they were. -/
theorem roomStart_leaves_overruns :
    OverrunsAre [] (.next (((overrunNoted.takes (Reg.roomCtrlEnable 0).key enableInDomain).roomStart 0).say .ok)) = false := by
  decide +kernel

/-- Refutes O46: where the SET that enables a room gives it another domain, it also forgets the overruns of R328, which the
statement's outcome, the start of the room alone, leaves in place. -/
theorem not_roomsAndTheHost : ¬Obligations.RoomsAndTheHost := by
  unfold Obligations.RoomsAndTheHost
  intro h
  obtain ⟨hctrl, -⟩ := h overrunNoted _ .host 0 ⟨.u32, natBe 4 enableInDomain⟩ enableInDomain (Reg.roomCtrlEnable 0).key rfl
  obtain ⟨henable, -⟩ := hctrl rfl overrunNoted_accepts
  obtain ⟨hstarts, -⟩ := henable (by decide) (by decide +kernel)
  have hstart := hstarts (by decide +kernel) (by decide +kernel)
  have hclear := enable_clears_overruns
  rw [hstart, roomStart_leaves_overruns] at hclear
  exact absurd hclear (by decide)

end Sys2Proof.Machine
end

section
/-! O51: the temperature and supply monitors. -/

namespace Sys2Proof.Machine

variable {s t u : State}

/-- The hottest of a list, begun at place `i` with `b`: none is above it, and it stands where it says. -/
theorem hottest_spec (l : List Int) (i : Nat) (b : Int × Nat) :
    b.1 ≤ (hottest l i b).1 ∧ (∀ x ∈ l, x ≤ (hottest l i b).1)
    ∧ (hottest l i b = b ∨ ∃ j, l[j]? = some (hottest l i b).1 ∧ (hottest l i b).2 = i + j) := by
  induction l generalizing i b with
  | nil => exact ⟨le_refl _, fun x hx => absurd hx List.not_mem_nil, .inl rfl⟩
  | cons y l ih =>
    obtain ⟨hfrom, hall, hplace⟩ := ih (i + 1) (if b.1 < y then (y, i) else b)
    have hboth : b.1 ≤ (if b.1 < y then (y, i) else b).1 ∧ y ≤ (if b.1 < y then (y, i) else b).1 := by
      split <;> exact ⟨by omega, by omega⟩
    refine ⟨hboth.1.trans hfrom, fun x hx => ?_, ?_⟩
    · obtain rfl | hx := List.mem_cons.mp hx
      · exact hboth.2.trans hfrom
      · exact hall x hx
    · show hottest l (i + 1) _ = b ∨ ∃ j, (y :: l)[j]? = some (hottest l (i + 1) _).1 ∧ (hottest l (i + 1) _).2 = i + j
      obtain heq | ⟨j, hj, hplace⟩ := hplace
      · rw [heq]
        split
        · exact .inr ⟨0, rfl, rfl⟩
        · exact .inl rfl
      · exact .inr ⟨j + 1, hj, hplace.trans (by omega)⟩

/-- A move of the code leaves the clamp as it stands. -/
theorem State.vidDrive_thermalClamp (s : State) : s.vidDrive.on Reg.vidStatusThermalClamp = s.on Reg.vidStatusThermalClamp := by
  unfold State.vidDrive
  split
  · rfl
  · dsimp only
    split
    · rfl
    · refine (State.ceilCheck_on _ (.inr (by decide))).trans ?_
      refine (State.on_keep _ _).trans ?_
      refine (State.on_wr_apart (f := Reg.vidStatusSettling) _ _ (.inl (by decide))).trans ?_
      refine (State.on_congr (State.rd_bump_ne (f := Reg.vidMoves) _ _ (by decide))).trans ?_
      exact State.on_wr_apart (f := Reg.vidStatusCodeNow) _ _ (.inr (by decide))

/-- The clamp falls or rises, and what follows it leaves it so (R50). -/
theorem State.clamp_reads (s : State) (n : Nat) :
    ((s.wr Reg.vidStatusThermalClamp n).ceilCheck.vidDrive.idleArm).on Reg.vidStatusThermalClamp = decide (n % 2 ≠ 0) :=
  (State.vidDrive_thermalClamp _).trans ((State.ceilCheck_on _ (.inr (by decide))).trans (State.on_wr_same _ _ _))

theorem State.tempClamp_reads (s : State) : s.tempClamp.on Reg.vidStatusThermalClamp =
    if s.on Reg.vidStatusThermalClamp then decide (360 ≤ s.tempMax) else decide (380 < s.tempMax) := by
  unfold State.tempClamp
  cases hon : s.on Reg.vidStatusThermalClamp with
  | false =>
    by_cases hhot : 380 < s.tempMax
    · rw [if_pos (by simp [hhot]), State.clamp_reads]; simp [hhot]
    · rw [if_neg (by simp [hhot]), if_neg (by simp), hon]; simp [hhot]
  | true =>
    by_cases hcool : s.tempMax < 360
    · rw [if_neg (by simp), if_pos (by simp [hcool]), State.clamp_reads]; simp; omega
    · rw [if_neg (by simp), if_neg (by simp [hcool]), hon]; simp; omega

/-- What a level does against a reading, each of its cases (R342). -/
theorem State.tempLevel_cases (u : State) (crit : Bool) {above : Bool} {level : Int}
    (habove : above = if crit then u.guard.crit else u.guard.warn)
    (hlevel : level = 4 * (u.rd (if crit then Reg.monCfgCrit else Reg.monCfgWarn) : Nat)) :
    (above = false → level ≤ u.tempMax → u.tempLevel crit = u.tempGo crit true ∧ u.tempRelevel crit = u.tempGo crit true)
    ∧ (above = true → u.tempMax ≤ level - 20 → u.tempLevel crit = u.tempGo crit false)
    ∧ (above = true → u.tempMax < level - 20 → u.tempRelevel crit = u.tempGo crit false)
    ∧ (above = true → level - 20 < u.tempMax → u.tempLevel crit = u)
    ∧ (above = true → level - 20 ≤ u.tempMax → u.tempRelevel crit = u)
    ∧ (above = false → u.tempMax < level → u.tempLevel crit = u ∧ u.tempRelevel crit = u) := by
  unfold State.tempLevel State.tempRelevel
  dsimp only
  rw [← habove, ← hlevel]
  refine ⟨?_, ?_, ?_, ?_, ?_, ?_⟩ <;> intro hstate hlim <;> subst hstate
  · exact ⟨if_pos (by simp [hlim]), if_pos (by simp [hlim])⟩
  · exact (if_neg (by simp)).trans (if_pos (by simp [hlim]))
  · exact (if_neg (by simp)).trans (if_pos (by simp [hlim]))
  · exact (if_neg (by simp)).trans (if_neg (by simp; omega))
  · exact (if_neg (by simp)).trans (if_neg (by simp; omega))
  · exact ⟨(if_neg (by simp; omega)).trans (if_neg (by simp)), (if_neg (by simp; omega)).trans (if_neg (by simp))⟩

/-- The greatest of a list that holds `a`: the value of the list that none is above. -/
theorem foldl_max_of_mem {l : List Nat} {a e : Nat} (ha : a ∈ l) (he : e ∈ l) (h : ∀ z ∈ l, z ≤ e) : l.foldl max a = e :=
  Option.some.inj (List.max?_eq_some_iff (xs := a :: l).mpr ⟨.tail _ he, List.forall_mem_cons.mpr ⟨h a ha, h⟩⟩)

/-- The least of a list that holds `a`: the value of the list that none is below. -/
theorem foldl_min_of_mem {l : List Nat} {a e : Nat} (ha : a ∈ l) (he : e ∈ l) (h : ∀ z ∈ l, e ≤ z) : l.foldl min a = e :=
  Option.some.inj (List.min?_eq_some_iff (xs := a :: l).mpr ⟨.tail _ he, List.forall_mem_cons.mpr ⟨h a ha, h⟩⟩)

/-- What a sample does to its channel, once it is in the list `t` of samples and in SUPPLY_MV, which gives `m` (R343). -/
def State.supplyTakes (m : State) (c mv : Nat) (x : Supply) (t : List Nat) (nom : Nat) : State :=
  let high := nom * 100 + nom * m.rd Reg.monCfgSupWin < mv * 100
  let low := mv * 100 + nom * m.rd Reg.monCfgSupWin < nom * 100
  if !high && !low then m.setSupply c { x with samples := t, run := 0 }
  else
    let y := { x with samples := t, run := min (x.run + 1) 11 }
    if y.run != 10 then m.setSupply c y
    else
      let ext := if high then (t.take 10).foldl max mv else (t.take 10).foldl min mv
      let z := { y with hold := y.hold.hit.1, extreme := ext, high := high }
      let w := (m.bump Reg.supSupplyExcursions 1).setSupply c z
      if y.hold.hit.2 then w.supplyPost c 1 z else w

/-- SUPPLY_MV of a channel stands in no entry that its nominal voltage is taken from. -/
theorem State.nominal_wr_supplyMv (s : State) {c : Nat} (hc : c < 11) (n : Nat) : (s.wr (Reg.supplyMvMv c) n).nominal c = s.nominal c := by
  have hbank (b : Nat) (hb : b < 4) : (s.wr (Reg.supplyMvMv c) n).rd (Reg.bankStatusVolt b) = s.rd (Reg.bankStatusVolt b) :=
    State.rd_wr_ne s n (by dsimp only; omega)
  have hcode : (s.wr (Reg.supplyMvMv c) n).rd Reg.vidStatusCodeNow = s.rd Reg.vidStatusCodeNow :=
    State.rd_wr_ne s n (by dsimp only; omega)
  unfold State.nominal
  rw [hcode]
  split <;> try rfl
  rw [hbank _ (by omega)]

/-- A sample that is not ignored, by the nominal voltage of its channel. -/
theorem execSupplySample_taken {c mv : Nat} {x : Supply} {t : List Nat} {m : State} (hx : x = s.supply c) (hc : c < 11)
    (hcore : c = 0 → s.on Reg.vidStatusSettling = false) (hddr : c = 4 ∨ c = 5 → s.fuse.grade = .f)
    (ht : t = (mv :: x.samples).take 1000) (hm : m = s.wr (Reg.supplyMvMv c) (t.sum / t.length)) :
    exec (.supplySample c mv) s = .next (match s.nominal c with
      | none => m.setSupply c { x with samples := t, run := 0 }
      | some nom => m.supplyTakes c mv x t nom) := by
  have hnominal : m.nominal c = s.nominal c := by rw [hm, State.nominal_wr_supplyMv s hc]
  subst ht hm hx
  rw [← hnominal]
  refine congrArg Host.Outcome.next ((if_neg ?_).trans ?_)
  rotate_left
  · dsimp only
    generalize State.nominal _ c = nominal
    cases nominal <;> rfl
  simp only [Bool.or_eq_true, Bool.and_eq_true, decide_eq_true_eq, bne_iff_ne, ne_eq, not_or, not_and, not_not]
  exact ⟨⟨by omega, hddr⟩, fun h0 => by simp [hcore h0]⟩

section
variable {m : State} {c mv nom : Nat} {x : Supply} {t : List Nat} {high low : Bool}
  (hhigh : high = decide (nom * 100 + nom * m.rd Reg.monCfgSupWin < mv * 100))
  (hlow : low = decide (mv * 100 + nom * m.rd Reg.monCfgSupWin < nom * 100))
include hhigh hlow

theorem State.supplyTakes_inside (h : (high || low) = false) :
    m.supplyTakes c mv x t nom = m.setSupply c { x with samples := t, run := 0 } := by
  subst hhigh hlow
  obtain ⟨hhigh, hlow⟩ := Bool.or_eq_false_iff.mp h
  exact if_pos (by rw [hhigh, hlow]; rfl)

theorem State.supplyTakes_outside (h : (high || low) = true) (hrun : x.run ≠ 9) :
    m.supplyTakes c mv x t nom = m.setSupply c { x with samples := t, run := min (x.run + 1) 11 } := by
  subst hhigh hlow
  refine (if_neg ?_).trans (if_pos ?_)
  · rw [← Bool.not_or, h]; decide
  · exact bne_iff_ne.mpr (by dsimp only; omega)

/-- The tenth sample in a row outside the window is the excursion. -/
theorem State.supplyTakes_tenth (h : (high || low) = true) (hrun : x.run = 9) {ext : Nat} (hmv : mv ∈ t.take 10) (hext : ext ∈ t.take 10)
    (hbound : ∀ z ∈ t.take 10, if high then z ≤ ext else ext ≤ z) {w : State}
    (hw : w = (m.bump Reg.supSupplyExcursions 1).setSupply c { x with
      samples := t, run := 10, high := high, extreme := ext
      hold := if x.hold.active then { x.hold with count := x.hold.count + 1 } else { active := true } }) :
    m.supplyTakes c mv x t nom = if x.hold.active then w else w.post 0xB00A 7 [pack [(0, c), (4, b2n high), (16, 1)], ext] := by
  have hextreme : ext = if nom * 100 + nom * m.rd Reg.monCfgSupWin < mv * 100 then (t.take 10).foldl max mv
      else (t.take 10).foldl min mv := by
    split
    next hup => exact (foldl_max_of_mem hmv hext fun z hz => by simpa [hhigh, hup] using hbound z hz).symm
    next hup => exact (foldl_min_of_mem hmv hext fun z hz => by simpa [hhigh, hup] using hbound z hz).symm
  have hactive : (Hold.hit x.hold).1 = if x.hold.active then { x.hold with count := x.hold.count + 1 } else { active := true } := by
    unfold Hold.hit; split <;> rfl
  have hposts : (Hold.hit x.hold).2 = !x.hold.active := by
    unfold Hold.hit; split <;> simp_all
  have htenth : (min (x.run + 1) 11 != 10) = false := by rw [hrun]; rfl
  have hdone : m.supplyTakes c mv x t nom = if (Hold.hit x.hold).2 then w.supplyPost c 1 { x with high := high, extreme := ext } else w := by
    unfold State.supplyTakes
    dsimp only
    rw [← hhigh, ← hlow, if_neg (by rw [← Bool.not_or, h]; decide), htenth, ← hextreme, hactive, hrun, hw]
    rfl
  rw [hdone, hposts]
  cases x.hold.active <;> rfl

end

theorem execSupplyWindowEnd_eq (s : State) (c : Nat) : exec (.supplyWindowEnd c) s =
    .next (if (s.supply c).hold.lapse.2 = 0 then s.setSupply c { s.supply c with hold := (s.supply c).hold.lapse.1 }
      else (s.setSupply c { s.supply c with hold := (s.supply c).hold.lapse.1 }).supplyPost c (s.supply c).hold.lapse.2 (s.supply c)) :=
  rfl

/-- Settles O51. -/
theorem monitors : Obligations.Monitors := by
  unfold Obligations.Monitors
  intro s a l c mv x hx
  refine ⟨State.together_stays_of rfl, fun m u hm hu => ?_, fun u crit up above level habove hlevel => ?_, State.tempClamp_reads,
    fun who v n k u w hk h hu hw => ?_, fun hc => ?_, fun hc hgrade => ?_, fun hc hset => ?_, ?_,
    fun hc hcore hddr t m ht hm => ⟨fun hnom => ?_, fun nom win high low hnom hwin hhigh hlow => ?_⟩, fun hcount => ?_, fun hactive hcount => ?_⟩
  · obtain ⟨hfrom, hall, hplace⟩ := hottest_spec (l.take 7) 1 (a, 0)
    subst hm hu
    refine ⟨rfl, hfrom, hall, ?_⟩
    obtain heq | ⟨j, hj, hplace⟩ := hplace
    · rw [heq]; rfl
    · rw [hplace, Nat.add_comm, List.getElem?_cons_succ]
      rw [List.getElem?_take] at hj
      exact (Option.ite_none_right_eq_some.mp hj).2
  · obtain ⟨h1, h2, h3, h4, h5, h6⟩ := u.tempLevel_cases crit habove hlevel
    exact ⟨h1, h2, h3, h4, h5, h6, rfl⟩
  · subst hk hu hw
    exact congrArg Host.Outcome.next (h.setAs_stored (mine := fun _ => true) rfl rfl rfl)
  · exact congrArg Host.Outcome.next (if_pos (by simp [hc]))
  · exact congrArg Host.Outcome.next (if_pos (by simp [hc, hgrade]))
  · exact congrArg Host.Outcome.next (if_pos (by simp [hc, hset]))
  · refine ⟨rfl, rfl, rfl, rfl, rfl, fun hf => ⟨if_pos hf, if_pos hf⟩, fun b hb _ => ?_⟩
    interval_cases b <;> rfl
  · rw [execSupplySample_taken hx hc hcore hddr ht hm, hnom]
  · rw [execSupplySample_taken hx hc hcore hddr ht hm, hnom]
    have hsup : m.rd Reg.monCfgSupWin = s.rd Reg.monCfgSupWin := by
      rw [hm]
      exact State.rd_wr_ne s _ (by dsimp only; omega)
    rw [hwin, ← hsup] at hhigh hlow
    exact ⟨fun hin => congrArg Host.Outcome.next (State.supplyTakes_inside hhigh hlow hin), fun hout =>
      ⟨fun hrun => congrArg Host.Outcome.next (State.supplyTakes_outside hhigh hlow hout hrun), fun hrun ext hext hbound w hw =>
        congrArg Host.Outcome.next (State.supplyTakes_tenth hhigh hlow hout hrun (by rw [ht]; exact .head _) hext hbound hw)⟩⟩
  · rw [execSupplyWindowEnd_eq, ← hx, Hold.lapse_idle hcount]
    rfl
  · rw [execSupplyWindowEnd_eq, ← hx, Hold.lapse_counted hactive hcount]
    exact congrArg Host.Outcome.next (if_neg hcount)

end Sys2Proof.Machine
end

section
/-! O52: the Cellar. -/

namespace Sys2Proof.Machine

variable {s t u : State}

/-- What the recorder has not done of the tick in progress is dropped, in every domain (R355). -/
def State.dropRecorder (s : State) : State := s.units 4 fun z d => z.setTick d { z.tick d with recorder := none }

theorem State.dropRecorder_cellar (s : State) : s.dropRecorder.cellar = s.cellar :=
  State.units_keeps (P := fun z => z.cellar = s.cellar) rfl fun _ _ _ h => h

theorem applyRecCfg_same {old m : Nat} (hm : u.rd Reg.recCfgMode = m) (h : m = field old 0 2) : applyRecCfg u old = u :=
  if_pos (hm.trans h)

/-- A change of MODE to 2 holds what is there. -/
theorem applyRecCfg_hold {old : Nat} (hm : u.rd Reg.recCfgMode = 2) (h : field old 0 2 ≠ 2) :
    applyRecCfg u old = (u.dropRecorder.wr Reg.recStatusState 3).recNote :=
  (if_neg (by rw [hm]; exact h.symm)).trans (if_pos hm)

/-- A change of MODE to 0 or 1 begins with nothing. -/
theorem applyRecCfg_anew {old m : Nat} (hm : u.rd Reg.recCfgMode = m) (h : field old 0 2 ≠ m) (h2 : m ≠ 2) :
    applyRecCfg u old =
      State.recNote { u.dropRecorder.wr Reg.recStatusState m with cellar := { u.cellar with taken := [], recPages := m == 1 } } := by
  subst hm
  exact ((if_neg h.symm).trans (if_neg h2)).trans (by rw [← u.dropRecorder_cellar]; rfl)

theorem State.ddrGo_new {new step : Nat} (h : s.rd Reg.ddrStatusState ≠ new) : s.ddrGo new step =
    ((s.wr Reg.ddrStatusState new).wr Reg.ddrStatusFailStep step).post 0xC001 5 [pack [(0, new), (2, step)]] := if_neg h

/-- Settles O52. -/
theorem cellar : Obligations.Cellar := by
  unfold Obligations.Cellar
  intro s who l v n k step mr4 u hu
  refine ⟨fun hk h w hw => ⟨fun hon hold => ?_, fun hon hen hold => ?_, fun hoff hen => ?_⟩,
    fun hk h hmode w hw => ⟨fun hm hold => ?_, fun hm hold => ?_, fun hm hold => ?_,
      fun hsame => ⟨fun hm => ?_, fun hm => ?_, fun hm => ?_⟩⟩,
    fun hst hring hlen => congrArg Host.Outcome.next (if_pos (by simp [hst, hring, hlen])),
    fun hnot => congrArg Host.Outcome.next (if_neg ?_),
    fun hk h => ⟨fun hon hen => ⟨fun hst => ?_, fun hst => ?_⟩, fun hoff hen => ?_⟩,
    fun hst hstep => ⟨fun h0 => ?_, fun h0 => ?_⟩,
    fun hst => congrArg Host.Outcome.next (if_neg hst),
    fun hst => congrArg Host.Outcome.next (if_pos (beq_iff_eq.mpr hst)),
    fun hst => congrArg Host.Outcome.next (if_neg (fun h => hst (beq_iff_eq.mp h)))⟩
  · subst hk hu hw
    refine congrArg Host.Outcome.next ((h.setAs_stored (mine := fun n => bit n 0) hon rfl rfl).trans
      (congrArg (fun t => State.say t .ok) (if_neg ?_)))
    simp [hold]
  · subst hk hu
    exact congrArg Host.Outcome.next ((h.setAs_stored (mine := fun n => bit n 0) hon rfl rfl).trans
      (congrArg (fun t => State.say t .ok) (if_pos (by rw [hold, hen]; rfl))))
  · subst hk hu hw
    exact congrArg Host.Outcome.next ((h.setAs_stored (mine := fun n => !bit n 0) (by rw [hoff]; rfl) rfl rfl).trans
      (congrArg (fun t => State.say t .ok) (if_neg (by rw [hen]; simp))))
  · subst hk hu hw
    exact congrArg Host.Outcome.next ((h.setAs_stored (mine := fun n => field n 0 2 == 1) (beq_iff_eq.mpr hm) rfl rfl).trans
      (congrArg (fun t => State.say t .ok) (applyRecCfg_anew (hmode.trans hm) hold (by decide))))
  · subst hk hu hw
    exact congrArg Host.Outcome.next ((h.setAs_stored (mine := fun n => field n 0 2 == 2) (beq_iff_eq.mpr hm) rfl rfl).trans
      (congrArg (fun t => State.say t .ok) (applyRecCfg_hold (hmode.trans hm) hold)))
  · subst hk hu hw
    exact congrArg Host.Outcome.next ((h.setAs_stored (mine := fun n => field n 0 2 == 0) (beq_iff_eq.mpr hm) rfl rfl).trans
      (congrArg (fun t => State.say t .ok) (applyRecCfg_anew (hmode.trans hm) hold (by decide))))
  · subst hk hu
    exact congrArg Host.Outcome.next ((h.setAs_stored (mine := fun n => field n 0 2 == 1) (beq_iff_eq.mpr hm) rfl rfl).trans
      (congrArg (fun t => State.say t .ok) (applyRecCfg_same hmode hsame.symm)))
  · subst hk hu
    exact congrArg Host.Outcome.next ((h.setAs_stored (mine := fun n => field n 0 2 == 2) (beq_iff_eq.mpr hm) rfl rfl).trans
      (congrArg (fun t => State.say t .ok) (applyRecCfg_same hmode hsame.symm)))
  · subst hk hu
    exact congrArg Host.Outcome.next ((h.setAs_stored (mine := fun n => field n 0 2 == 0) (beq_iff_eq.mpr hm) rfl rfl).trans
      (congrArg (fun t => State.say t .ok) (applyRecCfg_same hmode hsame.symm)))
  · rintro hdone
    simp only [Bool.and_eq_true, Bool.not_eq_true', decide_eq_true_eq] at hdone
    obtain ⟨⟨hst, hring⟩, hlen⟩ := hdone
    obtain h | h | h := hnot
    · exact h hst
    · exact absurd h (by rw [hring]; decide)
    · omega
  · subst hk hu
    exact congrArg Host.Outcome.next ((h.setAs_stored (mine := fun n => bit n 0) hon rfl rfl).trans
      (congrArg (fun t => State.say t .ok) ((if_pos hen).trans (if_pos (by simpa using hst)))))
  · subst hk hu
    exact congrArg Host.Outcome.next ((h.setAs_stored (mine := fun n => bit n 0) hon rfl rfl).trans
      (congrArg (fun t => State.say t .ok) ((if_pos hen).trans (if_neg (by obtain h | h := hst <;> simp [h])))))
  · subst hk hu
    exact congrArg Host.Outcome.next ((h.setAs_stored (mine := fun n => !bit n 0) (by rw [hoff]; rfl) rfl rfl).trans
      (congrArg (fun t => State.say t .ok) (if_neg (by rw [hen]; decide))))
  · subst h0
    exact congrArg Host.Outcome.next ((if_pos hst).trans (State.ddrGo_new (by rw [hst]; decide)))
  · have hmod : step % 8 = step := Nat.mod_eq_of_lt hstep
    refine congrArg Host.Outcome.next ((if_pos hst).trans ((if_neg (by rw [hmod]; exact h0)).trans ?_))
    rw [hmod]
    exact State.ddrGo_new (by rw [hst]; decide)

end Sys2Proof.Machine
end

section
/-! O57: the host port. -/

namespace Sys2Proof.Machine

variable {s t u : State}

/-- A transaction that nothing turns away does what its opcode does. -/
theorem State.hpRun_go {op flags arg crc : Nat} {data : List Byte} (hlow : s.boot.low = false)
    (hgate : s.hpGate op flags arg data crc = 0) (f : State → State) : s.hpRun op flags arg data crc f = f s :=
  (if_neg (by simp [hlow])).trans (if_pos hgate)

theorem State.hpRun_turned {op flags arg crc : Nat} {data : List Byte} (hlow : s.boot.low = false)
    (hgate : s.hpGate op flags arg data crc ≠ 0) (f : State → State) :
    s.hpRun op flags arg data crc f = s.hpRespond (s.hpGate op flags arg data crc) [] :=
  (if_neg (by simp [hlow])).trans (if_neg hgate)

/-- Each row of the host port is a transaction of its opcode. -/
theorem HpRows.runs {flags arg crc op : Nat} {data : List Byte} {c : Instr} (h : HpRows flags arg data crc c op) :
    ∃ f, ∀ s, exec c s = .next (s.hpRun op flags arg data crc f) := by
  simp only [HpRows, List.mem_cons, List.not_mem_nil, or_false, Prod.mk.injEq] at h
  rcases h with ⟨rfl, rfl⟩ | ⟨rfl, rfl⟩ | ⟨rfl, rfl⟩ | ⟨rfl, rfl⟩ | ⟨rfl, rfl⟩ | ⟨rfl, rfl⟩ | ⟨rfl, rfl⟩ | ⟨rfl, rfl⟩ | ⟨rfl, rfl⟩ | ⟨rfl, rfl⟩
  all_goals exact ⟨_, fun _ => rfl⟩

/-- The checks of R407 in their order. -/
theorem State.hpGate_order {op flags arg crc : Nat} {data : List Byte} :
    (crc ≠ crc32c (hpCommand op flags arg data) → s.hpGate op flags arg data crc = 1)
    ∧ (crc = crc32c (hpCommand op flags arg data) → hpAllowed op flags arg data.length = false → s.hpGate op flags arg data crc = 3)
    ∧ (crc = crc32c (hpCommand op flags arg data) → hpAllowed op flags arg data.length = true →
      s.on Reg.deviceStatusChipReady = false → op < 9 → s.hpGate op flags arg data crc = 7)
    ∧ (crc = crc32c (hpCommand op flags arg data) → hpAllowed op flags arg data.length = true →
      s.on Reg.deviceStatusChipReady = true → op = 1 → s.host.request ≠ none → s.hpGate op flags arg data crc = 2) := by
  unfold State.hpGate
  refine ⟨fun hcrc => if_pos (bne_iff_ne.mpr hcrc), fun hcrc hbad => ?_, fun hcrc hok hready hop => ?_, fun hcrc hok hready hop hbusy => ?_⟩
  · exact (if_neg (by simp [hcrc])).trans (if_pos (by simp [hbad]))
  · refine (if_neg (by simp [hcrc])).trans ((if_neg (by simp [hok])).trans (if_pos ?_))
    simp only [hready, Bool.not_false, Bool.true_and, Bool.and_eq_true, bne_iff_ne]
    omega
  · refine (if_neg (by simp [hcrc])).trans ((if_neg (by simp [hok])).trans ((if_neg (by simp [hready])).trans (if_pos ?_)))
    simp [hop, Option.isSome_iff_ne_none, hbusy]

/-- An item in the middle of assembly that a command names bears on no check of a SET. -/
theorem State.Accepts.assembles {who : Role} {v : Val} {n : Nat} (h : s.Accepts who Reg.lbCmdCmd.key v .lbCmd 0 0 n)
    (l : Option (List (Nat × Bool))) : (s.assembles l).Accepts who Reg.lbCmdCmd.key v .lbCmd 0 0 n where
  ready := h.ready
  quiet := State.catchUp_of_nextDue (State.nextDue_of_catchUp h.quiet :)
  entry := h.entry
  judged := by
    have hjudge : (s.assembles l).judge who (itemOf Reg.lbCmdCmd.key v) = s.judge who (itemOf Reg.lbCmdCmd.key v) := by
      obtain ⟨d, hentry, hent, -⟩ := State.entryAt_of_named h.entry
      have hstate (t : State) (key m : Nat) (raw : List Byte) : t.entState d.ent 0 0 key m raw = .ok := by rw [hent]; rfl
      have hsame : (s.assembles l).entryAt Reg.lbCmdCmd.key = s.entryAt Reg.lbCmdCmd.key := rfl
      unfold State.judge State.judgeValue
      simp only [show (itemOf Reg.lbCmdCmd.key v).key = Reg.lbCmdCmd.key from rfl, hsame, hentry, hstate]
      rfl
    exact hjudge.trans h.judged

/-- A flush counts what it discards, with the items in the middle of assembly that were named (R419). -/
theorem State.lbFlush_counts {l : List (Nat × Bool)} (h : s.lb.begun = some l) : s.lbFlush.rd Reg.hpLbFlushed =
    min (s.rd Reg.hpLbFlushed + (s.lb.drain.length + s.lb.fill.length + (s.lb.asm.getD []).length + l.length))
      (2 ^ Reg.hpLbFlushed.w - 1) := by
  unfold State.lbFlush
  rw [h]
  exact (State.rd_of_regs rfl rfl _).trans (State.rd_bump_same s Reg.hpLbFlushed _)

/-- An accepted LB_FLUSH empties both banks, discards what is in assembly and cuts it (R419). -/
theorem State.Accepts.flushes {who : Role} {v : Val} {n : Nat} (h : s.Accepts who Reg.lbCmdCmd.key v .lbCmd 0 0 n)
    (mid last : List Nat) : Completes (.lbFlush who v mid last) s fun t => t.lb = { s.lb with
        asm := s.lb.asm.map (fun _ => []), begun := none, drain := [], cursor := 0, mark := none, fill := []
        cut := s.lb.cut ++ (mid.map (fun c => (c, true)) ++ last.map (fun c => (c, false))) }
      ∧ t.rd Reg.hpLbFlushed = min (s.rd Reg.hpLbFlushed + (s.lb.drain.length + s.lb.fill.length + (s.lb.asm.getD []).length
        + (mid.length + last.length))) (2 ^ Reg.hpLbFlushed.w - 1) ∧ t.answer.status = .ok := by
  refine ⟨_, congrArg (fun t => Host.Outcome.next (State.assembles t none))
    ((h.assembles _).setAs_stored (mine := fun _ => true) rfl rfl rfl), rfl, ?_, rfl⟩
  generalize hz : (s.assembles (some (mid.map (fun c => (c, true)) ++ last.map (fun c => (c, false))))).takes Reg.lbCmdCmd.key n = z
  have hflush : z.lbFlush.rd Reg.hpLbFlushed = _ := State.lbFlush_counts (by rw [← hz]; rfl)
  have hbefore : z.rd Reg.hpLbFlushed = s.rd Reg.hpLbFlushed := by
    rw [← hz]
    exact State.rd_congr (State.get_put_ne _ _ (by decide))
  have hlb : z.lb = (s.assembles (some (mid.map (fun c => (c, true)) ++ last.map (fun c => (c, false))))).lb := by rw [← hz]; rfl
  rw [hbefore, hlb, List.length_append, List.length_map, List.length_map] at hflush
  exact hflush

/-- Settles O57. -/
theorem hostPort : Obligations.HostPort := by
  unfold Obligations.HostPort
  intro s op flags arg crc data
  refine ⟨fun c hc => ⟨fun hlow => ?_, fun hlow hgate => ?_⟩, State.hpGate_order, fun hlow hgate => ?_,
    fun hok => congrArg Host.Outcome.next (if_pos hok), fun hbad hlow => ?_, fun hlow t ht => ?_, fun who v n u mid last h hu => ?_⟩
  · obtain ⟨f, hf⟩ := HpRows.runs hc
    rw [hf]
    exact congrArg Host.Outcome.next (if_pos hlow)
  · obtain ⟨f, hf⟩ := HpRows.runs hc
    rw [hf, State.hpRun_turned hlow hgate]
  · refine ⟨fun hop => ?_, fun hop => ⟨fun l hl => ?_, fun hl => ?_⟩, fun hop => ⟨fun p l hl => ?_, fun hl => ?_⟩,
      fun hop => ⟨fun p l hl hp => ?_, fun hno => ?_⟩, fun hop l hl => ?_, fun hop => ?_, fun hop => ?_⟩ <;> subst hop
    all_goals refine congrArg Host.Outcome.next ((State.hpRun_go hlow hgate _).trans ?_)
    · rfl
    · rw [hl]
    · rw [hl]
    · rw [hl]
    · rw [hl]
    · rw [hl]
      exact if_pos hp
    · cases hl : s.host.notify with
      | nil => rfl
      | cons p l => exact if_neg (hno p l hl)
    · subst hl
      exact congrArg (State.hpRespond { s with lb := (s.lb.pop arg (bit flags 0)).2 } 0)
        (if_congr List.isEmpty_iff rfl rfl)
    · rfl
    · rfl
  · have hgate : s.hpGate op flags arg data crc = if crc = crc32c (hpCommand op flags arg data) then 3 else 1 := by
      obtain ⟨hwrong, hrow, -, -⟩ := s.hpGate_order (op := op) (flags := flags) (arg := arg) (crc := crc) (data := data)
      split
      next hcrc => exact hrow hcrc hbad
      next hcrc => exact hwrong hcrc
    refine congrArg Host.Outcome.next ((if_neg (by simp [hbad])).trans ((State.hpRun_turned hlow ?_ _).trans ?_))
    · rw [hgate]; split <;> decide
    · rw [hgate]
  · subst ht
    exact congrArg Host.Outcome.next (if_neg (by simp [hlow]))
  · obtain ⟨w, hw, hlb, hcount, hanswer⟩ := h.flushes mid last
    exact ⟨w, hw, hlb, hcount, hanswer⟩

end Sys2Proof.Machine
end

section
/-! O56: placing an item in the Letterbox. -/

namespace Sys2Proof.Machine

/-! The item to remove first (R414). -/

/-- `best` is the place and priority of the item of `l` to remove first: none is lower, and none behind it is as low. -/
def IsVictim (l : List LbItem) : Option (Nat × Nat) → Prop
  | none => l = []
  | some (i, p) => ∃ before a after, l = before ++ a :: after ∧ i = before.length ∧ p = a.prio
      ∧ (∀ x ∈ before, a.prio ≤ x.prio) ∧ ∀ x ∈ after, a.prio < x.prio

theorem IsVictim.later {seen : List LbItem} {best : Option (Nat × Nat)} (h : IsVictim seen best) (l : List LbItem) :
    IsVictim (seen ++ l) (lbVictim l seen.length best) := by
  induction l generalizing seen best with
  | nil => rwa [List.append_nil]
  | cons a l ih =>
    have hseen (new : Option (Nat × Nat)) (hnew : IsVictim (seen ++ [a]) new) :
        IsVictim (seen ++ a :: l) (lbVictim l (seen.length + 1) new) := by
      have := ih hnew
      rwa [List.append_assoc, List.length_append] at this
    match best, h with
    | none, hnone =>
      refine hseen _ ⟨seen, a, [], rfl, rfl, rfl, fun x hx => ?_, fun x hx => absurd hx List.not_mem_nil⟩
      exact absurd (hnone ▸ hx : x ∈ []) List.not_mem_nil
    | some (j, p), ⟨before, b, after, hsplit, hplace, hprio, hbefore, hafter⟩ =>
      refine hseen _ ?_
      split
      next hlow =>
        refine ⟨seen, a, [], rfl, rfl, rfl, fun x hx => ?_, fun x hx => absurd hx List.not_mem_nil⟩
        rw [hsplit, List.mem_append, List.mem_cons] at hx
        rcases hx with hx | rfl | hx
        · exact (hlow.trans_eq hprio).trans (hbefore x hx)
        · exact hlow.trans_eq hprio
        · exact (hlow.trans_eq hprio).trans (hafter x hx).le
      next hhigh =>
        refine ⟨before, b, after ++ [a], by rw [hsplit]; simp, hplace, hprio, hbefore, fun x hx => ?_⟩
        rcases List.mem_append.mp hx with hx | hx
        · exact hafter x hx
        · obtain rfl := List.mem_singleton.mp hx
          omega

theorem lbVictim_spec (l : List LbItem) : IsVictim l (lbVictim l 0 none) := IsVictim.later (seen := []) (best := none) rfl l

/-! Making room (R414). -/

theorem lbWords_perm {l m : List LbItem} (h : l.Perm m) : lbWords l = lbWords m := (h.map _).sum_eq

theorem lbWords_filter_le (l : List LbItem) (p : LbItem → Bool) : lbWords (l.filter p) ≤ lbWords l :=
  (List.filter_sublist.map _).sum_le_sum fun _ _ => Nat.zero_le _

/-- Of the bank `l` the items `gone` were removed for one of priority `prio` and `need` words, and `kept` is left. -/
structure MadeRoom (need prio : Nat) (l kept gone : List LbItem) : Prop where
  sublist : kept.Sublist l
  perm : (kept ++ gone).Perm l
  low : ∀ g ∈ gone, g.prio < prio ∧ ∀ k ∈ kept, g.prio ≤ k.prio
  latest : ∀ q, kept.filter (fun k => k.prio == q) <+: l.filter (fun k => k.prio == q)
  least : ∀ g, gone.getLast? = some g → 512 < lbWords kept + g.size + need

theorem MadeRoom.start (need prio : Nat) (l : List LbItem) : MadeRoom need prio l l [] where
  sublist := List.Sublist.refl l
  perm := by rw [List.append_nil]
  low := fun g hg => absurd hg List.not_mem_nil
  latest := fun _ => List.prefix_rfl
  least := fun g hg => absurd hg (by simp)

/-- The item to remove first goes too. -/
theorem MadeRoom.step {need prio : Nat} {l before after gone : List LbItem} {a : LbItem}
    (h : MadeRoom need prio l (before ++ a :: after) gone) (hfull : 512 < lbWords (before ++ a :: after) + need) (hprio : a.prio < prio)
    (hbefore : ∀ x ∈ before, a.prio ≤ x.prio) (hafter : ∀ x ∈ after, a.prio < x.prio) :
    MadeRoom need prio l (before ++ after) (gone ++ [a]) := by
  have hkeep : (before ++ after).Sublist (before ++ a :: after) := (List.sublist_cons_self a after).append_left before
  have hleast : ∀ k ∈ before ++ after, a.prio ≤ k.prio := fun k hk => (List.mem_append.mp hk).elim (hbefore k) fun hk => (hafter k hk).le
  refine ⟨hkeep.trans h.sublist, ?_, fun g hg => ?_, fun q => ?_, fun g hg => ?_⟩
  · refine List.Perm.trans ?_ h.perm
    have hmove : ([a] ++ (after ++ gone)).Perm (after ++ gone ++ [a]) := List.perm_append_comm
    simpa [List.append_assoc] using (hmove.append_left before).symm
  · rcases List.mem_append.mp hg with hg | hg
    · obtain ⟨hlow, hle⟩ := h.low g hg
      exact ⟨hlow, fun k hk => hle k (hkeep.subset hk)⟩
    · obtain rfl := List.mem_singleton.mp hg
      exact ⟨hprio, hleast⟩
  · refine List.IsPrefix.trans ?_ (h.latest q)
    rw [List.filter_append, List.filter_append]
    by_cases hq : a.prio = q
    · have hnone : after.filter (fun k => k.prio == q) = [] := by
        refine List.filter_eq_nil_iff.mpr fun x hx => ?_
        have := hafter x hx
        simp only [beq_iff_eq]
        omega
      rw [hnone, List.append_nil]
      exact List.prefix_append _ _
    · rw [List.filter_cons_of_neg (by simpa using hq)]
  · rw [List.getLast?_append, List.getLast?_singleton, Option.some_or] at hg
    obtain rfl := Option.some.inj hg
    rw [lbWords_append, lbWords_cons] at hfull
    rw [lbWords_append]
    omega

theorem eraseIdx_split (before after : List LbItem) (a : LbItem) : (before ++ a :: after).eraseIdx before.length = before ++ after := by
  rw [List.eraseIdx_append_of_length_le (le_refl _), Nat.sub_self, List.eraseIdx_cons_zero]

theorem getElem?_split (before after : List LbItem) (a : LbItem) : (before ++ a :: after)[before.length]? = some a := by
  rw [List.getElem?_append_right (le_refl _), Nat.sub_self, List.getElem?_cons_zero]

/-- What room is made by: the lowest and latest items, as many as it takes. -/
theorem lbMakeRoom_made {need prio : Nat} {l : List LbItem} (n : Nat) {now gone : List LbItem} {x : List LbItem × List LbItem}
    (h : MadeRoom need prio l now gone) (hx : lbMakeRoom n need prio now gone = some x) : MadeRoom need prio l x.1 x.2 := by
  induction n generalizing now gone with
  | zero =>
    unfold lbMakeRoom at hx
    split at hx
    · cases hx; exact h
    · cases hx
  | succ n ih =>
    unfold lbMakeRoom at hx
    split at hx
    · cases hx; exact h
    next hfull =>
      have hvictim := lbVictim_spec now
      split at hx
      next i p hv =>
        rw [hv] at hvictim
        obtain ⟨before, a, after, rfl, rfl, rfl, hbefore, hafter⟩ := hvictim
        split at hx
        next hlow =>
          rw [eraseIdx_split, getElem?_split] at hx
          exact ih (h.step (by omega) hlow hbefore hafter) hx
        · cases hx
      · cases hx

/-- The items that may not be removed stay. -/
theorem MadeRoom.high {need prio : Nat} {l kept gone : List LbItem} (h : MadeRoom need prio l kept gone) :
    lbWords (kept.filter fun j => prio ≤ j.prio) = lbWords (l.filter fun j => prio ≤ j.prio) := by
  have hnone : gone.filter (fun j => decide (prio ≤ j.prio)) = [] :=
    List.filter_eq_nil_iff.mpr fun g hg => by simpa using (h.low g hg).1
  have hperm := h.perm.filter fun j => decide (prio ≤ j.prio)
  rw [List.filter_append, hnone, List.append_nil] at hperm
  exact lbWords_perm hperm

/-- Where the items that may not be removed leave no room, none is made. -/
theorem lbMakeRoom_none {need prio : Nat} {l : List LbItem} (n : Nat)
    (h : 512 < lbWords (l.filter fun j => prio ≤ j.prio) + need) : lbMakeRoom n need prio l [] = none := by
  by_contra hsome
  obtain ⟨x, hx⟩ := Option.ne_none_iff_exists'.mp hsome
  have hfits := lbMakeRoom_spec n need prio l [] x hx
  have hhigh := (lbMakeRoom_made n (MadeRoom.start need prio l) hx).high
  have hle := lbWords_filter_le x.1 fun j => decide (prio ≤ j.prio)
  omega

/-- Where they leave room, it is made. -/
theorem lbMakeRoom_some {need prio : Nat} (n : Nat) {l gone : List LbItem} (hn : l.length ≤ n)
    (h : lbWords (l.filter fun j => prio ≤ j.prio) + need ≤ 512) : lbMakeRoom n need prio l gone ≠ none := by
  induction n generalizing l gone with
  | zero =>
    obtain rfl := List.length_eq_zero_iff.mp (Nat.le_zero.mp hn)
    have hfits : lbWords [] + need ≤ 512 := h
    unfold lbMakeRoom
    rw [if_pos hfits]
    simp
  | succ n ih =>
    unfold lbMakeRoom
    split
    · simp
    next hfull =>
      have hvictim := lbVictim_spec l
      split
      next i p hv =>
        rw [hv] at hvictim
        obtain ⟨before, a, after, rfl, rfl, rfl, hbefore, hafter⟩ := hvictim
        split
        next hlow =>
          rw [eraseIdx_split]
          refine ih (by simp only [List.length_append, List.length_cons] at hn ⊢; omega) ?_
          rw [List.filter_append, List.filter_cons_of_neg (by simpa using hlow)] at h
          rwa [List.filter_append]
        next hhigh =>
          refine absurd h ?_
          rw [List.filter_eq_self.mpr]
          · omega
          · intro x hx
            rw [decide_eq_true_eq]
            rw [List.mem_append, List.mem_cons] at hx
            rcases hx with hx | rfl | hx
            · have := hbefore x hx; omega
            · omega
            · have := hafter x hx; omega
      next hv =>
        rw [hv] at hvictim
        exact absurd h (by rw [show l = [] from hvictim] at hfull ⊢; exact hfull)

/-! Sorting by insertion behind the equal ones: the read order of R413, and the arbiter's order of R421. -/

section
variable {α : Type} (f : α → Int)

/-- An item put among others in ascending order of `f`, behind those of its own value. -/
abbrev putBehind (l : List α) (a : α) : List α := l.orderedInsert (fun x y => f x < f y) a

theorem putBehind_pairwise {l : List α} (h : l.Pairwise fun x y => f x ≤ f y) (a : α) :
    (putBehind f l a).Pairwise fun x y => f x ≤ f y := by
  induction l with
  | nil => exact List.pairwise_singleton _ _
  | cons b l ih =>
    rw [putBehind, List.orderedInsert_cons]
    obtain ⟨hb, hl⟩ := List.pairwise_cons.mp h
    split
    next hlt =>
      refine List.pairwise_cons.mpr ⟨fun x hx => ?_, h⟩
      rcases List.mem_cons.mp hx with rfl | hx
      · exact hlt.le
      · exact hlt.le.trans (hb x hx)
    next hle =>
      refine List.pairwise_cons.mpr ⟨fun x hx => ?_, ih hl⟩
      rcases List.mem_cons.mp ((List.perm_orderedInsert _ a l).mem_iff.mp hx) with rfl | hx
      · exact not_lt.mp hle
      · exact hb x hx

/-- Among the items of one value it stands last. -/
theorem putBehind_filter {l : List α} (h : l.Pairwise fun x y => f x ≤ f y) (a : α) {p : α → Bool}
    (hp : ∀ x y, p x = true → p y = true → f x = f y) : (putBehind f l a).filter p = (l ++ [a]).filter p := by
  induction l with
  | nil => rfl
  | cons b l ih =>
    rw [putBehind, List.orderedInsert_cons]
    obtain ⟨hb, hl⟩ := List.pairwise_cons.mp h
    split
    next hlt =>
      rw [List.filter_append]
      by_cases ha : p a = true
      · have hnone : (b :: l).filter p = [] := by
          refine List.filter_eq_nil_iff.mpr fun x hx hx' => ?_
          have heq := hp a x ha hx'
          rcases List.mem_cons.mp hx with rfl | hx
          · omega
          · have := hb x hx; omega
        rw [List.filter_cons_of_pos ha, hnone, List.filter_cons_of_pos ha]
        rfl
      · rw [List.filter_cons_of_neg ha, List.filter_cons_of_neg ha, List.filter_nil, List.append_nil]
    next hle =>
      have hrest := ih hl
      rw [putBehind] at hrest
      rw [List.cons_append, List.filter_cons, List.filter_cons, hrest]

/-- Inserted one by one: the same items, in order, and those of one value as they came. -/
theorem putBehind_all {l : List α} (acc : List α) (h : acc.Pairwise fun x y => f x ≤ f y) :
    (l.foldl (putBehind f) acc).Perm (acc ++ l) ∧ (l.foldl (putBehind f) acc).Pairwise (fun x y => f x ≤ f y)
    ∧ ∀ p : α → Bool, (∀ x y, p x = true → p y = true → f x = f y) → (l.foldl (putBehind f) acc).filter p = (acc ++ l).filter p := by
  induction l generalizing acc with
  | nil => exact ⟨by simp, h, fun p _ => by simp⟩
  | cons a l ih =>
    obtain ⟨hperm, hpair, hfilter⟩ := ih (putBehind f acc a) (putBehind_pairwise f h a)
    refine ⟨hperm.trans ?_, hpair, fun p hp => (hfilter p hp).trans ?_⟩
    · exact ((List.perm_orderedInsert _ a acc).append_right l).trans (by simpa using (List.perm_middle (l₁ := acc)).symm)
    · rw [List.filter_append, putBehind_filter f h a hp, ← List.filter_append, List.append_assoc]
      rfl

end

theorem lbInsert_eq (i : LbItem) (l : List LbItem) : lbInsert i l = putBehind (fun x => -(x.prio : Int)) l i := by
  induction l with
  | nil => rfl
  | cons a l ih =>
    unfold lbInsert
    rw [putBehind, List.orderedInsert_cons, ih]
    split
    · rw [if_neg (by omega)]
    · rw [if_pos (by omega)]

theorem lbByCode_eq (e : LbEvent) (l : List LbEvent) : lbByCode e l = putBehind (fun x => (x.code : Int)) l e := by
  induction l with
  | nil => rfl
  | cons a l ih =>
    unfold lbByCode
    rw [putBehind, List.orderedInsert_cons, ih]
    split
    · rw [if_neg (by omega)]
    · rw [if_pos (by omega)]

/-- The read order: the same items, the highest priority first, those of one priority as they came (R413). -/
theorem lbOrder_sorts (l : List LbItem) : (lbOrder l).Perm l ∧ (lbOrder l).Pairwise (fun x y => y.prio ≤ x.prio)
    ∧ ∀ q, (lbOrder l).filter (fun k => k.prio == q) = l.filter (fun k => k.prio == q) := by
  have horder : lbOrder l = l.foldl (putBehind fun x => -(x.prio : Int)) [] := by
    unfold lbOrder
    simp only [lbInsert_eq]
  obtain ⟨hperm, hpair, hfilter⟩ := putBehind_all (fun x : LbItem => -(x.prio : Int)) (l := l) [] List.Pairwise.nil
  rw [horder]
  refine ⟨hperm, hpair.imp fun h => by omega, fun q => hfilter _ fun x y hx hy => ?_⟩
  rw [beq_iff_eq] at hx hy
  rw [hx, hy]

/-- The arbiter's order: the same events by ascending CODE, those of one CODE as they came (R421). -/
theorem byCode_sorts (l : List LbEvent) : ∀ m, m = l.foldl (fun acc e => lbByCode e acc) [] → m.Perm l
    ∧ m.Pairwise (fun x y => x.code ≤ y.code) ∧ ∀ c, m.filter (fun x => x.code == c) = l.filter (fun x => x.code == c) := by
  rintro m rfl
  obtain ⟨hperm, hpair, hfilter⟩ := putBehind_all (fun x : LbEvent => (x.code : Int)) (l := l) [] List.Pairwise.nil
  simp only [lbByCode_eq]
  refine ⟨hperm, hpair.imp fun h => by omega, fun c => hfilter _ fun x y hx hy => ?_⟩
  rw [beq_iff_eq] at hx hy
  rw [hx, hy]

end Sys2Proof.Machine
end

section
/-! O56: posting an event. -/

namespace Sys2Proof.Machine

variable {s t u : State}

theorem State.rd_bumpIf_same (s : State) (f : Fld) (b : Bool) : (s.bumpIf b f).rd f = min (s.rd f + b2n b) (2 ^ f.w - 1) := by
  have hlt := s.rd_lt f
  cases b with
  | false =>
    show s.rd f = min (s.rd f + 0) (2 ^ f.w - 1)
    omega
  | true => exact State.rd_bump_same s f 1

/-- Another Letterbox leaves every field as it reads. -/
theorem State.withLb_rd (s : State) (b : Letterbox) (f : Fld) : ({ s with lb := b } : State).rd f = s.rd f := rfl

/-! The swap. -/

theorem State.lbSwapIfDue_due (hdrain : s.lb.drain = []) (hfill : s.lb.fill ≠ []) :
    s.lbSwapIfDue = { (s.bump Reg.hpLbSwaps 1).bumpIf s.lb.lossy Reg.hpLbPosted with lb := s.lb.swap } :=
  (if_pos (by simp [hdrain, hfill])).trans
    (congrArg (fun b : Letterbox => { (s.bump Reg.hpLbSwaps 1).bumpIf s.lb.lossy Reg.hpLbPosted with lb := b.swap })
      (State.bumpIf_lb (s.bump Reg.hpLbSwaps 1) s.lb.lossy Reg.hpLbPosted))

theorem State.lbSwapIfDue_none (h : s.lb.drain ≠ []) : s.lbSwapIfDue = s := if_neg (by simp [h])

/-- A swap counts the overflow item it posts. -/
theorem State.lbSwapIfDue_posted (hfill : s.lb.fill ≠ []) : s.lbSwapIfDue.rd Reg.hpLbPosted =
    min (s.rd Reg.hpLbPosted + if s.lb.drain = [] ∧ s.lb.lossy = true then 1 else 0) (2 ^ Reg.hpLbPosted.w - 1) := by
  have hlt := s.rd_lt Reg.hpLbPosted
  by_cases hdrain : s.lb.drain = []
  · rw [State.lbSwapIfDue_due hdrain hfill]
    refine (State.rd_of_regs (s := (s.bump Reg.hpLbSwaps 1).bumpIf s.lb.lossy Reg.hpLbPosted) rfl rfl _).trans ?_
    rw [State.rd_bumpIf_same, State.rd_bump_ne s 1 (by decide)]
    cases s.lb.lossy <;> simp [hdrain, b2n]
  · rw [State.lbSwapIfDue_none hdrain, if_neg (fun h => hdrain h.1)]
    omega

theorem State.lbSwapIfDue_rd (s : State) {f : Fld} (h1 : f.key ≠ Reg.hpLbSwaps.key) (h2 : f.key ≠ Reg.hpLbPosted.key) :
    s.lbSwapIfDue.rd f = s.rd f := by
  unfold State.lbSwapIfDue
  split
  · refine (State.rd_of_regs (s := (s.bump Reg.hpLbSwaps 1).bumpIf s.lb.lossy Reg.hpLbPosted) rfl rfl f).trans ?_
    exact State.rd_congr ((State.bumpIf_get_ne _ _ h2).trans (State.get_bump_ne s 1 h1))
  · rfl

/-! Pushing an item. -/

/-- An item placed behind `kept`, `gone` removed for it, before any swap. -/
def State.lbPlace (s : State) (i : LbItem) (kept gone : List LbItem) : State :=
  { (s.bump Reg.hpLbPosted 1).bump Reg.hpLbDisplaced gone.length with
    lb := { s.lb with fill := kept ++ [i], displaced := s.lb.displaced + gone.length, firstLost := lbFirstLost s.lb gone } }

theorem State.lbPush_made {i : LbItem} {kept gone : List LbItem} (hswap : lbWords s.lb.fill + i.size ≤ 512 ∨ s.lb.drain ≠ [])
    (h : lbMakeRoom s.lb.fill.length i.size i.prio s.lb.fill [] = some (kept, gone)) :
    s.lbPush i = (s.lbPlace i kept gone).lbSwapIfDue := by
  have hstay : (if lbWords s.lb.fill + i.size ≤ 512 then s else s.lbSwapIfDue) = s := by
    split
    · rfl
    next hfull => exact State.lbSwapIfDue_none (hswap.resolve_left hfull)
  unfold State.lbPush
  dsimp only
  rw [hstay, h]
  rfl

theorem State.lbPush_lost {i : LbItem} (hdrain : s.lb.drain ≠ []) (hfull : 512 < lbWords s.lb.fill + i.size)
    (h : lbMakeRoom s.lb.fill.length i.size i.prio s.lb.fill [] = none) : s.lbPush i =
      { s.bump Reg.hpLbDropped 1 with
        lb := { s.lb with dropped := s.lb.dropped + 1, firstLost := some (s.lb.firstLost.getD i.seq) } } := by
  have hfirst : lbFirstLost s.lb [i] = some (s.lb.firstLost.getD i.seq) := by
    unfold lbFirstLost
    cases s.lb.firstLost <;> rfl
  unfold State.lbPush
  dsimp only
  rw [if_neg (by omega), State.lbSwapIfDue_none hdrain, h]
  dsimp only
  rw [← hfirst]
  rfl

theorem lbMakeRoom_fits (n prio : Nat) {need : Nat} {l gone : List LbItem} (h : lbWords l + need ≤ 512) :
    lbMakeRoom n need prio l gone = some (l, gone) := by
  cases n <;> exact if_pos h

theorem State.lbPlace_rd (s : State) (i : LbItem) (kept gone : List LbItem) (f : Fld) :
    (s.lbPlace i kept gone).rd f = ((s.bump Reg.hpLbPosted 1).bump Reg.hpLbDisplaced gone.length).rd f := by
  unfold State.lbPlace
  exact State.withLb_rd _ _ f

theorem State.lbPlace_posted (s : State) (i : LbItem) (kept gone : List LbItem) :
    (s.lbPlace i kept gone).rd Reg.hpLbPosted = min (s.rd Reg.hpLbPosted + 1) (2 ^ Reg.hpLbPosted.w - 1) := by
  rw [State.lbPlace_rd, State.rd_bump_ne _ _ (by decide), State.rd_bump_same]

theorem State.lbPlace_displaced (s : State) (i : LbItem) (kept gone : List LbItem) :
    (s.lbPlace i kept gone).rd Reg.hpLbDisplaced = min (s.rd Reg.hpLbDisplaced + gone.length) (2 ^ Reg.hpLbDisplaced.w - 1) := by
  rw [State.lbPlace_rd, State.rd_bump_same, State.rd_bump_ne _ _ (by decide)]

/-- A push where the filling bank has room (R413). -/
theorem State.lbPush_fits {i : LbItem} (h : lbWords s.lb.fill + i.size ≤ 512) :
    (s.lb.drain ≠ [] → (s.lbPush i).lb = { s.lb with fill := s.lb.fill ++ [i] })
    ∧ (s.lb.drain = [] → s.lb.fill = [] → s.lb.dropped = 0 → s.lb.displaced = 0 → (s.lbPush i).lb =
      { s.lb with bank := 1 - s.lb.bank, drain := [i], cursor := 0, mark := none, firstLost := none })
    ∧ (s.lbPush i).rd Reg.hpLbPosted =
      min (s.rd Reg.hpLbPosted + 1 + (if s.lb.drain = [] ∧ s.lb.lossy = true then 1 else 0)) (2 ^ Reg.hpLbPosted.w - 1) := by
  have hlost : lbFirstLost s.lb [] = s.lb.firstLost := by unfold lbFirstLost; cases s.lb.firstLost <;> rfl
  rw [State.lbPush_made (.inl h) (lbMakeRoom_fits _ _ h)]
  refine ⟨fun hdrain => ?_, fun hdrain hfill hdropped hdisplaced => ?_, ?_⟩
  · rw [State.lbSwapIfDue_none (show (s.lbPlace i s.lb.fill []).lb.drain ≠ [] from hdrain)]
    unfold State.lbPlace
    rw [hlost]
    rfl
  · rw [State.lbSwapIfDue_due (s := s.lbPlace i s.lb.fill []) hdrain (by simp [State.lbPlace])]
    simp [State.lbPlace, Letterbox.swap, Letterbox.lossy, hdrain, hfill, hdropped, hdisplaced, lbOrder, lbInsert]
  · rw [State.lbSwapIfDue_posted (by simp [State.lbPlace]), State.lbPlace_posted]
    show min (min _ _ + if s.lb.drain = [] ∧ s.lb.lossy = true then 1 else 0) _ = _
    split <;> omega

/-- A push that makes room (R414). -/
theorem State.lbPush_displaces {i : LbItem} (hdrain : s.lb.drain ≠ []) (hfull : 512 < lbWords s.lb.fill + i.size)
    (h : lbWords (s.lb.fill.filter fun j => i.prio ≤ j.prio) + i.size ≤ 512) : ∃ kept gone : List LbItem,
    (s.lbPush i).lb = { s.lb with fill := kept ++ [i], displaced := s.lb.displaced + gone.length
                                  firstLost := some (s.lb.firstLost.getD ((gone.head?.map (·.seq)).getD 0)) }
    ∧ MadeRoom i.size i.prio s.lb.fill kept gone
    ∧ (s.lbPush i).rd Reg.hpLbPosted = min (s.rd Reg.hpLbPosted + 1) (2 ^ Reg.hpLbPosted.w - 1)
    ∧ (s.lbPush i).rd Reg.hpLbDisplaced = min (s.rd Reg.hpLbDisplaced + gone.length) (2 ^ Reg.hpLbDisplaced.w - 1) := by
  obtain ⟨⟨kept, gone⟩, hroom⟩ := Option.ne_none_iff_exists'.mp
    (lbMakeRoom_some (gone := []) (need := i.size) (prio := i.prio) s.lb.fill.length (le_refl _) h)
  have hmade := lbMakeRoom_made _ (MadeRoom.start i.size i.prio s.lb.fill) hroom
  have hfits := lbMakeRoom_spec _ _ _ _ _ _ hroom
  have hpush := State.lbPush_made (.inr hdrain) hroom
  rw [State.lbSwapIfDue_none (show (s.lbPlace i kept gone).lb.drain ≠ [] from hdrain)] at hpush
  refine ⟨kept, gone, ?_, hmade, ?_, ?_⟩
  · have hsome : lbFirstLost s.lb gone = some (s.lb.firstLost.getD ((gone.head?.map (·.seq)).getD 0)) := by
      cases gone with
      | nil =>
        have := lbWords_perm hmade.perm
        rw [List.append_nil] at this
        have hkept : lbWords kept + i.size ≤ 512 := hfits
        omega
      | cons a gone => unfold lbFirstLost; cases s.lb.firstLost <;> rfl
    rw [hpush, ← hsome]
    rfl
  · rw [hpush, State.lbPlace_posted]
  · rw [hpush, State.lbPlace_displaced]

/-- A push that no removal makes room for (R414). -/
theorem State.lbPush_drops {i : LbItem} (hdrain : s.lb.drain ≠ []) (hfull : 512 < lbWords s.lb.fill + i.size)
    (h : 512 < lbWords (s.lb.fill.filter fun j => i.prio ≤ j.prio) + i.size) :
    (s.lbPush i).lb = { s.lb with dropped := s.lb.dropped + 1, firstLost := some (s.lb.firstLost.getD i.seq) }
    ∧ (s.lbPush i).rd Reg.hpLbDropped = min (s.rd Reg.hpLbDropped + 1) (2 ^ Reg.hpLbDropped.w - 1) := by
  rw [State.lbPush_lost hdrain hfull (lbMakeRoom_none _ h)]
  exact ⟨rfl, (State.rd_of_regs (s := s.bump Reg.hpLbDropped 1) rfl rfl _).trans (State.rd_bump_same _ _ _)⟩

/-! Posting. -/

theorem State.post_filtered {code prio : Nat} {words : List Nat} (h : prio < s.threshold code) :
    s.post code prio words = s.bump Reg.hpLbFiltered 1 := if_neg (by omega)

/-- The event that a post completes. -/
def postedEvent (code prio : Nat) (words : List Nat) : LbEvent := { code := code, prio := prio, words := words.map (· % 2 ^ 32) }

theorem State.post_stands {code prio : Nat} {words : List Nat} {l : List LbEvent} (h : s.threshold code ≤ prio) (hasm : s.lb.asm = some l) :
    s.post code prio words = { s with lb := { s.lb with asm := some (l ++ [postedEvent code prio words]) } } :=
  (if_pos h).trans (by rw [hasm]; rfl)

theorem State.post_sends {code prio : Nat} {words : List Nat} (h : s.threshold code ≤ prio) (hasm : s.lb.asm = none) :
    s.post code prio words = s.lbSend (postedEvent code prio words) :=
  (if_pos h).trans (by rw [hasm]; rfl)

/-- An item that a flush cut is swallowed. -/
theorem State.lbSend_cut {e : LbEvent} {p : Nat × Bool} (h : s.lb.cut.find? (fun p => p.1 == e.code) = some p) :
    (s.lbSend e).lb = { s.lb with cut := s.lb.cut.erase p }
    ∧ (s.lbSend e).rd Reg.hpLbSwallowed = min (s.rd Reg.hpLbSwallowed + b2n p.2) (2 ^ Reg.hpLbSwallowed.w - 1) := by
  have hsend : s.lbSend e = State.bumpIf { s with lb := { s.lb with cut := s.lb.cut.erase p } } p.2 Reg.hpLbSwallowed := by
    unfold State.lbSend
    rw [h]
  rw [hsend]
  exact ⟨State.bumpIf_lb _ _ _, State.rd_bumpIf_same _ _ _⟩

/-- Any other takes the next SEQ and is pushed. -/
theorem State.lbSend_pushes {e : LbEvent} (h : ∀ p ∈ s.lb.cut, p.1 ≠ e.code) : s.lbSend e =
    ({ s with lb := { s.lb with seqNext := (s.lb.seqNext + 1) % 256 } } : State).lbPush
      { code := e.code, prio := e.prio, seq := s.lb.seqNext % 256, words := e.words } := by
  have hnone : s.lb.cut.find? (fun p => p.1 == e.code) = none := List.find?_eq_none.mpr fun p hp => by simpa using h p hp
  unfold State.lbSend
  rw [hnone]

/-- What no post touches. -/
theorem OnlyLb.eq (h : OnlyLb s t) : t = { s with regs := t.regs, lb := t.lb } := by
  obtain ⟨-, hfuse, hrc, hpath, hvolt, htime, hports, hhearth, hptp, hstream, hasrc, htdm, hhall, hrooms, hguard, hcellar, hdw, hkdp,
    hflash, hboot, hhallTest, hddrTest, hhost, hanswer, hfree, hpending⟩ := h
  rw [← hfuse, ← hrc, ← hpath, ← hvolt, ← htime, ← hports, ← hhearth, ← hptp, ← hstream, ← hasrc, ← htdm, ← hhall, ← hrooms, ← hguard,
    ← hcellar, ← hdw, ← hkdp, ← hflash, ← hboot, ← hhallTest, ← hddrTest, ← hhost, ← hanswer, ← hfree, ← hpending]

/-- At the end of a moment the arbiter takes what stands in the assembly registers by ascending CODE (R421). -/
theorem State.scatter_delivers {l : List LbEvent} (hs : s.lb.asm = none) (hu : u.lb.asm = some l) :
    ∃ m : List LbEvent, m.Perm l ∧ m.Pairwise (fun x y => x.code ≤ y.code)
      ∧ (∀ c, m.filter (fun x => x.code == c) = l.filter (fun x => x.code == c))
      ∧ ∀ v, v = m.foldl State.lbSend { u with lb := { u.lb with asm := some [] } } →
        s.scatter u = { v with lb := { v.lb with asm := none } } := by
  obtain ⟨hperm, hpair, hfilter⟩ := byCode_sorts l _ rfl
  refine ⟨_, hperm, hpair, hfilter, fun v hv => ?_⟩
  have hdeliver : u.lbDeliver = v := by
    rw [hv]
    unfold State.lbDeliver
    rw [hu]
  unfold State.scatter
  rw [if_neg (by rw [hs]; decide), hdeliver]

/-- A swap makes the filling bank the draining one (R413, R415). -/
theorem State.lbSwapIfDue_swaps (hdrain : s.lb.drain = []) (hfill : s.lb.fill ≠ []) (hu : u = s.lbSwapIfDue) :
    u.lb.bank = 1 - s.lb.bank ∧ u.lb.cursor = 0 ∧ u.lb.mark = none
    ∧ u.lb.drain.Perm s.lb.fill ∧ u.lb.drain.Pairwise (fun x y => y.prio ≤ x.prio)
    ∧ (∀ q, u.lb.drain.filter (fun k => k.prio == q) = s.lb.fill.filter (fun k => k.prio == q))
    ∧ u.lb.dropped = 0 ∧ u.lb.displaced = 0 ∧ u.lb.firstLost = none
    ∧ (s.lb.dropped = 0 → s.lb.displaced = 0 → u.lb.fill = [] ∧ u.lb.seqNext = s.lb.seqNext)
    ∧ (0 < s.lb.dropped ∨ 0 < s.lb.displaced → u.lb.seqNext = (s.lb.seqNext + 1) % 256 ∧ u.lb.fill = [{
      code := 0xD501, prio := 7, seq := s.lb.seqNext % 256
      words := [min s.lb.dropped 0xFFFF + min s.lb.displaced 0xFFFF * 65536, s.lb.firstLost.getD 0] }]) := by
  have hlb : u.lb = s.lb.swap := by rw [hu, State.lbSwapIfDue_due hdrain hfill]
  obtain ⟨hperm, hpair, hfilter⟩ := lbOrder_sorts s.lb.fill
  rw [hlb]
  refine ⟨rfl, rfl, rfl, hperm, hpair, hfilter, rfl, rfl, rfl, fun hdropped hdisplaced => ?_, fun hlost => ?_⟩
  · have hlossy : s.lb.lossy = false := by simp [Letterbox.lossy, hdropped, hdisplaced]
    unfold Letterbox.swap
    rw [hlossy]
    exact ⟨rfl, rfl⟩
  · have hlossy : s.lb.lossy = true := by
      simp only [Letterbox.lossy, Bool.or_eq_true, bne_iff_ne]
      omega
    unfold Letterbox.swap
    rw [hlossy]
    exact ⟨rfl, rfl⟩

/-- Settles O56. -/
theorem postingAnEvent : Obligations.PostingAnEvent := by
  unfold Obligations.PostingAnEvent
  intro s t code prio words e i ht he hi
  have honly : OnlyLb s t := ht ▸ (OnlyLb.refl s).post code prio words
  have hsize : i.size = 1 + words.length := by rw [hi, he]; simp [LbItem.size]
  refine ⟨fun hlow => ht.trans (State.post_filtered hlow), fun l hpass hasm => ?_, fun p hpass hasm hcut => ?_, fun hpass hasm hcut => ?_,
    fun u l hs hu => State.scatter_delivers hs hu, fun hdrain hfill u hu => State.lbSwapIfDue_swaps hdrain hfill hu, honly.regs, honly.eq⟩
  · rw [ht, he]
    exact State.post_stands hpass hasm
  · rw [ht, State.post_sends hpass hasm]
    exact State.lbSend_cut hcut
  · have hpush : t = ({ s with lb := { s.lb with seqNext := (s.lb.seqNext + 1) % 256 } } : State).lbPush i := by
      rw [ht, State.post_sends hpass hasm, hi, he]
      exact State.lbSend_pushes hcut
    have hprio : i.prio = prio := by rw [hi]
    subst hprio hpush
    refine ⟨fun hfits => State.lbPush_fits (s := { s with lb := { s.lb with seqNext := (s.lb.seqNext + 1) % 256 } }) hfits, fun hdrain hfull => ⟨fun hhigh => State.lbPush_drops
      (s := { s with lb := { s.lb with seqNext := (s.lb.seqNext + 1) % 256 } }) hdrain hfull hhigh, fun hlow => ?_⟩⟩
    obtain ⟨kept, gone, hlb, hmade, hposted, hdisplaced⟩ := State.lbPush_displaces
      (s := { s with lb := { s.lb with seqNext := (s.lb.seqNext + 1) % 256 } }) hdrain hfull hlow
    exact ⟨kept, gone, hlb, hmade.sublist, hmade.perm, hmade.low, hmade.latest, hmade.least, hposted, hdisplaced⟩

end Sys2Proof.Machine
end

section
/-! The work that ends with a domain leaves RC where it stands (R37, R439). -/

namespace Sys2Proof.Machine

section
variable {s t : State} {ρ : Nat}

theorem State.ite_rc {c : Prop} [Decidable c] (hs : s.rc = ρ) (ht : t.rc = ρ) : (if c then s else t).rc = ρ := by
  split
  · exact hs
  · exact ht

theorem State.ite_fst_rc {α : Type} {c : Prop} [Decidable c] {x y : State × α} (hx : x.1.rc = ρ) (hy : y.1.rc = ρ) :
    (if c then x else y).1.rc = ρ := by
  split
  · exact hx
  · exact hy

theorem State.csumFail_rc {n b kind : Nat} (h : t.rc = ρ) : (t.csumFail n b kind).rc = ρ := by
  unfold State.csumFail
  dsimp only
  exact State.ite_rc ((State.post_rc _ _ _ _).trans h) h

theorem State.activeChecked_rc {n kind : Nat} {ok : Bool} (h : t.rc = ρ) : (t.activeChecked n kind ok).rc = ρ := by
  unfold State.activeChecked
  dsimp only
  refine State.ite_rc (State.ite_rc h h) (State.csumFail_rc ?_)
  split <;> exact h

theorem State.reachTile_rc {n : Nat} (h : t.rc = ρ) : (t.reachTile n).1.rc = ρ := by
  unfold State.reachTile
  dsimp only
  refine State.ite_fst_rc h (State.ite_fst_rc h ?_)
  dsimp only
  generalize hu : State.each _ _ _ = u
  have hmix : u.rc = ρ := hu ▸ State.each_keeps (P := fun u => u.rc = ρ) h fun u b _ hu => by
    unfold State.rebuildFlag
    exact State.ite_rc hu hu
  have hmixed : ∀ (c : Prop) [Decidable c] l, (if c then u.mixTile n l else u.bump Reg.hallTileDrops 1).rc = ρ := fun _ _ _ =>
    State.ite_rc hmix hmix
  refine State.ite_rc (State.ite_rc (State.ite_rc ?_ (State.csumFail_rc ?_)) (State.csumFail_rc (State.ite_rc ?_ (State.csumFail_rc ?_))))
    (State.activeChecked_rc (hmixed _ _))
  all_goals exact hmixed _ _

theorem State.reachTiles_rc {l : List Nat} (h : t.rc = ρ) : (t.reachTiles l).1.rc = ρ := by
  induction l generalizing t with
  | nil => exact h
  | cons n l ih => exact ih (State.reachTile_rc h)

theorem State.hallOutputs_rc (h : t.rc = ρ) : t.hallOutputs.rc = ρ := by
  unfold State.hallOutputs
  dsimp only
  generalize hl : List.map Prod.fst _ = l
  have hsat : ∀ x, (State.each { t with hall := x } l fun u o => u.bump (Reg.outSatTicks o) 1).rc = ρ := fun x =>
    State.each_keeps (P := fun u => u.rc = ρ) h fun _ _ _ hu => hu
  split
  · unfold State.hallSat
    dsimp only
    exact State.ite_rc ((State.post_rc _ _ _ _).trans (hsat _)) (hsat _)
  · exact hsat _

theorem State.scrubVisit_rc {n : Nat} {idle : Bool} (h : t.rc = ρ) : (t.scrubVisit n idle).rc = ρ := by
  have hshadow : ∀ {u : State}, u.rc = ρ → (u.shadowFails n).rc = ρ := by
    intro u hu
    unfold State.shadowFails
    dsimp only
    exact State.csumFail_rc (State.ite_rc hu (State.ite_rc hu hu))
  unfold State.scrubVisit
  extract_lets x fading ok badShadow u w
  have hu : u.rc = ρ := State.ite_rc h (State.ite_rc (State.csumFail_rc h) (State.activeChecked_rc h))
  have hw : w.rc = ρ := State.ite_rc (hshadow hu) hu
  exact State.ite_rc hw (State.ite_rc hw (State.activeChecked_rc hw))

theorem State.hallClose_rc (h : t.rc = ρ) : t.hallClose.rc = ρ := by
  unfold State.hallClose
  split
  · exact h
  · dsimp only
    generalize hu : State.fadesAdvance _ _ = u
    have hfades : u.rc = ρ := by
      rw [← hu]
      unfold State.fadesAdvance
      exact State.each_keeps (P := fun u => u.rc = ρ) (State.hallOutputs_rc h) fun v x _ hv => State.ite_rc hv (State.ite_rc hv hv)
    refine State.ite_rc hfades ?_
    unfold State.scrubTick
    refine State.ite_rc hfades ?_
    unfold State.bumpIf
    exact State.ite_rc (State.scrubVisit_rc hfades) (State.scrubVisit_rc hfades)

theorem State.hallFinish_rc (h : t.rc = ρ) : t.hallFinish.rc = ρ := by
  unfold State.hallFinish
  split
  · exact h
  · exact State.hallClose_rc (State.reachTiles_rc h)

theorem State.recTick_rc {n : Nat} {vals : Option (List Nat)} (h : t.rc = ρ) : (t.recTick n vals).rc = ρ := by
  unfold State.recTick
  extract_lets start u len ring drawn taken
  have hu : u.rc = ρ := State.ite_rc h h
  have hw : taken.2.rc = ρ := by
    unfold taken
    split <;> exact hu
  exact State.ite_rc hu (State.ite_rc hu hw)

theorem State.lateInput_rc {n o : Nat} (h : t.rc = ρ) : (t.lateInput n o).rc = ρ := by
  unfold State.lateInput
  split
  · exact h
  · dsimp only
    split <;> exact h
  · exact h

theorem State.copyDone_rc {l : List Nat} {x : LateCopy} (h : t.rc = ρ) : (t.copyDone l x).rc = ρ := by
  unfold State.copyDone State.copyTo
  split <;> exact h

theorem State.finishWork_rc {d : Nat} (h : t.rc = ρ) : (t.finishWork d).rc = ρ := by
  unfold State.finishWork
  dsimp only
  generalize hu : State.each _ (t.tick d).fill4 _ = u
  have hwork : u.rc = ρ := by
    rw [← hu]
    refine State.each_keeps (P := fun u => u.rc = ρ) (State.ite_rc (State.hallFinish_rc ?_) ?_) fun _ _ _ hv => State.copyDone_rc hv
    all_goals
      refine State.each_keeps (P := fun u => u.rc = ρ) (State.each_keeps (P := fun u => u.rc = ρ) h fun v c _ hv => ?_)
        fun v x _ hv => State.lateInput_rc (State.copyDone_rc hv)
      exact State.ite_rc hv hv
  split
  · exact State.recTick_rc hwork
  · exact hwork

end

/-! What a domain's stop leaves (R37, R40). -/

section
variable (s : State) (d : Nat)

/-- What stops with a domain is of its outputs. -/
theorem State.outputsHalt_parts : (s.outputsHalt d).rc = s.rc ∧ (s.outputsHalt d).rooms = s.rooms ∧ (s.outputsHalt d).hall = s.hall
    ∧ (s.outputsHalt d).cellar = s.cellar ∧ (s.outputsHalt d).lb = s.lb := by
  unfold State.outputsHalt
  refine State.units_keeps (P := fun u => u.rc = s.rc ∧ u.rooms = s.rooms ∧ u.hall = s.hall ∧ u.cellar = s.cellar ∧ u.lb = s.lb)
    (State.units_keeps (P := fun u => u.rc = s.rc ∧ u.rooms = s.rooms ∧ u.hall = s.hall ∧ u.cellar = s.cellar ∧ u.lb = s.lb)
      ⟨rfl, rfl, rfl, rfl, rfl⟩ fun u w _ hu => ?_) fun u k _ hu => ?_
  all_goals
    split
    · exact hu
    · exact hu

theorem State.domainHalt_rc : (s.domainHalt d).rc = s.rc := by
  rw [State.domainHalt_eq, ((State.domainStopped _ d).outputsHalt_parts d).1]
  exact State.ite_rc (State.finishWork_rc rfl) rfl

theorem State.domainHalt_tick : (s.domainHalt d).tick d = {} := by
  rw [State.domainHalt_eq]
  unfold State.tick
  rw [State.outputsHalt_path]
  exact Sparse.get_put_same ..

/-- The rooms, the Hall, the Cellar and the Letterbox stand as the work that ran to its end leaves them. -/
theorem State.domainHalt_work {z : State}
    (hz : z = if (s.tick d).open_ = true ∧ (s.tick d).launched = false then s.finishWork d else s) :
    (s.domainHalt d).rooms = z.rooms ∧ (s.domainHalt d).hall = z.hall ∧ (s.domainHalt d).cellar = z.cellar
    ∧ (s.domainHalt d).lb = z.lb := by
  have hsame : (if (s.tick d).open_ && !(s.tick d).launched then s.finishWork d else s) = z := by
    rw [hz]
    exact if_congr (by simp) rfl rfl
  rw [State.domainHalt_eq, hsame]
  exact ((z.domainStopped d).outputsHalt_parts d).2

/-- The entries that a stop may change, with work that runs to its end. -/
theorem State.domainHalt_only : Only (fun k => HaltKey d k ∨ WorkKey k) s (s.domainHalt d) := by
  rw [State.domainHalt_eq]
  generalize hu : (if ((s.tick d).open_ && !(s.tick d).launched) = true then s.finishWork d else s) = u
  have hwork : Only WorkKey s u := hu ▸ .ite (.finishWork (.refl _ s)) (.refl _ s)
  have hstop : Only (fun k => HaltKey d k ∨ WorkKey k) s (u.domainStopped d) :=
    .of_get (.wr (f := Reg.domainRunRunning d) (hwork.mono fun _ hk => .inr hk) (.inl (.inl rfl))) fun _ => rfl
  exact hstop.trans (((u.domainStopped d).outputsHalt_only d).mono fun _ hk => .inl (.inr hk))

end

end Sys2Proof.Machine
end

section
/-! O59: startup. First: what a port's own link may change (R142, R147, R446), RC and the clocks apart. -/

namespace Sys2Proof.Machine

/-- DEVICE_STATUS, and MD0's RUNNING and TICK_COUNT. -/
def ClockKey (k : Nat) : Prop :=
  k = Reg.deviceStatusClockState.key ∨ k = (Reg.tickCount 0).key ∨ k = (Reg.domainRunRunning 0).key

/-- From `s` to `t` neither RC, nor what start-up keeps, nor those entries change. -/
structure ClockQuiet (s t : State) : Prop where
  get : ∀ k, ClockKey k → t.get k = s.get k
  rc : t.rc = s.rc
  boot : t.boot = s.boot

section
variable {s t u : State} {p : Nat}

theorem ClockQuiet.refl (s : State) : ClockQuiet s s := ⟨fun _ _ => rfl, rfl, rfl⟩

theorem ClockQuiet.wr {f : Fld} {n : Nat} (h : ClockQuiet s t) (hf : ¬ClockKey f.key) : ClockQuiet s (t.wr f n) :=
  ⟨fun k hk => (State.get_wr_ne t n (by rintro rfl; exact hf hk)).trans (h.get k hk), h.rc, h.boot⟩

theorem ClockQuiet.bump {f : Fld} {n : Nat} (h : ClockQuiet s t) (hf : ¬ClockKey f.key) : ClockQuiet s (t.bump f n) :=
  ⟨fun k hk => (State.get_bump_ne t n (by rintro rfl; exact hf hk)).trans (h.get k hk), h.rc, h.boot⟩

/-- A change of what is kept beside the entries. -/
theorem ClockQuiet.same (h : ClockQuiet s t) (hget : ∀ k, u.get k = t.get k) (hrc : u.rc = t.rc) (hboot : u.boot = t.boot) :
    ClockQuiet s u :=
  ⟨fun k hk => (hget k).trans (h.get k hk), hrc.trans h.rc, hboot.trans h.boot⟩

theorem ClockQuiet.onlyLb (h : ClockQuiet s t) (hu : OnlyLb t u) : ClockQuiet s u :=
  ⟨fun k hk => (hu.regs k (by rcases hk with rfl | rfl | rfl <;> decide)).trans (h.get k hk), hu.rc.trans h.rc, hu.boot.trans h.boot⟩

theorem ClockQuiet.post {code prio : Nat} {l : List Nat} (h : ClockQuiet s t) : ClockQuiet s (t.post code prio l) :=
  h.onlyLb ((OnlyLb.refl t).post code prio l)

theorem ClockQuiet.ite {c : Prop} [Decidable c] (ht : ClockQuiet s t) (hu : ClockQuiet s u) : ClockQuiet s (if c then t else u) := by
  split
  · exact ht
  · exact hu

theorem ClockQuiet.rd (h : ClockQuiet s t) {f : Fld} (hf : ClockKey f.key) : t.rd f = s.rd f := State.rd_congr (h.get _ hf)

theorem not_clockKey {k : Nat} (hlo : 0x301 < k) (hhi : k < 0x7F000001 ∨ 0x7F000006 < k) : ¬ClockKey k := by
  rintro (rfl | rfl | rfl)
  · exact absurd hlo (by decide)
  · exact absurd hhi (by decide)
  · exact absurd hhi (by decide)

/-! The candidates. -/

theorem ClockQuiet.abandon {failed : Bool} (h : ClockQuiet s t) : ClockQuiet s (t.abandon failed) :=
  .post (.same (h.wr (f := Reg.hearthCtrlManualRef) (not_clockKey (by decide) (by decide))) (fun _ => rfl) rfl rfl)

theorem ClockQuiet.refGo {c new timer : Nat} {cause : Option Nat} (hc : c < 10) (h : ClockQuiet s t) :
    ClockQuiet s (t.refGo c new cause timer) := by
  have hkey : ¬ClockKey (0x11000003 + c * 0x100) := not_clockKey (by omega) (by omega)
  unfold State.refGo
  extract_lets old u w
  have hu : ClockQuiet s u := (h.wr hkey).wr hkey
  have hw : ClockQuiet s w := by
    unfold w
    split
    · exact hu.wr hkey
    · exact hu
  exact .ite hw hw.post

theorem ClockQuiet.refFail {c cause : Nat} (hc : c < 10) (h : ClockQuiet s t) : ClockQuiet s (t.refFail c cause) := by
  unfold State.refFail
  extract_lets st u w
  have hu : ClockQuiet s u := .ite h (h.wr (not_clockKey (by dsimp only; omega) (by dsimp only; omega)))
  exact .ite h (.ite (hu.refGo hc).abandon (hu.refGo hc))

theorem ClockQuiet.signalFail (h : ClockQuiet s t) : ClockQuiet s t.signalFail :=
  State.units_keeps (P := ClockQuiet s) h fun u c hc hu => .ite hu (.refFail hc
    (.wr (.same hu (fun _ => rfl) rfl rfl) (not_clockKey (by dsimp only; omega) (by dsimp only; omega))))

/-! PTP's ports. -/

theorem ClockQuiet.servoGo {new : Nat} (hp : p < 2) (h : ClockQuiet s t) : ClockQuiet s (t.servoGo p new) := by
  unfold State.servoGo
  exact .ite h (.signalFail (.post (h.wr (not_clockKey (by dsimp only; omega) (by dsimp only; omega)))))

theorem ClockQuiet.viewFree (h : ClockQuiet s t) : ClockQuiet s (t.viewFree p) := by
  unfold State.viewFree
  refine .ite (h.wr ?_) h
  rintro (hk | hk | hk) <;> dsimp only at hk <;> omega

theorem ClockQuiet.ptpGo {new : Nat} {keepI : Bool} (hp : p < 2) (h : ClockQuiet s t) : ClockQuiet s (t.ptpGo p new keepI) := by
  unfold State.ptpGo
  extract_lets old was u w
  have hu : ClockQuiet s u := .post (h.wr (not_clockKey (by dsimp only; omega) (by dsimp only; omega)))
  have hw : ClockQuiet s w := .ite hu.viewFree hu
  refine .ite h (.ite (.servoGo hp (.same hw (fun _ => rfl) rfl rfl)) (.ite (hw.servoGo hp) hw))

theorem ClockQuiet.ptpInit (hp : p < 2) (h : ClockQuiet s t) : ClockQuiet s (t.ptpInit p) := by
  unfold State.ptpInit
  extract_lets on u w
  have hw : ClockQuiet s w := .wr (.same ((h.ptpGo hp).servoGo hp) (fun _ => rfl) rfl rfl)
    (not_clockKey (by dsimp only; omega) (by dsimp only; omega))
  exact .ite (hw.ptpGo hp) hw

theorem ClockQuiet.ptpLink {up : Bool} (h : ClockQuiet s t) : ClockQuiet s (t.ptpLink p up) := by
  unfold State.ptpLink
  split
  next hp =>
    have hp : p < 2 := of_decide_eq_true (Bool.and_eq_true_iff.mp hp).1
    exact .ite (h.ptpInit hp) (h.ptpGo hp)
  · exact h

/-! The links. -/

theorem ClockQuiet.setPort {x : Port} (h : ClockQuiet s t) : ClockQuiet s (t.setPort p x) := h.same (fun _ => rfl) rfl rfl

theorem ClockQuiet.dropQueues (hp : p < 3) (h : ClockQuiet s t) : ClockQuiet s (t.dropQueues p) := by
  rw [State.dropQueues_eq]
  exact .setPort (h.bump (not_clockKey (by dsimp only; omega) (by dsimp only; omega)))

theorem ClockQuiet.setLink {up full : Bool} {speed : Nat} (hp : p < 3) (h : ClockQuiet s t) : ClockQuiet s (t.setLink p up speed full) := by
  have hkey : ¬ClockKey (0x30000003 + p * 0x100000) := not_clockKey (by omega) (by omega)
  rw [State.setLink_eq]
  have hshown : ClockQuiet s (t.linkShown p up speed full) := ((h.wr hkey).wr hkey).wr hkey
  refine .ite h (.ite hshown (.post ?_))
  unfold State.linkTurned
  exact .ite (.ite hshown (hshown.wr (not_clockKey (by dsimp only; omega) (by dsimp only; omega))))
    (.dropQueues hp (hshown.bump (not_clockKey (by dsimp only; omega) (by dsimp only; omega))))

theorem ClockQuiet.linkGo {up full : Bool} {speed : Nat} (hp : p < 3) (h : ClockQuiet s t) : ClockQuiet s (t.linkGo p up speed full) := by
  unfold State.linkGo
  exact .ite (h.setLink hp) (h.setLink hp).ptpLink.signalFail

theorem ClockQuiet.linkOwn (hp : p < 3) (h : ClockQuiet s t) : ClockQuiet s (t.linkOwn p) := by
  unfold State.linkOwn State.linkLost
  exact .ite (h.linkGo hp) (.ite (.ite (h.linkGo (by decide)) h) (.ite (h.linkGo hp) h))

end

end Sys2Proof.Machine
end

section
/-! O59: startup, from the supplies to CHIP_READY. -/

namespace Sys2Proof.Machine

section
variable {s t u : State}

/-- A start leaves RC and what start-up keeps as they stand. -/
theorem State.domainStart_quiet (s : State) (d : Nat) : (s.domainStart d).rc = s.rc ∧ (s.domainStart d).boot = s.boot := by
  have hholds : (s.dlRestart d).rc = s.rc ∧ (s.dlRestart d).boot = s.boot :=
    State.units_keeps (P := fun u => u.rc = s.rc ∧ u.boot = s.boot) ⟨rfl, rfl⟩ fun u c _ hu => by
      dsimp only
      split
      · exact hu
      · exact hu
  have hruns : ((s.dlRestart d).overrunsRestart d).rc = s.rc ∧ ((s.dlRestart d).overrunsRestart d).boot = s.boot :=
    State.each_keeps (P := fun u => u.rc = s.rc ∧ u.boot = s.boot) hholds fun u r _ hu => by
      dsimp only
      split
      · exact hu
      · exact hu
  unfold State.domainStart
  refine State.units_keeps (P := fun u => u.rc = s.rc ∧ u.boot = s.boot)
    (State.units_keeps (P := fun u => u.rc = s.rc ∧ u.boot = s.boot) hruns fun u k _ hu => ?_) fun u g _ hu => ?_
  all_goals
    split
    · exact hu
    · exact hu

theorem State.units_succ (s : State) (n : Nat) (f : State → Nat → State) : s.units (n + 1) f = f (s.units n f) n := by
  unfold State.units State.each
  rw [List.range_succ, List.foldl_append]
  rfl

/-! RESET_N rises (R225, R430). -/

/-- The voltage of the first `n` banks is taken. -/
def State.banksSampled (s : State) (volts : List Nat) (n : Nat) : State :=
  s.units n fun s b => s.wr (Reg.bankStatusVolt b) (volts.getD b 0)

theorem State.banksSampled_shows (s : State) (volts : List Nat) (n : Nat) :
    (∀ b < n, (s.banksSampled volts n).rd (Reg.bankStatusVolt b) = volts.getD b 0 % 4)
    ∧ (∀ k, (∀ b < n, k ≠ (Reg.bankStatusVolt b).key) → (s.banksSampled volts n).get k = s.get k)
    ∧ (s.banksSampled volts n).boot = s.boot := by
  induction n with
  | zero => exact ⟨fun b hb => absurd hb (Nat.not_lt_zero b), fun _ _ => rfl, rfl⟩
  | succ n ih =>
    obtain ⟨hvolt, hkeep, hboot⟩ := ih
    have hstep : s.banksSampled volts (n + 1) = (s.banksSampled volts n).wr (Reg.bankStatusVolt n) (volts.getD n 0) := s.units_succ n _
    rw [hstep]
    refine ⟨fun b hb => ?_, fun k hk => ?_, hboot⟩
    · obtain rfl | hne := eq_or_ne b n
      · exact State.rd_wr_same _ _ _
      · rw [State.rd_wr_ne _ _ (by dsimp only; omega)]
        exact hvolt b (by omega)
    · rw [State.get_wr_ne _ _ (hk n (Nat.lt_succ_self n))]
      exact hkeep k fun b hb => hk b (by omega)

theorem resetRelease_shows {straps : Nat} {volts : List Nat} (hlow : s.boot.low = true) :
    Completes (.resetRelease straps volts) s fun t =>
      t.rd Reg.deviceStatusBootMode = straps % 4 ∧ (∀ b < 4, t.rd (Reg.bankStatusVolt b) = volts.getD b 0 % 4)
      ∧ t.boot = { s.boot with low := false, detect := true }
      ∧ ∀ k, k ≠ Reg.deviceStatusBootMode.key → (∀ b < 4, k ≠ (Reg.bankStatusVolt b).key) → t.get k = s.get k := by
  refine ⟨_, congrArg Host.Outcome.next (if_neg (by rw [hlow]; decide)), ?_⟩
  obtain ⟨hvolt, hkeep, hboot⟩ := (s.wr Reg.deviceStatusBootMode (straps % 4)).banksSampled_shows volts 4
  refine ⟨?_, hvolt, congrArg (fun b : Boot => { b with low := false, detect := true }) hboot, fun k hmode hbanks => ?_⟩
  · refine (State.rd_congr (hkeep _ fun b hb => by dsimp only; omega)).trans ?_
    rw [State.rd_wr_same]
    exact Nat.mod_mod _ 4
  · exact (hkeep k hbanks).trans (State.get_wr_ne s _ hmode)

/-! The lock of the PLL (R57, R437). -/

/-- RC and DPLL time start from 0. -/
def State.clocksBegin (s : State) : State :=
  let u : State := { s.wr Reg.deviceStatusClockState 2 with rc := 0 }
  u.setDpll { rate := rateOf (sext 32 (u.rd Reg.dpllFreqFreq)) }

/-- MD0 starts where it is enabled. -/
def State.md0Begins (s : State) : State := if s.on (Reg.mdCtrlEnable 0) then s.domainStart 0 else s

/-- The ports run; the production self-tests are due in test mode. -/
def State.portsBegin (s : State) : State :=
  State.linkOwn (State.linkOwn (State.linkOwn { s with boot := { s.boot with
    testWant := s.rd Reg.deviceStatusBootMode == 3 && !s.boot.tested } } 0) 1) 2

theorem execPllLock_eq (s : State) : exec .pllLock s = .next (s.together fun u =>
    if u.rd Reg.deviceStatusClockState != 1 then u else u.clocksBegin.md0Begins.portsBegin.readyCheck) := rfl

theorem execPllLock_locks (h : s.rd Reg.deviceStatusClockState = 1) :
    exec .pllLock s = .next (s.scatter s.gather.clocksBegin.md0Begins.portsBegin.readyCheck) := by
  have hgo : ¬(s.gather.rd Reg.deviceStatusClockState != 1) = true := by
    rw [State.rd_of_regs (s := s) (t := s.gather) rfl rfl, h]
    decide
  rw [execPllLock_eq]
  exact State.together_of (if_neg hgo)

theorem State.portsBegin_quiet (s : State) : ∃ want, ClockQuiet { s with boot := { s.boot with testWant := want } } s.portsBegin :=
  ⟨_, (((ClockQuiet.refl _).linkOwn (by decide)).linkOwn (by decide)).linkOwn (by decide)⟩

theorem State.readyCheck_eq (s : State) : s.readyCheck = s ∨ s.readyCheck = s.wr Reg.deviceStatusChipReady 1 := by
  unfold State.readyCheck
  dsimp only
  split
  · exact .inr rfl
  · exact .inl rfl

theorem State.readyCheck_rc (s : State) : s.readyCheck.rc = s.rc := by
  obtain h | h := s.readyCheck_eq
  · rw [h]
  · rw [h, State.wr_rc]

theorem State.readyCheck_rd (s : State) {f : Fld} (hf : f.key ≠ Reg.deviceStatusChipReady.key ∨ 1 ≤ f.lo) : s.readyCheck.rd f = s.rd f := by
  obtain h | h := s.readyCheck_eq
  · rw [h]
  · rw [h]
    obtain hf | hf := hf
    · exact State.rd_wr_ne s 1 hf
    · exact State.rd_wr_apart s (f := Reg.deviceStatusChipReady) 1 (.inr hf)

theorem State.readyCheck_get (s : State) {k : Nat} (hk : k ≠ Reg.deviceStatusChipReady.key) : s.readyCheck.get k = s.get k := by
  obtain h | h := s.readyCheck_eq
  · rw [h]
  · rw [h]; exact State.get_wr_ne s 1 hk

theorem State.readyCheck_waits (hmode : s.rd Reg.deviceStatusBootMode = 1) (hload : s.boot.load = true)
    (hvalid : s.on Reg.deviceStatusCfgInvalid = false) : s.readyCheck = s :=
  if_neg (by simp [hmode, hload, hvalid])

/-- What MD0 shows once the clocks have begun, and DEVICE_STATUS beside CLOCK_STATE. -/
theorem State.md0Begins_shows (s : State) : s.md0Begins.rc = s.rc ∧ s.md0Begins.boot = s.boot
    ∧ s.md0Begins.get Reg.deviceStatusClockState.key = s.get Reg.deviceStatusClockState.key
    ∧ (s.on (Reg.mdCtrlEnable 0) = true → s.md0Begins.rd (Reg.domainRunRunning 0) = 1 ∧ s.md0Begins.get (Reg.tickCount 0).key = 0) := by
  unfold State.md0Begins
  obtain ⟨hrc, hboot⟩ := s.domainStart_quiet 0
  obtain ⟨hrun, hcount, -, hkeep⟩ := s.domainStart_result 0
  split
  next hen => exact ⟨hrc, hboot, hkeep _ (by decide) (by decide), fun _ => ⟨hrun, hcount⟩⟩
  next hen => exact ⟨rfl, rfl, rfl, fun h => absurd h hen⟩

theorem pllLock_shows (h : s.rd Reg.deviceStatusClockState = 1) : Completes .pllLock s fun t =>
    t.rc = 0 ∧ t.rd Reg.deviceStatusClockState = 2
    ∧ (s.on (Reg.mdCtrlEnable 0) = true → t.rd (Reg.domainRunRunning 0) = 1 ∧ t.get (Reg.tickCount 0).key = 0)
    ∧ (s.rd Reg.deviceStatusBootMode = 1 → s.boot.load = true → s.on Reg.deviceStatusCfgInvalid = false →
      t.on Reg.deviceStatusChipReady = s.on Reg.deviceStatusChipReady) := by
  refine ⟨_, execPllLock_locks h, ?_⟩
  obtain ⟨hrc, hboot, hstatus, hmd0⟩ := s.gather.clocksBegin.md0Begins_shows
  generalize hu : s.gather.clocksBegin.md0Begins = u at *
  obtain ⟨want, hquiet⟩ := u.portsBegin_quiet
  generalize hv : u.portsBegin = v at *
  have hlb := (OnlyLb.refl v.readyCheck).scatter s
  have hshown : ∀ f : Fld, f.key = Reg.deviceStatusClockState.key → v.rd f = s.gather.clocksBegin.rd f := fun f hf =>
    State.rd_congr (by rw [hf]; exact (hquiet.get _ (.inl rfl)).trans hstatus)
  have hapart : ∀ f : Fld, f.lo + f.w ≤ 3 ∨ 5 ≤ f.lo → s.gather.clocksBegin.rd f = s.rd f := fun f hf =>
    State.rd_wr_apart s (f := Reg.deviceStatusClockState) 2 hf
  have hclock : s.gather.clocksBegin.rd Reg.deviceStatusClockState = 2 := State.rd_wr_same s Reg.deviceStatusClockState 2
  refine ⟨?_, ?_, fun hen => ⟨?_, ?_⟩, fun hmode hload hvalid => ?_⟩
  · rw [hlb.rc, v.readyCheck_rc, hquiet.rc]
    exact hrc
  · rw [hlb.rd (by decide), v.readyCheck_rd (.inr (by decide)), hshown _ rfl, hclock]
  · rw [hlb.rd (by decide), v.readyCheck_rd (.inl (by decide)), hquiet.rd (.inr (.inr rfl))]
    exact (hmd0 ((State.on_wr_ne s 2 (by decide)).trans hen)).1
  · rw [hlb.regs _ (by decide), v.readyCheck_get (by decide), hquiet.get _ (.inr (.inl rfl))]
    exact (hmd0 ((State.on_wr_ne s 2 (by decide)).trans hen)).2
  · have hwaits : v.readyCheck = v := by
      refine State.readyCheck_waits ?_ ?_ ?_
      · exact ((hshown Reg.deviceStatusBootMode rfl).trans (hapart Reg.deviceStatusBootMode (.inl (by decide)))).trans hmode
      · rw [hquiet.boot]
        exact (congrArg Boot.load hboot).trans hload
      · exact (State.on_congr ((hshown Reg.deviceStatusCfgInvalid rfl).trans
          (hapart Reg.deviceStatusCfgInvalid (.inr (by decide))))).trans hvalid
    rw [State.on_congr (hlb.rd (by decide)), hwaits]
    exact State.on_congr ((hshown Reg.deviceStatusChipReady rfl).trans (hapart Reg.deviceStatusChipReady (.inl (by decide))))

/-! The loss of the oscillator (R37, R439). -/

/-- Every domain that runs stops. -/
def State.domainsHalt (s : State) (n : Nat) : State := s.units n fun z d => if z.running d = true then z.domainHalt d else z

theorem State.domainsHalt_succ (s : State) (n : Nat) : s.domainsHalt (n + 1) =
    if (s.domainsHalt n).running n = true then (s.domainsHalt n).domainHalt n else s.domainsHalt n := s.units_succ n _

theorem State.domainsHalt_shows (s : State) {n : Nat} (hn : n ≤ 4) : (s.domainsHalt n).rc = s.rc
    ∧ (∀ d < n, (s.domainsHalt n).running d = false)
    ∧ ∀ d < 4, (s.domainsHalt n).get (Reg.tickCount d).key = s.get (Reg.tickCount d).key := by
  induction n with
  | zero => exact ⟨rfl, fun d hd => absurd hd (Nat.not_lt_zero d), fun _ _ => rfl⟩
  | succ n ih =>
    obtain ⟨hrc, hruns, hcounts⟩ := ih (by omega)
    rw [State.domainsHalt_succ]
    generalize s.domainsHalt n = u at *
    split
    next hrun =>
      obtain ⟨hstopped, -, hcount, -⟩ := u.domainHalt_result (d := n) (by omega)
      have honly := u.domainHalt_only n
      have hapart : ∀ k, 0x7F000000 ≤ k → k < 0x80000000 → k ≠ (Reg.domainRunRunning n).key → ¬(HaltKey n k ∨ WorkKey k) := by
        rintro k hlo hhi hne ((h | rfl | ⟨p, b, hp, hb, rfl⟩) | h)
        · exact hne h
        · exact absurd hlo (by decide)
        · dsimp only at hlo hhi; omega
        · unfold WorkKey at h; omega
      refine ⟨(u.domainHalt_rc n).trans hrc, fun d hd => ?_, fun d hd => ?_⟩
      · obtain rfl | hne := eq_or_ne d n
        · unfold State.running State.on
          rw [hstopped]
          rfl
        · refine (honly.on (hapart _ (by dsimp only; omega) (by dsimp only; omega) (by dsimp only; omega))).trans (hruns d (by omega))
      · exact (honly _ (hapart _ (by dsimp only; omega) (by dsimp only; omega) (by dsimp only; omega))).trans (hcounts d hd)
    next hrun =>
      refine ⟨hrc, fun d hd => ?_, hcounts⟩
      obtain rfl | hne := eq_or_ne d n
      · exact Bool.eq_false_iff.mpr hrun
      · exact hruns d (by omega)

/-- What the loss does at its moment. -/
def State.clocksLost (s : State) : State :=
  State.post (State.wr (State.wr (s.domainsHalt 4) Reg.deviceStatusClockState 3) Reg.deviceStatusLoLost 1) 0x0001 7 []

theorem execLoLost_eq (s : State) : exec .loLost s = .next (s.together fun u =>
    if u.boot.low || u.boot.detect || u.on Reg.deviceStatusLoLost then u else u.clocksLost) := rfl

theorem execLoLost_stops (hlow : s.boot.low = false) (hdetect : s.boot.detect = false) (hlost : s.on Reg.deviceStatusLoLost = false) :
    exec .loLost s = .next (s.scatter s.gather.clocksLost) := by
  have hgo : ¬(s.gather.boot.low || s.gather.boot.detect || s.gather.on Reg.deviceStatusLoLost) = true := by
    rw [State.on_of_regs (s := s) (t := s.gather) rfl rfl, hlost, show s.gather.boot = s.boot from rfl, hlow, hdetect]
    decide
  rw [execLoLost_eq]
  exact State.together_of (if_neg hgo)

theorem State.clocksLost_shows (s : State) : let t := s.scatter s.gather.clocksLost
    t.rc = s.rc ∧ t.locked = false ∧ t.rd Reg.deviceStatusClockState = 3 ∧ t.rd Reg.deviceStatusLoLost = 1
    ∧ ∀ d < 4, t.running d = false ∧ t.get (Reg.tickCount d).key = s.get (Reg.tickCount d).key := by
  intro t
  obtain ⟨hrc, hruns, hcounts⟩ := s.gather.domainsHalt_shows (le_refl 4)
  have hlb : OnlyLb (State.wr (State.wr (s.gather.domainsHalt 4) Reg.deviceStatusClockState 3) Reg.deviceStatusLoLost 1) t :=
    ((OnlyLb.refl _).post 0x0001 7 []).scatter s
  generalize s.gather.domainsHalt 4 = u at *
  have hnot : ∀ k, 0x7F000000 ≤ k → k < 0x80000000 → k ∉ lbKeys := fun k _ hhi hk => by
    have := lbKeys_ge hk
    omega
  have hclock : t.rd Reg.deviceStatusClockState = 3 := by
    rw [hlb.rd (by decide), State.rd_wr_apart (f := Reg.deviceStatusLoLost) _ _ (.inl (by decide)), State.rd_wr_same]
    rfl
  refine ⟨hlb.rc.trans hrc, ?_, hclock, ?_, fun d hd => ⟨?_, ?_⟩⟩
  · unfold State.locked
    rw [hclock]
    rfl
  · rw [hlb.rd (by decide), State.rd_wr_same]
    rfl
  · refine (State.on_congr (hlb.rd (hnot _ (by dsimp only; omega) (by dsimp only; omega)))).trans ?_
    rw [State.on_wr_ne (f := Reg.deviceStatusLoLost) _ _ (by dsimp only; omega),
      State.on_wr_ne (f := Reg.deviceStatusClockState) _ _ (by dsimp only; omega)]
    exact hruns d hd
  · rw [hlb.regs _ (hnot _ (by dsimp only; omega) (by dsimp only; omega)),
      State.get_wr_ne (f := Reg.deviceStatusLoLost) _ _ (by dsimp only; omega),
      State.get_wr_ne (f := Reg.deviceStatusClockState) _ _ (by dsimp only; omega)]
    exact hcounts d hd

/-! The boot record (R433, R434). -/

/-- The boot record has been read: the LO_CFG it gives, or none. -/
def State.recordRead (s : State) (cfg : Option Nat) : State :=
  let u : State := { s with boot := { s.boot with record := false } }
  match cfg with
  | some cfg => State.lockWith { u with boot := { u.boot with load := s.rd Reg.deviceStatusBootMode == 1 } } cfg
  | none => (u.wr Reg.deviceStatusCfgInvalid 1).readyCheck

theorem execBootRecordRead_goes {rec : Option (List Byte)} (h : s.boot.record = true) :
    exec (.bootRecordRead rec) s = .next (s.recordRead (rec.bind fun l => bootRecord l (s.on Reg.deviceStatusLoInput))) :=
  congrArg Host.Outcome.next (if_neg (by rw [h]; decide))

/-! Readiness (R431, R440). -/

/-- Whether the boot mode, the fabric, the clocks and the load let CHIP_READY go to 1 (R431). -/
def State.isReady (s : State) : Bool :=
  let mode := s.rd Reg.deviceStatusBootMode
  let host := mode = 0 || mode = 3 || s.on Reg.deviceStatusCfgInvalid
  s.boot.fabric && (host || (s.locked && !s.boot.load))

theorem State.readyCheck_of_ready (h : s.isReady = true) : s.readyCheck = s.wr Reg.deviceStatusChipReady 1 := if_pos h
theorem State.readyCheck_of_not (h : s.isReady = false) : s.readyCheck = s := by
  have hnot : ¬s.isReady = true := by rw [h]; decide
  exact if_neg hnot

/-- The check of readiness looks at no Letterbox and touches none. -/
theorem State.readyCheck_lb (s : State) (b : Letterbox) : ({ s.readyCheck with lb := b } : State) = State.readyCheck { s with lb := b } := by
  cases hready : s.isReady with
  | false =>
    rw [State.readyCheck_of_not hready]
    exact (State.readyCheck_of_not (s := { s with lb := b }) hready).symm
  | true =>
    rw [State.readyCheck_of_ready hready]
    exact (State.readyCheck_of_ready (s := { s with lb := b }) hready).symm

theorem State.readyCheck_quiet (s : State) : s.readyCheck.lb = s.lb := by
  obtain h | h := s.readyCheck_eq
  · rw [h]
  · rw [h, State.wr_lb]

/-- The fabric is initialised. -/
def State.fabricReady (s : State) : State := State.readyCheck { s with boot := { s.boot with fabric := true } }

theorem execFabricInitDone_eq (s : State) : exec .fabricInitDone s = .next (s.together fun u =>
    if u.boot.low || u.boot.fabric then u else (if u.boot.tested then u.reinit else u).fabricReady) := rfl

/-- The first initialisation posts nothing. -/
theorem State.fabricReady_quiet (s : State) : s.scatter s.gather.fabricReady = s.fabricReady := by
  have hlb : s.gather.fabricReady.lb = s.gather.lb := State.readyCheck_quiet _
  rw [State.scatter_quiet hlb]
  exact State.readyCheck_lb _ s.lb

theorem execFabricInitDone_goes (hlow : s.boot.low = false) (hfabric : s.boot.fabric = false) :
    exec .fabricInitDone s = .next (s.scatter (if s.boot.tested then s.gather.reinit else s.gather).fabricReady) := by
  rw [execFabricInitDone_eq]
  refine State.together_of (if_neg ?_)
  show ¬(s.boot.low || s.boot.fabric) = true
  rw [hlow, hfabric]
  decide

/-- The state once the load of saved state is over. -/
def State.bootLoaded (s : State) : State := State.readyCheck { s with boot := { s.boot with load := false } }

/-- The newest valid image loaded, or none, and told of (R397, R401). -/
def State.imageTold (s : State) (step : Nat) (x : Option (Nat × Image)) : State :=
  match x with
  | some (slot, x) =>
    let w := (((s.loadImage x step).wr Reg.saveStatusLoaded 1).wr Reg.saveStatusSlot slot).wr Reg.saveStatusGeneration x.gen
    w.post 0xD004 5 [pack [(0, 1), (1, slot)], w.rd Reg.kdpLoadSkipped]
  | none => s.post 0xD004 5 [0, s.rd Reg.kdpLoadSkipped]

theorem execBootLoad_eq (s : State) (step : Nat) : exec (.bootLoad step) s = .next (s.together fun u =>
    if u.boot.load && u.boot.fabric && u.locked then (u.imageTold step u.flash.newest).bootLoaded else u) := rfl

theorem execBootLoad_goes {step : Nat} (hload : s.boot.load = true) (hfabric : s.boot.fabric = true) (hlocked : s.locked = true) :
    exec (.bootLoad step) s = .next (s.scatter (s.gather.imageTold step s.flash.newest).bootLoaded) := by
  rw [execBootLoad_eq]
  refine State.together_of (if_pos ?_)
  show (s.boot.load && s.boot.fabric && s.locked) = true
  rw [hload, hfabric, hlocked]
  rfl

end

/-- Settles O59. -/
theorem startup : Obligations.Startup := by
  unfold Obligations.Startup
  intro s straps edges step n volts who v rec
  refine ⟨rfl, fun hlow => congrArg Host.Outcome.next (if_pos (by rw [hlow]; rfl)), resetRelease_shows,
    fun hdetect => congrArg Host.Outcome.next (if_neg (by rw [hdetect]; decide)),
    fun hdetect => congrArg Host.Outcome.next (if_pos (by rw [hdetect]; rfl)),
    fun hrecord u hu => ⟨fun cfg hcfg => ?_, fun hbad => ?_⟩,
    fun hrecord => congrArg Host.Outcome.next (if_pos (by rw [hrecord]; rfl)),
    fun h u hu => hu ▸ congrArg Host.Outcome.next (h.setAs_stored (mine := fun _ => true) rfl rfl rfl),
    pllLock_shows, fun hclock => ?_, fun hclock => congrArg Host.Outcome.next (if_pos hclock),
    fun hclock => congrArg Host.Outcome.next (if_neg hclock), fun hnot => ?_,
    fun hlow hdetect hlost => ⟨execLoLost_stops hlow hdetect hlost, _, execLoLost_stops hlow hdetect hlost, s.clocksLost_shows⟩,
    fun u z d hz => ⟨u.domainHalt_tick d, u.domainHalt_work d hz⟩, fun hlow hfabric htested => ?_,
    fun hlow hfabric htested => ?_, fun hnot => ?_,
    fun hload hfabric hlocked => ⟨fun hnone u hu => ?_, fun slot x u w hsome hu hw => ?_⟩, fun hnot => ?_,
    fun hfabric hmode => if_pos (by simp [hfabric, hmode]), fun hfabric => if_neg (by simp [hfabric])⟩
  · subst hu
    rw [execBootRecordRead_goes hrecord, hcfg]
    rfl
  · subst hu
    rw [execBootRecordRead_goes hrecord, hbad]
    rfl
  · rw [execPllLock_eq]
    exact State.together_stays_of (if_pos (bne_iff_ne.mpr hclock))
  · rw [execLoLost_eq]
    refine State.together_stays_of (if_pos ?_)
    show (s.boot.low || s.boot.detect || s.on Reg.deviceStatusLoLost) = true
    rcases hnot with h | h | h <;> simp [h]
  · rw [execFabricInitDone_goes hlow hfabric, htested, if_neg (by decide), State.fabricReady_quiet]
    rfl
  · rw [execFabricInitDone_goes hlow hfabric, htested, if_pos rfl]
    rfl
  · rw [execFabricInitDone_eq]
    refine State.together_stays_of (if_pos ?_)
    show (s.boot.low || s.boot.fabric) = true
    rcases hnot with h | h <;> simp [h]
  · rw [execBootLoad_goes hload hfabric hlocked, hnone, hu]
    rfl
  · rw [execBootLoad_goes hload hfabric hlocked, hsome, hw, hu]
    rfl
  · rw [execBootLoad_eq]
    refine State.together_stays_of (if_neg ?_)
    show ¬(s.boot.load && s.boot.fabric && s.locked) = true
    rcases hnot with h | h | h <;> simp [h]

end Sys2Proof.Machine
end

section
/-! O60: the self-tests of the service area. -/

namespace Sys2Proof.Machine

section
variable {s t u : State}

/-! The dumbwaiter's self-compare (R449, R453). -/

/-- The guest slot a self-compare takes: the first that is free. -/
theorem State.dwSlot_first {j : Nat} (h : u.dwSlot = some j) :
    (u.slotFree 0 = true → j = 0) ∧ (u.slotFree 0 = false → u.slotFree 1 = true → j = 1) := by
  unfold State.dwSlot at h
  refine ⟨fun h0 => ?_, fun h0 h1 => ?_⟩
  · rw [List.find?_cons_of_pos h0] at h
    exact (Option.some.inj h).symm
  · rw [List.find?_cons_of_neg (by rw [h0]; decide), List.find?_cons_of_pos h1] at h
    exact (Option.some.inj h).symm

/-- A block that takes too long is the first that failed. -/
def State.dwJudged (s : State) (late : Bool) : State :=
  if late then (s.wr Reg.dwTestStatusTimeout 1).wr Reg.dwTestStatusFirstFail (s.rd Reg.dwTestStatusBlocksDone + 1) else s

/-- The room's block is over, and the guest core keeps what it holds. -/
def State.dwStopped (s : State) (t : DwTest) : State :=
  let u := s.setRoom t.room { s.room t.room with
    block := false, blocks := [], core := { (s.room t.room).core.flush with slots := 0, target := none, rep := none } }
  u.setSlot t.slot { u.slot t.slot with own := (u.room t.room).core }

/-- The self-compare is over, and its guest core self-tests. -/
def State.dwClosed (s : State) (t : DwTest) (fail : Bool) : State :=
  let u : State := { (s.dwStopped t).wr Reg.dwTestStatusState (if fail then 3 else 2) with dw := none }
  match (u.slot t.slot).core with
  | some c => u.selftest c
  | none => u

theorem execDwTestDone_eq (s : State) (b : Bool) : exec (.dwTestDone b) s = .next (s.together fun u =>
    match u.dw with
    | none => u
    | some t =>
      if !t.ended && !b then u
      else
        let v := u.dwJudged (b && !t.ended)
        let w := v.dwClosed t (v.on Reg.dwTestStatusFirstFail)
        w.testPost 1 (b2n (v.on Reg.dwTestStatusFirstFail)) (w.rd Reg.dwTestStatusFirstFail)) := rfl

/-- What the first block that failed reads, and TIMEOUT. -/
theorem State.dwJudged_shows {b : Bool} {d : DwTest} {first : Nat} (hgo : d.ended = true ∨ b = true)
    (hfirst : first = if d.ended then s.rd Reg.dwTestStatusFirstFail else s.rd Reg.dwTestStatusBlocksDone + 1)
    (hlt : first < 2 ^ Reg.dwTestStatusFirstFail.w) :
    (s.dwJudged (b && !d.ended)).rd Reg.dwTestStatusFirstFail = first
    ∧ (s.dwJudged (b && !d.ended)).rd Reg.dwTestStatusTimeout = (if d.ended then s.rd Reg.dwTestStatusTimeout else 1)
    ∧ (∀ r, (s.dwJudged (b && !d.ended)).room r = s.room r) ∧ ∀ k, (s.dwJudged (b && !d.ended)).slot k = s.slot k := by
  cases hended : d.ended with
  | true =>
    rw [hended, if_pos rfl] at hfirst
    rw [Bool.not_true, Bool.and_false]
    exact ⟨hfirst.symm, rfl, fun _ => rfl, fun _ => rfl⟩
  | false =>
    rw [hended, if_neg (by decide)] at hfirst
    obtain rfl : b = true := hgo.resolve_left (by rw [hended]; decide)
    refine ⟨?_, ?_, fun _ => rfl, fun _ => rfl⟩
    · exact (State.rd_wr_same _ _ _).trans ((Nat.mod_eq_of_lt (hfirst ▸ hlt)).trans hfirst.symm)
    · exact (State.rd_wr_apart _ (f := Reg.dwTestStatusFirstFail) _ (.inl (by decide))).trans (State.rd_wr_same _ _ _)

theorem State.dwClosed_shows (s : State) (d : DwTest) (fail : Bool) :
    (s.dwClosed d fail).dw = none ∧ (s.dwClosed d fail).rd Reg.dwTestStatusState = (if fail then 3 else 2)
    ∧ (∀ f : Fld, f.key = Reg.dwTestStatusState.key → 2 ≤ f.lo → (s.dwClosed d fail).rd f = s.rd f)
    ∧ ((s.dwClosed d fail).room d.room).block = false ∧ ((s.dwClosed d fail).room d.room).blocks = []
    ∧ (∀ r ≠ d.room, (s.dwClosed d fail).room r = s.room r)
    ∧ ∀ c, (s.slot d.slot).core = some c → ((s.dwClosed d fail).core c).service = 2 := by
  have hcore : ((s.dwStopped d).slot d.slot).core = (s.slot d.slot).core := by
    unfold State.dwStopped
    rw [State.slot_setSlot]
    rfl
  have hstate : ((s.dwStopped d).wr Reg.dwTestStatusState (if fail then 3 else 2)).rd Reg.dwTestStatusState = if fail then 3 else 2 := by
    rw [State.rd_wr_same]
    cases fail <;> rfl
  have hfield : ∀ f : Fld, f.key = Reg.dwTestStatusState.key → 2 ≤ f.lo →
      ((s.dwStopped d).wr Reg.dwTestStatusState (if fail then 3 else 2)).rd f = s.rd f := fun f _ hlo =>
    State.rd_wr_apart _ (f := Reg.dwTestStatusState) _ (.inr hlo)
  have hroom : (s.dwStopped d).room d.room = _ := State.room_setRoom _ _ _
  have hother : ∀ r ≠ d.room, (s.dwStopped d).room r = s.room r := fun r hr => State.room_setRoom_ne _ _ hr
  unfold State.dwClosed
  dsimp only
  split
  next c hc =>
    refine ⟨rfl, hstate, hfield, ?_, ?_, hother, fun c' hc' => ?_⟩
    · exact congrArg Room.block hroom
    · exact congrArg Room.blocks hroom
    · have hsame : c = c' := Option.some.inj (hc.symm.trans (hcore.trans hc'))
      subst hsame
      exact congrArg CoreHealth.service (State.core_setCore _ _ _)
  next hc =>
    refine ⟨rfl, hstate, hfield, ?_, ?_, hother, fun c' hc' => ?_⟩
    · exact congrArg Room.block hroom
    · exact congrArg Room.blocks hroom
    · exact absurd (hc.symm.trans (hcore.trans hc')) (by simp)

/-- A self-compare that ends is reported by the first block that failed, or none. -/
theorem dwTestDone_reports {b : Bool} {d : DwTest} {first : Nat} (hd : s.dw = some d) (hgo : d.ended = true ∨ b = true)
    (hfirst : first = if d.ended then s.rd Reg.dwTestStatusFirstFail else s.rd Reg.dwTestStatusBlocksDone + 1)
    (hlt : first < 2 ^ Reg.dwTestStatusFirstFail.w) : ∃ w : State,
    exec (.dwTestDone b) s = .next (s.scatter (w.post 0xE001 4 [pack [(0, 1), (4, if first = 0 then 0 else 1)], first]))
    ∧ w.dw = none ∧ w.rd Reg.dwTestStatusState = (if first = 0 then 2 else 3) ∧ w.rd Reg.dwTestStatusFirstFail = first
    ∧ w.rd Reg.dwTestStatusTimeout = (if d.ended then s.rd Reg.dwTestStatusTimeout else 1)
    ∧ (w.room d.room).block = false ∧ (w.room d.room).blocks = [] ∧ (∀ r ≠ d.room, w.room r = s.room r)
    ∧ ∀ c, (s.slot d.slot).core = some c → (w.core c).service = 2 := by
  obtain ⟨hfail, htimeout, hrooms, hslots⟩ := State.dwJudged_shows (s := s.gather) hgo hfirst hlt
  have hon : (s.gather.dwJudged (b && !d.ended)).on Reg.dwTestStatusFirstFail = decide (first ≠ 0) := by
    unfold State.on
    rw [hfail]
    exact (decide_not ..).symm
  obtain ⟨hdw, hstate, hfield, hblock, hblocks, hother, hservice⟩ :=
    (s.gather.dwJudged (b && !d.ended)).dwClosed_shows d (decide (first ≠ 0))
  refine ⟨(s.gather.dwJudged (b && !d.ended)).dwClosed d (decide (first ≠ 0)), ?_, hdw, ?_, (hfield Reg.dwTestStatusFirstFail rfl (by decide)).trans hfail,
    (hfield Reg.dwTestStatusTimeout rfl (by decide)).trans htimeout, hblock, hblocks, fun r hr => ?_, fun c hc => ?_⟩
  · have hword : (if first = 0 then 0 else 1) = b2n (decide (first ≠ 0)) := by by_cases h : first = 0 <;> simp [h, b2n]
    have hreport := (hfield Reg.dwTestStatusFirstFail rfl (by decide)).trans hfail
    rw [execDwTestDone_eq, hword]
    refine State.together_of ?_
    have hgather : s.gather.dw = some d := hd
    have hend : (!d.ended && !b) = false := by rcases hgo with h | h <;> simp [h]
    simp only [hgather, hend, hon, hreport]
    rfl
  · rw [hstate]
    by_cases h : first = 0 <;> simp [h]
  · exact (hother r hr).trans (hrooms r)
  · exact hservice c ((congrArg Guest.core (hslots d.slot)).trans hc)

end

end Sys2Proof.Machine
end

section
/-! O60: a core that leaves its place (R322), and the tests' own commands. -/

namespace Sys2Proof.Machine

/-- From `s` to `t` the cores' health and what start-up keeps stand as they were. -/
def CoresKept (s t : State) : Prop := t.guard.cores = s.guard.cores ∧ t.boot = s.boot

section
variable {s t u : State}

theorem CoresKept.refl (s : State) : CoresKept s s := ⟨rfl, rfl⟩

/-- A change that leaves both. -/
theorem CoresKept.same (h : CoresKept s t) (hcores : u.guard.cores = t.guard.cores) (hboot : u.boot = t.boot) : CoresKept s u :=
  ⟨hcores.trans h.1, hboot.trans h.2⟩

theorem CoresKept.ite {c : Prop} [Decidable c] (ht : CoresKept s t) (hu : CoresKept s u) : CoresKept s (if c then t else u) := by
  split
  · exact ht
  · exact hu

theorem CoresKept.post {code prio : Nat} {l : List Nat} (h : CoresKept s t) : CoresKept s (t.post code prio l) :=
  h.same (by rw [State.post_guard]) (State.post_boot _ _ _ _)

theorem CoresKept.core (h : CoresKept s t) (c : Nat) : t.core c = s.core c := congrArg (Sparse.get _ · c) h.1

theorem CoresKept.setSlot {k : Nat} {g : Guest} (h : CoresKept s t) : CoresKept s (t.setSlot k g) := h.same rfl rfl
theorem CoresKept.setGuarded {r : Nat} {g : Guarded} (h : CoresKept s t) : CoresKept s (t.setGuarded r g) := h.same rfl rfl

theorem CoresKept.guardNote {r : Nat} {parity soft : Bool} (h : CoresKept s t) : CoresKept s (t.guardNote r parity soft) := by
  unfold State.guardNote
  extract_lets g recent
  exact .ite h h.setGuarded.post

theorem CoresKept.shadowEnd {k : Nat} (h : CoresKept s t) : CoresKept s (t.shadowEnd k) := by
  unfold State.shadowEnd
  dsimp only
  split
  · exact h
  · exact .ite (.guardNote (.same h rfl rfl)) (.same h rfl rfl)

theorem CoresKept.seek {k : Nat} (h : CoresKept s t) : CoresKept s (t.seek k) := by
  unfold State.seek
  dsimp only
  split
  · refine .ite ?_ h
    split
    · exact h.setSlot
    · exact h
  · exact h

theorem CoresKept.seekBoth (h : CoresKept s t) : CoresKept s t.seekBoth := h.seek.seek

theorem CoresKept.rewarm {k : Nat} (h : CoresKept s t) : CoresKept s (t.rewarm k) := by
  unfold State.rewarm
  dsimp only
  split
  · exact h.seek
  · exact .ite (.ite (.guardNote h.setSlot) h.setSlot) h.shadowEnd.seek

theorem CoresKept.guestLeave {k : Nat} (h : CoresKept s t) : CoresKept s (t.guestLeave k) := by
  unfold State.guestLeave State.bumpIf
  exact .rewarm (.ite (.same h rfl rfl) h)

theorem CoresKept.vacate {k : Nat} (h : CoresKept s t) : CoresKept s (t.vacate k) := h.shadowEnd.setSlot

theorem CoresKept.rebindNext {r : Nat} (h : CoresKept s t) : CoresKept s (t.rebindNext r) := by
  unfold State.rebindNext
  split
  · exact h
  · dsimp only
    refine .seekBoth (.setGuarded (.setGuarded ?_))
    split
    · exact h.vacate
    · exact h

theorem CoresKept.roomGo {r new : Nat} (h : CoresKept s t) : CoresKept s (t.roomGo r new) := by
  unfold State.roomGo
  extract_lets old u v w
  have hu : CoresKept s u := .post (.same h rfl rfl)
  have hv : CoresKept s v := by
    unfold v
    split
    · exact .ite hu hu.guestLeave
    · exact hu
  have hw : CoresKept s w := .ite hv hv.rebindNext
  exact .ite h (.seekBoth (.same hw rfl rfl))

theorem CoresKept.roomFault {r : Nat} (h : CoresKept s t) : CoresKept s (t.roomFault r) := by
  unfold State.roomFault
  extract_lets rm c flushed u g v w
  have hv : CoresKept s v := .setGuarded (.same h rfl rfl)
  exact .ite hv.rebindNext (.post (.roomGo (.same hv rfl rfl)))

theorem CoresKept.refit (h : CoresKept s t) : CoresKept s t.refit :=
  State.each_keeps (P := CoresKept s) h fun u r _ hu => by
    split
    · split
      · exact hu.vacate.setGuarded
      · exact hu
    · exact hu

theorem CoresKept.displace {c : Nat} (h : CoresKept s t) : CoresKept s (t.displace c) := by
  unfold State.displace
  split
  · exact h.vacate
  next r _ _ =>
    dsimp only
    have hfault : CoresKept s (if (t.guarded r).restore = some c then t.roomFault r else t) := .ite h.roomFault h
    exact .ite (.roomFault (.refit (.setGuarded hfault))) (.refit (.setGuarded hfault))
  · exact h

/-! The production self-tests (R440). -/

/-- The results of the production self-tests, before the cores that failed leave their places. -/
def State.selftestResult (s : State) (cellar hallSram hallEngines asrc rooms : Bool) : State :=
  s.put Reg.selftestResultDone.key
    (pack [(0, 1), (1, b2n cellar), (2, b2n hallSram), (3, b2n hallEngines), (4, b2n rooms), (5, b2n asrc)])

/-- The cores named are out of service. -/
def State.outOfService (s : State) (l : List Nat) : State :=
  s.each l fun s c => (s.setCore c { s.core c with service := 3 }).displace c

/-- The results stand, and fabric initialisation is to run again. -/
def State.selftestsOver (s : State) (pass : Bool) : State :=
  { s.testPost 0 (b2n !pass) 0 with boot := { (s.testPost 0 (b2n !pass) 0).boot with testing := false, tested := true, fabric := false } }

theorem execProductionSelftestDone_eq (s : State) (a b c d : Bool) (l : List Nat) :
    exec (.productionSelftestDone a b c d l) s = .next (s.together fun u => if !u.boot.testing then u
      else ((u.selftestResult a b c d (l.filter u.fuse.hasRoom).isEmpty).outOfService (l.filter u.fuse.hasRoom)).selftestsOver
        (a && b && c && d && (l.filter u.fuse.hasRoom).isEmpty)) := rfl

theorem execProductionSelftestDone_goes (a b c d : Bool) {l bad : List Nat} {rooms : Bool} (h : s.boot.testing = true)
    (hbad : l.filter s.fuse.hasRoom = bad) (hrooms : bad.isEmpty = rooms) : exec (.productionSelftestDone a b c d l) s =
      .next (s.scatter (((s.gather.selftestResult a b c d rooms).outOfService bad).selftestsOver (a && b && c && d && rooms))) := by
  subst hbad hrooms
  rw [execProductionSelftestDone_eq]
  refine State.together_of (if_neg ?_)
  show ¬(!s.boot.testing) = true
  rw [h]
  decide

/-- What the end leaves beside the event. -/
theorem State.selftestsOver_shows (s t : State) (pass : Bool) : let w := s.scatter (t.selftestsOver pass)
    (∀ k, k ∉ lbKeys → w.get k = t.get k) ∧ w.boot = { t.boot with testing := false, tested := true, fabric := false }
    ∧ ∀ c, w.core c = t.core c := by
  intro w
  have hpost : OnlyLb t (t.testPost 0 (b2n !pass) 0) := (OnlyLb.refl t).post _ _ _
  have hover : OnlyLb (t.selftestsOver pass) w := (OnlyLb.refl _).scatter s
  refine ⟨fun k hk => (hover.regs k hk).trans (hpost.regs k hk), hover.boot.trans ?_, fun c => ?_⟩
  · show ({ (t.testPost 0 (b2n !pass) 0).boot with testing := false, tested := true, fabric := false } : Boot) = _
    rw [hpost.boot]
  · unfold State.core
    rw [hover.guard]
    show Sparse.get _ (t.testPost 0 (b2n !pass) 0).guard.cores c = _
    rw [hpost.guard]

end

theorem execHallTestDone_eq (s : State) : exec .hallTestDone s = .next (match s.hallTest with
    | some w =>
      if w.count ≤ w.turn && w.cur.isNone then
        State.testPost { s.wr Reg.hallTestStatusState (if s.rd Reg.hallTestStatusFailed = 0 then 2 else 3) with hallTest := none } 3
          (if s.rd Reg.hallTestStatusFailed = 0 then 0 else 1) (s.rd Reg.hallTestStatusFailed)
      else s
    | none => s) := rfl

/-- What the LPDDR4X test found, as it is reported (R451). -/
theorem State.ddrReport_shows (s : State) (errors addr dq : Nat) :
    (s.ddrReport (errors, addr, dq)).rd Reg.ddrTestStatusErrors = min errors 0xFFFFFF
    ∧ (errors ≠ 0 → (s.ddrReport (errors, addr, dq)).rd Reg.ddrTestStatusFirstAddr = addr % 2 ^ Reg.ddrTestStatusFirstAddr.w
      ∧ (s.ddrReport (errors, addr, dq)).rd Reg.ddrTestDqDq = dq % 2 ^ Reg.ddrTestDqDq.w) := by
  have herrors : (s.wr Reg.ddrTestStatusErrors (min errors 0xFFFFFF)).rd Reg.ddrTestStatusErrors = min errors 0xFFFFFF := by
    rw [State.rd_wr_same]
    exact Nat.mod_eq_of_lt (by dsimp only; omega)
  unfold State.ddrReport
  dsimp only
  by_cases h0 : errors = 0
  · rw [if_pos (by omega)]
    exact ⟨herrors, fun h => absurd h0 h⟩
  · rw [if_neg (by omega)]
    refine ⟨?_, fun _ => ⟨?_, State.rd_wr_same _ _ _⟩⟩
    · rw [State.rd_wr_ne (f := Reg.ddrTestDqDq) _ _ (by decide), State.rd_wr_apart (f := Reg.ddrTestStatusFirstAddr) _ _ (.inl (by decide))]
      exact herrors
    · rw [State.rd_wr_ne (f := Reg.ddrTestDqDq) _ _ (by decide), State.rd_wr_same]

theorem ddrTestDone_reports {errors addr dq : Nat} (hrun : s.ddrTest = true) : Completes (.ddrTestDone errors addr dq) s fun t =>
    (∃ w : State, t = w.post 0xE001 4 [pack [(0, 2), (4, if errors = 0 then 0 else 1)], min errors 0xFFFFFF])
    ∧ t.ddrTest = false ∧ t.rd Reg.ddrTestStatusErrors = min errors 0xFFFFFF
    ∧ t.rd Reg.ddrTestStatusState = (if errors = 0 then 2 else 3)
    ∧ (errors ≠ 0 → t.rd Reg.ddrTestStatusFirstAddr = addr % 2 ^ Reg.ddrTestStatusFirstAddr.w
      ∧ t.rd Reg.ddrTestDqDq = dq % 2 ^ Reg.ddrTestDqDq.w) := by
  obtain ⟨herrors, hfound⟩ := s.ddrReport_shows errors addr dq
  refine ⟨_, congrArg Host.Outcome.next (if_neg (by rw [hrun]; decide)), ?_⟩
  unfold State.ddrEnd State.testPost
  rw [herrors]
  generalize s.ddrReport (errors, addr, dq) = u at *
  generalize hst : (if errors = 0 then 2 else 3) = st
  have hpost := (OnlyLb.refl ({ u.wr Reg.ddrTestStatusState st with ddrTest := false } : State)).post 0xE001 4
    [pack [(0, 2), (4, if errors = 0 then 0 else 1)], min errors 0xFFFFFF]
  have hfield : ∀ f : Fld, f.key ∉ lbKeys → f.key ≠ Reg.ddrTestStatusState.key ∨ 3 ≤ f.lo →
      ((({ u.wr Reg.ddrTestStatusState st with ddrTest := false } : State)).post 0xE001 4
        [pack [(0, 2), (4, if errors = 0 then 0 else 1)], min errors 0xFFFFFF]).rd f = u.rd f := fun f hf hapart =>
    (hpost.rd hf).trans (hapart.elim (fun h => State.rd_wr_ne u st h) fun h => State.rd_wr_apart u (f := Reg.ddrTestStatusState) st (.inr h))
  refine ⟨⟨_, rfl⟩, hpost.ddrTest, (hfield _ (by decide) (.inr (by decide))).trans herrors, ?_, fun h0 => ?_⟩
  · rw [hpost.rd (by decide)]
    refine (State.rd_wr_same u Reg.ddrTestStatusState st).trans ?_
    rw [← hst]
    split <;> rfl
  · obtain ⟨haddr, hdq⟩ := hfound h0
    exact ⟨(hfield Reg.ddrTestStatusFirstAddr (by decide) (.inr (by decide))).trans haddr,
      (hfield Reg.ddrTestDqDq (by decide) (.inl (by decide))).trans hdq⟩

/-- Settles O60. -/
theorem selfTests : Obligations.SelfTests := by
  unfold Obligations.SelfTests
  intro s who v n errors addr dq k u hu
  refine ⟨fun hk h j w hj hw => ?_, fun hdw b => ?_, fun t hdw hrun => ?_, fun t b first hd hgo hfirst hlt => dwTestDone_reports hd hgo hfirst hlt,
    fun hk h => ⟨fun hn => ?_, fun hn hrun => ?_, fun hn hrun => ?_⟩, fun hrun => congrArg Host.Outcome.next (if_pos (by rw [hrun]; rfl)),
    fun hrun => ?_, fun hk h w hw => ⟨fun hruns => ?_, fun hruns => ?_⟩, fun w b hw hruns => ?_, fun b hnot => ?_, fun w hw hturns hcur => ?_,
    fun w hw hmore => ?_, fun hw => ?_, fun hwant hlocked => congrArg Host.Outcome.next (if_pos (by rw [hwant, hlocked]; rfl)),
    fun hnot => congrArg Host.Outcome.next (if_neg (by rcases hnot with h | h <;> simp [h])), fun a b c d l htest => ?_,
    fun a b c d htest => ?_, fun a b c d r htest hroom => ?_⟩
  · obtain ⟨hfirst, hsecond⟩ := State.dwSlot_first hj
    have happly : applyDwTest u n = w.dwBlock { room := field n 0 5, slot := j, blocks := field n 8 24, lfsr := field n 32 32 } := by
      unfold applyDwTest
      rw [hj, hw]
      rfl
    subst hk hu
    exact ⟨hfirst, hsecond, congrArg Host.Outcome.next ((h.setAs_stored (mine := fun _ => true) rfl rfl rfl).trans
      (congrArg (fun t => State.say t .ok) happly))⟩
  · rw [execDwTestDone_eq]
    refine State.together_stays_of ?_
    have hgather : s.gather.dw = none := hdw
    simp only [hgather]
  · rw [execDwTestDone_eq]
    refine State.together_stays_of ?_
    have hgather : s.gather.dw = some t := hdw
    simp only [hgather, hrun]
    rfl
  · subst hk hu
    exact congrArg Host.Outcome.next ((h.setAs_stored (mine := fun n => n == 1) (beq_iff_eq.mpr hn) rfl rfl).trans
      (congrArg (fun t => State.say t .ok) (if_pos hn)))
  · subst hk hu
    refine ⟨Config.ddrFound s.rc, fun z hz => congrArg Host.Outcome.next ((h.setAs_stored (mine := fun n => n == 2)
      (beq_iff_eq.mpr hn) rfl rfl).trans (congrArg (fun t => State.say t .ok) ((if_neg (by omega)).trans ((if_pos hrun).trans ?_))))⟩
    have hfound : State.ddrSoFar (s.takes Reg.ddrTestCmd.key n) = z := (if_pos hrun).trans hz.symm
    rw [hfound]
    rfl
  · subst hk hu
    exact congrArg Host.Outcome.next ((h.setAs_stored (mine := fun n => n == 2) (beq_iff_eq.mpr hn) rfl rfl).trans
      (congrArg (fun t => State.say t .ok) ((if_neg (by omega)).trans (if_neg (by
        show ¬s.ddrTest = true
        rw [hrun]
        decide)))))
  · exact ddrTestDone_reports hrun
  · subst hk hu hw
    exact congrArg Host.Outcome.next ((h.setAs_stored (mine := fun _ => true) rfl rfl rfl).trans
      (congrArg (fun t => State.say t .ok) (if_pos hruns)))
  · subst hk hu hw
    exact congrArg Host.Outcome.next ((h.setAs_stored (mine := fun _ => true) rfl rfl rfl).trans
      (congrArg (fun t => State.say t .ok) (if_neg (by rw [hruns]; decide))))
  · refine State.together_of ?_
    have hgather : s.gather.hallTest = some w := hw
    have hstopped : s.gather.hallRuns = false := hruns
    simp only [hgather, hstopped]
    rfl
  · refine State.together_stays_of ?_
    rcases hnot with h | h
    · have hgather : s.gather.hallTest = none := h
      simp only [hgather]
    · have hgather : s.gather.hallRuns = true := h
      simp only [hgather]
      split <;> rfl
  · rw [execHallTestDone_eq, hw]
    exact congrArg Host.Outcome.next (if_pos (by simp [hturns, hcur]))
  · rw [execHallTestDone_eq, hw]
    refine congrArg Host.Outcome.next (if_neg ?_)
    rcases hmore with h | h <;> simp [h]
  · rw [execHallTestDone_eq, hw]
  · rw [execProductionSelftestDone_eq]
    refine State.together_stays_of (if_pos ?_)
    show (!s.boot.testing) = true
    rw [htest]
    rfl
  · obtain ⟨hget, hboot, -⟩ := s.selftestsOver_shows ((s.gather.selftestResult a b c d true).outOfService []) (a && b && c && d && true)
    refine ⟨_, execProductionSelftestDone_goes a b c d htest List.filter_nil List.isEmpty_nil, ?_, ?_, hboot⟩
    · have hpack : (s.gather.selftestResult a b c d true).get Reg.selftestResultDone.key = _ := State.get_put_same _ _ _
      unfold State.rd field
      rw [hget Reg.selftestResultDone.key (by decide)]
      unfold State.outOfService State.each
      rw [List.foldl_nil, hpack]
      simp only [pack, List.map_cons, List.map_nil, List.sum_cons, List.sum_nil]
      omega
    · exact (hget _ (by decide)).trans (State.get_put_same _ _ _)
  · have hbad : [r].filter s.fuse.hasRoom = [r] := by rw [List.filter_cons_of_pos hroom]; rfl
    obtain ⟨-, hboot, hcore⟩ := s.selftestsOver_shows ((s.gather.selftestResult a b c d false).outOfService [r]) (a && b && c && d && false)
    have hkept : CoresKept ((s.gather.selftestResult a b c d false).setCore r
        { (s.gather.selftestResult a b c d false).core r with service := 3 }) ((s.gather.selftestResult a b c d false).outOfService [r]) :=
      (CoresKept.refl _).displace
    refine ⟨_, execProductionSelftestDone_goes a b c d htest hbad List.isEmpty_cons, ?_, fun q hq => ?_, hboot.trans ?_⟩
    · refine (congrArg CoreHealth.service (hcore r)).trans ?_
      rw [hkept.core, State.core_setCore]
    · rw [hcore, hkept.core, State.core_setCore_ne _ _ hq]
      rfl
    · rw [hkept.2]
      rfl

end Sys2Proof.Machine
end

section
/-! O47: an illegal instruction's count against the event filters of R422. -/

namespace Sys2Proof.Machine

/-- The room number whose illegal count (R299) has the key of the event filter 3: no part has that room, but the row takes any
number. -/
def roomAtFilter : Nat := 13360

/-- Filter 3 holds back 0xA001, the code before 0xA002, and a self-compare runs the room, at whose pc an illegal word stands. -/
def filterBefore : State :=
  { ((((State.reset.wr (Reg.lbCodeFilterValid 3) 1).wr (Reg.lbCodeFilterCode 3) 0xA001).wr (Reg.lbCodeFilterMinPrio 3) 7).setRoom
      roomAtFilter { block := true, core := { p := [(0, 0xFFFFFFFF)] } }) with
    dw := some { room := roomAtFilter, slot := 0, blocks := 1, lfsr := 1 } }

/-- An outcome that completes with the room's last post of 0xA002 as given. -/
def IllAtIs (t : Option Nat) : Done → Bool
  | .next w => (w.room roomAtFilter).illAt == t
  | _ => false

/-- The count makes filter 3 hold back 0xA002 itself: nothing is posted, and the 100 ms of R300 do not begin. -/
theorem illegal_not_posted : IllAtIs none (exec (.illegalInstruction roomAtFilter) filterBefore) = true := by decide +kernel

/-- By the threshold before the count they would. -/
theorem illegal_posted_before :
    IllAtIs none (.next ((((filterBefore.wr (Reg.roomStatusIll roomAtFilter) 1).bumpRoom roomAtFilter Reg.roomIllCount).post 0xA002 5
      [pack [(0, roomAtFilter), (16, (filterBefore.room roomAtFilter).core.pc)]]).roomDone roomAtFilter
        (Room.next { filterBefore.room roomAtFilter with
          illAt := if filterBefore.threshold 0xA002 ≤ 5 then some filterBefore.rc else (filterBefore.room roomAtFilter).illAt }
          none none) [])) = false := by
  decide +kernel

/-- Refutes O47: the statement asks the threshold of 0xA002 before the illegal instruction is counted, the model after it; with the
room number 13360, which the statement does not shut out, the count is a write to an event filter and moves the threshold. -/
theorem not_roomControl : ¬Obligations.RoomControl := by
  unfold Obligations.RoomControl
  intro h
  obtain ⟨-, -, -, -, -, -, -, -, -, -, -, -, hill, -⟩ := h filterBefore roomAtFilter _ rfl
  obtain ⟨-, hpost⟩ := hill (by decide +kernel) (by decide +kernel)
  have hcounted := illegal_not_posted
  rw [hpost (.inl (by decide +kernel)), illegal_posted_before] at hcounted
  exact absurd hcounted (by decide)

end Sys2Proof.Machine
end

section
/-! What one instruction of a room leaves of its room: the writes of its registers in their order, its memories, its output
record, and the program counter's step (R274, R278, R302, R306). -/

namespace Sys2Proof.Machine

/-- What register `j`, that held `old`, holds after the writes of an instruction. -/
def Writes.value (ws : Writes) (j old : Nat) : Nat := ws.foldl (fun v w => if j = w.1 then w.2.1 else v) old

@[simp] theorem Writes.value_nil (j old : Nat) : Writes.value [] j old = old := rfl

theorem Writes.value_cons (w : Nat × Nat × Wrote) (ws : Writes) (j old : Nat) :
    Writes.value (w :: ws) j old = Writes.value ws j (if j = w.1 then w.2.1 else old) := rfl

theorem Writes.value_others {key j : Nat} (hj : j ≠ key) (ws : Writes) (old : Nat) :
    Writes.value (ws.filter fun w => w.1 != key) j old = Writes.value ws j old := by
  induction ws generalizing old with
  | nil => rfl
  | cons w ws ih =>
    by_cases hw : w.1 = key
    · rw [List.filter_cons_of_neg (by simp [hw]), ih, Writes.value_cons, if_neg (hw ▸ hj)]
    · rw [List.filter_cons_of_pos (by simp [hw]), Writes.value_cons, Writes.value_cons, ih]

/-- A write that joins the others is the one its register keeps. -/
@[simp] theorem Writes.value_set (ws : Writes) (key v : Nat) (how : Wrote) (j old : Nat) :
    Writes.value (Writes.set ws key v how) j old = if j = key then v else Writes.value ws j old := by
  have happend : Writes.value (Writes.set ws key v how) j old
      = if j = key then v else Writes.value (ws.filter fun w => w.1 != key) j old := List.foldl_append ..
  rw [happend]
  split
  · rfl
  · next hj => exact Writes.value_others hj ws old

/-- Writes joined to others one after the other. -/
abbrev Writes.over (us ws : Writes) : Writes := ws.foldl (fun us w => Writes.set us w.1 w.2.1 w.2.2) us

/-- Writes that join others one after the other stand over them. -/
theorem Writes.value_over (us ws : Writes) (j old : Nat) :
    Writes.value (Writes.over us ws) j old = Writes.value ws j (Writes.value us j old) := by
  induction ws generalizing us with
  | nil => rfl
  | cons w ws ih => rw [Writes.over, List.foldl_cons, ih, Writes.value_set, Writes.value_cons]

theorem Writes.mem_set {ws : Writes} {key v : Nat} {how : Wrote} {w : Nat × Nat × Wrote} (h : w ∈ Writes.set ws key v how) :
    w.1 = key ∨ w ∈ ws := by
  rcases List.mem_append.mp h with hold | hnew
  · exact .inr (List.mem_of_mem_filter hold)
  · exact .inl (by rw [List.mem_singleton.mp hnew])

theorem Writes.mem_over {us ws : Writes} {w : Nat × Nat × Wrote}
    (h : w ∈ Writes.over us ws) : (∃ u ∈ ws, w.1 = u.1) ∨ w ∈ us := by
  induction ws generalizing us with
  | nil => exact .inr h
  | cons u ws ih =>
    rcases ih h with ⟨x, hx, hkey⟩ | hset
    · exact .inl ⟨x, List.mem_cons_of_mem _ hx, hkey⟩
    · exact (Writes.mem_set hset).imp_left fun hkey => ⟨u, List.mem_cons_self, hkey⟩

theorem Core.raw_write (c : Core) (key v : Nat) (how : Wrote) (j : Nat) :
    (c.write key v how).raw j = if j = key then v else c.raw j := by
  by_cases hj : j = key
  · subst hj
    rw [if_pos rfl]
    exact Sparse.get_put_same _ _ _ _
  · rw [if_neg hj]
    exact Sparse.get_put_ne _ _ _ hj

/-- The registers written, all else of the core as it stood. -/
def Core.writes (c : Core) (ws : Writes) : Core := ws.foldl (fun c w => c.write w.1 w.2.1 w.2.2) c

theorem Core.raw_writes (ws : Writes) (c : Core) (j : Nat) : (c.writes ws).raw j = Writes.value ws j (c.raw j) := by
  induction ws generalizing c with
  | nil => rfl
  | cons w ws ih => exact (ih _).trans (congrArg (Writes.value ws j) (Core.raw_write c _ _ _ j))

theorem Core.writes_eq (ws : Writes) (c : Core) : ∃ regs hist, c.writes ws = { c with regs := regs, hist := hist } := by
  induction ws generalizing c with
  | nil => exact ⟨c.regs, c.hist, rfl⟩
  | cons w ws ih =>
    obtain ⟨regs, hist, heq⟩ := ih (c.write w.1 w.2.1 w.2.2)
    exact ⟨regs, hist, heq⟩

/-- The writes of an instruction's arithmetic: the accumulator and the count (R274, R278). -/
def Core.results (c : Core) (x : RoomArith) (out : ArithOut) : Writes :=
  out.acc.toList.map (fun v => (c.key (8 + x.d), v, Wrote.arith)) ++ out.count.toList.map (fun v => (c.key x.b, v, Wrote.load))

/-- The writes of SR and its bit L: those of a limited move and of the arithmetic, where no move writes SR (R268, R278). -/
def Core.flagWrites (c : Core) (mv : Moved) (out : ArithOut) : Writes :=
  if mv.regs.any (fun w => w.1 == c.key 0x30) then []
  else (if mv.limited then [(limitKey (c.key 0x30), 1, .limited)] else []) ++ match out.sr with
    | some sr => (c.key 0x30, setField sr 4 1 0, .arith) :: if bit sr 4 then [(limitKey (c.key 0x30), 1, .arith)] else []
    | none => []

theorem Core.over_results (c : Core) (x : RoomArith) (out : ArithOut) (us : Writes) :
    Writes.over us (c.results x out) =
      (let ws := match out.acc with | some v => Writes.set us (c.key (8 + x.d)) v .arith | none => us
      match out.count with | some v => Writes.set ws (c.key x.b) v .load | none => ws) := by
  unfold Core.results
  cases out.acc <;> cases out.count <;> rfl

theorem Core.over_flagWrites (c : Core) (mv : Moved) (out : ArithOut) (us : Writes) :
    Writes.over us (c.flagWrites mv out) =
      if mv.regs.any (fun w => w.1 == c.key 0x30) then us
      else
        let ws := if mv.limited then Writes.set us (limitKey (c.key 0x30)) 1 .limited else us
        match out.sr with
        | some sr =>
          let ws := Writes.set ws (c.key 0x30) (setField sr 4 1 0) .arith
          if bit sr 4 then Writes.set ws (limitKey (c.key 0x30)) 1 .arith else ws
        | none => ws := by
  unfold Core.flagWrites
  split
  · rfl
  · cases mv.limited <;> cases out.sr with
    | none => rfl
    | some sr => by_cases hl : bit sr 4 = true <;> simp [hl, Writes.over]

/-- The writes of an instruction in their order: a pointer's update, the moves' registers, the results, the flags. -/
theorem Core.merge_eq (c : Core) (mv : Moved) (x : RoomArith) (out : ArithOut) :
    c.merge mv x out = Writes.over mv.updates (mv.regs ++ c.results x out ++ c.flagWrites mv out) := by
  have happend : Writes.over mv.updates (mv.regs ++ c.results x out ++ c.flagWrites mv out)
      = Writes.over (Writes.over (Writes.over mv.updates mv.regs) (c.results x out)) (c.flagWrites mv out) := by
    rw [Writes.over, List.foldl_append, List.foldl_append]
  rw [happend, Core.over_flagWrites, Core.over_results]
  rfl

theorem Core.value_results (c : Core) (x : RoomArith) (out : ArithOut) (j old : Nat) :
    Writes.value (c.results x out) j old
      = if j = c.key x.b ∧ out.count.isSome = true then out.count.getD 0
        else if j = c.key (8 + x.d) ∧ out.acc.isSome = true then out.acc.getD 0 else old := by
  unfold Core.results
  cases out.count <;> cases out.acc <;> simp [Writes.value]

/-- SR takes the flags, and its bit L beside it is set by a limited move or by the arithmetic. -/
theorem Core.value_flagWrites (c : Core) (mv : Moved) (out : ArithOut) (j old : Nat)
    (hsr : mv.regs.any (fun w => w.1 == c.key 0x30) = false) :
    Writes.value (c.flagWrites mv out) j old
      = if j = c.key 0x30 ∧ out.sr.isSome = true then setField (out.sr.getD 0) 4 1 0
        else if j = limitKey (c.key 0x30) ∧ (mv.limited = true ∨ out.sr.any (fun sr => bit sr 4) = true) then 1 else old := by
  unfold Core.flagWrites
  rw [hsr]
  cases mv.limited <;> cases out.sr with
  | none => simp [Writes.value]
  | some sr =>
    by_cases hj : j = c.key 0x30
    · by_cases hl : bit sr 4 = true <;> simp [hl, Writes.value, hj]
    · by_cases hl : bit sr 4 = true <;> by_cases hjl : j = limitKey (c.key 0x30) <;> simp [hl, Writes.value, hj, hjl]

theorem Core.flagWrites_of_sr (c : Core) (mv : Moved) (out : ArithOut) (hsr : mv.regs.any (fun w => w.1 == c.key 0x30) = true) :
    c.flagWrites mv out = [] := if_pos hsr

theorem Writes.value_append (us ws : Writes) (j old : Nat) :
    Writes.value (us ++ ws) j old = Writes.value ws j (Writes.value us j old) := List.foldl_append ..

/-- What a register holds after the writes of an instruction. -/
theorem Core.value_merge (c : Core) (mv : Moved) (x : RoomArith) (out : ArithOut) (j old : Nat) :
    Writes.value (c.merge mv x out) j old
      = Writes.value (c.flagWrites mv out) j (Writes.value (c.results x out) j (Writes.value mv.regs j (Writes.value mv.updates j old))) := by
  rw [Core.merge_eq, Writes.value_over, Writes.value_append, Writes.value_append]

theorem Core.key_of_flagWrites {c : Core} {mv : Moved} {out : ArithOut} {w : Nat × Nat × Wrote} (h : w ∈ c.flagWrites mv out) :
    w.1 = c.key 0x30 ∨ w.1 = limitKey (c.key 0x30) := by
  unfold Core.flagWrites at h
  split at h
  · exact absurd h (by simp)
  rcases List.mem_append.mp h with hlim | hsr
  · split at hlim
    · exact .inr (by rw [List.mem_singleton.mp hlim])
    · exact absurd hlim (by simp)
  · split at hsr
    · rcases List.mem_cons.mp hsr with rfl | hbit
      · exact .inl rfl
      · split at hbit
        · exact .inr (by rw [List.mem_singleton.mp hbit])
        · exact absurd hbit (by simp)
    · exact absurd hsr (by simp)

theorem Core.key_of_results {c : Core} {x : RoomArith} {out : ArithOut} {w : Nat × Nat × Wrote} (h : w ∈ c.results x out) :
    w.1 = c.key (8 + x.d) ∨ w.1 = c.key x.b := by
  unfold Core.results at h
  rcases List.mem_append.mp h with hacc | hcount
  · obtain ⟨v, -, rfl⟩ := List.mem_map.mp hacc
    exact .inl rfl
  · obtain ⟨v, -, rfl⟩ := List.mem_map.mp hcount
    exact .inr rfl

/-- Data registers and accumulators have their places, 64 above them in the handler's set (R266, R302). -/
theorem Core.key_low (c : Core) {e : Nat} (h : e < 0x10) :
    c.key e = (if e < 8 then e else 8 + e % 2) + (if c.inIrq = true then 64 else 0) := by
  unfold Core.key
  generalize c.inIrq = irq
  revert e irq
  decide

theorem Core.key_sr (c : Core) : c.key 0x30 = 0x30 + (if c.inIrq = true then 64 else 0) := by
  unfold Core.key
  cases c.inIrq <;> rfl

theorem Core.key_plain (c : Core) {e : Nat} (h : 0x10 ≤ e) (hsr : e ≠ 0x30) : c.key e = e := by
  unfold Core.key
  simp [Nat.not_lt.mpr h, hsr]

/-- IOP is neither SR nor its bit L, whichever set is in use. -/
theorem Core.iop_ne_sr (c : Core) : c.key 0x30 ≠ 0x32 ∧ limitKey (c.key 0x30) ≠ 0x32 := by
  rw [limitKey, Core.key_sr]
  split <;> decide

theorem Core.key_low_ne_iop (c : Core) {e : Nat} (h : e < 0x10) : c.key e ≠ 0x32 := by
  rw [Core.key_low c h]
  split <;> split <;> omega

/-- Where neither a move nor a pointer's update writes IOP, nothing of the instruction does. -/
theorem Core.merge_spares_iop {c : Core} {mv : Moved} {x : RoomArith} {out : ArithOut} (hb : x.b < 0x10) (hd : x.d < 8)
    (hregs : ∀ w ∈ mv.regs, w.1 ≠ 0x32) (hupd : ∀ w ∈ mv.updates, w.1 ≠ 0x32) :
    (c.merge mv x out).find? (fun w => w.1 == 0x32) = none := by
  rw [List.find?_eq_none]
  intro w hw hiop
  have hkey : w.1 = 0x32 := by simpa using hiop
  rw [Core.merge_eq] at hw
  rcases Writes.mem_over hw with ⟨u, hu, hsame⟩ | hw
  · rcases List.mem_append.mp hu with hu | hu
    · rcases List.mem_append.mp hu with hu | hu
      · exact hregs u hu (hsame ▸ hkey)
      · rcases Core.key_of_results hu with h | h
        · exact c.key_low_ne_iop (by omega) (h.symm.trans (hsame ▸ hkey))
        · exact c.key_low_ne_iop hb (h.symm.trans (hsame ▸ hkey))
    · rcases Core.key_of_flagWrites hu with h | h
      · exact c.iop_ne_sr.1 (h.symm.trans (hsame ▸ hkey))
      · exact c.iop_ne_sr.2 (h.symm.trans (hsame ▸ hkey))
  · exact hupd w hw hkey

/-! The room after the writes. -/

/-- A window write: the room's core but for its window writes on the way, and the record, alone change. -/
theorem Room.winWrite_eq (rm : Room) (io : RoomIo) (a v : Nat) :
    ∃ win blocks, rm.winWrite io a v = { rm with core := { rm.core with win := win }, blocks := blocks } := by
  unfold Room.winWrite
  cases rm.current with
  | none => exact ⟨rm.core.win, rm.blocks, rfl⟩
  | some b =>
    dsimp only
    split
    · exact ⟨rm.core.win, rm.blocks, rfl⟩
    · exact ⟨_, _, rfl⟩

/-- The program counter's step leaves the registers, the memories, the mailbox and the records. -/
theorem Room.next_keeps (rm : Room) (branch : Option (Option Nat × Bool)) (rep : Option Rep) :
    (rm.next branch rep).core.regs = rm.core.regs ∧ (rm.next branch rep).core.p = rm.core.p
      ∧ (rm.next branch rep).core.x = rm.core.x ∧ (rm.next branch rep).core.y = rm.core.y
      ∧ (rm.next branch rep).core.mboxPend = rm.core.mboxPend := by
  unfold Room.next
  cases branch <;> dsimp only <;> split <;> exact ⟨rfl, rfl, rfl, rfl, rfl⟩

@[simp] theorem Room.next_waiting (rm : Room) (branch : Option (Option Nat × Bool)) (rep : Option Rep) :
    (rm.next branch rep).waiting = rm.waiting := rfl

@[simp] theorem Room.next_blocks (rm : Room) (branch : Option (Option Nat × Bool)) (rep : Option Rep) :
    (rm.next branch rep).blocks = rm.blocks := rfl

/-- A room that waits for nothing, and no word for MBO: the instruction ends with the room alone. -/
theorem State.roomDone_quiet (s : State) (r : Nat) {rm : Room} (h : rm.waiting = false) : s.roomDone r rm [] = s.setRoom r rm := by
  unfold State.roomDone
  rw [h]
  rfl

end Sys2Proof.Machine
end

section
/-! A room after an instruction of format P, L, I or R, and the fields that its encoding bounds (R301 to R306). -/

namespace Sys2Proof.Machine

theorem Room.winWrites_eq (io : RoomIo) (wins : List (Nat × Nat)) (rm : Room) :
    ∃ win blocks, wins.foldl (fun rm w => rm.winWrite io w.1 w.2) rm
      = { rm with core := { rm.core with win := win }, blocks := blocks } := by
  induction wins generalizing rm with
  | nil => exact ⟨rm.core.win, rm.blocks, rfl⟩
  | cons w wins ih =>
    obtain ⟨win₁, blocks₁, hfirst⟩ := rm.winWrite_eq io w.1 w.2
    obtain ⟨win, blocks, hrest⟩ := ih (rm.winWrite io w.1 w.2)
    exact ⟨win, blocks, by rw [List.foldl_cons, hrest, hfirst]⟩

theorem Core.memWrites_eq (stores : List (Bool × Nat × Nat)) (c : Core) :
    ∃ x y mem, stores.foldl (fun c w => c.memWrite w.1 w.2.1 w.2.2) c = { c with x := x, y := y, mem := mem } := by
  induction stores generalizing c with
  | nil => exact ⟨c.x, c.y, c.mem, rfl⟩
  | cons w stores ih =>
    obtain ⟨x, y, mem, hrest⟩ := ih (c.memWrite w.1 w.2.1 w.2.2)
    rw [List.foldl_cons, hrest]
    cases w.1
    · exact ⟨x, y, mem, rfl⟩
    · exact ⟨x, y, mem, rfl⟩

/-- The core that an instruction's results leave: window writes, registers, stores, and MBI read, in turn. -/
def Room.retired (rm : Room) (io : RoomIo) (mv : Moved) (ws : Writes) : Core :=
  let c := mv.stores.foldl (fun c w => c.memWrite w.1 w.2.1 w.2.2)
    ((mv.wins.foldl (fun rm w => rm.winWrite io w.1 w.2) rm).core.writes ws)
  if mv.mbiRead then { c with mboxPend := false } else c

theorem Room.retire_core (rm : Room) (io : RoomIo) (mv : Moved) (ws : Writes) :
    (rm.retire io mv ws).1.core = rm.retired io mv ws := by
  unfold Room.retire
  dsimp only
  split
  · split <;> rfl
  · rfl

theorem Room.retire_waiting (rm : Room) (io : RoomIo) (mv : Moved) (ws : Writes) :
    (rm.retire io mv ws).1.waiting = rm.waiting := by
  obtain ⟨win, blocks, hwins⟩ := Room.winWrites_eq io mv.wins rm
  unfold Room.retire
  dsimp only
  rw [hwins]
  split
  · split <;> rfl
  · rfl

/-- An instruction that does not write IOP releases no output position. -/
theorem Room.retire_blocks (rm : Room) (io : RoomIo) (mv : Moved) {ws : Writes} (h : ws.find? (fun w => w.1 == 0x32) = none) :
    (rm.retire io mv ws).1.blocks = (mv.wins.foldl (fun rm w => rm.winWrite io w.1 w.2) rm).blocks := by
  unfold Room.retire
  rw [h]

theorem Room.retired_keeps (rm : Room) (io : RoomIo) (mv : Moved) (ws : Writes) :
    (∀ j, (rm.retired io mv ws).raw j = Writes.value ws j (rm.core.raw j)) ∧ (rm.retired io mv ws).p = rm.core.p
      ∧ (rm.retired io mv ws).mboxPend = (rm.core.mboxPend && !mv.mbiRead) := by
  obtain ⟨win, blocks, hwins⟩ := Room.winWrites_eq io mv.wins rm
  obtain ⟨regs, hist, hwrites⟩ := Core.writes_eq ws { rm.core with win := win }
  obtain ⟨x, y, mem, hstores⟩ := Core.memWrites_eq mv.stores (({ rm.core with win := win } : Core).writes ws)
  have hraw : ∀ j, (({ rm.core with win := win } : Core).writes ws).raw j = Writes.value ws j (rm.core.raw j) :=
    Core.raw_writes ws _
  unfold Room.retired
  rw [hwins]
  dsimp only
  rw [hstores]
  cases mv.mbiRead
  · exact ⟨hraw, by rw [hwrites]; rfl, by rw [hwrites]; simp⟩
  · exact ⟨hraw, by rw [hwrites]; rfl, by simp⟩

/-- Without stores the memories stay. -/
theorem Room.retired_memories (rm : Room) (io : RoomIo) {mv : Moved} (ws : Writes) (h : mv.stores = []) :
    (rm.retired io mv ws).x = rm.core.x ∧ (rm.retired io mv ws).y = rm.core.y := by
  obtain ⟨win, blocks, hwins⟩ := Room.winWrites_eq io mv.wins rm
  obtain ⟨regs, hist, hwrites⟩ := Core.writes_eq ws { rm.core with win := win }
  unfold Room.retired
  rw [hwins, h]
  dsimp only [List.foldl_nil]
  rw [hwrites]
  split <;> exact ⟨rfl, rfl⟩

/-- The writes of an instruction of format P, L, I or R. -/
def Room.dataWrites (rm : Room) (io : RoomIo) (i : RoomInstr) (x : RoomArith) (f : ArithIn → ArithOut) : Writes :=
  rm.core.merge (rm.moves io i) x (if x.op = 0 then {} else f (rm.core.arithIn x))

/-- Such an instruction in a room that waits for nothing and sends nothing to MBO. -/
theorem State.roomData_quiet (s : State) (r : Nat) (i : RoomInstr) (x : RoomArith) (f : ArithIn → ArithOut)
    (hwait : (s.room r).waiting = false) (hmbo : ((s.room r).moves (s.roomIo r) i).mbo = []) :
    s.roomData r i x f = s.setRoom r (((s.room r).retire (s.roomIo r) ((s.room r).moves (s.roomIo r) i)
      ((s.room r).dataWrites (s.roomIo r) i x f)).1.next none none) := by
  refine Eq.trans ?_ (s.roomDone_quiet r (Room.retire_waiting _ _ _ _ |>.trans hwait))
  exact congrArg (s.roomDone r _) hmbo

/-! The encoding. -/

/-- What is ready is the word at the pc, decoded, and of the row asked for. -/
theorem State.decoded_of_ready {s : State} {r : Nat} {op : RoomOp} {i : RoomInstr} (h : s.roomReady r op = some i) :
    (∃ w, decodeRoom w = some i) ∧ i.op = op := by
  unfold State.roomReady at h
  split at h
  · split at h
    · next j hj =>
      split at h
      · next hop =>
        obtain rfl := Option.some.inj h
        unfold Room.legal Core.instr at hj
        split at hj
        · next k hk =>
          split at hj
          · exact absurd hj (by simp)
          · exact ⟨⟨_, (Option.some.inj hj) ▸ hk⟩, hop⟩
        · exact absurd hj (by simp)
      · exact absurd h (by simp)
    · exact absurd h (by simp)
  · exact absurd h (by simp)

theorem field_lt (n lo w : Nat) : field n lo w < 2 ^ w := Nat.mod_lt _ (Nat.two_pow_pos w)

theorem decodeArith_bounds {w : Nat} {x : RoomArith} (h : decodeArith w = some x) : x.a < 8 ∧ x.b < 8 ∧ x.d < 2 := by
  unfold decodeArith at h
  dsimp only at h
  split at h
  · split at h
    · obtain rfl := Option.some.inj h
      decide
    · exact absurd h (by simp)
  · split at h
    · split at h
      · obtain rfl := Option.some.inj h
        exact ⟨Nat.zero_lt_succ 7, Nat.zero_lt_succ 7, field_lt _ _ 1⟩
      · exact absurd h (by simp)
    · split at h
      · exact absurd h (by simp)
      · split at h
        · exact absurd h (by simp)
        · obtain rfl := Option.some.inj h
          exact ⟨field_lt _ _ 3, field_lt _ _ 3, field_lt _ _ 1⟩

theorem decodeParMove_ptr {y : Bool} {f : Nat} {m : RoomMove} (h : decodeParMove y f = some (some m)) : m.ptr < 8 := by
  unfold decodeParMove at h
  split at h
  · split at h <;> simp at h
  · split at h
    · obtain rfl := Option.some.inj (Option.some.inj h)
      exact Nat.zero_lt_succ 7
    · exact absurd h (by simp)
  · split at h
    · obtain rfl := Option.some.inj (Option.some.inj h)
      exact field_lt _ _ 3
    · exact absurd h (by simp)

theorem decodeLongMove_ptr {f : Nat} {m : RoomMove} (h : decodeLongMove f = some (some m)) : m.ptr < 8 := by
  unfold decodeLongMove at h
  dsimp only at h
  split at h
  · split at h <;> simp at h
  · split at h
    · exact absurd h (by simp)
    · split at h
      · split at h
        · obtain rfl := Option.some.inj (Option.some.inj h)
          exact Nat.zero_lt_succ 7
        · exact absurd h (by simp)
      · split at h
        · obtain rfl := Option.some.inj (Option.some.inj h)
          exact field_lt _ _ 3
        · exact absurd h (by simp)

theorem decodeControl_ne_data (w : Nat) (x : RoomArith) (ms : List RoomMove) (l : Bool) : decodeControl w ≠ some (.data x ms l) := by
  unfold decodeControl
  dsimp only
  split <;> simp

/-- The fields of a decoded instruction with arithmetic or moves name registers of their kinds. -/
theorem decodeRoom_data {w : Nat} {x : RoomArith} {ms : List RoomMove} {l : Bool} (h : decodeRoom w = some (.data x ms l)) :
    (x.a < 8 ∧ x.b < 8 ∧ x.d < 2) ∧ ∀ m ∈ ms, m.ptr < 8 := by
  unfold decodeRoom at h
  split at h
  · exact absurd h (decodeControl_ne_data w x ms l)
  · split at h
    · next a mx my ha hx hy =>
      obtain ⟨-, hdata⟩ := Option.ite_none_left_eq_some.mp h
      obtain ⟨rfl, rfl, -⟩ := RoomInstr.data.inj (Option.some.inj hdata)
      refine ⟨decodeArith_bounds ha, fun m hm => ?_⟩
      rcases List.mem_append.mp hm with hm | hm
      · exact decodeParMove_ptr (hx.trans (congrArg some (Option.mem_toList.mp hm)))
      · exact decodeParMove_ptr (hy.trans (congrArg some (Option.mem_toList.mp hm)))
    · exact absurd h (by simp)
  · split at h
    · next a mv ha hm =>
      obtain ⟨rfl, rfl, -⟩ := RoomInstr.data.inj (Option.some.inj h)
      exact ⟨decodeArith_bounds ha, fun m hmem => decodeLongMove_ptr (hm.trans (congrArg some (Option.mem_toList.mp hmem)))⟩
    · exact absurd h (by simp)
  · simp at h
  · simp at h
  · exact absurd h (by simp)

end Sys2Proof.Machine
end

section
/-! O48: the rooms' arithmetic. -/

namespace Sys2Proof.Machine

/-! Results and flags (R268, R270, R315). -/

theorem inQ31_iff (r : Int) : inQ31 r = true ↔ -(2 ^ 63) ≤ r ∧ r < 2 ^ 63 := by
  unfold inQ31
  rw [Bool.and_eq_true, decide_eq_true_iff, decide_eq_true_iff]

theorem accVal_bounds (n : Nat) : -(2 ^ 71) ≤ accVal n ∧ accVal n < 2 ^ 71 := by
  unfold accVal sext
  split <;> omega

/-- A code of 72 bits reads as the number it was made of where that fits. -/
theorem accVal_ofInt (r : Int) : accVal (ofInt 72 r) = r ↔ -(2 ^ 71) ≤ r ∧ r < 2 ^ 71 := by
  unfold accVal sext ofInt
  split <;> omega

theorem srWith_bits (sr : Nat) (c v z n l e : Bool) :
    bit (srWith sr c v z n l e) 0 = c ∧ bit (srWith sr c v z n l e) 1 = v ∧ bit (srWith sr c v z n l e) 2 = z
      ∧ bit (srWith sr c v z n l e) 3 = n ∧ bit (srWith sr c v z n l e) 4 = (bit sr 4 || l)
      ∧ bit (srWith sr c v z n l e) 5 = (bit sr 5 || e) := by
  unfold srWith
  generalize (bit sr 4 || l) = limited, (bit sr 5 || e) = extended
  revert c v z n limited extended
  decide

/-- The word that a result leaves in the accumulator: wrapped, or saturated with .S (R270). -/
theorem accWrite_word {i : ArithIn} {v : Int} {w : Nat} (hin : i.sat = true → -(2 ^ 63) ≤ v → v < 2 ^ 63 → w = ofInt 72 v)
    (hwrap : i.sat = false → w = ofInt 72 v) (hlow : i.sat = true → v < -(2 ^ 63) → w = ofInt 72 (-(2 ^ 63)))
    (hhigh : i.sat = true → 2 ^ 63 ≤ v → w = ofInt 72 (2 ^ 63 - 1)) :
    w = ofInt 72 (if i.sat && !inQ31 v then accSat v else v) := by
  cases hsat : i.sat with
  | false => exact hwrap hsat
  | true =>
    by_cases hq : inQ31 v = true
    · obtain ⟨hlo, hhi⟩ := (inQ31_iff v).mp hq
      simpa [hq] using hin hsat hlo hhi
    · have hbeyond : v < -(2 ^ 63) ∨ 2 ^ 63 ≤ v := by
        rw [inQ31_iff] at hq
        omega
      rcases hbeyond with h | h
      · simpa [accSat, hq, show v < 0 by omega] using hlow hsat h
      · simpa [accSat, hq, show ¬v < 0 by omega] using hhigh hsat h

theorem accWrite_flags (i : ArithIn) (v : Int) (c : Bool) (w : Nat)
    (hw : w = ofInt 72 (if i.sat && !inQ31 v then accSat v else v)) :
    (accWrite i v c).acc = some w ∧ ∃ sr, (accWrite i v c).sr = some sr ∧ bit sr 0 = c
      ∧ (bit sr 1 = false ↔ -(2 ^ 63) ≤ sext 72 w ∧ sext 72 w < 2 ^ 63) ∧ (bit sr 2 = true ↔ w = 0) ∧ bit sr 3 = bit w 71
      ∧ (bit sr 4 = true ↔ bit i.sr 4 = true ∨ (i.sat = true ∧ (v < -(2 ^ 63) ∨ 2 ^ 63 ≤ v)))
      ∧ (bit sr 5 = true ↔ bit i.sr 5 = true ∨ (i.sat = false ∧ (v < -(2 ^ 71) ∨ 2 ^ 71 ≤ v))) := by
  obtain ⟨h0, h1, h2, h3, h4, h5⟩ := srWith_bits i.sr c (!inQ31 (accVal w)) (w == 0) (bit w 71) (i.sat && !inQ31 v)
    (!(i.sat && !inQ31 v) && accVal w != v)
  have hbeyond : inQ31 v = false ↔ v < -(2 ^ 63) ∨ 2 ^ 63 ≤ v := by
    rw [← Bool.not_eq_true, inQ31_iff]
    omega
  have hlost : (!(i.sat && !inQ31 v) && accVal w != v) = true ↔ i.sat = false ∧ (v < -(2 ^ 71) ∨ 2 ^ 71 ≤ v) := by
    have hfits := accVal_ofInt v
    cases hsat : i.sat with
    | false =>
      rw [hsat] at hw
      obtain rfl : w = ofInt 72 v := hw
      simp only [Bool.false_and, Bool.not_false, Bool.true_and, bne_iff_ne, ne_eq, hfits, true_and]
      omega
    | true =>
      cases hq : inQ31 v with
      | false => simp
      | true =>
        rw [hsat, hq] at hw
        obtain rfl : w = ofInt 72 v := hw
        obtain ⟨hlo, hhi⟩ := (inQ31_iff v).mp hq
        simp [hfits.mpr ⟨by omega, by omega⟩]
  have hout : accWrite i v c = { acc := some w, sr := some (srWith i.sr c (!inQ31 (accVal w)) (w == 0) (bit w 71)
      (i.sat && !inQ31 v) (!(i.sat && !inQ31 v) && accVal w != v)) } := by
    rw [hw]
    rfl
  rw [hout]
  refine ⟨rfl, _, rfl, h0, ?_, ?_, h3, ?_, ?_⟩
  · rw [h1, Bool.not_eq_false', inQ31_iff]
    rfl
  · rw [h2, beq_iff_eq]
  · rw [h4, Bool.or_eq_true, Bool.and_eq_true, Bool.not_eq_true', hbeyond]
  · rw [h5, Bool.or_eq_true, hlost]

/-! Shifts (R271, R315). -/

/-- Two results that lie beyond 72 bits on the same side and wrap to the same word do the same. -/
theorem accWrite_beyond (i : ArithIn) (c : Bool) {r t : Int} (hr : r < -(2 ^ 71) ∨ 2 ^ 71 ≤ r) (ht : t < -(2 ^ 71) ∨ 2 ^ 71 ≤ t)
    (hside : r < 0 ↔ t < 0) (hword : ofInt 72 r = ofInt 72 t) : accWrite i r c = accWrite i t c := by
  have hqr : inQ31 r = false := by
    rw [← Bool.not_eq_true, inQ31_iff]
    omega
  have hqt : inQ31 t = false := by
    rw [← Bool.not_eq_true, inQ31_iff]
    omega
  have hsat : accSat r = accSat t := by
    unfold accSat
    rw [hqr, hqt, if_neg Bool.false_ne_true, if_neg Bool.false_ne_true]
    exact if_congr hside rfl rfl
  have hlr : (accVal (ofInt 72 r) != r) = true := bne_iff_ne.mpr (mt (accVal_ofInt r).mp (by omega))
  have hlt : (accVal (ofInt 72 t) != t) = true := bne_iff_ne.mpr (mt (accVal_ofInt t).mp (by omega))
  unfold accWrite
  rw [hqr, hqt, hsat]
  cases i.sat
  · simp only [Bool.false_and, Bool.false_eq_true, if_false, Bool.not_false, Bool.true_and]
    rw [hlr, hlt, hword]
  · rfl

/-- A number other than 0 shifted left by 72 places or more lies beyond 72 bits, and wraps to 0. -/
theorem mul_two_pow_beyond {v : Int} (hv : v ≠ 0) {k : Nat} (hk : 72 ≤ k) :
    (v * 2 ^ k < -(2 ^ 71) ∨ 2 ^ 71 ≤ v * 2 ^ k) ∧ (v * 2 ^ k < 0 ↔ v < 0) ∧ ofInt 72 (v * 2 ^ k) = 0 := by
  have hpow : (2 : Int) ^ 72 ≤ 2 ^ k := pow_le_pow_right₀ (by decide) hk
  have hpos : (0 : Int) < 2 ^ k := by positivity
  have hdvd : (2 : Int) ^ 72 ∣ v * 2 ^ k := Dvd.dvd.mul_left (pow_dvd_pow 2 hk) v
  refine ⟨?_, ?_, ?_⟩
  · rcases lt_or_gt_of_ne hv with h | h
    · exact .inl (by nlinarith)
    · exact .inr (by nlinarith)
  · exact ⟨fun h => by by_contra hn; exact absurd h (not_lt.mpr (mul_nonneg (not_lt.mp hn) hpos.le)),
      fun h => mul_neg_of_neg_of_pos h hpos⟩
  · unfold ofInt
    rw [show ((2 ^ 72 : Nat) : Int) = 2 ^ 72 by norm_num, Int.emod_eq_zero_of_dvd hdvd]
    rfl

/-- A value of 72 bits shifted right by 72 places or more is its sign. -/
theorem ediv_two_pow_sign {v : Int} (hlo : -(2 ^ 71) ≤ v) (hhi : v < 2 ^ 71) {k : Nat} (hk : 72 ≤ k) :
    v / 2 ^ k = if v < 0 then -1 else 0 := by
  have hpow : (2 : Int) ^ 72 ≤ 2 ^ k := pow_le_pow_right₀ (by decide) hk
  split
  · next h => exact Int.ediv_eq_neg_one_of_neg_of_le h (by omega)
  · next h => exact Int.ediv_eq_zero_of_lt (not_lt.mp h) (by omega)

theorem accShift_left (i : ArithIn) {n : Int} (hn : 0 < n) :
    accShift i n = accWrite i (accVal i.ad * 2 ^ n.toNat) (decide (n ≤ 72) && bit i.ad (72 - n.toNat)) := by
  obtain ⟨k, rfl⟩ := Int.eq_ofNat_of_zero_le hn.le
  have hc : decide ((k : Int) ≤ 72) = decide (k ≤ 72) := decide_eq_decide.mpr (by omega)
  unfold accShift
  dsimp only
  rw [if_neg (by omega), if_pos hn, Int.natAbs_natCast, Int.toNat_natCast, hc]
  push_cast
  by_cases hk : k ≤ 144
  · rw [min_eq_left hk]
  rw [min_eq_right (by omega)]
  by_cases hv : accVal i.ad = 0
  · rw [hv, zero_mul, zero_mul]
  obtain ⟨hfar, hside, hword⟩ := mul_two_pow_beyond hv (k := 144) (by decide)
  obtain ⟨hfar', hside', hword'⟩ := mul_two_pow_beyond hv (k := k) (by omega)
  exact accWrite_beyond i _ hfar hfar' (hside.trans hside'.symm) (hword.trans hword'.symm)

theorem accShift_right (i : ArithIn) {n : Int} (hn : n < 0) :
    accShift i n = accWrite i (accVal i.ad / 2 ^ n.natAbs) (bit i.ad (min (n.natAbs - 1) 71)) := by
  unfold accShift
  dsimp only
  rw [if_neg (by omega), if_neg (by omega)]
  push_cast
  by_cases hk : n.natAbs ≤ 72
  · rw [min_eq_left hk]
  obtain ⟨hlo, hhi⟩ := accVal_bounds i.ad
  rw [min_eq_right (by omega), ediv_two_pow_sign hlo hhi (by decide), ediv_two_pow_sign hlo hhi (k := n.natAbs) (by omega)]

/-! NORM and EXP (R316). -/

theorem leftCount_spec : (n : Nat) → (v : Int) → inQ31 v = true →
    leftCount n v ≤ n ∧ inQ31 (v * 2 ^ leftCount n v) = true ∧ (leftCount n v < n → inQ31 (2 * (v * 2 ^ leftCount n v)) = false)
  | 0, v, hv => ⟨Nat.le_refl 0, by simpa [leftCount] using hv, fun h => absurd h (Nat.not_lt_zero _)⟩
  | n + 1, v, hv => by
    unfold leftCount
    split
    · next hmore =>
      obtain ⟨hle, hin, hend⟩ := leftCount_spec n (2 * v) hmore
      have hshift : v * 2 ^ (1 + leftCount n (2 * v)) = 2 * v * 2 ^ leftCount n (2 * v) := by ring
      rw [hshift]
      exact ⟨by omega, hin, fun h => hend (by omega)⟩
    · next hstop => exact ⟨Nat.zero_le _, by simpa using hv, fun _ => by simpa using hstop⟩

/-- Halving and doubling again does not bring a value back inside Q1.31. -/
theorem inQ31_double_half {v : Int} (h : inQ31 v = false) : inQ31 (2 * (v / 2)) = false := by
  rw [← Bool.not_eq_true, inQ31_iff] at h ⊢
  omega

theorem rightCount_spec : (n : Nat) → (v : Int) → -(2 ^ (63 + n)) ≤ v → v < 2 ^ (63 + n) →
    rightCount n v ≤ n ∧ inQ31 (v / 2 ^ rightCount n v) = true
      ∧ (inQ31 v = false → inQ31 (2 * (v / 2 ^ rightCount n v)) = false)
  | 0, v, hlo, hhi => by
    have hin : inQ31 v = true := (inQ31_iff v).mpr ⟨by simpa using hlo, by simpa using hhi⟩
    exact ⟨Nat.le_refl 0, by simpa [rightCount] using hin, fun h => absurd hin (by simp [h])⟩
  | n + 1, v, hlo, hhi => by
    unfold rightCount
    split
    · next hin => exact ⟨Nat.zero_le _, by simpa using hin, fun h => absurd hin (by simp [h])⟩
    · next hout =>
      have hpow : (2 : Int) ^ (63 + (n + 1)) = 2 * 2 ^ (63 + n) := by ring
      obtain ⟨hle, hin, hend⟩ := rightCount_spec n (v / 2) (by omega) (by omega)
      have hshift : v / 2 ^ (1 + rightCount n (v / 2)) = v / 2 / 2 ^ rightCount n (v / 2) := by
        rw [pow_add, pow_one, Int.ediv_ediv_of_nonneg (by decide)]
      rw [hshift]
      refine ⟨by omega, hin, fun hv => ?_⟩
      by_cases hhalf : inQ31 (v / 2) = true
      · have hzero : rightCount n (v / 2) = 0 := by
          cases n with
          | zero => rfl
          | succ n => exact if_pos hhalf
        rw [hzero, pow_zero, Int.ediv_one]
        exact inQ31_double_half hv
      · exact hend (by simpa using hhalf)

/-- What NORM's count does to an accumulator's value. -/
theorem normCount_spec {v w : Int} (hlo : -(2 ^ 71) ≤ v) (hhi : v < 2 ^ 71)
    (hw : w = if 0 ≤ normCount v then v * 2 ^ (normCount v).toNat else v / 2 ^ (normCount v).natAbs) :
    (v = 0 → normCount v = 31) ∧ -8 ≤ normCount v ∧ normCount v ≤ 31 ∧ inQ31 w = true
      ∧ (v ≠ 0 → normCount v < 31 → inQ31 (2 * w) = false) := by
  refine ⟨fun h => if_pos h, ?_⟩
  by_cases hz : v = 0
  · have hc : normCount v = 31 := if_pos hz
    rw [hc, if_pos (by decide), hz, zero_mul] at hw
    rw [hc, hw]
    exact ⟨by decide, by decide, by decide, fun h => absurd hz h⟩
  by_cases hin : inQ31 v = true
  · have hc : normCount v = leftCount 31 v := (if_neg hz).trans (if_pos hin)
    obtain ⟨hle, hnorm, hend⟩ := leftCount_spec 31 v hin
    rw [hc, if_pos (Int.natCast_nonneg _), Int.toNat_natCast] at hw
    rw [hc, hw]
    exact ⟨by omega, by omega, hnorm, fun _ h => hend (by omega)⟩
  · have hc : normCount v = -(rightCount 8 v : Int) := (if_neg hz).trans (if_neg hin)
    obtain ⟨hle, hnorm, hend⟩ := rightCount_spec 8 v (by simpa using hlo) (by simpa using hhi)
    have hpos : 0 < rightCount 8 v := by
      rw [Nat.pos_iff_ne_zero]
      intro h0
      rw [h0, pow_zero, Int.ediv_one] at hnorm
      exact hin hnorm
    rw [hc, if_neg (by omega), Int.natAbs_neg, Int.natAbs_natCast] at hw
    rw [hc, hw]
    exact ⟨by omega, by omega, hnorm, fun _ _ => hend (by simpa using hin)⟩

theorem accNorm_writes (i : ArithIn) {w : Int} (hin : inQ31 w = true)
    (hw : w = if 0 ≤ normCount (accVal i.ad) then accVal i.ad * 2 ^ (normCount (accVal i.ad)).toNat
      else accVal i.ad / 2 ^ (normCount (accVal i.ad)).natAbs) :
    (accNorm i).acc = some (ofInt 72 w) ∧ (accNorm i).count = some (ofInt 32 (normCount (accVal i.ad)))
      ∧ ∃ sr, (accNorm i).sr = some sr ∧ bit sr 0 = false := by
  have hnorm : accNorm i = { accWrite i w false with count := some (ofInt 32 (normCount (accVal i.ad))) } := by
    unfold accNorm
    dsimp only
    rw [hw]
    push_cast
    by_cases hc : 0 ≤ normCount (accVal i.ad)
    · rw [if_pos hc, if_pos hc, show (normCount (accVal i.ad)).natAbs = (normCount (accVal i.ad)).toNat by omega]
    · rw [if_neg hc, if_neg hc]
  rw [hnorm]
  refine ⟨?_, rfl, _, rfl, (srWith_bits ..).1⟩
  change some (ofInt 72 (if i.sat && !inQ31 w then accSat w else w)) = _
  rw [hin, Bool.not_true, Bool.and_false]
  rfl

end Sys2Proof.Machine
end

section
/-! O48: the rooms' arithmetic instructions, one rule for all of their rows. -/

namespace Sys2Proof.Machine

/-- Every arithmetic row runs its effect under its operation code. -/
theorem ArithRows.runs {r : Nat} {c : Instr} {op : Nat} {f : ArithIn → ArithOut} (h : ArithRows r c op f) (s : State) :
    exec c s = .next (s.roomArith r op f) := by
  unfold ArithRows at h
  revert h
  suffices hall : ∀ row ∈ (_ : List (Instr × Nat × (ArithIn → ArithOut))), exec row.1 s = .next (s.roomArith r row.2.1 row.2.2) from fun h => hall _ h
  repeat refine List.forall_mem_cons.mpr ⟨rfl, ?_⟩
  exact List.forall_mem_nil _

theorem State.roomArith_of_ready {s : State} {r op : Nat} {x : RoomArith} {ms : List RoomMove} {l : Bool} (f : ArithIn → ArithOut)
    (h : s.roomReady r (.ar op) = some (.data x ms l)) : s.roomArith r op f = s.roomData r (.data x ms l) x f := by
  unfold State.roomArith
  rw [h]

theorem State.roomArith_of_none {s : State} {r op : Nat} (f : ArithIn → ArithOut) (h : s.roomReady r (.ar op) = none) :
    s.roomArith r op f = s := by
  unfold State.roomArith
  rw [h]

/-- An instruction of an arithmetic row has an operation code other than 0, and its fields name their kinds of register. -/
theorem State.arith_of_ready {s : State} {r op : Nat} {x : RoomArith} {ms : List RoomMove} {l : Bool}
    (h : s.roomReady r (.ar op) = some (.data x ms l)) : x.op ≠ 0 ∧ x.b < 8 ∧ x.d < 2 ∧ ∀ m ∈ ms, m.ptr < 8 := by
  obtain ⟨⟨w, hw⟩, hop⟩ := State.decoded_of_ready h
  obtain ⟨⟨-, hb, hd⟩, hms⟩ := decodeRoom_data hw
  refine ⟨fun h0 => ?_, hb, hd, hms⟩
  have hmoves : (RoomInstr.data x ms l).op = if l then .long else .par := if_pos h0
  rw [hmoves] at hop
  cases l <;> cases hop

/-- What the registers, the memories and the rest hold after arithmetic without moves (R314). -/
theorem State.roomArith_alone {s : State} {r op : Nat} {x : RoomArith} {l : Bool} (f : ArithIn → ArithOut)
    (h : s.roomReady r (.ar op) = some (.data x [] l)) (hwait : (s.room r).waiting = false) :
    ∃ rm : Room, s.roomArith r op f = s.setRoom r rm ∧ rm.blocks = (s.room r).blocks ∧ rm.core.p = (s.room r).core.p
      ∧ rm.core.x = (s.room r).core.x ∧ rm.core.y = (s.room r).core.y
      ∧ ∀ j, rm.core.raw j = Writes.value ((s.room r).core.flagWrites {} (f ((s.room r).core.arithIn x))) j
          (Writes.value ((s.room r).core.results x (f ((s.room r).core.arithIn x))) j ((s.room r).core.raw j)) := by
  obtain ⟨hop, hb, hd, -⟩ := State.arith_of_ready h
  have hwrites : (s.room r).dataWrites (s.roomIo r) (.data x [] l) x f = (s.room r).core.merge {} x (f ((s.room r).core.arithIn x)) :=
    congrArg (Core.merge _ _ x) (if_neg hop)
  obtain ⟨hraw, hp, -⟩ := Room.retired_keeps (s.room r) (s.roomIo r) {} ((s.room r).core.merge {} x (f ((s.room r).core.arithIn x)))
  obtain ⟨hx, hy⟩ := Room.retired_memories (s.room r) (s.roomIo r) (mv := {})
    ((s.room r).core.merge {} x (f ((s.room r).core.arithIn x))) rfl
  have hblocks := Room.retire_blocks (s.room r) (s.roomIo r) {} (Core.merge_spares_iop (c := (s.room r).core) (mv := {}) (x := x)
    (out := f ((s.room r).core.arithIn x)) (by omega) (by omega) (by simp) (by simp))
  rw [← Room.retire_core] at hraw hp hx hy
  refine ⟨_, (State.roomArith_of_ready f h).trans ((s.roomData_quiet r _ x f hwait rfl).trans (by rw [hwrites])), ?_⟩
  obtain ⟨hnregs, hnp, hnx, hny, -⟩ := Room.next_keeps ((s.room r).retire (s.roomIo r) {}
    ((s.room r).core.merge {} x (f ((s.room r).core.arithIn x)))).1 none none
  refine ⟨hblocks, hnp.trans hp, hnx.trans hx, hny.trans hy, fun j => ?_⟩
  exact (congrArg (Sparse.get (fun _ => 0) · j) hnregs).trans <| (hraw j).trans (Core.value_merge ..)

/-- Settles O48. -/
theorem roomArithmetic : Obligations.RoomArithmetic := by
  unfold Obligations.RoomArithmetic
  refine ⟨⟨fun s r op c f hrow => ⟨fun x ms l hready => ?_, fun hready => ?_, fun x l hready hwait => ?_⟩, ?_⟩, ?_, ?_⟩
  · exact (ArithRows.runs hrow s).trans (congrArg Host.Outcome.next (State.roomArith_of_ready f hready))
  · exact (ArithRows.runs hrow s).trans (congrArg Host.Outcome.next (State.roomArith_of_none f hready))
  · obtain ⟨rm, hrun, hblocks, hp, hx, hy, hraw⟩ := State.roomArith_alone f hready hwait
    refine ⟨_, (ArithRows.runs hrow s).trans (congrArg Host.Outcome.next hrun), ?_⟩
    rintro k o rfl rfl
    rw [State.room_setRoom]
    refine ⟨fun e => ?_, hp, hx, hy, hblocks, fun q hq => State.room_setRoom_ne s rm hq, rfl, rfl⟩
    rw [hraw e, Core.value_flagWrites _ _ _ _ _ rfl, Core.value_results]
    simp
  · intro i v c w hin hwrap hlow hhigh
    exact accWrite_flags i v c w (accWrite_word hin hwrap hlow hhigh)
  · intro i n
    exact ⟨fun h => if_pos h, accShift_left i, accShift_right i⟩
  · rintro i v c w rfl rfl hw
    obtain ⟨hlo, hhi⟩ := accVal_bounds i.ad
    obtain ⟨hzero, hleast, hmost, hin, hend⟩ := normCount_spec hlo hhi hw
    obtain ⟨hacc, hcount, hflags⟩ := accNorm_writes i hin hw
    exact ⟨hzero, hleast, hmost, hin, hend, hacc, hcount, hflags⟩

end Sys2Proof.Machine
end

section
/-! O49: addresses (R272, R273) and the exposed pipeline (R275, R307). -/

namespace Sys2Proof.Machine

theorem stepPtr_free (p b : Nat) (st : Int) : (stepPtr p b 0 st : Int) = ((p : Int) + st) % 16384 := by
  unfold stepPtr ofInt
  rw [if_pos rfl]
  omega

/-- A step in a buffer ends in it, a whole number of turns away. -/
theorem stepPtr_buffer (p b : Nat) (st : Int) {l : Nat} (hl : 0 < l) :
    ∃ x < l, stepPtr p b l st = (b + x) % 16384 ∧ ((p : Int) - b + st - x) % l = 0 := by
  have hlpos : (0 : Int) < l := by exact_mod_cast hl
  have hlow := Int.emod_nonneg ((p : Int) - b + st) hlpos.ne'
  have hhigh := Int.emod_lt_of_pos ((p : Int) - b + st) hlpos
  refine ⟨(((p : Int) - b + st) % l).toNat, by omega, if_neg hl.ne', ?_⟩
  rw [Int.toNat_of_nonneg hlow]
  exact Int.emod_eq_zero_of_dvd (Int.dvd_self_sub_emod)

/-- The lowest `k` bits of a number in reverse order; `rev14` has 14 of them. -/
def revBits (k n : Nat) : Nat := (List.range k).foldl (fun r i => r * 2 + n / 2 ^ i % 2) 0

theorem testBit_revBits (n : Nat) : (k i : Nat) → (revBits k n).testBit i = (decide (i < k) && n.testBit (k - 1 - i))
  | 0, i => by simp [revBits]
  | k + 1, i => by
    have hstep : revBits (k + 1) n = 2 * revBits k n + (n.testBit k).toNat := by
      unfold revBits
      rw [List.range_succ, List.foldl_append, List.foldl_cons, List.foldl_nil, Nat.mul_comm, Nat.toNat_testBit]
    rw [hstep]
    cases i with
    | zero =>
      rw [Nat.testBit_zero]
      cases hk : n.testBit k <;> simp [hk, Nat.add_mod]
    | succ i =>
      have hhalf : (2 * revBits k n + (n.testBit k).toNat) / 2 = revBits k n := by
        have := Bool.toNat_lt (n.testBit k)
        omega
      rw [Nat.testBit_succ, hhalf, testBit_revBits n k i, Nat.add_sub_cancel, show k - (i + 1) = k - 1 - i by omega]
      simp

theorem testBit_rev14 (n i : Nat) : (rev14 n).testBit i = (decide (i < 14) && n.testBit (13 - i)) := testBit_revBits n 14 i

theorem rev14_lt (n : Nat) : rev14 n < 16384 :=
  Nat.lt_pow_two_of_testBit (n := 14) _ fun i hi => by rw [testBit_rev14, decide_eq_false (by omega), Bool.false_and]

theorem rev14_rev14 {n : Nat} (h : n < 16384) : rev14 (rev14 n) = n := by
  refine Nat.eq_of_testBit_eq fun i => ?_
  rw [testBit_rev14, testBit_rev14]
  by_cases hi : i < 14
  · simp [hi, show 13 - (13 - i) = i by omega, show 13 - i < 14 by omega]
  · have hpow : 2 ^ 14 ≤ 2 ^ i := Nat.pow_le_pow_right (by decide) (by omega)
    rw [decide_eq_false hi, Bool.false_and, Nat.testBit_lt_two_pow (Nat.lt_of_lt_of_le h hpow)]

/-! The pipeline. -/

/-- Where every write on its way is old enough, what a reader sees is the register itself. -/
theorem seen_settled {count key : Nat} {use : RoomUse} {v : Nat} : {l : List RegWrite} →
    (∀ w ∈ l, w.key = key → w.at_ + distance w.how use ≤ count) → seen count key use l v = v
  | [], _ => rfl
  | w :: l, h => by
    unfold seen
    split
    · next hkey => rw [if_pos (h w List.mem_cons_self hkey)]
    · exact seen_settled fun u hu => h u (List.mem_cons_of_mem w hu)

theorem seenMem_settled {count key d v : Nat} : {l : List MemWrite} →
    (∀ w ∈ l, w.key = key → w.at_ + d ≤ count) → seenMem count key d l v = v
  | [], _ => rfl
  | w :: l, h => by
    unfold seenMem
    split
    · next hkey => rw [if_pos (h w List.mem_cons_self hkey)]
    · exact seenMem_settled fun u hu => h u (List.mem_cons_of_mem w hu)

/-- A register written reads so from the distance of its pair on, and as before up to it (R275). -/
theorem Core.read_after_write (c : Core) (key v d : Nat) (how : Wrote) (use : RoomUse) :
    (distance how use ≤ d → Core.read { c.write key v how with count := c.count + d } key use = v)
      ∧ (d < distance how use → (∀ w ∈ c.hist, w.key = key → w.at_ + distance w.how use ≤ c.count + d) →
        Core.read { c.write key v how with count := c.count + d } key use = c.raw key) := by
  have hnow : (c.write key v how).raw key = v := (Core.raw_write c key v how key).trans (if_pos rfl)
  have hread : Core.read { c.write key v how with count := c.count + d } key use
      = if c.count + distance how use ≤ c.count + d then (c.write key v how).raw key
        else seen (c.count + d) key use (c.hist.filter fun w => c.count < w.at_ + 4) (c.raw key) := if_pos rfl
  rw [hread, hnow]
  refine ⟨fun h => if_pos (by omega), fun h hold => ?_⟩
  rw [if_neg (by omega)]
  exact seen_settled fun w hw => hold w (List.mem_of_mem_filter hw)

theorem Core.memRaw_memPut (c : Core) (y : Bool) (a v : Nat) (y' : Bool) (x : Nat) :
    (c.memPut y a v).memRaw y' x = if y' = y ∧ x = a then v else c.memRaw y' x := by
  cases y <;> cases y' <;> by_cases hx : x = a <;> simp [Core.memPut, Core.memRaw, hx, Sparse.get_put_ne]

/-- A stored word is loaded from 4 instructions on, and as before up to that (R275). -/
theorem Core.load_after_store (c : Core) (y : Bool) (a v d : Nat) :
    (4 ≤ d → Core.memRead { c.memWrite y a v with count := c.count + d } y a = v)
      ∧ (d < 4 → (∀ w ∈ c.mem, w.key = b2n y * 16384 + a → w.at_ + 4 ≤ c.count + d) →
        Core.memRead { c.memWrite y a v with count := c.count + d } y a = c.memRaw y a) := by
  have hnow : (c.memPut y a v).memRaw y a = v := (Core.memRaw_memPut c y a v y a).trans (if_pos ⟨rfl, rfl⟩)
  have hread : Core.memRead { c.memWrite y a v with count := c.count + d } y a
      = if c.count + 4 ≤ c.count + d then (c.memPut y a v).memRaw y a
        else seenMem (c.count + d) (b2n y * 16384 + a) 4 (c.mem.filter fun w => c.count < w.at_ + 4) (c.memRaw y a) := by
    cases y <;> exact if_pos rfl
  rw [hread, hnow]
  refine ⟨fun h => if_pos (by omega), fun h hold => ?_⟩
  rw [if_neg (by omega)]
  exact seenMem_settled fun w hw => hold w (List.mem_of_mem_filter hw)

end Sys2Proof.Machine
end

section
/-! O49: instructions with moves (R302, R303, R305, R306, R308 to R310). -/

namespace Sys2Proof.Machine

/-! A value moved into a register. -/

/-- An E code from 0x30 on at which no control register stands. -/
structure NoControl (e : Nat) : Prop where
  high : 0x30 ≤ e
  ne_sr : e ≠ 0x30
  ne_ictl : e ≠ 0x31
  ne_iop : e ≠ 0x32
  ne_ipc : e ≠ 0x35

theorem Core.put_noControl {e : Nat} (h : NoControl e) (c : Core) (io : RoomIo) (v : Nat) (how : Wrote) : c.put io [] e v how = [] := by
  obtain ⟨hhigh, h30, h31, h32, h35⟩ := h
  unfold Core.put
  dsimp only
  rw [if_neg (by omega), if_neg (by omega), if_neg (by omega), if_neg (by omega)]
  split
  · exact absurd rfl h30
  · exact absurd rfl h31
  · exact absurd rfl h32
  · exact absurd rfl h35
  · rfl

theorem roomTaken_noControl {e : Nat} (h : NoControl e) (c : Core) (n v j old : Nat) : roomTaken c n e v j old = old := by
  obtain ⟨hhigh, h30, h31, h32, h35⟩ := h
  unfold roomTaken
  rw [if_neg (by omega), if_neg (by omega)]
  split
  · exact absurd rfl h30
  · exact absurd rfl h31
  · exact absurd rfl h32
  · exact absurd rfl h35
  · rfl

theorem Writes.value_set_nil (k v : Nat) (how : Wrote) (j old : Nat) :
    Writes.value (Writes.set [] k v how) j old = if j = k then v else old := rfl

/-- SR takes a value with its bit L beside it. -/
theorem Core.put_value_sr (c : Core) (io : RoomIo) (v : Nat) (how : Wrote) (j old : Nat) :
    Writes.value (c.put io [] 0x30 v how) j old = roomTaken c io.n 0x30 v j old := by
  have happart : limitKey (c.key 0x30) ≠ c.key 0x30 := Nat.ne_of_gt (Nat.lt_add_of_pos_right (by decide))
  show Writes.value (Writes.set (Writes.set [] (c.key 0x30) (setField (v % 64) 4 1 0) .ctl) (limitKey (c.key 0x30)) (field v 4 1) .ctl) j old
    = if j = c.key 0x30 then setField (v % 64) 4 1 0 else if j = limitKey (c.key 0x30) then field v 4 1 else old
  rw [Writes.value_set, Writes.value_set_nil]
  by_cases hj : j = c.key 0x30
  · rw [if_pos hj, if_pos hj, if_neg (hj ▸ happart.symm)]
  · rw [if_neg hj, if_neg hj]

/-- A control register takes a value. -/
theorem Core.put_value_control (c : Core) (io : RoomIo) {e : Nat} (hhigh : 0x30 ≤ e) (v : Nat) (how : Wrote) (j old : Nat) :
    Writes.value (c.put io [] e v how) j old = roomTaken c io.n e v j old := by
  have hcode : e = 0x30 ∨ e = 0x31 ∨ e = 0x32 ∨ e = 0x35 ∨ (e ≠ 0x30 ∧ e ≠ 0x31 ∧ e ≠ 0x32 ∧ e ≠ 0x35) := by omega
  rcases hcode with rfl | rfl | rfl | rfl | ⟨h30, h31, h32, h35⟩
  · exact c.put_value_sr io v how j old
  · show Writes.value (Writes.set [] (c.key 0x31) (v % 2) .ctl) j old = if j = 0x31 then v % 2 else old
    rw [Core.key_plain c (by decide) (by decide)]
    rfl
  · show Writes.value (Writes.set [] (c.key 0x32) (min (v % 64) io.n) .ctl) j old = if j = 0x32 then min (v % 64) io.n else old
    rw [Core.key_plain c (by decide) (by decide)]
    rfl
  · show Writes.value (Writes.set [] (c.key 0x35) (v % 2 ^ 13) .ctl) j old = if j = 0x35 then v % 2 ^ 13 else old
    rw [Core.key_plain c (by decide) (by decide)]
    rfl
  · have hnone : NoControl e := ⟨hhigh, h30, h31, h32, h35⟩
    rw [Core.put_noControl hnone, roomTaken_noControl hnone]
    rfl

/-- What a register holds once E code `e` has taken a value, no other move of the instruction having written it. -/
theorem Core.put_value (c : Core) (io : RoomIo) (e v : Nat) (how : Wrote) (j old : Nat) :
    Writes.value (c.put io [] e v how) j old = roomTaken c io.n e v j old := by
  by_cases h30 : e < 0x30
  case neg => exact c.put_value_control io (Nat.not_lt.mp h30) v how j old
  unfold Core.put roomTaken
  dsimp only [List.find?_nil]
  by_cases h8 : e < 8
  · rw [if_pos h8, if_pos (by omega), if_pos h8]
    exact Writes.value_set_nil ..
  rw [if_neg h8]
  by_cases h16 : e < 0x10
  · rw [if_pos h16, if_pos h16, if_neg h8]
    refine (Writes.value_set_nil ..).trans ?_
    by_cases hj : j = c.key e
    · subst hj
      rw [if_pos rfl, if_pos rfl]
      rfl
    · rw [if_neg hj, if_neg hj]
  rw [if_neg h16, if_neg h16]
  by_cases hptr : e < 0x18 ∨ (0x20 ≤ e ∧ e < 0x28)
  · rw [if_pos hptr, if_pos h30, if_pos hptr, Core.key_plain c (by omega) (by omega)]
    exact Writes.value_set_nil ..
  rw [if_neg hptr, if_pos h30, if_pos h30, if_neg hptr, Core.key_plain c (by omega) (by omega)]
  exact Writes.value_set_nil ..

/-- The registers a value moved into E code `e` may write. -/
theorem Core.mem_put {c : Core} {io : RoomIo} {e v : Nat} {how : Wrote} {w : Nat × Nat × Wrote} (h : w ∈ c.put io [] e v how) :
    e < 0x36 ∧ (w.1 = c.key e ∨ (e = 0x30 ∧ w.1 = limitKey (c.key 0x30))) := by
  have hset : ∀ {v how}, w ∈ Writes.set [] (c.key e) v how → w.1 = c.key e := fun h => (Writes.mem_set h).resolve_right (by simp)
  unfold Core.put at h
  dsimp only at h
  split at h
  · exact ⟨by omega, .inl (hset h)⟩
  split at h
  · exact ⟨by omega, .inl (hset h)⟩
  split at h
  · exact ⟨by omega, .inl (hset h)⟩
  split at h
  · exact ⟨by omega, .inl (hset h)⟩
  split at h
  · rcases Writes.mem_set h with hlimit | h
    · exact ⟨by decide, .inr ⟨rfl, hlimit⟩⟩
    · exact ⟨by decide, .inl (hset h)⟩
  · exact ⟨by decide, .inl (hset h)⟩
  · exact ⟨by decide, .inl (hset h)⟩
  · exact ⟨by decide, .inl (hset h)⟩
  · exact absurd h (by simp)

theorem Core.key_ne_sr (c : Core) {e : Nat} (h : e < 0x36) (hsr : e ≠ 0x30) : c.key e ≠ c.key 0x30 := by
  rw [Core.key_sr]
  by_cases hlow : e < 0x10
  · rw [Core.key_low c hlow]
    split <;> split <;> omega
  · rw [Core.key_plain c (by omega) hsr]
    split <;> omega

/-- Only a move into SR writes SR. -/
theorem Core.put_any_sr (c : Core) (io : RoomIo) (e v : Nat) (how : Wrote) :
    (c.put io [] e v how).any (fun w => w.1 == c.key 0x30) = decide (e = 0x30) := by
  by_cases he : e = 0x30
  · subst he
    have hput : c.put io [] 0x30 v how
        = [(c.key 0x30, setField (v % 64) 4 1 0, .ctl), (limitKey (c.key 0x30), field v 4 1, .ctl)] := by
      simp [Core.put, Writes.set]
    rw [hput]
    simp
  · rw [decide_eq_false he, List.any_eq_false]
    intro w hw
    obtain ⟨hlt, hkey | ⟨hsr, -⟩⟩ := Core.mem_put hw
    · simpa [hkey] using c.key_ne_sr hlt he
    · exact absurd hsr he

theorem Core.put_spares_iop {c : Core} {io : RoomIo} {e v : Nat} {how : Wrote} (he : e ≠ 0x32) {w : Nat × Nat × Wrote}
    (hw : w ∈ c.put io [] e v how) : w.1 ≠ 0x32 := by
  obtain ⟨hlt, hkey | ⟨-, hkey⟩⟩ := Core.mem_put hw
  · rw [hkey]
    by_cases hlow : e < 0x10
    · exact c.key_low_ne_iop hlow
    · by_cases hsr : e = 0x30
      · exact hsr ▸ c.iop_ne_sr.1
      · rwa [Core.key_plain c (by omega) hsr]
  · rw [hkey]
    exact c.iop_ne_sr.2

/-! One move into a register. -/

/-- The moves of an instruction that is one move of the value `v` into E code `e`: `upd` is the update of the load's pointer, `lim`
says whether the source was limited, `mbi` whether it was MBI. -/
structure Moved.Into (mv : Moved) (c : Core) (io : RoomIo) (upd : Option (Nat × Nat)) (e v : Nat) (lim mbi : Bool) : Prop where
  updates : mv.updates = upd.toList.map fun p => (p.1, p.2, Wrote.postUpdate)
  regs : ∃ how, mv.regs = c.put io [] e v how
  stores : mv.stores = []
  wins : mv.wins = []
  mbo : mv.mbo = if e = 0x34 then [v % 2 ^ 32] else []
  limited : mv.limited = lim
  mbiRead : mv.mbiRead = mbi

theorem Moved.take_into (c : Core) (io : RoomIo) (upd : Option (Nat × Nat)) (e v : Nat) (how : Wrote) (lim mbi : Bool) :
    (Moved.take { updates := upd.toList.map fun p => (p.1, p.2, Wrote.postUpdate), limited := lim, mbiRead := mbi } c io e v how).Into
      c io upd e v lim mbi where
  updates := rfl
  regs := ⟨how, rfl⟩
  stores := rfl
  wins := rfl
  mbo := rfl
  limited := rfl
  mbiRead := rfl

/-- The address of a move, and what its pointer takes. -/
def Core.operand (c : Core) (m : RoomMove) : Nat × Option Nat := match m.abs with | some x => (x, none) | none => c.address m.ptr m.mode

/-- What a load finds: a word of its memory, or the window's at position IOP. -/
def Room.loaded (rm : Room) (io : RoomIo) (m : RoomMove) : Nat :=
  if m.y = false ∧ 0x3F00 ≤ (rm.core.operand m).1 then rm.winRead io ((rm.core.operand m).1 - 0x3F00)
  else rm.core.memRead m.y (rm.core.operand m).1

/-- The update of a move's pointer, by its register. -/
def Core.pointerUpdate (c : Core) (m : RoomMove) : Option (Nat × Nat) := (c.operand m).2.map fun p => (0x10 + m.ptr, p)

/-- The moves so far with the update of a move's pointer. -/
def Moved.point (mv : Moved) (c : Core) (m : RoomMove) : Moved :=
  match (c.operand m).2 with
  | some v => { mv with updates := Writes.set mv.updates (0x10 + m.ptr) v .postUpdate }
  | none => mv

theorem Moved.add_load (mv : Moved) (rm : Room) (io : RoomIo) {m : RoomMove} (h : m.kind = 1) :
    mv.add rm io m = (mv.point rm.core m).take rm.core io m.reg (rm.loaded io m) .load := by
  have hwin : (!m.y && decide (0x3F00 ≤ (rm.core.operand m).1)) = true ↔ m.y = false ∧ 0x3F00 ≤ (rm.core.operand m).1 := by simp
  unfold Moved.add
  rw [if_neg (by omega)]
  dsimp only
  rw [if_pos h]
  exact congrArg (fun v => (mv.point rm.core m).take rm.core io m.reg v .load) (if_congr hwin rfl rfl)

theorem Moved.add_transfer (mv : Moved) (rm : Room) (io : RoomIo) {m : RoomMove} (h : m.kind = 3) :
    mv.add rm io m = (mv.from_ rm io m.src).1.take rm.core io m.reg (mv.from_ rm io m.src).2 .regMove := if_pos h

theorem Moved.point_nothing (c : Core) (m : RoomMove) :
    Moved.point {} c m = { updates := (c.pointerUpdate m).toList.map fun p => (p.1, p.2, Wrote.postUpdate) } := by
  unfold Moved.point Core.pointerUpdate
  cases (c.operand m).2 <;> rfl

theorem Moved.from_nothing (rm : Room) (io : RoomIo) (e : Nat) :
    Moved.from_ {} rm io e = ({ limited := (rm.source io e).2, mbiRead := e == 0x33 }, (rm.source io e).1) := by
  unfold Moved.from_
  simp

theorem Room.moves_load (rm : Room) (io : RoomIo) (x : RoomArith) {m : RoomMove} (l : Bool) (h : m.kind = 1) :
    (rm.moves io (.data x [m] l)).Into rm.core io (rm.core.pointerUpdate m) m.reg (rm.loaded io m) false false := by
  have hmoves : rm.moves io (.data x [m] l) = (Moved.point {} rm.core m).take rm.core io m.reg (rm.loaded io m) .load :=
    Moved.add_load {} rm io h
  rw [hmoves, Moved.point_nothing]
  exact Moved.take_into ..

theorem Room.moves_transfer (rm : Room) (io : RoomIo) (x : RoomArith) {m : RoomMove} (l : Bool) (h : m.kind = 3) :
    (rm.moves io (.data x [m] l)).Into rm.core io none m.reg (rm.source io m.src).1 (rm.source io m.src).2 (m.src == 0x33) := by
  have hmoves : rm.moves io (.data x [m] l)
      = (Moved.from_ {} rm io m.src).1.take rm.core io m.reg (Moved.from_ {} rm io m.src).2 .regMove := Moved.add_transfer {} rm io h
  rw [hmoves, Moved.from_nothing]
  exact Moved.take_into rm.core io none m.reg _ .regMove _ _

theorem Room.moves_ldi (rm : Room) (io : RoomIo) (e v : Nat) : (rm.moves io (.ldi e v)).Into rm.core io none e v false false :=
  Moved.take_into rm.core io none e v .load false false

theorem Room.moves_move (rm : Room) (io : RoomIo) (e src : Nat) :
    (rm.moves io (.move e src)).Into rm.core io none e (rm.source io src).1 (rm.source io src).2 (src == 0x33) := by
  have hmoves : rm.moves io (.move e src) = (Moved.from_ {} rm io src).1.take rm.core io e (Moved.from_ {} rm io src).2 .regMove := rfl
  rw [hmoves, Moved.from_nothing]
  exact Moved.take_into rm.core io none e _ .regMove _ _

/-- The update of a pointer, as a write. -/
theorem Writes.value_update (upd : Option (Nat × Nat)) (j old : Nat) :
    Writes.value (upd.toList.map fun p => (p.1, p.2, Wrote.postUpdate)) j old
      = ((upd.filter fun p => p.1 == j).map fun p => p.2).getD old := by
  cases upd with
  | none => rfl
  | some p =>
    by_cases hj : j = p.1
    · subst hj
      simp [Writes.value, Option.filter]
    · simp [Writes.value, hj, Option.filter, Ne.symm hj]

/-- What a register holds after one move into E code `e`. -/
theorem Moved.Into.value {mv : Moved} {c : Core} {io : RoomIo} {upd : Option (Nat × Nat)} {e v : Nat} {lim mbi : Bool}
    (h : mv.Into c io upd e v lim mbi) (j : Nat) :
    Writes.value (c.merge mv {} {}) j (c.raw j)
      = if lim = true ∧ e ≠ 0x30 ∧ j = limitKey (c.key 0x30) then 1
        else roomTaken c io.n e v j (((upd.filter fun p => p.1 == j).map fun p => p.2).getD (c.raw j)) := by
  obtain ⟨how, hregs⟩ := h.regs
  have hupd : Writes.value mv.updates j (c.raw j) = ((upd.filter fun p => p.1 == j).map fun p => p.2).getD (c.raw j) := by
    rw [h.updates, Writes.value_update]
  rw [Core.value_merge, hupd, hregs, Core.put_value]
  have hany := Core.put_any_sr c io e v how
  by_cases he : e = 0x30
  · rw [Core.flagWrites_of_sr c mv {} (by rw [hregs, hany, decide_eq_true he]), if_neg fun hlim => hlim.2.1 he]
    rfl
  · rw [Core.value_flagWrites c mv {} j _ (by rw [hregs, hany, decide_eq_false he])]
    simp only [h.limited, Option.isSome_none, Bool.false_eq_true, Option.any_none, or_false, ne_eq, he,
      not_false_eq_true, true_and, and_comm]
    rfl

theorem Moved.Into.spares_iop {mv : Moved} {c : Core} {io : RoomIo} {upd : Option (Nat × Nat)} {e v : Nat} {lim mbi : Bool}
    (h : mv.Into c io upd e v lim mbi) (he : e ≠ 0x32) (hupd : ∀ p ∈ upd, p.1 ≠ 0x32) :
    (c.merge mv {} {}).find? (fun w => w.1 == 0x32) = none := by
  obtain ⟨how, hregs⟩ := h.regs
  refine Core.merge_spares_iop (by decide) (by decide) (fun w hw => Core.put_spares_iop he (hregs ▸ hw)) fun w hw => ?_
  rw [h.updates] at hw
  obtain ⟨p, hp, rfl⟩ := List.mem_map.mp hw
  exact hupd p (Option.mem_toList.mp hp)

end Sys2Proof.Machine
end

section
/-! O49: a room's data moves, in the state. -/

namespace Sys2Proof.Machine

/-! The words for MBO (R286). -/

/-- A word for MBO reaches its entry, which is marked, and the event the room may ask for. -/
def State.mboxOut (s : State) (r w : Nat) : State :=
  let s := (s.wr (Reg.roomMboxOutWord r) w).wr (Reg.roomStatusMboNew r) 1
  if s.on (Reg.roomCtrlMboPost r) then s.post 0xA004 2 [r, w] else s

theorem State.roomDone_eq (s : State) (r : Nat) {rm : Room} (mbo : List Nat) (h : rm.waiting = false) :
    s.roomDone r rm mbo = (s.setRoom r rm).each mbo fun s w => s.mboxOut r w := by
  unfold State.roomDone
  rw [h]
  rfl

@[simp] theorem State.mboxOut_rooms (s : State) (r w : Nat) : (s.mboxOut r w).rooms = s.rooms := by
  unfold State.mboxOut
  dsimp only
  split
  · exact State.post_rooms ..
  · rfl

/-- MBO's entry of one of the rooms reads as the low 32 bits sent, and is marked new. -/
theorem State.mboxOut_reads (s : State) {r : Nat} (w : Nat) (hr : r < 32) :
    (s.mboxOut r w).rd (Reg.roomMboxOutWord r) = w % 2 ^ 32 ∧ (s.mboxOut r w).rd (Reg.roomStatusMboNew r) = 1 := by
  have hword : ((s.wr (Reg.roomMboxOutWord r) w).wr (Reg.roomStatusMboNew r) 1).rd (Reg.roomMboxOutWord r) = w % 2 ^ 32 :=
    (State.rd_wr_ne _ 1 (by show 0xA0000006 + r * 0x10000 ≠ 0xA0000003 + r * 0x10000; omega)).trans (State.rd_wr_same ..)
  have hnew : ((s.wr (Reg.roomMboxOutWord r) w).wr (Reg.roomStatusMboNew r) 1).rd (Reg.roomStatusMboNew r) = 1 :=
    State.rd_wr_same ..
  unfold State.mboxOut
  dsimp only
  split
  · have hpost := (OnlyLb.refl ((s.wr (Reg.roomMboxOutWord r) w).wr (Reg.roomStatusMboNew r) 1)).post 0xA004 2 [r, w]
    refine ⟨(hpost.rd fun hlb => ?_).trans hword, (hpost.rd fun hlb => ?_).trans hnew⟩
    · have hge : 0xD5400000 ≤ 0xA0000006 + r * 0x10000 := lbKeys_ge hlb
      omega
    · have hge : 0xD5400000 ≤ 0xA0000003 + r * 0x10000 := lbKeys_ge hlb
      omega
  · exact ⟨hword, hnew⟩

theorem State.room_of_rooms {s t : State} (h : t.rooms = s.rooms) (q : Nat) : t.room q = s.room q := by
  unfold State.room
  rw [h]

/-! One move into a register. -/

/-- The room after an instruction that is one move, and no arithmetic. -/
def Room.moved (rm : Room) (io : RoomIo) (i : RoomInstr) : Room :=
  (rm.retire io (rm.moves io i) (rm.core.merge (rm.moves io i) {} {})).1.next none none

theorem Room.moved_waiting {rm : Room} (io : RoomIo) (i : RoomInstr) (h : rm.waiting = false) : (rm.moved io i).waiting = false :=
  (Room.retire_waiting ..).trans h

theorem State.roomData_moved (s : State) (r : Nat) (i : RoomInstr) :
    s.roomData r i {} (fun _ => {}) = s.roomDone r ((s.room r).moved (s.roomIo r) i) ((s.room r).moves (s.roomIo r) i).mbo := rfl

/-- What the step of the program counter leaves of a room, its core. -/
theorem Room.moved_keeps (rm : Room) (io : RoomIo) (i : RoomInstr) :
    (∀ j, (rm.moved io i).core.raw j = Writes.value (rm.core.merge (rm.moves io i) {} {}) j (rm.core.raw j))
      ∧ (rm.moved io i).core.p = rm.core.p
      ∧ (rm.moved io i).core.x = (rm.retired io (rm.moves io i) (rm.core.merge (rm.moves io i) {} {})).x
      ∧ (rm.moved io i).core.y = (rm.retired io (rm.moves io i) (rm.core.merge (rm.moves io i) {} {})).y
      ∧ (rm.moved io i).core.mboxPend = (rm.core.mboxPend && !(rm.moves io i).mbiRead) := by
  obtain ⟨hregs, hp, hx, hy, hmb⟩ := Room.next_keeps (rm.retire io (rm.moves io i) (rm.core.merge (rm.moves io i) {} {})).1 none none
  obtain ⟨hraw, hkp, hkmb⟩ := Room.retired_keeps rm io (rm.moves io i) (rm.core.merge (rm.moves io i) {} {})
  have hcore := Room.retire_core rm io (rm.moves io i) (rm.core.merge (rm.moves io i) {} {})
  rw [hcore] at hregs hp hx hy hmb
  exact ⟨fun j => (congrArg (Sparse.get (fun _ => 0) · j) hregs).trans (hraw j), hp.trans hkp, hx, hy, hmb.trans hkmb⟩

theorem Room.moved_blocks (rm : Room) (io : RoomIo) (i : RoomInstr)
    (h : (rm.core.merge (rm.moves io i) {} {}).find? (fun w => w.1 == 0x32) = none) :
    (rm.moved io i).blocks = ((rm.moves io i).wins.foldl (fun rm w => rm.winWrite io w.1 w.2) rm).blocks := Room.retire_blocks rm io _ h

/-- The rows of the moves without arithmetic. -/
theorem exec_moves {r : Nat} {c : Instr} {op : RoomOp}
    (h : (c, op) ∈ [(Instr.parallelMove r, RoomOp.par), (.longMove r, .long), (.ldi r, .ldi), (.move r, .move)]) (s : State) :
    exec c s = .next (s.roomMove r op) := by
  revert h
  suffices hall : ∀ row ∈ (_ : List (Instr × RoomOp)), exec row.1 s = .next (s.roomMove r row.2) from fun h => hall _ h
  repeat refine List.forall_mem_cons.mpr ⟨rfl, ?_⟩
  exact List.forall_mem_nil _

theorem State.roomMove_of_ready {s : State} {r : Nat} {op : RoomOp} {i : RoomInstr} (h : s.roomReady r op = some i) :
    s.roomMove r op = s.roomData r i {} fun _ => {} := by
  unfold State.roomMove
  rw [h]

/-- A decoded move's pointer is one of the eight. -/
theorem State.ptr_of_ready {s : State} {r : Nat} {op : RoomOp} {x : RoomArith} {ms : List RoomMove} {l : Bool}
    (h : s.roomReady r op = some (.data x ms l)) {m : RoomMove} (hm : m ∈ ms) : m.ptr < 8 := by
  obtain ⟨⟨w, hw⟩, -⟩ := State.decoded_of_ready h
  exact (decodeRoom_data hw).2 m hm

/-- What an instruction with one move into E code `e` leaves (R303). -/
theorem State.move_into {s : State} {r e v : Nat} {lim mbi : Bool} {upd : Option (Nat × Nat)} {i : RoomInstr}
    (hwait : (s.room r).waiting = false)
    (hinto : ((s.room r).moves (s.roomIo r) i).Into (s.room r).core (s.roomIo r) upd e v lim mbi) (hupd : ∀ p ∈ upd, p.1 ≠ 0x32)
    {t : State} (ht : t = s.roomData r i {} fun _ => {}) :
    (∀ j, (t.room r).core.raw j = if lim = true ∧ e ≠ 0x30 ∧ j = limitKey ((s.room r).core.key 0x30) then 1
      else roomTaken (s.room r).core (s.blockLen r) e v j (((upd.filter fun p => p.1 == j).map fun p => p.2).getD
        ((s.room r).core.raw j)))
      ∧ (t.room r).core.p = (s.room r).core.p ∧ (t.room r).core.x = (s.room r).core.x ∧ (t.room r).core.y = (s.room r).core.y
      ∧ (t.room r).core.mboxPend = ((s.room r).core.mboxPend && !mbi) ∧ (e ≠ 0x32 → (t.room r).blocks = (s.room r).blocks)
      ∧ (∀ q ≠ r, t.room q = s.room q) ∧ (e ≠ 0x34 → t.regs = s.regs ∧ t.lb = s.lb)
      ∧ (e = 0x34 → r < 32 → t.rd (Reg.roomMboxOutWord r) = v % 2 ^ 32 ∧ t.rd (Reg.roomStatusMboNew r) = 1) := by
  have hdone : t = (s.setRoom r ((s.room r).moved (s.roomIo r) i)).each (if e = 0x34 then [v % 2 ^ 32] else []) fun s w =>
      s.mboxOut r w := by
    rw [ht, State.roomData_moved, State.roomDone_eq _ _ _ (Room.moved_waiting _ _ hwait), hinto.mbo]
  have hrooms : t.rooms = (s.setRoom r ((s.room r).moved (s.roomIo r) i)).rooms := by
    rw [hdone]
    exact State.each_keeps (P := fun u => u.rooms = _) rfl fun u w _ hu => (State.mboxOut_rooms u r w).trans hu
  have hroom : t.room r = (s.room r).moved (s.roomIo r) i :=
    (State.room_of_rooms hrooms r).trans (State.room_setRoom ..)
  have hother : ∀ q ≠ r, t.room q = s.room q := fun q hq =>
    (State.room_of_rooms hrooms q).trans (State.room_setRoom_ne s _ hq)
  obtain ⟨hraw, hp, hx, hy, hmb⟩ := Room.moved_keeps (s.room r) (s.roomIo r) i
  obtain ⟨hmx, hmy⟩ := Room.retired_memories (s.room r) (s.roomIo r)
    ((s.room r).core.merge ((s.room r).moves (s.roomIo r) i) {} {}) hinto.stores
  rw [hroom]
  refine ⟨fun j => (hraw j).trans (hinto.value j), hp, hx.trans hmx, hy.trans hmy, ?_, fun he => ?_, hother, fun he => ?_, fun he hr => ?_⟩
  · rw [hmb, hinto.mbiRead]
  · rw [Room.moved_blocks _ _ _ (hinto.spares_iop he hupd), hinto.wins]
    rfl
  · rw [hdone, if_neg he]
    exact ⟨rfl, rfl⟩
  · rw [hdone, if_pos he]
    have hreads := State.mboxOut_reads (s.setRoom r ((s.room r).moved (s.roomIo r) i)) (v % 2 ^ 32) hr
    rw [Nat.mod_mod] at hreads
    exact hreads

/-! A store. -/

/-- What an instruction with one store does: the source read, and the word for its place in the memory or in the window. -/
structure Moved.Stores (mv : Moved) (upd : Option (Nat × Nat)) (lim mbi : Bool) (stores : List (Bool × Nat × Nat))
    (wins : List (Nat × Nat)) : Prop where
  updates : mv.updates = upd.toList.map fun p => (p.1, p.2, Wrote.postUpdate)
  regs : mv.regs = []
  stores : mv.stores = stores
  wins : mv.wins = wins
  mbo : mv.mbo = []
  limited : mv.limited = lim
  mbiRead : mv.mbiRead = mbi

theorem Moved.add_store (mv : Moved) (rm : Room) (io : RoomIo) {m : RoomMove} (h : m.kind = 2) :
    mv.add rm io m =
      let r := (mv.point rm.core m).from_ rm io m.reg
      if !m.y && decide (0x3F00 ≤ (rm.core.operand m).1) then
        { r.1 with wins := r.1.wins ++ [((rm.core.operand m).1 - 0x3F00, r.2)] }
      else { r.1 with stores := r.1.stores ++ [(m.y, (rm.core.operand m).1, r.2)] } := by
  unfold Moved.add
  rw [if_neg (by omega)]
  dsimp only
  rw [if_neg (by omega)]
  rfl

theorem Room.moves_store (rm : Room) (io : RoomIo) (x : RoomArith) {m : RoomMove} (l : Bool) (h : m.kind = 2) :
    (m.y = true ∨ (rm.core.operand m).1 < 0x3F00 → (rm.moves io (.data x [m] l)).Stores (rm.core.pointerUpdate m)
        (rm.source io m.reg).2 (m.reg == 0x33) [(m.y, (rm.core.operand m).1, (rm.source io m.reg).1)] [])
      ∧ (m.y = false → 0x3F00 ≤ (rm.core.operand m).1 → (rm.moves io (.data x [m] l)).Stores (rm.core.pointerUpdate m)
        (rm.source io m.reg).2 (m.reg == 0x33) [] [((rm.core.operand m).1 - 0x3F00, (rm.source io m.reg).1)]) := by
  have hmoves : rm.moves io (.data x [m] l) = Moved.add {} rm io m := rfl
  rw [hmoves, Moved.add_store _ _ _ h, Moved.point_nothing]
  refine ⟨fun hmem => ?_, fun hx hwin => ?_⟩
  · rw [if_neg (by rcases hmem with hy | hlow
                   · simp [hy]
                   · simp [Nat.not_le.mpr hlow])]
    exact ⟨rfl, rfl, rfl, rfl, rfl, Bool.false_or _, Bool.false_or _⟩
  · rw [if_pos (by simp [hx, hwin])]
    exact ⟨rfl, rfl, rfl, rfl, rfl, Bool.false_or _, Bool.false_or _⟩

/-- What a register holds after one store. -/
theorem Moved.Stores.value {mv : Moved} {upd : Option (Nat × Nat)} {lim mbi : Bool} {stores : List (Bool × Nat × Nat)}
    {wins : List (Nat × Nat)} (h : mv.Stores upd lim mbi stores wins) (c : Core) (j : Nat) :
    Writes.value (c.merge mv {} {}) j (c.raw j)
      = if lim = true ∧ j = limitKey (c.key 0x30) then 1
        else ((upd.filter fun p => p.1 == j).map fun p => p.2).getD (c.raw j) := by
  have hupd : Writes.value mv.updates j (c.raw j) = ((upd.filter fun p => p.1 == j).map fun p => p.2).getD (c.raw j) := by
    rw [h.updates, Writes.value_update]
  rw [Core.value_merge, hupd, h.regs, Core.value_flagWrites c mv {} j _ (by rw [h.regs]; rfl)]
  simp only [h.limited, Option.isSome_none, Bool.false_eq_true, Option.any_none, or_false, and_comm]
  rfl

theorem Moved.Stores.spares_iop {mv : Moved} {upd : Option (Nat × Nat)} {lim mbi : Bool} {stores : List (Bool × Nat × Nat)}
    {wins : List (Nat × Nat)} (h : mv.Stores upd lim mbi stores wins) (c : Core) (hupd : ∀ p ∈ upd, p.1 ≠ 0x32) :
    (c.merge mv {} {}).find? (fun w => w.1 == 0x32) = none := by
  refine Core.merge_spares_iop (by decide) (by decide) (by simp [h.regs]) fun w hw => ?_
  rw [h.updates] at hw
  obtain ⟨p, hp, rfl⟩ := List.mem_map.mp hw
  exact hupd p (Option.mem_toList.mp hp)

end Sys2Proof.Machine
end

section
/-! O49: stores, window writes, and two loads beside arithmetic. -/

namespace Sys2Proof.Machine

theorem Core.memRaw_congr {c k : Core} (hx : k.x = c.x) (hy : k.y = c.y) (y : Bool) (a : Nat) : k.memRaw y a = c.memRaw y a := by
  unfold Core.memRaw
  rw [hx, hy]

/-- The memories after an instruction's one store. -/
theorem Room.retired_stored (rm : Room) (io : RoomIo) {mv : Moved} (ws : Writes) {y : Bool} {a v : Nat} (hstores : mv.stores = [(y, a, v)])
    (hwins : mv.wins = []) (y' : Bool) (x : Nat) :
    (rm.retired io mv ws).memRaw y' x = if y' = y ∧ x = a then v else rm.core.memRaw y' x := by
  obtain ⟨regs, hist, hwrites⟩ := Core.writes_eq ws rm.core
  have hbase : (rm.core.writes ws).memRaw y' x = rm.core.memRaw y' x := Core.memRaw_congr (by rw [hwrites]) (by rw [hwrites]) y' x
  have hstore : ((rm.core.writes ws).memWrite y a v).memRaw y' x = if y' = y ∧ x = a then v else rm.core.memRaw y' x := by
    rw [← hbase]
    exact Core.memRaw_memPut ..
  refine Eq.trans ?_ hstore
  unfold Room.retired
  rw [hstores, hwins]
  dsimp only [List.foldl_cons, List.foldl_nil]
  split
  · exact Core.memRaw_congr rfl rfl ..
  · rfl

/-- What an instruction with one store leaves but for its word. -/
theorem State.move_out {s : State} {r : Nat} {lim mbi : Bool} {upd : Option (Nat × Nat)} {stores : List (Bool × Nat × Nat)}
    {wins : List (Nat × Nat)} {i : RoomInstr} (hwait : (s.room r).waiting = false)
    (hout : ((s.room r).moves (s.roomIo r) i).Stores upd lim mbi stores wins)
    {t : State} (ht : t = s.roomData r i {} fun _ => {}) :
    t.room r = (s.room r).moved (s.roomIo r) i
      ∧ (∀ j, (t.room r).core.raw j = if lim = true ∧ j = limitKey ((s.room r).core.key 0x30) then 1
        else ((upd.filter fun p => p.1 == j).map fun p => p.2).getD ((s.room r).core.raw j))
      ∧ (t.room r).core.p = (s.room r).core.p ∧ (t.room r).core.mboxPend = ((s.room r).core.mboxPend && !mbi)
      ∧ (∀ q ≠ r, t.room q = s.room q) ∧ t.regs = s.regs ∧ t.lb = s.lb := by
  have hdone : t = s.setRoom r ((s.room r).moved (s.roomIo r) i) := by
    rw [ht, State.roomData_moved, State.roomDone_eq _ _ _ (Room.moved_waiting _ _ hwait), hout.mbo]
    rfl
  obtain ⟨hraw, hp, -, -, hmb⟩ := Room.moved_keeps (s.room r) (s.roomIo r) i
  subst hdone
  rw [State.room_setRoom]
  refine ⟨rfl, fun j => (hraw j).trans (hout.value _ j), hp, ?_, fun q hq => State.room_setRoom_ne s _ hq, rfl, rfl⟩
  rw [hmb, hout.mbiRead]

/-- A store of a word to a memory. -/
theorem State.store_word {s : State} {r : Nat} {x : RoomArith} {m : RoomMove} {l : Bool} (hk : m.kind = 2) (hptr : m.ptr < 8)
    (hmem : m.y = true ∨ ((s.room r).core.operand m).1 < 0x3F00) :
    (∀ y a, ((s.room r).moved (s.roomIo r) (.data x [m] l)).core.memRaw y a
        = if y = m.y ∧ a = ((s.room r).core.operand m).1 then ((s.room r).source (s.roomIo r) m.reg).1 else (s.room r).core.memRaw y a)
      ∧ ((s.room r).moved (s.roomIo r) (.data x [m] l)).blocks = (s.room r).blocks := by
  have hout := (Room.moves_store (s.room r) (s.roomIo r) x l hk).1 hmem
  obtain ⟨-, -, hx, hy, -⟩ := Room.moved_keeps (s.room r) (s.roomIo r) (.data x [m] l)
  refine ⟨fun y a => (Core.memRaw_congr hx hy y a).trans (Room.retired_stored _ _ _ hout.stores hout.wins y a), ?_⟩
  have hupd : ∀ p ∈ (s.room r).core.pointerUpdate m, p.1 ≠ 0x32 := fun p hp => by
    obtain ⟨-, -, rfl⟩ := Option.map_eq_some_iff.mp hp
    show 0x10 + m.ptr ≠ 0x32
    omega
  rw [Room.moved_blocks _ _ _ (hout.spares_iop _ hupd), hout.wins]
  rfl

/-- A store to the window. -/
theorem State.store_window {s : State} {r : Nat} {x : RoomArith} {m : RoomMove} {l : Bool} (hk : m.kind = 2) (hptr : m.ptr < 8)
    (hx : m.y = false) (hwin : 0x3F00 ≤ ((s.room r).core.operand m).1) :
    ((s.room r).moved (s.roomIo r) (.data x [m] l)).core.x = (s.room r).core.x
      ∧ ((s.room r).moved (s.roomIo r) (.data x [m] l)).core.y = (s.room r).core.y
      ∧ ((s.room r).moved (s.roomIo r) (.data x [m] l)).blocks
        = ((s.room r).winWrite (s.roomIo r) (((s.room r).core.operand m).1 - 0x3F00) ((s.room r).source (s.roomIo r) m.reg).1).blocks := by
  have hout := (Room.moves_store (s.room r) (s.roomIo r) x l hk).2 hx hwin
  obtain ⟨-, -, hkx, hky, -⟩ := Room.moved_keeps (s.room r) (s.roomIo r) (.data x [m] l)
  obtain ⟨hmx, hmy⟩ := Room.retired_memories (s.room r) (s.roomIo r)
    ((s.room r).core.merge ((s.room r).moves (s.roomIo r) (.data x [m] l)) {} {}) hout.stores
  refine ⟨hkx.trans hmx, hky.trans hmy, ?_⟩
  have hupd : ∀ p ∈ (s.room r).core.pointerUpdate m, p.1 ≠ 0x32 := fun p hp => by
    obtain ⟨-, -, rfl⟩ := Option.map_eq_some_iff.mp hp
    show 0x10 + m.ptr ≠ 0x32
    omega
  rw [Room.moved_blocks _ _ _ (hout.spares_iop _ hupd), hout.wins]
  rfl

/-! The window (R263, R265). -/

theorem find_onRan {f : Block → Block} (hf : ∀ b, (f b).ran = b.ran) :
    (l : List Block) → (onRan f l).find? (·.ran) = (l.find? (·.ran)).map f
  | [] => rfl
  | b :: l => by
    unfold onRan
    by_cases hb : b.ran = true
    · rw [if_pos hb, List.find?_cons_of_pos (by rw [hf, hb]), List.find?_cons_of_pos hb]
      rfl
    · rw [if_neg hb, List.find?_cons_of_neg hb, List.find?_cons_of_neg hb, find_onRan hf l]

/-- A block's record with a word at an output place. -/
def Block.withWord (key v : Nat) (b : Block) : Block := { b with vals := Sparse.put (fun _ => 0) b.vals key v }

theorem Room.winWrite_current {rm : Room} {io : RoomIo} {a v p : Nat} {b : Block} (hp : p = rm.core.read 0x32 .control)
    (hcur : rm.current = some b) (hblock : rm.block = true) (ha : 128 ≤ a) (hn : p < io.n) (hrel : b.released ≤ p) :
    (rm.winWrite io a v).current = some { b with vals := Sparse.put (fun _ => 0) b.vals (p * 128 + (a - 128)) v } := by
  subst hp
  unfold Room.winWrite
  rw [hcur]
  dsimp only
  rw [if_neg (by simp [hblock, Nat.not_lt.mpr ha, Nat.not_le.mpr hn, Nat.not_lt.mpr hrel])]
  exact (find_onRan (f := Block.withWord (rm.core.read 0x32 .control * 128 + (a - 128)) v) (fun _ => rfl) rm.blocks).trans
    (congrArg (Option.map _) hcur)

theorem Room.winWrite_nothing {rm : Room} {io : RoomIo} {a v p : Nat} {b : Block} (hp : p = rm.core.read 0x32 .control)
    (hcur : rm.current = some b) (h : rm.block = false ∨ a < 128 ∨ io.n ≤ p ∨ p < b.released) : rm.winWrite io a v = rm := by
  subst hp
  unfold Room.winWrite
  rw [hcur]
  refine if_pos ?_
  rcases h with h | h | h | h <;> simp [h]

/-! Two loads beside arithmetic (R278, R306). -/

theorem Core.put_low (c : Core) (io : RoomIo) (ws : Writes) {e : Nat} (v : Nat) (how : Wrote) (h : e < 8) :
    c.put io ws e v how = Writes.set ws (c.key e) v how := if_pos h

theorem Moved.point_keeps (mv : Moved) (c : Core) (m : RoomMove) : (mv.point c m).regs = mv.regs ∧ (mv.point c m).mbo = mv.mbo := by
  unfold Moved.point
  split
  · exact ⟨rfl, rfl⟩
  · exact ⟨rfl, rfl⟩

theorem Room.moves_two (rm : Room) (io : RoomIo) (x : RoomArith) (l : Bool) {m₁ m₂ : RoomMove} (h₁ : m₁.kind = 1) (h₂ : m₂.kind = 1)
    (hr₁ : m₁.reg < 8) (hr₂ : m₂.reg < 8) :
    (rm.moves io (.data x [m₁, m₂] l)).regs
        = Writes.set (Writes.set [] (rm.core.key m₁.reg) (rm.loaded io m₁) .load) (rm.core.key m₂.reg) (rm.loaded io m₂) .load
      ∧ (rm.moves io (.data x [m₁, m₂] l)).mbo = [] := by
  have hmoves : rm.moves io (.data x [m₁, m₂] l) = (Moved.add {} rm io m₁).add rm io m₂ := rfl
  rw [hmoves, Moved.add_load _ _ _ h₂, Moved.add_load _ _ _ h₁]
  unfold Moved.take
  dsimp only
  obtain ⟨hfirst, hbox⟩ := Moved.point_keeps {} rm.core m₁
  rw [(Moved.point_keeps _ rm.core m₂).1, (Moved.point_keeps _ rm.core m₂).2, hfirst, hbox]
  dsimp only
  rw [Core.put_low _ _ _ _ _ hr₁, Core.put_low _ _ _ _ _ hr₂, if_neg (by omega), if_neg (by omega)]
  exact ⟨rfl, rfl⟩

theorem Room.loaded_word {rm : Room} (io : RoomIo) {m : RoomMove} (habs : m.abs = none)
    (hmem : m.y = true ∨ (rm.core.address m.ptr m.mode).1 < 0x3F00) :
    rm.loaded io m = rm.core.memRead m.y (rm.core.address m.ptr m.mode).1 := by
  have hoperand : rm.core.operand m = rm.core.address m.ptr m.mode := by
    unfold Core.operand
    rw [habs]
  unfold Room.loaded
  rw [hoperand, if_neg]
  rintro ⟨hy, hwin⟩
  rcases hmem with h | h
  · exact absurd (hy.symm.trans h) (by decide)
  · exact absurd hwin (Nat.not_le.mpr h)

/-- Data registers and accumulators are not SR, nor its bit L. -/
theorem Core.key_low_ne_flags (c : Core) {e : Nat} (h : e < 0x10) : c.key e ≠ c.key 0x30 ∧ c.key e ≠ limitKey (c.key 0x30) := by
  rw [limitKey, Core.key_sr, Core.key_low c h]
  constructor <;> split <;> split <;> omega

theorem Core.key_inj_low (c : Core) {e d : Nat} (he : e < 8) (hd : d < 8 ∨ (8 ≤ d ∧ d < 10)) (hne : e ≠ d) : c.key e ≠ c.key d := by
  rw [Core.key_low c (by omega), Core.key_low c (by omega), if_pos he]
  split <;> split <;> omega

/-- Two loads into data registers beside an arithmetic instruction that gives no count. -/
theorem State.roomArith_two_loads {s : State} {r op : Nat} (f : ArithIn → ArithOut) {x : RoomArith} {m₁ m₂ : RoomMove} {l : Bool}
    (hready : s.roomReady r (.ar op) = some (.data x [m₁, m₂] l)) (hwait : (s.room r).waiting = false) (h₁ : m₁.kind = 1)
    (h₂ : m₂.kind = 1) (hr₁ : m₁.reg < 8) (hr₂ : m₂.reg < 8) (hcount : (f ((s.room r).core.arithIn x)).count = none) :
    ∃ rm : Room, s.roomArith r op f = s.setRoom r rm ∧ rm.core.raw ((s.room r).core.key m₂.reg) = (s.room r).loaded (s.roomIo r) m₂
      ∧ (m₁.reg ≠ m₂.reg → rm.core.raw ((s.room r).core.key m₁.reg) = (s.room r).loaded (s.roomIo r) m₁)
      ∧ ∀ w, (f ((s.room r).core.arithIn x)).acc = some w → rm.core.raw ((s.room r).core.key (8 + x.d)) = w := by
  obtain ⟨hop, hb, hd, -⟩ := State.arith_of_ready hready
  obtain ⟨hregs, hmbo⟩ := Room.moves_two (s.room r) (s.roomIo r) x l h₁ h₂ hr₁ hr₂
  refine ⟨_, (State.roomArith_of_ready f hready).trans (s.roomData_quiet r _ x f hwait hmbo), ?_⟩
  have hraw : ∀ j, (((s.room r).retire (s.roomIo r) ((s.room r).moves (s.roomIo r) (.data x [m₁, m₂] l)) ((s.room r).dataWrites
      (s.roomIo r) (.data x [m₁, m₂] l) x f)).1.next none none).core.raw j
      = Writes.value ((s.room r).core.merge ((s.room r).moves (s.roomIo r) (.data x [m₁, m₂] l)) x (f ((s.room r).core.arithIn x))) j
        ((s.room r).core.raw j) := fun j => by
    obtain ⟨hnregs, -⟩ := Room.next_keeps ((s.room r).retire (s.roomIo r) ((s.room r).moves (s.roomIo r) (.data x [m₁, m₂] l))
      ((s.room r).dataWrites (s.roomIo r) (.data x [m₁, m₂] l) x f)).1 none none
    rw [Room.retire_core] at hnregs
    refine (congrArg (Sparse.get (fun _ => 0) · j) hnregs).trans (((Room.retired_keeps ..).1 j).trans ?_)
    rw [Room.dataWrites, if_neg hop]
  have hk₁ := (s.room r).core.key_low_ne_flags (e := m₁.reg) (by omega)
  have hk₂ := (s.room r).core.key_low_ne_flags (e := m₂.reg) (by omega)
  have hka := (s.room r).core.key_low_ne_flags (e := 8 + x.d) (by omega)
  have hacc₁ := (s.room r).core.key_inj_low (d := 8 + x.d) hr₁ (by omega) (by omega)
  have hacc₂ := (s.room r).core.key_inj_low (d := 8 + x.d) hr₂ (by omega) (by omega)
  have hsr : ((s.room r).moves (s.roomIo r) (.data x [m₁, m₂] l)).regs.any (fun w => w.1 == (s.room r).core.key 0x30) = false := by
    rw [hregs, List.any_eq_false]
    intro w hw
    rcases Writes.mem_set hw with hkey | hw
    · simpa [hkey] using hk₂.1
    · rcases Writes.mem_set hw with hkey | hw
      · simpa [hkey] using hk₁.1
      · exact absurd hw (by simp)
  have hvalue : ∀ j, j ≠ (s.room r).core.key 0x30 → j ≠ limitKey ((s.room r).core.key 0x30) → ∀ old,
      Writes.value ((s.room r).core.merge ((s.room r).moves (s.roomIo r) (.data x [m₁, m₂] l)) x (f ((s.room r).core.arithIn x))) j old
        = if j = (s.room r).core.key (8 + x.d) ∧ (f ((s.room r).core.arithIn x)).acc.isSome = true
          then (f ((s.room r).core.arithIn x)).acc.getD 0
          else if j = (s.room r).core.key m₂.reg then (s.room r).loaded (s.roomIo r) m₂
          else if j = (s.room r).core.key m₁.reg then (s.room r).loaded (s.roomIo r) m₁
          else Writes.value ((s.room r).moves (s.roomIo r) (.data x [m₁, m₂] l)).updates j old := fun j hj hjl old => by
    rw [Core.value_merge, Core.value_flagWrites _ _ _ _ _ hsr, if_neg fun h => hj h.1, if_neg fun h => hjl h.1, Core.value_results,
      hcount, if_neg fun h => absurd h.2 (by decide), hregs, Writes.value_set, Writes.value_set]
    rfl
  refine ⟨?_, fun hne => ?_, fun w hw => ?_⟩
  · rw [hraw, hvalue _ hk₂.1 hk₂.2, if_neg fun h => hacc₂ h.1, if_pos rfl]
  · rw [hraw, hvalue _ hk₁.1 hk₁.2, if_neg fun h => hacc₁ h.1, if_neg ((s.room r).core.key_inj_low hr₁ (.inl hr₂) hne), if_pos rfl]
  · rw [hraw, hvalue _ hka.1 hka.2, hw]
    exact if_pos ⟨rfl, rfl⟩

end Sys2Proof.Machine
end

section
/-! O49: the rooms' data moves. -/

namespace Sys2Proof.Machine

/-- What the statement calls the address of a move is its operand. -/
theorem Core.operand_of {c : Core} {m : RoomMove} {a : Nat × Option Nat}
    (h : a = match m.abs with | some x => (x, none) | none => c.address m.ptr m.mode) : a = c.operand m := by
  rw [h]
  unfold Core.operand
  cases m.abs <;> rfl

theorem addresses_hold (c : Core) (ptr p : Nat) (n : Int) (to_ : Int → Nat) (hp : p = c.read (0x10 + ptr) .address)
    (hn : n = sext 15 (c.read (0x18 + ptr) .address))
    (hto : ∀ st, to_ st = stepPtr p (c.read (0x20 + ptr) .address) (c.read (0x28 + ptr) .address) st) :
    c.address ptr 0 = (p, none) ∧ c.address ptr 1 = (p, some (to_ 1)) ∧ c.address ptr 2 = (p, some (to_ (-1)))
      ∧ c.address ptr 3 = (p, some (to_ n)) ∧ c.address ptr 4 = (to_ n, none)
      ∧ (p < 16384 → ∃ q, c.address ptr 5 = (p, some q) ∧ q < 16384
        ∧ rev14 q = (rev14 p + rev14 (c.read (0x18 + ptr) .address % 16384)) % 16384) := by
  rw [hto, hto, hto, hn, hp]
  exact ⟨rfl, rfl, rfl, rfl, rfl, fun _ => ⟨_, rfl, rev14_lt _, rev14_rev14 (Nat.mod_lt _ (by decide))⟩⟩

/-- A move into a register, in each of its four forms, brings its value there. -/
theorem State.moves_into {s : State} {r e v : Nat} {op : RoomOp} {i : RoomInstr} {lim mbi : Bool} {upd : Option (Nat × Nat)}
    {rm : Room} {m : RoomMove} {long : Bool} {src imm : Nat} (hrm : rm = s.room r) (hready : s.roomReady r op = some i)
    (hform : (i = .data {} [m] long ∧ m.kind = 1 ∧ e = m.reg ∧ lim = false ∧ mbi = false
        ∧ (∀ a, a = (match m.abs with | some x => (x, none) | none => rm.core.address m.ptr m.mode) →
          v = (if m.y = false ∧ 0x3F00 ≤ a.1 then rm.winRead (s.roomIo r) (a.1 - 0x3F00) else rm.core.memRead m.y a.1)
          ∧ upd = a.2.map (fun p => (0x10 + m.ptr, p))))
      ∨ (i = .data {} [m] long ∧ m.kind = 3 ∧ e = m.reg ∧ (v, lim) = rm.source (s.roomIo r) m.src ∧ mbi = (m.src == 0x33) ∧ upd = none)
      ∨ (i = .ldi e imm ∧ v = imm ∧ lim = false ∧ mbi = false ∧ upd = none)
      ∨ (i = .move e src ∧ (v, lim) = rm.source (s.roomIo r) src ∧ mbi = (src == 0x33) ∧ upd = none)) :
    (rm.moves (s.roomIo r) i).Into rm.core (s.roomIo r) upd e v lim mbi ∧ ∀ p ∈ upd, p.1 ≠ 0x32 := by
  subst hrm
  rcases hform with ⟨rfl, hk, rfl, rfl, rfl, haddr⟩ | ⟨rfl, hk, rfl, hsrc, rfl, rfl⟩ | ⟨rfl, rfl, rfl, rfl, rfl⟩
      | ⟨rfl, hsrc, rfl, rfl⟩
  · obtain ⟨rfl, hupd⟩ := haddr _ (Core.operand_of rfl).symm
    have hptr : m.ptr < 8 := State.ptr_of_ready hready List.mem_cons_self
    obtain rfl : upd = (s.room r).core.pointerUpdate m := hupd
    refine ⟨Room.moves_load _ _ _ long hk, fun p hp => ?_⟩
    obtain ⟨-, -, rfl⟩ := Option.map_eq_some_iff.mp hp
    show 0x10 + m.ptr ≠ 0x32
    omega
  · obtain ⟨rfl, rfl⟩ := Prod.mk.inj hsrc
    exact ⟨Room.moves_transfer _ _ _ long hk, by simp⟩
  · exact ⟨Room.moves_ldi .., by simp⟩
  · obtain ⟨rfl, rfl⟩ := Prod.mk.inj hsrc
    exact ⟨Room.moves_move .., by simp⟩

/-- Settles O49. -/
theorem roomDataMoves : Obligations.RoomDataMoves := by
  unfold Obligations.RoomDataMoves
  refine ⟨⟨?_, ?_, addresses_hold⟩, ⟨?_, ?_, rfl, rfl, rfl, rfl, rfl, rfl, rfl, fun use => by cases use <;> rfl, rfl, rfl⟩, ?_, ⟨?_, ?_⟩, ?_⟩
  · exact fun p b l st => ⟨stepPtr_free p b st, fun hl => stepPtr_buffer p b st hl⟩
  · intro x i hi
    rw [bit_eq_testBit, bit_eq_testBit, testBit_rev14, decide_eq_true hi, Bool.true_and]
  · rintro c t key v d how use rfl
    exact Core.read_after_write c key v d how use
  · rintro c t y a v d - rfl
    exact Core.load_after_store c y a v d
  · intro s r e v c op i lim mbi upd rm m long src imm hrm hwait hready hrow hform
    obtain ⟨hinto, hupd⟩ := State.moves_into hrm hready hform
    subst hrm
    refine ⟨_, (exec_moves hrow s).trans (congrArg Host.Outcome.next (State.roomMove_of_ready hready)), ?_⟩
    rintro k rfl
    obtain ⟨hraw, hp, hx, hy, hmb, hblocks, hrest⟩ := State.move_into hwait hinto hupd rfl
    exact ⟨hraw, hp, hx, hy, hmb, hblocks, hrest⟩
  · intro s r v c op lim rm m long a hrm hwait hready hk hrow hsrc ha
    subst hrm
    obtain rfl := Core.operand_of ha
    obtain ⟨rfl, rfl⟩ := Prod.mk.inj hsrc
    have hptr : m.ptr < 8 := State.ptr_of_ready hready List.mem_cons_self
    have hmove : (c, op) ∈ [(Instr.parallelMove r, RoomOp.par), (.longMove r, .long), (.ldi r, .ldi), (.move r, .move)] :=
      List.mem_append_left _ hrow
    refine ⟨_, (exec_moves hmove s).trans (congrArg Host.Outcome.next (State.roomMove_of_ready hready)), ?_⟩
    rintro k rfl
    have hout : ∃ stores wins, ((s.room r).moves (s.roomIo r) (.data {} [m] long)).Stores ((s.room r).core.pointerUpdate m)
        ((s.room r).source (s.roomIo r) m.reg).2 (m.reg == 0x33) stores wins := by
      by_cases hmem : m.y = true ∨ ((s.room r).core.operand m).1 < 0x3F00
      · exact ⟨_, _, (Room.moves_store _ _ _ long hk).1 hmem⟩
      · obtain ⟨hy, hwin⟩ := not_or.mp hmem
        exact ⟨_, _, (Room.moves_store _ _ _ long hk).2 (Bool.not_eq_true _ ▸ hy) (Nat.not_lt.mp hwin)⟩
    obtain ⟨stores, wins, hout⟩ := hout
    obtain ⟨hroom, hraw, hp, hmb, hrest⟩ := State.move_out hwait hout rfl
    refine ⟨fun j => (hraw j).trans ?_, hp, ?_, ?_, hmb, hrest⟩
    · refine if_congr Iff.rfl rfl ?_
      unfold Core.pointerUpdate
      cases ((s.room r).core.operand m).2 with
      | none => rfl
      | some q =>
        by_cases hj : j = 0x10 + m.ptr
        · simp [hj, Option.filter]
        · simp [hj, Ne.symm hj, Option.filter]
    · rw [hroom]
      exact State.store_word hk hptr
    · rw [hroom]
      exact State.store_window hk hptr
  · exact fun rm io a v p b hp hcur => ⟨Room.winWrite_current hp hcur, Room.winWrite_nothing hp hcur⟩
  · intro s r op c f x m₁ m₂ long k hrow hready hwait hcore h₁ h₂ hr₁ hr₂ habs₁ habs₂ hcount a₁ a₂ ha₁ ha₂ hmem₁ hmem₂
    subst hcore ha₁ ha₂
    obtain ⟨rm, hrun, hsecond, hfirst, hacc⟩ := State.roomArith_two_loads f hready hwait h₁ h₂ hr₁ hr₂ hcount
    refine ⟨_, (ArithRows.runs hrow s).trans (congrArg Host.Outcome.next hrun), ?_⟩
    beta_reduce
    rw [State.room_setRoom]
    exact ⟨hsecond.trans (Room.loaded_word _ habs₂ hmem₂), fun hne => (hfirst hne).trans (Room.loaded_word _ habs₁ hmem₁), hacc⟩

end Sys2Proof.Machine
end

section
/-! O50: guarding. -/

namespace Sys2Proof.Machine

section
variable {s : State}

/-! Parity errors (R333, R336, R337). -/

/-- What a parity error in a core of the part does. -/
def State.parityHit (s : State) (c space addr flip : Nat) : State :=
  if (s.core c).service != 1 then s
  else
    match s.roomOfCore c, s.slotOfCore c with
    | some r, _ => s.parityRoom r space addr flip
    | none, some k => if (s.slot k).state = 4 then s.guestLeave k else s
    | none, none => s

theorem execParityError_eq (s : State) (c space addr flip : Nat) : exec (.parityError c space addr flip) s =
    .next (s.together fun s => if !s.fuse.hasRoom c then s else (s.bump Reg.supParityErrors 1).parityHit c space addr flip) := rfl

theorem parityError_of_core {c space addr flip : Nat} (h : s.fuse.hasRoom c = true) : exec (.parityError c space addr flip) s =
    .next (s.scatter ((s.gather.bump Reg.supParityErrors 1).parityHit c space addr flip)) := by
  have hgather : (!s.gather.fuse.hasRoom c) ≠ true := by
    show (!s.fuse.hasRoom c) ≠ true
    simp [h]
  rw [execParityError_eq]
  exact State.together_of (if_neg hgather)

theorem State.parityHit_room {u : State} {c r space addr flip : Nat} (hr : u.roomOfCore c = some r) (hs : (u.core c).service = 1) :
    u.parityHit c space addr flip = u.parityRoom r space addr flip := by
  unfold State.parityHit
  rw [if_neg (by simp [hs]), hr]

theorem State.parityHit_slot {u : State} {c k space addr flip : Nat} (hr : u.roomOfCore c = none) (hs : (u.core c).service = 1)
    (hk : u.slotOfCore c = some k) : u.parityHit c space addr flip = if (u.slot k).state = 4 then u.guestLeave k else u := by
  unfold State.parityHit
  rw [if_neg (by simp [hs]), hr, hk]

theorem State.parityHit_nothing {u : State} {c space addr flip : Nat}
    (h : (u.core c).service ≠ 1 ∨ (u.roomOfCore c = none ∧ u.slotOfCore c = none)) : u.parityHit c space addr flip = u := by
  unfold State.parityHit
  rcases h with hs | ⟨hr, hk⟩
  · exact if_pos (by simp [hs])
  · rw [hr, hk]
    exact ite_self u

/-- Outside a vote, and with no core promised to the room, its IN_STEP guest takes it over. -/
theorem State.parityRoom_guest {u : State} {r k space addr flip : Nat} (hnext : (u.guarded r).next = none)
    (hrestore : (u.room r).restoring = false) (hvote : u.guard.vote = none) (hstep : u.inStep r = some k) :
    u.parityRoom r space addr flip = u.takeover r k 4 := by
  unfold State.parityRoom
  rw [hnext, hrestore, hvote, hstep]
  rfl

/-! Votes, rotation and self-tests (R331, R332, R338 to R340). -/

theorem voteDone_ends {r agree : Nat} {v : Vote} (hv : s.guard.vote = some v) (hr : v.room = r) (ha : agree < 3) :
    exec (.voteDone r agree) s = .next (s.scatter (s.gather.voteEnd v agree)) := by
  refine State.together_of ?_
  have hgather : s.gather.guard.vote = some v := hv
  rw [hgather]
  exact if_pos (by simp [hr, ha])

theorem voteDone_nothing {r agree : Nat} (hv : s.guard.vote = none) : exec (.voteDone r agree) s = .next s := by
  refine State.together_stays_of ?_
  have hgather : s.gather.guard.vote = none := hv
  rw [hgather]

/-- What the rotation period does to one guest slot. -/
def State.rotateSlot (s : State) (k : Nat) : State :=
  if (s.slot k).state = 4 && s.on Reg.guestCfgRotateEn && 4096 ≤ (s.slot k).clean && s.guard.vote.isNone then
    s.setSlot k { s.slot k with swap := true }
  else if (s.slot k).state = 1 then
    match (s.slot k).core with
    | some c => (s.selftest c).setSlot k { s.slot k with state := 2 }
    | none => s
  else s

theorem execRotatePeriodExpiry_eq (s : State) :
    exec .rotatePeriodExpiry s = .next (s.together fun s => (s.rotateSlot 0).rotateSlot 1) := rfl

/-- A guest IN_STEP is marked where rotation is on, it has been clean long enough, and no vote runs; nothing else changes. -/
theorem State.rotateSlot_inStep {u : State} {k : Nat} (h : (u.slot k).state = 4) :
    u.rotateSlot k = u ∧ (u.on Reg.guestCfgRotateEn && decide (4096 ≤ (u.slot k).clean) && u.guard.vote.isNone) = false
    ∨ u.rotateSlot k = u.setSlot k { u.slot k with swap := true }
      ∧ (u.on Reg.guestCfgRotateEn && decide (4096 ≤ (u.slot k).clean) && u.guard.vote.isNone) = true := by
  unfold State.rotateSlot
  cases hgo : (u.on Reg.guestCfgRotateEn && decide (4096 ≤ (u.slot k).clean) && u.guard.vote.isNone)
  · refine .inl ⟨?_, rfl⟩
    rw [if_neg (by rw [Bool.and_assoc, Bool.and_assoc, ← Bool.and_assoc (u.on _), hgo]; simp), if_neg (by omega)]
  · refine .inr ⟨?_, rfl⟩
    rw [if_pos (by rw [Bool.and_assoc, Bool.and_assoc, ← Bool.and_assoc (u.on _), hgo]; simp [h])]

theorem State.rotateSlot_idle {u : State} {k a : Nat} (h : (u.slot k).state = 1) (ha : (u.slot k).core = some a) :
    u.rotateSlot k = (u.selftest a).setSlot k { u.slot k with state := 2 } := by
  unfold State.rotateSlot
  rw [if_neg (by simp [h]), if_pos h, ha]

/-- The mark that a rotation period leaves on a slot. -/
def State.swapMarked (s : State) (k : Nat) : Guest :=
  { s.slot k with
    swap := (s.slot k).swap || (s.on Reg.guestCfgRotateEn && decide (4096 ≤ (s.slot k).clean) && s.guard.vote.isNone) }

theorem State.rotateSlot_marks {u : State} {k : Nat} (h : (u.slot k).state = 4) :
    (u.rotateSlot k).slot k = u.swapMarked k ∧ (∀ j ≠ k, (u.rotateSlot k).slot j = u.slot j)
      ∧ (u.rotateSlot k).on Reg.guestCfgRotateEn = u.on Reg.guestCfgRotateEn ∧ (u.rotateSlot k).guard.vote = u.guard.vote := by
  unfold State.swapMarked
  rcases State.rotateSlot_inStep h with ⟨hrun, hgo⟩ | ⟨hrun, hgo⟩
  · rw [hrun, hgo, Bool.or_false]
    exact ⟨rfl, fun _ _ => rfl, rfl, rfl⟩
  · rw [hrun, hgo, Bool.or_true]
    exact ⟨State.slot_setSlot .., fun j hj => State.slot_setSlot_ne _ _ hj, rfl, rfl⟩

theorem scatter_slot (s t : State) (k : Nat) : (s.scatter t).slot k = t.slot k := by
  have honly := (OnlyLb.refl t).scatter s
  unfold State.slot
  rw [honly.guard, honly.fuse]

theorem rotate_marks_both (h : ∀ k < 2, (s.slot k).state = 4) :
    Completes .rotatePeriodExpiry s fun t => ∀ k < 2, t.slot k = s.swapMarked k := by
  refine ⟨_, execRotatePeriodExpiry_eq s, fun k hk => ?_⟩
  obtain ⟨hzero, hother, hon, hvote⟩ := State.rotateSlot_marks (u := s.gather) (h 0 (by decide))
  have hone : (s.gather.rotateSlot 0).slot 1 = s.slot 1 := hother 1 (by decide)
  obtain ⟨hfirst, hsecond, -⟩ := State.rotateSlot_marks (u := s.gather.rotateSlot 0) (k := 1) (by rw [hone]; exact h 1 (by decide))
  refine (scatter_slot ..).trans ?_
  match k, hk with
  | 0, _ => exact (hsecond 0 (by decide)).trans hzero
  | 1, _ =>
    refine hfirst.trans ?_
    unfold State.swapMarked
    rw [hone, hon, hvote]
    rfl

theorem rotate_tests_idle {a b : Nat} (h0 : (s.slot 0).state = 1) (h1 : (s.slot 1).state = 1) (ha : (s.slot 0).core = some a)
    (hb : (s.slot 1).core = some b) : exec .rotatePeriodExpiry s = .next (s.scatter ((((s.gather.selftest a).setSlot 0
      { s.slot 0 with state := 2 }).selftest b).setSlot 1 { s.slot 1 with state := 2 })) := by
  rw [execRotatePeriodExpiry_eq]
  refine State.together_of ?_
  rw [State.rotateSlot_idle (u := s.gather) h0 ha]
  have hone : ((s.gather.selftest a).setSlot 0 { s.gather.slot 0 with state := 2 }).slot 1 = s.slot 1 :=
    State.slot_setSlot_ne _ _ (by decide)
  rw [State.rotateSlot_idle (a := b) (by rw [hone]; exact h1) (by rw [hone]; exact hb), hone]
  rfl

/-- A core's self-test is counted and reported: back in service, or fenced. -/
def State.selftestNoted (s : State) (c : Nat) (pass back : Bool) : State :=
  State.post ((State.bumpIf (s.bump (if pass then Reg.supSelftestsPassed else Reg.supSelftestsFailed) 1)
    (!pass && !(s.core c).counted) Reg.supFences).setCore c
    (if back then {} else { service := 3, lost := (s.core c).lost, counted := true })) 0xB006
    (if pass then 4 else 6) [pack [(0, c), (5, b2n pass)]]

/-- A guest core that self-tested is IDLE, its memories what the test left there. -/
def State.slotTested (s : State) (c : Nat) : State :=
  match s.slotOfCore c with
  | some k =>
    if (s.slot k).state = 2 then
      { s.setSlot k { s.slot k with state := 1, own := {}, junk := some s.free } with free := s.free + 40960 }
    else s
  | none => s

theorem execSelftestDone_eq (s : State) (c : Nat) (pass : Bool) : exec (.selftestDone c pass) s = .next (s.together fun s =>
    if (s.core c).service != 2 || !s.fuse.hasRoom c then s
    else
      let back := pass && (!(s.core c).lost || (s.core c).rejoin || s.on Reg.guestCfgAutoRejoin)
      let u := (s.selftestNoted c pass back).slotTested c
      (if back then u.place c else u.displace c).refit.seekBoth) := rfl

theorem selftestDone_ends {c : Nat} {pass back : Bool} {u w : State} (hs : (s.core c).service = 2) (hc : s.fuse.hasRoom c = true)
    (hback : back = (pass && (!(s.core c).lost || (s.core c).rejoin || s.on Reg.guestCfgAutoRejoin)))
    (hu : u = s.gather.selftestNoted c pass back) (hnone : u.slotOfCore c = none → w = u)
    (hslot : ∀ k, u.slotOfCore c = some k → w = (if (u.slot k).state = 2 then
      { u.setSlot k { u.slot k with state := 1, own := {}, junk := some u.free } with free := u.free + 40960 } else u)) :
    exec (.selftestDone c pass) s = .next (s.scatter (if back then w.place c else w.displace c).refit.seekBoth) := by
  have hw : w = u.slotTested c := by
    unfold State.slotTested
    cases hk : u.slotOfCore c with
    | none => exact hnone hk
    | some k => exact hslot k hk
  have hgather : ¬((s.gather.core c).service != 2 || !s.gather.fuse.hasRoom c) = true := by
    show ¬((s.core c).service != 2 || !s.fuse.hasRoom c) = true
    simp [hs, hc]
  subst hw hu hback
  rw [execSelftestDone_eq]
  exact State.together_of (if_neg hgather)

theorem selftestDone_nothing {c : Nat} {pass : Bool} (h : (s.core c).service ≠ 2 ∨ s.fuse.hasRoom c = false) :
    exec (.selftestDone c pass) s = .next s := by
  have hgather : ((s.gather.core c).service != 2 || !s.gather.fuse.hasRoom c) = true := by
    show ((s.core c).service != 2 || !s.fuse.hasRoom c) = true
    rcases h with h | h <;> simp [h]
  rw [execSelftestDone_eq]
  exact State.together_stays_of (if_pos hgather)

end

end Sys2Proof.Machine
end

section
/-! O50: snapshots, restores, and the settings of guarding. -/

namespace Sys2Proof.Machine

section
variable {s : State}

/-! Snapshots (R335). -/

/-- Where a snapshot of a room may begin. -/
def State.snapDue (s : State) (r : Nat) : Bool :=
  s.isCold r && !s.fuse.isGuest r && s.fuse.hasRoom r && !(s.room r).restoring && (s.guarded r).snapTaking.isNone

/-- The snapshot period of a room whose snapshot is due. -/
def State.snapGo (s : State) (r : Nat) : State :=
  match s.snapPlace r with
  | none =>
    if (s.guarded r).snap.isSome || (s.guarded r).noRoom then s
    else (s.setGuarded r { s.guarded r with noRoom := true }).guardNote r false false
  | some s =>
    let s := s.setGuarded r { s.guarded r with noRoom := false }
    if (s.room r).block || (s.room r).waiting then s.setGuarded r { s.guarded r with snapWant := true } else s.snapBegin r

theorem execSnapshotPeriod_eq (s : State) (r : Nat) : exec (.snapshotPeriod r) s =
    .next (if !s.isCold r || s.fuse.isGuest r || !s.fuse.hasRoom r || (s.room r).restoring || (s.guarded r).snapTaking.isSome then s
      else s.snapGo r) := rfl

theorem snapshotPeriod_due {r : Nat} (hcold : s.isCold r = true) (hguest : s.fuse.isGuest r = false) (hroom : s.fuse.hasRoom r = true)
    (hrestore : (s.room r).restoring = false) (htaking : (s.guarded r).snapTaking = none) :
    exec (.snapshotPeriod r) s = .next (s.snapGo r) := by
  rw [execSnapshotPeriod_eq, if_neg (by simp [hcold, hguest, hroom, hrestore, htaking])]

theorem snapshotPeriod_nothing {r : Nat} (h : s.isCold r = false ∨ s.fuse.isGuest r = true ∨ (s.room r).restoring = true
    ∨ (s.guarded r).snapTaking ≠ none) : exec (.snapshotPeriod r) s = .next s := by
  rw [execSnapshotPeriod_eq, if_pos]
  rcases h with h | h | h | h
  · simp [h]
  · simp [h]
  · simp [h]
  · simp [Option.isSome_iff_ne_none.mpr h]

theorem State.snapGo_noRoom {r : Nat} (hplace : s.snapPlace r = none) (hsnap : (s.guarded r).snap = none)
    (hnoted : (s.guarded r).noRoom = false) :
    s.snapGo r = (s.setGuarded r { s.guarded r with noRoom := true }).guardNote r false false := by
  unfold State.snapGo
  rw [hplace]
  exact if_neg (by simp [hsnap, hnoted])

theorem State.snapGo_placed {r : Nat} {u w : State} (hplace : s.snapPlace r = some u)
    (hw : w = u.setGuarded r { u.guarded r with noRoom := false }) :
    s.snapGo r = if (w.room r).block || (w.room r).waiting then w.setGuarded r { w.guarded r with snapWant := true } else w.snapBegin r := by
  subst hw
  unfold State.snapGo
  rw [hplace]

/-- A snapshot that is complete replaces the older one. -/
def State.snapStored (s : State) (r : Nat) (x : Core × Nat) : State :=
  (s.setGuarded r { s.guarded r with
    snapTaking := none, snapOld := (s.guarded r).snap, snap := some x, bufs := (s.guarded r).bufs.reverse }).bump Reg.supSnapshots 1

theorem execSnapshotDone_eq (s : State) (r : Nat) : exec (.snapshotDone r) s = .next (s.together fun s =>
    match (s.guarded r).snapTaking with
    | none => s
    | some x => if (s.guarded r).snap.isNone then (s.snapStored r x).guardNote r false false else s.snapStored r x) := rfl

theorem snapshotDone_nothing {r : Nat} (h : (s.guarded r).snapTaking = none) : exec (.snapshotDone r) s = .next s := by
  have hgather : (s.gather.guarded r).snapTaking = none := h
  rw [execSnapshotDone_eq]
  exact State.together_stays_of (by rw [hgather])

theorem snapshotDone_ends {r : Nat} {x : Core × Nat} (h : (s.guarded r).snapTaking = some x) : exec (.snapshotDone r) s = .next (s.scatter
    (if (s.guarded r).snap.isNone then (s.gather.snapStored r x).guardNote r false false else s.gather.snapStored r x)) := by
  have hgather : (s.gather.guarded r).snapTaking = some x := h
  rw [execSnapshotDone_eq]
  exact State.together_of (by rw [hgather]; rfl)

/-! Restores (R336). -/

/-- The room as its snapshot has it, and its core bound and reported. -/
def State.restored (s : State) (r c f : Nat) (x : Core × Nat) : State :=
  let s := s.setRoom r { s.room r with
    core := { x.1.flush with mboxPend := (s.room r).core.mboxPend, mbi := (s.room r).core.mbi }
    restoring := false, mute := s.rd (Reg.roomCtrlStartMute r), blocks := [], outs := [], skips := 0 }
  let s := s.setGuarded r { s.guarded r with restore := none }
  let s := match s.slotOfCore c with
    | some k => (s.setSlot k { s.slot k with core := some f, state := 2 }).selftest f
    | none => s
  let s := (s.bind r c).bump Reg.supRestores 1
  (s.post 0xB008 6 [pack [(0, r), (5, c)], (s.rc - x.2) / 500000]).seekBoth

theorem execColdRestoreDone_eq (s : State) (r : Nat) : exec (.coldRestoreDone r) s = .next (s.together fun s =>
    match (s.guarded r).restore, (s.guarded r).snap, s.coreOf r with
    | some c, some x, some f => if c = 31 || (s.core c).service != 1 || !(s.room r).restoring then s else s.restored r c f x
    | _, _, _ => s) := rfl

theorem State.seek_eq (u : State) (k : Nat) : u.seek k = u ∨ ∃ g, u.seek k = u.setSlot k g := by
  unfold State.seek
  dsimp only
  split
  · split
    · split
      · exact .inr ⟨_, rfl⟩
      · exact .inl rfl
    · exact .inl rfl
  · exact .inl rfl

@[simp] theorem State.seek_rooms (u : State) (k : Nat) : (u.seek k).rooms = u.rooms := by
  rcases u.seek_eq k with h | ⟨g, h⟩
  · rw [h]
  · rw [h]
    rfl

@[simp] theorem State.seekBoth_rooms (u : State) : u.seekBoth.rooms = u.rooms := (State.seek_rooms _ 1).trans (State.seek_rooms u 0)

theorem State.restored_room (u : State) (r c f : Nat) (x : Core × Nat) : (u.restored r c f x).room r = { u.room r with
    core := { x.1.flush with mboxPend := (u.room r).core.mboxPend, mbi := (u.room r).core.mbi }
    restoring := false, mute := u.rd (Reg.roomCtrlStartMute r), blocks := [], outs := [], skips := 0 } := by
  refine (State.room_of_rooms ?_ r).trans (State.room_setRoom u r _)
  unfold State.restored
  dsimp only
  rw [State.seekBoth_rooms, State.post_rooms]
  split
  · rfl
  · rfl

theorem coldRestoreDone_ends {r c f : Nat} {x : Core × Nat} (hr : (s.guarded r).restore = some c) (hx : (s.guarded r).snap = some x)
    (hf : s.coreOf r = some f) (hc : c ≠ 31) (hs : (s.core c).service = 1) (hgo : (s.room r).restoring = true) :
    exec (.coldRestoreDone r) s = .next (s.scatter (s.gather.restored r c f x)) := by
  rw [execColdRestoreDone_eq]
  refine State.together_of ?_
  have hgr : (s.gather.guarded r).restore = some c := hr
  have hgx : (s.gather.guarded r).snap = some x := hx
  have hgf : s.gather.coreOf r = some f := hf
  have hgo : ¬(c = 31 || (s.core c).service != 1 || !(s.room r).restoring) = true := by simp [hc, hs, hgo]
  rw [hgr, hgx, hgf]
  exact if_neg hgo

theorem coldRestoreDone_nothing {r : Nat} (h : (s.guarded r).restore = none ∨ (s.room r).restoring = false) :
    exec (.coldRestoreDone r) s = .next s := by
  rw [execColdRestoreDone_eq]
  refine State.together_stays_of ?_
  rcases h with h | h
  · have hgather : (s.gather.guarded r).restore = none := h
    rw [hgather]
  · split
    · exact if_pos (by simp [h])
    · rfl

theorem scatter_room (s t : State) (r : Nat) : (s.scatter t).room r = t.room r :=
  State.room_of_rooms ((OnlyLb.refl t).scatter s).rooms r

/-! ROOM_GUARD clears COLD (R328). -/

/-- A room is not marked COLD. -/
def State.NotCold (u : State) (r : Nat) : Prop := (u.guarded r).cold = false

theorem State.NotCold.setGuarded {u : State} {r j : Nat} {x : Guarded} (h : u.NotCold r) (hx : j = r → x.cold = false) :
    (u.setGuarded j x).NotCold r := by
  unfold State.NotCold
  by_cases hj : r = j
  · subst hj
    rw [State.guarded_setGuarded]
    exact hx rfl
  · rw [State.guarded_setGuarded_ne _ _ hj]
    exact h

theorem State.NotCold.post {u : State} {r : Nat} (h : u.NotCold r) (code prio : Nat) (ws : List Nat) : (u.post code prio ws).NotCold r := by
  unfold State.NotCold State.guarded
  rw [State.post_guard]
  exact h

theorem State.NotCold.guardNote {u : State} {r : Nat} (h : u.NotCold r) (j : Nat) (parity soft : Bool) :
    (u.guardNote j parity soft).NotCold r := by
  have hposted : ∀ (p : Option Nat) (ws : List Nat),
      State.NotCold ((u.setGuarded j { u.guarded j with postedAt := p }).post 0xB007 4 ws) r := fun p ws =>
    State.NotCold.post (h.setGuarded fun hj => by subst hj; exact h) _ _ ws
  unfold State.guardNote
  dsimp only
  split
  · split
    · exact h
    · exact hposted _ _
  · split
    · exact h
    · exact hposted _ _

theorem State.NotCold.seek {u : State} {r : Nat} (h : u.NotCold r) (k : Nat) : (u.seek k).NotCold r := by
  rcases u.seek_eq k with heq | ⟨g, heq⟩
  · rw [heq]
    exact h
  · rw [heq]
    exact h

theorem State.NotCold.seekBoth {u : State} {r : Nat} (h : u.NotCold r) : u.seekBoth.NotCold r := (h.seek 0).seek 1

theorem State.NotCold.shadowEnd {u : State} {r : Nat} (h : u.NotCold r) (k : Nat) : (u.shadowEnd k).NotCold r := by
  unfold State.shadowEnd
  dsimp only
  split
  · exact h
  · next j _ =>
    have hslot : ∀ g, (u.setSlot k g).NotCold r := fun _ => h
    have hended : ∀ g : Guest, ∀ n, State.NotCold ((u.setSlot k g).setGuarded j { (u.setSlot k g).guarded j with lastShadow := n }) r :=
      fun g n => (hslot g).setGuarded fun hj => by subst hj; exact h
    have hcount : ∀ {v : State} (n : Nat), v.NotCold r → State.NotCold { v with guard := { v.guard with ended := n } } r :=
      fun _ h => h
    split
    · exact State.NotCold.guardNote (hcount _ (hended _ _)) _ _ _
    · exact hcount _ (hended _ _)

/-- A room whose guarding is set anew is not marked COLD; where it is not COLD now, its buffers are free (R328, R349). -/
def State.guardCleared (s : State) (r : Nat) : State :=
  let g := { s.guarded r with cold := false, overruns := [] }
  let s := s.setGuarded r g
  if s.isCold r then s else
    s.setGuarded r { g with bufs := [], noRoom := false, snap := none, snapOld := none, snapTaking := none, snapWant := false }

/-- A guest leaves a room that it may not shadow any more (R338). -/
def State.guestChecked (s : State) (r : Nat) : State :=
  match s.shadowOf r with
  | some k => if s.rd (Reg.roomGuardGuard r) = 1 then s else (s.shadowEnd k).seek k
  | none => s

theorem applyRoomGuard_eq (u : State) (r : Nat) (was2 : Bool) : applyRoomGuard u r was2 =
    State.seekBoth (if (u.setGuarded r { u.guarded r with cold := false, overruns := [] }).isCold r = (was2 || (u.guarded r).cold)
      then (u.guardCleared r).guestChecked r else ((u.guardCleared r).guestChecked r).guardNote r false false) := rfl

theorem applyRoomGuard_notCold (u : State) (r : Nat) (was2 : Bool) : (applyRoomGuard u r was2).NotCold r := by
  have hset : ∀ (v : State) (g : Guarded), g.cold = false → (v.setGuarded r g).NotCold r := fun v g hg =>
    (congrArg Guarded.cold (State.guarded_setGuarded v r g)).trans hg
  have hcleared : (u.guardCleared r).NotCold r := by
    unfold State.guardCleared
    dsimp only
    split
    · exact hset _ _ rfl
    · exact hset _ _ rfl
  have hchecked : ((u.guardCleared r).guestChecked r).NotCold r := by
    unfold State.guestChecked
    split
    · split
      · exact hcleared
      · exact (hcleared.shadowEnd _).seek _
    · exact hcleared
  rw [applyRoomGuard_eq]
  refine State.NotCold.seekBoth ?_
  split
  · exact hchecked
  · exact hchecked.guardNote ..

end

/-- Settles O50. -/
theorem guarding : Obligations.Guarding := by
  unfold Obligations.Guarding
  intro s c r space addr flip slot agree pass g h hg hgather
  subst hg hgather
  refine ⟨?_, ?_, ?_, ?_, ?_, voteDone_nothing, rotate_marks_both, fun a b => rotate_tests_idle, ?_, selftestDone_nothing,
    snapshotPeriod_nothing, ?_, snapshotDone_nothing, ?_, ?_, coldRestoreDone_nothing, ?_, ?_⟩
  · intro hc
    rw [execParityError_eq]
    refine State.together_stays_of (if_pos ?_)
    show (!s.fuse.hasRoom c) = true
    rw [hc]
    rfl
  · rintro hc u rfl
    refine ⟨fun hr hs => ⟨?_, fun k hnext hrestore hvote hstep => ?_⟩, fun hr hs k hk => ⟨fun h4 => ?_, fun h4 => ?_⟩, fun hout => ?_⟩
    · rw [parityError_of_core hc, State.parityHit_room hr hs]
    · rw [parityError_of_core hc, State.parityHit_room hr hs, State.parityRoom_guest hnext hrestore hvote hstep]
    · rw [parityError_of_core hc, State.parityHit_slot hr hs hk, if_pos h4]
    · rw [parityError_of_core hc, State.parityHit_slot hr hs hk, if_neg h4]
    · rw [parityError_of_core hc, State.parityHit_nothing hout]
  · intro hslot hstate hleft
    exact congrArg Host.Outcome.next (if_pos (by simp [hslot, hstate, hleft]))
  · intro hout
    refine congrArg Host.Outcome.next (if_neg ?_)
    rcases hout with h | h | h
    · simp [Nat.not_lt.mpr h]
    · simp [h]
    · simp [h]
  · exact fun v hv hr ha => voteDone_ends hv hr ha
  · exact fun hs hc back u w hback hu => selftestDone_ends hs hc hback hu
  · intro hcold hguest hroom hrestore htaking
    refine ⟨fun hplace hsnap hnoted => ?_, fun u w hplace hw => ⟨fun hblock hwait => ?_, fun hrun => ?_⟩⟩
    · rw [snapshotPeriod_due hcold hguest hroom hrestore htaking, State.snapGo_noRoom hplace hsnap hnoted]
    · rw [snapshotPeriod_due hcold hguest hroom hrestore htaking, State.snapGo_placed hplace hw, if_neg (by simp [hblock, hwait])]
    · rw [snapshotPeriod_due hcold hguest hroom hrestore htaking, State.snapGo_placed hplace hw,
        if_pos (by rcases hrun with h | h <;> simp [h])]
  · rintro x u hx rfl
    refine ⟨fun hnone => ?_, fun hsome => ?_⟩
    · rw [snapshotDone_ends hx, if_pos (by rw [hnone]; rfl)]
      rfl
    · rw [snapshotDone_ends hx, if_neg (by simpa using hsome)]
      rfl
  · intro x f hr hx hf hc hs hgo
    refine ⟨_, coldRestoreDone_ends hr hx hf hc hs hgo, ?_⟩
    beta_reduce
    rw [scatter_room, State.restored_room]
    exact ⟨rfl, rfl, rfl⟩
  · intro who v n k u w hk hacc hu hc hnone hslot
    have happly : ∀ m : Bool, (field n 0 4 == 1) = m →
        applyGuestCmd u n = (w.setCore c { w.core c with service := 2, rejoin := m }).seekBoth := fun m hm => by
      subst hm hc
      unfold applyGuestCmd
      dsimp only
      cases hj : u.slotOfCore (field n 8 5) with
      | none => rw [hnone hj]
      | some j => rw [hslot j hj]
    refine ⟨fun h1 => ?_, fun h2 => ?_⟩
    · have hone := happly true (beq_iff_eq.mpr h1)
      subst hk hu
      exact congrArg Host.Outcome.next ((hacc.setAs_stored (mine := fun n => field n 0 4 == 1) (beq_iff_eq.mpr h1) rfl rfl).trans
        (congrArg (fun t => State.say t .ok) hone))
    · have htwo := happly false (by rw [h2]; rfl)
      subst hk hu
      exact congrArg Host.Outcome.next ((hacc.setAs_stored (mine := fun n => field n 0 4 == 2) (beq_iff_eq.mpr h2) rfl rfl).trans
        (congrArg (fun t => State.say t .ok) htwo))
  · rintro who v n k u rfl hacc rfl
    exact ⟨congrArg Host.Outcome.next (hacc.setAs_stored (mine := fun _ => true) rfl rfl rfl), applyRoomGuard_notCold ..⟩

end Sys2Proof.Machine
end

section
/-! What the decision on the candidates may change of the dictionary, and what it leaves of the ports (R101 to R109, R114). -/

namespace Sys2Proof.Machine

/-- The entries that one decision on the candidates may change. -/
def SettleKey (k : Nat) : Prop := AdvKey k ∨ k ∈ refKeys ∨ k = Reg.histFreqFreq.key ∨ k = Reg.switchCountSwitches.key

theorem settleKey_of_lbKeys : ∀ k ∈ lbKeys, SettleKey k := fun k hk => .inl (advKey_of_lbKeys k hk)

theorem hearthStatus_refKey : Reg.hearthStatusState.key ∈ refKeys := List.mem_cons_self

theorem refStatus_refKey {c : Nat} (hc : c < 10) : (Reg.refStatusState c).key ∈ refKeys :=
  List.mem_cons_of_mem _ (List.mem_map.mpr ⟨c, List.mem_range.mpr hc, rfl⟩)

section
variable {s t : State}

/-- The status fields of one candidate that follow from the rest (R94, R101). -/
def State.refShow (s : State) (c : Nat) : State :=
  let s := (s.wr (Reg.refStatusRank c) (s.rank c)).wr (Reg.refStatusQlRaw c) (s.qlRaw c)
  (s.flag (Reg.refStatusEligible c) (s.eligible c)).flag (Reg.refStatusSelected c) (s.selected == c)

/-- The rank of a candidate tracked is kept (R96). -/
def State.rankKept (s : State) : State :=
  if s.selected < 10 && s.rd (Reg.refStatusState s.selected) == 4 then
    { s with hearth := { s.hearth with lastRank := s.rank s.selected } } else s

/-- The status fields of the Hearth that follow from the rest (R96, R103, R109). -/
def State.hearthShow (s : State) (c : Nat) : State :=
  let q := s.quality
  let s := (s.wr Reg.hearthStatusClassOut q.1).wr Reg.hearthStatusSsmOut q.2.2.2.2
  let s := s.flag Reg.hearthStatusBwClamped (c < 10 && (s.stages c).2)
  s.flag Reg.hearthStatusSwitchPending (s.rd Reg.hearthStatusState == 1 && (s.hearth.deferred ||
    (match s.autoTarget with | some t => t != some c | none => false)))

theorem State.refRefresh_eq (s : State) :
    s.refRefresh = (s.units 10 State.refShow).rankKept.hearthShow (s.units 10 State.refShow).selected := rfl

theorem Only.refShow {c : Nat} (hc : c < 10) (h : Only (· ∈ refKeys) s t) : Only (· ∈ refKeys) s (t.refShow c) :=
  .flag (.flag (.wr (.wr h (refStatus_refKey hc)) (refStatus_refKey hc)) (refStatus_refKey hc)) (refStatus_refKey hc)

theorem Only.rankKept {K : Nat → Prop} (h : Only K s t) : Only K s t.rankKept := .ite (.of_get h fun _ => rfl) h

theorem Only.hearthShow {K : Nat → Prop} {c : Nat} (hK : K Reg.hearthStatusState.key) (h : Only K s t) : Only K s (t.hearthShow c) :=
  .flag (.flag (.wr (.wr h hK) hK) hK) hK

theorem Only.refRefresh (h : Only (· ∈ refKeys) s t) : Only (· ∈ refKeys) s t.refRefresh := by
  rw [State.refRefresh_eq]
  exact .hearthShow hearthStatus_refKey (.rankKept (.units h fun u c hc hu => hu.refShow hc))

/-- What the refresh of the status fields leaves. -/
theorem State.refRefresh_only (s : State) : Only (· ∈ refKeys) s s.refRefresh := .refRefresh (.refl _ s)

theorem Only.settle (h : Only SettleKey s t) {u : State} (hu : Only AdvKey t u) : Only SettleKey s u :=
  h.trans (hu.mono fun _ hk => .inl hk)

theorem Only.refreshed (h : Only SettleKey s t) : Only SettleKey s t.refRefresh :=
  h.trans (t.refRefresh_only.mono fun _ hk => .inr (.inl hk))

theorem Only.histRefresh (h : Only SettleKey s t) : Only SettleKey s t.histRefresh := by
  unfold State.histRefresh
  exact .ite (.flag h (.inr (.inl hearthStatus_refKey))) (.wr (.flag h (.inr (.inl hearthStatus_refKey))) (.inr (.inr (.inl rfl))))

theorem Only.hearthGo {state cand : Nat} {step : Int} (h : Only SettleKey s t) : Only SettleKey s (t.hearthGo state cand step) := by
  unfold State.hearthGo
  extract_lets old oldC u src v w
  have hu : Only SettleKey s u := .wr (.wr h (.inr (.inl hearthStatus_refKey))) (.inr (.inl hearthStatus_refKey))
  have hv : Only SettleKey s v := .ite (.of_get hu fun _ => rfl) hu
  have hw : Only SettleKey s w := .ite hv.histRefresh hv
  exact .ite h (.post (.bump hw (.inr (.inr (.inr rfl)))) settleKey_of_lbKeys)

theorem Only.acquire {c : Nat} (h : Only SettleKey s t) : Only SettleKey s (t.acquire c) := by
  unfold State.acquire
  extract_lets u d v
  have hv : Only SettleKey s v := .hearthGo (.wr h (.inr (.inl hearthStatus_refKey)))
  exact (hv.of_get (u := v.setDpll { v.hearth.dpll with offset := v.hearth.dpll.offset + d }) fun _ => rfl).settle
    (.dpllFollow (.hearthStep (.refl _ _)))

theorem Only.holdover (h : Only SettleKey s t) : Only SettleKey s t.holdover := by
  unfold State.holdover
  extract_lets inSpec fell u
  have hu : Only SettleKey s u := .hearthGo (.flag h (.inr (.inl hearthStatus_refKey)))
  exact .ite h (.ite (.post hu settleKey_of_lbKeys) hu)

theorem Only.freeRun (h : Only SettleKey s t) : Only SettleKey s t.freeRun := by
  unfold State.freeRun
  exact .ite h (.hearthGo (.of_get h fun _ => rfl))

theorem Only.noRef (h : Only SettleKey s t) : Only SettleKey s t.noRef := by
  unfold State.noRef
  exact .ite h (.ite h.holdover h.freeRun)

theorem Only.fallBack (h : Only SettleKey s t) : Only SettleKey s t.fallBack := by
  unfold State.fallBack
  split
  · exact h.acquire
  · exact h.noRef

theorem Only.setChoice {waiting deferred : Bool} (h : Only SettleKey s t) : Only SettleKey s (t.setChoice waiting deferred) :=
  h.of_get fun _ => rfl

theorem Only.decideManual {other : State → State} (h : Only SettleKey s t)
    (hother : ∀ u, Only SettleKey s u → Only SettleKey s (other u)) : Only SettleKey s (t.decideManual other) := by
  unfold State.decideManual
  split
  · exact .ite (.ite h.setChoice h.setChoice.acquire) (hother _ h.setChoice)
  · exact hother _ h

theorem Only.select (h : Only SettleKey s t) : Only SettleKey s t.select := by
  unfold State.select
  split
  · split
    · exact .ite h.setChoice h
    · exact h
  · refine h.decideManual fun u hu => ?_
    split
    · exact .ite hu hu.acquire
    · exact hu.noRef
    · exact hu

theorem Only.selectedFailed (h : Only SettleKey s t) : Only SettleKey s t.selectedFailed := by
  unfold State.selectedFailed
  split
  · exact h
  · exact h
  · exact h.decideManual fun u hu => hu.fallBack

/-- What one decision on the candidates leaves. -/
theorem Only.settleRefs (h : Only SettleKey s t) : Only SettleKey s t.settleRefs := by
  unfold State.settleRefs
  exact .refreshed (.ite h.refreshed.selectedFailed h.refreshed.select)

/-- A candidate that takes the Hearth's own output reads not eligible once the status fields are renewed (R448). -/
theorem State.refRefresh_looped {c : Nat} (hc : c < 10) (hloop : ∀ u, Only (· ∈ refKeys) s u → u.looped c = true) :
    s.refRefresh.rd (Reg.refStatusEligible c) = 0 := by
  have hunits : ∀ n ≤ 10, Only (· ∈ refKeys) s (s.units n State.refShow)
      ∧ (c < n → (s.units n State.refShow).rd (Reg.refStatusEligible c) = 0) := fun n => by
    induction n with
    | zero => exact fun _ => ⟨.refl _ s, fun h => absurd h (Nat.not_lt_zero c)⟩
    | succ n ih =>
      intro hn
      obtain ⟨honly, hrest⟩ := ih (by omega)
      rw [State.units_succ]
      refine ⟨honly.refShow (by omega), fun hcn => ?_⟩
      generalize s.units n State.refShow = u at *
      by_cases hlast : c = n
      · subst hlast
        have hno : ∀ w : State, Only (· ∈ refKeys) s w → w.eligible c = false := fun w hw => by
          unfold State.eligible
          rw [hloop w hw, Bool.not_true, Bool.and_false]
        unfold State.refShow
        extract_lets w
        have hw : Only (· ∈ refKeys) s w := .wr (.wr honly (refStatus_refKey hc)) (refStatus_refKey hc)
        rw [hno w hw]
        exact (State.rd_wr_apart _ (f := Reg.refStatusSelected c) _ (.inr (Nat.le_of_ble_eq_true rfl))).trans (State.rd_wr_same ..)
      · have hown : Only (· = (Reg.refStatusState n).key) u (u.refShow n) := .flag (.flag (.wr (.wr (.refl _ u) rfl) rfl) rfl) rfl
        exact (hown.rd (f := Reg.refStatusEligible c) (by dsimp only; omega)).trans (hrest (by omega))
  obtain ⟨-, hzero⟩ := hunits 10 (Nat.le_refl 10)
  rw [State.refRefresh_eq]
  have hown : Only (· = Reg.hearthStatusState.key) (s.units 10 State.refShow)
      ((s.units 10 State.refShow).rankKept.hearthShow (s.units 10 State.refShow).selected) := .hearthShow rfl (.rankKept (.refl _ _))
  exact (hown.rd (f := Reg.refStatusEligible c) (by dsimp only; omega)).trans (hzero hc)

end

/-! The ports. -/

/-- The ports, and the dictionary from PTP's entries up to the Letterbox's counters, stay as they are. -/
structure PortQuiet (s t : State) : Prop where
  get : ∀ k, 0x20000000 ≤ k → k < 0xD5400000 → t.get k = s.get k
  ports : t.ports = s.ports

section
variable {s t u : State}

theorem PortQuiet.refl (s : State) : PortQuiet s s := ⟨fun _ _ _ => rfl, rfl⟩

theorem PortQuiet.wr {f : Fld} {n : Nat} (h : PortQuiet s t) (hf : f.key < 0x20000000) : PortQuiet s (t.wr f n) :=
  ⟨fun k hlo hhi => (State.get_wr_ne t n (by omega)).trans (h.get k hlo hhi), h.ports⟩

theorem PortQuiet.same (h : PortQuiet s t) (hget : ∀ k, u.get k = t.get k) (hports : u.ports = t.ports) : PortQuiet s u :=
  ⟨fun k hlo hhi => (hget k).trans (h.get k hlo hhi), hports.trans h.ports⟩

theorem PortQuiet.post {code prio : Nat} {l : List Nat} (h : PortQuiet s t) : PortQuiet s (t.post code prio l) :=
  ⟨fun k hlo hhi => ((t.post_only code prio l).regs k fun hk => absurd (lbKeys_ge hk) (by omega)).trans (h.get k hlo hhi),
    (t.post_only code prio l).ports.trans h.ports⟩

theorem PortQuiet.ite {c : Prop} [Decidable c] (ht : PortQuiet s t) (hu : PortQuiet s u) : PortQuiet s (if c then t else u) := by
  split
  · exact ht
  · exact hu

theorem PortQuiet.rd (h : PortQuiet s t) {f : Fld} (hlo : 0x20000000 ≤ f.key) (hhi : f.key < 0xD5400000) : t.rd f = s.rd f :=
  State.rd_congr (h.get _ hlo hhi)

theorem PortQuiet.abandon {failed : Bool} (h : PortQuiet s t) : PortQuiet s (t.abandon failed) :=
  .post (.same (h.wr (f := Reg.hearthCtrlManualRef) (by decide)) (fun _ => rfl) rfl)

theorem PortQuiet.refGo {c new timer : Nat} {cause : Option Nat} (hc : c < 10) (h : PortQuiet s t) :
    PortQuiet s (t.refGo c new cause timer) := by
  have hkey : 0x11000003 + c * 0x100 < 0x20000000 := by omega
  unfold State.refGo
  extract_lets old u w
  have hu : PortQuiet s u := (h.wr hkey).wr hkey
  have hw : PortQuiet s w := by
    unfold w
    split
    · exact hu.wr hkey
    · exact hu
  exact .ite hw hw.post

theorem PortQuiet.refFail {c cause : Nat} (hc : c < 10) (h : PortQuiet s t) : PortQuiet s (t.refFail c cause) := by
  unfold State.refFail
  extract_lets st u w
  have hu : PortQuiet s u := .ite h (h.wr (by dsimp only; omega))
  exact .ite h (.ite (hu.refGo hc).abandon (hu.refGo hc))

/-- Candidates that fail with their signals leave the ports alone. -/
theorem PortQuiet.signalFail (h : PortQuiet s t) : PortQuiet s t.signalFail :=
  State.units_keeps (P := PortQuiet s) h fun u c hc hu => .ite hu (.refFail hc
    (.wr (.same hu (fun _ => rfl) rfl) (by dsimp only; omega)))

end

end Sys2Proof.Machine
end

section
/-! O8: HEARTH_LOOP, and the entries of REGISTER_WRITE that act when they are set. -/

namespace Sys2Proof.Machine

section
variable {s u : State} {who : Role} {key a b n : Nat} {v : Val} {e : Ent}

/-- An entry without unit letters stands at its one key. -/
theorem State.Accepts.key_single {k : Nat} (h : s.Accepts who key v e a b n)
    (hdims : entTable.all (fun d => decide (d.ent ≠ e) || (decide (d.dims = []) && decide (d.key = k))) = true) : key = k := by
  obtain ⟨d, hentry, hent, -⟩ := State.entryAt_of_named h.entry
  obtain ⟨hmem, hloc⟩ := State.entryAt_mem hentry
  obtain ⟨hle, hmod, l, hl, -, -⟩ := splitDims_of_locate hloc
  have hd := List.all_eq_true.mp hdims d hmem
  simp only [hent, ne_eq, not_true_eq_false, decide_false, Bool.false_or, Bool.and_eq_true, decide_eq_true_eq] at hd
  obtain ⟨hnone, hkey⟩ := hd
  rw [hnone] at hl
  unfold splitDims at hl
  split at hl
  · omega
  · cases hl

/-- REGISTER_WRITE of an entry that the Hearth does not choose by. -/
theorem State.Accepts.registerWrite_stored (h : s.Accepts who key v e a b n) (hown : ownRow e = false) (hd : decides e = false)
    (hk : keeps e = true) : exec (.registerWrite who key v) s = .next (((s.takes key n).entApply e a b (s.get key) n v.raw).say .ok) :=
  (exec_registerWrite_of_named h.entry hown).trans (congrArg Host.Outcome.next (h.setAs_stored rfl hd hk))

/-- REGISTER_WRITE of one that it does choose by. -/
theorem State.Accepts.registerWrite_decides (h : s.Accepts who key v e a b n) (hown : ownRow e = false) (hd : decides e = true)
    (hk : keeps e = true) : exec (.registerWrite who key v) s =
      .next ((s.together fun w => ((w.takes key n).entApply e a b (s.get key) n v.raw).settleRefs).say .ok) :=
  (exec_registerWrite_of_named h.entry hown).trans (congrArg Host.Outcome.next (h.setAs_decides rfl hd hk))

theorem State.get_takes_ne {k : Nat} (hk : k ≠ key) : (s.takes key n).get k = s.get k := State.get_put_ne s _ hk

/-! HEARTH_LOOP (R105, R448). -/

theorem hearthLoop_quiet : ¬SettleKey Reg.hearthLoopLoop0.key := by
  rintro ((⟨v, h | h | h | h⟩ | h | h | ⟨j, h⟩ | h) | h | h | h)
  all_goals dsimp only at h
  · omega
  · omega
  · omega
  · omega
  · omega
  · omega
  · omega
  · revert h
    decide
  · revert h
    decide
  · omega
  · omega

/-- HEARTH_LOOP reads as sent after the decision that follows its SET, and a candidate that is looped reads not eligible. -/
theorem State.settleRefs_loops {w : State} (h0 : w.rd Reg.hearthLoopLoop0 = field n 0 1) (h1 : w.rd Reg.hearthLoopLoop1 = field n 1 1) :
    w.settleRefs.rd Reg.hearthLoopLoop0 = field n 0 1 ∧ w.settleRefs.rd Reg.hearthLoopLoop1 = field n 1 1
      ∧ (field n 0 1 = 1 → w.settleRefs.rd (Reg.refStatusEligible 4) = 0)
      ∧ (field n 1 1 = 1 → w.settleRefs.rd (Reg.refStatusEligible 5) = 0) := by
  obtain ⟨x, hlast, hx⟩ : ∃ x : State, w.settleRefs = x.refRefresh ∧ Only SettleKey w x :=
    ⟨_, rfl, .ite (Only.refl _ w).refreshed.selectedFailed (Only.refl _ w).refreshed.select⟩
  have hkeep : ∀ y, Only (· ∈ refKeys) x y → Only SettleKey w y := fun y hy => hx.trans (hy.mono fun _ hk => .inr (.inl hk))
  have hread : ∀ y, Only (· ∈ refKeys) x y → ∀ f : Fld, f.key = Reg.hearthLoopLoop0.key → y.rd f = w.rd f := fun y hy f hf =>
    (hkeep y hy).rd (hf ▸ hearthLoop_quiet)
  have hend := x.refRefresh_only
  rw [hlast]
  refine ⟨(hread _ hend _ rfl).trans h0, (hread _ hend Reg.hearthLoopLoop1 rfl).trans h1, fun hone => ?_, fun hone => ?_⟩
  · refine State.refRefresh_looped (by decide) fun y hy => ?_
    have hon : y.on Reg.hearthLoopLoop0 = true := by
      rw [State.on_iff, hread y hy _ rfl, h0, hone]
      decide
    unfold State.looped
    rw [hon]
    rfl
  · refine State.refRefresh_looped (by decide) fun y hy => ?_
    have hon : y.on Reg.hearthLoopLoop1 = true := by
      rw [State.on_iff, hread y hy Reg.hearthLoopLoop1 rfl, h1, hone]
      decide
    unfold State.looped
    rw [hon]
    rfl

theorem State.Accepts.takes_hearthLoop (h : s.Accepts who Reg.hearthLoopLoop0.key v .hearthLoop a b n) (w : State) :
    (w.takes Reg.hearthLoopLoop0.key n).rd Reg.hearthLoopLoop0 = field n 0 1
      ∧ (w.takes Reg.hearthLoopLoop0.key n).rd Reg.hearthLoopLoop1 = field n 1 1 := by
  obtain ⟨d, hentry, hent, -⟩ := State.entryAt_of_named h.entry
  have hloc := (State.entryAt_mem hentry).2
  obtain rfl := desc_of_locate (x := ⟨.hearthLoop, 0xE1000001, [], .u8, 1, 1, 4, 2, 0, [.any 0 1 .rw 0, .any 1 1 .rw 0, .any 2 6 .rsv 0]⟩)
    hloc (by decide +kernel) hent
  exact ⟨State.rd_takes hloc (f := .any 0 1 .rw 0) List.mem_cons_self Nat.one_pos,
    State.rd_takes hloc (f := .any 1 1 .rw 0) (List.mem_cons_of_mem _ List.mem_cons_self) Nat.one_pos⟩

/-! DPLL_CFG (R117). -/

/-- A slew that goes on from where it stands. -/
def Slew.again (e : Slew) (m x : Nat) : Slew := if e.err = 0 then e else { err := e.left m x, at_ := x }

/-- What it has still to go is what it had. -/
theorem Slew.left_again (e : Slew) (m m' x : Nat) : (e.again m x).left m' x = e.left m x := by
  unfold Slew.again
  by_cases h0 : e.err = 0
  · rw [if_pos h0]
    unfold Slew.left
    simp [h0]
  · rw [if_neg h0]
    generalize e.left m x = y
    unfold Slew.left
    simp only [Nat.sub_self, Nat.zero_mul, Nat.zero_div, Nat.sub_zero]
    split <;> omega

theorem Slew.again_done {e : Slew} (h : e.err = 0) (m x : Nat) : e.again m x = e := if_pos h

theorem applyDpllCfg_eq (u : State) (old : Nat) : applyDpllCfg u old = State.refRefresh (State.units (State.units u 3 fun s o =>
    if (s.outSlew o).err = 0 then s else s.setOutSlew o ((s.outSlew o).again (field old 14 10) (4 * u.rc))) 96 fun s k =>
    if (Sparse.get (fun _ => ({} : TdmSide)) s.tdm.sides k).slew.err = 0 then s
    else s.setSideSlew k ((Sparse.get (fun _ => ({} : TdmSide)) s.tdm.sides k).slew.again (field old 14 10) (4 * u.rc))) := rfl

theorem State.outSlew_setOutSlew (w : State) (o : Nat) (e : Slew) (j : Nat) :
    (w.setOutSlew o e).outSlew j = if j = o then e else w.outSlew j := by
  by_cases hj : j = o
  · subst hj
    rw [if_pos rfl]
    exact Sparse.get_put_same _ _ _ _
  · rw [if_neg hj]
    exact Sparse.get_put_ne _ _ _ hj

/-- The slews and RC are of no status field. -/
theorem State.refRefresh_slews (w : State) : w.refRefresh.hearth.slews = w.hearth.slews ∧ w.refRefresh.rc = w.rc := by
  obtain ⟨hslews, hrc⟩ : (w.units 10 State.refShow).hearth.slews = w.hearth.slews ∧ (w.units 10 State.refShow).rc = w.rc :=
    State.units_keeps (P := fun y => y.hearth.slews = w.hearth.slews ∧ y.rc = w.rc) ⟨rfl, rfl⟩ fun _ _ _ hy => hy
  have hkept : ∀ y : State, y.rankKept.hearth.slews = y.hearth.slews ∧ y.rankKept.rc = y.rc := fun y => by
    unfold State.rankKept
    split <;> exact ⟨rfl, rfl⟩
  rw [State.refRefresh_eq]
  exact ⟨(hkept _).1.trans hslews, (hkept _).2.trans hrc⟩

/-- Every slewing output goes on from where it stands, and nothing else but the slewing flags and the status fields changes. -/
theorem applyDpllCfg_result (u : State) (old : Nat) :
    (applyDpllCfg u old).rc = u.rc
      ∧ (∀ o < 3, (applyDpllCfg u old).outSlew o = (u.outSlew o).again (field old 14 10) (4 * u.rc))
      ∧ Only (fun k => k = Reg.outSlewStatusTdm.key ∨ (∃ p side, k = (Reg.sideStatusSlewing p side).key) ∨ k ∈ refKeys) u
        (applyDpllCfg u old) := by
  rw [applyDpllCfg_eq]
  generalize hm : field old 14 10 = m
  have houts : ∀ i ≤ 3, ∀ w, w = (State.units u i fun s o =>
      if (s.outSlew o).err = 0 then s else s.setOutSlew o ((s.outSlew o).again m (4 * u.rc))) →
      w.rc = u.rc ∧ (∀ o, w.outSlew o = if o < i then (u.outSlew o).again m (4 * u.rc) else u.outSlew o)
        ∧ Only (fun k => k = Reg.outSlewStatusTdm.key ∨ (∃ p side, k = (Reg.sideStatusSlewing p side).key) ∨ k ∈ refKeys) u w := by
    intro i
    induction i with
    | zero =>
      rintro - w rfl
      exact ⟨rfl, fun o => (if_neg (Nat.not_lt_zero o)).symm, .refl _ _⟩
    | succ i ih =>
      rintro hi w rfl
      rw [State.units_succ]
      obtain ⟨hrc, hslew, honly⟩ := ih (by omega) _ rfl
      generalize State.units u i _ = y at *
      have hlast : y.outSlew i = u.outSlew i := (hslew i).trans (if_neg (Nat.lt_irrefl i))
      split
      next hdone =>
        refine ⟨hrc, fun o => (hslew o).trans ?_, honly⟩
        by_cases ho : o = i
        · subst ho
          rw [if_neg (Nat.lt_irrefl o), if_pos (Nat.lt_succ_self o), Slew.again_done (hlast ▸ hdone)]
        · exact if_congr (by omega) rfl rfl
      next hgoes =>
        refine ⟨hrc, fun o => ?_, .flag (.of_get honly fun _ => rfl) (.inl ?_)⟩
        · rw [State.outSlew_setOutSlew, hlast, hslew]
          by_cases ho : o = i
          · subst ho
            rw [if_pos rfl, if_pos (Nat.lt_succ_self o)]
          · rw [if_neg ho]
            exact if_congr (by omega) rfl rfl
        · unfold slewFlag
          split <;> rfl
  obtain ⟨hrc, hslew, honly⟩ := houts 3 (Nat.le_refl 3) _ rfl
  generalize State.units u 3 _ = y at *
  obtain ⟨hrc', hslews', honly'⟩ := State.units_keeps (n := 96) (s := y)
    (f := fun s k => if (Sparse.get (fun _ => ({} : TdmSide)) s.tdm.sides k).slew.err = 0 then s
      else s.setSideSlew k ((Sparse.get (fun _ => ({} : TdmSide)) s.tdm.sides k).slew.again m (4 * u.rc)))
    (P := fun z => z.rc = u.rc ∧ z.hearth.slews = y.hearth.slews ∧ Only (fun k => k = Reg.outSlewStatusTdm.key
      ∨ (∃ p side, k = (Reg.sideStatusSlewing p side).key) ∨ k ∈ refKeys) u z) ⟨hrc, rfl, honly⟩ fun z k _ hz => by
    obtain ⟨hzrc, hzslews, hzonly⟩ := hz
    split
    · exact ⟨hzrc, hzslews, hzonly⟩
    · exact ⟨hzrc, hzslews, .flag (.flag (.of_get hzonly fun _ => rfl) (.inr (.inl ⟨_, _, rfl⟩))) (.inl rfl)⟩
  generalize State.units y 96 _ = z at *
  obtain ⟨hslews, hrc''⟩ := z.refRefresh_slews
  refine ⟨hrc''.trans hrc', fun o ho => ?_, honly'.trans (z.refRefresh_only.mono fun _ hk => .inr (.inr hk))⟩
  have hsame : z.refRefresh.outSlew o = y.outSlew o := by
    unfold State.outSlew
    rw [hslews, hslews']
  exact hsame.trans ((hslew o).trans (if_pos ho))

/-! HOLDOVER_CFG (R110). -/

/-- HIST_VALID and HIST_FREQ follow the span that the settings now select. -/
theorem State.histRefresh_result (u : State) :
    u.histRefresh.refRefresh.rd Reg.hearthStatusHistValid = b2n (decide (10 ≤ u.histSpan.length))
      ∧ u.histRefresh.refRefresh.rd Reg.histFreqFreq = (if u.rd Reg.hearthStatusState = 3 ∨ u.histSpan = [] then u.rd Reg.histFreqFreq
        else ofInt 32 (u.histSpan.sum / (u.histSpan.length : Int)))
      ∧ Only (fun k => k = Reg.histFreqFreq.key ∨ k ∈ refKeys) u u.histRefresh.refRefresh := by
  have hfreqKey : Reg.histFreqFreq.key ∉ refKeys := by decide
  have hvalid : ∀ y : State, y.refRefresh.rd Reg.hearthStatusHistValid = y.rd Reg.hearthStatusHistValid := fun y => by
    obtain ⟨c, hunits⟩ : ∃ c, y.refRefresh = (y.units 10 State.refShow).rankKept.hearthShow c := ⟨_, y.refRefresh_eq⟩
    have hshow : Only (fun k => ∃ c < 10, k = (Reg.refStatusState c).key) y (y.units 10 State.refShow).rankKept :=
      .rankKept (.units (.refl _ y) fun z j hj hz => .flag (.flag (.wr (.wr hz ⟨j, hj, rfl⟩) ⟨j, hj, rfl⟩) ⟨j, hj, rfl⟩) ⟨j, hj, rfl⟩)
    have hkey : ¬∃ c < 10, Reg.hearthStatusHistValid.key = (Reg.refStatusState c).key := by
      rintro ⟨c, -, h⟩
      dsimp only at h
      omega
    rw [hunits, ← hshow.rd hkey]
    unfold State.hearthShow State.flag
    refine (State.rd_wr_apart _ (f := Reg.hearthStatusSwitchPending) _ (.inl (by decide))).trans ?_
    refine (State.rd_wr_apart _ (f := Reg.hearthStatusBwClamped) _ (.inl (by decide))).trans ?_
    refine (State.rd_wr_apart _ (f := Reg.hearthStatusSsmOut) _ (.inl (by decide))).trans ?_
    exact State.rd_wr_apart _ (f := Reg.hearthStatusClassOut) _ (.inl (by decide))
  have hfreq : ∀ y : State, y.refRefresh.rd Reg.histFreqFreq = y.rd Reg.histFreqFreq := fun y => y.refRefresh_only.rd hfreqKey
  rw [hvalid, hfreq]
  have hstate : (u.flag Reg.hearthStatusHistValid (decide (10 ≤ u.histSpan.length))).rd Reg.hearthStatusState
      = u.rd Reg.hearthStatusState := State.rd_wr_apart _ _ (.inl (by decide))
  have hflag : (u.flag Reg.hearthStatusHistValid (decide (10 ≤ u.histSpan.length))).rd Reg.hearthStatusHistValid
      = b2n (decide (10 ≤ u.histSpan.length)) := State.rd_flag_same _ _ _ (by decide)
  have hold : (u.flag Reg.hearthStatusHistValid (decide (10 ≤ u.histSpan.length))).rd Reg.histFreqFreq = u.rd Reg.histFreqFreq :=
    State.rd_wr_ne _ _ (by decide)
  have hflagged : Only (fun k => k = Reg.histFreqFreq.key ∨ k ∈ refKeys) u
      (u.flag Reg.hearthStatusHistValid (decide (10 ≤ u.histSpan.length))) := .flag (.refl _ u) (.inr hearthStatus_refKey)
  have hend : ∀ y : State, Only (fun k => k = Reg.histFreqFreq.key ∨ k ∈ refKeys) u y →
      Only (fun k => k = Reg.histFreqFreq.key ∨ k ∈ refKeys) u y.refRefresh := fun y hy =>
    hy.trans (y.refRefresh_only.mono fun _ hk => .inr hk)
  unfold State.histRefresh
  extract_lets l w
  by_cases hstays : w.rd Reg.hearthStatusState = 3 || l.isEmpty
  · rw [if_pos hstays]
    refine ⟨hflag, hold.trans (if_pos ?_).symm, hend w hflagged⟩
    simpa [w, l, hstate] using hstays
  · rw [if_neg hstays]
    refine ⟨(State.rd_wr_ne _ _ (by decide)).trans hflag, ?_, hend _ (.wr hflagged (.inl rfl))⟩
    rw [State.rd_wr_same, if_neg (by simpa [w, l, hstate] using hstays)]
    exact Nat.mod_eq_of_lt (ofInt_lt _)

end

end Sys2Proof.Machine
end

section
/-! O8: the pins, the ports and the streams. -/

namespace Sys2Proof.Machine

section
variable {s u : State} {a : Nat}

/-- The four modes of an event output pin (R86). -/
theorem applyTrigOutCfg_eq {m : Nat} (hm : m = u.rd (Reg.trigOutCfgMode a)) : applyTrigOutCfg u a =
    if m = 0 then u.setOut a {} else if m = 3 then u.setOut a { active := true }
    else if m = 1 then (if (u.out a).pulse = true then u else u.setOut a {}) else u.setOut a { u.out a with pulse := false } := by
  unfold applyTrigOutCfg
  rw [← hm]
  split
  · rfl
  · rfl
  · rfl
  · next h0 h1 h3 => rw [if_neg h0, if_neg h3, if_neg h1]

/-! Port M (R142, R147). -/

/-- A link that the port itself turns leaves what is queued on port M as the link's change left it, and its status reads as given. -/
theorem State.linkGo_status {up full : Bool} {speed : Nat} (hspeed : speed < 4) :
    (u.linkGo 2 up speed full).linkUp 2 = up ∧ (u.linkGo 2 up speed full).rd (Reg.portStatusSpeed 2) = speed
      ∧ (u.linkGo 2 up speed full).on (Reg.portStatusFullDuplex 2) = full
      ∧ (u.linkGo 2 up speed full).ports = (u.setLink 2 up speed full).ports := by
  obtain ⟨hlink, hrate, hfull⟩ := u.setLink_status (p := 2) (up := up) (full := full) (by decide) hspeed
  have hquiet : PortQuiet (u.setLink 2 up speed full) (u.linkGo 2 up speed full) := by
    unfold State.linkGo
    exact .ite (.refl _) (PortQuiet.signalFail (.refl _))
  have hrd : ∀ f : Fld, f.key = (Reg.portStatusLink 2).key → (u.linkGo 2 up speed full).rd f = (u.setLink 2 up speed full).rd f :=
    fun f hf => hquiet.rd (by rw [hf]; decide) (by rw [hf]; decide)
  exact ⟨(State.on_congr (hrd _ rfl)).trans hlink, (hrd (Reg.portStatusSpeed 2) rfl).trans hrate,
    (State.on_congr (hrd (Reg.portStatusFullDuplex 2) rfl)).trans hfull, hquiet.ports⟩

theorem State.port_of_ports {t : State} (h : t.ports = s.ports) (p : Nat) : t.port p = s.port p := by
  unfold State.port
  rw [h]

/-- A link of port M that is down, or goes down, leaves nothing queued where nothing was. -/
theorem State.setLink_empty {full : Bool} {speed : Nat} (hq : (u.port 2).queues = []) (hw : (u.port 2).wire = none) :
    ((u.setLink 2 false speed full).port 2).queues = [] ∧ ((u.setLink 2 false speed full).port 2).wire = none := by
  by_cases hup : u.linkUp 2 = false
  · rcases State.setLink_unchanged (speed := speed) (full := full) hup with h | h
    · rw [h]
      exact ⟨hq, hw⟩
    · rw [h]
      exact ⟨hq, hw⟩
  · have hport : (u.setLink 2 false speed full).port 2 = (((u.linkShown 2 false speed full).linkTurned 2 false).port 2) := by
      rw [State.setLink_changed hup]
      exact State.port_of_ports (State.post_only _ _ _ _).ports 2
    rw [hport, State.linkTurned, if_neg (by decide), State.dropQueues_eq, State.port_setPort]
    exact ⟨rfl, rfl⟩

/-- Port M disabled: its link is down and nothing is queued. -/
theorem applyMCfg_disabled {old : Nat} (hoff : u.portEnabled 2 = false) (hold : bit old 0 = true) :
    (applyMCfg u old).linkUp 2 = false ∧ ((applyMCfg u old).port 2).queues = [] ∧ ((applyMCfg u old).port 2).wire = none := by
  have hdrop : applyMCfg u old = (u.dropQueues 2).linkOwn 2 := congrArg (State.linkOwn · 2) (if_pos (by simp [hoff, hold]))
  have henabled : (u.dropQueues 2).portEnabled 2 = false := by
    rw [State.dropQueues_eq]
    refine Eq.trans ?_ hoff
    exact State.on_congr (State.rd_congr (f := Reg.mCfgEnable) (State.get_bump_ne u _ (f := Reg.portTxLinkDrop 2) (by decide)))
  have hempty : ((u.dropQueues 2).port 2).queues = [] ∧ ((u.dropQueues 2).port 2).wire = none := by
    rw [State.dropQueues_eq, State.port_setPort]
    exact ⟨rfl, rfl⟩
  generalize u.dropQueues 2 = w at *
  have hown : w.linkOwn 2 = w.linkLost 2 := if_pos (by unfold State.portRuns; simp [henabled])
  obtain ⟨hlink, -, -, hports⟩ := w.linkGo_status (up := false) (speed := w.rd (Reg.portStatusSpeed 2))
    (full := w.on (Reg.portStatusFullDuplex 2)) (w.rd_lt (Reg.portStatusSpeed 2))
  obtain ⟨hqueues, hwire⟩ := State.setLink_empty (speed := w.rd (Reg.portStatusSpeed 2)) (full := w.on (Reg.portStatusFullDuplex 2))
    hempty.1 hempty.2
  rw [hdrop, hown]
  unfold State.linkLost
  rw [State.port_of_ports hports]
  exact ⟨hlink, hqueues, hwire⟩

/-- Port M running with IN_BAND 0: its link is up as its settings say. -/
theorem applyMCfg_up {old : Nat} (hruns : u.portRuns 2 = true) (hloop : u.rd (Reg.portLoopMode 2) = 0)
    (hband : u.on Reg.mCfgInBand = false) : (applyMCfg u old).linkUp 2 = true
      ∧ (applyMCfg u old).rd (Reg.portStatusSpeed 2) = u.rd Reg.mCfgSpeed
      ∧ (applyMCfg u old).on (Reg.portStatusFullDuplex 2) = u.on Reg.mCfgDuplex := by
  have henabled : u.portEnabled 2 = true := by
    unfold State.portRuns at hruns
    simp only [Bool.and_eq_true] at hruns
    exact hruns.1.1
  have hstay : applyMCfg u old = u.linkOwn 2 := congrArg (State.linkOwn · 2) (if_neg (by simp [henabled]))
  have hown : u.linkOwn 2 = u.linkGo 2 true (u.rd Reg.mCfgSpeed) (u.on Reg.mCfgDuplex) :=
    (if_neg (by simp [hruns, hloop])).trans ((if_pos rfl).trans (if_pos (by simp [hband])))
  obtain ⟨hlink, hrate, hfull, -⟩ := u.linkGo_status (up := true) (speed := u.rd Reg.mCfgSpeed) (full := u.on Reg.mCfgDuplex)
    (u.rd_lt Reg.mCfgSpeed)
  rw [hstay, hown]
  exact ⟨hlink, hrate, hfull⟩

/-! Pauses (R143, R158). -/

/-- PAUSED tells whether a queue is paused by the classes as they are now. -/
theorem State.pauseStatus_paused (u : State) (p : Nat) :
    (u.pauseStatus p).on (Reg.portStatusPaused p) = (List.range (queueCount p)).any (u.queuePaused p) := by
  have hpauses : ∀ c, (u.pauseSettle p).pause p c = u.pause p c := fun c => by
    unfold State.pause State.pauseSettle
    rw [State.port_setPort]
  have hclass : ∀ q, (u.pauseSettle p).rd (Reg.txqPfcClassClass p q) = u.rd (Reg.txqPfcClassClass p q) := fun q =>
    State.rd_congr (State.get_bump_ne u _ (f := Reg.portTxPauseTime p) (by dsimp only; omega))
  have hqueue : (u.pauseSettle p).queuePaused p = u.queuePaused p := funext fun q => by
    unfold State.queuePaused State.pauseHolds
    rw [hpauses, hpauses, hclass]
  have hflag : (u.pauseStatus p).on (Reg.portStatusPaused p)
      = (List.range (queueCount p)).any ((u.pauseSettle p).queuePaused p) := by
    unfold State.pauseStatus
    extract_lets w now v
    have hset : (w.flag (Reg.portStatusPaused p) now).on (Reg.portStatusPaused p) = now := State.on_flag_same _ _ _ Nat.one_pos
    have hview : (v.setPort p { v.port p with pausedSince := if now then some v.rc else none }).on (Reg.portStatusPaused p)
        = v.on (Reg.portStatusPaused p) := State.on_congr (State.setPort_rd ..)
    rw [hview]
    exact (State.on_wr_apart _ _ (.inl (Nat.le_of_ble_eq_true rfl))).trans hset
  rw [hflag, hqueue]

end

end Sys2Proof.Machine
end

section
/-! O8: the acting writes. -/

namespace Sys2Proof.Machine

section
variable {s u : State} {who : Role} {key a b n : Nat} {v : Val}

theorem hearthLoop_set (h : s.Accepts who Reg.hearthLoopLoop0.key v .hearthLoop 0 0 n) :
    exec (.hearthLoopSet who v) s = .next ((s.together fun u => (u.takes Reg.hearthLoopLoop0.key n).settleRefs).say .ok)
      ∧ Completes (.hearthLoopSet who v) s fun t =>
        t.rd Reg.hearthLoopLoop0 = field n 0 1 ∧ t.rd Reg.hearthLoopLoop1 = field n 1 1
        ∧ (field n 0 1 = 1 → t.rd (Reg.refStatusEligible 4) = 0) ∧ (field n 1 1 = 1 → t.rd (Reg.refStatusEligible 5) = 0) := by
  have hexec : exec (.hearthLoopSet who v) s
      = .next ((s.together fun u => (u.takes Reg.hearthLoopLoop0.key n).settleRefs).say .ok) :=
    congrArg Host.Outcome.next (h.setAs_decides (mine := fun _ => true) rfl rfl rfl)
  obtain ⟨htakes0, htakes1⟩ := h.takes_hearthLoop s.gather
  obtain ⟨h0, h1, h4, h5⟩ := State.settleRefs_loops htakes0 htakes1
  generalize hw : (s.gather.takes Reg.hearthLoopLoop0.key n).settleRefs = w at *
  have hscatter : ∀ f : Fld, f.key ∉ lbKeys → ((s.scatter w).say .ok).rd f = w.rd f := fun f hf =>
    ((OnlyLb.refl w).scatter s).rd hf
  refine ⟨hexec, (s.scatter w).say .ok, hexec.trans (congrArg (fun t => Host.Outcome.next ((s.scatter t).say .ok)) hw), ?_⟩
  beta_reduce
  rw [hscatter _ (by decide), hscatter Reg.hearthLoopLoop1 (by decide), hscatter (Reg.refStatusEligible 4) (by decide),
    hscatter (Reg.refStatusEligible 5) (by decide)]
  exact ⟨h0, h1, h4, h5⟩

theorem dpllCfg_write (hu : u = s.takes key n) (h : s.Accepts who key v .dpllCfg a b n) :
    Completes (.registerWrite who key v) s fun t =>
      t.get key = u.get key ∧ t.rc = s.rc
      ∧ (∀ o < 3, (t.outSlew o).left t.slewMax (4 * t.rc) = (s.outSlew o).left s.slewMax (4 * s.rc))
      ∧ ∀ k, k ≠ key → k ≠ Reg.outSlewStatusTdm.key → (∀ p side, k ≠ (Reg.sideStatusSlewing p side).key) → k ∉ refKeys →
        t.get k = s.get k := by
  have hkey : key = Reg.dpllCfgSlewMax.key := h.key_single (by decide +kernel)
  have hexec : exec (.registerWrite who key v) s = .next ((applyDpllCfg u (s.get key)).say .ok) :=
    (h.registerWrite_stored rfl rfl rfl).trans (by rw [hu]; rfl)
  obtain ⟨hrc, hslew, honly⟩ := applyDpllCfg_result u (s.get key)
  have hurc : u.rc = s.rc := by rw [hu]; rfl
  have huslew : ∀ o, u.outSlew o = s.outSlew o := fun o => by rw [hu]; rfl
  have hmax : field (s.get key) 14 10 = s.slewMax := by rw [hkey]; rfl
  generalize applyDpllCfg u (s.get key) = w at *
  refine ⟨_, hexec, honly _ ?_, hrc.trans hurc, fun o ho => ?_, fun k hk hout hside href => ?_⟩
  · rw [hkey]
    rintro (h | ⟨p, side, h⟩ | h)
    · exact absurd h (by decide)
    · dsimp only at h
      omega
    · exact absurd h (by decide)
  · have hleft := Slew.left_again (s.outSlew o) s.slewMax w.slewMax (4 * s.rc)
    show (w.outSlew o).left w.slewMax (4 * w.rc) = _
    rw [hslew o ho, hrc, hurc, huslew, hmax]
    exact hleft
  · refine (honly k ?_).trans (hu ▸ State.get_takes_ne hk)
    rintro (h | ⟨p, side, h⟩ | h)
    · exact hout h
    · exact hside p side h
    · exact href h

theorem holdoverCfg_write (hu : u = s.takes key n) (h : s.Accepts who key v .holdoverCfg a b n) {l : List Int} (hl : l = u.histSpan) :
    Completes (.registerWrite who key v) s fun t =>
      t.get key = u.get key ∧ t.rd Reg.hearthStatusHistValid = b2n (decide (10 ≤ l.length))
      ∧ t.rd Reg.histFreqFreq = (if s.rd Reg.hearthStatusState = 3 ∨ l = [] then s.rd Reg.histFreqFreq
          else ofInt 32 (l.sum / (l.length : Int)))
      ∧ ∀ k, k ≠ key → k ≠ Reg.histFreqFreq.key → k ∉ refKeys → t.get k = s.get k := by
  have hkey : key = Reg.holdoverCfgGuard.key := h.key_single (by decide +kernel)
  have hexec : exec (.registerWrite who key v) s = .next (u.histRefresh.refRefresh.say .ok) :=
    (h.registerWrite_stored rfl rfl rfl).trans (by rw [hu]; rfl)
  have hrd : ∀ f : Fld, f.key ≠ key → u.rd f = s.rd f := fun f hf => State.rd_congr (hu ▸ State.get_takes_ne hf)
  obtain ⟨hvalid, hfreq, honly⟩ := u.histRefresh_result
  rw [hrd _ (by rw [hkey]; decide), hrd Reg.histFreqFreq (by rw [hkey]; decide)] at hfreq
  subst hl
  generalize u.histRefresh.refRefresh = w at *
  refine ⟨_, hexec, honly _ ?_, hvalid, hfreq, fun k hk hfk href => ?_⟩
  · rw [hkey]
    decide
  · refine (honly k ?_).trans (hu ▸ State.get_takes_ne hk)
    rintro (h | h)
    · exact hfk h
    · exact href h

theorem slackTarget_write (hu : u = s.takes key n) (h : s.Accepts who key v .slackTarget a b n) :
    exec (.registerWrite who key v) s = .next (State.say (
      if s.get key = n ∨ u.on Reg.vidStatusSettling = false then u
      else { u with volt := { u.volt with kept := some (u.vidKept .slackTarget (s.get key)) } }) .ok)
    ∧ (s.get key ≠ n → u.on Reg.vidStatusSettling = true → s.volt.kept = none →
      ∀ t, exec (.registerWrite who key v) s = .next t → t.vidSet = s.vidSet) := by
  have hkey : key = Reg.slackTargetSlackLo.key := h.key_single (by decide +kernel)
  have heffect : (if s.get key = n then u else u.vidChanged .slackTarget (s.get key))
      = if s.get key = n ∨ u.on Reg.vidStatusSettling = false then u
        else { u with volt := { u.volt with kept := some (u.vidKept .slackTarget (s.get key)) } } := by
    unfold State.vidChanged
    by_cases hsame : s.get key = n
    · rw [if_pos hsame, if_pos (.inl hsame)]
    · rw [if_neg hsame]
      cases hset : u.on Reg.vidStatusSettling
      · exact (if_neg Bool.false_ne_true).trans ((if_pos rfl).trans (if_pos (.inr rfl)).symm)
      · exact (if_pos rfl).trans (if_neg (by simp [hsame])).symm
  have hexec : exec (.registerWrite who key v) s = .next (State.say (
      if s.get key = n ∨ u.on Reg.vidStatusSettling = false then u
      else { u with volt := { u.volt with kept := some (u.vidKept .slackTarget (s.get key)) } }) .ok) := by
    rw [← heffect]
    exact (h.registerWrite_stored rfl rfl rfl).trans (by rw [hu]; rfl)
  refine ⟨hexec, fun hdiff hset hkept t ht => ?_⟩
  rw [if_neg (by simp [hdiff, hset])] at hexec
  obtain rfl := Host.Outcome.next.inj (hexec.symm.trans ht)
  have hrd : ∀ f : Fld, f.key ≠ key → u.rd f = s.rd f := fun f hf => State.rd_congr (hu ▸ State.get_takes_ne hf)
  have hnone : u.volt.kept = none := by rw [hu]; exact hkept
  have hbefore : u.vidKept .slackTarget (s.get key) = s.vidEntries := by
    unfold State.vidKept State.vidEntries
    dsimp only
    rw [hnone, hrd _ (by rw [hkey]; decide), hrd Reg.vidFloorCode (by rw [hkey]; decide), hrd Reg.vidCeilCode (by rw [hkey]; decide), hkey]
    rfl
  have hafter : s.vidSet = s.vidEntries := by
    unfold State.vidSet
    rw [hkept]
    rfl
  exact hbefore.trans hafter.symm

end

/-- Settles O8. -/
theorem actingWrites : Obligations.ActingWrites := by
  unfold Obligations.ActingWrites
  refine ⟨fun s who v n h => hearthLoop_set h, fun s u who key a n v b hu => ⟨fun h => ?_, fun h m hm => ?_, dpllCfg_write hu,
    fun h l hl => holdoverCfg_write hu h hl, fun h => ?_, fun h => ?_⟩, fun s u who key a n v b hu => ⟨fun h => ?_, fun h => ?_, fun h => ?_,
    fun h => ?_, slackTarget_write hu⟩⟩
  · exact h.registerWrite_decides rfl rfl rfl
  · have hset : exec (.registerWrite who key v) s = .next ((applyTrigOutCfg u a).say .ok) :=
      (h.registerWrite_stored rfl rfl rfl).trans (by rw [hu]; rfl)
    rw [hset, applyTrigOutCfg_eq hm, show u.out a = s.out a by rw [hu]; rfl]
  · exact (h.registerWrite_stored rfl rfl rfl).trans (by rw [hu]; rfl)
  · exact (h.registerWrite_stored rfl rfl rfl).trans (by rw [hu]; rfl)
  · refine ⟨h.registerWrite_decides rfl rfl rfl, fun w hw => ?_⟩
    subst hw
    exact ⟨applyMCfg_disabled, applyMCfg_up⟩
  · exact (h.registerWrite_stored rfl rfl rfl).trans (by rw [hu]; rfl)
  · exact ⟨(h.registerWrite_stored rfl rfl rfl).trans (by rw [hu]; rfl), u.pauseStatus_paused a⟩
  · have hset : exec (.registerWrite who key v) s = .next ((applyRxTiming u a (s.get key) n).say .ok) :=
      (h.registerWrite_stored rfl rfl rfl).trans (by rw [hu]; rfl)
    rw [hset]
    unfold applyRxTiming
    simp only [Bool.or_eq_true, decide_eq_true_eq]

end Sys2Proof.Machine
end

section
/-! O54: the decision on the candidates that follows a SETBULK (R105). -/

namespace Sys2Proof.Machine

/-- The Hearth stands LOCKED on candidate 0, which has failed; the decision that leaves it has not been made. -/
def failedBefore : State :=
  ((State.reset.wr Reg.deviceStatusClockState 2).wr Reg.hearthStatusState 2).wr Reg.hearthStatusSelected 0

/-- A SET of HEARTH_LOOP to the value it has. -/
def loopItem : Item := { key := Reg.hearthLoopLoop0.key, ty := 1, raw := [0] }

/-- The body of a SETBULK of that item alone. -/
def loopBody : List Byte := natBe 2 1 ++ natBe 2 0 ++ itemBytes Reg.hearthLoopLoop0.key (.ok, 1, [0])

/-- Items that are all accepted, with the Hearth's state after them as given. -/
def HearthAfterIs (n : Nat) : Except (Nat × Item × Status) State → Bool
  | .ok t => t.rd Reg.hearthStatusState == n
  | .error _ => false

theorem loopBody_read : readItems (at_ loopBody 0 2) (loopBody.drop 4) = some [loopItem] := by decide +kernel

/-- The items alone leave the Hearth LOCKED. -/
theorem items_stay_locked :
    HearthAfterIs 2 (failedBefore.setAll .host (bulkOrder (placed [loopItem]))) = true := by decide +kernel

/-- The SETBULK makes the decision too: the Hearth goes to FREE_RUN. -/
theorem setbulk_decides :
    (failedBefore.kdpSet 0 { role := 4 } 6 false loopBody).2.rd Reg.hearthStatusState = 0 := by decide +kernel

/-- Refutes O54: an accepted SETBULK is said to leave what its items leave one by one; but the decision on the candidates that follows
items of the Hearth (R105) is part of it, and where the selected candidate has failed that decision leaves it. -/
theorem not_kdpOperations : ¬Obligations.KdpOperations := by
  unfold Obligations.KdpOperations
  intro h
  obtain ⟨-, -, -, hserved⟩ := h
  obtain ⟨-, -, hset, -⟩ := hserved failedBefore .host 0 0 { role := 4 } loopBody
  obtain ⟨-, hbulk, -⟩ := hset [loopItem] (by decide) (by decide) (by decide) (by decide) loopBody_read
  have hitems := items_stay_locked
  cases hall : failedBefore.setAll .host (bulkOrder (placed [loopItem])) with
  | error e =>
    rw [hall] at hitems
    exact absurd hitems Bool.false_ne_true
  | ok t =>
    rw [hall] at hitems
    have hlocked : t.rd Reg.hearthStatusState = 2 := of_decide_eq_true hitems
    have hfree := setbulk_decides
    rw [hbulk t hall, hlocked] at hfree
    exact absurd hfree (by decide)

end Sys2Proof.Machine
end

section
/-! O55: what the hold-off of event 0xD002 keeps at its end. -/

namespace Sys2Proof.Machine

/-- A hold-off of event 0xD002 that is over, with the one field that the end does not keep at 1. -/
def heldBefore : State := { State.reset with kdp := { State.reset.kdp with hold := { since := 1 } } }

/-- An outcome that completes with that field as given. -/
def HeldSinceIs (n : Int) : Done → Bool
  | .next w => w.kdp.hold.since == n
  | _ => false

theorem window_end_clears_since : HeldSinceIs 0 (exec .authFailWindowEnd heldBefore) = true := by decide +kernel

/-- Refutes O55: the end of the second after event 0xD002 with nothing held back is said to keep every field of the hold-off but two;
the model's end starts the hold-off anew and keeps its slot and address alone. -/
theorem not_kdpTimes : ¬Obligations.KdpTimes := by
  unfold Obligations.KdpTimes
  intro h
  obtain ⟨-, -, -, -, -, -, -, -, -, -, -, -, -, -, hend, -⟩ := h heldBefore _ 0 0 0 0 0 .host ⟨.u8, []⟩ rfl
  have hsince := window_end_clears_since
  rw [hend rfl] at hsince
  exact absurd hsince (by decide +kernel)

end Sys2Proof.Machine
end

section
/-! O53: how a KDP message is taken, checked and served (R371, R374, R408). -/

namespace Sys2Proof.Machine

/-! The rows of the table. -/

/-- A message that reached the engine over `src`, where the commands of its kind find it. -/
theorem KdpRows.exec {src : Sender} {msg : List Byte} {c : Instr} {k : Nat} (h : KdpRows src msg c k) (s : State) :
    exec c s = .next (s.kdpRow k src msg) := by
  revert h
  unfold KdpRows
  suffices hall : ∀ row ∈ (_ : List (Instr × Nat)), Machine.exec row.1 s = .next (s.kdpRow row.2 src msg) from fun h => hall _ h
  repeat refine List.forall_mem_cons.mpr ⟨rfl, ?_⟩
  exact List.forall_mem_nil _

section
variable {s u : State} {src : Sender} {msg : List Byte} {k : Nat}

theorem State.kdpRow_of_kind (h : kdpKind msg ≠ k) : s.kdpRow k src msg = s := if_pos (bne_iff_ne.mpr h)

theorem State.kdpRow_host (h : kdpKind msg = k) :
    s.kdpRow k .host msg = if s.host.request = some msg then s.serveHost else s := if_neg (by simp [h])

theorem State.kdpRow_net {p ip udp mac : Nat} (h : kdpKind msg = k) :
    s.kdpRow k (.net p ip udp mac) msg = if s.kdpListens p then s.serveHost.kdpServe (.net p ip udp mac) msg else s :=
  if_neg (by simp [h])

theorem State.kdpRow_unheld (h : s.host.request ≠ some msg) : s.kdpRow k .host msg = s := by
  by_cases hk : kdpKind msg = k
  · exact (State.kdpRow_host hk).trans (if_neg h)
  · exact State.kdpRow_of_kind hk

theorem State.kdpRow_held (hk : kdpKind msg = k) (h : s.host.request = some msg) : s.kdpRow k .host msg =
    { s.kdpServe .host msg with host := { (s.kdpServe .host msg).host with request := none } } := by
  refine ((State.kdpRow_host hk).trans (if_pos h)).trans ?_
  unfold State.serveHost
  rw [h]

theorem State.kdpRow_deaf {p ip udp mac : Nat} (h : s.kdpListens p = false) : s.kdpRow k (.net p ip udp mac) msg = s := by
  by_cases hk : kdpKind msg = k
  · exact (State.kdpRow_net hk).trans (if_neg (by simp [h]))
  · exact State.kdpRow_of_kind hk

theorem State.kdpRow_heard {p ip udp mac : Nat} (hk : kdpKind msg = k) (h : s.kdpListens p = true) :
    s.kdpRow k (.net p ip udp mac) msg = s.serveHost.kdpServe (.net p ip udp mac) msg :=
  (State.kdpRow_net hk).trans (if_pos h)

/-! The checks of R374, in their order. -/

/-- The checks behind those of a message's form, its sender and its session: MAC, sequence number, version. -/
def State.kdpChecked (s : State) (src : Sender) (ss : Nat) (x : Session) (m : KdpMsg) : State :=
  if x.authed && !(bit m.flags 2 && m.mac == kdpMac x.sk 0 m.head m.body) then s.bump Reg.kdpMacFail 1
  else if ss != 0 && !x.seqOk m.seq then s.bump Reg.kdpReplay 1
  else
    let x := if ss = 0 then x else x.seqTake m.seq
    if m.ty != 1 && m.version != x.version then
      (s.setSess ss (some x)).reply
        { src := src, version := x.version, ty := m.ty, sid := x.id, seq := m.seq, sk := if x.authed then some x.sk else none }
        (failBody m.ty x.version x.role .version)
    else
      let x := { x with at_ := s.rc }
      (s.setSess ss (some x)).kdpDo src ss x m

/-- The checks behind that of a message's form. -/
def State.kdpTaken (s : State) (src : Sender) (m : KdpMsg) : State :=
  if s.ignored src m then s
  else if m.ty = 1 && at_ m.body 0 1 = 0 && m.body.length != 0 then s.helloOpen src m
  else
    match (s.sessionOf src m).bind (fun k => (s.sess k).map (fun x => (k, x))) with
    | none =>
      (s.bump Reg.kdpNoSession 1).reply
        { src := src, version := if m.ty = 1 then 0x10 else m.version, ty := m.ty, sid := m.session, seq := m.seq, sk := none }
        (failBody m.ty 0 (helloRole src) .noSession)
    | some (ss, x) => s.kdpChecked src ss x m

theorem State.kdpServe_malformed (h : parseKdp msg (decide (src = .host)) = none) :
    s.kdpServe src msg = (s.bump Reg.kdpRxMsgs 1).bump Reg.kdpMalformed 1 := by
  unfold State.kdpServe
  cases src with
  | host =>
    have hform : parseKdp msg true = none := h
    simp only [hform]
  | net p ip udp mac =>
    have hform : parseKdp msg false = none := h
    simp only [hform]

theorem State.kdpServe_taken {m : KdpMsg} (h : parseKdp msg (decide (src = .host)) = some m) :
    s.kdpServe src msg = (s.bump Reg.kdpRxMsgs 1).kdpTaken src m := by
  unfold State.kdpServe
  cases src with
  | host =>
    have hform : parseKdp msg true = some m := h
    simp only [hform]
    rfl
  | net p ip udp mac =>
    have hform : parseKdp msg false = some m := h
    simp only [hform]
    rfl

variable {m : KdpMsg} {ss : Nat} {x : Session}

theorem State.ignored_iff : s.ignored src m = true
    ↔ ∃ p ip udp mac, src = .net p ip udp mac ∧ m.ty = 1 ∧ s.lockout ip ≠ none := by
  cases src with
  | host => simp [State.ignored]
  | net p ip udp mac => simp [State.ignored, Option.isSome_iff_ne_none]

theorem State.kdpTaken_opens (h : s.ignored src m = false) (hty : m.ty = 1) (hop : at_ m.body 0 1 = 0) (hbody : m.body ≠ []) :
    s.kdpTaken src m = s.helloOpen src m := by
  have hopen : (m.ty = 1 && at_ m.body 0 1 = 0 && m.body.length != 0) = true := by simp [hty, hop, hbody]
  unfold State.kdpTaken
  rw [if_neg (by simp [h]), if_pos hopen]

section
variable (h : s.ignored src m = false) (hopen : ¬(m.ty = 1 ∧ at_ m.body 0 1 = 0 ∧ m.body ≠ []))
include h hopen

theorem State.kdpTaken_sessionless (hss : s.sessionOf src m = none) : s.kdpTaken src m =
    (s.bump Reg.kdpNoSession 1).reply
      ⟨src, if m.ty = 1 then 0x10 else m.version, m.ty, m.session, m.seq, none⟩ (failBody m.ty 0 (helloRole src) .noSession) := by
  have hopen' : ¬(m.ty = 1 && at_ m.body 0 1 = 0 && m.body.length != 0) = true := by simpa [and_assoc] using hopen
  unfold State.kdpTaken
  rw [if_neg (by simp [h]), if_neg hopen', hss]
  rfl

theorem State.kdpTaken_checked (hss : s.sessionOf src m = some ss) (hx : s.sess ss = some x) :
    s.kdpTaken src m = s.kdpChecked src ss x m := by
  have hopen' : ¬(m.ty = 1 && at_ m.body 0 1 = 0 && m.body.length != 0) = true := by simpa [and_assoc] using hopen
  have hboth : (s.sessionOf src m).bind (fun k => (s.sess k).map (fun x => (k, x))) = some (ss, x) := by simp [hss, hx]
  unfold State.kdpTaken
  rw [if_neg (by simp [h]), if_neg hopen', hboth]

end

theorem State.kdpChecked_badMac (hauth : x.authed = true) (hmac : bit m.flags 2 = false ∨ m.mac ≠ kdpMac x.sk 0 m.head m.body) :
    s.kdpChecked src ss x m = s.bump Reg.kdpMacFail 1 := by
  refine if_pos ?_
  rcases hmac with hflag | hmac
  · simp [hauth, hflag]
  · simp [hauth, hmac]

/-- A session's sequence numbers are no part of its version. -/
theorem Session.seqTake_version (x : Session) (q : Nat) : (x.seqTake q).version = x.version := by
  unfold Session.seqTake
  split <;> rfl

/-- A session as the checks leave it has the version it had. -/
theorem Session.version_of_checked {y : Session} {q : Nat} (hy : y = if ss = 0 then x else x.seqTake q) : y.version = x.version := by
  subst hy
  split
  · rfl
  · exact x.seqTake_version q

section
variable (hmac : x.authed = false ∨ (bit m.flags 2 = true ∧ m.mac = kdpMac x.sk 0 m.head m.body))
include hmac

theorem State.kdpChecked_replayed (hss : ss ≠ 0) (hseq : x.seqOk m.seq = false) :
    s.kdpChecked src ss x m = s.bump Reg.kdpReplay 1 := by
  refine (if_neg ?_).trans (if_pos (by simp [hss, hseq]))
  rcases hmac with hauth | ⟨hflag, hmac⟩
  · simp [hauth]
  · simp [hflag, hmac]

variable {y : Session} (hy : y = if ss = 0 then x else x.seqTake m.seq) (hseq : ss = 0 ∨ x.seqOk m.seq = true)
include hy hseq

theorem State.kdpChecked_passed : s.kdpChecked src ss x m =
    if m.ty != 1 && m.version != y.version then
      (s.setSess ss (some y)).reply ⟨src, y.version, m.ty, y.id, m.seq, if y.authed then some y.sk else none⟩
        (failBody m.ty y.version y.role .version)
    else (s.setSess ss (some { y with at_ := s.rc })).kdpDo src ss { y with at_ := s.rc } m := by
  subst hy
  refine (if_neg ?_).trans (if_neg ?_)
  · rcases hmac with hauth | ⟨hflag, hmac⟩
    · simp [hauth]
    · simp [hflag, hmac]
  · rcases hseq with hss | hseq
    · simp [hss]
    · simp [hseq]

end

end

/-! Service by TYPE. -/

section
variable {s u v : State} {src : Sender} {ss : Nat} {x : Session} {m : KdpMsg} {to_ : ReplyTo} {l : List Byte}

/-- What a request of another TYPE than AUTH leaves before its session is looked after (R383 to R392). -/
def State.kdpReplied (u : State) (ss : Nat) (x : Session) (m : KdpMsg) (to_ : ReplyTo) : State :=
  match m.ty with
  | 1 => let r := u.helloOther ss x m.body; r.2.reply to_ r.1
  | 3 =>
    let r := u.kdpGet x.who m.body
    if u.overParts to_ r.1 then u.reply to_ (failBody 3 0 0 .tooLarge) else r.2.reply to_ r.1
  | 4 => let r := u.kdpSet ss x 4 (bit m.flags 3) m.body; r.2.reply to_ r.1
  | 5 => let r := u.kdpGetbulk x.who m.body; r.2.reply to_ r.1
  | 6 => let r := u.kdpSet ss x 6 false m.body; r.2.reply to_ r.1
  | 7 => let r := u.kdpSubscribe ss x m.body; r.2.reply to_ r.1
  | _ => let r := u.kdpCommit ss x m.seq m.body; match r.1 with | some b => r.2.reply to_ b | none => r.2

theorem State.kdpDo_replied (hu : u = { s with kdp := { s.kdp with serving := some ss } }) (hnow : u.catchUp = u)
    (hto : to_ = ⟨src, if m.ty = 1 then 0x10 else x.version, m.ty, x.id, m.seq, if x.authed then some x.sk else none⟩)
    (hty : m.ty ≠ 2) : s.kdpDo src ss x m = (u.kdpReplied ss x m to_).served ss := by
  subst hto
  unfold State.kdpDo State.kdpReplied
  dsimp only
  rw [← hu, hnow]
  split
  · contradiction
  · rfl

theorem State.kdpDo_auth (hu : u = { s with kdp := { s.kdp with serving := some ss } }) (hnow : u.catchUp = u)
    (hto : to_ = ⟨src, if m.ty = 1 then 0x10 else x.version, m.ty, x.id, m.seq, if x.authed then some x.sk else none⟩)
    (hty : m.ty = 2) : s.kdpDo src ss x m = u.together fun z =>
      (State.reply (z.kdpAuth ss x m).2.2 { to_ with sk := (z.kdpAuth ss x m).2.1 } (z.kdpAuth ss x m).1).served ss := by
  subst hto
  unfold State.kdpDo
  dsimp only
  rw [← hu, hnow]
  simp only [hty]

/-- Each TYPE's reply goes to its client. -/
theorem State.kdpReplied_reply (h : (m.ty = 1 ∧ (l, v) = u.helloOther ss x m.body)
    ∨ (m.ty = 4 ∧ (l, v) = u.kdpSet ss x 4 (bit m.flags 3) m.body)
    ∨ (m.ty = 5 ∧ (l, v) = u.kdpGetbulk x.who m.body) ∨ (m.ty = 6 ∧ (l, v) = u.kdpSet ss x 6 false m.body)
    ∨ (m.ty = 7 ∧ (l, v) = u.kdpSubscribe ss x m.body) ∨ (m.ty = 9 ∧ (some l, v) = u.kdpCommit ss x m.seq m.body)
    ∨ (m.ty = 3 ∧ (l, v) =
      (if u.overParts to_ (u.kdpGet x.who m.body).1 then (failBody 3 0 0 .tooLarge, u) else u.kdpGet x.who m.body))) :
    u.kdpReplied ss x m to_ = v.reply to_ l := by
  unfold State.kdpReplied
  rcases h with ⟨hty, hr⟩ | ⟨hty, hr⟩ | ⟨hty, hr⟩ | ⟨hty, hr⟩ | ⟨hty, hr⟩ | ⟨hty, hr⟩ | ⟨hty, hr⟩
  case inr.inr.inr.inr.inr.inr =>
    simp only [hty]
    split at hr
    next hover => exact (if_pos hover).trans (by rw [(Prod.mk.inj hr).1, (Prod.mk.inj hr).2])
    next hover => exact (if_neg hover).trans (by rw [← hr])
  all_goals simp only [hty, ← hr]

theorem State.kdpReplied_later (hty : m.ty = 9) (h : (none, v) = u.kdpCommit ss x m.seq m.body) :
    u.kdpReplied ss x m to_ = v := by
  unfold State.kdpReplied
  simp only [hty, ← h]

theorem State.served_open (h : s.kdp.closing = none) : s.served ss = { s with kdp := { s.kdp with serving := none } } := by
  unfold State.served
  rw [h]
  simp only [← h]

end

/-- Settles O53: each row is one message of its kind; the checks are taken one after another, and the service by TYPE. -/
theorem kdpRequests : Obligations.KdpRequests := by
  unfold Obligations.KdpRequests
  refine ⟨fun s src msg c k hrow => ?_, fun s u src msg hu => ?_⟩
  · rw [KdpRows.exec hrow s]
    refine ⟨fun hk => ?_, ?_, ?_, ?_⟩
    · rw [State.kdpRow_of_kind hk]
    · rintro rfl hreq
      rw [State.kdpRow_unheld hreq]
    · rintro hk rfl hreq _ rfl
      rw [State.kdpRow_held hk hreq]
    · rintro p ip udp mac rfl
      refine ⟨fun hdeaf => ?_, fun hk hhears => ?_⟩
      · rw [State.kdpRow_deaf hdeaf]
      · rw [State.kdpRow_heard hk hhears]
  · subst hu
    refine ⟨State.kdpServe_malformed, fun m hm => ?_, fun m hm hign hopen => ?_, fun s u src ss x m sk to_ hu hnow hsk hto => ?_⟩
    · rw [State.kdpServe_taken hm]
      exact ⟨State.ignored_iff, fun hign => if_pos hign, State.kdpTaken_opens⟩
    · rw [State.kdpServe_taken hm]
      refine ⟨State.kdpTaken_sessionless hign hopen, fun ss x hss hx => ?_⟩
      rw [State.kdpTaken_checked hign hopen hss hx]
      refine ⟨State.kdpChecked_badMac, fun hmac => ⟨State.kdpChecked_replayed hmac, fun y hy hseq => ?_⟩⟩
      rw [State.kdpChecked_passed hmac hy hseq, Session.version_of_checked hy]
      refine ⟨fun hty hver => if_pos (by simp [hty, hver]), fun hver => if_neg ?_⟩
      rcases hver with hty | hver
      · simp [hty]
      · simp [hver]
    · subst hsk
      refine ⟨fun v l hl => ?_, fun v hty hv => ?_, State.kdpDo_auth hu hnow hto, fun z => State.served_open⟩
      · have hty : m.ty ≠ 2 := by omega
        rw [State.kdpDo_replied hu hnow hto hty, State.kdpReplied_reply hl]
      · rw [State.kdpDo_replied hu hnow hto (by omega), State.kdpReplied_later hty hv]

end Sys2Proof.Machine
end
